-- ==== Sys2Proof/Word.lean ====
section
/-! DEFINITION. The words of the MVZ-3290 (32- and 64-bit registers, bytes) and the plain-data table type that
State uses for sparse collections. -/

namespace Sys2Proof

abbrev Byte := BitVec 8
abbrev Half := BitVec 16
abbrev Word := BitVec 32
abbrev Dword := BitVec 64

/-- A sparse table by natural-number key: plain data, keys strictly rising (see `Sys2Proof.Machine.mset`). -/
abbrev Map (α : Type) := List (Nat × α)

end Sys2Proof
end

