-- ==== Sys2Proof/Syntax.lean ====
section
/-! DEFINITION. The commands of the MVZ-3290 as a block: one constructor per row of spec/opcode_table.json, and the
operand types they take. A command stands for one step of one of the device's agents or of the world around it. -/

namespace Sys2Proof

/-- Where a string instruction issues: an engine and a string place, 16 × slot + place in slot (R69). -/
structure Site where
  engine : Fin 32
  place : Fin 64
  deriving DecidableEq, Repr

/-- The header fields of an instruction word (R98), but CLASS and OP. -/
structure Hdr where
  pred : BitVec 3
  pneg : Bool
  dst : BitVec 8
  src0 : BitVec 8
  src1 : BitVec 8
  deriving DecidableEq, Repr

/-- Comparisons of ISETP, FSETP and USETP (R105). -/
inductive Cmp where
  | eq | ne | lt | le | gt | ge
  deriving DecidableEq, Repr

/-- Source of MOV (R105): a vector register, the low word of a uniform register, or an immediate. -/
inductive Src where
  | reg (r : BitVec 8)
  | uni (u : Fin 64)
  | imm (w : Word)
  deriving DecidableEq, Repr

/-- Source of UMOV (R105): a uniform register or an immediate. -/
inductive USrc where
  | uni (u : Fin 64)
  | imm (w : Dword)
  deriving DecidableEq, Repr

/-- Fields of CVT (R35, R50, R53, R55): source and destination format codes, rounding mode, overflow mode, signedness
of integer formats, and the block size of MX formats. -/
structure CvtMode where
  src : BitVec 5
  dst : BitVec 5
  rm : BitVec 2
  ieee : Bool
  srcUns : Bool
  dstUns : Bool
  block16 : Bool
  deriving DecidableEq, Repr

/-- Memory atomic operations (R102). -/
inductive AtomOp where
  | add | smin | umin | smax | umax | and | or | xor | exch | cas | inc | dec | fadd | fmin | fmax
  deriving DecidableEq, Repr

/-- What a texture instruction names (R405; its encoding is not given, log entry 42): the even uniform registers of the
pairs that hold the image's and the sampler's descriptor address, four packed FP16 values instead of four words, the
component TG4 gathers, the register of the depth-compare reference. -/
structure TexOps where
  image : Fin 32
  sampler : Fin 32
  packed : Bool
  comp : Fin 4
  ref : BitVec 8
  deriving DecidableEq, Repr

/-- A value that RQ.GET reads (R411). -/
inductive RqField where
  | t | bary | instIndex | custom | geometry | primitive | frontFace | origin | direction | toObject | toWorld
  deriving DecidableEq, Repr

/-- What WORKGROUP_LAUNCH launches (R73, R385). -/
inductive Launch where
  /-- the next workgroup of the n-th dispatch in progress on the engine -/
  | compute (disp : Nat)
  /-- a vertex string of a draw of the engine's own queue: up to 32 vertices, each as instance * COUNT + place -/
  | vertex (pass order : Nat) (verts : List Nat)
  /-- a fragment string of a primitive: up to eight 2 × 2 pixel quads, each as (y / 2) * 65536 + x / 2 -/
  | fragment (pass order prim : Nat) (quads : List Nat)
  deriving DecidableEq, Repr

/-- A caravan message (R462). -/
structure CvlMsg where
  dst : Nat
  src : Nat
  tag : Nat
  addr : Nat
  aux : Nat
  /-- SIZE and HOPS_LEFT -/
  size : Nat
  hops : Nat
  data : List Byte
  poison : Bool
  deriving DecidableEq, Repr

/-- What the training of a caravan port finds (R458, R459): width ×8 or ×4, 64 or 32 GT/s, the die at the far end. -/
structure PortTrain where
  wide : Bool
  rate64 : Bool
  peer : Fin 8
  dieId : Dword
  deriving DecidableEq, Repr

/-- What boot meets outside the die: the UCIe link that steps 13 trains (modules, lanes per module, GT/s, UCIe revision)
and each caravan port, none where it does not train (R243, R459). -/
structure BootWorld where
  modules : Nat
  lanes : Nat
  rate : Nat
  ucieRev : Nat
  ports : List (Option PortTrain)
  deriving DecidableEq, Repr

/-- A fault as a unit reports it to the collector (R481, R483). -/
structure FaultIn where
  code : Nat
  kind : Nat
  index : Nat
  addr : Dword
  info : Dword
  waybill : Dword
  seq : Word
  deriving DecidableEq, Repr

/-- The commands. -/
inductive Instr where
  /-- BRA (R100): Branch: lanes where PRED holds jump to PC + 8 + 8 × OFFSET and the others fall through, which may split the group. -/
  | bra (w : Site) (h : Hdr) (low : BitVec 26)
  /-- JMP (R100): Jumps to the 64-bit address held in the SRC0 register pair. -/
  | jmp (w : Site) (h : Hdr) (low : BitVec 26)
  /-- CALL (R100): Writes PC + 8 to the DST pair and jumps to the relative target. -/
  | call (w : Site) (h : Hdr) (low : BitVec 26)
  /-- CALLI (R100): Writes PC + 8 to the DST pair and jumps to the address held in the SRC0 pair. -/
  | calli (w : Site) (h : Hdr) (low : BitVec 26)
  /-- EXIT (R80): Ends the executing threads; they leave the group table and the expected counts of the workgroup's barriers. -/
  | exit (w : Site) (h : Hdr) (low : BitVec 26)
  /-- JOIN (R81): Reconvergence hint: the group yields when another group of its string has a lower program counter. -/
  | join (w : Site) (h : Hdr) (low : BitVec 26)
  /-- YIELD (R81): The active group gives way to the next group in round-robin order. -/
  | yield (w : Site) (h : Hdr) (low : BitVec 26)
  /-- SLEEP (R100): Makes the group ineligible to issue for 16 × count CCLK. -/
  | sleep (w : Site) (h : Hdr) (low : BitVec 26)
  /-- GMASK (R100): Writes the active group's lane mask to DST. -/
  | gmask (w : Site) (h : Hdr) (low : BitVec 26)
  /-- TRAP (R97): Stops the string and retires the dispatch with E_STRING_TRAP and the trap code. -/
  | trap (w : Site) (h : Hdr) (low : BitVec 26)
  /-- NOP (R100): String-control instruction with no effect. -/
  | nop (w : Site) (h : Hdr) (low : BitVec 26)
  /-- BAR_SYNC (R85): The executing lanes arrive at a named barrier and the group blocks until the phase completes. -/
  | barSync (w : Site) (h : Hdr) (low : BitVec 26)
  /-- BAR_ARRIVE (R85): The executing lanes arrive at a named barrier without blocking. -/
  | barArrive (w : Site) (h : Hdr) (low : BitVec 26)
  /-- BAR_WAIT (R85): Blocks the group until the barrier phase in which its lanes last arrived completes. -/
  | barWait (w : Site) (h : Hdr) (low : BitVec 26)
  /-- SHFL (R87): Moves a 32-bit value between lanes of the active group by IDX, UP, DOWN or XOR mode within a segment. -/
  | shfl (w : Site) (h : Hdr) (low : BitVec 26)
  /-- VOTE (R88): Computes ANY, ALL, UNI or BALLOT over the executing lanes and writes the result to every executing lane. -/
  | vote (w : Site) (h : Hdr) (low : BitVec 26)
  /-- FENCE (R179): Acquire and/or release fence at engine, Quad, die or caravan scope. -/
  | fence (w : Site) (h : Hdr) (low : BitVec 26)
  /-- ATOM_ADD (R89): Atomic add at each distinct address, combined across lanes in ascending lane order. -/
  | atomAdd (w : Site) (h : Hdr) (low : BitVec 26)
  /-- ATOM_SMIN (R102): Atomic signed minimum. -/
  | atomSmin (w : Site) (h : Hdr) (low : BitVec 26)
  /-- ATOM_UMIN (R102): Atomic unsigned minimum. -/
  | atomUmin (w : Site) (h : Hdr) (low : BitVec 26)
  /-- ATOM_SMAX (R102): Atomic signed maximum. -/
  | atomSmax (w : Site) (h : Hdr) (low : BitVec 26)
  /-- ATOM_UMAX (R102): Atomic unsigned maximum. -/
  | atomUmax (w : Site) (h : Hdr) (low : BitVec 26)
  /-- ATOM_AND (R102): Atomic bitwise AND. -/
  | atomAnd (w : Site) (h : Hdr) (low : BitVec 26)
  /-- ATOM_OR (R102): Atomic bitwise OR. -/
  | atomOr (w : Site) (h : Hdr) (low : BitVec 26)
  /-- ATOM_XOR (R102): Atomic bitwise XOR. -/
  | atomXor (w : Site) (h : Hdr) (low : BitVec 26)
  /-- ATOM_EXCH (R102): Atomic exchange. -/
  | atomExch (w : Site) (h : Hdr) (low : BitVec 26)
  /-- ATOM_CAS (R90): Atomic compare-and-swap, with the lanes tried in ascending lane order against the value as updated by lower lanes. -/
  | atomCas (w : Site) (h : Hdr) (low : BitVec 26)
  /-- ATOM_INC (R102): Atomic wrapping increment bounded by the source value. -/
  | atomInc (w : Site) (h : Hdr) (low : BitVec 26)
  /-- ATOM_DEC (R102): Atomic wrapping decrement bounded by the source value. -/
  | atomDec (w : Site) (h : Hdr) (low : BitVec 26)
  /-- ATOM_FADD (R91): Atomic floating-point add with RNE; combined lanes are summed in a tree. -/
  | atomFadd (w : Site) (h : Hdr) (low : BitVec 26)
  /-- ATOM_FMIN (R102): Atomic floating-point minimumNumber. -/
  | atomFmin (w : Site) (h : Hdr) (low : BitVec 26)
  /-- ATOM_FMAX (R102): Atomic floating-point maximumNumber. -/
  | atomFmax (w : Site) (h : Hdr) (low : BitVec 26)
  /-- ALLOC (R210): Each executing lane requests a heap block; with GROW = 1 the string may park and raise F_HEAP_GROW. -/
  | alloc (w : Site) (h : Hdr) (low : BitVec 26)
  /-- FREE (R212): Returns a block to its heap; a bad free is counted and logged. -/
  | free (w : Site) (h : Hdr) (low : BitVec 26)
  /-- IADD (R105): 32-bit integer add, modulo 2^32. -/
  | iadd (w : Site) (h : Hdr)
  /-- ISUB (R105): 32-bit integer subtract, modulo 2^32. -/
  | isub (w : Site) (h : Hdr)
  /-- IMIN (R105): Signed or unsigned 32-bit integer minimum. -/
  | imin (w : Site) (h : Hdr) (sgn : Bool)
  /-- IMAX (R105): Signed or unsigned 32-bit integer maximum. -/
  | imax (w : Site) (h : Hdr) (sgn : Bool)
  /-- AND (R105): 32-bit bitwise AND. -/
  | and (w : Site) (h : Hdr)
  /-- OR (R105): 32-bit bitwise OR. -/
  | or (w : Site) (h : Hdr)
  /-- XOR (R105): 32-bit bitwise XOR. -/
  | xor (w : Site) (h : Hdr)
  /-- NOT (R105): 32-bit bitwise NOT. -/
  | not (w : Site) (h : Hdr)
  /-- SHL (R105): Shift left, with the count taken modulo 32. -/
  | shl (w : Site) (h : Hdr)
  /-- SHR (R105): Logical shift right, with the count taken modulo 32. -/
  | shr (w : Site) (h : Hdr)
  /-- SAR (R105): Arithmetic shift right, with the count taken modulo 32. -/
  | sar (w : Site) (h : Hdr)
  /-- POPC (R105): Population count. -/
  | popc (w : Site) (h : Hdr)
  /-- CLZ (R105): Count of leading zeros. -/
  | clz (w : Site) (h : Hdr)
  /-- BREV (R105): Bit reverse. -/
  | brev (w : Site) (h : Hdr)
  /-- BFE (R105): Bit-field extract. -/
  | bfe (w : Site) (h : Hdr) (src2 : BitVec 8) (sgn : Bool)
  /-- BFI (R105): Bit-field insert. -/
  | bfi (w : Site) (h : Hdr) (src2 src3 : BitVec 8)
  /-- ISETP (R105): Integer compare that writes a predicate. -/
  | isetp (w : Site) (h : Hdr) (cmp : Cmp) (sgn : Bool) (pd : BitVec 3)
  /-- SEL (R105): Select between two values. -/
  | sel (w : Site) (h : Hdr) (ps : BitVec 3) (inv : Bool)
  /-- MOV (R105): Register move. -/
  | mov (w : Site) (h : Hdr) (src : Src)
  /-- IMAD (R105): Integer multiply-add keeping the low 32 bits. -/
  | imad (w : Site) (h : Hdr) (src2 : BitVec 8)
  /-- IMUL_HI (R105): High 32 bits of a signed or unsigned product. -/
  | imulHi (w : Site) (h : Hdr) (sgn : Bool)
  /-- FADD (R105): IEEE binary32 add. -/
  | fadd (w : Site) (h : Hdr)
  /-- FMUL (R105): IEEE binary32 multiply. -/
  | fmul (w : Site) (h : Hdr)
  /-- FFMA (R105): Fused binary32 multiply-add. -/
  | ffma (w : Site) (h : Hdr) (src2 : BitVec 8)
  /-- FMIN (R105): binary32 minimumNumber. -/
  | fmin (w : Site) (h : Hdr)
  /-- FMAX (R105): binary32 maximumNumber. -/
  | fmax (w : Site) (h : Hdr)
  /-- FABS (R105): binary32 absolute value. -/
  | fabs (w : Site) (h : Hdr)
  /-- FNEG (R105): binary32 negation. -/
  | fneg (w : Site) (h : Hdr)
  /-- FSETP (R105): Floating-point compare that writes a predicate. -/
  | fsetp (w : Site) (h : Hdr) (cmp : Cmp) (pd : BitVec 3)
  /-- HADD2 (R105): Packed binary16 add. -/
  | hadd2 (w : Site) (h : Hdr)
  /-- HMUL2 (R105): Packed binary16 multiply. -/
  | hmul2 (w : Site) (h : Hdr)
  /-- HFMA2 (R105): Packed binary16 fused multiply-add. -/
  | hfma2 (w : Site) (h : Hdr) (src2 : BitVec 8)
  /-- RCP (R105): Reciprocal, within 1 ulp. -/
  | rcp (w : Site) (h : Hdr)
  /-- RSQ (R105): Reciprocal square root, within 1 ulp. -/
  | rsq (w : Site) (h : Hdr)
  /-- SQRT (R105): Square root, within 1 ulp. -/
  | sqrt (w : Site) (h : Hdr)
  /-- EXP2 (R105): Base-2 exponential, within 2 ulp. -/
  | exp2 (w : Site) (h : Hdr)
  /-- LOG2 (R105): Base-2 logarithm, within 2 ulp. -/
  | log2 (w : Site) (h : Hdr)
  /-- SIN (R105): Sine, with absolute error below 2^-21 for |x| ≤ π. -/
  | sin (w : Site) (h : Hdr)
  /-- COS (R105): Cosine, with absolute error below 2^-21 for |x| ≤ π. -/
  | cos (w : Site) (h : Hdr)
  /-- UADD (R105): 64-bit uniform add. -/
  | uadd (w : Site) (h : Hdr)
  /-- USUB (R105): 64-bit uniform subtract. -/
  | usub (w : Site) (h : Hdr)
  /-- UMUL (R105): 64-bit uniform multiply. -/
  | umul (w : Site) (h : Hdr)
  /-- UAND (R105): 64-bit uniform AND. -/
  | uand (w : Site) (h : Hdr)
  /-- UOR (R105): 64-bit uniform OR. -/
  | uor (w : Site) (h : Hdr)
  /-- UXOR (R105): 64-bit uniform XOR. -/
  | uxor (w : Site) (h : Hdr)
  /-- USHL (R105): 64-bit uniform shift left. -/
  | ushl (w : Site) (h : Hdr)
  /-- USHR (R105): 64-bit uniform shift right. -/
  | ushr (w : Site) (h : Hdr)
  /-- UMOV (R105): Uniform register move. -/
  | umov (w : Site) (h : Hdr) (src : USrc)
  /-- USETP (R105): Uniform compare that writes a predicate. -/
  | usetp (w : Site) (h : Hdr) (cmp : Cmp) (sgn : Bool) (pd : BitVec 3)
  /-- CVT (R55): Converts between any two format codes with the instruction's rounding and overflow modes. -/
  | cvt (w : Site) (h : Hdr) (c : CvtMode)
  /-- LD (R106): Load from global or shared space; translation faults park the string. -/
  | ld (w : Site) (h : Hdr) (shared : Bool) (size : Fin 5) (sgn : Bool)
  /-- ST (R106): Store to global or shared space; when lanes write the same byte, the highest lane wins. -/
  | st (w : Site) (h : Hdr) (shared : Bool) (size : Fin 5)
  /-- TMMA (R131): Tensor matrix multiply-accumulate at a shape and dataflow into an accumulator region. -/
  | tmma (w : Site) (h : Hdr) (low : BitVec 26)
  /-- TFILL (R132): Copies device memory into a tile region, optionally transposed. -/
  | tfill (w : Site) (h : Hdr) (low : BitVec 26)
  /-- TSPILL (R132): Copies a tile region out to device memory. -/
  | tspill (w : Site) (h : Hdr) (low : BitVec 26)
  /-- TCVT (R134): Converts a tile region into another format in tile memory. -/
  | tcvt (w : Site) (h : Hdr) (low : BitVec 26)
  /-- TWAIT (R135): Blocks the group until at most N of its string's tensor instructions remain incomplete. -/
  | twait (w : Site) (h : Hdr) (low : BitVec 26)
  /-- TEX (R405): Filtered texture sample with level of detail from the 2×2 quad. -/
  | tex (w : Site) (h : Hdr) (t : TexOps) (ext : Option (List Byte))
  /-- TEXB (R405): Texture sample with a level bias. -/
  | texb (w : Site) (h : Hdr) (t : TexOps) (ext : Option (List Byte))
  /-- TEXL (R405): Texture sample at an explicit level. -/
  | texl (w : Site) (h : Hdr) (t : TexOps) (ext : Option (List Byte))
  /-- TEXG (R405): Texture sample with explicit gradients. -/
  | texg (w : Site) (h : Hdr) (t : TexOps) (ext : Option (List Byte))
  /-- TLD (R405): Unfiltered texel fetch at integer coordinates. -/
  | tld (w : Site) (h : Hdr) (t : TexOps) (ext : Option (List Byte))
  /-- TG4 (R405): Gathers the four texels of a bilinear footprint. -/
  | tg4 (w : Site) (h : Hdr) (t : TexOps) (ext : Option (List Byte))
  /-- TQ (R405): Queries the size and level count of an image. -/
  | tq (w : Site) (h : Hdr) (t : TexOps) (ext : Option (List Byte))
  /-- RQ_INIT (R411): Starts a ray query in its query record. -/
  | rqInit (w : Site) (h : Hdr)
  /-- RQ_PROCEED (R411): Traverses until a candidate needs the shader or traversal ends, and writes the status. -/
  | rqProceed (w : Site) (h : Hdr) (ext : Option (List Byte))
  /-- RQ_CONFIRM (R411): Commits the triangle candidate. -/
  | rqConfirm (w : Site) (h : Hdr)
  /-- RQ_GENHIT (R411): Commits a procedural hit at a given t. -/
  | rqGenhit (w : Site) (h : Hdr)
  /-- RQ_TERMINATE (R411): Ends traversal, keeping the committed hit. -/
  | rqTerminate (w : Site) (h : Hdr)
  /-- RQ_GET (R411): Reads a committed or candidate value of the query. -/
  | rqGet (w : Site) (h : Hdr) (committed : Bool) (field : RqField) (ext : Option (List Byte))
  /-- PQ_KNN (R413): Finds the k nearest points within RAD2 and writes them sorted. -/
  | pqKnn (w : Site) (h : Hdr) (ext : Option (List Byte))
  /-- PQ_RADIUS (R413): Finds every point within RAD2 and writes at most MAX of them in depth-first order. -/
  | pqRadius (w : Site) (h : Hdr) (ext : Option (List Byte))
  /-- TLA (R404): Fragment reads an attachment sample of its own pixel from the tile buffer. -/
  | tla (w : Site) (h : Hdr) (att : Fin 5) (sample : Fin 8) (ordered : Bool)
  /-- TSA (R404): Fragment writes an attachment sample of its own pixel to the tile buffer. -/
  | tsa (w : Site) (h : Hdr) (att : Fin 5) (sample : Fin 8) (ordered : Bool)
  /-- TLDR (R404): Reads tile memory at a byte offset. -/
  | tldr (w : Site) (h : Hdr) (size : Fin 3)
  /-- TSTR (R404): Writes tile memory at a byte offset. -/
  | tstr (w : Site) (h : Hdr) (size : Fin 3)
  /-- STRING_PROMOTION (R77): A ready string that has not issued for 128 CCLK is promoted. -/
  | stringPromotion (w : Site)
  /-- BUDGET_EXPIRY (R81): The active group has spent its 64-instruction budget and gives way. -/
  | budgetExpiry (w : Site)
  /-- SLEEP_EXPIRY (R100): A sleeping group becomes eligible again after 16 × count CCLK. -/
  | sleepExpiry (w : Site) (pc : Dword)
  /-- WORKGROUP_LAUNCH (R73): A workgroup is launched once its engine has room for all of its strings. -/
  | workgroupLaunch (engine : Fin 32) (launch : Launch) (ext : Option (List Byte))
  /-- STRING_FREE (R76): A draining string's stores are accepted; it releases its place and registers, and the last string releases the workgroup. -/
  | stringFree (w : Site)
  /-- TENSOR_INSTRUCTION_START (R130): A tensor instruction starts once earlier instructions have released the regions it shares with them. -/
  | tensorInstructionStart (engine : Fin 32) (id : Nat)
  /-- TENSOR_INSTRUCTION_COMPLETE (R130): A tensor instruction completes, releases its regions and may unblock TWAIT. -/
  | tensorInstructionComplete (engine : Fin 32) (id : Nat) (host : Option (List Byte))
  /-- GANG_ARRIVE (R137): A member's outrider reaches a gang layer with its bank idle and sends ARRIVE; the last arrival runs the rendezvous. -/
  | gangArrive (engine : Fin 32)
  /-- GANG_RESUME (R146): The gang resumes 8 CCLK after the last parked string has replayed. -/
  | gangResume (engine : Fin 32)
  /-- GRANULE_BOUNDARY_MOVE (R142): The scheduler moves TB for a waiting pass or layer once the granules are free and the floors allow. -/
  | granuleBoundaryMove (engine : Fin 32)
  /-- DOORBELL (R306): A doorbell write sets a queue's tail, or is discarded as stale or out of range. -/
  | doorbell (offset : Nat) (data : List Byte)
  /-- COMMAND_ACCEPT (R311): A fetcher reads and checks a whole command, discards duplicates, moves head and raises use counts. -/
  | commandAccept (queue : Half) (entries : Option (List Byte)) (ext : Option (List Byte))
  /-- COMMAND_RETIRE (R321): A command's work ends; in ring order it releases and writes its completion record, SIGNAL, cookie and use-count decrements. -/
  | commandRetire (queue : Half)
  /-- QUEUE_NOP (R314): Queue command with no effect. -/
  | queueNop (queue : Half)
  /-- DISPATCH (R315): Launches a grid of workgroups on the queue's engine. -/
  | dispatch (queue : Half)
  /-- GANG_LAYER (R316): Gang-layer dispatch with a gang identifier and fallback kernels. -/
  | gangLayer (queue : Half)
  /-- EVENT_AWAIT (R317): Blocks later commands of the queue until every enabled event reaches its value. -/
  | eventAwait (queue : Half)
  /-- EVENT_RECORD (R317): Records its SIGNAL event. -/
  | eventRecord (queue : Half)
  /-- COPY (R318): Copy-engine job that copies BYTES bytes from SRC to DST. -/
  | copy (queue : Half) (host : Option (List Byte))
  /-- FILL (R318): Copy-engine job that fills a range with an 8-byte pattern. -/
  | fill (queue : Half) (host : Option (List Byte))
  /-- WATCH_TIMER_EXPIRY (R334): A unit's progress watch timer reaches HANG_WINDOW; it is extended for link retry or F_HANG is recorded. -/
  | watchTimerExpiry (unit : Nat)
  /-- PASS_BEGIN (R381): Opens a render pass on a member; the members compare payloads and obtain granules. -/
  | passBegin (queue : Half)
  /-- DRAW (R384): Submits a draw to the pass and announces its ORDER to the binning front. -/
  | draw (queue : Half)
  /-- PASS_END (R380): Ends the member's part of a pass and announces no more primitives. -/
  | passEnd (queue : Half)
  /-- GEOMETRY_PHASE_START (R376): Opening ends once every member holds its granules, and the geometry phase starts. -/
  | geometryPhaseStart (pass : Nat)
  /-- TILES_PHASE_START (R376): Geometry ends once every front has binned every primitive, and the members render their tiles. -/
  | tilesPhaseStart (pass : Nat)
  /-- PASS_RETIREMENT (R376): The last tile is stored, and every member's PASS_END retires on one FCLK. -/
  | passRetirement (pass : Nat)
  /-- GROW_WAIT_EXPIRY (R395): A manifest growth record outlives GROW_WAIT; it is closed, logged and an incremental render runs. -/
  | growWaitExpiry (pass : Nat)
  /-- COMPRESS (R448): Compresses a buffer into a DEFLATE, zlib or gzip stream. -/
  | compress (queue : Half) (host : Option (List Byte))
  /-- DECOMPRESS (R451): Decompresses a DEFLATE, zlib or gzip stream. -/
  | decompress (queue : Half) (host : Option (List Byte))
  /-- BATCH_START (R365): Holds a timed convoy's queue until the batch is released. -/
  | batchStart (queue : Half)
  /-- SWITCH_POINT (R370): Decision point where the deadline monitor may divert the batch to its fallback stream. -/
  | switchPoint (queue : Half)
  /-- TILE_HOLD (R350): Opens a tile-held region on the engine. -/
  | tileHold (queue : Half)
  /-- TILE_FREE (R350): Closes the tile-held region. -/
  | tileFree (queue : Half)
  /-- BATCH_END (R367): Ends the batch on its queue; at the batch end the predictor is updated and a deadline miss is reported. -/
  | batchEnd (queue : Half)
  /-- SLICE_END (R347): A convoy's slice ends; a charge point is taken and the scheduler chooses again. -/
  | sliceEnd (partition : Fin 8)
  /-- CONVOY_UNREADY_RESCHEDULE (R347): The resident convoy stops being ready and every engine is unloaded; the scheduler chooses again. -/
  | convoyUnreadyReschedule (partition : Fin 8)
  /-- BOUNDARY_SWITCH (R349): Every engine reaches its boundary and the chosen convoy becomes resident. -/
  | boundarySwitch (partition : Fin 8)
  /-- GRACE_PERIOD_EXPIRY (R351): A boundary switch misses its grace period, and forced pre-emption starts if a save slot is free. -/
  | gracePeriodExpiry (partition : Fin 8)
  /-- PARK_LIMIT_EXPIRY (R199): A fault record is outstanding for PARK_LIMIT FCLK, and the faulted convoy is switched out. -/
  | parkLimitExpiry (fault : Nat)
  /-- PREEMPTION_STOP_TIMEOUT (R335): A forced stop misses its bound; the collector records F_STOP_FAILED and fences the unit. -/
  | preemptionStopTimeout (partition : Fin 8)
  /-- PREEMPTION_SAVE_COMPLETE (R353): Every engine has written its save slot and released, and the next convoy becomes resident. -/
  | preemptionSaveComplete (partition : Fin 8)
  /-- CONVOY_RESTORE (R355): A convoy with a save slot becomes resident; the engines reload their state and resume. -/
  | convoyRestore (partition : Fin 8)
  /-- CHARGE_POINT_TICK (R361): Every 2^20 FCLK with a resident convoy, engines add cycles and virtual time to their charge contexts. -/
  | chargePointTick (partition : Fin 8)
  /-- TRANSLATION_WALK (R192): A walker completes a page-table walk for a shared-TLB miss. -/
  | translationWalk (asid : Half) (va : Dword)
  /-- FAULT_RECORD_WRITE (R196): A waiting fault record is written to its ring once a slot is free, and a cookie is raised. -/
  | faultRecordWrite (fault : Nat)
  /-- OBJECT_RECLAIM (R207): A DOOMED object's use count reaches zero; it is unmapped, its backing zeroed and freed, and its event recorded. -/
  | objectReclaim (handle : Nat)
  /-- L2_ATOMIC (R172): An L2 slice performs a global atomic on the line it owns. -/
  | l2Atomic (addr : Nat) (op : AtomOp) (wide : Bool) (operand compare : Dword)
  /-- L2_FILL (R161): A line fill chooses a victim among the eligible ways, or waits when none is eligible. -/
  | l2Fill (line : Nat)
  /-- DRAM_READ_MODIFY_WRITE (R229): A partial-sector write is completed by a read, correct, merge and write. -/
  | dramReadModifyWrite (sector : Nat)
  /-- WAY_CE_LIMIT_REACHED (R231): An L2 way's corrected count reaches WAY_CE_LIMIT and the way leaves service. -/
  | wayCeLimitReached (slice : Fin 16) (way : Fin 16)
  /-- SCRUB_READ (R233): An idle scrubber reads a granule or line and writes back any correction. -/
  | scrubRead (scrubber : Nat)
  /-- SCRUB_LAP_END (R234): A scrubber finishes a lap, stores its duration, resets lap counts and may trigger a retrain. -/
  | scrubLapEnd (scrubber : Nat)
  /-- LAP_WARN_EXPIRY (R234): A DRAM lap exceeds LAP_WARN DCLK, and one logbook record is written. -/
  | lapWarnExpiry (scrubber : Nat)
  /-- PHY_SAMPLER_STEP (R236): Every 4,096 DCLK, a read lane's data sampler moves one tap toward the eye centre. -/
  | phySamplerStep (lane : Nat) (up : Bool)
  /-- DQS_OSCILLATOR_READ (R236): Every 2^20 DCLK, the DRAM DQS oscillator is read to track write timing. -/
  | dqsOscillatorRead (dram : Nat) (value : Nat)
  /-- IMPEDANCE_CALIBRATION (R236): Impedance calibration runs every 2^22 ACLK. -/
  | impedanceCalibration (code : Nat)
  /-- CHANNEL_RETRAIN (R237): A channel is migrated to spill homes, excluded, trained and copied back. -/
  | channelRetrain (channel : Fin 24) (ok : Bool)
  /-- MIGRATION_GRANULE_COPY (R237): One granule copy to or from its spill home completes and the pointer advances. -/
  | migrationGranuleCopy (channel : Fin 24)
  /-- CHANNEL_LOST (R238): A channel fails at the safe rate or is unresponsive; it is migrated and FAILED, or the fault is fatal. -/
  | channelLost (channel : Fin 24) (readable : Bool)
  /-- REGISTER_WRITE (R264): A write to a register with no row of its own, under staging, RWQ, posted and lost-write rules. -/
  | registerWrite (offset : Nat) (data : List Byte)
  /-- REGISTER_LOW_WORD_READ (R263): A low-word or 64-bit read of a 64-bit register loads its high-word shadow. -/
  | registerLowWordRead (offset len : Nat)
  /-- MBX_POST (R261): POST in MBX_CTRL hands the request buffer to the caravan master. -/
  | mbxPost (pair : Fin 8)
  /-- MBX_ACK (R282): ACK in MBX_CTRL clears RSP_READY and lets a held response be written. -/
  | mbxAck (pair : Fin 8)
  /-- COOKIE_RING_ENABLE (R273): Setting ENABLE checks the configuration CRC and sets HEAD and TAIL to 0. -/
  | cookieRingEnable (ring : Fin 16) (value : Word)
  /-- COOKIE_RING_DISABLE (R273): Clearing ENABLE stops new cookies; cookies already given a slot are still written. -/
  | cookieRingDisable (ring : Fin 16) (value : Word)
  /-- COOKIE_RING_HEAD_WRITE (R276): Host moves HRW_CKR_HEAD; an out-of-range value is a lost write. -/
  | cookieRingHeadWrite (ring : Fin 16) (value : Word)
  /-- CFG_CRC_CHECK (R268): Every 2^16 cycles, an enabled block compares its configuration CRC and raises F_CFG_CRC on mismatch. -/
  | cfgCrcCheck (block : Nat)
  /-- MSIX_UNMASK (R271): Unmasking a vector with its pending bit set sends one message. -/
  | msixUnmask (vector : Option (Fin 2048)) (masked : Bool)
  /-- APERTURE_READ (R250): Host read through BAR4, translated in ASID 0xFFFF. -/
  | apertureRead (offset len : Nat) (ext : Option (List Byte))
  /-- APERTURE_WRITE (R250): Host write through BAR4; a faulting write is discarded and logged. -/
  | apertureWrite (offset : Nat) (data : List Byte)
  /-- APERTURE_ATOMIC (R251): Host AtomicOp to BAR4 performed at the owning L2 slice. -/
  | apertureAtomic (offset : Nat) (op : AtomOp) (wide : Bool) (operand compare : Dword)
  /-- FUNCTION_LEVEL_RESET (R254): Stops outriders and removes host-created objects, rings and sessions, without resetting the die. -/
  | functionLevelReset
  /-- D3HOT_ENTRY (R255): The function enters D3hot; BAR decoding stops and host-bound requests wait. -/
  | d3hotEntry
  /-- D0_RETURN (R255): The function returns to D0, and waiting requests, cookies and messages leave in order. -/
  | d0Return
  /-- HOST_COMPLETION (R247): A completion for a device request arrives; UR or CA returns poisoned data. -/
  | hostCompletion (tag : Nat) (status : Nat) (data : List Byte) (poison : Bool)
  /-- HOST_COMPLETION_TIMEOUT (R247): A device request toward the host has no completion within HOST_CPL_TIMEOUT and returns poisoned. -/
  | hostCompletionTimeout (tag : Nat)
  /-- POISONED_TLP_RX (R248): A poisoned TLP is received and its target written as poisoned data. -/
  | poisonedTlpRx (offset : Nat) (data : List Byte)
  /-- MALFORMED_TLP_RX (R248): A malformed TLP is received, a fatal host-link fault. -/
  | malformedTlpRx
  /-- HOST_LINK_DOWN (R248): The UCIe link goes down after its retry budget, a fatal fault. -/
  | hostLinkDown
  /-- SESSION_OPEN (R285): Opens a session with a role and revision and returns a challenge. -/
  | sessionOpen (pair : Fin 8)
  /-- SESSION_AUTH (R287): Verifies both signatures over the challenge message and authenticates the session. -/
  | sessionAuth (pair : Fin 8) (buf : Option (List Byte))
  /-- SESSION_CLOSE (R289): Closes the session. -/
  | sessionClose (pair : Fin 8)
  /-- CHALLENGE_EXPIRY (R288): A challenge expires 2^22 ACLK after SESSION_OPEN. -/
  | challengeExpiry (session : Word)
  /-- AUTH_LOCKOUT_END (R288): The 2^25 ACLK authentication lockout ends. -/
  | authLockoutEnd
  /-- PING (R298): Echoes a value with an MCLK stamp. -/
  | ping (pair : Fin 8)
  /-- REG_READ (R300): Reads up to four registers by key. -/
  | regRead (pair : Fin 8)
  /-- REG_WRITE (R300): Writes masked bits of a register by key and returns the value read after. -/
  | regWrite (pair : Fin 8)
  /-- QUEUE_CREATE (R304): Creates a queue bound to an ASID, kind, unit and convoy. -/
  | queueCreate (pair : Fin 8)
  /-- QUEUE_DESTROY (R329): Destroys a quiescent or stopped queue, discarding its unaccepted entries. -/
  | queueDestroy (pair : Fin 8)
  /-- QUEUE_RESTART (R329): Resumes a stopped queue at a given head. -/
  | queueRestart (pair : Fin 8)
  /-- EVENT_ALLOC (R298): Allocates an event with an initial value and optional vector. -/
  | eventAlloc (pair : Fin 8)
  /-- EVENT_FREE (R325): Frees an event unless a command waits on it or signals it. -/
  | eventFree (pair : Fin 8)
  /-- EVENT_BIND (R298): Binds an event to a vector, or unbinds it. -/
  | eventBind (pair : Fin 8)
  /-- PARTITION_SET (R337): Forms, changes or removes a partition and its settings. -/
  | partitionSet (pair : Fin 8)
  /-- CONVOY_CREATE (R341): Creates a convoy in a partition with a share. -/
  | convoyCreate (pair : Fin 8)
  /-- CONVOY_DESTROY (R342): Destroys a convoy with no queues bound. -/
  | convoyDestroy (pair : Fin 8)
  /-- CONVOY_SET_SHARE (R341): Changes a convoy's share within SHARE_MAX. -/
  | convoySetShare (pair : Fin 8)
  /-- CONVOY_SET_TIMED (R363): Makes a convoy timed or untimed and reads its fallback table. -/
  | convoySetTimed (pair : Fin 8) (buf : Option (List Byte))
  /-- CONTEXT_READ (R362): Takes a charge point and copies accounting records to a buffer. -/
  | contextRead (pair : Fin 8)
  /-- ASID_CREATE (R183): Creates an address space naming a fault ring. -/
  | asidCreate (pair : Fin 8)
  /-- ASID_DESTROY (R298): Destroys an address space with no queue or live object. -/
  | asidDestroy (pair : Fin 8)
  /-- MMU_SET_FAULT_RING_ENABLE (R196): Sets up a fault ring with nonzero SIZE; waiting records are then written. -/
  | mmuSetFaultRingEnable (pair : Fin 8)
  /-- MMU_SET_FAULT_RING_DISABLE (R196): Disables a fault ring with SIZE 0; later records wait. -/
  | mmuSetFaultRingDisable (pair : Fin 8)
  /-- FAULT_RESOLVE_RETRY (R198): Answers a fault record with RETRY, and the attached agents resume. -/
  | faultResolveRetry (pair : Fin 8)
  /-- FAULT_RESOLVE_DECLINE (R198): Answers a fault record with DECLINE, acting per kind. -/
  | faultResolveDecline (pair : Fin 8)
  /-- FAULT_RESOLVE_ABORT (R198): Answers a fault record with ABORT, failing the attached work with E_PAGE_FAULT. -/
  | faultResolveAbort (pair : Fin 8)
  /-- OBJ_CREATE (R201): Creates and maps a memory object. -/
  | objCreate (pair : Fin 8) (buf : Option (List Byte))
  /-- OBJ_ALIAS (R201): Maps an object's backing under a second handle. -/
  | objAlias (pair : Fin 8)
  /-- OBJ_FREE (R206): Dooms an object and records a horizon for each queue of its ASID. -/
  | objFree (pair : Fin 8)
  /-- OBJ_QUERY (R202): Reports an object's state, use count and mapping. -/
  | objQuery (pair : Fin 8)
  /-- HEAP_CREATE (R208): Fills a heap slot. -/
  | heapCreate (pair : Fin 8)
  /-- HEAP_ADD (R208): Gives a heap another heap object. -/
  | heapAdd (pair : Fin 8)
  /-- HEAP_DESTROY (R208): Frees a heap slot and dooms its heap objects. -/
  | heapDestroy (pair : Fin 8)
  /-- HEAP_QUERY (R212): Reports a heap's chunks, bytes and bad frees. -/
  | heapQuery (pair : Fin 8)
  /-- L2_SET_STRONGROOM (R168): Grows or shrinks the strongroom to the given number of ways. -/
  | l2SetStrongroom (pair : Fin 8)
  /-- DRC_CONFIGURE (R215): Stores the DRAM mode, population, spill and rate for the next boot. -/
  | drcConfigure (pair : Fin 8)
  /-- DRC_RETRAIN (R237): Long command that retrains a channel live. -/
  | drcRetrain (pair : Fin 8)
  /-- ECC_LOG_READ (R232): Copies the correctable-error log to a buffer. -/
  | eccLogRead (pair : Fin 8)
  /-- ECC_LOG_CLEAR (R232): Empties the correctable-error log and zeroes LOG_OVERWRITTEN. -/
  | eccLogClear (pair : Fin 8)
  /-- DSP_PIPE_SET (R417): Configures a disabled display pipe. -/
  | dspPipeSet (pair : Fin 8) (buf : Option (List Byte))
  /-- DSP_PIPE_ENABLE_ON (R420): Enables a pipe after its CRC check, trains the link and composes from the next frame start. -/
  | dspPipeEnableOn (pair : Fin 8)
  /-- DSP_PIPE_ENABLE_OFF (R420): Stops a pipe at the end of its frame and sends idle. -/
  | dspPipeEnableOff (pair : Fin 8)
  /-- DSP_LAYER_SET (R428): Stages a layer descriptor, applying the staged set at the next frame start when APPLY is set. -/
  | dspLayerSet (pair : Fin 8) (buf : Option (List Byte))
  /-- DSP_SCALER_LOAD (R433): Loads scaler coefficients that go live at the next frame start. -/
  | dspScalerLoad (pair : Fin 8) (buf : Option (List Byte))
  /-- CVL_ROUTE_SET (R466): Checks and writes a die's routing table. -/
  | cvlRouteSet (pair : Fin 8) (buf : Option (List Byte))
  /-- CVL_MEMBER_ADMIT (R474): Long command that admits a die to the caravan. -/
  | cvlMemberAdmit (pair : Fin 8)
  /-- CVL_MEMBER_REMOVE (R475): Long command that removes a die from the caravan. -/
  | cvlMemberRemove (pair : Fin 8)
  /-- SAMPLE_RING_SET_ENABLE (R546): Enables a sample ring with a counter selection. -/
  | sampleRingSetEnable (pair : Fin 8) (buf : Option (List Byte))
  /-- SAMPLE_RING_SET_DISABLE (R551): Disables a sample ring after writing the latched records. -/
  | sampleRingSetDisable (pair : Fin 8)
  /-- FLT_READ (R484): Copies held fault records to a buffer. -/
  | fltRead (pair : Fin 8)
  /-- LOGBOOK_READ (R501): Copies logbook records to a buffer. -/
  | logbookRead (pair : Fin 8)
  /-- FLT_POLICY_SET (R485): Changes the ACTION bits and intervals of a fault code. -/
  | fltPolicySet (pair : Fin 8)
  /-- UNIT_FENCE (R486): Applies a software fence to a unit. -/
  | unitFence (pair : Fin 8)
  /-- UNIT_READMIT (R494): Runs the fence exit of a unit at once. -/
  | unitReadmit (pair : Fin 8) (selfTest : Bool)
  /-- ERRN_SET (R495): Sets the software level of ERR_N. -/
  | errnSet (pair : Fin 8)
  /-- PWR_HALT (R512): Responds and starts the drain toward Halt. -/
  | pwrHalt (pair : Fin 8)
  /-- PWR_LIMIT_SET (R508): Sets the sustained and peak power limits live. -/
  | pwrLimitSet (pair : Fin 8)
  /-- SETTING_GET (R533): Reads a setting or boot-ledger key. -/
  | settingGet (pair : Fin 8)
  /-- SETTING_SET (R533): Changes a setting in the working copy. -/
  | settingSet (pair : Fin 8)
  /-- STORE_SETTINGS (R532): Long command that writes the working copy to both ledger copies. -/
  | storeSettings (pair : Fin 8)
  /-- FW_STAGE (R535): Verifies a firmware image and writes it to the inactive slot. -/
  | fwStage (pair : Fin 8) (buf : Option (List Byte))
  /-- FW_ACTIVATE (R536): Hands over live to the staged firmware. -/
  | fwActivate (pair : Fin 8)
  /-- UCODE_UPDATE (R537): Verifies microcode and updates the engines one at a time. -/
  | ucodeUpdate (pair : Fin 8) (buf : Option (List Byte))
  /-- UCODE_ENGINE_UPDATE (R537): An engine reaches its boundary, loads the new microcode, self-tests and returns. -/
  | ucodeEngineUpdate (engine : Fin 32) (selfTest : Bool)
  /-- RECALIBRATE (R538): Sweeps a PHY target's lanes and retrains those below their margin floor. -/
  | recalibrate (pair : Fin 8)
  /-- KEY_SET (R527): Writes a signed key record to a key slot. -/
  | keySet (pair : Fin 8) (buf : Option (List Byte))
  /-- DIAG_OPEN (R301): Opens the diagnostic window for the Maker session. -/
  | diagOpen (pair : Fin 8)
  /-- DEBUG_UNLOCK (R530): Opens the JTAG debug port until the next reset. -/
  | debugUnlock (pair : Fin 8)
  /-- CAL_WRITE (R298): Writes a calibration record. -/
  | calWrite (pair : Fin 8) (buf : Option (List Byte))
  /-- FUSE_WRITE (R298): Writes a fuse word and reads it back. -/
  | fuseWrite (pair : Fin 8)
  /-- LONG_OPERATION_END (R292): A long operation ends; its final response replaces the kept one and the pair's vector is raised. -/
  | longOperationEnd (opcode : Nat) (ok : Bool) (data : List Byte)
  /-- STRONGROOM_CONVERSION_END (R168): Every slice finishes converting; the window grows and the response is sent. -/
  | strongroomConversionEnd
  /-- FRAME_START (R428): A pipe starts a frame; staged descriptors and tables go live, events are recorded and flattening applies. -/
  | frameStart (pipe : Fin 4) (late : List (Nat × Nat)) (ext : Option (List Byte))
  /-- FSYNC_EDGE (R437): A synchronised FSYNC edge snaps or tracks pipe timing and may release a timed convoy. -/
  | fsyncEdge (input : Fin 4) (level : Bool)
  /-- FSYNC_LOST_EXPIRY (R438): No FSYNC edge for 4 × VNOM lines sets FSYNC_LOST. -/
  | fsyncLostExpiry (pipe : Fin 4)
  /-- HPD_EVENT (R425): HPD falls or reports lost lock, and the pipe stops fetching and retrains. -/
  | hpdEvent (pipe : Fin 4) (high : Bool) (lost : Bool)
  /-- FLIT_RECEIVE (R464): A caravan flit is FEC-corrected, CRC-checked and accepted in order, or NAKed. -/
  | flitReceive (port : Fin 4) (flit : List Byte)
  /-- LINK (R464): Link acknowledgement or NAK, which frees or replays the replay buffer. -/
  | link (port : Fin 4) (nak : Bool) (seq : Nat)
  /-- LINK_ACK_TIMEOUT (R464): No acknowledgement for 4,096 flit times, and the port replays as on a NAK. -/
  | linkAckTimeout (port : Fin 4)
  /-- PORT_RETRY_BUDGET_EXPIRY (R465): A port not back in normal operation within its budget declares itself down and poisons its requests. -/
  | portRetryBudgetExpiry (port : Fin 4)
  /-- PORT_RETRAIN_COMPLETE (R465): A down port retrains in the background and returns to service. -/
  | portRetrainComplete (port : Fin 4) (far : PortTrain)
  /-- RD_REQ (R470): Remote read request performed at the owner's L2 slice. -/
  | rdReq (port : Fin 4) (msg : CvlMsg)
  /-- WR (R472): Remote whole-sector write, acknowledged after the owner's slice performs it. -/
  | wr (port : Fin 4) (msg : CvlMsg)
  /-- WR_PARTIAL (R472): Remote masked write of one sector. -/
  | wrPartial (port : Fin 4) (msg : CvlMsg)
  /-- ATOMIC (R472): Remote atomic performed at the owner's slice. -/
  | atomic (port : Fin 4) (msg : CvlMsg)
  /-- EVENT (R473): Remote event record applied by the owner and answered with EVENT_ACK. -/
  | event (port : Fin 4) (msg : CvlMsg)
  /-- MGMT (R466): Caravan-master message, such as a routing table or a backing request. -/
  | mgmt (port : Fin 4) (msg : CvlMsg)
  /-- RD_RSP (R470): Read response returning data, with any poison, to the requester. -/
  | rdRsp (port : Fin 4) (msg : CvlMsg)
  /-- WR_ACK (R472): Write acknowledgement completing a remote write. -/
  | wrAck (port : Fin 4) (msg : CvlMsg)
  /-- ATOMIC_RSP (R472): Atomic response completing a remote atomic. -/
  | atomicRsp (port : Fin 4) (msg : CvlMsg)
  /-- EVENT_ACK (R473): Acknowledgement that completes a remote SIGNAL. -/
  | eventAck (port : Fin 4) (msg : CvlMsg)
  /-- CVL_REQUEST_TIMEOUT (R472): A remote request has no response within CVL_TIMEOUT, completes poisoned and records F_CVL_TIMEOUT. -/
  | cvlRequestTimeout (tag : Nat)
  /-- FAULT_REPORT (R486): The collector records a fault and acts on its ACTION: fence, ERR_N, logbook, cookie. -/
  | faultReport (f : FaultIn)
  /-- FENCE_QUIET_EXPIRY (R491): A fault-fenced unit has gone QUIET without a fault and runs the exit of R492. -/
  | fenceQuietExpiry (kind index : Nat) (selfTest : Bool)
  /-- ERRN_PULSE_END (R495): The ERR_N pulse ends and the pin takes the software level. -/
  | errnPulseEnd
  /-- LOCKSTEP_DIVERGENCE (R489): The caravan master's cores diverge; they are reset, the firmware restarts and sessions close. -/
  | lockstepDivergence
  /-- MASTER_RESTART_COMPLETE (R489): The restarted firmware sets MBX_READY and answers held requests. -/
  | masterRestartComplete
  /-- HEARTBEAT_TIMEOUT (R489): No heartbeat change within 2^25 ACLK of the reset, and F_MP_LOST is recorded. -/
  | heartbeatTimeout
  /-- HEARTBEAT_TICK (R258): The caravan master raises HRW_HEARTBEAT every 2^20 MCLK. -/
  | heartbeatTick
  /-- LOGBOOK_WRITE (R497): The writer writes one queued record to MRAM and frees its entry. -/
  | logbookWrite
  /-- POWER_FAIL_WARNING (R500): PWR_FAIL_N is asserted; the write in progress completes and no new write starts. -/
  | powerFailWarning
  /-- POWER_FAIL_RELEASE (R500): PWR_FAIL_N is released; the writer resumes with POWER_WARN and the queued records. -/
  | powerFailRelease
  /-- SAMPLE_SNAPSHOT (R547): The counters of a ring's units are latched and queued as sample records. -/
  | sampleSnapshot (ring : Fin 16)
  /-- SAMPLE_RECORD_WRITE (R551): A latched sample record is written through L2, with a SAMPLE cookie at quarter-ring marks. -/
  | sampleRecordWrite (ring : Fin 16)
  /-- POWER_SAMPLE (R508): Every 384 ACLK, power is sampled and CCLK lowered, raised or throttled. -/
  | powerSample (sixteenths : Nat)
  /-- PMIC_CALIBRATION (R508): Every 38,400 ACLK, the activity estimators are calibrated against PMIC telemetry. -/
  | pmicCalibration (reading : Nat)
  /-- CCLK_RAISE_CONFIRMED (R509): The PMIC confirms the higher voltage and the engines switch to the higher CCLK. -/
  | cclkRaiseConfirmed
  /-- SENSOR_SAMPLE (R566): Every 384 ACLK, temperatures are read and the thermal zone actions applied. -/
  | sensorSample (temps : List Int)
  /-- THERMAL_TRIP (R567): Tmax exceeds 125 °C on three samples; THERMTRIP_N and ERR_N assert and clocks stop. -/
  | thermalTrip
  /-- REST_ENTRY (R511): After 4,096 idle FCLK, the device gates clocks and enters Rest. -/
  | restEntry
  /-- HALT_COMMIT (R512): The drain conditions all hold and the caravan master commits Halt entry. -/
  | haltCommit
  /-- HALT_REACHED (R513): Halt entry completes with the power switches open. -/
  | haltReached
  /-- WAKE_SOURCE (R516): A host request, sideband wake message or port activity starts wake. -/
  | wakeSource (source : Nat)
  /-- WAKE_COMPLETE (R516): Wake ends; held writes, cookies and messages leave and the fetchers resume. -/
  | wakeComplete
  /-- RESET (R519): RESET_N asserted resets the whole die. -/
  | reset
  /-- POWER_GOOD_LOSS (R559): PWR_GOOD falls and the die resets at once. -/
  | powerGoodLoss
  /-- BOOT_START (R520): RESET_N high with PWR_GOOD high starts the 24 boot steps. -/
  | bootStart (results : List Nat) (world : BootWorld)
  /-- BOOT_STEP_TIMEOUT (R520): A boot step runs longer than 2^28 ACLK and fails. -/
  | bootStepTimeout
  /-- MASTER_ALIVE_TIMEOUT (R259): HRW_HEARTBEAT has not changed for 2^17 ACLK, so MASTER_ALIVE clears and a DEVICE_STATE cookie is sent. -/
  | masterAliveTimeout
  /-- PROGRESS_COUNTER_SAMPLE (R333): Every 1,024 ACLK the fault collector samples each progress counter and restarts, holds or advances each unit's watch timer, visible in QF_WATCH. -/
  | progressCounterSample
  /-- HOST_LINK_FLIT_REPLAY (R248): A UCIe flit fails its CRC and is replayed; the link is in retry and a corrected host-link fault is raised. -/
  | hostLinkFlitReplay
  /-- HOST_LINK_RETRAINED (R248): The UCIe link or a module finishes retraining and runs again, possibly at reduced width, ending its retry or recovery state. -/
  | hostLinkRetrained (modules : Nat) (lanes : Nat)
  /-- PIPE_LINK_TRAINING_END (R425): A display pipe's link training or retraining ends; LINK reads up or failed, the pipe may fall back to a lower rate, and a logbook record is written. -/
  | pipeLinkTrainingEnd (pipe : Fin 4) (rate : Option (Fin 16))
  /-- SCOREBOARD_RELEASE (R78): The result of a producing instruction arrives from its unit, L1 or L2, the string's scoreboard clears, and a Waiting string becomes Ready. -/
  | scoreboardRelease (w : Site) (reg : Fin 576)
  /-- BOUNDARY_SCAN (R530): IEEE 1149.1 TAP activity on TCK, TMS and TDI drives boundary scan, which needs no unlock, or the debug port once it is unlocked. -/
  | boundaryScan (tms tdi : Bool)
  deriving DecidableEq, Repr

end Sys2Proof
end

