-- ==== Sys2Proof/Config.lean ====
section
/-! DEFINITION. What an implementation or an external standard fixes and the spec does not: uninterpreted constants
with no body, so that no proof can see a value. Each is named in a log entry (notes/assumptions). -/

namespace Sys2Proof

/-- Free bits: the n-th free value the model draws. Every value the spec leaves open after a step that goes on is one
of these, taken at the counter `Clk.fresh` (log entry 2). -/
opaque Config.freeNat : Nat → Nat

/-- Ed25519 verification (RFC 8032) of a signature over a message with a public key (R287, R527, R529; log entry 3). -/
opaque Config.ed25519Verify : (key msg sig : List Byte) → Bool

/-- ML-DSA-65 verification (FIPS 204) of a signature over a message with a public key (R287, R527, R529; log entry 3). -/
opaque Config.mlDsaVerify : (key msg sig : List Byte) → Bool

/-- SHA-384 of a byte string (R526, R528; log entry 3). -/
opaque Config.sha384 : List Byte → List Byte

/-- The fused 64-bit die identifier (R2). -/
opaque Config.dieId : Dword

/-- The fused stepping code (R2). -/
opaque Config.stepping : Byte

/-- 0 for grade -A, 1 for grade -I (R1, R302). -/
opaque Config.grade : Bool

/-- The Vendor ID assigned to Melveop (R244). -/
opaque Config.vendorId : Half

/-- Does the host complete PCIe AtomicOps (R173)? -/
opaque Config.hostAtomics : Bool

/-- Do the board's DRAM channels differ in type, density or ranks (R216)? -/
opaque Config.mixedPopulation : Bool

/-- Retry budget of the host link in ACLK (R334; no rule gives it). -/
opaque Config.hostRetryBudget : Nat

/-- The fused SHA-384 digest of the keys of Maker slot 0 or 1 (R526). -/
opaque Config.makerDigest : Nat → List Byte

/-- Decoding of one texel of a VkFormat that the model does not decode itself (block-compressed formats): the format,
the bytes of the block, the texel's index in the block; four FP32 components (R406; log entry 40). -/
opaque Config.texelDecode : (format : Nat) → List Byte → Nat → List Word

/-- The sRGB transfer functions of an 8-bit component and of a binary32 value (R402, R406; log entry 43). -/
opaque Config.srgbDecode : Byte → Word
opaque Config.srgbEncode : Word → Byte

/-- Match search of the compression engines (R447; log entry 46): the tokens of a block at a level after a history, a
literal byte as (0, byte) and a match as (length, distance). The model takes them where they spell the block. -/
opaque Config.lzTokens : (level : Nat) → (history block : List Byte) → List (Nat × Nat)

/-- Dynamic Huffman tables built from a block's tokens (R448; log entry 46): code lengths of literals and lengths, of
distances, their run-length symbols with repeat values, and the code lengths of those. -/
opaque Config.huffman : List (Nat × Nat) → List Nat × List Nat × List (Nat × Nat) × List Nat

/-- The Ed25519 and ML-DSA-65 public keys that production test put into a key slot (R526; log entry 20). -/
opaque Config.factoryEd : Nat → List Byte
opaque Config.factoryMl : Nat → List Byte

/-- The FEC of a flit (R461): the 250 bytes that the PCIe 6.0 code corrects the 256 received bytes to, and how many
symbols it corrected (log entry 51). -/
opaque Config.fecDecode : List Byte → List Byte × Nat

/-- Limited-range YCbCr to RGB by the BT.601 or BT.709 matrix (R427): bits per component, then Y, Cb, Cr; 12-bit
components (log entry 52). -/
opaque Config.yccToRgb : (bt601 : Bool) → (bits : Nat) → Nat → Nat → Nat → Nat × Nat × Nat

/-- The 4 × 4 ordered dither of a component to a number of bits at a pixel position modulo 4 (R431; log entry 52). -/
opaque Config.dither : (bits x y : Nat) → Nat → Nat

/-- Offset of an activity estimator that a PMIC reading calibrates (R508; log entry 60). -/
opaque Config.calibrate : (reading : Nat) → Nat

/-- DRAM population of the board as boot finds it while the installer has stored no DRAM configuration: mode, density,
ranks, spill and rate codes (R215; log entry 61). -/
opaque Config.boardDram : Nat × Nat × Nat × Nat

/-- Clock in kHz of a UCIe module or a caravan port at a rate in GT/s (R504 gives none; log entry 61). -/
opaque Config.linkKhz : (port : Bool) → (rate : Nat) → Nat

end Sys2Proof
end

