-- ==== Sys2Proof/Machine/Store.lean ====
section
/-! DEFINITION. Helpers that every meaning uses: the sparse table (`mget`, `mset`, `merase`), bit fields of numbers,
little-endian byte lists (R8), CRCs, and plain loops over lists. -/

namespace Sys2Proof.Machine

/-! ### Sparse tables -/

/-- The entry of a table at a key. -/
def mget {α : Type} (m : Map α) (k : Nat) : Option α :=
  match m with
  | [] => none
  | (k', v) :: rest => if k' = k then some v else mget rest k

/-- The entry at a key, or the value an unlisted key stands for. -/
def mgetD {α : Type} (m : Map α) (k : Nat) (d : α) : α := (mget m k).getD d

/-- Set an entry; keys stay in rising order. -/
def mset {α : Type} (m : Map α) (k : Nat) (v : α) : Map α :=
  match m with
  | [] => [(k, v)]
  | (k', v') :: rest =>
    if k' = k then (k, v) :: rest
    else if k < k' then (k, v) :: (k', v') :: rest
    else (k', v') :: mset rest k v

/-- Remove every entry at a key. -/
def merase {α : Type} (m : Map α) (k : Nat) : Map α :=
  m.filter (fun p => p.1 ≠ k)

/-- Is a key listed? -/
def mhas {α : Type} (m : Map α) (k : Nat) : Bool := (mget m k).isSome

/-- Change the entry at a key, if it is listed. -/
def mmod {α : Type} (m : Map α) (k : Nat) (f : α → α) : Map α :=
  match mget m k with
  | none => m
  | some v => mset m k (f v)

/-- Change the entry at a key that stands for `d` while it is unlisted. -/
def mmodD {α : Type} (m : Map α) (k : Nat) (d : α) (f : α → α) : Map α :=
  mset m k (f (mgetD m k d))

/-- Change every entry. -/
def mmap {α β : Type} (m : Map α) (f : Nat → α → β) : Map β := m.map (fun p => (p.1, f p.1 p.2))

/-- The lowest key in [lo, lo + n) that is not listed. -/
def firstFree {α : Type} (m : Map α) (lo : Nat) : Nat → Option Nat
  | 0 => none
  | n + 1 => if mhas m lo then firstFree m (lo + 1) n else some lo

/-! ### Bits -/

/-- Bits [hi:lo] of a number. -/
def bits (w hi lo : Nat) : Nat := w / 2 ^ lo % 2 ^ (hi + 1 - lo)

/-- Bit i of a number. -/
def bit (w i : Nat) : Bool := w / 2 ^ i % 2 = 1

/-- 1 for true, 0 for false. -/
def b2n (b : Bool) : Nat := if b then 1 else 0

/-- Two's-complement reading of an n-bit number. -/
def sext (n w : Nat) : Int := if w % 2 ^ n ≥ 2 ^ (n - 1) then (w % 2 ^ n : Nat) - (2 ^ n : Nat) else (w % 2 ^ n : Nat)

/-- The n-bit two's-complement code of an integer. -/
def wrapInt (n : Nat) (i : Int) : Nat := (i % (2 ^ n : Nat)).toNat

/-- ⌊log2 n⌋ for n > 0, and 0 for 0. -/
def log2 (n : Nat) : Nat := Nat.log2 n

/-- Is n a power of two? -/
def isPow2 (n : Nat) : Bool := n ≠ 0 && 2 ^ log2 n = n

/-- n rounded up to a multiple of m. -/
def roundUp (n m : Nat) : Nat := (n + m - 1) / m * m

/-- Number of 1 bits below bit n. -/
def popCount (w : Nat) : Nat → Nat
  | 0 => 0
  | n + 1 => b2n (bit w n) + popCount w n

/-- The numbers of the 1 bits among bits 0 to n - 1, rising. -/
def bitList (w n : Nat) : List Nat := (List.range n).filter (fun i => bit w i)

/-- Set or clear bit i. -/
def setBit (w i : Nat) (v : Bool) : Nat :=
  if bit w i = v then w else if v then w + 2 ^ i else w - 2 ^ i

/-- The mask with the listed bits set. -/
def maskOf (l : List Nat) : Nat := l.foldl (fun a i => setBit a i true) 0

/-- Add 1 and stop at the largest 32-bit value. -/
def satInc (w : Word) : Word := if w = 0xFFFF_FFFF#32 then w else w + 1

/-! ### Bytes, little-endian (R8) -/

/-- The number a little-endian byte list stands for. -/
def leNat : List Byte → Nat
  | [] => 0
  | b :: bs => b.toNat + 256 * leNat bs

/-- The n low bytes of a number, least significant first. -/
def leBytes : Nat → Nat → List Byte
  | 0, _ => []
  | n + 1, w => BitVec.ofNat 8 w :: leBytes n (w / 256)

/-- n bytes of a byte list from an offset; bytes beyond its end read as 0. -/
def slice (l : List Byte) (off n : Nat) : List Byte :=
  let t := (l.drop off).take n
  t ++ List.replicate (n - t.length) 0

/-- The little-endian number in n bytes at an offset. -/
def getLe (l : List Byte) (off n : Nat) : Nat := leNat (slice l off n)

/-- Overwrite bytes from an offset (the list keeps its length when the bytes fit). -/
def putBytes (l : List Byte) (off : Nat) (v : List Byte) : List Byte :=
  l.take off ++ v ++ l.drop (off + v.length)

/-- Overwrite n bytes at an offset with a number. -/
def putLe (l : List Byte) (off n v : Nat) : List Byte := putBytes l off (leBytes n v)

/-- n zero bytes. -/
def zeros (n : Nat) : List Byte := List.replicate n 0

/-- Cut a list into pieces of n elements; fuel is the length. -/
def chunksOf {α : Type} (n : Nat) (l : List α) : List (List α) :=
  (List.range ((l.length + n - 1) / n)).map (fun i => (l.drop (i * n)).take n)

/-- One reflected CRC step over the 8 bits of a byte already mixed in. -/
def crcBits (poly : Nat) : Nat → Nat → Nat
  | 0, c => c
  | n + 1, c => crcBits poly n (if c % 2 = 1 then (c / 2) ^^^ poly else c / 2)

/-- A reflected CRC register after a byte list. -/
def crcReg (poly init : Nat) (l : List Byte) : Nat := l.foldl (fun c b => crcBits poly 8 (c ^^^ b.toNat)) init

/-- CRC-32 of IEEE 802.3 (reflected 0x04C1_1DB7, initial value and final XOR all ones). -/
def crc32 (l : List Byte) : Nat := crcReg 0xEDB88320 0xFFFFFFFF l ^^^ 0xFFFFFFFF

/-- CRC-32C of R267 (reflected polynomial 0x82F6_3B78, initial value and final XOR all ones). -/
def crc32c (l : List Byte) : Nat := crcReg 0x82F63B78 0xFFFFFFFF l ^^^ 0xFFFFFFFF

/-- Adler-32 of RFC 1950. -/
def adler32 (l : List Byte) : Nat :=
  let p := l.foldl (fun (p : Nat × Nat) b => let a := (p.1 + b.toNat) % 65521; (a, (p.2 + a) % 65521)) (1, 0)
  p.2 * 65536 + p.1

/-! ### Loops -/

/-- Left fold with the index of each element. -/
def foldIdx {α σ : Type} (l : List α) (s : σ) (f : σ → Nat → α → σ) : σ :=
  (l.foldl (fun (p : Nat × σ) a => (p.1 + 1, f p.2 p.1 a)) (0, s)).2

/-- Left fold over 0, …, n - 1. -/
def loop {σ : Type} (n : Nat) (s : σ) (f : σ → Nat → σ) : σ := (List.range n).foldl f s

/-- Iterate a partial step at most n times. -/
def iter {σ : Type} (f : σ → Option σ) : Nat → σ → σ
  | 0, s => s
  | n + 1, s => match f s with
    | none => s
    | some s' => iter f n s'

/-- Insert into a list kept in rising order of a key. -/
def insertBy {α : Type} (key : α → Nat) (a : α) : List α → List α
  | [] => [a]
  | b :: bs => if key a < key b then a :: b :: bs else b :: insertBy key a bs

/-- Insertion sort by a key; equal keys keep their order. -/
def sortBy {α : Type} (key : α → Nat) (l : List α) : List α :=
  l.foldl (fun acc a => insertBy key a acc) []

/-- Drop repeated numbers, keeping first occurrences. -/
def dedup (l : List Nat) : List Nat := l.foldl (fun acc a => if acc.contains a then acc else acc ++ [a]) []

end Sys2Proof.Machine
end

