-- ==== Sys2Proof/Machine/Float.lean ====
section
/-! DEFINITION. Number formats and arithmetic (chapter 02): the format codes of R35, exact values as dyadic numbers,
rounding (R53), overflow (R50, R51), conversion (R55), block scaling (R44 to R47, R56), and the binary32 and binary16
arithmetic of the shader ALUs (R52). Every step before the rounding is exact. -/

namespace Sys2Proof.Machine

/-- Which encodings of a format are NaN (R39). -/
inductive NanKind where
  /-- none: FP4, FP6 -/
  | none
  /-- exponent and mantissa all ones: FP8 E4M3, which has no infinity -/
  | allOnes
  /-- the IEEE encodings, with infinities -/
  | ieee
  deriving DecidableEq, Repr

/-- A floating-point element format (R39). -/
structure Fmt where
  ebits : Nat
  mbits : Nat
  bias : Nat
  nans : NanKind
  deriving DecidableEq, Repr

def fmtE2M1 : Fmt := ⟨2, 1, 1, .none⟩
def fmtE2M3 : Fmt := ⟨2, 3, 1, .none⟩
def fmtE3M2 : Fmt := ⟨3, 2, 3, .none⟩
def fmtE4M3 : Fmt := ⟨4, 3, 7, .allOnes⟩
def fmtE5M2 : Fmt := ⟨5, 2, 15, .ieee⟩
def fmtFP16 : Fmt := ⟨5, 10, 15, .ieee⟩
def fmtBF16 : Fmt := ⟨8, 7, 127, .ieee⟩
def fmtFP32 : Fmt := ⟨8, 23, 127, .ieee⟩

/-- Width of a format in bits. -/
def Fmt.width (f : Fmt) : Nat := 1 + f.ebits + f.mbits

/-- Magnitude code of the largest finite value (R39). -/
def Fmt.maxCode (f : Fmt) : Nat :=
  match f.nans with
  | .none => 2 ^ (f.ebits + f.mbits) - 1
  | .allOnes => 2 ^ (f.ebits + f.mbits) - 2
  | .ieee => (2 ^ f.ebits - 1) * 2 ^ f.mbits - 1

/-- Canonical NaN (R41); only formats with a NaN encoding have one. -/
def Fmt.nanCode (f : Fmt) : Nat :=
  match f.nans with
  | .none => 0
  | .allOnes => 2 ^ (f.ebits + f.mbits) - 1
  | .ieee => (2 ^ f.ebits - 1) * 2 ^ f.mbits + 2 ^ (f.mbits - 1)

/-- Code of infinity for the formats that have one. -/
def Fmt.infCode (f : Fmt) : Nat := (2 ^ f.ebits - 1) * 2 ^ f.mbits

def Fmt.hasInf (f : Fmt) : Bool := f.nans = .ieee
def Fmt.hasNan (f : Fmt) : Bool := f.nans ≠ .none

/-- An exact dyadic number m × 2^e. -/
structure Dy where
  m : Int
  e : Int
  deriving DecidableEq, Repr

/-- The mantissa of a dyadic number at a lower exponent. -/
def Dy.at (d : Dy) (e : Int) : Int := d.m * (2 ^ (d.e - e).toNat : Nat)

def Dy.add (a b : Dy) : Dy := let e := min a.e b.e; ⟨a.at e + b.at e, e⟩
def Dy.neg (a : Dy) : Dy := ⟨-a.m, a.e⟩
def Dy.sub (a b : Dy) : Dy := a.add b.neg
def Dy.mul (a b : Dy) : Dy := ⟨a.m * b.m, a.e + b.e⟩
def Dy.lt (a b : Dy) : Bool := let e := min a.e b.e; a.at e < b.at e
def Dy.le (a b : Dy) : Bool := let e := min a.e b.e; a.at e ≤ b.at e
def Dy.eqv (a b : Dy) : Bool := let e := min a.e b.e; a.at e = b.at e
def Dy.zero : Dy := ⟨0, 0⟩
def Dy.ofInt (i : Int) : Dy := ⟨i, 0⟩
def Dy.abs (a : Dy) : Dy := ⟨a.m.natAbs, a.e⟩

/-- ⌊log2 |d|⌋ of a dyadic number that is not zero. -/
def Dy.expo (d : Dy) : Int := (log2 d.m.natAbs : Nat) + d.e

/-- ⌊d⌋. -/
def Dy.floor (d : Dy) : Int := if d.e ≥ 0 then d.at 0 else d.m / (2 ^ (-d.e).toNat : Nat)

/-- What a floating-point element stands for. A finite value keeps its sign, for zero. -/
inductive FVal where
  | nan
  | inf (neg : Bool)
  | fin (neg : Bool) (m : Nat) (e : Int)
  deriving DecidableEq, Repr

/-- Value of an encoding (R39). -/
def Fmt.decode (f : Fmt) (w : Nat) : FVal :=
  let s := bit w (f.ebits + f.mbits)
  let x := bits w (f.ebits + f.mbits - 1) f.mbits
  let m := w % 2 ^ f.mbits
  let code := w % 2 ^ (f.ebits + f.mbits)
  if f.nans = .allOnes ∧ code = f.nanCode then .nan
  else if f.nans = .ieee ∧ x = 2 ^ f.ebits - 1 then (if m = 0 then .inf s else .nan)
  else if x = 0 then .fin s m (1 - (f.bias : Int) - f.mbits)
  else .fin s (m + 2 ^ f.mbits) ((x : Int) - f.bias - f.mbits)

/-- Value of a finite magnitude code as a dyadic number. -/
def Fmt.codeDy (f : Fmt) (code : Nat) : Dy :=
  let x := code / 2 ^ f.mbits
  let m := code % 2 ^ f.mbits
  if x = 0 then ⟨m, 1 - (f.bias : Int) - f.mbits⟩ else ⟨(m + 2 ^ f.mbits : Nat), (x : Int) - f.bias - f.mbits⟩

/-- Signed dyadic number of a finite value. -/
def FVal.dy (v : FVal) : Dy :=
  match v with
  | .fin s m e => ⟨if s then -(m : Int) else m, e⟩
  | _ => Dy.zero

/-- A finite value from a dyadic number; `s` is the sign of a zero. -/
def FVal.ofDy (d : Dy) (s : Bool) : FVal := .fin (if d.m = 0 then s else d.m < 0) d.m.natAbs d.e

/-- Rounding modes (R53). -/
inductive RMode where
  | rne
  | rtz
  /-- stochastic, with the 16-bit random number drawn for this conversion (R54) -/
  | sr (r : Nat)
  deriving DecidableEq, Repr

/-- The integer nearest m × 2^e under a mode (R53): n with remainder decides between n and n + 1. -/
def roundTo (mode : RMode) (m : Nat) (e : Int) : Nat :=
  if e ≥ 0 then m * 2 ^ e.toNat else
    let k := (-e).toNat
    let n := m / 2 ^ k
    let r := m % 2 ^ k
    match mode with
    | .rtz => n
    | .rne => if 2 * r > 2 ^ k ∨ (2 * r = 2 ^ k ∧ n % 2 = 1) then n + 1 else n
    | .sr q => if q < r * 2 ^ 16 / 2 ^ k then n + 1 else n

/-- Magnitude code of m × 2^e rounded on the format's grid, which goes on above its largest value in steps of the top
binade (R53); codes above `maxCode` are overflows. -/
def Fmt.roundMag (f : Fmt) (mode : RMode) (m : Nat) (e : Int) : Nat :=
  if m = 0 then 0 else
    let qmin : Int := 1 - (f.bias : Int) - f.mbits
    let qmax : Int := ((f.maxCode / 2 ^ f.mbits : Nat) : Int) - f.bias - f.mbits
    let q := min (max ((log2 m : Nat) + e - f.mbits) qmin) qmax
    let n := roundTo mode m (e - q)
    -- n × 2^q as a code: the binades above qmin each add 2^mbits codes
    n + (q - qmin).toNat * 2 ^ f.mbits

/-- Sign bit of a format. -/
def Fmt.sign (f : Fmt) (s : Bool) : Nat := if s then 2 ^ (f.ebits + f.mbits) else 0

/-- What a format holds after an overflow (R50). -/
def Fmt.overflow (f : Fmt) (ieee : Bool) (mode : RMode) (s : Bool) : Nat :=
  if !ieee || mode = .rtz then f.sign s + f.maxCode
  else match f.nans with
    | .none => f.sign s + f.maxCode
    | .allOnes => f.nanCode
    | .ieee => f.sign s + f.infCode

/-- Conversion of a value into a floating-point format (R50, R51, R53, R55). Under SAT no infinity reaches it. -/
def Fmt.encode (f : Fmt) (ieee : Bool) (mode : RMode) (v : FVal) : Nat :=
  match v with
  | .nan => if f.hasNan then f.nanCode else 0
  | .inf s => match f.nans with
    | .none => f.sign s + f.maxCode
    | .allOnes => if ieee then f.nanCode else f.sign s + f.maxCode
    | .ieee => if ieee then f.sign s + f.infCode else f.sign s + f.maxCode
  | .fin s m e =>
    let c := f.roundMag mode m e
    if c > f.maxCode then f.overflow ieee mode s else f.sign s + c

/-- Reading under SAT: an infinity counts as the largest finite value of its own format (R51). -/
def Fmt.read (f : Fmt) (ieee : Bool) (w : Nat) : FVal :=
  match f.decode w with
  | .inf s => if ieee then .inf s else
      let d := f.codeDy f.maxCode
      .fin s d.m.natAbs d.e
  | v => v

/-! ### IEEE arithmetic (R52): round to nearest even, subnormals, canonical NaN, no flags -/

def FVal.add (a b : FVal) : FVal :=
  match a, b with
  | .nan, _ => .nan
  | _, .nan => .nan
  | .inf s, .inf t => if s = t then .inf s else .nan
  | .inf s, _ => .inf s
  | _, .inf t => .inf t
  | .fin s _ _, .fin t _ _ => FVal.ofDy (a.dy.add b.dy) (s && t)

def FVal.isZero (v : FVal) : Bool := match v with | .fin _ m _ => m = 0 | _ => false
def FVal.isNan (v : FVal) : Bool := match v with | .nan => true | _ => false
def FVal.isInf (v : FVal) : Bool := match v with | .inf _ => true | _ => false
def FVal.sgn (v : FVal) : Bool := match v with | .fin s _ _ => s | .inf s => s | .nan => false
def FVal.neg (v : FVal) : FVal := match v with | .fin s m e => .fin (!s) m e | .inf s => .inf (!s) | .nan => .nan

def FVal.mul (a b : FVal) : FVal :=
  match a, b with
  | .nan, _ => .nan
  | _, .nan => .nan
  | .inf s, y => if y.isZero then .nan else .inf (s != y.sgn)
  | x, .inf t => if x.isZero then .nan else .inf (x.sgn != t)
  | .fin s m e, .fin t n g => .fin (s != t) (m * n) (e + g)

/-- Comparison of finite or infinite values: a < b; false with a NaN. -/
def FVal.lt (a b : FVal) : Bool :=
  match a, b with
  | .nan, _ => false
  | _, .nan => false
  | .inf s, .inf t => s && !t
  | .inf s, _ => s
  | _, .inf t => !t
  | x, y => x.dy.lt y.dy

/-- Numerical equality; false with a NaN. -/
def FVal.eqv (a b : FVal) : Bool := !a.isNan && !b.isNan && !a.lt b && !b.lt a

/-- minimumNumber of IEEE 754-2019: a number before a NaN, -0 below +0. -/
def FVal.minNum (a b : FVal) : FVal :=
  if a.isNan then b else if b.isNan then a
  else if a.lt b then a else if b.lt a then b else if a.sgn then a else b

/-- maximumNumber of IEEE 754-2019. -/
def FVal.maxNum (a b : FVal) : FVal :=
  if a.isNan then b else if b.isNan then a
  else if a.lt b then b else if b.lt a then a else if a.sgn then b else a

/-- An IEEE result in a format. -/
def Fmt.ieee (f : Fmt) (v : FVal) : Nat := f.encode true .rne v

def Fmt.fadd (f : Fmt) (a b : Nat) : Nat := f.ieee ((f.decode a).add (f.decode b))
def Fmt.fmul (f : Fmt) (a b : Nat) : Nat := f.ieee ((f.decode a).mul (f.decode b))
def Fmt.ffma (f : Fmt) (a b c : Nat) : Nat := f.ieee (((f.decode a).mul (f.decode b)).add (f.decode c))
def Fmt.fmin (f : Fmt) (a b : Nat) : Nat := f.ieee ((f.decode a).minNum (f.decode b))
def Fmt.fmax (f : Fmt) (a b : Nat) : Nat := f.ieee ((f.decode a).maxNum (f.decode b))
def Fmt.fneg (f : Fmt) (a : Nat) : Nat := f.ieee (f.decode a).neg
def Fmt.fabs (f : Fmt) (a : Nat) : Nat :=
  match f.decode a with
  | .fin _ m e => f.ieee (.fin false m e)
  | .inf _ => f.infCode
  | .nan => f.nanCode

/-- An operation on both halves of a register (R105: HADD2, HMUL2, HFMA2 and the packed atomics). -/
def packed (op : Nat → Nat → Nat) (a b : Nat) : Nat :=
  op (a % 65536) (b % 65536) + 65536 * op (a / 65536 % 65536) (b / 65536 % 65536)

def packed3 (op : Nat → Nat → Nat → Nat) (a b c : Nat) : Nat :=
  op (a % 65536) (b % 65536) (c % 65536) + 65536 * op (a / 65536 % 65536) (b / 65536 % 65536) (c / 65536 % 65536)

/-! ### Transcendental functions (R105): any binary32 value within the bound, chosen by a free value -/

/-- Bits of a square root, from the top: invariant r² ≤ n. -/
def isqrtLoop (n : Nat) : Nat → Nat → Nat
  | 0, r => r
  | k + 1, r => let c := r + 2 ^ k; isqrtLoop n k (if c * c ≤ n then c else r)

/-- ⌊√n⌋. -/
def isqrt (n : Nat) : Nat := isqrtLoop n (log2 n / 2 + 1) 0

/-- |a - b| ≤ u × 2^q for dyadic a, b. -/
def within (a b : Dy) (u : Nat) (q : Int) : Bool := (a.sub b).abs.le ⟨u, q⟩

/-- Exponent of one unit in the last place of binary32 at a magnitude. -/
def ulpExp (d : Dy) : Int := max (d.expo - 23) (-149)

/-- A free binary32 value within u units in the last place of the value `y` (given to well beyond binary32 precision):
the candidate where it lies in the bound, else `y` rounded to nearest. -/
def nearFree (y : Dy) (s : Bool) (u : Nat) (cand : Nat) : Nat :=
  let c := cand % 2 ^ 32
  let def_ := fmtFP32.ieee (FVal.ofDy y s)
  match fmtFP32.decode c with
  | .fin _ m e => if y.m ≠ 0 ∧ within (FVal.fin (bit c 31) m e).dy y u (ulpExp y) then c else def_
  | _ => def_

/-- Reciprocal within 1 ulp; IEEE 754 special values (R52, R105). -/
def fRcp (a cand : Nat) : Nat :=
  match fmtFP32.decode a with
  | .nan => fmtFP32.nanCode
  | .inf s => fmtFP32.sign s
  | .fin s m e =>
    if m = 0 then fmtFP32.sign s + fmtFP32.infCode
    else nearFree ⟨(if s then -1 else 1) * ((2 ^ 96 / m : Nat) : Int), -96 - e⟩ s 1 cand

/-- Square root of m × 2^e to 64 bits beyond binary32. -/
def sqrtDy (m : Nat) (e : Int) : Dy :=
  let e2 := if e % 2 = 0 then e else e - 1
  let m2 := if e % 2 = 0 then m else 2 * m
  ⟨isqrt (m2 * 2 ^ 128), e2 / 2 - 64⟩

/-- Square root within 1 ulp (R105). -/
def fSqrt (a cand : Nat) : Nat :=
  match fmtFP32.decode a with
  | .nan => fmtFP32.nanCode
  | .inf s => if s then fmtFP32.nanCode else fmtFP32.infCode
  | .fin s m e =>
    if m = 0 then fmtFP32.sign s
    else if s then fmtFP32.nanCode else nearFree (sqrtDy m e) false 1 cand

/-- Reciprocal square root within 1 ulp (R105). -/
def fRsq (a cand : Nat) : Nat :=
  match fmtFP32.decode a with
  | .nan => fmtFP32.nanCode
  | .inf s => if s then fmtFP32.nanCode else 0
  | .fin s m e =>
    if m = 0 then fmtFP32.sign s + fmtFP32.infCode
    else if s then fmtFP32.nanCode
    else
      let r := sqrtDy m e
      nearFree ⟨((2 ^ 200 / r.m.natAbs : Nat) : Int), -200 - r.e⟩ false 1 cand

/-- Horner evaluation of Σ x^i / i! at fixed point 2^-p from term n downwards: 1 + x/1 (1 + x/2 (…)). -/
def expFix (p : Nat) (x : Int) : Nat → Nat → Int
  | 0, _ => (2 ^ p : Nat)
  | n + 1, i => (2 ^ p : Nat) + x * expFix p x n (i + 1) / ((2 ^ p : Nat) * (i : Int))

/-- ln 2 × 2^128, truncated. -/
def ln2Fix : Nat := 0xB17217F7D1CF79ABC9E3B39803F2F6AF

/-- Base-2 exponential within 2 ulp (R105). -/
def fExp2 (a cand : Nat) : Nat :=
  match fmtFP32.decode a with
  | .nan => fmtFP32.nanCode
  | .inf s => if s then 0 else fmtFP32.infCode
  | .fin s m e =>
    let x := (FVal.fin s m e).dy
    if x.lt ⟨-200, 0⟩ then 0 else if Dy.le ⟨128, 0⟩ x then fmtFP32.infCode
    else
      let n := x.floor
      let fr := ((x.sub ⟨n, 0⟩).mul ⟨2 ^ 128, 0⟩).floor
      let y := expFix 128 (fr * (ln2Fix : Int) / (2 ^ 128 : Nat)) 34 1
      nearFree ⟨y, n - 128⟩ false 2 cand

/-- Binary digits of log2 of x / 2^200, x in [2^200, 2^201), by repeated squaring. -/
def log2Digits : Nat → Nat → Nat → Nat
  | 0, _, acc => acc
  | n + 1, x, acc =>
    let y := x * x / 2 ^ 200
    if y ≥ 2 ^ 201 then log2Digits n (y / 2) (2 * acc + 1) else log2Digits n y (2 * acc)

/-- Base-2 logarithm within 2 ulp (R105). -/
def fLog2 (a cand : Nat) : Nat :=
  match fmtFP32.decode a with
  | .nan => fmtFP32.nanCode
  | .inf s => if s then fmtFP32.nanCode else fmtFP32.infCode
  | .fin s m e =>
    if m = 0 then fmtFP32.sign true + fmtFP32.infCode
    else if s then fmtFP32.nanCode
    else
      let k := log2 m
      let fr := log2Digits 80 (m * 2 ^ (200 - k)) 0
      nearFree (Dy.add ⟨(k : Int) + e, 0⟩ ⟨fr, -80⟩) false 2 cand

/-- π × 2^60, rounded up. -/
def piFix : Int := 0x3243F6A8885A308E

/-- Σ (-1)^i x^(2i) (2^p)… by Horner: 1 - x²/((i)(i+1)) (1 - …), i rising by 2. -/
def altFix (p : Nat) (x2 : Int) : Nat → Nat → Int
  | 0, _ => (2 ^ p : Nat)
  | n + 1, i => (2 ^ p : Nat) - x2 * altFix p x2 n (i + 2) / ((2 ^ p : Nat) * ((i * (i + 1) : Nat) : Int))

/-- Sine (or cosine) with absolute error below 2^-21 for |x| ≤ π: the free candidate where it lies in the bound, else
the rounded value; outside that range the result is the free candidate itself (R105 states none). -/
def fTrig (cosine : Bool) (a cand : Nat) : Nat :=
  match fmtFP32.decode a with
  | .nan => fmtFP32.nanCode
  | .inf _ => fmtFP32.nanCode
  | .fin s m e =>
    let x := (FVal.fin s m e).dy
    if Dy.lt ⟨piFix, -60⟩ x.abs then cand % 2 ^ 32
    else
      let xf := (x.mul ⟨2 ^ 96, 0⟩).floor
      let x2 := xf * xf / (2 ^ 96 : Nat)
      let y : Int := if cosine then altFix 96 x2 30 1 else xf * altFix 96 x2 30 2 / (2 ^ 96 : Nat)
      let c := cand % 2 ^ 32
      let near := fmtFP32.ieee (FVal.ofDy ⟨y, -96⟩ s)
      match fmtFP32.decode c with
      | .fin t n g => if ((FVal.fin t n g).dy.sub ⟨y, -96⟩).abs.lt ⟨1, -21⟩ then c else near
      | _ => near

/-! ### Format codes (R35), packing (R40) and block scaling (R44 to R49, R56) -/

/-- What a format code names. -/
inductive Code where
  /-- integer of n bits -/
  | int (n : Nat)
  | flt (f : Fmt)
  /-- block-scaled with floating-point elements -/
  | mx (f : Fmt)
  | mxint8
  deriving DecidableEq, Repr

/-- The format codes of R35; none where reserved. -/
def codeOf (c : Nat) : Option Code :=
  match c with
  | 0x00 => some (.int 4)
  | 0x01 => some (.int 8)
  | 0x02 => some (.int 16)
  | 0x03 => some (.int 32)
  | 0x04 => some (.flt fmtE2M1)
  | 0x05 => some (.flt fmtE2M3)
  | 0x06 => some (.flt fmtE3M2)
  | 0x07 => some (.flt fmtE4M3)
  | 0x08 => some (.flt fmtE5M2)
  | 0x09 => some (.flt fmtBF16)
  | 0x0A => some (.flt fmtFP16)
  | 0x0B => some (.flt fmtFP32)
  | 0x10 => some (.mx fmtE2M1)
  | 0x11 => some (.mx fmtE2M3)
  | 0x12 => some (.mx fmtE3M2)
  | 0x13 => some (.mx fmtE4M3)
  | 0x14 => some (.mx fmtE5M2)
  | 0x15 => some .mxint8
  | _ => none

def Code.width (c : Code) : Nat := match c with | .int n => n | .flt f => f.width | .mx f => f.width | .mxint8 => 8
def Code.isMx (c : Code) : Bool := match c with | .mx _ => true | .mxint8 => true | _ => false
def Code.isInt (c : Code) : Bool := match c with | .int _ => true | _ => false

/-- May it be a tensor operand (R35)? INT32 may not. -/
def Code.operand (c : Code) : Bool := c ≠ .int 32

/-- Pass class in bits: 4, 8 or 16 (R35, R57); split classes are built from their pieces. -/
def Code.passBits (c : Code) : Nat :=
  match c with
  | .int 4 => 4 | .int _ => 8
  | .flt f => if f.width = 4 then 4 else if f.width ≤ 8 then 8 else 16
  | .mx f => if f.width = 4 then 4 else 8
  | .mxint8 => 8

/-- An element before conversion: an integer, or a floating-point value with the maximum its own format clamps to. -/
inductive Elem where
  | int (i : Int)
  | flt (v : FVal)
  deriving DecidableEq, Repr

/-- Read an element code under an overflow mode (R36, R37, R39, R45, R51), without a block scale. -/
def Code.read (c : Code) (uns ieee : Bool) (w : Nat) : Elem :=
  match c with
  | .int n => .int (if uns && n ≠ 32 then (w % 2 ^ n : Nat) else sext n w)
  | .flt f => .flt (f.read ieee w)
  | .mx f => .flt (f.read ieee w)
  | .mxint8 => let i := sext 8 w; .flt (.fin (i < 0) i.natAbs (-6))

/-- Multiply by an E8M0 scale (R44): 0xFF makes NaN. -/
def Elem.scale (x : Elem) (sc : Nat) : Elem :=
  match x with
  | .int i => .int i
  | .flt v => if sc = 0xFF then .flt .nan else match v with
    | .fin s m e => .flt (.fin s m (e + sc - 127))
    | v => .flt v

/-- Round a finite value to an integer. -/
def roundInt (mode : RMode) (s : Bool) (m : Nat) (e : Int) : Int :=
  let n := roundTo mode m e; if s then -(n : Int) else n

/-- Smallest and largest value of an n-bit integer (R36). -/
def intLo (n : Nat) (uns : Bool) : Int := if uns then 0 else -(2 ^ (n - 1) : Nat)
def intHi (n : Nat) (uns : Bool) : Int := if uns then (2 ^ n - 1 : Nat) else (2 ^ (n - 1) - 1 : Nat)

def clampInt (lo hi i : Int) : Int := max lo (min hi i)

/-- Conversion of an element into a format other than MX (R50, R51, R55). -/
def Code.write (c : Code) (uns ieee : Bool) (mode : RMode) (x : Elem) : Nat :=
  match c with
  | .int n =>
    let u := uns && n ≠ 32
    match x with
    | .int i => if ieee then wrapInt n i else wrapInt n (clampInt (intLo n u) (intHi n u) i)
    | .flt .nan => 0
    | .flt (.inf s) => wrapInt n (if s then intLo n u else intHi n u)
    | .flt (.fin s m e) => wrapInt n (clampInt (intLo n u) (intHi n u) (roundInt mode s m e))
  | .flt f => match x with
    | .int i => f.encode ieee mode (.fin (i < 0) i.natAbs 0)
    | .flt v => f.encode ieee mode v
  | .mx f => match x with
    | .int i => f.encode false mode (.fin (i < 0) i.natAbs 0)
    | .flt v => f.encode false mode v
  | .mxint8 => match x with
    | .int i => wrapInt 8 (clampInt (-128) 127 (64 * i))
    | .flt (.fin s m e) => wrapInt 8 (clampInt (-128) 127 (roundInt mode s m (e + 6)))
    | .flt _ => 0

/-- An element as a floating-point value. -/
def Elem.val (x : Elem) : FVal := match x with | .int i => .fin (i < 0) i.natAbs 0 | .flt v => v

/-- e of step 4 of R56. -/
def Code.mxExp (c : Code) : Int :=
  match c with
  | .mx f => if f = fmtE4M3 then 8 else if f = fmtE5M2 then 15 else if f = fmtE3M2 then 4 else 2
  | _ => 0

/-- Convert a block into an MX format: scale byte and element codes (R56). The modes give each element its own. -/
def mxBlock (c : Code) (ieee : Bool) (modes : List RMode) (xs : List Elem) : Nat × List Nat :=
  let vs := xs.map Elem.val
  if vs.any FVal.isNan || (ieee && vs.any FVal.isInf) then (0xFF, xs.map (fun _ => 0))
  else
    let amax := vs.foldl (fun (a : Dy) v => let d := v.dy.abs; if a.lt d then d else a) Dy.zero
    let sc : Int := if amax.m = 0 then 0 else clampInt (-127) 127 (amax.expo - c.mxExp) + 127
    (sc.toNat, (vs.zip modes).map (fun p =>
      match p.1 with
      | .fin s m e => c.write false false p.2 (.flt (.fin s m (e - (sc - 127))))
      | _ => 0))

/-- Element i of a row of n-bit elements packed as R40 gives. -/
def unpackAt (row : List Byte) (n i : Nat) : Nat :=
  if n = 4 then bits (getLe row (i / 2) 1) (4 * (i % 2) + 3) (4 * (i % 2))
  else if n = 6 then bits (getLe row (3 * (i / 4)) 3) (6 * (i % 4) + 5) (6 * (i % 4))
  else getLe row (i * (n / 8)) (n / 8)

/-- A row of n-bit element codes packed as R40 gives; the last byte or group is padded with zeros. -/
def packRow (n : Nat) (xs : List Nat) : List Byte :=
  if n = 4 then (chunksOf 2 xs).map (fun l => BitVec.ofNat 8 (l.getD 0 0 % 16 + 16 * (l.getD 1 0 % 16)))
  else if n = 6 then ((chunksOf 4 xs).map (fun l => leBytes 3
    (l.getD 0 0 % 64 + 64 * (l.getD 1 0 % 64) + 4096 * (l.getD 2 0 % 64) + 262144 * (l.getD 3 0 % 64)))).flatten
  else (xs.map (fun x => leBytes (n / 8) x)).flatten

/-- Bytes of a row of k n-bit elements (R40). -/
def rowBytes (n k : Nat) : Nat := if n = 4 then (k + 1) / 2 else if n = 6 then (k + 3) / 4 * 3 else k * (n / 8)

end Sys2Proof.Machine
end

