-- ==== Sys2Proof/Machine/Flags.lean ====
section
/-! DEFINITION. Comparisons that write predicates (R105: ISETP, FSETP, USETP) and the votes of R88. The device keeps no
other flags (R43). -/

namespace Sys2Proof.Machine

/-- A comparison of two integers. -/
def cmpInt (c : Cmp) (a b : Int) : Bool :=
  match c with
  | .eq => a = b
  | .ne => a ≠ b
  | .lt => a < b
  | .le => a ≤ b
  | .gt => b < a
  | .ge => b ≤ a

/-- A comparison of two n-bit words, signed or unsigned. -/
def cmpWord (n : Nat) (c : Cmp) (sgn : Bool) (a b : Nat) : Bool :=
  if sgn then cmpInt c (sext n a) (sext n b) else cmpInt c (a % 2 ^ n : Nat) (b % 2 ^ n : Nat)

/-- A comparison of two binary32 values (IEEE 754-2019, R52): with a NaN only "not equal" holds. -/
def cmpFlt (c : Cmp) (a b : FVal) : Bool :=
  match c with
  | .eq => a.eqv b
  | .ne => !a.eqv b
  | .lt => a.lt b
  | .le => a.lt b || a.eqv b
  | .gt => b.lt a
  | .ge => b.lt a || a.eqv b

/-- ANY, ALL, UNI of R88 over the executing lanes: tested values and SRC0 values. -/
def voteBit (mode : Nat) (tested : List Bool) (vals : List Nat) : Bool :=
  match mode with
  | 0 => tested.any id
  | 1 => tested.all id
  | _ => match vals with
    | [] => true
    | v :: vs => vs.all (· = v)

end Sys2Proof.Machine
end

