-- ==== Sys2Proof/Machine/Memory.lean ====
section
/-! DEFINITION. Local physical memory as a canonical list of bytes: addresses strictly rising, no byte equal to what an
unlisted address reads as. An unlisted byte reads 0: boot step 17 writes all of memory with zeros (R520, log entry 4). -/

namespace Sys2Proof.Machine

/-- What an unlisted address reads as. -/
def memDefault : Byte := 0

/-- One byte of memory. -/
def memGet (m : List Host.Cell) (a : Nat) : Byte :=
  match m with
  | [] => memDefault
  | (k, b) :: rest => if k = a then b else if a < k then memDefault else memGet rest a

/-- Write one byte, keeping the canonical form. -/
def memPut (m : List Host.Cell) (a : Nat) (b : Byte) : List Host.Cell :=
  match m with
  | [] => if b = memDefault then [] else [(a, b)]
  | (k, c) :: rest =>
    if k = a then (if b = memDefault then rest else (a, b) :: rest)
    else if a < k then (if b = memDefault then (k, c) :: rest else (a, b) :: (k, c) :: rest)
    else (k, c) :: memPut rest a b

/-- The canonical form. -/
def Memory.wf (m : List Host.Cell) : Bool :=
  match m with
  | [] => true
  | (k, b) :: rest => b ≠ memDefault && (match rest with | [] => true | (k', _) :: _ => k < k') && Memory.wf rest

/-- n bytes from an address. -/
def memRead (m : List Host.Cell) (a n : Nat) : List Byte := (List.range n).map (fun i => memGet m (a + i))

/-- Write bytes from an address upward. -/
def memWrite (m : List Host.Cell) (a : Nat) (l : List Byte) : List Host.Cell :=
  match l with
  | [] => m
  | b :: bs => memWrite (memPut m a b) (a + 1) bs

/-- Make every byte of [a, a + n) zero. -/
def memZero (m : List Host.Cell) (a n : Nat) : List Host.Cell := m.filter (fun c => c.1 < a || a + n ≤ c.1)

/-- Little-endian number of n bytes at an address (R8). -/
def memLe (m : List Host.Cell) (a n : Nat) : Nat := leNat (memRead m a n)

/-! ### Sorted sets of numbers (poisoned sectors) -/

def setAdd (l : List Nat) (x : Nat) : List Nat :=
  match l with
  | [] => [x]
  | y :: ys => if y = x then y :: ys else if x < y then x :: y :: ys else y :: setAdd ys x

def setDel (l : List Nat) (x : Nat) : List Nat := l.filter (· ≠ x)

end Sys2Proof.Machine
end

