-- ==== Sys2Proof/Machine/State.lean ====
section
/-! DEFINITION. The state of the MVZ-3290 as plain data: every register, buffer, counter, queue and pin the spec gives
the die, the queue of waiting commands, and the state right after reset. Each field's docstring names the rule of
spec/ that gives it; its value at reset is in `State.reset` (or in the constant named there for the unit). -/

namespace Sys2Proof.Machine

/-! ### Engines, strings, tensor banks (chapters 03 and 04) -/

/-- Why a group of a string is not eligible to issue (R75, R81, R85, R100, R135). -/
inductive Block where
  /-- eligible -/
  | open
  /-- blocked on phase completion of a named barrier of its workgroup (R85) -/
  | barrier (b : Nat)
  /-- SLEEP: units of 16 CCLK (R100) -/
  | sleep (units : Nat)
  /-- a source or destination register is still pending on the scoreboard (R78) -/
  | scoreboard
  /-- TWAIT n (R135) -/
  | tensor (n : Nat)
  /-- sixteen tensor instructions are outstanding (R129) -/
  | tensorFull
  /-- a release waits for acknowledgements of earlier stores (R179) -/
  | release
  deriving DecidableEq, Repr

/-- One entry of a string's group table (R79). -/
structure Group where
  /-- program counter -/
  pc : Dword
  /-- lanes of the group -/
  mask : Word
  /-- instructions left before the group gives way (R81); 64 when it becomes active -/
  budget : Nat
  /-- why it may not issue -/
  block : Block
  deriving DecidableEq, Repr

/-- String states of R75; Free is absence from the table. -/
inductive StrState where
  | ready
  | waiting
  /-- parked on a fault record, or waiting for a free record (none) (R93, R195) -/
  | parked (fault : Option Nat)
  | draining
  deriving DecidableEq, Repr

/-- What launched a string (R73, R385). -/
inductive StrKind where
  | compute
  | vertex (pass order : Nat)
  | fragment (pass order prim : Nat)
  deriving DecidableEq, Repr

/-- A resident string (R70 to R100). Every register reads 0 where nothing is listed (R74). -/
structure Str where
  /-- queue and header index of its command -/
  queue : Nat
  cmd : Nat
  /-- key of its workgroup in `Eng.wgs` -/
  wg : Nat
  kind : StrKind
  /-- declared vector registers per thread (R70) -/
  regs : Nat
  /-- launch stamp (R74) -/
  stamp : Word
  state : StrState
  /-- promoted at (order of promotion) (R77) -/
  promoted : Option Nat
  /-- lanes that have not exited (R73, R80) -/
  live : Word
  /-- group table, the active group first, then round-robin order (R79, R80) -/
  groups : List Group
  /-- v0-v255, key 32 * register + lane (R69); 0 -/
  vregs : Map Word
  /-- p0-p6, one lane mask each (R71); 0 -/
  preds : Map Word
  /-- u0-u63 (R69); 0 -/
  uregs : Map Dword
  /-- registers pending on the scoreboard: v n is n, p n is 256 + n, u n is 512 + n (R78) -/
  busy : List Nat
  /-- its growth request was declined: the replayed ALLOC acts as if GROW were 0 (R211) -/
  noGrow : Bool
  /-- per lane, the pixel of a fragment string as y * 65536 + x, or the vertex of a vertex string as
  instance * COUNT + place (R385) -/
  pixels : Map Nat
  /-- coverage masks of a fragment string per lane (R385) -/
  coverage : Map Nat
  deriving DecidableEq, Repr

/-- A named barrier of a workgroup (R84). -/
structure Bar where
  /-- threads that have arrived in this phase -/
  count : Nat
  /-- expected count named in this phase before exits are subtracted; none while nothing has arrived -/
  expected : Option Nat
  deriving DecidableEq, Repr

/-- A resident workgroup (R72, R73, R84). -/
structure Wg where
  queue : Nat
  cmd : Nat
  /-- linear index in the dispatch -/
  index : Nat
  threads : Nat
  /-- threads that have executed EXIT (R84) -/
  exited : Nat
  /-- strings not yet Free (R76) -/
  strings : Nat
  /-- shared-memory size in bytes (R72) -/
  sharedSize : Nat
  /-- shared memory, byte address to byte; an unlisted byte holds an undefined (free) value (R72) -/
  shared : Map Byte
  /-- seed of the free values of this carve-out -/
  sharedSeed : Nat
  bars : Map Bar
  deriving DecidableEq, Repr

/-- A dispatch in progress on an engine (R73, R315, R316). -/
structure Disp where
  queue : Nat
  cmd : Nat
  entry : Dword
  /-- workgroups in the grid -/
  total : Nat
  threads : Nat
  regs : Nat
  shared : Nat
  args : Dword
  /-- u2 of a gang fallback kernel: mask of fenced positions (R74, R150) -/
  u2 : Dword
  /-- next workgroup to launch -/
  next : Nat
  /-- gang layer run by its rendezvous, not by a fallback kernel -/
  gang : Bool
  /-- a bad free of this dispatch has been logged (R212) -/
  badFree : Bool
  /-- gang TMMAs issued so far on this member (R138) -/
  gangOps : Nat
  /-- tensor granules it holds, G15 downward (R141) -/
  granules : Nat
  deriving DecidableEq, Repr

/-- Kind of a tensor instruction (R131). -/
inductive TKind where
  | tmma
  | tfill
  | tspill
  | tcvt
  deriving DecidableEq, Repr

/-- An outstanding tensor instruction (R129, R130). The uniform registers it names are read at issue. -/
structure TIns where
  /-- issue number on the engine -/
  id : Nat
  kind : TKind
  /-- key of the issuing string, and its command -/
  place : Nat
  queue : Nat
  cmd : Nat
  /-- bits [25:0] of the instruction -/
  low : BitVec 26
  /-- descriptors (even register low): A or tile, B or source, C or destination (R122, R149) -/
  descA : BitVec 128
  descB : BitVec 128
  descC : BitVec 128
  /-- element and scale address, pitches of TFILL and TSPILL (R131) -/
  addr : Dword
  scaleAddr : Dword
  pitch : Dword
  /-- n of the n-th gang TMMA of its layer (R138); none for every other instruction -/
  gangSeq : Option Nat
  started : Bool
  /-- its mover met a translation fault and repeats it when the string resumes (R133) -/
  faulted : Bool
  deriving DecidableEq, Repr

/-- A line of an L1 cache (R155). -/
structure L1Line where
  /-- local physical line address (address / 128) -/
  line : Nat
  /-- held for a page marked read-only (R178, R179) -/
  readOnly : Bool
  data : List Byte
  deriving DecidableEq, Repr

/-- One compute engine (R69). -/
structure Eng where
  /-- strings launched so far (R74); 0 -/
  stamp : Word
  /-- strings by place 16 * slot + place in slot (R69); none -/
  strs : Map Str
  /-- resident workgroups by key (R73); none -/
  wgs : Map Wg
  nextWg : Nat
  /-- dispatches in progress, oldest first (R315); none -/
  disps : List Disp
  /-- outstanding tensor instructions in issue order (R129); none -/
  tensors : List TIns
  nextTensor : Nat
  /-- tile memory by byte offset (R117); 0 at reset and after step 12 of R520 -/
  tile : Map Byte
  /-- granules whose contents are undefined since they changed sides, with the seed of their free values (R145) -/
  tileFree : Map Nat
  /-- TB, the boundary between the graphics and the tensor side (R141); 16 -/
  tb : Nat
  /-- graphics granules, G0 upward, that running passes hold, by pass (R141); none -/
  gfxHolds : Map Nat
  /-- a pass or a layer waits for granules (R141): the granules it needs; none -/
  waitGfx : Option Nat
  waitTns : Option Nat
  /-- L1 lines by 16 * set + way (R155); none -/
  l1 : Map L1Line
  /-- pseudo-LRU tree bits per set (R155); 0 -/
  plru : Map Nat
  /-- gang-layer command its outrider has reached and not yet started: queue, header index (R137); none -/
  atGang : Option (Nat × Nat)
  /-- the bank is parked because a member has a parked string of the gang layer (R146); false -/
  gangParked : Bool
  /-- a gang-layer arrival sent: convoy, gang identifier, layer (R137); none -/
  arrive : Option (Nat × Nat × Nat)
  /-- tile-held region open (R350); false -/
  tileHold : Bool
  /-- the outrider has been told to stop accepting (R349, R353, R537); false -/
  stopped : Bool
  /-- loaded CCLK and FCLK since the last charge point (R345, R361); 0 -/
  loadedC : Nat
  loadedF : Nat
  /-- charge context and waybill of the charge command, kept while the engine holds none (R345); none -/
  charge : Option (Nat × Dword × Word)
  /-- version of the microcode it runs (R535, R537); 0 -/
  ucode : Word
  /-- promotions so far (order of R77); 0 -/
  promotions : Nat
  deriving DecidableEq, Repr

/-! ### Queues, events (chapter 10), passes (chapter 12), partitions and convoys (chapter 11) -/

/-- Life of an accepted command (R320, R321). `ended e` carries its E_ code, 0 for success. -/
inductive CmdState where
  | accepted
  | started
  | ended (err : Nat)
  deriving DecidableEq, Repr

/-- An accepted command that has not retired (R311, R312). -/
structure Cmd where
  /-- absolute ring index of its header -/
  index : Nat
  opcode : Nat
  crec : Bool
  serial : Bool
  seq : Word
  /-- WAYBILL_ID of the header (R312) -/
  waybill : Dword
  /-- listed object handles, inline and extended (R203) -/
  handles : List Nat
  /-- payload bytes (R311) -/
  payload : List Byte
  st : CmdState
  /-- DETAIL of its completion record (R326) -/
  detail : Dword
  preempted : Bool
  /-- a fallback kernel or stream ran (R326) -/
  fallback : Bool
  /-- it stops its queue when it retires (R328) -/
  stops : Bool
  /-- it belongs to a fallback stream and has no place in the main ring (R371) -/
  inStream : Bool
  /-- the header could be read (R329) -/
  headerRead : Bool
  /-- its remote SIGNAL has been sent and awaits EVENT_ACK; the retirement goes on then (R473) -/
  signalled : Bool
  deriving DecidableEq, Repr

/-- A fallback stream being run by a queue (R371). -/
structure Stream where
  /-- address of the next fallback command -/
  next : Dword
  /-- the stream has ended (its BATCH_END retired, or a failing command ended it) -/
  ended : Bool
  /-- E_ code and DETAIL of the first fallback command that failed -/
  err : Nat
  detail : Dword
  deriving DecidableEq, Repr

/-- A queue (R304, R305). -/
structure Queue where
  asid : Nat
  /-- log2 of the ring entries -/
  sizeLog : Nat
  /-- 0 engine, 1 copy, 2 compression -/
  kind : Nat
  vector : Nat
  ringVa : Dword
  /-- convoy of a KIND 0 queue -/
  convoy : Option Nat
  /-- engine, copy or compression engine index -/
  unit : Nat
  /-- head, tail, LAST (R305); 0 at QUEUE_CREATE -/
  head : Word
  tail : Word
  last : Word
  /-- doorbells not yet passed by head: tail value, FCLK count at which it was applied (R365); none -/
  rung : List (Word × Nat)
  /-- stopped by R328, R329; false -/
  stopped : Bool
  /-- fetch stalled on a fault record, or waiting for a free one (R194, R195); none -/
  stalled : Option (Option Nat)
  /-- header entry of the command at which fetching stalled; empty where it could not be read (R329) -/
  stallHdr : List Byte
  /-- accepted, unretired commands in ring order -/
  cmds : List Cmd
  /-- fallback stream in progress (R371); none -/
  stream : Option Stream
  /-- a queue diverted at this point; the main commands up to BATCH_END are not executed (R371); none -/
  diverted : Option Nat
  /-- held at a BATCH_START that awaits release (R365); false -/
  atBatchStart : Bool
  /-- between BATCH_START and BATCH_END (R364); false -/
  inBatch : Bool
  /-- its BATCH_END of the present batch has retired (R364); false -/
  batchDone : Bool
  /-- a PASS_BEGIN has been accepted and its PASS_END has not (R375); false -/
  passOpen : Bool
  /-- key of the render pass that the queue's present pass commands belong to (R375); none -/
  pass : Option Nat
  /-- ORDER of the last DRAW of that pass (R384); none -/
  lastOrder : Option Nat
  deriving DecidableEq, Repr

/-- An allocated event (R322). -/
structure Event where
  count : Dword
  /-- bound vector, 0 for none (R298) -/
  vector : Nat
  deriving DecidableEq, Repr

/-- A job on a copy or compression engine (R194, R318, R444, R454). -/
structure Job where
  queue : Nat
  cmd : Nat
  /-- bytes of output already moved when the job stopped at a faulting page -/
  done : Nat
  /-- fault it is stopped on; none while it runs -/
  fault : Option (Option Nat)
  decompressing : Bool
  deriving DecidableEq, Repr

/-- A vertex as a vertex string leaves it (R385): x, y, z, w and attribute words, FP32. -/
structure Vertex where
  x : Word
  y : Word
  z : Word
  w : Word
  attrs : List Word
  deriving DecidableEq, Repr

/-- A primitive in order-key order (R384, R392). -/
structure Prim where
  order : Nat
  prim : Nat
  verts : List Vertex
  /-- index in `Pass.draws` of its draw -/
  draw : Nat
  deriving DecidableEq, Repr

/-- What one fragment string gave for one pixel of one primitive (R385): the four words of each colour attachment in
use, depth, discard. -/
structure Shaded where
  order : Nat
  prim : Nat
  x : Nat
  y : Nat
  colors : List (List Word)
  depth : Word
  discarded : Bool
  deriving DecidableEq, Repr

/-- A TSA of a fragment (R404): the sample value it wrote. -/
structure TileWrite where
  order : Nat
  prim : Nat
  x : Nat
  y : Nat
  att : Nat
  sample : Nat
  value : Nat
  ordered : Bool
  deriving DecidableEq, Repr

/-- A draw of a pass (R384). -/
structure DrawRec where
  engine : Nat
  queue : Nat
  cmd : Nat
  /-- the 64 payload bytes -/
  payload : List Byte
  /-- the 96 bytes of its raster state block (R386) -/
  state : List Byte
  /-- vertex and index of each vertex of the draw whose string has been launched, by instance * COUNT + place -/
  fetched : Map Nat
  /-- outputs of the vertex strings so far, by the same key (R385) -/
  outs : Map Vertex
  /-- primitives assembled so far -/
  assembled : Nat
  deriving DecidableEq, Repr

/-- A binning front serving a pass (R378, R391, R393). -/
structure Front where
  /-- Quad of the front -/
  quad : Nat
  /-- member engines that bin on it (R378) -/
  members : List Nat
  /-- primitives binned, ascending order key -/
  binned : List Prim
  /-- number of the current data chunk, and bytes used in it (R391) -/
  chunk : Option Nat
  used : Nat
  /-- stalled on a manifest growth record at a primitive of this draw (R395) -/
  stalled : Option Nat
  /-- draws whose draw record it has written, with the address -/
  drawsWritten : Map Nat
  /-- last block of each tile's list, by ty * X + tx: address and entries in use (R391, R392) -/
  tails : Map (Nat × Nat)
  deriving DecidableEq, Repr

/-- Phases of R376. -/
inductive PassPhase where
  | opening
  | geometry
  /-- an incremental render inside the geometry phase (R396) -/
  | increment
  | tiles
  deriving DecidableEq, Repr

/-- A member of a pass. -/
structure Member where
  queue : Nat
  /-- header index of its PASS_BEGIN -/
  cmd : Nat
  /-- it holds its graphics granules -/
  granted : Bool
  /-- it has accepted PASS_END; header index -/
  ended : Option Nat
  deriving DecidableEq, Repr

/-- A render pass (R375 to R397). -/
structure Pass where
  /-- key, and convoy and ASID of its queues -/
  convoy : Nat
  asid : Nat
  /-- the 192 payload bytes of PASS_BEGIN -/
  payload : List Byte
  phase : PassPhase
  /-- tile size in force, 16, 32 or 64 (R388); 0 before opening ends -/
  tile : Nat
  /-- engines that have opened it (R375) -/
  members : Map Member
  draws : List DrawRec
  fronts : List Front
  /-- heap bytes mapped, incremental renders, chunks in use (R390, R391, R396) -/
  mapped : Nat
  increments : Nat
  chunks : List Nat
  /-- tiles already rendered once, as ty * X + tx (R396) -/
  rendered : List Nat
  /-- outstanding F_MANIFEST_GROW record (R395) -/
  growth : Option Nat
  /-- outputs of the fragment strings of the present render, and their TSA writes (R385, R404) -/
  frags : List Shaded
  writes : List TileWrite
  /-- seed of the free values of the pass: contents after LOAD 2, roundings of R399 -/
  seed : Nat
  /-- it waits on a translation fault of one of its own accesses: the record (or a free one), queue and command -/
  stall : Option (Option Nat × Nat × Nat)
  deriving DecidableEq, Repr

/-- One layer entry and its predictor (R368, R369). -/
structure LayerEnt where
  layer : Nat
  worst : Nat
  avg : Nat
  n : Nat
  deriving DecidableEq, Repr

/-- One point entry of a fallback table (R368). -/
structure PointEnt where
  before : Nat
  fbWorst : Nat
  /-- engine and stream address per queue -/
  streams : List (Nat × Dword)
  deriving DecidableEq, Repr

/-- The timed side of a convoy (R363 to R371). -/
structure Timed where
  /-- 0 command, 1-4 FSYNC0-FSYNC3 -/
  release : Nat
  /-- false rising, true falling -/
  falling : Bool
  deadline : Nat
  margin : Nat
  layers : List LayerEnt
  points : List PointEnt
  deriving DecidableEq, Repr

/-- A batch in progress (R365 to R371). -/
structure Batch where
  /-- t_R, FCLK count -/
  tR : Nat
  /-- point at which the batch is diverted -/
  diverted : Option Nat
  /-- points already decided -/
  decided : List Nat
  /-- per LAYER: FCLK of the first start and of the last retirement (R369) -/
  samples : Map (Nat × Option Nat)
  deriving DecidableEq, Repr

/-- A convoy (R341, R343, R363). -/
structure Convoy where
  partition : Nat
  share : Nat
  /-- context of its most recently accepted command (R344); none -/
  keyCtx : Option Nat
  timed : Option Timed
  /-- settings that apply from its next release (R363) -/
  timedNext : Option (Option Timed)
  batch : Option Batch
  /-- pending FSYNC edge with its own t_R (R366) -/
  pendingEdge : Option Nat
  /-- passes that opened without an engine they named, while it was fenced: engine, CRC-32C of the payload (R375) -/
  absent : List (Nat × Nat)
  /-- FCLK count at which its last batch ended (R365); 0 -/
  lastEnd : Nat
  deriving DecidableEq, Repr

/-- A save slot: the convoy and the engines' saved state (R339, R353, R357). -/
structure Slot where
  convoy : Nat
  engines : Map Eng
  deriving DecidableEq, Repr

/-- A forced pre-emption or restore in progress (R353, R355). -/
structure Forcing where
  /-- convoy that stops -/
  victim : Nat
  /-- convoy that becomes resident next; none when nothing was ready -/
  next : Option Nat
  /-- it is the restore of `victim` (R355) -/
  restore : Bool
  /-- CCLK count of its cycle 0 (R361) -/
  since : Nat
  deriving DecidableEq, Repr

/-- A formed partition (R337, R373). -/
structure Partition where
  quads : BitVec 8
  gfxMin : Nat
  tnsMin : Nat
  slice : Nat
  parkLimit : Nat
  shareMax : Nat
  /-- VMIN (R346); 0 -/
  vmin : Nat
  resident : Option Nat
  /-- the slice of the resident convoy runs -/
  sliceOn : Bool
  /-- boundary switch in progress toward this convoy (R349) -/
  switching : Option Nat
  forcing : Option Forcing
  slots : List Slot
  /-- local physical address of its save slots, and their bytes (R339, R571) -/
  saveBase : Nat
  saveBytes : Nat
  deriving DecidableEq, Repr

/-- Registers of the SCH block that outlive a partition (R373): epoch, switches, forced, overruns; 0. -/
structure SchRegs where
  epoch : Nat
  switches : Word
  forced : Word
  overruns : Word
  deriving DecidableEq, Repr

/-- Accounting record of a context (R360); all 0 with domain identifiers. -/
structure Account where
  seen : Bool
  epoch : Nat
  partition : Nat
  vtime : Nat
  engineTime : Nat
  preemptTime : Nat
  commands : Word
  preemptions : Nat
  fallbacks : Nat
  misses : Nat
  deriving DecidableEq, Repr

/-! ### Translation, objects, allocator (chapter 06), L2 and DRAM (chapters 05 and 07) -/

/-- An address space (R183). -/
structure Asid where
  /-- fault ring it names -/
  ring : Nat
  /-- local physical address of its level-3 table (R185) -/
  root : Nat
  deriving DecidableEq, Repr

/-- Object states of R202; FREE is absence. -/
inductive ObjState where
  | live
  | dooming
  | doomed
  deriving DecidableEq, Repr

/-- A memory object (R201, R202, R206). -/
structure Obj where
  asid : Nat
  va : Nat
  size : Nat
  /-- 0 4 KiB, 1 64 KiB, 2 2 MiB, 3 1 GiB -/
  page : Nat
  access : Nat
  cpol : Nat
  /-- key of its backing -/
  backing : Nat
  st : ObjState
  /-- use count (R203), 32 bits -/
  uses : Nat
  /-- queues that have not yet fetched up to their horizon: queue, absolute tail index (R206) -/
  horizons : List (Nat × Word)
  /-- event and value to record when it is reclaimed (R207) -/
  event : Option (Nat × Dword)
  deriving DecidableEq, Repr

/-- What backs an object (R201). -/
structure Backing where
  /-- 0 local, 1 strongroom, 2 host, 3 remote -/
  placement : Nat
  /-- owning die of a remote backing, or the die a local backing is held for (R471) -/
  die : Nat
  heldFor : Option Nat
  /-- first physical address of a local, strongroom or remote backing -/
  base : Nat
  size : Nat
  /-- bus address of each page of a host backing -/
  pages : List Nat
  deriving DecidableEq, Repr

/-- A heap (R208 to R213). -/
structure Heap where
  /-- handles of its heap objects in the order they were added, with the bookkeeping address -/
  objs : List (Nat × Nat)
  /-- allocated blocks: device address to class (R209) -/
  blocks : Map Nat
  /-- chunks in use by classes 0-14: chunk address to class -/
  chunks : Map Nat
  badFrees : Word
  deriving DecidableEq, Repr

/-- A fault record (R197). -/
structure FaultRec where
  asid : Nat
  kind : Nat
  write : Bool
  fetch : Bool
  atomic : Bool
  va : Dword
  waybill : Dword
  seq : Word
  agent : Nat
  unit : Nat
  queue : Nat
  level : Nat
  heap : Nat
  detail : Dword
  /-- FCLK count when it was raised (STAMP) -/
  stamp : Nat
  /-- ring slot it has been written to; none while it waits in the translation unit (R196) -/
  slot : Option (Nat × Nat)
  /-- agents attached -/
  waiters : Nat
  /-- heap slot or pass of a growth record (R195); 0 for translation kinds -/
  growKey : Nat
  /-- convoy whose fault it is (R199) -/
  convoy : Option Nat
  deriving DecidableEq, Repr

/-- A fault ring (R196). -/
structure FaultRing where
  /-- log2 of its records -/
  sizeLog : Nat
  vector : Nat
  /-- false host, true device -/
  device : Bool
  asid : Nat
  addr : Dword
  /-- write index, 0 when it is enabled -/
  widx : Nat
  /-- slot to FAULT_ID of the record last written there -/
  slots : Map Nat
  deriving DecidableEq, Repr

/-- A cached translation (R187, R189). -/
structure TlbEnt where
  asid : Nat
  /-- first virtual address of the page, and its size in bytes -/
  va : Nat
  bytes : Nat
  /-- the leaf entry -/
  pte : Dword
  deriving DecidableEq, Repr

/-- A walk-cache entry: the table a non-leaf entry of a level points to (R189). -/
structure WalkEnt where
  asid : Nat
  level : Nat
  va : Nat
  table : Nat
  deriving DecidableEq, Repr

/-- State of one L2 slice (R163 to R170). -/
structure Slice where
  /-- OFF_WAYS: disabled ways; 0 -/
  off : BitVec 16
  /-- ways being written back and invalidated (ineligible) (R163); 0 -/
  leaving : BitVec 16
  converting : Bool
  fenced : Bool
  /-- ways of the strongroom range that are lost (R170); 0 -/
  lost : BitVec 16
  /-- corrected errors per way in this lap (R231) -/
  wayCe : Map Nat
  /-- ways whose F_SR_WAY_WEAK has been recorded (R231) -/
  weak : List Nat
  /-- corrected errors of cache and strongroom (R231); 0 -/
  corrected : Word
  correctedSr : Word
  /-- scrub position (R233) and duration of the last lap (R234); 0 -/
  scrubPos : Nat
  lap : Nat
  deriving DecidableEq, Repr

/-- An L2 line (R158 to R161). -/
structure L2Line where
  /-- physical line address / 128; on its owning die for a remote read-only line -/
  line : Nat
  /-- owning die of a remote line; none for a local one -/
  die : Option Nat
  age : Nat
  /-- dirty sectors, bit k for bytes 32k to 32k+31 -/
  dirty : BitVec 4
  /-- byte-valid mask (R159) -/
  valid : BitVec 128
  /-- contents of a line of a remote read-only page; empty for a local line, whose bytes stand in `Mem.cells` -/
  data : List Byte
  deriving DecidableEq, Repr

/-- State of one DRAM channel (R231, R237 to R239). -/
structure Channel where
  /-- units of 100 MT/s; 0 -/
  rate : Nat
  failed : Bool
  excluded : Bool
  migrating : Bool
  /-- copying back (step 5 of R237) -/
  back : Bool
  /-- migration pointer P (R237) -/
  pointer : Nat
  training : Bool
  safe : Bool
  corrected : Word
  /-- corrected errors since the scrubber's last lap (R231) -/
  lapCe : Nat
  /-- retraining is wanted but its conditions do not hold (R231, R237) -/
  retrainWanted : Bool
  scrubPos : Nat
  deriving DecidableEq, Repr

/-- An entry of the correctable-error log (R232). -/
structure EccEnt where
  addr : Nat
  source : Nat
  unit : Nat
  sub : Nat
  position : Nat
  syndrome : Word
  repeats : Word
  stamp : Dword
  deriving DecidableEq, Repr

/-- A partial write that waits in a DRAM controller's queue (R229). -/
structure Partial where
  /-- local physical address of the sector -/
  sector : Nat
  /-- byte mask -/
  mask : BitVec 32
  deriving DecidableEq, Repr

/-! ### Host window, mailboxes, sessions (chapters 08 and 09) -/

/-- What leaves the device on the host link or a caravan port (model's record of the outside; newest first in `HostSide.out`). -/
inductive OutMsg where
  /-- MSI-X message of a vector (R270) -/
  | msix (vector : Nat) (addr : Dword) (data : Word)
  /-- posted write to host memory -/
  | write (addr : Nat) (bytes : List Byte)
  /-- completion of a host read or AtomicOp: status 0 successful, 1 unsupported request; EP set when poisoned -/
  | completion (status : Nat) (bytes : List Byte) (poisoned : Bool)
  /-- non-posted request to the host: tag, address, length, operation (0 read, 1 FetchAdd, 2 Swap, 3 CAS), operands -/
  | request (tag addr len op : Nat) (operand compare : Dword)
  /-- caravan message: port, TYPE, SRC, DST, TAG, ADDR, AUX, SIZE, HOPS_LEFT, data (R462) -/
  | caravan (port type src dst tag addr aux size hops : Nat) (data : List Byte) (poison : Bool)
  /-- link acknowledgement of a port: ACK_SEQ, NAK (R464) -/
  | linkAck (port seq : Nat) (nak : Bool)
  /-- a flit sent again from the replay buffer: port, FSEQ (R464) -/
  | replay (port seq : Nat)
  /-- display line idle or active: pipe, whether it sends pixels (R420) -/
  | display (pipe : Nat) (active : Bool)
  deriving DecidableEq, Repr

/-- A request of the host that is held while the device is in Halt (R253): writes to the three BARs, and reads and
atomic operations, which are answered after wake. -/
inductive HeldWrite where
  | bar0 (offset : Nat) (bytes : List Byte)
  | bar2 (offset : Nat) (bytes : List Byte)
  | bar4 (offset : Nat) (bytes : List Byte)
  | read0 (offset : Nat) (size : Nat)
  | read4 (offset : Nat) (len : Nat) (ext : Option (List Byte))
  | atom4 (offset : Nat) (op : AtomOp) (wide : Bool) (operand compare : Dword)
  /-- configuration writes: 0 Function Level Reset, 1 to D3hot, 2 to D0 -/
  | config (op : Nat)
  deriving DecidableEq, Repr

/-- What happens to the data of a host request when it completes (R247). -/
inductive NpDest where
  /-- per lane: engine, place, first vector register, lanes' bytes in order; loads of a string -/
  | load (engine place dst lane width : Nat) (sgn : Bool)
  /-- returned value of a host atomic, or none -/
  | atomic (engine place dst lane width : Nat) (ret : Bool)
  /-- lanes of one combined atomic (lane, operand, compare): operation, width code (R89, R102) -/
  | combined (engine place dst : Nat) (op : AtomOp) (width : Nat) (lanes : List (Nat × Nat × Nat)) (ret : Bool)
  /-- a store of a string: its release fences wait for the acknowledgement (R179) -/
  | store (engine place : Nat)
  /-- a request of the host through BAR4: it is completed with this many bytes (R251) -/
  | aperture (len : Nat)
  /-- another agent; its data is not kept -/
  | other
  deriving DecidableEq, Repr

/-- A non-posted request outstanding toward the host (R246, R247). -/
structure NpReq where
  addr : Nat
  len : Nat
  dest : NpDest
  deriving DecidableEq, Repr

/-- A mailbox pair (R260, R261). -/
structure MbxPair where
  /-- 64 bytes each; 0 -/
  req : List Byte
  rsp : List Byte
  busy : Bool
  reqPending : Bool
  rspReady : Bool
  /-- a response held until ACK, with its request tag (R282) -/
  held : Option (List Byte)
  /-- the response to PWR_HALT has not been acknowledged (R512) -/
  haltAck : Bool
  deriving DecidableEq, Repr

/-- A cookie ring (R272, R273). -/
structure CookieRing where
  base : Dword
  size : BitVec 4
  enabled : Bool
  crcRef : Word
  head : Word
  tail : Word
  ignoredWrite : Bool
  crcMismatch : Bool
  fenced : Bool
  dropped : Word
  /-- DROPPED_BEFORE is owed (R275) -/
  owed : Bool
  deriving DecidableEq, Repr

/-- An entry of the MSI-X table (R244); masked at reset as PCIe defines. -/
structure MsixEnt where
  addr : Dword
  data : Word
  masked : Bool
  deriving DecidableEq, Repr

/-- A kept response of a session (R291, R292). -/
structure Kept where
  tag : Nat
  crc : Word
  rsp : List Byte
  /-- its long operation still runs -/
  running : Bool
  fetched : Bool
  deriving DecidableEq, Repr

/-- An open session (R285 to R291). -/
structure Session where
  /-- 1 Operator, 2 Installer, 3 Maker -/
  role : Nat
  rev : Nat
  authed : Bool
  challenge : List Byte
  expired : Bool
  /-- failed SESSION_AUTHs (R288) -/
  fails : Nat
  kept : List Kept
  /-- the diagnostic window is open for it (R301) -/
  diag : Bool
  deriving DecidableEq, Repr

/-- A long operation in progress (R292). -/
structure LongOp where
  opcode : Nat
  pair : Nat
  session : Nat
  tag : Nat
  rev : Nat
  role : Nat
  /-- first parameter bytes (0x10-0x3F) -/
  params : List Byte
  /-- data the operation needs at its end (an image, a snapshot) -/
  data : List Byte
  deriving DecidableEq, Repr

/-- The host window and link (chapter 08). -/
structure HostSide where
  heartbeat : Word
  writeLost : Word
  lastLost : Word
  apertureMiss : Word
  doorbellDrop : Word
  /-- HRW_SCRATCH0-3 (R258) -/
  scratch : Map Dword
  /-- staged low words by BAR0 offset (R264) -/
  staged : Map Word
  /-- high-word shadows by register key (R263) -/
  shadows : Map Word
  pairs : Map MbxPair
  rings : Map CookieRing
  msix : Map MsixEnt
  /-- function mask and pending bits (R271) -/
  functionMask : Bool
  pendingBits : List Nat
  /-- GENERATION of the capability table (R303) -/
  capGeneration : Word
  /-- log2 of the size of BAR4 (R244) -/
  bar4Log : Nat
  d3hot : Bool
  /-- messages that wait in D3hot or in Halt, oldest first (R253, R255) -/
  waitOut : List OutMsg
  heldWrites : List HeldWrite
  /-- messages that have left, newest first (model's record) -/
  out : List OutMsg
  /-- outstanding requests toward the host by tag (R246) -/
  np : Map NpReq
  /-- link: trained modules, lanes per module, GT/s, UCIe revision; in retry, in recovery, up (R242, R243, R248) -/
  modules : Nat
  lanes : Nat
  rate : Nat
  ucieRev : Nat
  retry : Bool
  recovery : Bool
  linkUp : Bool
  deriving DecidableEq, Repr

/-- Sessions and the firmware's own state (chapter 09). -/
structure Fw where
  /-- MBX_READY, MASTER_ALIVE, UPDATING (R259) -/
  mbxReady : Bool
  masterAlive : Bool
  updating : Bool
  sessions : Map Session
  nextSession : Word
  /-- ACLK counts of the failed authentications since the last lockout (R288); none -/
  authFails : List Nat
  authLocked : Bool
  longOps : List LongOp
  /-- ends of restarts, ACLK counts (R489) -/
  restarts : List Nat
  restarting : Bool
  /-- debug port open (R530) -/
  debugOpen : Bool
  deriving DecidableEq, Repr

/-! ### Display (13), compression and copy engines (14), caravan (15) -/

/-- A display pipe (chapter 13). -/
structure Pipe where
  /-- the 64 configuration bytes of R417; none before DSP_PIPE_SET -/
  cfg : List Byte
  crcRef : Word
  enabled : Bool
  /-- enabled, but composing starts at the next frame start (R420) -/
  starting : Bool
  /-- stopping at the end of the frame (R420, R421) -/
  stopping : Bool
  fenced : Bool
  /-- 0 off, 1 training, 2 up, 3 retraining, 4 failed (R439) -/
  link : Nat
  lanes : Nat
  rate : Nat
  failedRetrains : Nat
  dscOn : Bool
  flatValid : Bool
  flatOff : Bool
  locked : Bool
  fsyncLost : Bool
  fsyncRange : Bool
  layerOff : BitVec 7
  frames : Word
  underruns : Word
  underrunLogged : Bool
  /-- vertical total in force and d (R437) -/
  vtotal : Nat
  d : Int
  stamp : Nat
  deriving DecidableEq, Repr

/-- Layers, scalers and frame-lock state of a pipe (R426 to R438). -/
structure PipeLayers where
  /-- live and staged descriptors, 64 bytes each, by layer -/
  live : Map (List Byte)
  staged : Map (List Byte)
  /-- descriptors that a later staging of the same layer superseded (R428) -/
  superseded : List (List Byte)
  /-- a staged set waits to go live at the next frame start -/
  apply : Bool
  /-- coefficient tables, 1,792 bytes, by layer; the linear table where nothing is listed (R433) -/
  coeff : Map (List Byte)
  coeffStaged : Map (List Byte)
  /-- layer off until its fault is answered (RETRY) or a new descriptor: FAULT_ID (R429) -/
  faults : Map Nat
  /-- frames in a row with |d| <= 1 (R438) -/
  lockRun : Nat
  /-- line counts of the last two edges (R437) -/
  lastEdge : Option Nat
  /-- vertical total of the next frame (R437) -/
  nextTotal : Option Nat
  /-- static run held by the flattened surface (R434) -/
  flatRun : Nat
  /-- pixels of the last composed frame, row by row, R, G, B of 12 bits each (model's record) -/
  frame : List (BitVec 36)
  deriving DecidableEq, Repr

/-- An FSYNC input (R440). -/
structure Sync where
  level : Bool
  edges : Word
  period : Nat
  lastRise : Option Nat
  deriving DecidableEq, Repr

/-- An entry of a routing table (R466). -/
structure Route where
  ports : BitVec 4
  alt : BitVec 4
  hops : Nat
  altHops : Nat
  deriving DecidableEq, Repr

/-- A topology entry (R302). -/
structure Topo where
  /-- 0 absent, 1 member, 2 joining, 3 leaving -/
  st : Nat
  hops : Nat
  dieId : Dword
  /-- die at the far end of each port, 0xFF unconnected -/
  peers : List Nat
  rates : List Nat
  capacity : Nat
  deriving DecidableEq, Repr

/-- A caravan port (R464, R465, R477). -/
structure Port where
  /-- 0 down, 1 training, 2 up, 3 retry, 4 recovery -/
  link : Nat
  width : Nat
  rate64 : Bool
  fenced : Bool
  peer : Option Nat
  replays : Word
  fecCorrected : Word
  discards : Word
  /-- next FSEQ to send, and payload flits not yet acknowledged, oldest first (R464) -/
  txSeq : Nat
  replay : List (Nat × List Byte)
  /-- next FSEQ expected -/
  rxSeq : Nat
  /-- message slots received of a message not yet whole (R462) -/
  rxPartial : List (BitVec 128)
  replaysInRow : Nat
  /-- ACLK counts of the times it was declared down (R476) -/
  downs : List Nat
  idle : Bool
  deriving DecidableEq, Repr

/-- A request outstanding toward another die (R463, R472). -/
structure CvlReq where
  dst : Nat
  /-- TYPE of R462 -/
  type : Nat
  addr : Nat
  port : Nat
  /-- engine, place, register, lane, width for a load or a returning atomic -/
  dest : NpDest
  /-- queue and command whose SIGNAL it is (R473) -/
  signal : Option (Nat × Nat)
  /-- a line of a read-only page that the response fills into L1 and L2 (R14) -/
  fill : Bool
  data : List Byte
  aux : Nat
  /-- offset of the wanted bytes in the response -/
  off : Nat
  deriving DecidableEq, Repr

/-- Caravan state of the die (chapter 15). -/
structure Caravan where
  die : Nat
  size : Nat
  topo : Map Topo
  routes : Map Route
  ports : Map Port
  reqs : Map CvlReq
  /-- destinations now served on ALT (R469) -/
  onAlt : List Nat
  /-- mailbox revision range and firmware major version of each reachable die (R474), as exchanged -/
  peersFw : Map (Nat × Nat × Nat)
  deriving DecidableEq, Repr

/-! ### Faults and logbook (16), power, boot, trust (17, 19), counters (18) -/

/-- A record of the fault collector (R483). -/
structure FltRecord where
  code : Nat
  cls : Nat
  flags : Nat
  unitKind : Nat
  index : Nat
  recoveries : Nat
  count : Nat
  addr : Dword
  info : Dword
  waybill : Dword
  seq : Word
  stamp : Nat
  detect : Dword
  deriving DecidableEq, Repr

/-- Policy of a fault code (R485): ACTION, QUIET, WINDOW. -/
structure Policy where
  action : Nat
  quiet : Nat
  window : Nat
  deriving DecidableEq, Repr

/-- A fence on a unit (R486 to R494). -/
structure Fence where
  /-- a software fence (UNIT_FENCE) -/
  software : Bool
  code : Nat
  cls : Nat
  permanent : Bool
  /-- ACLK of the latest fault recorded on it -/
  since : Nat
  /-- the fence has taken effect (R486) -/
  applied : Bool
  deriving DecidableEq, Repr

/-- A logbook record or submission (R498); the CRC is that of its bytes and is computed when it is read. -/
structure LogRec where
  type : Nat
  writer : Nat
  status : Nat
  /-- ACLK at submission -/
  stamp : Nat
  boot : Word
  session : Word
  role : Nat
  opcode : Nat
  tag : Nat
  error : Nat
  arg0 : Dword
  arg1 : Dword
  arg2 : Dword
  /-- it holds the queue entry kept for a fatal or trip record (R497) -/
  kept : Bool
  deriving DecidableEq, Repr

/-- A watch timer (R333, R334): its value, progress, loaded and exempt at the last sample, how much later its expiry point
has moved, and the ACLK count of its last restart. -/
structure Watch where
  timer : Nat
  last : Nat
  loaded : Bool
  exempt : Bool
  later : Nat
  since : Nat
  deriving DecidableEq, Repr

/-- The fault collector (chapter 16). -/
structure Flt where
  /-- records held, by record number, the latest 1,024 (R482) -/
  records : Map FltRecord
  next : Word
  /-- fences by 256 * KIND + INDEX -/
  fences : Map Fence
  /-- exit times and RECOVERIES by unit (R483, R493) -/
  exits : Map (List Nat)
  recoveries : Map Nat
  /-- the device is in the fatal state (R490); false -/
  fatal : Bool
  /-- ERR_N: pulse running, software level, held (R495, R496); the pulse width is the setting ERRN_PULSE -/
  pulse : Bool
  swLevel : Bool
  held : Bool
  /-- watch timers by unit (R333) -/
  watch : Map Watch
  /-- progress counters by unit: 0-31 engines, 32-35 X, 36-37 Z, 40-47 fronts (R331) -/
  progress : Map Nat
  deriving DecidableEq, Repr

/-- The logbook and its writer (R497 to R501). -/
structure Logbook where
  /-- the records in MRAM by number, the latest 4,096 -/
  records : Map LogRec
  next : Word
  /-- the writer's queue, oldest first, at most 16 entries -/
  queue : List LogRec
  /-- fatal records the collector holds, at most 4 -/
  heldFatal : List LogRec
  dropped : Word
  /-- submissions dropped since the last LOST record -/
  lost : Nat
  /-- PWR_FAIL_N is asserted: no new write starts; ACLK count of the assertion (R500) -/
  warnAt : Option Nat
  deriving DecidableEq, Repr

/-- Device power states of R510, with entry and wake. -/
inductive PowerState where
  | off
  | run
  | rest
  | haltEntry
  | halt
  | waking
  deriving DecidableEq, Repr

/-- The power manager (R508 to R517, R539, R565 to R568). -/
structure Power where
  st : PowerState
  /-- a drain toward Halt is in progress (R512) -/
  drain : Bool
  /-- CCLK point 0-2 -/
  point : Nat
  /-- target of a raise that waits for the PMIC (R509) -/
  raising : Option Nat
  /-- power samples in 1/16 W, newest first, at most 100,000 (R508) -/
  samples : List Nat
  /-- consecutive samples under the raise condition, samples over a limit at 450 MHz -/
  under : Nat
  overs : Nat
  /-- idle CCLK inserted in every 8, 0-4 -/
  idle : Nat
  stepsDown : Word
  halts : Word
  haltCancels : Word
  lastWake : Nat
  wakeSrc : Nat
  /-- a wake source seen during Halt entry (R517) -/
  wakePending : Option Nat
  /-- ACLK count of the commit or of the wake source (R513, R516, R540) -/
  since : Nat
  capThermal : Bool
  capPeak : Bool
  capSustained : Bool
  capPmic : Bool
  /-- pipes stopped by Halt entry (R421) -/
  pipesStopped : List Nat
  /-- estimator calibration of the last PMIC reading (R508) -/
  calibration : Nat
  deriving DecidableEq, Repr

/-- Temperatures and the thermal trip (R565 to R568). -/
structure Thermal where
  /-- latest reading per sensor in 1/16 degree -/
  temps : Map Int
  tmax : Int
  sensor : Nat
  zone : Nat
  /-- samples above 110 degrees since the last step, consecutive samples at or below 107 -/
  hot : Nat
  cool : Nat
  /-- consecutive samples above 125 degrees -/
  tripRun : Nat
  tripped : Bool
  deriving DecidableEq, Repr

/-- One step of a boot-ledger copy (R524). -/
structure BootStep where
  result : Nat
  mode : Nat
  fails : Nat
  sinceTry : Nat
  duration : Word
  detail : Word
  deriving DecidableEq, Repr

/-- A boot-ledger copy (R524). -/
structure BootCopy where
  count : Word
  lastStep : Nat
  outcome : Nat
  activeSlot : Nat
  stamp : Nat
  steps : Map BootStep
  valid : Bool
  deriving DecidableEq, Repr

/-- A settings copy (R532). -/
structure SettingsCopy where
  generation : Word
  entries : Map Dword
  valid : Bool
  deriving DecidableEq, Repr

/-- A firmware or microcode slot (R528, R535): version, security version, raise-floor flag, save formats. -/
structure ImageSlot where
  version : Word
  svn : Nat
  raiseFloor : Bool
  formats : Dword
  valid : Bool
  /-- SHA-384 of its body is right; false after a torn write -/
  intact : Bool
  /-- its header and signatures, bytes 0x000-0xE2C; empty for an image that production test installed -/
  header : List Byte
  deriving DecidableEq, Repr

/-- A full key slot (R526). -/
structure KeySlot where
  ed : List Byte
  ml : List Byte
  serial : Word
  deriving DecidableEq, Repr

/-- MRAM and fuses (R524 to R533). -/
structure Mram where
  bootA : BootCopy
  bootB : BootCopy
  settingsA : SettingsCopy
  settingsB : SettingsCopy
  /-- working copy in caravan-master memory: keys that differ from their default (R531, R533) -/
  working : Map Dword
  fwA : ImageSlot
  fwB : ImageSlot
  ucodeA : ImageSlot
  ucodeB : ImageSlot
  /-- 0 A, 1 B: active firmware slot in force, active microcode slot -/
  activeSlot : Nat
  ucodeSlot : Nat
  keys : Map KeySlot
  /-- fuse words (R298); security-version floors of firmware and microcode (R529) -/
  fuses : Map Dword
  floorFw : Nat
  floorUcode : Nat
  /-- calibration records (R298, R301) -/
  calibration : List (List Byte)
  deriving DecidableEq, Repr

/-- Boot in progress (R520 to R522). -/
structure Boot where
  /-- HRW_STATE BOOT_STEP: 0 not started, 1-24 in progress, 0xFF complete -/
  step : Nat
  deriving DecidableEq, Repr

/-- A sample record waiting to be written (R549). -/
structure SampleRec where
  sample : Nat
  block : Nat
  inst : Nat
  fenced : Bool
  stamp : Dword
  waybill : Option (Dword × Word)
  values : List Dword
  deriving DecidableEq, Repr

/-- A sample ring (R546 to R553). -/
structure SampleRing where
  enabled : Bool
  faulted : Bool
  sizeLog : Nat
  vector : Nat
  asid : Nat
  va : Dword
  interval : Nat
  domain : Nat
  events : List Nat
  units : List Nat
  /-- snapshot number, write index, records latched and not written -/
  sample : Nat
  widx : Word
  latched : List SampleRec
  dropped : Word
  dropOwed : Bool
  deriving DecidableEq, Repr

/-- Clock counts (R33, R258, R504, R542). -/
structure Clk where
  /-- [55:0] count since power-up per domain identifier -/
  counts : Map Nat
  /-- fraction of a cycle owed, in 1/38,400 cycle, per domain (model's own) -/
  phase : Map Nat
  /-- frequency in kHz per domain since it was last started; unlisted: never started (R302) -/
  khz : Map Nat
  /-- number of free values drawn so far (model's own) -/
  fresh : Nat
  deriving DecidableEq, Repr

/-- TAP controller states of IEEE 1149.1 (R530, R561). -/
inductive Tap where
  | testLogicReset | runTestIdle
  | selectDr | captureDr | shiftDr | exit1Dr | pauseDr | exit2Dr | updateDr
  | selectIr | captureIr | shiftIr | exit1Ir | pauseIr | exit2Ir | updateIr
  deriving DecidableEq, Repr

/-- The signals of BG_MISC and HPD (R561, R562). -/
structure Pins where
  resetN : Bool
  pwrGood : Bool
  pwrFailN : Bool
  /-- ERR_N and THERMTRIP_N asserted (low) -/
  errN : Bool
  thermTrip : Bool
  hpd : BitVec 4
  tap : Tap
  /-- TDO: released (none) or driven -/
  tdo : Option Bool
  /-- bits shifted into the selected TAP register, newest first -/
  tapShift : List Bool
  deriving DecidableEq, Repr
/-- Translation, objects and the allocator (chapter 06). -/
structure Mmu where
  /-- address spaces by ASID (R183); none -/
  asids : Map Asid
  /-- memory objects by handle (R201); none -/
  objs : Map Obj
  /-- backings by key (R201, R571); none -/
  backings : Map Backing
  nextBacking : Nat
  /-- next handle of the rotation (R201) -/
  nextHandle : Nat
  /-- heaps by slot (R208); none -/
  heaps : Map Heap
  /-- fault records outstanding or waiting, by FAULT_ID (R193 to R199); none -/
  faults : Map FaultRec
  nextFault : Nat
  /-- fault rings by number (R196); none -/
  rings : Map FaultRing
  /-- L1 translation buffers by translation agent (R189), most recent first; none -/
  utlbs : Map (List TlbEnt)
  /-- shared TLB banks (R189), most recent first; none -/
  stlb : Map (List TlbEnt)
  /-- walk cache (R189), most recent first; none -/
  walk : List WalkEnt
  /-- page-table region fixed at boot step 18: base and bytes, and the accounting region above it (R571); 0 -/
  ptBase : Nat
  ptBytes : Nat
  acctBase : Nat
  /-- table pages in use, by local physical address (R185); none -/
  tables : List Nat
  /-- every reservation of local memory outside those regions: first address and bytes (R571); none -/
  reserved : List (Nat × Nat)
  deriving DecidableEq, Repr

/-- Local memory: L2 and DRAM (chapters 05 and 07). -/
structure Mem where
  /-- bytes of local physical memory, DRAM and strongroom window, that are not 0; addresses rise (R8, R158, R166) -/
  cells : List Host.Cell
  /-- poisoned 32-byte sectors, by address / 32, rising (R225) -/
  poison : List Nat
  /-- L2 slices S0-S15 (R163 to R170) -/
  slices : Map Slice
  /-- L2 lines by (slice * 2048 + set) * 16 + way (R158) -/
  lines : Map L2Line
  /-- STRONGROOM_WAYS in force, and the target of a conversion in progress (R166, R168); 0 -/
  srWays : Nat
  srTarget : Option Nat
  /-- DRAM configuration trained at boot: 0 LPDDR6 or 1 LPDDR5X, GiB per channel, SPILL 0 or 1 (R215, R228); 0 GiB
  until boot has trained the memory -/
  mode : Nat
  density : Nat
  spill : Nat
  /-- channels by number 0-15 (R237) -/
  channels : Map Channel
  /-- memory controllers whose scrubber lap has a duration (R234) -/
  laps : Map Nat
  /-- counts of each scrubber's own clock at the start of its lap: controllers 0-3, slices 16-31; and controllers whose
  lap warning has been written in this lap (R234) -/
  lapStart : Map Nat
  lapWarned : List Nat
  /-- correctable-error log, oldest first (R232); none -/
  eccLog : List EccEnt
  logOverwritten : Word
  /-- partial writes waiting in the controllers' queues (R229); none -/
  partials : List Partial
  /-- sampler taps per read lane (R236), DQS oscillator readings and impedance codes; 0 -/
  taps : Map Int
  dqs : Map Nat
  impedance : Map Nat
  deriving DecidableEq, Repr

/-- The machine. -/
structure State where
  /-- clock counts (R33, R504) -/
  clk : Clk
  /-- board signals (R561, R562) -/
  pins : Pins
  /-- engines CE0-CE31; an unlisted engine is `Eng.reset` (R69) -/
  engines : Map Eng
  /-- queues by index (R304); none -/
  queues : Map Queue
  /-- duplicates discarded per fetcher: 0-31 outriders, 32-35 X0-X3, 36-37 Z0-Z1 (R319, R336); 0 -/
  dups : Map Word
  /-- events by index (R322); none -/
  events : Map Event
  /-- CMP_JOBS: jobs retired per compression engine (R456); 0 -/
  cmpJobs : Map Word
  /-- jobs by unit, 0-3 X0-X3, 4-5 Z0-Z1 (R318, R444); none -/
  jobs : Map Job
  /-- queue each copy or compression engine took a command from last (R308); none -/
  turns : Map Nat
  /-- render passes by key (R375); none -/
  passes : Map Pass
  nextPass : Nat
  /-- partitions by number (R337); none -/
  parts : Map Partition
  /-- SCH registers by partition (R373) -/
  sch : Map SchRegs
  /-- convoys by number (R341); none -/
  convoys : Map Convoy
  /-- accounting records by context (R360) -/
  accounts : Map Account
  mmu : Mmu
  mem : Mem
  host : HostSide
  fw : Fw
  /-- display pipes A-D as 0-3 (chapter 13) -/
  pipes : Map Pipe
  layers : Map PipeLayers
  syncs : Map Sync
  caravan : Caravan
  flt : Flt
  logbook : Logbook
  power : Power
  thermal : Thermal
  mram : Mram
  boot : Boot
  /-- sample rings by number (R546); none -/
  sampleRings : Map SampleRing
  /-- event counters by (block * 256 + instance) * 2048 + event (R542, R543); 0 -/
  counters : Map Nat
  /-- commands waiting, first in first out (the block's queue); none -/
  pending : List Sys2Proof.Instr
  deriving DecidableEq, Repr

/-- Why a command stops the machine. Raised only for a command whose operands are not of the form its row takes. -/
inductive Fault where
  /-- an operand list has the wrong length or a value is outside its field; raised by every meaning that takes a list
  (safe: no hardware does this, the command could not have been sent) -/
  | illFormed
  deriving DecidableEq, Repr

/-- Why the model gives a command no meaning. -/
inductive Refusal where
  /-- raised by an arm of `exec` whose command has no meaning yet (safe) -/
  | notModelled (mnemonic : String)
  deriving DecidableEq, Repr

/-! ### The state right after reset

Every unit that stands in a table at its reset value has that value here; `State.reset` lists none of them. -/

/-- An engine after reset (R69, R141, R155, R345). -/
def Eng.reset : Eng :=
  { stamp := 0, strs := [], wgs := [], nextWg := 0, disps := [], tensors := [], nextTensor := 0, tile := [],
    tileFree := [], tb := 16, gfxHolds := [], atGang := none, gangParked := false, waitGfx := none, waitTns := none, l1 := [], plru := [],
    arrive := none, tileHold := false, stopped := false, loadedC := 0, loadedF := 0, charge := none, ucode := 0,
    promotions := 0 }

/-- An L2 slice after reset (R161, R165). -/
def Slice.reset : Slice :=
  { off := 0, leaving := 0, converting := false, fenced := false, lost := 0, wayCe := [], weak := [], corrected := 0,
    correctedSr := 0, scrubPos := 0, lap := 0 }

/-- A DRAM channel after reset (R239). -/
def Channel.reset : Channel :=
  { rate := 0, failed := false, excluded := false, migrating := false, back := false, pointer := 0, training := false,
    safe := false, corrected := 0, lapCe := 0, retrainWanted := false, scrubPos := 0 }

/-- A caravan port after reset (R477). -/
def Port.reset : Port :=
  { link := 0, width := 0, rate64 := false, fenced := false, peer := none, replays := 0, fecCorrected := 0,
    discards := 0, txSeq := 0, replay := [], rxSeq := 0, rxPartial := [], replaysInRow := 0, downs := [], idle := false }


/-- A cookie-free boot ledger copy (R524): a die that has never booted. -/
def BootCopy.reset : BootCopy :=
  { count := 0, lastStep := 0, outcome := 0, activeSlot := 0, stamp := 0, steps := [], valid := false }

/-- A settings copy that was never written (R532). -/
def SettingsCopy.reset : SettingsCopy := { generation := 0, entries := [], valid := false }

/-- An empty image slot (R535). -/
def ImageSlot.reset : ImageSlot :=
  { version := 0, svn := 0, raiseFloor := false, formats := 0, valid := false, intact := false, header := [] }

/-- An image slot as the maker fills it: save format 1 (R358; log entry 20). -/
def ImageSlot.factory : ImageSlot := { ImageSlot.reset with valid := true, intact := true, formats := 2 }

/-- A key slot as the maker fills it (R526; log entry 20). -/
def KeySlot.factory (slot : Nat) : KeySlot :=
  { ed := Config.factoryEd slot, ml := Config.factoryMl slot, serial := 0 }

/-- MRAM as it leaves production test (R526, R531; log entry 20): no boot yet, defaults, firmware and microcode in slot
A, keys in the Maker, image-signing and first Installer slots. -/
def Mram.reset : Mram :=
  { bootA := BootCopy.reset, bootB := BootCopy.reset, settingsA := SettingsCopy.reset, settingsB := SettingsCopy.reset
    working := [], fwA := ImageSlot.factory, fwB := ImageSlot.reset, ucodeA := ImageSlot.factory
    ucodeB := ImageSlot.reset, activeSlot := 0, ucodeSlot := 0
    keys := [(0, KeySlot.factory 0), (1, KeySlot.factory 1), (2, KeySlot.factory 2), (3, KeySlot.factory 3),
             (4, KeySlot.factory 4)]
    fuses := [], floorFw := 0, floorUcode := 0, calibration := [] }

/-- The host window right after reset (R258 to R276, R244). -/
def HostSide.reset : HostSide :=
  { heartbeat := 0, writeLost := 0, lastLost := 0, apertureMiss := 0, doorbellDrop := 0, scratch := [], staged := []
    shadows := [], pairs := [], rings := [], msix := [], functionMask := false, pendingBits := [], capGeneration := 0
    bar4Log := 28, d3hot := false, waitOut := [], heldWrites := [], out := [], np := [], modules := 0, lanes := 0
    rate := 0, ucieRev := 0, retry := false, recovery := false, linkUp := false }

/-- The firmware's state right after reset (R259, R285). -/
def Fw.reset : Fw :=
  { mbxReady := false, masterAlive := false, updating := false, sessions := [], nextSession := 1, authFails := []
    authLocked := false, longOps := [], restarts := [], restarting := false, debugOpen := false }

/-- Caravan state right after reset (R477): die 0 of a caravan of one until boot reads DIE_NUMBER. -/
def Caravan.reset : Caravan :=
  { die := 0, size := 1, topo := [], routes := [], ports := [], reqs := [], onAlt := [], peersFw := [] }

/-- The fault collector right after reset (R482, R495, R502). -/
def Flt.reset : Flt :=
  { records := [], next := 0, fences := [], exits := [], recoveries := [], fatal := false
    pulse := false, swLevel := false, held := false, watch := [], progress := [] }

/-- The logbook right after reset of a die that has written no record (R497). -/
def Logbook.reset : Logbook :=
  { records := [], next := 0, queue := [], heldFatal := [], dropped := 0, lost := 0, warnAt := none }

/-- The power manager right after reset (R539). -/
def Power.reset : Power :=
  { st := .run, drain := false, point := 2, raising := none, samples := [], under := 0, overs := 0, idle := 0
    stepsDown := 0, halts := 0, haltCancels := 0, lastWake := 0, wakeSrc := 0
    wakePending := none, since := 0, capThermal := false, capPeak := false, capSustained := false, capPmic := false
    pipesStopped := [], calibration := 0 }

/-- Temperatures right after reset (R568). -/
def Thermal.reset : Thermal :=
  { temps := [], tmax := 0, sensor := 0, zone := 0, hot := 0, cool := 0, tripRun := 0, tripped := false }

/-- Translation, objects and the allocator right after reset (R190, R201). -/
def Mmu.reset : Mmu :=
  { asids := [], objs := [], backings := [], nextBacking := 0, nextHandle := 0, heaps := []
    faults := [], nextFault := 0, rings := [], utlbs := [], stlb := [], walk := [], ptBase := 0, ptBytes := 0
    acctBase := 0, tables := [], reserved := [] }

/-- Local memory right after reset (R161, R165, R239): no channel trained. -/
def Mem.reset : Mem :=
  { cells := [], poison := [], slices := [], lines := [], srWays := 0, srTarget := none, mode := 0, density := 0
    spill := 0, channels := [], laps := [], lapStart := [], lapWarned := [], eccLog := [], logOverwritten := 0, partials := [], taps := [], dqs := []
    impedance := [] }

/-- Clock counts at power-up (R258, R542). -/
def Clk.reset : Clk := { counts := [], phase := [], khz := [(0x01, 38400)], fresh := 0 }

/-- The board signals right after reset: RESET_N and PWR_GOOD high, boot not yet started (R519, R561). -/
def Pins.reset : Pins :=
  { resetN := true, pwrGood := true, pwrFailN := true, errN := false, thermTrip := false, hpd := 0
    tap := .testLogicReset, tdo := none, tapShift := [] }

/-- The machine right after reset. -/
def State.reset : State :=
  { clk := Clk.reset, pins := Pins.reset, engines := [], queues := [], dups := [], events := [], jobs := [], cmpJobs := [], turns := [], passes := []
    nextPass := 0, parts := [], sch := [], convoys := [], accounts := [], mmu := Mmu.reset, mem := Mem.reset
    host := HostSide.reset, fw := Fw.reset, pipes := [], layers := [], syncs := [], caravan := Caravan.reset
    flt := Flt.reset, logbook := Logbook.reset, power := Power.reset, thermal := Thermal.reset, mram := Mram.reset
    boot := { step := 0 }, sampleRings := [], counters := [], pending := [] }

end Sys2Proof.Machine
end

