-- ==== Sys2Proof/Machine/Ops.lean ====
section
/-! DEFINITION. The named operations that every family shares: free values, clock counts and stamps, event counters,
messages toward the host, MSI-X and cookies (R270 to R279), HRW_STATE (R259), the logbook queue (R497), the fault
collector (R479 to R496), lost writes (R269). -/

namespace Sys2Proof.Machine

/-- What a meaning answers. -/
abbrev Out := Host.Outcome State Fault Refusal

/-! ### Free values -/

/-- The next free value and the state that has drawn it (log entry 2). -/
def State.draw (s : State) : Nat × State :=
  (Config.freeNat s.clk.fresh, { s with clk := { s.clk with fresh := s.clk.fresh + 1 } })

/-- The i-th free value after the present one. -/
def State.peek (s : State) (i : Nat) : Nat := Config.freeNat (s.clk.fresh + i)

/-- Take n free values. -/
def State.drew (s : State) (n : Nat) : State := { s with clk := { s.clk with fresh := s.clk.fresh + n } }

/-! ### Clocks (R504) -/

def domA : Nat := 0x01
def domM : Nat := 0x02
def domF : Nat := 0x03
def domC : Nat := 0x04

/-- Count of a domain, bits [55:0]. -/
def State.count (s : State) (d : Nat) : Nat := mgetD s.clk.counts d 0 % 2 ^ 56

/-- Count with its domain identifier in [63:56] (R8, R33). -/
def State.stamp (s : State) (d : Nat) : Nat := d * 2 ^ 56 + s.count d

/-- ACLK and FCLK counts. -/
def State.aclk (s : State) : Nat := s.count domA
def State.fclk (s : State) : Nat := s.count domF

/-! ### Event counters (R542 to R545) -/

def blkHRW : Nat := 0x00
def blkQF : Nat := 0x03
def blkCE : Nat := 0x06
def blkTNS : Nat := 0x07
def blkL2C : Nat := 0x0A
def blkMMU : Nat := 0x0B
def blkDRC : Nat := 0x0D
def blkCVL : Nat := 0x0E
def blkCMP : Nat := 0x10

/-- Key of event e of an instance of a block. -/
def ctrKey (block inst e : Nat) : Nat := (block * 256 + inst) * 2048 + e

/-- Value of a counter, bits [55:0]. -/
def State.ctr (s : State) (block inst e : Nat) : Nat := mgetD s.counters (ctrKey block inst e) 0

/-- Add to a counter, modulo 2^56. -/
def State.bump (s : State) (block inst e n : Nat) : State :=
  if n = 0 then s
  else { s with counters := mset s.counters (ctrKey block inst e) ((s.ctr block inst e + n) % 2 ^ 56) }

/-- Raise a progress counter (R331): 0-31 engines, 32-35 X0-X3, 36-37 Z0-Z1, 40-47 binning fronts. -/
def State.progress (s : State) (unit n : Nat) : State :=
  { s with flt := { s.flt with progress := mset s.flt.progress unit ((mgetD s.flt.progress unit 0 + n) % 2 ^ 56) } }

/-! ### Fault codes (R481) -/

/-- Class of a fault code (R481): 0 corrected, 1 uncorrected-contained, 2 fatal, 3 error. -/
def faultClass (code : Nat) : Nat :=
  if [0x0101, 0x0201, 0x0204, 0x0301, 0x0302, 0x0401, 0x0402, 0x0501, 0x0502, 0x0601].contains code then 0
  else if [0x0104, 0x0106, 0x0107, 0x0203, 0x0406, 0x0407, 0x0408, 0x0603].contains code then 2
  else if 0x1000 ≤ code then 3 else 1

/-- Default ACTION of a fault code (R481); fatal codes act as ERRN, LOG and NOTIFY (R485). -/
def faultAction (code : Nat) : Nat :=
  if faultClass code = 2 then 0x0E
  else if [0x0101, 0x0201, 0x0301, 0x0401, 0x0501, 0x0601].contains code then 0x00
  else if [0x0204, 0x0302, 0x0402, 0x0405, 0x0502].contains code then 0x0C
  else if [0x0205, 0x1001, 0x1002, 0x1004, 0x1005, 0x1006].contains code then 0x0F
  else 0x0E

/-- The fault codes of R481. -/
def faultCodes : List Nat :=
  [0x0101, 0x0102, 0x0103, 0x0104, 0x0105, 0x0106, 0x0107, 0x0201, 0x0202, 0x0203, 0x0204, 0x0205, 0x0301, 0x0302,
   0x0303, 0x0304, 0x0305, 0x0401, 0x0402, 0x0403, 0x0404, 0x0405, 0x0406, 0x0407, 0x0408, 0x0501, 0x0502, 0x0503,
   0x0504, 0x0505, 0x0506, 0x0601, 0x0602, 0x0603, 0x1001, 0x1002, 0x1003, 0x1004, 0x1005, 0x1006, 0x1007]

/-! ### Settings (R533) -/

/-- Range of a setting and its default; none for an unknown key. Keys owned by commands have their own checks. -/
def settingRange (key : Nat) : Option (Nat × Nat × Nat) :=
  match key with
  | 0x01 => some (0, 7, 0) | 0x02 => some (0, 1, 0) | 0x03 => some (12, 20, 15) | 0x04 => some (16, 24, 20)
  | 0x20 => some (4, 32, 32) | 0x21 => some (1, 4, 4)
  | 0x30 => some (14, 28, 22) | 0x31 => some (15, 23, 19) | 0x32 => some (39, 38400, 384)
  | 0x41 => some (0, 255, 8) | 0x42 => some (1, 65535, 256) | 0x43 => some (40, 55, 47) | 0x44 => some (1, 7, 4)
  | _ => if 0x10 ≤ key && key ≤ 0x17 then some (0, 2 ^ 64 - 1, 0) else none

/-- Default of a setting that a command owns (R481, R485, R533). -/
def ownedDefault (key : Nat) : Option Nat :=
  if 0x18 ≤ key && key ≤ 0x1F then some 0
  else if key = 0x40 || key = 0x45 then some 0
  else if key = 0x46 then some 256
  else if key = 0x50 then some (230 + 280 * 65536)
  else if faultCodes.contains (key % 65536) && key / 65536 = 1 then some (faultAction (key % 65536) + 38400000 * 2 ^ 32)
  else if faultCodes.contains (key % 65536) && key / 65536 = 2 then some 3840000000
  else none

/-- Value of a setting in the working copy, or its default. -/
def State.setting (s : State) (key : Nat) : Nat :=
  match mget s.mram.working key with
  | some v => v.toNat
  | none => match settingRange key with
    | some (_, _, d) => d
    | none => (ownedDefault key).getD 0

/-- Write the working copy. -/
def State.setSetting (s : State) (key v : Nat) : State :=
  { s with mram := { s.mram with working := mset s.mram.working key (BitVec.ofNat 64 v) } }

/-! ### Device state (R259, R490, R510) -/

/-- The device is powered, out of reset and has not tripped. -/
def State.up (s : State) : Bool :=
  s.power.st ≠ .off && s.pins.resetN && s.pins.pwrGood && !s.thermal.tripped

/-- The always-on domain, with the logbook writer, runs, after a trip too (R567). -/
def State.aon (s : State) : Bool := s.power.st ≠ .off && s.pins.resetN && s.pins.pwrGood

/-- It is up and no fatal fault has been recorded. -/
def State.live (s : State) : Bool := s.up && !s.flt.fatal

/-- It is live and its compute side runs (not between the commit of Halt entry and the end of wake, R510). -/
def State.working (s : State) : Bool := s.live && (s.power.st = .run || s.power.st = .rest)

/-- Halt entry, Halt or wake: nothing leaves on the host link (R253). -/
def State.halted (s : State) : Bool :=
  s.power.st = .haltEntry || s.power.st = .halt || s.power.st = .waking

/-- HRW_STATE (R259). -/
def State.hrwState (s : State) : Nat :=
  s.boot.step * 2 ^ 24
  + (match s.power.st with | .off => 0 | .run => 0 | .rest => 1 | .haltEntry => 2 | .halt => 2 | .waking => 3) * 2 ^ 16
  + b2n s.flt.fatal * 16 + b2n (!s.flt.fences.isEmpty) * 8 + b2n s.fw.updating * 4 + b2n s.fw.mbxReady * 2
  + b2n s.fw.masterAlive

/-! ### Toward the host -/

/-- A message leaves on the host link, or waits in D3hot and in Halt in the order it arose (R253, R255). -/
def State.send (s : State) (m : OutMsg) : State :=
  if s.host.d3hot || s.halted then { s with host := { s.host with waitOut := s.host.waitOut ++ [m] } }
  else { s with host := { s.host with out := m :: s.host.out } }

/-- What leaves on another interface than the host link. -/
def State.emit (s : State) (m : OutMsg) : State := { s with host := { s.host with out := m :: s.host.out } }

/-- A posted write to host memory; none once a fatal fault has been recorded (R490). -/
def State.hostWrite (s : State) (addr : Nat) (l : List Byte) : State :=
  if s.flt.fatal then s else s.send (.write addr l)

/-- MSI-X entry of a vector; masked until it is written (R244). -/
def MsixEnt.reset : MsixEnt := { addr := 0, data := 0, masked := true }
def State.msix (s : State) (v : Nat) : MsixEnt := mgetD s.host.msix v MsixEnt.reset

/-- The message of a vector, or its pending bit (R271). -/
def State.sendMsix (s : State) (v : Nat) : State :=
  let e := s.msix v
  if e.masked || s.host.functionMask then
    { s with host := { s.host with pendingBits := setAdd s.host.pendingBits v } }
  else s.send (.msix v e.addr e.data)

/-- A cookie ring at reset (R272). -/
def CookieRing.reset : CookieRing :=
  { base := 0, size := 0, enabled := false, crcRef := 0, head := 0, tail := 0, ignoredWrite := false,
    crcMismatch := false, fenced := false, dropped := 0, owed := false }

def State.ring (s : State) (r : Nat) : CookieRing := mgetD s.host.rings r CookieRing.reset
def State.setRing (s : State) (r : Nat) (c : CookieRing) : State :=
  { s with host := { s.host with rings := mset s.host.rings r c } }

/-- Cookies a ring holds (R272). -/
def CookieRing.slots (c : CookieRing) : Nat := 2 ^ (c.size.toNat + 8)

/-- FULL of R272. -/
def CookieRing.full (c : CookieRing) : Bool := (c.tail - c.head).toNat = c.slots

/-- The 16 bytes of a cookie (R277). -/
def cookieBytes (vector kind flags source value : Nat) (phase : Bool) : List Byte :=
  leBytes 2 (vector + b2n phase * 0x8000) ++ leBytes 1 kind ++ leBytes 1 flags ++ leBytes 4 source ++ leBytes 8 value

/-- The cookie of an interrupt (R273, R275, R279): written, counted as dropped, or neither when the ring is disabled. -/
def State.cookie (s : State) (v kind flags source value : Nat) : State :=
  let r := v / 128
  let c := s.ring r
  if c.fenced || (c.enabled && c.full) then s.setRing r { c with dropped := satInc c.dropped, owed := true }
  else if !c.enabled then s
  else
    let i := c.tail.toNat
    let b := cookieBytes v kind (flags + (if c.owed then 2 else 0)) source value (i / c.slots % 2 = 0)
    (s.setRing r { c with tail := c.tail + 1, owed := false }).send (.write (c.base.toNat + 16 * (i % c.slots)) b)

/-- An interrupt (R274): release, cookie, message. Vector 0 outside the mailbox range means none: callers test it. -/
def State.interrupt (s : State) (v kind flags source value : Nat) : State :=
  (s.cookie v kind flags source value).sendMsix v

/-- An interrupt of a bound vector; 0 is none (R270). After a fatal fault none is sent (R490). -/
def State.interruptOpt (s : State) (v kind flags source value : Nat) : State :=
  if v = 0 || s.flt.fatal then s else s.interrupt v kind flags source value

/-- Apply a change and send the DEVICE_STATE cookie when HRW_STATE changes (R259). -/
def State.noting (s : State) (f : State → State) : State :=
  let t := f s
  if t.hrwState = s.hrwState then t else t.interrupt 9 0x6 0 t.hrwState 0

/-- A lost write (R269). `bar2` marks a BAR2 offset, which does not set HRW_LAST_LOST. -/
def State.lostWrite (s : State) (bar2 : Bool) (off : Nat) (data : List Byte) : State :=
  let h := { s.host with
    writeLost := satInc s.host.writeLost
    lastLost := if bar2 then s.host.lastLost else BitVec.ofNat 32 (off % 2 ^ 24) }
  let s := { s with host := h }
  if s.flt.fatal then s
  else s.interrupt 9 0x5 0 (off % 2 ^ 24 + (if bar2 then 2 ^ 31 else 0)) (getLe data 0 8)

/-! ### Logbook queue (R497, R498) -/

/-- A record with nothing but its type. -/
def LogRec.blank (type writer : Nat) : LogRec :=
  { type := type, writer := writer, status := 0, stamp := 0, boot := 0, session := 0, role := 0, opcode := 0, tag := 0,
    error := 0, arg0 := 0, arg1 := 0, arg2 := 0, kept := false }

/-- Boot count of the ledger copy in force (R524). -/
def State.bootCount (s : State) : Word :=
  let a := s.mram.bootA
  let b := s.mram.bootB
  if a.valid && (!b.valid || b.count.toNat ≤ a.count.toNat) then a.count else if b.valid then b.count else 0

/-- A submission to the writer's queue (R497): 15 entries for every record, one kept for a fatal or trip record. -/
def State.submit (s : State) (r : LogRec) (urgent : Bool) : State :=
  let r := { r with stamp := s.aclk, boot := s.bootCount }
  let lb := s.logbook
  let kept := lb.queue.filter (fun q => q.kept) |>.length
  let common := lb.queue.length - kept
  if urgent then
    if lb.queue.length < 16 then { s with logbook := { lb with queue := lb.queue ++ [{ r with kept := kept = 0 }] } }
    else if lb.heldFatal.length < 4 then { s with logbook := { lb with heldFatal := lb.heldFatal ++ [r] } }
    else { s with logbook := { lb with dropped := satInc lb.dropped, lost := lb.lost + 1 } }
  else if common < 15 then { s with logbook := { lb with queue := lb.queue ++ [{ r with kept := false }] } }
  else { s with logbook := { lb with dropped := satInc lb.dropped, lost := lb.lost + 1 } }

/-- A logbook record with its three arguments; the collector writes it while the caravan master is not alive. -/
def State.log (s : State) (type arg0 arg1 arg2 : Nat) : State :=
  s.submit { LogRec.blank type (if s.fw.masterAlive then 0 else 1) with
    arg0 := BitVec.ofNat 64 arg0, arg1 := BitVec.ofNat 64 arg1, arg2 := BitVec.ofNat 64 arg2 } false

/-! ### The fault collector (chapter 16) -/

/-- Policy in force (R485): ACTION, QUIET, WINDOW, from the working copy of the settings (R533). -/
def State.policy (s : State) (code : Nat) : Policy :=
  let a := s.setting (0x00010000 + code)
  { action := bits a 7 0, quiet := bits a 63 32, window := s.setting (0x00020000 + code) }

/-- Key of a unit by KIND and INDEX (R299). -/
def unitKey (kind index : Nat) : Nat := kind * 256 + index

/-- Kinds that the collector can fence (R487). -/
def fenceable (kind : Nat) : Bool := kind ≤ 7 || kind = 9

def State.fence? (s : State) (kind index : Nat) : Option Fence := mget s.flt.fences (unitKey kind index)
def State.fenced (s : State) (kind index : Nat) : Bool := mhas s.flt.fences (unitKey kind index)

/-- The capability and topology table changes: GENERATION becomes the next even value (R303). -/
def State.capChanged (s : State) : State := { s with host := { s.host with capGeneration := s.host.capGeneration + 2 } }

/-- Level of ERR_N (R495, R496). -/
def State.refreshErrN (s : State) : State :=
  { s with pins := { s.pins with errN := s.flt.held || s.flt.pulse || s.flt.swLevel } }

/-- Start or restart an ERR_N pulse (R495). -/
def State.startPulse (s : State) : State := { s with flt := { s.flt with pulse := true } }.refreshErrN

/-- Every unit stops with its state discarded, every fetcher stops accepting (R490). -/
def State.goFatal (s : State) : State :=
  s.noting (fun s => { s with
    flt := { s.flt with fatal := true, held := true }, engines := [], jobs := [], passes := [] }.refreshErrN)

/-- Domain of the clock that a unit of a kind detects by (R483, R504). -/
def State.detectDomain (s : State) (kind index : Nat) : Nat :=
  if kind = 0 then domC
  else if kind = 4 then 0x40 + index
  else if kind = 5 then 0x20 + index
  else if kind = 8 then 0x10 + index / (if s.mem.mode = 0 then 4 else 6)
  else if kind = 10 then 0x30 + index
  else if kind = 11 then domM
  else if kind = 12 then 0x10 + index
  else if kind = 0xFF then domA
  else domF

/-- A new record of the collector, with its ACTION's logbook record and cookie (R482, R483, R485). -/
def State.addRecord (s : State) (r : FltRecord) (log notify urgent : Bool) : State :=
  let n := s.flt.next.toNat
  let recs := (mset s.flt.records n r).filter (fun p => (n + 2 ^ 32 - p.1) % 2 ^ 32 < 1024)
  let s := { s with flt := { s.flt with records := recs, next := s.flt.next + 1 } }
  let s := if log then s.submit { LogRec.blank 0x01 (if s.fw.masterAlive then 0 else 1) with
      arg0 := BitVec.ofNat 64 (n + r.code * 2 ^ 32 + r.cls * 2 ^ 48 + r.flags * 2 ^ 56)
      arg1 := BitVec.ofNat 64 (r.unitKind % 256 + r.index % 256 * 256 + r.count * 65536)
      arg2 := r.addr } urgent
    else s
  if notify then s.interrupt 8 0x4 0 r.code n else s

/-- Exits of a unit within WINDOW before now (R493). -/
def State.recentExits (s : State) (kind index window : Nat) : Nat :=
  ((mgetD s.flt.exits (unitKey kind index) []).filter (fun t => s.aclk ≤ t + window)).length

/-- Record a fault (R480 to R486, R488, R493). A new fence is entered with `applied = false`; `applyFences` gives it its
effect on the unit in the same command. `third` fences a port on its third F_CVL_DOWN (R476). -/
def State.recordFaultBy (s : State) (f : FaultIn) (third : Bool) : State :=
  if !s.up then s else
  let cls := if faultClass f.code = 3 && !fenceable f.kind then 2 else faultClass f.code
  let same := s.flt.records.find? (fun p => p.2.code = f.code && p.2.unitKind = f.kind && p.2.index = f.index
    && p.2.cls = 0 && s.aclk < p.2.stamp + 65536)
  match cls, same with
  | 0, some (n, r) =>
    { s with flt := { s.flt with records := mset s.flt.records n { r with count := min (r.count + 1) (2 ^ 32 - 1) } } }
  | _, _ =>
    let pol := s.policy f.code
    let act := if cls = 2 then 0x0E else pol.action
    let old := s.fence? f.kind f.index
    let fences := (third || (bit act 0 && f.code ≠ 0x0503)) && fenceable f.kind && cls ≠ 2 && !s.flt.fatal && old.isNone
    let perm := fences && 8 ≤ s.recentExits f.kind f.index pol.window
    let errn := bit act 1
    let r : FltRecord :=
      { code := f.code, cls := cls, flags := b2n fences + 2 * b2n perm + 4 * b2n errn, unitKind := f.kind
        index := f.index, recoveries := mgetD s.flt.recoveries (unitKey f.kind f.index) 0, count := 1
        addr := f.addr, info := f.info, waybill := f.waybill, seq := f.seq, stamp := s.aclk
        detect := BitVec.ofNat 64 (s.stamp (s.detectDomain f.kind f.index)) }
    let s := if fences then
        let fe : Fence :=
          { software := false, code := f.code, cls := cls, permanent := perm, since := s.aclk, applied := false }
        (s.noting (fun s => { s with flt := { s.flt with
          fences := mset s.flt.fences (unitKey f.kind f.index) fe } })).capChanged
      else match old with
        | some o => { s with flt := { s.flt with
            fences := mset s.flt.fences (unitKey f.kind f.index) { o with since := s.aclk } } }
        | none => s
    let s := if errn then s.startPulse else s
    let s := s.addRecord r (bit act 2) (bit act 3) (cls = 2)
    if cls = 2 then s.goFatal else s

/-- Record a fault whose code's ACTION decides on fencing. -/
def State.recordFault (s : State) (f : FaultIn) : State := s.recordFaultBy f false

/-- A fault with no waybill. -/
def State.report (s : State) (code kind index addr info : Nat) : State :=
  s.recordFault { code := code, kind := kind, index := index, addr := BitVec.ofNat 64 addr,
                  info := BitVec.ofNat 64 info, waybill := 0, seq := 0 }

/-! ### Units -/

def State.eng (s : State) (e : Nat) : Eng := mgetD s.engines e Eng.reset
def State.setEng (s : State) (e : Nat) (v : Eng) : State := { s with engines := mset s.engines e v }
def State.modEng (s : State) (e : Nat) (f : Eng → Eng) : State := s.setEng e (f (s.eng e))
def State.queue? (s : State) (q : Nat) : Option Queue := mget s.queues q
def State.setQueue (s : State) (q : Nat) (v : Queue) : State := { s with queues := mset s.queues q v }
def State.modQueue (s : State) (q : Nat) (f : Queue → Queue) : State := { s with queues := mmod s.queues q f }

/-! ### Microcode update in progress (R537)

The running UCODE_UPDATE keeps, in its data: the new version, the mask of engines that run it, whether the update is being
undone, and the error that its image was refused with. -/

def LongOp.newVersion (l : LongOp) : Nat := getLe l.data 0 4
def LongOp.updated (l : LongOp) : Nat := getLe l.data 4 4
def LongOp.undoing (l : LongOp) : Bool := getLe l.data 8 1 = 1
def LongOp.refused (l : LongOp) : Nat := getLe l.data 9 2
def ucodeData (version updated : Nat) (undoing : Bool) (refused : Nat) : List Byte :=
  leBytes 4 version ++ leBytes 4 updated ++ leBytes 1 (b2n undoing) ++ leBytes 2 refused

/-- The update, while it runs. -/
def State.ucodeOp (s : State) : Option LongOp := s.fw.longOps.find? (fun l => l.opcode = 0x0912)

/-- The engine that the update has its turn on now: it accepts no command and counts as out of service. -/
def State.ucodeTurn (s : State) : Option Nat :=
  s.ucodeOp.bind (fun l =>
    if l.undoing then ((List.range 32).reverse).find? (fun e => bit l.updated e && !s.fenced 0 e)
    else if l.refused ≠ 0 then none
    else (List.range 32).find? (fun e => !bit l.updated e && !s.fenced 0 e))

/-- Version of the active microcode (R302, R537). -/
def State.activeUcode (s : State) : Word := (if s.mram.ucodeSlot = 0 then s.mram.ucodeA else s.mram.ucodeB).version

/-- Apply a change to the state and answer it. -/
def State.ok (s : State) : Out := .next s

end Sys2Proof.Machine
end

