-- ==== Sys2Proof/Machine/L2.lean ====
section
/-! DEFINITION. Local memory at its point of coherence: the L2 slices (R158 to R170), the strongroom window, the DRAM
channels behind them (R218 to R230, R237), poison (R225), and reads and writes of local physical addresses. Bytes live
in `Mem.cells`; lines carry the state that decides fills, ages, evictions and counts. -/

namespace Sys2Proof.Machine

/-! ### DRAM geometry -/

/-- Channels of a mode (R215). -/
def Mem.nch (m : Mem) : Nat := if m.mode = 0 then 16 else 24

/-- Channels per controller (R218). -/
def Mem.perCtl (m : Mem) : Nat := if m.mode = 0 then 4 else 6

/-- D, the data area of a channel in bytes (R228). -/
def Mem.dataArea (m : Mem) : Nat := if m.mode = 0 then m.density * 2 ^ 30 else m.density * 2 ^ 30 / 8 * 7

/-- SPILL in bytes per channel (R228). -/
def Mem.spillBytes (m : Mem) : Nat :=
  if m.spill = 0 then 0 else roundUp ((m.dataArea + m.nch - 1) / m.nch) (2 ^ 21)

/-- Data capacity in bytes (R228). -/
def Mem.capacity (m : Mem) : Nat := m.nch * (m.dataArea - m.spillBytes)

/-- Granules of a channel below its spill area. -/
def Mem.granules (m : Mem) : Nat := (m.dataArea - m.spillBytes) / 256

def Mem.chan (m : Mem) (c : Nat) : Channel := mgetD m.channels c Channel.reset

/-- Channel and channel-local granule of a local physical address (R219). -/
def Mem.place (m : Mem) (pa : Nat) : Nat × Nat :=
  let g := pa / 256
  let n := m.nch
  let q := g / n
  let f := bits q 4 0 ^^^ bits q 9 5 ^^^ bits q 14 10 ^^^ bits q 19 15 ^^^ bits q 24 20 ^^^ bits q 29 25
  ((g % n + f) % n, q)

/-- The spill home of granule q of a channel: channel and spill-area granule (R237). -/
def Mem.spillHome (m : Mem) (ch q : Nat) : Nat × Nat :=
  let k := q % (m.nch - 1)
  (if k < ch then k else k + 1, q / (m.nch - 1))

/-- Channel that serves a local physical address now (R237). -/
def Mem.server (m : Mem) (pa : Nat) : Nat :=
  let (ch, q) := m.place pa
  let c := m.chan ch
  let moved := if c.migrating then (if c.back then c.pointer ≤ q else q < c.pointer) else c.excluded
  if moved then (m.spillHome ch q).1 else ch

/-! ### Slices -/

def Mem.slice (m : Mem) (i : Nat) : Slice := mgetD m.slices i Slice.reset
def Mem.setSlice (m : Mem) (i : Nat) (v : Slice) : Mem := { m with slices := mset m.slices i v }

/-- Slice of a physical address (R158). -/
def sliceOf (pa : Nat) : Nat :=
  bits pa 11 8 ^^^ bits pa 15 12 ^^^ bits pa 19 16 ^^^ bits pa 23 20
  ^^^ bits pa 27 24 ^^^ bits pa 31 28 ^^^ bits pa 35 32 ^^^ bits pa 39 36

/-- Set of a physical address (R158). -/
def setOf (pa : Nat) : Nat := bits pa 22 12 ^^^ bits pa 33 23

/-- The slice that serves a slice's lines: itself, or the lowest-numbered enabled slice above it, wrapping (R164). -/
def Mem.remap (m : Mem) (i : Nat) : Nat :=
  if (m.slice i).fenced then
    (((List.range 15).map (fun k => (i + 1 + k) % 16)).find? (fun j => !(m.slice j).fenced)).getD i
  else i

/-- Is way w a strongroom way (R166)? -/
def Mem.srWay (m : Mem) (w : Nat) : Bool := 16 - m.srWays ≤ w

/-- May way w of a slice take a fill (R161)? -/
def Mem.eligible (m : Mem) (sl w : Nat) : Bool :=
  !m.srWay w && !bit (m.slice sl).off.toNat w && !bit (m.slice sl).leaving.toNat w

/-- Key of a line. -/
def lineKey (sl set way : Nat) : Nat := (sl * 2048 + set) * 16 + way

/-- The eligible ways of a slice. -/
def Mem.ways (m : Mem) (sl : Nat) : List Nat := (List.range 16).filter (fun w => m.eligible sl w)

/-- The way that holds a line. -/
def Mem.findWay (m : Mem) (sl set line : Nat) (die : Option Nat) : Option Nat :=
  (List.range 16).find? (fun w => match mget m.lines (lineKey sl set w) with
    | some l => l.line = line && l.die = die
    | none => false)

/-- Age of a way's line in a set; 3 while it is invalid (R161). -/
def Mem.ageAt (m : Mem) (sl set w : Nat) : Nat :=
  match mget m.lines (lineKey sl set w) with
  | some l => l.age
  | none => 3

/-- Victim choice of R161: the way and the lines with their new ages; none while no way is eligible. -/
def Mem.victim (m : Mem) (sl set : Nat) : Option (Nat × Mem) :=
  let ws := m.ways sl
  match ws.find? (fun w => !mhas m.lines (lineKey sl set w)) with
  | some w => some (w, m)
  | none =>
    let top := ws.foldl (fun a w => max a (m.ageAt sl set w)) 0
    let m := { m with lines := ws.foldl (fun ls w =>
      mmod ls (lineKey sl set w) (fun l => { l with age := l.age + (3 - top) })) m.lines }
    (ws.find? (fun w => m.ageAt sl set w = 3)).map (fun w => (w, m))

/-! ### Sectors between L2 and DRAM -/

/-- Sectors moved at a channel, with a check-burst miss in LPDDR5X mode where a free value says so (R223, R545). -/
def State.dramTouch (s : State) (pa sectors : Nat) (write : Bool) : State :=
  let ch := s.mem.server pa
  let s := s.bump blkDRC ch (if write then 1 else 0) sectors
  if s.mem.mode = 1 then let (f, s) := s.draw; s.bump blkDRC ch 3 (f % 2) else s

/-- A partial write enters the controller's queue, merging with one that waits for the same sector (R229). -/
def State.partialWrite (s : State) (sector : Nat) (mask : Nat) : State :=
  let s := s.bump blkDRC (s.mem.server sector) 2 1
  match s.mem.partials.find? (fun p => p.sector = sector) with
  | some _ =>
    let join := fun (p : Partial) => if p.sector = sector then ⟨p.sector, p.mask ||| BitVec.ofNat 32 mask⟩ else p
    { s with mem := { s.mem with partials := s.mem.partials.map join } }
  | none =>
    let q : Partial := ⟨sector, BitVec.ofNat 32 mask⟩
    { s with mem := { s.mem with partials := s.mem.partials ++ [q] } }

/-- Write back the dirty sectors of a line and drop it (R159). -/
def State.evict (s : State) (key : Nat) : State :=
  match mget s.mem.lines key with
  | none => s
  | some l =>
    let s := { s with mem := { s.mem with lines := merase s.mem.lines key } }
    if l.die.isSome then s else
      loop 4 s (fun s k =>
        if bit l.dirty.toNat k then
          let m := bits l.valid.toNat (32 * k + 31) (32 * k)
          let pa := 128 * l.line + 32 * k
          let s := s.bump blkL2C (key / 32768) 4 1
          if m = 2 ^ 32 - 1 then s.dramTouch pa 1 true else s.partialWrite pa m
        else s)

/-- Put a line into the slice that serves it; the state is unchanged when no way is eligible (R161). -/
def State.fillLine (s : State) (pa : Nat) (die : Option Nat) (age : Nat) (valid : BitVec 128) (dirty : BitVec 4)
    (data : List Byte) : State :=
  let sl := s.mem.remap (sliceOf pa)
  let set := setOf pa
  match s.mem.victim sl set with
  | none => s
  | some (w, m) =>
    let s := ({ s with mem := m }).evict (lineKey sl set w)
    let l : L2Line := { line := pa / 128, die := die, age := age, dirty := dirty, valid := valid, data := data }
    { s with mem := { s.mem with lines := mset s.mem.lines (lineKey sl set w) l } }

/-- Line policy after R160: code 3 is served as NORMAL. -/
def polCode (p : Nat) : Nat := if p = 3 then 0 else p

/-- A read request for the bytes [lo, hi) of one local line. -/
def State.lineRead (s : State) (pa pol : Nat) : State :=
  let sl := s.mem.remap (sliceOf pa)
  let set := setOf pa
  match s.mem.findWay sl set (pa / 128) none with
  | some w =>
    let s := s.bump blkL2C sl 0 1
    { s with mem := { s.mem with lines := mmod s.mem.lines (lineKey sl set w) (fun l =>
        { l with age := if pol = 0 then 0 else l.age, valid := BitVec.allOnes 128 }) } }
  | none =>
    let s := (s.bump blkL2C sl 1 1).dramTouch pa 4 false
    if pol = 2 then s else s.fillLine pa none (if pol = 0 then 1 else 3) (BitVec.allOnes 128) 0 []

/-- Mask of n bytes from offset o of a line. -/
def byteMask (o n : Nat) : BitVec 128 := BitVec.ofNat 128 ((2 ^ n - 1) * 2 ^ o)

/-- Sectors that a byte mask touches. -/
def sectorMask (m : BitVec 128) : BitVec 4 :=
  BitVec.ofNat 4 (maskOf ((List.range 4).filter (fun k => bits m.toNat (32 * k + 31) (32 * k) ≠ 0)))

/-- A write request for n bytes at pa inside one local line (R159, R160). -/
def State.lineWrite (s : State) (pa n pol : Nat) : State :=
  let sl := s.mem.remap (sliceOf pa)
  let set := setOf pa
  let mask := byteMask (pa % 128) n
  match s.mem.findWay sl set (pa / 128) none with
  | some w =>
    let s := s.bump blkL2C sl 2 1
    { s with mem := { s.mem with lines := mmod s.mem.lines (lineKey sl set w) (fun l =>
        { l with age := if pol = 0 then 0 else l.age, valid := l.valid ||| mask,
                 dirty := l.dirty ||| sectorMask mask }) } }
  | none =>
    if pol = 2 then
      loop 4 s (fun s k =>
        let m := bits mask.toNat (32 * k + 31) (32 * k)
        let sec := pa / 128 * 128 + 32 * k
        if m = 0 then s else if m = 2 ^ 32 - 1 then s.dramTouch sec 1 true else s.partialWrite sec m)
    else (s.bump blkL2C sl 3 1).fillLine pa none (if pol = 0 then 1 else 3) mask (sectorMask mask) []

/-- Pieces of [a, a + n) that lie in one line each: address and length. -/
def linePieces (a n : Nat) : List (Nat × Nat) :=
  if n = 0 then [] else
    (List.range ((a + n - 1) / 128 - a / 128 + 1)).map (fun i =>
      let lo := max a ((a / 128 + i) * 128)
      let hi := min (a + n) ((a / 128 + i + 1) * 128)
      (lo, hi - lo))

/-! ### The strongroom window (R166, R167, R170) -/

def srBase : Nat := 0xFE_0000_0000
def srSpan : Nat := 32 * 2 ^ 20

/-- Slice, way, set of a strongroom window offset with w ways (R167). -/
def srPlace (w o : Nat) : Nat × Nat × Nat :=
  let q := bits o 24 12 * 256 + o % 256
  (bits o 11 8, 16 - w + q / 262144, q % 262144 / 128)

/-- Is a window offset in a lost way (R170)? -/
def Mem.srLost (m : Mem) (o : Nat) : Bool :=
  let (sl, way, _) := srPlace m.srWays o
  bit (m.slice sl).lost.toNat way

/-- Where a local physical address lies. -/
inductive Where where
  | dram
  | strong (o : Nat)
  /-- inside the window's 32 MiB, at or above W × 4 MiB -/
  | strongOut
  | outside
  deriving DecidableEq, Repr

def Mem.whereIs (m : Mem) (pa : Nat) : Where :=
  if pa < m.capacity then .dram
  else if srBase ≤ pa && pa < srBase + srSpan then
    (if pa - srBase < m.srWays * 4 * 2 ^ 20 then .strong (pa - srBase) else .strongOut)
  else .outside

/-! ### Reads and writes of local physical addresses -/

/-- Is any sector of [a, a + n) poisoned (R225)? -/
def Mem.poisoned (m : Mem) (a n : Nat) : Bool := n ≠ 0 && m.poison.any (fun p => a / 32 ≤ p && p ≤ (a + n - 1) / 32)

/-- Sectors wholly inside [a, a + n) lose their poison (R225). -/
def Mem.clearPoison (m : Mem) (a n : Nat) : Mem :=
  { m with poison := m.poison.filter (fun p => !(a ≤ 32 * p && 32 * p + 32 ≤ a + n)) }

/-- Mark the sectors that [a, a + n) touches as poisoned. -/
def Mem.setPoison (m : Mem) (a n : Nat) : Mem :=
  if n = 0 then m else
    { m with poison := (List.range ((a + n - 1) / 32 - a / 32 + 1)).foldl (fun l i => setAdd l (a / 32 + i)) m.poison }

/-- Read n bytes at a local physical address at the point of coherence: the bytes, and whether they are poisoned. -/
def State.readPhys (s : State) (pa n pol : Nat) : (List Byte × Bool) × State :=
  match s.mem.whereIs pa with
  | .dram =>
    let s' := (linePieces pa n).foldl (fun s p => s.lineRead p.1 (polCode pol)) s
    ((memRead s.mem.cells pa n, s.mem.poisoned pa n), s')
  | .strong o =>
    let sl := (srPlace s.mem.srWays o).1
    let s' := s.bump blkL2C sl 6 1
    if s.mem.srLost o then ((zeros n, true), s') else ((memRead s.mem.cells pa n, s.mem.poisoned pa n), s')
  | .strongOut => ((zeros n, false), s.report 0x0305 13 blkL2C pa 0)
  | .outside => ((zeros n, true), s.report 0x0103 12 0 pa 0)

/-- Write bytes at a local physical address at the point of coherence. -/
def State.writePhys (s : State) (pa : Nat) (l : List Byte) (pol : Nat) : State :=
  match s.mem.whereIs pa with
  | .dram =>
    let s := (linePieces pa l.length).foldl (fun s p => s.lineWrite p.1 p.2 (polCode pol)) s
    { s with mem := { s.mem with cells := memWrite s.mem.cells pa l }.clearPoison pa l.length }
  | .strong o =>
    let sl := (srPlace s.mem.srWays o).1
    let s := s.bump blkL2C sl 6 1
    if s.mem.srLost o then s
    else { s with mem := { s.mem with cells := memWrite s.mem.cells pa l }.clearPoison pa l.length }
  | .strongOut => s.report 0x0305 13 blkL2C pa 0
  | .outside => s.report 0x0103 12 0 pa 0

/-- Write a masked part of a sector: only the bytes whose mask bit is set. -/
def State.writeMasked (s : State) (pa : Nat) (l : List Byte) (mask : Nat) (pol : Nat) : State :=
  foldIdx l s (fun s i b => if bit mask i then s.writePhys (pa + i) [b] pol else s)

/-- Write zeros over [a, a + n) and end its poison (R207). -/
def State.zeroPhys (s : State) (a n : Nat) : State :=
  { s with mem := { s.mem with cells := memZero s.mem.cells a n }.clearPoison a n }

/-- Take ways out of service: write back and invalidate their lines (R163 step 2). -/
def State.flushWays (s : State) (sl : Nat) (ways : Nat → Bool) : State :=
  (s.mem.lines.filter (fun p => p.1 / 32768 = sl && ways (p.1 % 16))).foldl (fun s p => s.evict p.1) s

end Sys2Proof.Machine
end

