-- ==== Sys2Proof/Machine/Link.lean ====
section
/-! DEFINITION. Requests that leave the die: non-posted requests toward the host (R246, R247) and messages on the caravan
ports with their routes (R462, R463, R467 to R469, R472). -/

namespace Sys2Proof.Machine

/-- A non-posted request toward the host: operation 0 read, 1 FetchAdd, 2 Swap, 3 CAS. None while 2,048 are
outstanding (R246). -/
def State.hostRequest (s : State) (addr len op : Nat) (operand compare : Dword) (dest : NpDest) : Option State :=
  (firstFree s.host.np 0 2048).map (fun tag =>
    { s with host := { s.host with np := mset s.host.np tag { addr := addr, len := len, dest := dest } } }.send
      (.request tag addr len op operand compare))

def Caravan.port (c : Caravan) (p : Nat) : Port := mgetD c.ports p Port.reset
def State.setPort (s : State) (p : Nat) (v : Port) : State :=
  { s with caravan := { s.caravan with ports := mset s.caravan.ports p v } }
def State.modPort (s : State) (p : Nat) (f : Port → Port) : State := s.setPort p (f (s.caravan.port p))

/-- A port in service: its link runs and it is not fenced. -/
def Caravan.inService (c : Caravan) (p : Nat) : Bool := 2 ≤ (c.port p).link && !(c.port p).fenced

/-- Ports of a mask that are in service, ascending. -/
def Caravan.usable (c : Caravan) (mask : Nat) : List Nat := (bitList mask 4).filter c.inService

/-- Port number of an address among k ports (R467); event and management messages use 0. -/
def portIndex (pa : Nat) (plain : Bool) (k : Nat) : Nat :=
  if plain then (bits pa 9 8 ^^^ bits pa 11 10 ^^^ bits pa 13 12) % k else 0

/-- The route to a die now: port, HOPS_LEFT, whether it is the ALT route (R466 to R469). -/
def State.route (s : State) (dst pa : Nat) (plain : Bool) : Option (Nat × Nat × Bool) :=
  match mget s.caravan.routes dst with
  | none => none
  | some r =>
    let main := s.caravan.usable r.ports.toNat
    let alt := s.caravan.usable r.alt.toNat
    -- a destination stays on ALT while messages sent there are outstanding (R469)
    let stay := s.caravan.onAlt.contains dst && s.caravan.reqs.any (fun p => p.2.dst = dst) && !alt.isEmpty
    if !main.isEmpty && !stay then
      (main[portIndex pa plain main.length]?).map (fun p => (p, r.hops - 1, false))
    else (alt[portIndex pa plain alt.length]?).map (fun p => (p, r.altHops - 1, true))

/-- Is a die reachable over some port in service (R469)? -/
def State.reachable (s : State) (dst : Nat) : Bool := (s.route dst 0 false).isSome

/-- SIZE of a message with data (R462): 0 for 32 bytes, 1 for 64, 2 for 128; otherwise 0. -/
def sizeCode (n : Nat) : Nat := if n = 64 then 1 else if n = 128 then 2 else 0

/-- Put a message on a port, from any source; it occupies a payload flit of the port's replay buffer (R464). -/
def State.cvlEmit (s : State) (port type src dst tag addr aux size hops : Nat) (data : List Byte) (poison : Bool) : State :=
  let p := s.caravan.port port
  let s := (s.bump blkCVL port 0 1).setPort port
    { p with txSeq := (p.txSeq + 1) % 1024, replay := p.replay ++ [(p.txSeq, data)], idle := false }
  s.emit (.caravan port type src dst tag addr aux size hops data poison)

/-- A message of this die. -/
def State.cvlSend (s : State) (port type dst tag addr aux hops : Nat) (data : List Byte) (poison : Bool) : State :=
  s.cvlEmit port type s.caravan.die dst tag addr aux (sizeCode data.length) hops data poison

/-- A request to another die with a free tag (R463): none while it is unreachable or all 4,096 tags are in use. -/
def State.cvlRequestAs (s : State) (type dst addr aux : Nat) (data : List Byte) (dest : NpDest)
    (signal : Option (Nat × Nat)) (fill : Bool) (off : Nat) (poison : Bool) : Option State :=
  match s.route dst addr (type ≠ 5 && type ≠ 6), firstFree s.caravan.reqs 0 4096 with
  | some (port, hops, alt), some tag =>
    let onAlt := if alt then setAdd s.caravan.onAlt dst else setDel s.caravan.onAlt dst
    let q : CvlReq := { dst := dst, type := type, addr := addr, port := port, dest := dest, signal := signal
                        fill := fill, data := data, aux := aux, off := off }
    some ({ s with caravan := { s.caravan with reqs := mset s.caravan.reqs tag q, onAlt := onAlt } }.cvlEmit
      port type s.caravan.die dst tag addr aux (if fill then 2 else if type = 1 then 0 else sizeCode data.length) hops data
      poison)
  | _, _ => none

/-- The same with data that is not poisoned. -/
def State.cvlRequest (s : State) (type dst addr aux : Nat) (data : List Byte) (dest : NpDest)
    (signal : Option (Nat × Nat)) (fill : Bool) (off : Nat) : Option State :=
  s.cvlRequestAs type dst addr aux data dest signal fill off false

/-! ### Management messages (R466, R471, R474, R475)

The spec gives no layout for them: the model's own has a kind in byte 0, an argument in byte 1 and data from byte 16 (log
entry 50). -/

def mgmtAnswer : Nat := 0
def mgmtBacking : Nat := 1
def mgmtRelease : Nat := 2
def mgmtTable : Nat := 3
def mgmtState : Nat := 4

def mgmtBytes (kind arg : Nat) (data : List Byte) : List Byte :=
  let b := leBytes 1 kind ++ leBytes 1 arg ++ zeros 14 ++ data
  b ++ zeros ((16 - b.length % 16) % 16)

/-- Send a management message along the present route. -/
def State.askDie (s : State) (die : Nat) (data : List Byte) : State :=
  match s.route die 0 false with
  | some (port, hops, _) => s.cvlSend port 6 die 0 0 0 hops data false
  | none => s

/-- A store to another die: whole sectors as WR, the rest as WR_PARTIAL under a byte mask (R462). -/
def State.cvlStoreAs (s : State) (dst pa : Nat) (l : List Byte) (dest : NpDest) (poison : Bool) : State :=
  if l.isEmpty then s else
  (List.range ((pa + l.length - 1) / 32 - pa / 32 + 1)).foldl (fun s i =>
    let sec := (pa / 32 + i) * 32
    let lo := max pa sec
    let hi := min (pa + l.length) (sec + 32)
    let d := zeros (lo - sec) ++ slice l (lo - pa) (hi - lo) ++ zeros (sec + 32 - hi)
    let whole := hi - lo = 32
    (s.cvlRequestAs (if whole then 2 else 3) dst sec (if whole then 0 else (2 ^ (hi - lo) - 1) * 2 ^ (lo - sec)) d dest
      none false 0 poison).getD s) s

def State.cvlStore (s : State) (dst pa : Nat) (l : List Byte) (dest : NpDest) : State := s.cvlStoreAs dst pa l dest false

end Sys2Proof.Machine
end

