-- ==== Sys2Proof/Machine/Translate.lean ====
section
/-! DEFINITION. Translation (R182 to R192), fault records (R193 to R197) and the page tables that the caravan master
writes (R184 to R187, R191, R571). -/

namespace Sys2Proof.Machine

/-! ### Page-table entries (R186) -/

/-- What an access needs. -/
structure Acc where
  write : Bool
  atomic : Bool
  fetch : Bool
  deriving DecidableEq, Repr

def accRead : Acc := ⟨false, false, false⟩
def accWrite : Acc := ⟨true, false, false⟩
def accAtomic : Acc := ⟨true, true, false⟩

/-- What a translation gives. -/
inductive Tr where
  /-- target 0 local, 1 host, 2 remote; address; policy; page read-only; die -/
  | ok (target pa cpol : Nat) (ro : Bool) (die : Nat)
  | fault (kind level : Nat) (pte : Nat)
  deriving DecidableEq, Repr

/-- Page bytes of a leaf at a level (R185, R187). -/
def pageBytes (level : Nat) (c64k : Bool) : Nat :=
  if level = 0 then (if c64k then 65536 else 4096) else if level = 1 then 2 ^ 21 else 2 ^ 30

/-- Bytes of a page size code (R201). -/
def pageCode (c : Nat) : Nat := if c = 0 then 4096 else if c = 1 then 65536 else if c = 2 then 2 ^ 21 else 2 ^ 30

/-- Does a valid entry break R185, R186 or R187? `self` is the translating die. -/
def pteMalformed (level pte self : Nat) : Bool :=
  let target := bits pte 8 7
  let addr := bits pte 51 12 * 4096
  bits pte 55 52 ≠ 0 || target = 3 || (target ≠ 2 && bits pte 11 9 ≠ 0) || (target = 2 && bits pte 11 9 = self) ||
  (if bit pte 1 then
    level = 3 || (level ≠ 0 && bit pte 4) || (target ≠ 1 && bits pte 51 40 ≠ 0) ||
    (level ≠ 0 && addr % pageBytes level false ≠ 0)
  else level = 0 || bits pte 51 40 ≠ 0 || bits pte 6 5 ≠ 0 || bit pte 4 || target ≠ 0)

/-- Level of a cached page by its size. -/
def sizeLevel (bytes : Nat) : Nat := if bytes ≤ 65536 then 0 else if bytes = 2 ^ 21 then 1 else 2

/-- Use a cached translation for an access (R186, R193, R194). -/
def State.useEnt (s : State) (e : TlbEnt) (va : Nat) (acc : Acc) : Tr :=
  let pte := e.pte.toNat
  let lvl := sizeLevel e.bytes
  if acc.write && !bit pte 2 then .fault 0x02 lvl pte
  else if acc.fetch && !bit pte 3 then .fault 0x03 lvl pte
  else if bits pte 8 7 = 2 && !s.reachable (bits pte 11 9) then .fault 0x08 lvl pte
  else .ok (bits pte 8 7) (bits pte 51 12 * 4096 / e.bytes * e.bytes + (va - e.va)) (polCode (bits pte 6 5))
    (!bit pte 2) (bits pte 11 9)

/-! ### TLBs (R189, R190): most recently used first -/

def tlbFind (l : List TlbEnt) (asid va : Nat) : Option TlbEnt :=
  l.find? (fun e => e.asid = asid && e.va ≤ va && va < e.va + e.bytes)

/-- Put an entry first and keep at most n. -/
def tlbTouch (l : List TlbEnt) (e : TlbEnt) (n : Nat) : List TlbEnt := (e :: l.filter (· ≠ e)).take n

/-- Bank of the shared TLB (R189). -/
def stlbBank (va : Nat) : Nat := bits va 24 21 ^^^ bits va 15 12

/-- TLB agents: engines 0-31 (64 entries), outriders 32-63, copy engines 64-67, compression engines 68-69, display pipes
72-75 (32 entries each); 255 for the host window, which has none. -/
def tlbSize (agent : Nat) : Nat := if agent < 32 then 64 else if agent = 255 then 0 else 32

def State.tlbFill (s : State) (agent : Nat) (e : TlbEnt) : State :=
  if agent = 255 then s else
    { s with mmu := { s.mmu with utlbs := mset s.mmu.utlbs agent (tlbTouch (mgetD s.mmu.utlbs agent []) e (tlbSize agent)) } }

def State.stlbFill (s : State) (va : Nat) (e : TlbEnt) : State :=
  let b := stlbBank va
  { s with mmu := { s.mmu with stlb := mset s.mmu.stlb b (tlbTouch (mgetD s.mmu.stlb b []) e 1024) } }

/-- Lowest level whose non-leaf entry the walk cache holds for an address. -/
def State.walkHit (s : State) (asid va : Nat) : Option WalkEnt :=
  ([1, 2, 3].filterMap (fun l => s.mmu.walk.find? (fun w =>
    w.asid = asid && w.level = l && w.va = va / 2 ^ (12 + 9 * l)))).head?

def State.walkFill (s : State) (w : WalkEnt) : State :=
  { s with mmu := { s.mmu with walk := (w :: s.mmu.walk.filter (· ≠ w)).take 512 } }

/-- Read the entries of levels n - 1 down to 0 (R192): the leaf as a translation, or a fault kind with its level and
entry. -/
def State.walkFrom (s : State) (asid va table : Nat) : Nat → (Except (Nat × Nat × Nat) TlbEnt) × State
  | 0 => (.error (0x04, 0, 0), s)
  | n + 1 =>
    let ((b, poison), s) := s.readPhys (table + 8 * bits va (20 + 9 * n) (12 + 9 * n)) 8 0
    let pte := leNat b
    if poison then (.error (0x05, n, pte), s)
    else if !bit pte 0 then (.error (0x01, n, pte), s)
    else if pteMalformed n pte s.caravan.die then (.error (0x04, n, pte), s)
    else if bit pte 1 then
      let pb := pageBytes n (n = 0 && bit pte 4)
      let e : TlbEnt := { asid := asid, va := va / pb * pb, bytes := pb, pte := BitVec.ofNat 64 pte }
      (.ok e, s)
    else
      let next := bits pte 39 12 * 4096
      let s := s.walkFill { asid := asid, level := n, va := va / 2 ^ (12 + 9 * n), table := next }
      s.walkFrom asid va next n

/-- A page-table walk from the walk cache or the root. -/
def State.walkTable (s : State) (asid va : Nat) : (Except (Nat × Nat × Nat) TlbEnt) × State :=
  match mget s.mmu.asids asid with
  | none => (.error (0x07, 0xFF, 0), s)
  | some a =>
    let s := s.bump blkMMU 0 2 1
    match s.walkHit asid va with
    | some w => (s.walkFill w).walkFrom asid va w.table w.level
    | none => s.walkFrom asid va a.root 4

/-- Translate one address for an agent (R182 to R193). -/
def State.translate (s : State) (agent asid va : Nat) (acc : Acc) : Tr × State :=
  if 2 ^ 48 ≤ va then (.fault 0x06 0xFF 0, s)
  else if !mhas s.mmu.asids asid then (.fault 0x07 0xFF 0, s)
  else match tlbFind (mgetD s.mmu.utlbs agent []) asid va with
    | some e => let s := s.tlbFill agent e; (s.useEnt e va acc, s)
    | none => match tlbFind (mgetD s.mmu.stlb (stlbBank va) []) asid va with
      | some e =>
        let s := ((s.bump blkMMU 0 0 1).stlbFill va e).tlbFill agent e
        (s.useEnt e va acc, s)
      | none =>
        match (s.bump blkMMU 0 1 1).walkTable asid va with
        | (.error (k, l, p), s) => (.fault k l p, s)
        | (.ok e, s) =>
          let s := (s.stlbFill va e).tlbFill agent e
          (s.useEnt e va acc, s)

/-- Drop every cached translation of [va, va + n) of an address space (R191). -/
def State.invalidate (s : State) (asid va n : Nat) : State :=
  let keep := fun (e : TlbEnt) => !(e.asid = asid && e.va < va + n && va < e.va + e.bytes)
  let keepW := fun (w : WalkEnt) =>
    !(w.asid = asid && w.va * 2 ^ (12 + 9 * w.level) < va + n && va < (w.va + 1) * 2 ^ (12 + 9 * w.level))
  { s with mmu := { s.mmu with
      utlbs := mmap s.mmu.utlbs (fun _ l => l.filter keep)
      stlb := mmap s.mmu.stlb (fun _ l => l.filter keep)
      walk := s.mmu.walk.filter keepW } }

/-- Empty the TLB of one agent (R190). -/
def State.tlbEmpty (s : State) (agent : Nat) : State :=
  { s with mmu := { s.mmu with utlbs := merase s.mmu.utlbs agent } }

/-! ### Accesses by device virtual address for agents that read or write plain ranges -/

/-- Translate every page of [va, va + n): address pieces inside 4 KiB pages, or the first fault with its address. -/
def State.pieces (s : State) (agent asid va n : Nat) (acc : Acc) :
    (Except (Nat × Nat × Nat × Nat) (List (Nat × Nat × Nat × Nat × Nat × Bool))) × State :=
  if n = 0 then (.ok [], s) else
    (List.range ((va + n - 1) / 4096 - va / 4096 + 1)).foldl (fun st i =>
      match st with
      | (.error e, s) => (.error e, s)
      | (.ok l, s) =>
        let a := max va ((va / 4096 + i) * 4096)
        let b := min (va + n) ((va / 4096 + i + 1) * 4096)
        match s.translate agent asid a acc with
        | (.ok t pa pol ro die, s) => (.ok (l ++ [(t, pa, b - a, pol, die, ro)]), s)
        | (.fault k lv p, s) => (.error (k, lv, p, a), s)) (.ok [], s)

/-- Result of a read by virtual address: bytes with poison and the rest of `ext`, or a fault with kind, level, entry,
address. Bytes of host and remote pages come from the command's operand (`ext`), in address order; with none they read
as poisoned. -/
def State.readVaX (s : State) (agent asid va n : Nat) (stream : Bool) (ext : Option (List Byte)) :
    (Except (Nat × Nat × Nat × Nat) ((List Byte × Bool) × Option (List Byte))) × State :=
  match s.pieces agent asid va n accRead with
  | (.error e, s) => (.error e, s)
  | (.ok ps, s) =>
    let r := ps.foldl (fun (st : (List Byte × Bool × List Byte) × State) p =>
      let (t, pa, len, pol, _, _) := p
      let ((acc, bad, ext'), s) := st
      if t = 0 then
        let ((b, poison), s) := s.readPhys pa len (if stream && pol = 0 then 1 else pol)
        ((acc ++ b, bad || poison, ext'), s)
      else ((acc ++ slice ext' 0 len, bad || ext.isNone, ext'.drop len), s)) (([], false, ext.getD []), s)
    (.ok ((r.1.1, r.1.2.1), ext.map (fun _ => r.1.2.2)), r.2)

/-- The same without the rest of `ext`. -/
def State.readVa (s : State) (agent asid va n : Nat) (stream : Bool) (ext : Option (List Byte)) :
    (Except (Nat × Nat × Nat × Nat) (List Byte × Bool)) × State :=
  match s.readVaX agent asid va n stream ext with
  | (.error e, s) => (.error e, s)
  | (.ok r, s) => (.ok r.1, s)

/-- Write bytes to one translated piece: local memory, host memory, or another die (a WR message, R472). -/
def State.writePiece (s : State) (target pa pol die : Nat) (l : List Byte) : State :=
  if target = 0 then s.writePhys pa l pol
  else if target = 1 then s.hostWrite pa l
  else s.cvlStore die pa l .other

/-- Write by virtual address: nothing is written when any page faults. -/
def State.writeVa (s : State) (agent asid va : Nat) (l : List Byte) (stream : Bool) :
    (Except (Nat × Nat × Nat × Nat) Unit) × State :=
  match s.pieces agent asid va l.length accWrite with
  | (.error e, s) => (.error e, s)
  | (.ok ps, s) =>
    let r := ps.foldl (fun (st : List Byte × State) p =>
      let (t, pa, len, pol, die, _) := p
      (st.1.drop len, st.2.writePiece t pa (if stream && pol = 0 then 1 else pol) die (st.1.take len))) (l, s)
    (.ok (), r.2)

/-! ### Fault records (R193 to R197) -/

/-- A fault before it has a record. -/
structure FaultReq where
  asid : Nat
  kind : Nat
  acc : Acc
  va : Nat
  waybill : Dword
  seq : Word
  agent : Nat
  unit : Nat
  queue : Nat
  level : Nat
  heap : Nat
  detail : Nat
  growKey : Nat
  convoy : Option Nat
  deriving DecidableEq, Repr

/-- Attach to the outstanding record of the same page and kind, or make a record (R195). None when all 1,024 records are
in use: the agent stays stopped until one frees. -/
def State.raiseFault (s : State) (f : FaultReq) : Option Nat × State :=
  let page := fun (va : Nat) => va / 4096
  match s.mmu.faults.find? (fun p => p.2.asid = f.asid && p.2.kind = f.kind && p.2.growKey = f.growKey
      && (f.kind = 0x10 || f.kind = 0x11 || page p.2.va.toNat = page f.va)) with
  | some (id, r) =>
    (some id, { s with mmu := { s.mmu with faults := mset s.mmu.faults id { r with waiters := r.waiters + 1 } } })
  | none =>
    if 1024 ≤ s.mmu.faults.length then (none, s) else
      let id := s.mmu.nextFault
      let r : FaultRec :=
        { asid := f.asid, kind := f.kind, write := f.acc.write, fetch := f.acc.fetch, atomic := f.acc.atomic
          va := BitVec.ofNat 64 f.va, waybill := f.waybill, seq := f.seq, agent := f.agent, unit := f.unit
          queue := f.queue, level := f.level, heap := f.heap, detail := BitVec.ofNat 64 f.detail
          stamp := s.fclk, slot := none, waiters := 1, convoy := f.convoy, growKey := f.growKey }
      let s := { s with mmu := { s.mmu with
        faults := mset s.mmu.faults id r, nextFault := (id + 1) % 2 ^ 32 } }
      -- F_TABLE_POISON also reaches the collector where the read was detected (R193); the detector reports it itself
      (some id, s)

/-- The 64 bytes of a fault record (R197). -/
def faultBytes (id : Nat) (r : FaultRec) (phase : Bool) : List Byte :=
  let w := r.waybill.toNat
  leBytes 4 id ++ leBytes 2 r.asid ++ leBytes 1 r.kind
  ++ leBytes 1 (b2n phase * 128 + b2n r.write * 64 + b2n r.fetch * 32 + b2n r.atomic * 16)
  ++ leBytes 8 r.va.toNat ++ leBytes 4 (bits w 17 0) ++ leBytes 4 (bits w 41 18) ++ leBytes 2 (bits w 57 42)
  ++ leBytes 2 (min r.waiters 65535) ++ leBytes 4 r.seq.toNat ++ leBytes 1 r.agent ++ leBytes 1 r.unit
  ++ leBytes 2 r.queue ++ leBytes 1 r.level ++ leBytes 1 r.heap ++ zeros 2 ++ leBytes 8 r.detail.toNat
  ++ leBytes 8 (domF * 2 ^ 56 + r.stamp) ++ zeros 8

/-- Ring of a fault record: ring 0 for F_ASID_INVALID, else the ring its ASID names (R196). -/
def State.ringOf (s : State) (r : FaultRec) : Nat :=
  if r.kind = 0x07 then 0 else match mget s.mmu.asids r.asid with
    | some a => a.ring
    | none => 0

/-! ### Page tables (R184 to R187) -/

/-- A free page of the page-table region, the lowest one. -/
def State.freeTable (s : State) : Option Nat :=
  let n := min (s.mmu.tables.length + 1) (s.mmu.ptBytes / 4096)
  ((List.range n).map (fun i => s.mmu.ptBase + 4096 * i)).find? (fun a => !s.mmu.tables.contains a)

/-- Take a zeroed table page. -/
def State.newTable (s : State) : Option (Nat × State) :=
  (s.freeTable).map (fun a => (a, (s.zeroPhys a 4096).writePhys a [] 0
    |> fun s => { s with mmu := { s.mmu with tables := a :: s.mmu.tables } }))

/-- Bits of a leaf entry but its address (R186, R187, R201). -/
def leafFlags (access cpol target die handle : Nat) (c64k : Bool) : Nat :=
  3 + b2n (bit access 0) * 4 + b2n (bit access 1) * 8 + b2n c64k * 16 + cpol * 32 + target * 128 + die * 512
  + handle % 256 * 2 ^ 56

/-- The table at `level` that holds an address, making the tables above it; none when the region is full. -/
def State.tableAt (s : State) (va level : Nat) : Nat → Nat → Option (Nat × State)
  | 0, table => some (table, s)
  | n + 1, table =>
    let l := level + n + 1
    let at_ := table + 8 * bits va (20 + 9 * l) (12 + 9 * l)
    let pte := memLe s.mem.cells at_ 8
    if bit pte 0 then s.tableAt va level n (bits pte 39 12 * 4096)
    else match s.newTable with
      | none => none
      | some (a, s) => (s.writePhys at_ (leBytes 8 (a + 1)) 0).tableAt va level n a

/-- Map one page of a size code at an address. -/
def State.mapPage (s : State) (root va page addr flags : Nat) : Option State :=
  let level := if page ≤ 1 then 0 else page - 1
  match s.tableAt va level (3 - level) root with
  | none => none
  | some (t, s) =>
    let i := bits va (20 + 9 * level) (12 + 9 * level)
    if page = 1 then
      some (loop 16 s (fun s k => s.writePhys (t + 8 * (i / 16 * 16 + k)) (leBytes 8 (addr + 4096 * k + flags)) 0))
    else some (s.writePhys (t + 8 * i) (leBytes 8 (addr + flags)) 0)

/-- Map pages at consecutive virtual addresses; none when a table page is missing. -/
def State.mapPages (s : State) (root va page flags : Nat) : List Nat → Option State
  | [] => some s
  | a :: as => match s.mapPage root va page a flags with
    | none => none
    | some s => s.mapPages root (va + pageCode page) page flags as

/-- Clear the leaf entry of one page, if its tables exist (R207). -/
def State.unmapPage (s : State) (root va page : Nat) : State :=
  let level := if page ≤ 1 then 0 else page - 1
  match s.tableAt va level (3 - level) root with
  | none => s
  | some (t, s) =>
    let i := bits va (20 + 9 * level) (12 + 9 * level)
    if page = 1 then loop 16 s (fun s k => s.writePhys (t + 8 * (i / 16 * 16 + k)) (zeros 8) 0)
    else s.writePhys (t + 8 * i) (zeros 8) 0

/-- Unmap n pages and invalidate them (R191). -/
def State.unmapPages (s : State) (asid root va page n : Nat) : State :=
  (loop n s (fun s i => s.unmapPage root (va + i * pageCode page) page)).invalidate asid va (n * pageCode page)

/-! ### Reservations of local memory (R571) -/

/-- Is [a, a + n) free of every reservation? -/
def State.rangeFree (s : State) (a n : Nat) : Bool :=
  s.mmu.reserved.all (fun r => a + n ≤ r.1 || r.1 + r.2 ≤ a)

/-- A free range of n bytes, aligned, in [lo, hi): the caravan master's choice is a free value where that range is free,
else the lowest range that fits. -/
def State.findRange (s : State) (lo hi n align : Nat) : Option Nat :=
  let fits := fun a => lo ≤ a && a + n ≤ hi && s.rangeFree a n
  let c := lo + s.peek 0 % ((hi - lo) / align + 1) * align
  if fits c then some c
  else ((lo :: (s.mmu.reserved.map (fun r => roundUp (r.1 + r.2) align))).filter fits).foldl
    (fun b a => match b with | none => some a | some x => some (min x a)) none

/-- Reserve n bytes of the data capacity below the fixed regions. -/
def State.reserve (s : State) (n align : Nat) : Option (Nat × State) :=
  (s.findRange 0 (min s.mmu.ptBase s.mem.capacity) n align).map (fun a =>
    (a, { s with mmu := { s.mmu with reserved := (a, n) :: s.mmu.reserved } }.drew 1))

/-- Reserve n bytes of the strongroom window. -/
def State.reserveSr (s : State) (n align : Nat) : Option (Nat × State) :=
  (s.findRange srBase (srBase + s.mem.srWays * 4 * 2 ^ 20) n align).map (fun a =>
    (a, { s with mmu := { s.mmu with reserved := (a, n) :: s.mmu.reserved } }.drew 1))

/-- Give a reservation back. -/
def State.unreserve (s : State) (a : Nat) : State :=
  { s with mmu := { s.mmu with reserved := s.mmu.reserved.filter (fun r => r.1 ≠ a) } }

end Sys2Proof.Machine
end

