-- ==== Sys2Proof/Machine/Operands.lean ====
section
/-! DEFINITION. Operand forms of string instructions and the life of a string at issue: registers (R69 to R71), the
header (R98), groups (R79 to R81), the drover's choice (R77), the scoreboard (R78), traps (R97), parking (R93, R94). -/

namespace Sys2Proof.Machine

/-! ### Registers of a string -/

/-- Vector register r of a lane; unlisted registers read 0 (R74). -/
def Str.v (st : Str) (r lane : Nat) : Word := mgetD st.vregs (32 * r + lane) 0

/-- The 64-bit value of the pair r, r + 1. -/
def Str.v2 (st : Str) (r lane : Nat) : Nat := (st.v r lane).toNat + 2 ^ 32 * (st.v (r + 1) lane).toNat

def Str.setV (st : Str) (r lane : Nat) (w : Word) : Str := { st with vregs := mset st.vregs (32 * r + lane) w }

/-- Write n consecutive registers of a lane from a number, low word first. -/
def Str.setVn (st : Str) (r lane n v : Nat) : Str :=
  loop n st (fun st i => st.setV (r + i) lane (BitVec.ofNat 32 (v / 2 ^ (32 * i))))

def Str.setV2 (st : Str) (r lane v : Nat) : Str := st.setVn r lane 2 v

/-- n consecutive registers of a lane as a number. -/
def Str.vn (st : Str) (r lane n : Nat) : Nat :=
  (List.range n).foldl (fun a i => a + (st.v (r + i) lane).toNat * 2 ^ (32 * i)) 0

/-- Predicate register p as a lane mask; p7 reads as true (R71). -/
def Str.p (st : Str) (p : Nat) : Word := if p = 7 then 0xFFFFFFFF#32 else mgetD st.preds p 0

/-- Write a predicate on one lane; writes to p7 are discarded (R71). -/
def Str.setP (st : Str) (p lane : Nat) (b : Bool) : Str :=
  if p = 7 then st
  else { st with preds := mset st.preds p (BitVec.ofNat 32 (setBit (st.p p).toNat lane b)) }

/-- Uniform register (R69). -/
def Str.u (st : Str) (r : Nat) : Dword := mgetD st.uregs r 0
def Str.setU (st : Str) (r : Nat) (w : Dword) : Str := { st with uregs := mset st.uregs r w }

/-- Lanes of a mask, ascending. -/
def lanesOf (m : Word) : List Nat := bitList m.toNat 32

/-! ### Access to strings -/

def State.str? (s : State) (e place : Nat) : Option Str := mget (s.eng e).strs place
def State.setStr (s : State) (e place : Nat) (st : Str) : State :=
  s.modEng e (fun v => { v with strs := mset v.strs place st })
def State.modStr (s : State) (e place : Nat) (f : Str → Str) : State :=
  s.modEng e (fun v => { v with strs := mmod v.strs place f })
def State.wg? (s : State) (e wg : Nat) : Option Wg := mget (s.eng e).wgs wg
def State.setWg (s : State) (e wg : Nat) (g : Wg) : State :=
  s.modEng e (fun v => { v with wgs := mset v.wgs wg g })

/-- The accepted command of a queue with a header index. -/
def State.cmd? (s : State) (q cmd : Nat) : Option Cmd :=
  (s.queue? q).bind (fun v => v.cmds.find? (fun c => c.index = cmd))

/-- Change a command. -/
def State.modCmd (s : State) (q cmd : Nat) (f : Cmd → Cmd) : State :=
  s.modQueue q (fun v => { v with cmds := v.cmds.map (fun c => if c.index = cmd then f c else c) })

/-- The work of a command ends, with its E_ code and DETAIL; the first end counts (R321, R326). -/
def State.endCmd (s : State) (q cmd err : Nat) (detail : Nat) : State :=
  s.modCmd q cmd (fun c => match c.st with
    | .ended _ => c
    | _ => { c with st := .ended err, detail := BitVec.ofNat 64 detail })

/-- ASID, convoy, waybill and sequence number a string's accesses carry (R183, R312). -/
def State.ctxOf (s : State) (q cmd : Nat) : Nat × Option Nat × Dword × Word :=
  match s.queue? q, s.cmd? q cmd with
  | some v, some c => (v.asid, v.convoy, c.waybill, c.seq)
  | some v, none => (v.asid, v.convoy, 0, 0)
  | _, _ => (0, none, 0, 0)

/-! ### Groups (R79 to R81) -/

/-- Open groups at the active group's program counter merge into it; it keeps its budget (R80). -/
def mergeHead : List Group → List Group
  | [] => []
  | g :: rest =>
    let same := rest.filter (fun x => x.pc = g.pc && x.block = .open)
    { g with mask := same.foldl (fun m x => m ||| x.mask) g.mask }
      :: rest.filter (fun x => !(x.pc = g.pc && x.block = .open))

/-- The first group becomes active with a budget of 64, and merges (R80, R81). -/
def activate : List Group → List Group
  | [] => []
  | g :: rest => mergeHead ({ g with budget := 64 } :: rest)

/-- Rotate to the first group that is not blocked; none when every group is. -/
def rotateOpen : Nat → List Group → Option (List Group)
  | 0, _ => none
  | _ + 1, [] => none
  | n + 1, g :: rest => if g.block = .open then some (g :: rest) else rotateOpen n (rest ++ [g])

/-- State after a change of groups: while the active group is blocked, the next open group becomes active (R81); with
no open group the string waits (R75). -/
def Str.settle (st : Str) : Str :=
  match st.groups with
  | [] => { st with state := .draining }
  | g :: rest =>
    match st.state with
    | .parked _ => st
    | _ =>
      if g.block = .open then { st with state := .ready }
      else match rotateOpen (rest.length + 1) (g :: rest) with
        | some gs => { st with groups := activate gs, state := .ready }
        | none => { st with state := .waiting }

/-- The active group gives way to the next group in round-robin order (R81). -/
def Str.giveWay (st : Str) : Str :=
  match st.groups with
  | [] => st
  | g :: rest =>
    match rotateOpen (rest.length + 1) (rest ++ [g]) with
    | some gs => { st with groups := activate gs, state := .ready }
    | none => { st with state := .waiting }

/-- Change the active group. -/
def Str.modHead (st : Str) (f : Group → Group) : Str :=
  match st.groups with
  | [] => st
  | g :: rest => { st with groups := f g :: rest }

/-- Block the active group (R81: another open group takes over). -/
def Str.blockHead (st : Str) (b : Block) : Str := (st.modHead (fun g => { g with block := b })).settle

/-- Open the groups whose block satisfies a test. -/
def Str.unblock (st : Str) (p : Block → Bool) : Str :=
  { st with groups := st.groups.map (fun (g : Group) => if p g.block then { g with block := .open } else g) }.settle

/-- The group has issued one instruction and goes on at the next word (R79, R98). -/
def Str.step (st : Str) : Str := st.modHead (fun g => { g with pc := g.pc + 8, budget := g.budget - 1 })

/-- Lanes of the active group go to the given addresses: one group per address, the lowest stays active with the
remaining budget and the others go to the tail (R80). -/
def Str.split (st : Str) (dest : List (Dword × Word)) : Str :=
  match st.groups with
  | [] => st
  | g :: rest =>
    match sortBy (fun d => d.1.toNat) dest with
    | [] => st
    | d :: ds =>
      { st with groups := mergeHead (({ g with pc := d.1, mask := d.2, budget := g.budget - 1 } :: rest)
          ++ ds.map (fun (d : Dword × Word) => (⟨d.1, d.2, 64, .open⟩ : Group))) }.settle

/-! ### The drover (R77) -/

/-- A string that can certainly issue: ready, active group open with budget, nothing pending on its scoreboard. -/
def Str.clear (st : Str) : Bool :=
  st.state = .ready && st.busy.isEmpty && (match st.groups with
    | g :: _ => g.block = .open && 0 < g.budget
    | [] => false)

/-- a comes before b in the drover's order: promoted first, oldest promotion first, then oldest launch stamp. -/
def droverBefore (a b : Str) : Bool :=
  match a.promoted, b.promoted with
  | some x, some y => x < y
  | some _, none => true
  | none, some _ => false
  | none, none => a.stamp.toNat < b.stamp.toNat

/-- Does the drover of the string's slot choose it now (R77)? -/
def Eng.chosen (v : Eng) (place : Nat) (st : Str) : Bool :=
  v.strs.all (fun p => p.1 / 16 ≠ place / 16 || p.1 = place || !p.2.clear || !droverBefore p.2 st)

/-! ### Issue -/

/-- What an instruction meets at issue. -/
structure Act where
  e : Nat
  place : Nat
  str : Str
  grp : Group
  /-- executing lanes: active-group lanes whose predicate holds (R79) -/
  lanes : Word
  hdr : Hdr
  deriving DecidableEq, Repr

/-- Registers an instruction names: vector reads and writes, predicate reads and writes, uniform reads and writes. `ok`
is false for a register form its encoding does not allow, such as a 64-bit value in an odd register. -/
structure Use where
  rv : List Nat
  wv : List Nat
  rp : List Nat
  wp : List Nat
  ru : List Nat
  wu : List Nat
  ok : Bool
  deriving DecidableEq, Repr

def use0 : Use := ⟨[], [], [], [], [], [], true⟩

/-- n registers from r. -/
def regs (r n : Nat) : List Nat := (List.range n).map (fun i => r + i)

/-- Vector reads and one vector write. -/
def useV (reads : List (BitVec 8)) (dst : BitVec 8) : Use := { use0 with rv := reads.map BitVec.toNat, wv := [dst.toNat] }

/-- Scoreboard numbers of the registers read and written (R78). -/
def Use.all (u : Use) : List Nat :=
  u.rv ++ u.wv ++ ((u.rp ++ u.wp).map (fun r => r + 256)) ++ ((u.ru ++ u.wu).map (fun r => r + 512))
def Use.writes (u : Use) : List Nat :=
  u.wv ++ ((u.wp.filter (· ≠ 7)).map (fun r => r + 256)) ++ (u.wu.map (fun r => r + 512))

/-- Every register lies within what the string has (R69, R71). -/
def Use.legal (u : Use) (regs : Nat) : Bool :=
  u.ok && (u.rv ++ u.wv).all (· < regs) && (u.rp ++ u.wp).all (· < 8) && (u.ru ++ u.wu).all (· < 64)

/-- Lanes where the header's predicate holds (R98). -/
def Str.predLanes (st : Str) (h : Hdr) : Word :=
  let m := st.p h.pred.toNat
  if h.pneg then ~~~m else m

/-- Helper lanes of a fragment string: lanes of a quad that no coverage gave a pixel (R385). They write nothing. -/
def Str.helpers (st : Str) : List Nat :=
  match st.kind with
  | .fragment _ _ _ => (List.range 32).filter (fun i => mgetD st.coverage i 0 = 0)
  | _ => []

/-- An instruction that writes memory, for the lanes that may: helper lanes drop out, and what they would have received
in k registers from dst is open. -/
def Act.writers (a : Act) (s : State) (dst k : Nat) : Act :=
  match a.str.helpers with
  | [] => a
  | l => { a with
      lanes := a.lanes &&& ~~~BitVec.ofNat 32 (maskOf l)
      str := (l.filter (fun i => bit a.lanes.toNat i)).foldl (fun st i => st.setVn dst i k (s.peek i)) a.str }

/-- The string that a request's answer goes to. -/
def NpDest.string : NpDest → Option (Nat × Nat)
  | .load e p _ _ _ _ => some (e, p)
  | .atomic e p _ _ _ _ => some (e, p)
  | .combined e p _ _ _ _ _ => some (e, p)
  | .store e p => some (e, p)
  | .aperture _ => none
  | .other => none

/-- Requests of strings that exist no more: what answers them is not kept (R97). -/
def State.orphan (s : State) : State :=
  let f := fun (d : NpDest) => match d.string with
    | some (e, p) => if (s.str? e p).isSome then d else .other
    | none => d
  { s with
    host := { s.host with np := mmap s.host.np (fun _ q => { q with dest := f q.dest }) }
    caravan := { s.caravan with reqs := mmap s.caravan.reqs (fun _ q => { q with dest := f q.dest }) } }

/-- An engine without a command's strings, workgroups, dispatches and tensor instructions. -/
def Eng.kill (v : Eng) (q cmd : Nat) : Eng :=
  { v with
    strs := v.strs.filter (fun p => !(p.2.queue = q && p.2.cmd = cmd))
    wgs := v.wgs.filter (fun p => !(p.2.queue = q && p.2.cmd = cmd))
    disps := v.disps.filter (fun d => !(d.queue = q && d.cmd = cmd))
    tensors := v.tensors.filter (fun t => !(t.queue = q && t.cmd = cmd)) }

/-- Remove a command from an engine (R97, R487). -/
def State.killCmd (s : State) (e q cmd : Nat) : State := (s.modEng e (fun v => v.kill q cmd)).orphan

/-- Is an engine held by a forced pre-emption or a restore (R353, R355)? Nothing issues or starts on it then. -/
def State.frozen (s : State) (e : Nat) : Bool :=
  s.parts.any (fun p => bit p.2.quads.toNat (e / 4) && p.2.forcing.isSome)

/-- A dispatch retires when every workgroup has been launched, every string is Free and every tensor instruction has
completed (R315). -/
def State.checkDisp (s : State) (e q cmd : Nat) : State :=
  let v := s.eng e
  if v.disps.any (fun d => d.queue = q && d.cmd = cmd && d.total ≤ d.next)
      && v.strs.all (fun p => !(p.2.queue = q && p.2.cmd = cmd))
      && v.tensors.all (fun t => !(t.queue = q && t.cmd = cmd)) then
    (s.setEng e { v with disps := v.disps.filter (fun d => !(d.queue = q && d.cmd = cmd)) }).endCmd q cmd 0 0
  else s

/-- A string fails: the dispatch's other strings stop and it retires with the error (R97). -/
def State.trap (s : State) (e q cmd err detail : Nat) : State := (s.killCmd e q cmd).endCmd q cmd err detail

def eIllegal : Nat := 0x0101
def eMisaligned : Nat := 0x0102
def eTrap : Nat := 0x0103
def ePageFault : Nat := 0x0107
def ePoison : Nat := 0x0108
def eAtomic : Nat := 0x0109

/-- Issue one instruction of class `cls` from a string (R77 to R79, R97): nothing happens while the string cannot issue;
an encoding the rules forbid stops the dispatch; a pending register blocks the group; otherwise `body` runs on the
state in which the string has lost its promotion and the issue has been counted. -/
def State.issue (s : State) (w : Site) (h : Hdr) (cls : Nat) (legal : Bool) (u : Use) (body : Act → State → State) : Out :=
  let e := w.engine.val
  let place := w.place.val
  match s.str? e place with
  | none => .next s
  | some st =>
    match st.groups with
    | [] => .next s
    | g :: _ =>
      if !s.working || s.frozen e || st.state ≠ .ready || g.block ≠ .open || g.budget = 0 || !(s.eng e).chosen place st then .next s
      else if !legal || !u.legal st.regs then .next (s.trap e st.queue st.cmd eIllegal 0)
      else if ((h.pred.toNat + 256) :: u.all).any (fun r => st.busy.contains r) then
        .next (s.setStr e place (st.blockHead .scoreboard))
      else
        let s := ((s.bump blkCE e cls 1).progress e 1).setStr e place { st with promoted := none }
        .next (body { e := e, place := place, str := { st with promoted := none }, grp := g,
                      lanes := g.mask &&& st.predLanes h, hdr := h } s)

/-- Registers written become pending until their result arrives (R78). -/
def Str.pend (st : Str) (l : List Nat) : Str := { st with busy := dedup (st.busy ++ l) }

/-- Issue of an instruction that only changes its own string: the group advances, then `f` writes results. -/
def State.issueStr (s : State) (w : Site) (h : Hdr) (cls : Nat) (legal : Bool) (u : Use) (f : Act → Str → Str) : Out :=
  s.issue w h cls legal u (fun a s => s.setStr a.e a.place ((f a a.str.step).pend u.writes))

/-- Result of one lane function, written to DST on every executing lane. -/
def mapLanes (a : Act) (st : Str) (f : Nat → Word) : Str :=
  (lanesOf a.lanes).foldl (fun st i => st.setV a.hdr.dst.toNat i (f i)) st

/-- A per-lane instruction of class `cls` with vector sources; `ctr` is the counter of its executing lanes (R545). -/
def State.issueLane (s : State) (w : Site) (h : Hdr) (cls ctr : Nat) (u : Use) (f : Act → Nat → Word) : Out :=
  s.issue w h cls true u (fun a s =>
    (s.bump blkCE a.e ctr (lanesOf a.lanes).length).setStr a.e a.place
      ((mapLanes a a.str.step (f a)).pend u.writes))

/-- A per-lane compare that writes a predicate. -/
def State.issueSetp (s : State) (w : Site) (h : Hdr) (cls ctr : Nat) (u : Use) (pd : Nat) (f : Act → Nat → Bool) : Out :=
  s.issue w h cls true u (fun a s =>
    (s.bump blkCE a.e ctr (lanesOf a.lanes).length).setStr a.e a.place
      (((lanesOf a.lanes).foldl (fun st i => st.setP pd i (f a i)) a.str.step).pend u.writes))

/-! ### Parking (R93, R94, R195) -/

/-- The engines of the Quad of an engine. -/
def quadOf (e : Nat) : List Nat := (List.range 4).map (fun i => e / 4 * 4 + i)

/-- A string of a gang layer parks: all four banks of the Quad park (R146). -/
def State.gangPark (s : State) (e q cmd : Nat) : State :=
  if (s.eng e).disps.any (fun d => d.gang && d.queue = q && d.cmd = cmd) then
    (quadOf e).foldl (fun s m => s.modEng m (fun v => { v with gangParked := true })) s
  else s

/-- The whole string parks at its instruction; it waits for a free record where there is none. -/
def State.park (s : State) (a : Act) (kind : Nat) (acc : Acc) (va level detail heap growKey : Nat) : State :=
  let (asid, convoy, wb, seq) := s.ctxOf a.str.queue a.str.cmd
  let (id, s) := s.raiseFault { asid := asid, kind := kind, acc := acc, va := va, waybill := wb, seq := seq, agent := 0
                                unit := a.e, queue := a.str.queue, level := level, heap := heap, detail := detail
                                growKey := growKey, convoy := convoy }
  (s.modStr a.e a.place (fun st => { st with state := .parked id })).gangPark a.e a.str.queue a.str.cmd

/-- A lane's address after translation. -/
structure LaneAddr where
  lane : Nat
  va : Nat
  target : Nat
  pa : Nat
  pol : Nat
  ro : Bool
  die : Nat
  deriving DecidableEq, Repr

/-- Translate the addresses of all executing lanes; the lowest faulting address stops the instruction (R93, R197). -/
def State.translateLanes (s : State) (a : Act) (addrs : List (Nat × Nat)) (acc : Acc) :
    (Except (Nat × Nat × Nat × Nat) (List LaneAddr)) × State :=
  let asid := (s.ctxOf a.str.queue a.str.cmd).1
  addrs.foldl (fun r p =>
    match r.2.translate a.e asid p.2 acc with
    | (.ok t pa pol ro die, s) =>
      (match r.1 with
       | .ok l => .ok (l ++ [⟨p.1, p.2, t, pa, pol, ro, die⟩])
       | .error x => .error x, s)
    | (.fault k lv pte, s) =>
      (match r.1 with
       | .error (k', lv', pte', va') => if p.2 < va' then .error (k, lv, pte, p.2) else .error (k', lv', pte', va')
       | .ok _ => .error (k, lv, pte, p.2), s)) (.ok [], s)

end Sys2Proof.Machine
end

