-- ==== Sys2Proof/Machine/StringControl.lean ====
section
/-! DEFINITION. String control, class 0x9 (R80, R81, R97, R100), and the drover's own events: promotion, budget expiry,
sleep expiry, the scoreboard's release. -/

namespace Sys2Proof.Machine

/-- Branch target: PC + 8 + 8 × OFFSET (R100). -/
def branchTarget (pc : Dword) (low : BitVec 26) : Dword := pc + 8 + 8 * low.signExtend 64

/-- Lanes in `taken` go to their own addresses and the other lanes of the group fall through (R80). -/
def State.jumpLanes (s : State) (a : Act) (taken : List (Nat × Dword)) (f : Str → Str) : State :=
  let addrs := taken.map (fun p => p.2) ++ [a.grp.pc + 8]
  let maskFor := fun (pc : Dword) => BitVec.ofNat 32 (maskOf (((lanesOf a.grp.mask).filter (fun i =>
    match taken.find? (fun p => p.1 = i) with
    | some p => p.2 = pc
    | none => a.grp.pc + 8 = pc))))
  let pcs := addrs.foldl (fun l pc => if l.contains pc then l else l ++ [pc]) []
  let dest := (pcs.map (fun pc => (pc, maskFor pc))).filter (fun d => d.2 ≠ 0)
  let s := if 1 < dest.length then s.bump blkCE a.e 0x020 1 else s
  s.setStr a.e a.place (f (a.str.split dest))

/-- BRA (R100). -/
def execBra (w : Site) (h : Hdr) (low : BitVec 26) (s : State) : Out :=
  s.issue w h 9 true use0 (fun a s =>
    s.jumpLanes a ((lanesOf a.lanes).map (fun i => (i, branchTarget a.grp.pc low))) id)

/-- A jump to the address in the SRC0 pair: misaligned targets stop the dispatch (R100). -/
def State.jumpIndirect (s : State) (a : Act) (f : Str → Str) : State :=
  let t := (lanesOf a.lanes).map (fun i => (i, BitVec.ofNat 64 (a.str.v2 a.hdr.src0.toNat i)))
  if t.any (fun p => p.2.toNat % 8 ≠ 0) then s.trap a.e a.str.queue a.str.cmd eMisaligned 0 else s.jumpLanes a t f

/-- Uses of a 64-bit register pair: even, both registers (R98). -/
def usePair (r : BitVec 8) : Use := { use0 with rv := regs r.toNat 2, ok := r.toNat % 2 = 0 }

/-- JMP (R100). -/
def execJmp (w : Site) (h : Hdr) (low : BitVec 26) (s : State) : Out :=
  s.issue w h 9 (low = 0) (usePair h.src0) (fun a s => s.jumpIndirect a id)

/-- The link of CALL and CALLI: PC + 8 in the DST pair of the executing lanes. -/
def linkLanes (a : Act) (st : Str) : Str :=
  ((lanesOf a.lanes).foldl (fun st i => st.setV2 a.hdr.dst.toNat i (a.grp.pc + 8).toNat) st).pend (regs a.hdr.dst.toNat 2)

/-- CALL (R100). -/
def execCall (w : Site) (h : Hdr) (low : BitVec 26) (s : State) : Out :=
  s.issue w h 9 true { use0 with wv := regs h.dst.toNat 2, ok := h.dst.toNat % 2 = 0 } (fun a s =>
    s.jumpLanes a ((lanesOf a.lanes).map (fun i => (i, branchTarget a.grp.pc low))) (linkLanes a))

/-- CALLI (R100). -/
def execCalli (w : Site) (h : Hdr) (low : BitVec 26) (s : State) : Out :=
  s.issue w h 9 (low = 0) { usePair h.src0 with wv := regs h.dst.toNat 2, ok := h.src0.toNat % 2 = 0 && h.dst.toNat % 2 = 0 }
    (fun a s => s.jumpIndirect a (linkLanes a))

/-! ### Barriers: what EXIT and BAR.* share (R84, R85) -/

/-- Phase completion of a barrier of a workgroup: it resets, and every group blocked on it opens. -/
def State.completeBar (s : State) (e wg b : Nat) : State :=
  s.modEng e (fun v => { v with
    wgs := mmod v.wgs wg (fun g => { g with bars := merase g.bars b })
    strs := mmap v.strs (fun _ st => if st.wg = wg then st.unblock (fun x => x = .barrier b) else st) })

/-- Has a barrier's count reached its expected count, less the threads that have exited (R84)? -/
def Wg.reached (g : Wg) (b : Nat) : Bool :=
  match mget g.bars b with
  | some { count := c, expected := some x } => x - g.exited ≤ c
  | _ => false

/-- Complete every barrier of the workgroup that has reached its count. -/
def State.checkBars (s : State) (e wg : Nat) : State :=
  loop 16 s (fun s b => match s.wg? e wg with
    | some g => if g.reached b then s.completeBar e wg b else s
    | none => s)

/-- n threads arrive at barrier b with an expected count (0: the workgroup's thread count); with inconsistent counts the
first one reached completes the phase (R84, R86). -/
def State.arrive (s : State) (e wg b n expected : Nat) : State :=
  match s.wg? e wg with
  | none => s
  | some g =>
    let x := if expected = 0 then g.threads else expected
    let old := mgetD g.bars b { count := 0, expected := none }
    let y := match old.expected with | some z => min z x | none => x
    (s.setWg e wg { g with bars := mset g.bars b { count := old.count + n, expected := some y } }).checkBars e wg

/-- What a lane of a vertex string leaves (R385): v2-v5, then four registers per attribute from v6. -/
def Str.vertexOut (st : Str) (i attrs : Nat) : Vertex :=
  { x := st.v 2 i, y := st.v 3 i, z := st.v 4 i, w := st.v 5 i
    attrs := (List.range (4 * attrs)).map (fun k => st.v (6 + k) i) }

/-- What a lane of a fragment string leaves for its pixel (R385): from v2, four words per colour attachment in use, then
depth where FS_DEPTH is set; p6 discards. -/
def Str.fragOut (st : Str) (i order prim colors pixel : Nat) (fsDepth : Bool) : Shaded :=
  { order := order, prim := prim, x := pixel % 65536, y := pixel / 65536
    colors := (List.range colors).map (fun c => (List.range 4).map (fun k => st.v (2 + 4 * c + k) i))
    depth := if fsDepth then st.v (2 + 4 * colors) i else 0, discarded := bit (st.p 6).toNat i }

/-- Colour attachments in use of a PASS_BEGIN payload. -/
def colorsUsed (p : List Byte) : List Nat := (List.range 4).filter (fun k => getLe p (0x28 + 16 * k + 0xC) 1 ≠ 0)

/-- The outputs of lanes of a graphics string, taken as they execute EXIT (R385); helper lanes leave none. -/
def State.collect (s : State) (st : Str) (lanes : List Nat) : State :=
  match st.kind with
  | .compute => s
  | .vertex pass order => { s with passes := mmod s.passes pass (fun p => { p with draws := p.draws.map (fun (d : DrawRec) =>
      if getLe d.payload 0 4 = order && d.queue = st.queue && d.cmd = st.cmd then
        { d with outs := lanes.foldl (fun m i => match mget st.pixels i with
            | some k => mset m k (st.vertexOut i (getLe d.payload 0x34 1))
            | none => m) d.outs }
      else d) }) }
  | .fragment pass order prim => { s with passes := mmod s.passes pass (fun p =>
      let fsDepth := match p.draws.find? (fun d => getLe d.payload 0 4 = order) with
        | some d => bit (getLe d.payload 0x31 1) 1
        | none => false
      let new := lanes.filterMap (fun i => match mget st.pixels i, mgetD st.coverage i 0 with
        | some px, c => if c = 0 then none else some (st.fragOut i order prim (colorsUsed p.payload).length px fsDepth)
        | none, _ => none)
      { p with frags := p.frags ++ new }) }

/-- EXIT: the executing threads end (R73, R80, R84). -/
def execExit (w : Site) (h : Hdr) (low : BitVec 26) (s : State) : Out :=
  s.issue w h 9 (low = 0) use0 (fun a s =>
    let n := (lanesOf a.lanes).length
    let st := a.str.step.modHead (fun g => { g with mask := g.mask &&& ~~~a.lanes })
    let st := { st with live := st.live &&& ~~~a.lanes, groups := st.groups.filter (fun g => g.mask ≠ 0) }
    let st := match st.groups with
      | [] => st.settle
      | g :: _ => if a.grp.mask &&& ~~~a.lanes = 0 then
          (if g.block = .open then { st with groups := activate st.groups, state := .ready } else st.settle) else st
    let s := (s.setStr a.e a.place st).collect a.str (lanesOf a.lanes)
    match s.wg? a.e a.str.wg with
    | some g => (s.setWg a.e a.str.wg { g with exited := g.exited + n }).checkBars a.e a.str.wg
    | none => s)

/-- JOIN: the group yields when another group of its string has a lower program counter (R81). -/
def execJoin (w : Site) (h : Hdr) (low : BitVec 26) (s : State) : Out :=
  s.issue w h 9 (low = 0) use0 (fun a s =>
    let behind := a.str.groups.tail.any (fun g => g.pc.toNat < a.grp.pc.toNat)
    let st := a.str.step
    s.setStr a.e a.place (if behind && a.lanes ≠ 0 then st.giveWay else st))

/-- YIELD (R81). -/
def execYield (w : Site) (h : Hdr) (low : BitVec 26) (s : State) : Out :=
  s.issue w h 9 (low = 0) use0 (fun a s =>
    s.setStr a.e a.place (if a.lanes ≠ 0 then a.str.step.giveWay else a.str.step))

/-- SLEEP: not eligible for 16 × count CCLK (R100). -/
def execSleep (w : Site) (h : Hdr) (low : BitVec 26) (s : State) : Out :=
  s.issue w h 9 (bits low.toNat 25 16 = 0) use0 (fun a s =>
    let n := bits low.toNat 15 0
    s.setStr a.e a.place (if n = 0 || a.lanes = 0 then a.str.step else a.str.step.blockHead (.sleep n)))

/-- GMASK: the active group's lane mask in DST (R100). -/
def execGmask (w : Site) (h : Hdr) (low : BitVec 26) (s : State) : Out :=
  s.issueStr w h 9 (low = 0) (useV [] h.dst) (fun a st => mapLanes a st (fun _ => a.grp.mask))

/-- TRAP: the dispatch retires with E_STRING_TRAP and the trap code (R97). -/
def execTrap (w : Site) (h : Hdr) (low : BitVec 26) (s : State) : Out :=
  s.issue w h 9 (bits low.toNat 25 16 = 0) use0 (fun a s =>
    if a.lanes = 0 then s.setStr a.e a.place a.str.step
    else s.trap a.e a.str.queue a.str.cmd eTrap (bits low.toNat 15 0))

/-- NOP (R100). -/
def execNop (w : Site) (h : Hdr) (low : BitVec 26) (s : State) : Out :=
  s.issueStr w h 9 (low = 0) use0 (fun _ st => st)

/-! ### Events of the drover -/

/-- STRING_PROMOTION: a ready string that has not issued for 128 CCLK is promoted (R77). -/
def execStringPromotion (w : Site) (s : State) : Out :=
  let e := w.engine.val
  match s.str? e w.place.val with
  | none => .next s
  | some st =>
    if s.working && st.state = .ready && st.promoted.isNone then
      let n := (s.eng e).promotions
      .next ((s.setStr e w.place.val { st with promoted := some n }).modEng e (fun v => { v with promotions := n + 1 }))
    else .next s

/-- BUDGET_EXPIRY: the active group has spent its budget and gives way (R81). -/
def execBudgetExpiry (w : Site) (s : State) : Out :=
  let e := w.engine.val
  match s.str? e w.place.val with
  | none => .next s
  | some st =>
    match st.groups with
    | [] => .next s
    | g :: _ =>
      if s.working && g.budget = 0 && st.state = .ready then
        .next ((s.bump blkCE e 0x021 1).setStr e w.place.val st.giveWay)
      else .next s

/-- SLEEP_EXPIRY: the sleeping group at a program counter becomes eligible again (R100). -/
def execSleepExpiry (w : Site) (pc : Dword) (s : State) : Out :=
  let e := w.engine.val
  match s.str? e w.place.val with
  | none => .next s
  | some st =>
    if !s.working then .next s else
    let wake := fun (g : Group) => if g.pc = pc then (match g.block with | .sleep _ => { g with block := .open } | _ => g) else g
    .next (s.setStr e w.place.val { st with groups := st.groups.map wake }.settle)

/-- Does a request toward the host or another die still owe this register of the string? -/
def State.owes (s : State) (e place reg : Nat) : Bool :=
  let f := fun (d : NpDest) => match d with
    | .load e' p' dst _ w _ => e' = e && p' = place && dst ≤ reg && reg < dst + (w + 3) / 4
    | .atomic e' p' dst _ w r => r && e' = e && p' = place && dst ≤ reg && reg < dst + (w + 3) / 4
    | .combined e' p' dst _ w _ r => r && e' = e && p' = place && dst ≤ reg && reg < dst + (if w = 1 then 2 else 1)
    | _ => false
  s.host.np.any (fun p => f p.2.dest) || s.caravan.reqs.any (fun p => f p.2.dest)

/-- SCOREBOARD_RELEASE: a pending result arrives; groups blocked on the scoreboard become eligible (R75, R78). -/
def execScoreboardRelease (w : Site) (reg : Fin 576) (s : State) : Out :=
  let e := w.engine.val
  match s.str? e w.place.val with
  | none => .next s
  | some st =>
    if !s.working || s.owes e w.place.val reg.val then .next s else
    let st := { st with busy := st.busy.filter (· ≠ reg.val) }
    .next (s.setStr e w.place.val (st.unblock (fun b => b = .scoreboard)))

end Sys2Proof.Machine
end

