-- ==== Sys2Proof/Machine/Sync.lean ====
section
/-! DEFINITION. Synchronisation, class 0x8 (R84 to R88, R101, R176 to R179). -/

namespace Sys2Proof.Machine

/-- Fields of BAR.SYNC and BAR.ARRIVE are legal (R101). -/
def barLegal (low : BitVec 26) : Bool := bits low.toNat 21 11 ≤ 1024 && bits low.toNat 10 0 = 0

/-- BAR.SYNC: arrive, then block until the phase completes (R85). -/
def execBarSync (w : Site) (h : Hdr) (low : BitVec 26) (s : State) : Out :=
  s.issue w h 8 (barLegal low) use0 (fun a s =>
    let b := bits low.toNat 25 22
    if a.lanes = 0 then s.setStr a.e a.place a.str.step
    else (s.setStr a.e a.place (a.str.step.blockHead (.barrier b))).arrive a.e a.str.wg b (lanesOf a.lanes).length
      (bits low.toNat 21 11))

/-- BAR.ARRIVE: arrive without blocking (R85). -/
def execBarArrive (w : Site) (h : Hdr) (low : BitVec 26) (s : State) : Out :=
  s.issue w h 8 (barLegal low) use0 (fun a s =>
    let s := s.setStr a.e a.place a.str.step
    if a.lanes = 0 then s
    else s.arrive a.e a.str.wg (bits low.toNat 25 22) (lanesOf a.lanes).length (bits low.toNat 21 11))

/-- BAR.WAIT: block until the phase of the lanes' last arrival completes, or the next phase where they have not arrived
since the last completion; both are the barrier's next completion (R85, log entry 11). -/
def execBarWait (w : Site) (h : Hdr) (low : BitVec 26) (s : State) : Out :=
  s.issue w h 8 (bits low.toNat 21 0 = 0) use0 (fun a s =>
    s.setStr a.e a.place (if a.lanes = 0 then a.str.step
      else a.str.step.blockHead (.barrier (bits low.toNat 25 22))))

/-- Source lane of SHFL and whether it lies in the segment (R87). -/
def shflSource (mode i k width : Nat) : Nat × Bool :=
  let seg := i - i % width
  match mode with
  | 0 => (seg + k % width, true)
  | 1 => (i - k, k ≤ i && seg ≤ i - k)
  | 2 => (i + k, i + k < seg + width)
  | _ => (i ^^^ (k % 2 ^ 32), seg ≤ (i ^^^ k) && (i ^^^ k) < seg + width)

/-- SHFL (R87, R101). -/
def execShfl (w : Site) (h : Hdr) (low : BitVec 26) (s : State) : Out :=
  let f := low.toNat
  let pd := bits f 14 12
  let imm := bit f 23
  let u : Use := { useV ([h.src0] ++ if imm then [] else [h.src1]) h.dst with wp := [pd] }
  s.issueStr w h 8 (bits f 17 15 ≤ 5 && bits f 11 0 = 0) u (fun a st =>
    (lanesOf a.lanes).foldl (fun st i =>
      let k := if imm then bits f 22 18 else (a.str.v h.src1.toNat i).toNat
      let (src, inSeg) := shflSource (bits f 25 24) i k (2 ^ bits f 17 15)
      let valid := inSeg && bit a.grp.mask.toNat src
      (st.setV h.dst.toNat i (a.str.v h.src0.toNat (if valid then src else i))).setP pd i valid) st)

/-- VOTE (R88, R101). -/
def execVote (w : Site) (h : Hdr) (low : BitVec 26) (s : State) : Out :=
  let f := low.toNat
  let mode := bits f 25 24
  let tp := bits f 23 21
  let pd := bits f 17 15
  let u : Use := { use0 with
    rv := if mode = 2 then [h.src0.toNat] else [], rp := [tp]
    wv := if mode = 3 then [h.dst.toNat] else [], wp := if mode = 3 then [] else [pd] }
  s.issueStr w h 8 (bits f 19 18 = 0 && bits f 14 0 = 0) u (fun a st =>
    let ls := lanesOf a.lanes
    let holds := fun (i : Nat) => bit (a.str.p tp).toNat i != bit f 20
    if mode = 3 then mapLanes a st (fun _ => BitVec.ofNat 32 (maskOf (ls.filter holds)))
    else
      let r := voteBit mode (ls.map holds) (ls.map (fun i => (a.str.v h.src0.toNat i).toNat))
      ls.foldl (fun st i => st.setP pd i r) st)

/-- The L1 of an engine drops every line but those of read-only pages (R179). -/
def State.acquire (s : State) (e : Nat) : State :=
  s.modEng e (fun v => { v with l1 := v.l1.filter (fun p => p.2.readOnly) })

/-- Does a store or atomic of the string still wait for its acknowledgement (R179)? -/
def State.unacked (s : State) (e place : Nat) : Bool :=
  let f := fun (d : NpDest) => match d with
    | .store e' p' => e' = e && p' = place
    | .atomic e' p' _ _ _ _ => e' = e && p' = place
    | .combined e' p' _ _ _ _ _ => e' = e && p' = place
    | _ => false
  s.host.np.any (fun p => f p.2.dest) || s.caravan.reqs.any (fun p => f p.2.dest)

/-- Release at a scope wider than the engine: the group waits while acknowledgements are owed (R179). -/
def State.releaseWait (s : State) (e place : Nat) : State :=
  if s.unacked e place then s.modStr e place (fun st => st.blockHead .release) else s

/-- FENCE (R101, R179): engine scope needs nothing further; a wider release waits, a wider acquire invalidates the L1. -/
def execFence (w : Site) (h : Hdr) (low : BitVec 26) (s : State) : Out :=
  let scope := bits low.toNat 25 24
  let order := bits low.toNat 23 22
  s.issue w h 8 (order ≠ 0 && bits low.toNat 21 0 = 0) use0 (fun a s =>
    let s := s.setStr a.e a.place a.str.step
    if a.lanes = 0 || scope = 0 then s
    else
      let s := if bit order 0 then s.acquire a.e else s
      if bit order 1 then s.releaseWait a.e a.place else s)

end Sys2Proof.Machine
end

