-- ==== Sys2Proof/Machine/Alu.lean ====
section
/-! DEFINITION. Integer, floating-point and uniform ALU instructions and conversion, classes 0x0 to 0x3 (R52, R55, R56,
R105). Every result is computed from the operands at issue and is pending until SCOREBOARD_RELEASE. -/

namespace Sys2Proof.Machine

/-! ### Integer ALU -/

def ctrInt : Nat := 0x012
def ctrFp32 : Nat := 0x010
def ctrFp16 : Nat := 0x011
def ctrXcnd : Nat := 0x013
def ctrCvt : Nat := 0x014

/-- SRC0 and SRC1 of a lane. -/
def Act.a0 (a : Act) (i : Nat) : Word := a.str.v a.hdr.src0.toNat i
def Act.a1 (a : Act) (i : Nat) : Word := a.str.v a.hdr.src1.toNat i

/-- A two-source integer instruction. -/
def State.int2 (s : State) (w : Site) (h : Hdr) (f : Word → Word → Word) : Out :=
  s.issueLane w h 0 ctrInt (useV [h.src0, h.src1] h.dst) (fun a i => f (a.a0 i) (a.a1 i))

/-- A one-source integer instruction. -/
def State.int1 (s : State) (w : Site) (h : Hdr) (f : Word → Word) : Out :=
  s.issueLane w h 0 ctrInt (useV [h.src0] h.dst) (fun a i => f (a.a0 i))

def execIadd (w : Site) (h : Hdr) (s : State) : Out := s.int2 w h (fun x y => x + y)
def execIsub (w : Site) (h : Hdr) (s : State) : Out := s.int2 w h (fun x y => x - y)
def execAnd (w : Site) (h : Hdr) (s : State) : Out := s.int2 w h (fun x y => x &&& y)
def execOr (w : Site) (h : Hdr) (s : State) : Out := s.int2 w h (fun x y => x ||| y)
def execXor (w : Site) (h : Hdr) (s : State) : Out := s.int2 w h (fun x y => x ^^^ y)
def execNot (w : Site) (h : Hdr) (s : State) : Out := s.int1 w h (fun x => ~~~x)

/-- Shift counts are taken modulo 32 (R105). -/
def execShl (w : Site) (h : Hdr) (s : State) : Out := s.int2 w h (fun x y => x <<< (y.toNat % 32))
def execShr (w : Site) (h : Hdr) (s : State) : Out := s.int2 w h (fun x y => x >>> (y.toNat % 32))
def execSar (w : Site) (h : Hdr) (s : State) : Out := s.int2 w h (fun x y => x.sshiftRight (y.toNat % 32))

/-- Minimum or maximum, signed or unsigned. -/
def minMaxWord (sgn mx : Bool) (x y : Word) : Word :=
  let less := if sgn then x.toInt < y.toInt else x.toNat < y.toNat
  if less = mx then y else x

def execImin (w : Site) (h : Hdr) (sgn : Bool) (s : State) : Out := s.int2 w h (minMaxWord sgn false)
def execImax (w : Site) (h : Hdr) (sgn : Bool) (s : State) : Out := s.int2 w h (minMaxWord sgn true)

/-- Leading zeros of a 32-bit word. -/
def clz32 (x : Word) : Nat := if x = 0 then 32 else 31 - log2 x.toNat

/-- Bit reverse of a 32-bit word. -/
def brev32 (x : Word) : Word := BitVec.ofNat 32 (maskOf ((bitList x.toNat 32).map (fun i => 31 - i)))

def execPopc (w : Site) (h : Hdr) (s : State) : Out := s.int1 w h (fun x => BitVec.ofNat 32 (popCount x.toNat 32))
def execClz (w : Site) (h : Hdr) (s : State) : Out := s.int1 w h (fun x => BitVec.ofNat 32 (clz32 x))
def execBrev (w : Site) (h : Hdr) (s : State) : Out := s.int1 w h brev32

/-- A lane function that may need a free value: the n-th lane takes the n-th (log entry 2). -/
def State.issueFree (s : State) (w : Site) (h : Hdr) (cls ctr : Nat) (u : Use) (f : Act → Nat → Nat → Word) : Out :=
  s.issue w h cls true u (fun a s =>
    let base := s.clk.fresh
    ((s.bump blkCE a.e ctr (lanesOf a.lanes).length).drew 32).setStr a.e a.place
      ((mapLanes a a.str.step (fun i => f a i (Config.freeNat (base + i)))).pend u.writes))

/-- Bit-field extract: `n` bits from bit `o`; a field that leaves the word has no stated value (log entry 6). -/
def bfe32 (sgn : Bool) (x : Word) (o n free : Nat) : Word :=
  if 32 < o + n then BitVec.ofNat 32 free
  else if n = 0 then 0
  else
    let v := bits x.toNat (o + n - 1) o
    if sgn then BitVec.ofInt 32 (sext n v) else BitVec.ofNat 32 v

/-- Bit-field insert: the low `n` bits of `y` replace bits from `o` of `x`. -/
def bfi32 (x y : Word) (o n free : Nat) : Word :=
  if 32 < o + n then BitVec.ofNat 32 free
  else
    let m := (2 ^ n - 1) * 2 ^ o
    BitVec.ofNat 32 (x.toNat - (x.toNat &&& m) + (y.toNat % 2 ^ n) * 2 ^ o)

/-- BFE: value SRC0, offset SRC1, count SRC2. -/
def execBfe (w : Site) (h : Hdr) (src2 : BitVec 8) (sgn : Bool) (s : State) : Out :=
  s.issueFree w h 0 ctrInt (useV [h.src0, h.src1, src2] h.dst) (fun a i f =>
    bfe32 sgn (a.a0 i) (a.a1 i).toNat (a.str.v src2.toNat i).toNat f)

/-- BFI: base SRC0, inserted bits SRC1, offset SRC2, count SRC3. -/
def execBfi (w : Site) (h : Hdr) (src2 src3 : BitVec 8) (s : State) : Out :=
  s.issueFree w h 0 ctrInt (useV [h.src0, h.src1, src2, src3] h.dst) (fun a i f =>
    bfi32 (a.a0 i) (a.a1 i) (a.str.v src2.toNat i).toNat (a.str.v src3.toNat i).toNat f)

/-- ISETP: a predicate per executing lane. -/
def execIsetp (w : Site) (h : Hdr) (cmp : Cmp) (sgn : Bool) (pd : BitVec 3) (s : State) : Out :=
  s.issueSetp w h 0 ctrInt { use0 with rv := [h.src0.toNat, h.src1.toNat], wp := [pd.toNat] } pd.toNat (fun a i =>
    cmpWord 32 cmp sgn (a.a0 i).toNat (a.a1 i).toNat)

/-- SEL: SRC0 where the selecting predicate holds, else SRC1. -/
def execSel (w : Site) (h : Hdr) (ps : BitVec 3) (inv : Bool) (s : State) : Out :=
  s.issueLane w h 0 ctrInt { useV [h.src0, h.src1] h.dst with rp := [ps.toNat] } (fun a i =>
    if bit (a.str.p ps.toNat).toNat i != inv then a.a0 i else a.a1 i)

/-- MOV. -/
def execMov (w : Site) (h : Hdr) (src : Src) (s : State) : Out :=
  let u : Use := match src with
    | .reg r => useV [r] h.dst
    | .uni r => { useV [] h.dst with ru := [r.val] }
    | .imm _ => useV [] h.dst
  s.issueLane w h 0 ctrInt u (fun a i => match src with
    | .reg r => a.str.v r.toNat i
    | .uni r => (a.str.u r.val).truncate 32
    | .imm x => x)

/-- IMAD: low 32 bits of the exact product plus SRC2. -/
def execImad (w : Site) (h : Hdr) (src2 : BitVec 8) (s : State) : Out :=
  s.issueLane w h 0 ctrInt (useV [h.src0, h.src1, src2] h.dst) (fun a i => a.a0 i * a.a1 i + a.str.v src2.toNat i)

/-- High 32 bits of the exact product. -/
def mulHi (sgn : Bool) (x y : Word) : Word :=
  if sgn then BitVec.ofInt 32 (x.toInt * y.toInt / 2 ^ 32) else BitVec.ofNat 32 (x.toNat * y.toNat / 2 ^ 32)

def execImulHi (w : Site) (h : Hdr) (sgn : Bool) (s : State) : Out := s.int2 w h (mulHi sgn)

/-! ### Floating-point ALU (R52) -/

/-- A binary32 operation on codes. -/
def State.flt2 (s : State) (w : Site) (h : Hdr) (f : Nat → Nat → Nat) : Out :=
  s.issueLane w h 1 ctrFp32 (useV [h.src0, h.src1] h.dst) (fun a i =>
    BitVec.ofNat 32 (f (a.a0 i).toNat (a.a1 i).toNat))

def State.flt1 (s : State) (w : Site) (h : Hdr) (f : Nat → Nat) : Out :=
  s.issueLane w h 1 ctrFp32 (useV [h.src0] h.dst) (fun a i => BitVec.ofNat 32 (f (a.a0 i).toNat))

def execFadd (w : Site) (h : Hdr) (s : State) : Out := s.flt2 w h fmtFP32.fadd
def execFmul (w : Site) (h : Hdr) (s : State) : Out := s.flt2 w h fmtFP32.fmul
def execFmin (w : Site) (h : Hdr) (s : State) : Out := s.flt2 w h fmtFP32.fmin
def execFmax (w : Site) (h : Hdr) (s : State) : Out := s.flt2 w h fmtFP32.fmax
def execFabs (w : Site) (h : Hdr) (s : State) : Out := s.flt1 w h fmtFP32.fabs
def execFneg (w : Site) (h : Hdr) (s : State) : Out := s.flt1 w h fmtFP32.fneg

/-- FFMA: fused, one rounding. -/
def execFfma (w : Site) (h : Hdr) (src2 : BitVec 8) (s : State) : Out :=
  s.issueLane w h 1 ctrFp32 (useV [h.src0, h.src1, src2] h.dst) (fun a i =>
    BitVec.ofNat 32 (fmtFP32.ffma (a.a0 i).toNat (a.a1 i).toNat (a.str.v src2.toNat i).toNat))

/-- FSETP. -/
def execFsetp (w : Site) (h : Hdr) (cmp : Cmp) (pd : BitVec 3) (s : State) : Out :=
  s.issueSetp w h 1 ctrFp32 { use0 with rv := [h.src0.toNat, h.src1.toNat], wp := [pd.toNat] } pd.toNat (fun a i =>
    cmpFlt cmp (fmtFP32.decode (a.a0 i).toNat) (fmtFP32.decode (a.a1 i).toNat))

/-- Packed binary16 instructions count two elements a lane (R545). -/
def State.half (s : State) (w : Site) (h : Hdr) (u : Use) (f : Act → Nat → Nat) : Out :=
  s.issue w h 1 true u (fun a s =>
    (s.bump blkCE a.e ctrFp16 (2 * (lanesOf a.lanes).length)).setStr a.e a.place
      ((mapLanes a a.str.step (fun i => BitVec.ofNat 32 (f a i))).pend u.writes))

def execHadd2 (w : Site) (h : Hdr) (s : State) : Out :=
  s.half w h (useV [h.src0, h.src1] h.dst) (fun a i => packed fmtFP16.fadd (a.a0 i).toNat (a.a1 i).toNat)
def execHmul2 (w : Site) (h : Hdr) (s : State) : Out :=
  s.half w h (useV [h.src0, h.src1] h.dst) (fun a i => packed fmtFP16.fmul (a.a0 i).toNat (a.a1 i).toNat)
def execHfma2 (w : Site) (h : Hdr) (src2 : BitVec 8) (s : State) : Out :=
  s.half w h (useV [h.src0, h.src1, src2] h.dst) (fun a i =>
    packed3 fmtFP16.ffma (a.a0 i).toNat (a.a1 i).toNat (a.str.v src2.toNat i).toNat)

/-- A transcendental instruction: a free value within the bound of R105. -/
def State.xcnd (s : State) (w : Site) (h : Hdr) (f : Nat → Nat → Nat) : Out :=
  s.issueFree w h 1 ctrXcnd (useV [h.src0] h.dst) (fun a i c => BitVec.ofNat 32 (f (a.a0 i).toNat c))

def execRcp (w : Site) (h : Hdr) (s : State) : Out := s.xcnd w h fRcp
def execRsq (w : Site) (h : Hdr) (s : State) : Out := s.xcnd w h fRsq
def execSqrt (w : Site) (h : Hdr) (s : State) : Out := s.xcnd w h fSqrt
def execExp2 (w : Site) (h : Hdr) (s : State) : Out := s.xcnd w h fExp2
def execLog2 (w : Site) (h : Hdr) (s : State) : Out := s.xcnd w h fLog2
def execSin (w : Site) (h : Hdr) (s : State) : Out := s.xcnd w h (fTrig false)
def execCos (w : Site) (h : Hdr) (s : State) : Out := s.xcnd w h (fTrig true)

/-! ### Uniform ALU: one result per string (R105) -/

/-- A uniform instruction: DST, SRC0, SRC1 name uniform registers; with no executing lane it does nothing (R98). -/
def State.uni2 (s : State) (w : Site) (h : Hdr) (f : Dword → Dword → Dword) : Out :=
  let u : Use := { use0 with ru := [h.src0.toNat, h.src1.toNat], wu := [h.dst.toNat] }
  s.issueStr w h 2 true u (fun a st =>
    if a.lanes = 0 then st else st.setU h.dst.toNat (f (a.str.u h.src0.toNat) (a.str.u h.src1.toNat)))

def execUadd (w : Site) (h : Hdr) (s : State) : Out := s.uni2 w h (fun x y => x + y)
def execUsub (w : Site) (h : Hdr) (s : State) : Out := s.uni2 w h (fun x y => x - y)
def execUmul (w : Site) (h : Hdr) (s : State) : Out := s.uni2 w h (fun x y => x * y)
def execUand (w : Site) (h : Hdr) (s : State) : Out := s.uni2 w h (fun x y => x &&& y)
def execUor (w : Site) (h : Hdr) (s : State) : Out := s.uni2 w h (fun x y => x ||| y)
def execUxor (w : Site) (h : Hdr) (s : State) : Out := s.uni2 w h (fun x y => x ^^^ y)

/-- A uniform shift; for counts of 64 or more the spec states no result: a free value (log entry 6). -/
def State.ushift (s : State) (w : Site) (h : Hdr) (f : Dword → Nat → Dword) : Out :=
  let u : Use := { use0 with ru := [h.src0.toNat, h.src1.toNat], wu := [h.dst.toNat] }
  s.issue w h 2 true u (fun a s =>
    let n := (a.str.u h.src1.toNat).toNat
    let r := if n < 64 then f (a.str.u h.src0.toNat) n else BitVec.ofNat 64 (s.peek 0)
    (s.drew 1).setStr a.e a.place ((if a.lanes = 0 then a.str.step else a.str.step.setU h.dst.toNat r).pend u.writes))

def execUshl (w : Site) (h : Hdr) (s : State) : Out := s.ushift w h (fun x n => x <<< n)
def execUshr (w : Site) (h : Hdr) (s : State) : Out := s.ushift w h (fun x n => x >>> n)

/-- UMOV. -/
def execUmov (w : Site) (h : Hdr) (src : USrc) (s : State) : Out :=
  let u : Use := { use0 with ru := (match src with | .uni r => [r.val] | .imm _ => []), wu := [h.dst.toNat] }
  s.issueStr w h 2 true u (fun a st =>
    if a.lanes = 0 then st
    else st.setU h.dst.toNat (match src with | .uni r => a.str.u r.val | .imm x => x))

/-- USETP: one comparison, written to the predicate of every executing lane. -/
def execUsetp (w : Site) (h : Hdr) (cmp : Cmp) (sgn : Bool) (pd : BitVec 3) (s : State) : Out :=
  let u : Use := { use0 with ru := [h.src0.toNat, h.src1.toNat], wp := [pd.toNat] }
  s.issueStr w h 2 true u (fun a st =>
    let r := cmpWord 64 cmp sgn (a.str.u h.src0.toNat).toNat (a.str.u h.src1.toNat).toNat
    (lanesOf a.lanes).foldl (fun st i => st.setP pd.toNat i r) st)

/-! ### Conversion (R55, R56): one element a lane; an MX block is the executing lanes of an aligned run of 32 or 16 lanes,
with its scale in SRC1 (source) and in DST + 1 (destination) (log entry 7) -/

/-- Rounding mode of an encoding, with the number drawn for stochastic rounding (R53, R54). -/
def rmodeOf (rm r : Nat) : RMode := if rm = 0 then .rne else if rm = 1 then .rtz else .sr (r % 65536)

/-- CVT. -/
def execCvt (w : Site) (h : Hdr) (c : CvtMode) (s : State) : Out :=
  match codeOf c.src.toNat, codeOf c.dst.toNat with
  | some src, some dst =>
    let legal := c.rm ≠ 3 && (src.isInt || !c.srcUns) && (dst.isInt || !c.dstUns)
    let u : Use := { use0 with
      rv := h.src0.toNat :: (if src.isMx then [h.src1.toNat] else [])
      wv := h.dst.toNat :: (if dst.isMx then [h.dst.toNat + 1] else []) }
    s.issue w h 3 legal u (fun a s =>
      let base := s.clk.fresh
      let ls := lanesOf a.lanes
      let elem := fun (i : Nat) =>
        let x := src.read c.srcUns c.ieee (a.a0 i).toNat
        if src.isMx then x.scale ((a.a1 i).toNat % 256) else x
      let mode := fun (i : Nat) => rmodeOf c.rm.toNat (Config.freeNat (base + i))
      let b := if c.block16 then 16 else 32
      let st := if dst.isMx then
          loop (32 / b) a.str.step (fun st k =>
            let bl := ls.filter (fun i => i / b = k)
            let (sc, es) := mxBlock dst c.ieee (bl.map mode) (bl.map elem)
            (bl.zip es).foldl (fun st p =>
              (st.setV h.dst.toNat p.1 (BitVec.ofNat 32 p.2)).setV (h.dst.toNat + 1) p.1 (BitVec.ofNat 32 sc)) st)
        else mapLanes a a.str.step (fun i => BitVec.ofNat 32 (dst.write c.dstUns c.ieee (mode i) (elem i)))
      ((s.bump blkCE a.e ctrCvt ls.length).drew 32).setStr a.e a.place (st.pend u.writes))
  | _, _ => s.issue w h 3 false use0 (fun _ s => s)

end Sys2Proof.Machine
end

