-- ==== Sys2Proof/Machine/L1.lean ====
section
/-! DEFINITION. The L1 cache of an engine (R155, R156) and the line that serves a load, an instruction atomics' and
stores' effect on it, and remote lines of read-only pages (R14, R158). -/

namespace Sys2Proof.Machine

/-- Shared-memory bytes reserved on an engine (R72). -/
def Eng.sharedBytes (v : Eng) : Nat := v.wgs.foldl (fun a p => a + p.2.sharedSize) 0

/-- Ways of the L1 cache, 4 to 16 (R155). -/
def Eng.l1Ways (v : Eng) : Nat := (262144 - roundUp v.sharedBytes 16384) / 16384

/-- Number of a line in L1 tags; a remote line also holds its die. -/
def l1Tag (line : Nat) (die : Option Nat) : Nat := match die with | none => line | some d => line + (d + 1) * 2 ^ 33

/-- Way of a line. -/
def Eng.l1Find (v : Eng) (tag : Nat) : Option Nat :=
  (List.range v.l1Ways).find? (fun w => match mget v.l1 (16 * (tag % 128) + w) with
    | some l => l.line = tag
    | none => false)

/-- Mark a way recently used: each tree bit on its path points away from it (tree pseudo-LRU over 16 leaves; log entry
5). Node 1 is the root, nodes 2n and 2n + 1 its halves. -/
def plruTouch (t w : Nat) : Nat :=
  [(1, 3), (2 + w / 8, 2), (4 + w / 4, 1), (8 + w / 2, 0)].foldl (fun t p => setBit t p.1 (!bit w p.2)) t

/-- Way the tree points to, keeping to the ways below n. -/
def plruVictim (t n : Nat) : Nat :=
  let go := fun (node base half : Nat) => if bit t node && base + half < n then half else 0
  let a := go 1 0 8
  let b := a + go (2 + a / 8) a 4
  let c := b + go (4 + b / 4) b 2
  c + go (8 + c / 2) c 1

/-- Note a use of a way. -/
def Eng.l1Touch (v : Eng) (set w : Nat) : Eng := { v with plru := mset v.plru set (plruTouch (mgetD v.plru set 0) w) }

/-- Fill a line: the lowest-numbered invalid way, else the pseudo-LRU way (R155). -/
def Eng.l1Fill (v : Eng) (tag : Nat) (ro : Bool) (data : List Byte) : Eng :=
  let set := tag % 128
  let w := ((List.range v.l1Ways).find? (fun w => !mhas v.l1 (16 * set + w))).getD
    (plruVictim (mgetD v.plru set 0) v.l1Ways)
  { v with l1 := mset v.l1 (16 * set + w) { line := tag, readOnly := ro, data := data } }.l1Touch set w

/-- Drop a line. -/
def Eng.l1Drop (v : Eng) (tag : Nat) : Eng := { v with l1 := v.l1.filter (fun p => p.2.line ≠ tag) }

/-- Drop the ways at and above the count that a new reservation leaves (R155). -/
def Eng.l1Shrink (v : Eng) : Eng := { v with l1 := v.l1.filter (fun p => p.1 % 16 < v.l1Ways) }

/-- Read n bytes at a local physical address through the L1 (R155, R156): bytes, poisoned. -/
def State.l1Read (s : State) (e pa n pol : Nat) (ro : Bool) : (List Byte × Bool) × State :=
  let line := pa / 128
  let v := s.eng e
  match v.l1Find line with
  | some w =>
    match mget v.l1 (16 * (line % 128) + w) with
    | some l => ((slice l.data (pa % 128) n, false), (s.bump blkCE e 0x025 1).setEng e (v.l1Touch (line % 128) w))
    | none => ((zeros n, false), s)
  | none =>
    let s := s.bump blkCE e 0x026 1
    let ((b, _), s) := s.readPhys (128 * line) 128 pol
    let out := s.mem.whereIs pa = .outside
    let lost := match s.mem.whereIs pa with | .strong o => s.mem.srLost o | _ => false
    let bad := out || lost || s.mem.poisoned pa n
    let lineBad := out || lost || s.mem.poisoned (128 * line) 128
    ((slice b (pa % 128) n, bad), if lineBad then s else s.modEng e (fun v => v.l1Fill line ro b))

/-- Write bytes at a local physical address: L1 lines it hits are updated and the store goes on to L2 (R156). -/
def State.l1Write (s : State) (e pa pol : Nat) (l : List Byte) : State :=
  let s := s.modEng e (fun v => match v.l1Find (pa / 128) with
    | some w => { v with l1 := mmod v.l1 (16 * (pa / 128 % 128) + w) (fun x => { x with data := putBytes x.data (pa % 128) l }) }
    | none => v)
  s.writePhys pa l pol

/-- A line of a remote read-only page held in L1 or L2, if any (R14, R158): its bytes. -/
def State.remoteLine (s : State) (e die pa : Nat) : Option (List Byte) :=
  let v := s.eng e
  let tag := l1Tag (pa / 128) (some die)
  match v.l1Find tag with
  | some w => (mget v.l1 (16 * (tag % 128) + w)).map (fun l => l.data)
  | none =>
    let sl := s.mem.remap (sliceOf pa)
    (s.mem.findWay sl (setOf pa) (pa / 128) (some die)).bind (fun w =>
      (mget s.mem.lines (lineKey sl (setOf pa) w)).map (fun l => l.data))

end Sys2Proof.Machine
end

