-- ==== Sys2Proof/Machine/LoadStore.lean ====
section
/-! DEFINITION. Load and store, class 0x4 (R93, R105, R106, R154 to R156), and shared memory (R72). -/

namespace Sys2Proof.Machine

/-! ### Shared memory -/

/-- A byte of shared memory; an unwritten byte is undefined (R72): a free value of the carve-out's seed. -/
def Wg.byte (g : Wg) (a : Nat) : Byte :=
  match mget g.shared a with
  | some b => b
  | none => BitVec.ofNat 8 (Config.freeNat g.sharedSeed / 256 ^ a)

def Wg.read (g : Wg) (a n : Nat) : List Byte := (List.range n).map (fun i => g.byte (a + i))

/-- Write bytes below the declared size; the rest is discarded (log entry 8). -/
def Wg.write (g : Wg) (a : Nat) (l : List Byte) : Wg :=
  { g with shared := foldIdx l g.shared (fun m i b => if a + i < g.sharedSize then mset m (a + i) b else m) }

/-! ### Loads -/

/-- Registers a value of 2^size bytes occupies. -/
def regsFor (size : Nat) : Nat := if size ≤ 2 then 1 else 2 ^ (size - 2)

/-- A register that starts a value of 2^size bytes: even for pairs, a multiple of 4 for quads (log entry 9). -/
def alignedReg (size : Nat) (r : BitVec 8) : Bool := r.toNat % regsFor size = 0

/-- Extend a loaded value to its registers. -/
def extendLoad (size : Nat) (sgn : Bool) (v : Nat) : Nat := if sgn && size < 2 then wrapInt 32 (sext (8 * 2 ^ size) v) else v

/-- Address operands of the executing lanes: a 64-bit pair in global space, one register in shared space (R102). -/
def Act.addrs (a : Act) (shared : Bool) : List (Nat × Nat) :=
  (lanesOf a.lanes).map (fun i =>
    (i, if shared then (a.str.v a.hdr.src0.toNat i).toNat else a.str.v2 a.hdr.src0.toNat i))

/-- Uses of an address operand. -/
def useAddr (shared : Bool) (r : BitVec 8) : Use :=
  if shared then { use0 with rv := [r.toNat] } else { use0 with rv := regs r.toNat 2, ok := r.toNat % 2 = 0 }

/-- Room for the requests of an instruction toward the host and other dies (R246, R463). -/
def State.hasTags (s : State) (l : List LaneAddr) : Bool :=
  s.host.np.length + (l.filter (fun x => x.target = 1)).length ≤ 2048 &&
  s.caravan.reqs.length + 2 * (l.filter (fun x => x.target = 2)).length ≤ 4096

/-- Bytes one lane loads: none while they come from the host or another die. -/
def State.loadLane (s : State) (a : Act) (x : LaneAddr) (size : Nat) (sgn : Bool) (dst : Nat) :
    Option (List Byte × Bool) × State :=
  let n := 2 ^ size
  let dest := NpDest.load a.e a.place dst x.lane n (sgn && size < 2)
  match x.target with
  | 0 => let (r, s) := s.l1Read a.e x.pa n x.pol x.ro; (some r, s)
  | 1 => (none, (s.hostRequest x.pa n 0 0 0 dest).getD s)
  | _ =>
    match (if x.ro then s.remoteLine a.e x.die x.pa else none) with
    | some l => (some (slice l (x.pa % 128) n, false), s.bump blkCE a.e 0x025 1)
    | none =>
      let at_ := if x.ro then x.pa / 128 * 128 else x.pa / 32 * 32
      let req := s.cvlRequest 1 x.die at_ 0 [] dest none x.ro (x.pa - at_)
      (none, req.getD s)

/-- Load lanes in order after translation: results go to registers, a poisoned lane fails the dispatch (R226). -/
def State.loadLanes (s : State) (a : Act) (l : List LaneAddr) (size : Nat) (sgn : Bool) (dst : Nat) : State :=
  let r := l.foldl (fun (r : (Str × Bool) × State) x =>
    match r.2.loadLane a x size sgn dst with
    | (some (b, bad), s) =>
      ((r.1.1.setVn dst x.lane (regsFor size) (extendLoad size sgn (leNat b)), r.1.2 || bad), s)
    | (none, s) => (r.1, s)) ((a.str.step, false), s)
  if r.1.2 then r.2.trap a.e a.str.queue a.str.cmd ePoison 0
  else r.2.setStr a.e a.place (r.1.1.pend (regs dst (regsFor size)))

/-- Translate the lanes of a memory instruction, then run its body; a fault parks the string with no effect (R93). -/
def State.memLanes (s : State) (a : Act) (n : Nat) (acc : Acc) (f : List LaneAddr → State → State) : State :=
  let addrs := a.addrs false
  if addrs.any (fun p => p.2 % n ≠ 0) then s.trap a.e a.str.queue a.str.cmd eMisaligned 0
  else match s.translateLanes a addrs acc with
    | (.error (k, lv, pte, va), s) => s.park a k acc va lv pte 0 0
    | (.ok l, s) => if s.hasTags l then f l s else s

/-- LD (R105). -/
def execLd (w : Site) (h : Hdr) (shared : Bool) (size : Fin 5) (sgn : Bool) (s : State) : Out :=
  let ua := useAddr shared h.src0
  let u : Use := { ua with wv := regs h.dst.toNat (regsFor size.val), ok := ua.ok && alignedReg size.val h.dst }
  s.issue w h 4 true u (fun a s =>
    let s := s.bump blkCE a.e 0x015 (lanesOf a.lanes).length
    if shared then
      if (a.addrs true).any (fun p => p.2 % 2 ^ size.val ≠ 0) then s.trap a.e a.str.queue a.str.cmd eMisaligned 0
      else match s.wg? a.e a.str.wg with
        | none => s
        | some g => s.setStr a.e a.place (((a.addrs true).foldl (fun st p =>
            st.setVn h.dst.toNat p.1 (regsFor size.val) (extendLoad size.val sgn (leNat (g.read p.2 (2 ^ size.val)))))
            a.str.step).pend u.writes)
    else s.memLanes a (2 ^ size.val) accRead (fun l s => s.loadLanes a l size.val sgn h.dst.toNat))

/-- Store one lane's bytes. -/
def State.storeLane (s : State) (a : Act) (x : LaneAddr) (b : List Byte) : State :=
  match x.target with
  | 0 => s.l1Write a.e x.pa x.pol b
  | 1 => s.hostWrite x.pa b
  | _ => s.cvlStore x.die x.pa b (.store a.e a.place)

/-- ST: the value of the highest executing lane remains where lanes overlap (R106). -/
def execSt (w : Site) (h : Hdr) (shared : Bool) (size : Fin 5) (s : State) : Out :=
  let ua := useAddr shared h.src0
  let u : Use := { ua with rv := ua.rv ++ regs h.src1.toNat (regsFor size.val), ok := ua.ok && alignedReg size.val h.src1 }
  s.issue w h 4 true u (fun a s =>
    let s := s.bump blkCE a.e 0x015 (lanesOf a.lanes).length
    let a := a.writers s 0 0
    let data := fun (i : Nat) => leBytes (2 ^ size.val) (a.str.vn h.src1.toNat i (regsFor size.val))
    if shared then
      if (a.addrs true).any (fun p => p.2 % 2 ^ size.val ≠ 0) then s.trap a.e a.str.queue a.str.cmd eMisaligned 0
      else match s.wg? a.e a.str.wg with
        | none => s
        | some g => (s.setWg a.e a.str.wg ((a.addrs true).foldl (fun g p => g.write p.2 (data p.1)) g)).setStr a.e a.place
            a.str.step
    else s.memLanes a (2 ^ size.val) accWrite (fun l s =>
      (l.foldl (fun s x => s.storeLane a x (data x.lane)) s).modStr a.e a.place (fun _ => a.str.step)))

end Sys2Proof.Machine
end

