-- ==== Sys2Proof/Machine/Atomics.lean ====
section
/-! DEFINITION. Atomics, class 0x7: combined and uncombined, in device, host, remote and shared memory (R89 to R93, R102,
R172, R173, R179). -/

namespace Sys2Proof.Machine

/-- New value of one memory atomic (R102). `width`: 0 32-bit or FP32, 1 64-bit, 2 two FP16, 3 two BF16. -/
def atomApply (op : AtomOp) (width old src cmp : Nat) : Nat :=
  let n := if width = 1 then 64 else 32
  let f := if width = 2 then packed fmtFP16.fadd else if width = 3 then packed fmtBF16.fadd else fmtFP32.fadd
  let mn := if width = 2 then packed fmtFP16.fmin else if width = 3 then packed fmtBF16.fmin else fmtFP32.fmin
  let mx := if width = 2 then packed fmtFP16.fmax else if width = 3 then packed fmtBF16.fmax else fmtFP32.fmax
  match op with
  | .add => (old + src) % 2 ^ n
  | .smin => if sext n old ≤ sext n src then old else src
  | .umin => min old src
  | .smax => if sext n old ≤ sext n src then src else old
  | .umax => max old src
  | .and => old &&& src
  | .or => old ||| src
  | .xor => old ^^^ src
  | .exch => src
  | .cas => if old = cmp then src else old
  | .inc => if src ≤ old then 0 else old + 1
  | .dec => if old = 0 || src < old then src else old - 1
  | .fadd => f old src
  | .fmin => mn old src
  | .fmax => mx old src

/-- Lanes of one address applied one after another in ascending lane order (R89, R90): final value and, per lane, the
value before its own operation. -/
def atomSerial (op : AtomOp) (width old : Nat) (lanes : List (Nat × Nat × Nat)) : Nat × List (Nat × Nat) :=
  lanes.foldl (fun r l => (atomApply op width r.1 l.2.1 l.2.2, r.2 ++ [(l.1, r.1)])) (old, [])

/-- Sum of floating-point operands in a tree whose shape is a free value (R91). -/
def treeSum (f : Nat → Nat → Nat) : Nat → Nat → List Nat → Nat
  | _, _, [] => 0
  | _, _, [x] => x
  | 0, _, x :: _ => x
  | n + 1, free, x :: y :: l =>
    let xs := x :: y :: l
    let i := free % (xs.length - 1)
    treeSum f n (free / (xs.length - 1)) (xs.take i ++ [f (xs.getD i 0) (xs.getD (i + 1) 0)] ++ xs.drop (i + 2))

/-- One combined memory atomic: final value and the lanes' returned values. A floating-point add sums its lanes, and
each lane's prefix, in free trees (R91); every other operation gives the serial result. -/
def atomCombined (op : AtomOp) (width old free : Nat) (lanes : List (Nat × Nat × Nat)) : Nat × List (Nat × Nat) :=
  if op = .fadd && 1 < lanes.length then
    let f := fun x y => atomApply .fadd width x y 0
    let sum := fun (k : Nat) (l : List Nat) => treeSum f 32 (free / 2 ^ (64 * k)) l
    let ops := lanes.map (fun l => l.2.1)
    (f old (sum 0 ops), foldIdx lanes [] (fun acc i l =>
      acc ++ [(l.1, if i = 0 then old else f old (sum (i + 1) (ops.take i)))]))
  else atomSerial op width old lanes

/-- Width code and byte size of an atomic; none where the operation does not allow the width (R102). -/
def atomWidth (op : AtomOp) (w : Nat) : Option Nat :=
  match op with
  | .fadd | .fmin | .fmax => if w = 1 then none else some 4
  | .inc | .dec => if w = 0 then some 4 else none
  | _ => if w = 0 then some 4 else if w = 1 then some 8 else none

/-- OP code of R102. -/
def atomCode (op : AtomOp) : Nat :=
  match op with
  | .add => 0x00 | .smin => 0x01 | .umin => 0x02 | .smax => 0x03 | .umax => 0x04 | .and => 0x05 | .or => 0x06
  | .xor => 0x07 | .exch => 0x08 | .cas => 0x09 | .inc => 0x0A | .dec => 0x0B | .fadd => 0x10 | .fmin => 0x11
  | .fmax => 0x12

/-- The operation an OP code names. -/
def atomOfCode (c : Nat) : Option AtomOp :=
  ([AtomOp.add, .smin, .umin, .smax, .umax, .and, .or, .xor, .exch, .cas, .inc, .dec, .fadd, .fmin, .fmax]).find?
    (fun o => atomCode o = c)

/-- A memory atomic at the L2 slice that owns a local address (R172): the old value, whether it met poison (then nothing
is performed), and the state with the new value `f old`. -/
def State.atomAt (s : State) (pa n pol : Nat) (f : Nat → Nat) : (Nat × Bool) × State :=
  let ((b, bad), s) := s.readPhys pa n (if pol = 2 then 2 else 0)
  let old := leNat b
  if bad then ((old, true), s)
  else ((old, false), (s.bump blkL2C (s.mem.remap (sliceOf pa)) 5 1).writePhys pa (leBytes n (f old)) (if pol = 2 then 2 else 0))

/-- What the lanes of an atomic instruction carry. -/
structure AtomIns where
  op : AtomOp
  width : Nat
  bytes : Nat
  ret : Bool
  nocmb : Bool
  acquire : Bool
  release : Bool
  src2 : Nat
  deriving DecidableEq, Repr

/-- Lane operands: lane, source, compare. -/
def AtomIns.lane (t : AtomIns) (a : Act) (i : Nat) : Nat × Nat × Nat :=
  (i, a.str.vn a.hdr.src1.toNat i (t.bytes / 4), a.str.vn t.src2 i (t.bytes / 4))

/-- Groups of lanes that go to memory together: one per distinct address, or one per lane without combining (R89, R92). -/
def AtomIns.groups (t : AtomIns) (l : List LaneAddr) : List (LaneAddr × List Nat) :=
  if t.nocmb then l.map (fun x => (x, [x.lane]))
  else l.foldl (fun acc x =>
    if acc.any (fun g => g.1.target = x.target && g.1.die = x.die && g.1.pa = x.pa)
    then acc.map (fun g => if g.1.target = x.target && g.1.die = x.die && g.1.pa = x.pa then (g.1, g.2 ++ [x.lane]) else g)
    else acc ++ [(x, [x.lane])]) []

/-- Perform one group: returned values of its lanes, whether it met poison. -/
def State.atomGroup (s : State) (a : Act) (t : AtomIns) (g : LaneAddr × List Nat) : (List (Nat × Nat) × Bool) × State :=
  let x := g.1
  let lanes := g.2.map (t.lane a)
  let dst := a.hdr.dst.toNat
  match x.target with
  | 0 =>
    let (free, s) := s.draw
    let s := s.modEng a.e (fun v => v.l1Drop (x.pa / 128))
    let ((old, bad), s) := s.atomAt x.pa t.bytes x.pol (fun old => (atomCombined t.op t.width old free lanes).1)
    (((atomCombined t.op t.width old free lanes).2, bad), s)
  | 1 =>
    (([], false), lanes.foldl (fun s l =>
      (s.hostRequest x.pa t.bytes (match t.op with | .add => 1 | .exch => 2 | _ => 3) (BitVec.ofNat 64 l.2.1)
        (BitVec.ofNat 64 l.2.2) (.atomic a.e a.place dst l.1 t.bytes t.ret)).getD s) s)
  | _ =>
    let aux := atomCode t.op + t.width * 32 + b2n t.ret * 128
    let send := fun (s : State) (ls : List (Nat × Nat × Nat)) (v c : Nat) =>
      (s.cvlRequest 4 x.die x.pa aux (leBytes 8 v ++ leBytes 8 c) (.combined a.e a.place dst t.op t.width ls t.ret)
        none false 0).getD s
    match t.op, lanes with
    | .cas, _ | .inc, _ | .dec, _ => (([], false), lanes.foldl (fun s l => send s [l] l.2.1 l.2.2) s)
    | .exch, _ => (([], false), send s lanes (match lanes.getLast? with | some l => l.2.1 | none => 0) 0)
    | .fadd, _ =>
      let (free, s) := s.draw
      (([], false), send s lanes
        (treeSum (fun p q => atomApply .fadd t.width p q 0) 32 free (lanes.map (fun l => l.2.1))) 0)
    | op, l0 :: ls => (([], false), send s (l0 :: ls) (ls.foldl (fun v l => atomApply op t.width v l.2.1 0) l0.2.1) 0)
    | _, [] => (([], false), s)

/-- Write the returned values and advance. -/
def atomReturn (a : Act) (t : AtomIns) (l : List (Nat × Nat)) : Str :=
  if t.ret then
    (l.foldl (fun st p => st.setVn a.hdr.dst.toNat p.1 (t.bytes / 4) p.2) a.str.step).pend
      (regs a.hdr.dst.toNat (t.bytes / 4))
  else a.str.step

/-- An atomic in global space. -/
def State.atomGlobal (s : State) (a : Act) (t : AtomIns) : State :=
  s.memLanes a t.bytes accAtomic (fun l s =>
    if l.any (fun x => x.target = 1) && (!Config.hostAtomics || !([AtomOp.add, .exch, .cas].contains t.op)) then
      s.trap a.e a.str.queue a.str.cmd eAtomic 0
    else if t.release && s.unacked a.e a.place then s.releaseWait a.e a.place
    else
      let gs := t.groups l
      let r := gs.foldl (fun (r : (List (Nat × Nat) × Bool) × State) g =>
        let ((x, bad), s) := r.2.atomGroup a t g
        ((r.1.1 ++ x, r.1.2 || bad), s)) (([], false), s.bump blkCE a.e 0x017 gs.length)
      let s := if t.acquire then r.2.acquire a.e else r.2
      if r.1.2 then s.trap a.e a.str.queue a.str.cmd ePoison 0
      else s.setStr a.e a.place (atomReturn a t r.1.1))

/-- An atomic in shared space, performed in the workgroup's shared memory (R102). -/
def State.atomShared (s : State) (a : Act) (t : AtomIns) : State :=
  let addrs := a.addrs true
  if addrs.any (fun p => p.2 % t.bytes ≠ 0) then s.trap a.e a.str.queue a.str.cmd eMisaligned 0
  else match s.wg? a.e a.str.wg with
    | none => s
    | some g =>
      let gs := t.groups (addrs.map (fun p => ⟨p.1, p.2, 0, p.2, 0, false, 0⟩))
      let r := foldIdx gs (g, []) (fun r k x =>
        let free := s.peek k
        let (new, ret) := atomCombined t.op t.width (leNat (r.1.read x.1.pa t.bytes)) free (x.2.map (t.lane a))
        (r.1.write x.1.pa (leBytes t.bytes new), r.2 ++ ret))
      ((((s.bump blkCE a.e 0x017 gs.length).drew 32).setWg a.e a.str.wg r.1)).setStr a.e a.place (atomReturn a t r.2)

/-- An atomic instruction (R102). -/
def State.execAtom (s : State) (op : AtomOp) (w : Site) (h : Hdr) (low : BitVec 26) : Out :=
  let f := low.toNat
  let width := bits f 25 24
  let space := bits f 23 22
  let scope := bits f 21 20
  let n := (atomWidth op width).getD 4
  let k := n / 4
  let cas := op = .cas
  let legal := (atomWidth op width).isSome && space ≤ 1 && (space = 0 || scope = 0) && (cas || bits f 15 8 = 0)
    && bits f 7 0 = 0
  let ua := useAddr (space = 1) h.src0
  let even := fun (r : Nat) => k = 1 || r % 2 = 0
  let u : Use := { ua with
    rv := ua.rv ++ regs h.src1.toNat k ++ (if cas then regs (bits f 15 8) k else [])
    wv := if bit f 17 then regs h.dst.toNat k else []
    ok := ua.ok && even h.src1.toNat && (!cas || even (bits f 15 8)) && (!bit f 17 || even h.dst.toNat) }
  let t : AtomIns := { op := op, width := width, bytes := n, ret := bit f 17, nocmb := bit f 16
                       acquire := bit f 18 && scope ≠ 0, release := bit f 19 && scope ≠ 0, src2 := bits f 15 8 }
  s.issue w h 7 legal u (fun a s =>
    let s := s.bump blkCE a.e 0x016 (lanesOf a.lanes).length
    let a := a.writers s h.dst.toNat (if t.ret then k else 0)
    let s := s.drew 32
    if space = 1 then s.atomShared a t else s.atomGlobal a t)

def execAtomAdd (w : Site) (h : Hdr) (low : BitVec 26) (s : State) : Out := s.execAtom .add w h low
def execAtomSmin (w : Site) (h : Hdr) (low : BitVec 26) (s : State) : Out := s.execAtom .smin w h low
def execAtomUmin (w : Site) (h : Hdr) (low : BitVec 26) (s : State) : Out := s.execAtom .umin w h low
def execAtomSmax (w : Site) (h : Hdr) (low : BitVec 26) (s : State) : Out := s.execAtom .smax w h low
def execAtomUmax (w : Site) (h : Hdr) (low : BitVec 26) (s : State) : Out := s.execAtom .umax w h low
def execAtomAnd (w : Site) (h : Hdr) (low : BitVec 26) (s : State) : Out := s.execAtom .and w h low
def execAtomOr (w : Site) (h : Hdr) (low : BitVec 26) (s : State) : Out := s.execAtom .or w h low
def execAtomXor (w : Site) (h : Hdr) (low : BitVec 26) (s : State) : Out := s.execAtom .xor w h low
def execAtomExch (w : Site) (h : Hdr) (low : BitVec 26) (s : State) : Out := s.execAtom .exch w h low
def execAtomCas (w : Site) (h : Hdr) (low : BitVec 26) (s : State) : Out := s.execAtom .cas w h low
def execAtomInc (w : Site) (h : Hdr) (low : BitVec 26) (s : State) : Out := s.execAtom .inc w h low
def execAtomDec (w : Site) (h : Hdr) (low : BitVec 26) (s : State) : Out := s.execAtom .dec w h low
def execAtomFadd (w : Site) (h : Hdr) (low : BitVec 26) (s : State) : Out := s.execAtom .fadd w h low
def execAtomFmin (w : Site) (h : Hdr) (low : BitVec 26) (s : State) : Out := s.execAtom .fmin w h low
def execAtomFmax (w : Site) (h : Hdr) (low : BitVec 26) (s : State) : Out := s.execAtom .fmax w h low

end Sys2Proof.Machine
end

