-- ==== Sys2Proof/Machine/Deflate.lean ====
section
/-! DEFINITION. DEFLATE streams (RFC 1951) with zlib and gzip framing (RFC 1950, RFC 1952), as the compression engines
write and read them (R445 to R453). Bit streams are lists of bits, the least significant bit of each byte first. -/

namespace Sys2Proof.Machine

def eCmpFull : Nat := 0x0701
def eCmpFormat : Nat := 0x0702
def eCmpDistance : Nat := 0x0703
def eCmpChecksum : Nat := 0x0704
def eCmpTruncated : Nat := 0x0705
def eCmpDictionary : Nat := 0x0706
def eCmpFenced : Nat := 0x0707

/-! ### Bits -/

/-- The n low bits of a number, least significant first. -/
def natBits (n w : Nat) : List Bool := (List.range n).map (fun i => bit w i)
def bytesToBits (l : List Byte) : List Bool := (l.map (fun b => natBits 8 b.toNat)).flatten
def bitsNat : List Bool → Nat
  | [] => 0
  | b :: bs => b2n b + 2 * bitsNat bs
def bitsToBytes (l : List Bool) : List Byte := (chunksOf 8 l).map (fun c => BitVec.ofNat 8 (bitsNat c))

/-! ### Codes of RFC 1951 -/

def lenBase : List Nat :=
  [3, 4, 5, 6, 7, 8, 9, 10, 11, 13, 15, 17, 19, 23, 27, 31, 35, 43, 51, 59, 67, 83, 99, 115, 131, 163, 195, 227, 258]
def lenExtra : List Nat := [0, 0, 0, 0, 0, 0, 0, 0, 1, 1, 1, 1, 2, 2, 2, 2, 3, 3, 3, 3, 4, 4, 4, 4, 5, 5, 5, 5, 0]
def distBase : List Nat :=
  [1, 2, 3, 4, 5, 7, 9, 13, 17, 25, 33, 49, 65, 97, 129, 193, 257, 385, 513, 769, 1025, 1537, 2049, 3073, 4097, 6145,
   8193, 12289, 16385, 24577]
def distExtra (c : Nat) : Nat := if c < 4 then 0 else c / 2 - 1
def clenOrder : List Nat := [16, 17, 18, 0, 8, 7, 9, 6, 10, 5, 11, 4, 12, 3, 13, 2, 14, 1, 15]

/-- Static code lengths. -/
def staticLit : List Nat :=
  List.replicate 144 8 ++ List.replicate 112 9 ++ List.replicate 24 7 ++ List.replicate 8 8
def staticDist : List Nat := List.replicate 30 5

/-- First canonical code of a length. -/
def firstCode (lens : List Nat) : Nat → Nat
  | 0 => 0
  | n + 1 => (firstCode lens n + (if n = 0 then 0 else lens.count n)) * 2

/-- Code of a symbol: value and length. -/
def huffCode (lens : List Nat) (sym : Nat) : Nat × Nat :=
  let l := lens.getD sym 0
  (firstCode lens l + (lens.take sym).count l, l)

/-- Code space used, of 2^15. -/
def kraft (lens : List Nat) : Nat := lens.foldl (fun a l => if l = 0 then a else a + 2 ^ (15 - l)) 0

/-- Are code lengths a usable code: none over-subscribed; complete, or a single code of one bit, or none (log entry 46)? -/
def codeOk (lens : List Nat) (single : Bool) : Bool :=
  lens.all (· ≤ 15) && (kraft lens = 2 ^ 15 || (single && (lens.filter (· ≠ 0)).length ≤ 1 && kraft lens ≤ 2 ^ 14))

/-! ### Reading (R451, R452) -/

/-- Progress of a decoder: bits left, output newest first with its length, blocks and stored blocks. -/
structure Inf where
  src : List Bool
  out : List Byte
  n : Nat
  blocks : Nat
  stored : Nat
  deriving DecidableEq, Repr

/-- What a step gives: an error with the progress so far, or progress. -/
abbrev InfR (α : Type) := Except (Nat × Inf) (α × Inf)

/-- Take n bits. -/
def Inf.take (s : Inf) (n : Nat) : InfR Nat :=
  if s.src.length < n then .error (eCmpTruncated, { s with src := [] })
  else .ok (bitsNat (s.src.take n), { s with src := s.src.drop n })

/-- Decode one symbol: code bits arrive most significant first. -/
def Inf.symbol (s : Inf) (lens : List Nat) (len code first : Nat) : Nat → InfR Nat
  | 0 => .error (eCmpFormat, s)
  | fuel + 1 =>
    match s.src with
    | [] => .error (eCmpTruncated, s)
    | b :: rest =>
      let s := { s with src := rest }
      let code := 2 * code + b2n b
      let n := lens.count len
      if code < first + n then
        match ((List.range lens.length).filter (fun i => lens.getD i 0 = len))[code - first]? with
        | some x => .ok (x, s)
        | none => .error (eCmpFormat, s)
      else s.symbol lens (len + 1) code (2 * (first + n)) fuel

def Inf.sym (s : Inf) (lens : List Nat) : InfR Nat := s.symbol lens 1 0 0 15

/-- Put one byte out. -/
def Inf.put (s : Inf) (limit : Nat) (b : Byte) : InfR Unit :=
  if limit ≤ s.n then .error (eCmpFull, s) else .ok ((), { s with out := b :: s.out, n := s.n + 1 })

/-- Byte at a distance back, in the output or the dictionary (newest first). -/
def Inf.back (s : Inf) (dict : List Byte) (d : Nat) : Byte := if d ≤ s.n then s.out.getD (d - 1) 0 else dict.getD (d - 1 - s.n) 0

/-- Copy a match of n bytes. -/
def Inf.copy (s : Inf) (dict : List Byte) (limit d : Nat) : Nat → InfR Unit
  | 0 => .ok ((), s)
  | n + 1 => match s.put limit (s.back dict d) with
    | .error e => .error e
    | .ok (_, s) => s.copy dict limit d n

/-- Symbols of a compressed block up to its end; every symbol takes a bit, so the bits bound the rounds. -/
def Inf.symbols (s : Inf) (lit dist : List Nat) (dict : List Byte) (limit : Nat) : Nat → InfR Unit
  | 0 => .error (eCmpTruncated, s)
  | fuel + 1 => match s.sym lit with
    | .error e => .error e
    | .ok (x, s) =>
      if x < 256 then match s.put limit (BitVec.ofNat 8 x) with
        | .error e => .error e
        | .ok (_, s) => s.symbols lit dist dict limit fuel
      else if x = 256 then .ok ((), s)
      else if 286 ≤ x then .error (eCmpFormat, s)
      else match s.take (lenExtra.getD (x - 257) 0) with
        | .error e => .error e
        | .ok (le, s) => match s.sym dist with
          | .error e => .error e
          | .ok (d, s) =>
            if 30 ≤ d then .error (eCmpFormat, s)
            else match s.take (distExtra d) with
              | .error e => .error e
              | .ok (de, s) =>
                let far := distBase.getD d 1 + de
                if s.n + dict.length < far then .error (eCmpDistance, s)
                else match s.copy dict limit far (lenBase.getD (x - 257) 3 + le) with
                  | .error e => .error e
                  | .ok (_, s) => s.symbols lit dist dict limit fuel

/-- Code lengths of a dynamic block: n of them. -/
def Inf.lengths (s : Inf) (cl : List Nat) (n : Nat) (acc : List Nat) : Nat → InfR (List Nat)
  | 0 => .error (eCmpTruncated, s)
  | fuel + 1 =>
    if n ≤ acc.length then (if acc.length = n then .ok (acc, s) else .error (eCmpFormat, s))
    else match s.sym cl with
      | .error e => .error e
      | .ok (x, s) =>
        if x < 16 then s.lengths cl n (acc ++ [x]) fuel
        else
          let (eb, base, v) := if x = 16 then (2, 3, acc.getLast?) else if x = 17 then (3, 3, some 0) else (7, 11, some 0)
          match v, s.take eb with
          | none, _ => .error (eCmpFormat, s)
          | _, .error e => .error e
          | some v, .ok (k, s) => s.lengths cl n (acc ++ List.replicate (base + k) v) fuel

/-- A dynamic block. -/
def Inf.dynamic (s : Inf) (dict : List Byte) (limit : Nat) : InfR Unit :=
  match s.take 14 with
  | .error e => .error e
  | .ok (h, s) =>
    let nl := bits h 4 0 + 257
    let nd := bits h 9 5 + 1
    let nc := bits h 13 10 + 4
    match s.take (3 * nc) with
    | .error e => .error e
    | .ok (c, s) =>
      let cl := foldIdx (clenOrder.take nc) (List.replicate 19 0) (fun l i o => l.set o (bits c (3 * i + 2) (3 * i)))
      if 286 < nl || 30 < nd || !codeOk cl false then .error (eCmpFormat, s)
      else match s.lengths cl (nl + nd) [] (s.src.length + 1) with
        | .error e => .error e
        | .ok (l, s) =>
          let lit := l.take nl
          let dist := l.drop nl
          if lit.getD 256 0 = 0 || !codeOk lit true || !codeOk dist true then .error (eCmpFormat, s)
          else s.symbols lit dist dict limit (s.src.length + 1)

/-- n bytes of a stored block. -/
def Inf.raw (s : Inf) (limit : Nat) : Nat → InfR Unit
  | 0 => .ok ((), s)
  | n + 1 => match s.take 8 with
    | .error e => .error e
    | .ok (b, s) => match s.put limit (BitVec.ofNat 8 b) with
      | .error e => .error e
      | .ok (_, s) => s.raw limit n

/-- Drop bits up to the next byte. -/
def Inf.align (s : Inf) : Inf := { s with src := s.src.drop (s.src.length % 8) }

/-- A stored block. -/
def Inf.storedBlock (s : Inf) (limit : Nat) : InfR Unit :=
  match s.align.take 32 with
  | .error e => .error e
  | .ok (w, s) => if bits w 31 16 ≠ 65535 - bits w 15 0 then .error (eCmpFormat, s) else s.raw limit (bits w 15 0)

/-- Blocks up to the final one. -/
def Inf.run (s : Inf) (dict : List Byte) (limit : Nat) : Nat → InfR Unit
  | 0 => .error (eCmpTruncated, s)
  | fuel + 1 => match s.take 3 with
    | .error e => .error e
    | .ok (h, s) =>
      let type := h / 2
      let s := { s with blocks := s.blocks + 1, stored := s.stored + b2n (type = 0) }
      let r := match type with
        | 0 => s.storedBlock limit
        | 1 => s.symbols staticLit staticDist dict limit (s.src.length + 1)
        | 2 => s.dynamic dict limit
        | _ => .error (eCmpFormat, s)
      match r with
      | .error e => .error e
      | .ok (_, s) => if h % 2 = 1 then .ok ((), s) else s.run dict limit fuel

/-- Skip a zero-terminated field. -/
def Inf.skipString (s : Inf) : Nat → InfR Unit
  | 0 => .error (eCmpTruncated, s)
  | fuel + 1 => match s.take 8 with
    | .error e => .error e
    | .ok (b, s) => if b = 0 then .ok ((), s) else s.skipString fuel

/-- Big-endian number of n bytes. -/
def beNat (n w : Nat) : Nat := leNat ((leBytes n w).reverse)

/-- What a decoded stream gives. -/
structure Inflated where
  inf : Inf
  dictUsed : Bool
  check : Nat
  deriving DecidableEq, Repr

/-- The gzip header (R451): the input is kept to check FHCRC. -/
def Inf.gzipHeader (s : Inf) (all : List Byte) : InfR Unit :=
  match s.take 80 with
  | .error e => .error e
  | .ok (h, s) =>
    let flg := bits h 31 24
    if bits h 23 0 ≠ 0x088B1F || 32 ≤ flg then .error (eCmpFormat, s)
    else
      let extra : InfR Unit := if !bit flg 2 then .ok ((), s) else match s.take 16 with
        | .error e => .error e
        | .ok (n, s) => match s.take (8 * n) with
          | .error e => .error e
          | .ok (_, s) => .ok ((), s)
      match extra with
      | .error e => .error e
      | .ok (_, s) => match (if bit flg 3 then s.skipString (s.src.length + 1) else .ok ((), s)) with
        | .error e => .error e
        | .ok (_, s) => match (if bit flg 4 then s.skipString (s.src.length + 1) else .ok ((), s)) with
          | .error e => .error e
          | .ok (_, s) =>
            if !bit flg 1 then .ok ((), s)
            else
              let used := all.length - s.src.length / 8
              match s.take 16 with
              | .error e => .error e
              | .ok (c, s) => if c = crc32 (all.take used) % 65536 then .ok ((), s) else .error (eCmpChecksum, s)

/-- DECOMPRESS on the bytes read so far (R446, R451 to R453): framing 0 raw, 1 zlib, 2 gzip. -/
def inflate (framing : Nat) (dict input : List Byte) (limit : Nat) : Except (Nat × Inf) Inflated :=
  let s : Inf := { src := bytesToBits input, out := [], n := 0, blocks := 0, stored := 0 }
  let fuel := 8 * input.length + 1
  let rev := dict.reverse
  match framing with
  | 0 => match s.run rev limit fuel with
    | .error e => .error e
    | .ok (_, s) => .ok { inf := s.align, dictUsed := !dict.isEmpty, check := adler32 s.out.reverse }
  | 1 => match s.take 16 with
    | .error e => .error e
    | .ok (h, s) =>
      let cmf := h % 256
      let flg := h / 256
      if cmf % 16 ≠ 8 || 7 < cmf / 16 || (256 * cmf + flg) % 31 ≠ 0 then .error (eCmpFormat, s)
      else
        let head : InfR Bool := if !bit flg 5 then .ok (false, s) else match s.take 32 with
          | .error e => .error e
          | .ok (id, s) => if dict.isEmpty || beNat 4 id ≠ adler32 dict then .error (eCmpDictionary, s) else .ok (true, s)
        match head with
        | .error e => .error e
        | .ok (used, s) => match s.run (if used then rev else []) limit fuel with
          | .error e => .error e
          | .ok (_, s) => match s.align.take 32 with
            | .error e => .error e
            | .ok (c, s) =>
              let a := adler32 s.out.reverse
              if beNat 4 c = a then .ok { inf := s, dictUsed := used, check := a } else .error (eCmpChecksum, s)
  | _ => match s.gzipHeader input with
    | .error e => .error e
    | .ok (_, s) => match s.run [] limit fuel with
      | .error e => .error e
      | .ok (_, s) => match s.align.take 64 with
        | .error e => .error e
        | .ok (t, s) =>
          let c := crc32 s.out.reverse
          if t % 2 ^ 32 = c && t / 2 ^ 32 = s.n % 2 ^ 32 then .ok { inf := s, dictUsed := false, check := c }
          else .error (eCmpChecksum, s)

/-! ### Writing (R445 to R449) -/

/-- Do tokens spell a block after a history (both newest last; the history is kept reversed)? -/
def spell (hist : List Byte) : List (Nat × Nat) → Option (List Byte)
  | [] => some []
  | (0, b) :: ts => (spell (BitVec.ofNat 8 b :: hist) ts).map (fun r => BitVec.ofNat 8 b :: r)
  | (len, d) :: ts =>
    if len < 3 || 258 < len || d = 0 || 32768 < d || hist.length < d then none
    else
      let h := loop len hist (fun h _ => h.getD (d - 1) 0 :: h)
      (spell h ts).map (fun r => (h.take len).reverse ++ r)

/-- The tokens of a block: the search's where they spell it, else literals. -/
def blockTokens (level : Nat) (hist block : List Byte) : List (Nat × Nat) :=
  let ts := Config.lzTokens level hist block
  if ts.all (fun t => t.1 ≠ 0 || t.2 < 256) && spell hist.reverse ts = some block then ts
  else block.map (fun b => (0, b.toNat))

/-- Code of a length or distance: index of the last base at most it; length 258 has its own code. -/
def codeFor (base : List Nat) (x : Nat) : Nat := (base.takeWhile (· ≤ x)).length - 1

/-- Bits of a Huffman code, most significant first. -/
def codeBits (lens : List Nat) (sym : Nat) : List Bool := let (c, l) := huffCode lens sym; (natBits l c).reverse

/-- Bits of one token. -/
def tokenBits (lit dist : List Nat) (t : Nat × Nat) : List Bool :=
  if t.1 = 0 then codeBits lit t.2
  else
    let lc := codeFor lenBase t.1
    let dc := codeFor distBase t.2
    codeBits lit (257 + lc) ++ natBits (lenExtra.getD lc 0) (t.1 - lenBase.getD lc 0)
    ++ codeBits dist dc ++ natBits (distExtra dc) (t.2 - distBase.getD dc 0)

/-- Symbols that a block uses, end of block included. -/
def litSyms (ts : List (Nat × Nat)) : List Nat := 256 :: ts.map (fun t => if t.1 = 0 then t.2 else 257 + codeFor lenBase t.1)
def distSyms (ts : List (Nat × Nat)) : List Nat := (ts.filter (fun t => t.1 ≠ 0)).map (fun t => codeFor distBase t.2)

/-- Run-length symbols spelled out. -/
def expandRle : List (Nat × Nat) → List Nat → List Nat
  | [], acc => acc
  | (x, k) :: r, acc =>
    expandRle r (acc ++ (if x < 16 then [x] else if x = 16 then List.replicate (3 + k % 4) (acc.getLast?.getD 0)
      else if x = 17 then List.replicate (3 + k % 8) 0 else List.replicate (11 + k % 128) 0))

def staticBlock (final : Bool) (ts : List (Nat × Nat)) : List Bool :=
  [final, true, false] ++ (ts.map (tokenBits staticLit staticDist)).flatten ++ codeBits staticLit 256

/-- A dynamic block, where the tables are a description of codes for every symbol used. -/
def dynamicBlock (final : Bool) (ts : List (Nat × Nat)) : Option (List Bool) :=
  let (lit, dist, rle, cl) := Config.huffman ts
  let ok := 257 ≤ lit.length && lit.length ≤ 286 && 1 ≤ dist.length && dist.length ≤ 30 && cl.length = 19
    && codeOk lit true && codeOk dist true && cl.all (· ≤ 7) && codeOk cl false
    && (litSyms ts).all (fun x => lit.getD x 0 ≠ 0) && (distSyms ts).all (fun x => dist.getD x 0 ≠ 0)
    && rle.all (fun x => x.1 ≤ 18 && cl.getD x.1 0 ≠ 0) && expandRle rle [] = lit ++ dist
    && (match rle with | (16, _) :: _ => false | _ => true)
  if !ok then none
  else
    let order := clenOrder.map (fun o => cl.getD o 0)
    let n := max 4 ((order.reverse.dropWhile (· = 0)).length)
    let head := natBits 5 (lit.length - 257) ++ natBits 5 (dist.length - 1) ++ natBits 4 (n - 4)
      ++ ((order.take n).map (natBits 3)).flatten
    let table := (rle.map (fun x => codeBits cl x.1 ++ (if x.1 = 16 then natBits 2 x.2 else if x.1 = 17 then natBits 3 x.2
      else if x.1 = 18 then natBits 7 x.2 else []))).flatten
    some ([final, false, true] ++ head ++ table ++ (ts.map (tokenBits lit dist)).flatten ++ codeBits lit 256)

/-- Stored blocks of at most 65,535 bytes, from a bit position. -/
def storedBlocks (final : Bool) (at_ : Nat) (block : List Byte) : List Bool :=
  let cs := chunksOf 65535 block
  foldIdx cs [] (fun acc i c =>
    let head := [final && i + 1 = cs.length, false, false]
    let pad := (8 - (at_ + acc.length + 3) % 8) % 8
    acc ++ head ++ List.replicate pad false ++ natBits 16 c.length ++ natBits 16 (65535 - c.length) ++ bytesToBits c)

/-- Deflated blocks so far: bits, blocks, stored blocks. -/
structure Deflated where
  bits : List Bool
  blocks : Nat
  stored : Nat
  deriving DecidableEq, Repr

/-- Write one block in its smallest form (R448): static before dynamic before stored on a tie. -/
def Deflated.add (d : Deflated) (level : Nat) (hist block : List Byte) (final : Bool) : Deflated :=
  let ts := blockTokens level hist block
  let st := staticBlock final ts
  let dy := if block.length < 1024 then none else dynamicBlock final ts
  let raw := storedBlocks final d.bits.length block
  let coded := match dy with | some x => if x.length < st.length then x else st | none => st
  if raw.length < coded.length then
    let n := (chunksOf 65535 block).length
    { bits := d.bits ++ raw, blocks := d.blocks + n, stored := d.stored + n }
  else { bits := d.bits ++ coded, blocks := d.blocks + 1, stored := d.stored }

/-- The DEFLATE blocks of an input (R448). -/
def deflate (level : Nat) (dict input : List Byte) : Deflated :=
  if input.isEmpty then { bits := staticBlock true [], blocks := 1, stored := 0 }
  else
    let cs := chunksOf 65536 input
    foldIdx cs { bits := [], blocks := 0, stored := 0 } (fun d i c =>
      d.add level (dict ++ input.take (65536 * i)) c (i + 1 = cs.length))

/-- Header of a COMPRESS job's framing (R446, R449). -/
def frameHeader (framing level : Nat) (dict : List Byte) : List Byte :=
  match framing with
  | 0 => []
  | 1 =>
    let fl := if level = 1 then 0 else if level ≤ 5 then 1 else if level = 6 then 2 else 3
    let flg := fl * 64 + (if dict.isEmpty then 0 else 32)
    let chk := (31 - (0x78 * 256 + flg) % 31) % 31
    [0x78#8, BitVec.ofNat 8 (flg + chk)] ++ (if dict.isEmpty then [] else (leBytes 4 (adler32 dict)).reverse)
  | _ => [0x1F#8, 0x8B#8, 8#8, 0#8, 0#8, 0#8, 0#8, 0#8, (if level = 1 then 4#8 else if level = 9 then 2#8 else 0#8), 0xFF#8]

/-- Check value of a framing over the uncompressed data (R449). -/
def frameCheck (framing : Nat) (input : List Byte) : Nat := if framing = 2 then crc32 input else adler32 input

def frameTrailer (framing : Nat) (input : List Byte) : List Byte :=
  match framing with
  | 0 => []
  | 1 => (leBytes 4 (adler32 input)).reverse
  | _ => leBytes 4 (crc32 input) ++ leBytes 4 input.length

/-- The whole output of a COMPRESS job, with its blocks (R449). -/
def compressAll (framing level : Nat) (dict input : List Byte) : List Byte × Deflated :=
  let d := deflate level dict input
  (frameHeader framing level dict ++ bitsToBytes d.bits ++ frameTrailer framing input, d)

end Sys2Proof.Machine
end

