-- ==== Sys2Proof/Machine/Mailbox.lean ====
section
/-! DEFINITION. The mailboxes of the Sundyx firmware: frames (R280, R281), the checks of a request (R293), duplicates
and kept responses (R291), long operations (R292), logging (R295), and the command catalogue (R298). -/

namespace Sys2Proof.Machine

/-! ### Error codes (R297) -/

def eFrameCheck : Nat := 0x0001
def eBadOpcode : Nat := 0x0002
def eBadParameter : Nat := 0x0003
def eNoSession : Nat := 0x0004
def eNotAuthenticated : Nat := 0x0005
def eRole : Nat := 0x0006
def eAuthFailed : Nat := 0x0007
def eAuthLocked : Nat := 0x0008
def eRevision : Nat := 0x0009
def eSessionLimit : Nat := 0x000A
def eTagConflict : Nat := 0x000B
def eBuffer : Nat := 0x000C
def eBusy : Nat := 0x000D
def eNotFound : Nat := 0x000E
def eNoResource : Nat := 0x000F
def eSignature : Nat := 0x0010
def eShareLimit : Nat := 0x0011
def eLongLimit : Nat := 0x0012
def eFltFatal : Nat := 0x0901

/-! ### The catalogue (R298) -/

/-- An entry: revision, roles that may send it, Long, and the parameter fields as offset and bytes. -/
structure Cat where
  rev : Nat
  roles : List Nat
  long : Bool
  fields : List (Nat × Nat)
  deriving DecidableEq, Repr

def rO : List Nat := [1]
def rI : List Nat := [2]
def rM : List Nat := [3]
def rIM : List Nat := [2, 3]
def rAll : List Nat := [1, 2, 3]

/-- Sessions, registers, queues, events, partitions, convoys. -/
def catWork : List (Nat × Cat) :=
  [(0x0001, ⟨1, rAll, false, [(0x10, 1), (0x11, 1), (0x12, 1)]⟩), (0x0002, ⟨1, rAll, false, [(0x10, 12)]⟩),
   (0x0003, ⟨1, rAll, false, []⟩), (0x0004, ⟨1, rAll, false, [(0x10, 8)]⟩),
   (0x0010, ⟨1, rAll, false, [(0x10, 16), (0x20, 1)]⟩), (0x0011, ⟨2, rIM, false, [(0x10, 4), (0x18, 8), (0x20, 8)]⟩),
   (0x0101, ⟨1, rO, false, [(0x10, 2), (0x12, 2), (0x14, 1), (0x15, 1), (0x16, 2), (0x18, 8), (0x20, 4), (0x24, 1)]⟩),
   (0x0102, ⟨1, rO, false, [(0x10, 2)]⟩), (0x0103, ⟨1, rO, false, [(0x10, 2), (0x14, 4)]⟩),
   (0x0110, ⟨1, rO, false, [(0x10, 8), (0x18, 2)]⟩), (0x0111, ⟨1, rO, false, [(0x10, 4)]⟩),
   (0x0112, ⟨1, rO, false, [(0x10, 4), (0x14, 2)]⟩),
   (0x0201, ⟨1, rI, false, [(0x10, 1), (0x11, 1), (0x12, 1), (0x13, 1), (0x14, 4), (0x18, 4), (0x1C, 2)]⟩),
   (0x0202, ⟨1, rO, false, [(0x10, 1), (0x12, 2)]⟩), (0x0203, ⟨1, rO, false, [(0x10, 4)]⟩),
   (0x0204, ⟨1, rO, false, [(0x10, 4), (0x14, 2)]⟩),
   (0x0205, ⟨2, rO, false, [(0x10, 4), (0x14, 1), (0x15, 1), (0x18, 4), (0x1C, 4), (0x20, 8)]⟩),
   (0x0206, ⟨2, rO, false, [(0x10, 4), (0x14, 4), (0x18, 12)]⟩)]

/-- Memory, DRAM, display, caravan, counters. -/
def catMemory : List (Nat × Cat) :=
  [(0x0301, ⟨1, rO, false, [(0x10, 1)]⟩), (0x0302, ⟨1, rO, false, [(0x10, 2)]⟩),
   (0x0303, ⟨1, rO, false, [(0x10, 1), (0x11, 1), (0x12, 2), (0x14, 1), (0x16, 2), (0x18, 8)]⟩),
   (0x0304, ⟨1, rO, false, [(0x10, 4), (0x14, 1)]⟩),
   (0x0310, ⟨1, rO, false, [(0x10, 2), (0x12, 1), (0x13, 1), (0x14, 1), (0x15, 1), (0x16, 1), (0x18, 8), (0x20, 8),
      (0x28, 8)]⟩),
   (0x0311, ⟨1, rO, false, [(0x10, 4), (0x14, 2), (0x16, 1), (0x18, 8)]⟩),
   (0x0312, ⟨1, rO, false, [(0x10, 4), (0x14, 4), (0x18, 8)]⟩), (0x0313, ⟨1, rO, false, [(0x10, 4)]⟩),
   (0x0320, ⟨1, rO, false, [(0x10, 2), (0x12, 1)]⟩), (0x0321, ⟨1, rO, false, [(0x10, 2), (0x12, 1), (0x14, 4)]⟩),
   (0x0322, ⟨1, rO, false, [(0x10, 2), (0x12, 1)]⟩), (0x0323, ⟨1, rO, false, [(0x10, 2), (0x12, 1)]⟩),
   (0x0330, ⟨1, rI, false, [(0x10, 1)]⟩),
   (0x0401, ⟨1, rI, false, [(0x10, 1), (0x11, 1), (0x12, 1), (0x13, 1), (0x14, 1), (0x18, 4)]⟩),
   (0x0402, ⟨1, rIM, true, [(0x10, 1)]⟩), (0x0403, ⟨1, rAll, false, [(0x10, 12)]⟩), (0x0404, ⟨1, rI, false, []⟩),
   (0x0501, ⟨1, rI, false, [(0x10, 1), (0x18, 12)]⟩), (0x0502, ⟨1, rI, false, [(0x10, 1), (0x11, 1)]⟩),
   (0x0503, ⟨1, rO, false, [(0x10, 1), (0x11, 1), (0x18, 12)]⟩),
   (0x0504, ⟨1, rI, false, [(0x10, 1), (0x11, 1), (0x18, 12)]⟩),
   (0x0701, ⟨1, rI, false, [(0x10, 1), (0x18, 12)]⟩), (0x0702, ⟨3, rI, true, [(0x10, 1), (0x11, 1)]⟩),
   (0x0A01, ⟨1, rO, false, [(0x10, 1), (0x11, 1), (0x12, 2), (0x14, 2), (0x18, 8), (0x20, 12)]⟩)]

/-- Faults, power, trust, update. -/
def catCare : List (Nat × Cat) :=
  [(0x0801, ⟨1, rAll, false, [(0x10, 4), (0x14, 2), (0x18, 12)]⟩),
   (0x0802, ⟨1, rAll, false, [(0x10, 4), (0x14, 2), (0x18, 12)]⟩),
   (0x0803, ⟨1, rI, false, [(0x10, 2), (0x12, 1), (0x14, 4), (0x18, 4)]⟩),
   (0x0804, ⟨1, rIM, false, [(0x10, 1), (0x11, 1)]⟩), (0x0805, ⟨1, rIM, false, [(0x10, 1), (0x11, 1)]⟩),
   (0x0806, ⟨1, rI, false, [(0x10, 1)]⟩), (0x0901, ⟨1, rO, false, []⟩),
   (0x0902, ⟨1, rI, false, [(0x10, 2), (0x12, 2)]⟩), (0x0903, ⟨1, rAll, false, [(0x10, 4)]⟩),
   (0x0904, ⟨1, rI, false, [(0x10, 4), (0x18, 8)]⟩), (0x0905, ⟨1, rI, true, []⟩),
   (0x0910, ⟨1, rIM, true, [(0x10, 12)]⟩), (0x0911, ⟨1, rIM, true, []⟩), (0x0912, ⟨3, rIM, true, [(0x10, 12)]⟩),
   (0x0913, ⟨3, rIM, true, [(0x10, 1), (0x11, 1)]⟩), (0x0920, ⟨1, rIM, false, [(0x10, 1), (0x18, 12)]⟩),
   (0x0921, ⟨3, rM, false, []⟩), (0x0922, ⟨1, rM, false, []⟩), (0x0923, ⟨1, rM, false, [(0x10, 12)]⟩),
   (0x0924, ⟨1, rM, false, [(0x10, 2), (0x18, 8)]⟩)]

/-- The entry of an opcode. -/
def catalogue (op : Nat) : Option Cat :=
  match mget catWork op with
  | some c => some c
  | none => match mget catMemory op with
    | some c => some c
    | none => mget catCare op

/-- Commands that are accepted after a fatal fault (R490). -/
def fatalOpcodes : List Nat := [0x0001, 0x0002, 0x0003, 0x0004, 0x0010, 0x0801, 0x0802]

/-- Is every byte that the entry does not list 0 (R280)? -/
def Cat.reservedZero (c : Cat) (b : List Byte) : Bool :=
  getLe b 0x09 3 = 0 && (List.range 48).all (fun i =>
    c.fields.any (fun f => f.1 ≤ 0x10 + i && 0x10 + i < f.1 + f.2) || getLe b (0x10 + i) 1 = 0)

/-! ### Requests and answers -/

/-- A request that has passed the checks. -/
structure Req where
  pair : Nat
  op : Nat
  tag : Nat
  session : Nat
  proto : Nat
  role : Nat
  /-- the 64 bytes of the frame -/
  body : List Byte
  deriving DecidableEq, Repr

/-- A parameter: n bytes at a frame offset. -/
def Req.n (r : Req) (off size : Nat) : Nat := getLe r.body off size

/-- What a command answers: S_OK with its result and response flags, an error, or S_IN_PROGRESS (R296). -/
inductive Ans where
  | ok (result : List Byte) (flags : Nat)
  | err (code : Nat)
  | progress
  deriving DecidableEq, Repr

/-- Fields of a result at their frame offsets, over zeros. -/
def result (l : List (Nat × Nat × Nat)) : List Byte :=
  l.foldl (fun b f => putLe b (f.1 - 0x10) f.2.1 f.2.2) (zeros 48)

/-- S_OK with no result. -/
def Ans.done : Ans := .ok (zeros 48) 0

/-- The CHECK of a frame: CRC-32C with CHECK taken as 0 (R280). -/
def frameCrc (b : List Byte) : Nat := crc32c (putLe b 0x0C 4 0)

/-- A response frame (R280); revisions 2 and 3 carry CHECK. -/
def response (op tag session proto status flags error : Nat) (res : List Byte) : List Byte :=
  let b := leBytes 2 op ++ leBytes 2 tag ++ leBytes 4 session ++ leBytes 1 status ++ leBytes 1 flags ++ leBytes 2 error
    ++ zeros 4 ++ slice res 0 48
  if proto = 2 || proto = 3 then putLe b 0x0C 4 (crc32c b) else b

/-- A kept response sent again: REPLAYED set (R291). -/
def replayed (proto : Nat) (b : List Byte) : List Byte :=
  let b := putLe (putLe b 0x09 1 (getLe b 0x09 1 ||| 1)) 0x0C 4 0
  if proto = 2 || proto = 3 then putLe b 0x0C 4 (crc32c b) else b

def MbxPair.reset : MbxPair :=
  { req := zeros 64, rsp := zeros 64, busy := false, reqPending := false, rspReady := false, held := none, haltAck := false }

def State.mbx (s : State) (n : Nat) : MbxPair := mgetD s.host.pairs n MbxPair.reset
def State.setMbx (s : State) (n : Nat) (p : MbxPair) : State :=
  { s with host := { s.host with pairs := mset s.host.pairs n p } }

/-- A response reaches the response buffer: RSP_READY sets and the pair's vector is raised (R261, R282). -/
def State.deliver (s : State) (n : Nat) (b : List Byte) : State :=
  let p := s.mbx n
  (s.setMbx n { p with rsp := b, rspReady := true, reqPending := false, held := none }).interrupt n 0x3 0 n (getLe b 2 2)

/-- Answer the request of a pair; the response is held while the last one has not been acknowledged (R282). -/
def State.answer (s : State) (n : Nat) (b : List Byte) : State :=
  let p := s.mbx n
  if p.rspReady then s.setMbx n { p with held := some b } else s.deliver n b

/-! ### Sessions' kept responses (R291, R292) -/

def State.session? (s : State) (n : Nat) : Option Session := mget s.fw.sessions n
def State.modSession (s : State) (n : Nat) (f : Session → Session) : State :=
  { s with fw := { s.fw with sessions := mmod s.fw.sessions n f } }
def State.endSession (s : State) (n : Nat) : State :=
  { s with fw := { s.fw with sessions := merase s.fw.sessions n } }

/-- Drop the oldest entry that may be dropped. -/
def dropKept : List Kept → List Kept
  | [] => []
  | k :: ks => if !k.running && k.fetched then ks else k :: dropKept ks

/-- Keep a response among the last 64. -/
def Session.keep (x : Session) (k : Kept) : Session :=
  let l := x.kept ++ [k]
  { x with kept := if 64 < l.length then dropKept l else l }

/-- The COMMAND record of a command that no Operator session can send (R295). -/
def State.logCommand (s : State) (role session op tag status error : Nat) : State :=
  match catalogue op with
  | none => s
  | some c =>
    if c.roles.contains 1 then s else
      s.submit { LogRec.blank 0x02 0 with
        status := status, role := role, session := BitVec.ofNat 32 session, opcode := op, tag := tag, error := error } false

/-- Send an answer, keep it, and log the command. -/
def State.finish (s : State) (r : Req) (keep log : Bool) (a : Ans) : State :=
  let (status, flags, err, res) := match a with
    | .ok res flags => (0, flags, 0, res)
    | .err code => (1, 0, code, zeros 48)
    | .progress => (2, 0, 0, zeros 48)
  let sess := if r.op = 0x0001 && status = 0 then getLe res 0 4 else r.session
  let b := response r.op r.tag sess r.proto status flags err res
  let s := if keep then s.modSession r.session (fun x => x.keep
      { tag := r.tag, crc := BitVec.ofNat 32 (frameCrc r.body), rsp := b, running := status = 2, fetched := status ≠ 2 })
    else s
  let s := if log && status ≠ 2 then s.logCommand r.role r.session r.op r.tag status err else s
  s.answer r.pair b

/-- May a session start a long operation (R292)? The error otherwise; FW_ACTIVATE lets no new one start (R536). -/
def State.longError (s : State) (r : Req) : Option Nat :=
  if 4 ≤ (s.fw.longOps.filter (fun l => l.session = r.session)).length then some eLongLimit
  else if s.fw.longOps.any (fun l => l.opcode = r.op || l.opcode = 0x0911) then some eBusy
  else none

/-- Start a long operation that holds `data` until its end. -/
def State.startLong (s : State) (r : Req) (data : List Byte) : Ans × State :=
  match s.longError r with
  | some e => (.err e, s)
  | none =>
    let l : LongOp := { opcode := r.op, pair := r.pair, session := r.session, tag := r.tag, rev := r.proto, role := r.role
                        params := r.body.drop 0x10, data := data }
    (.progress, { s with fw := { s.fw with longOps := s.fw.longOps ++ [l] } })

/-! ### The checks of R293 -/

/-- Can the firmware take the request of a pair now? -/
def State.mbxOpen (s : State) : Bool := s.up && s.fw.mbxReady && !s.fw.updating && !s.halted

/-- Opcode of a frame. -/
def frameOp (b : List Byte) : Nat := getLe b 0 2

/-- Checks 6 to 10 of R293, after those of the frame and of duplicates. -/
def State.mbxExecute (s : State) (r : Req) (x : Session) (act : Req → State → Ans × State) : State :=
  if !x.authed && r.op ≠ 0x0002 && r.op ≠ 0x0003 then s.finish r true false (.err eNotAuthenticated)
  else match catalogue r.op with
    | none => s.finish r true false (.err eBadOpcode)
    | some c =>
      if x.rev < c.rev then s.finish r true false (.err eBadOpcode)
      else if !c.roles.contains x.role then s.finish r true true (.err eRole)
      else if s.flt.fatal && !fatalOpcodes.contains r.op then s.finish r true true (.err eFltFatal)
      else if !c.reservedZero r.body then s.finish r true true (.err eBadParameter)
      else
        let (a, s) := act r s
        s.finish r (r.op ≠ 0x0001) true a

/-- Serve the request that waits on a pair, if it is one that `mine` takes (R293). -/
def State.mbxServe (s : State) (pair : Nat) (mine : List Byte → Bool) (act : Req → State → Ans × State) : Out :=
  let p := s.mbx pair
  let b := p.req
  if !s.mbxOpen || !p.reqPending || p.held.isSome || !mine b then .next s
  else
    let op := frameOp b
    let proto := getLe b 8 1
    let session := getLe b 4 4
    let r : Req := { pair := pair, op := op, tag := getLe b 2 2, session := session, proto := proto, role := 0, body := b }
    if proto = 0 || 3 < proto then .next (s.finish r false false (.err eRevision))
    else if 2 ≤ proto && getLe b 0x0C 4 ≠ frameCrc b then .next (s.finish r false false (.err eFrameCheck))
    else match s.session? session with
      | none =>
        if session ≠ 0 || op ≠ 0x0001 then .next (s.finish r false false (.err eNoSession))
        else if !(match catalogue op with | some c => c.reservedZero b | none => false) then
          .next (s.finish r false false (.err eBadParameter))
        else
          let (a, s) := act r s
          .next (s.finish r false false a)
      | some x =>
        let r := { r with role := x.role }
        if proto ≠ x.rev then .next (s.finish r false false (.err eRevision))
        else match x.kept.find? (fun k => k.tag = r.tag) with
          | some k =>
            if k.crc.toNat = frameCrc b then
              let mark := fun (j : Kept) => if j.tag = k.tag && !j.running then { j with fetched := true } else j
              .next ((s.modSession session (fun y => { y with kept := y.kept.map mark })).answer pair (replayed proto k.rsp))
            else .next (s.finish r false false (.err eTagConflict))
          | none => .next (s.mbxExecute r x act)

/-- Serve a request of one opcode. -/
def State.mbxCmd (s : State) (pair : Fin 8) (op : Nat) (act : Req → State → Ans × State) : Out :=
  s.mbxServe pair.val (fun b => frameOp b = op) act

/-- A BUF descriptor at a frame offset: address and length (R281). -/
def Req.buf (r : Req) (off : Nat) : Nat × Nat := (r.n off 8, r.n (off + 8) 4)

/-- An input buffer read whole (R281): its bytes, or none when the read fails or the length is outside its limits. -/
def Req.input (r : Req) (off lo hi : Nat) (buf : Option (List Byte)) : Option (List Byte) :=
  let (a, n) := r.buf off
  if n < lo || hi < n || a % 8 ≠ 0 then none
  else buf.bind (fun l => if l.length = n then some l else none)

/-- An output buffer written whole before the response (R281). -/
def State.output (s : State) (addr : Nat) (l : List Byte) : State := if l.isEmpty then s else s.send (.write addr l)

/-- A vector parameter: 0 or 16 to 2,047 (R270). -/
def vectorOk (v : Nat) : Bool := v = 0 || (16 ≤ v && v ≤ 2047)

/-! ### The pair's own commands -/

/-- POST: the request is handed to the caravan master (R261, R282); an opcode that no command has is answered here. -/
def State.postMbx (s : State) (n : Nat) : State :=
  let p := s.mbx n
  if p.reqPending then s
  else
    let s := s.setMbx n { p with reqPending := true }
    match s.mbxServe n (fun b => (catalogue (frameOp b)).isNone) (fun _ s => (.err eBadOpcode, s)) with
    | .next s => s
    | _ => s

/-- ACK: RSP_READY clears, and a held response is written (R261, R282). -/
def State.ackMbx (s : State) (n : Nat) : State :=
  let p := s.mbx n
  if !p.rspReady then s
  else
    let s := s.setMbx n { p with rspReady := false, haltAck := p.haltAck && p.held.isSome }
    match p.held with
    | none => s
    | some b => s.deliver n b

/-! ### Sessions (R285 to R289) -/

/-- Open sessions of a role. -/
def State.sessionsOf (s : State) (role : Nat) : Nat := (s.fw.sessions.filter (fun p => p.2.role = role)).length

/-- The next session number: never 0, never one that is open (R285). -/
def State.newSession (s : State) : Nat :=
  (((List.range 66).map (fun i => (s.fw.nextSession.toNat + i) % 2 ^ 32)).find? (fun n =>
    n ≠ 0 && !mhas s.fw.sessions n)).getD 1

/-- SESSION_OPEN (R285, R289). -/
def execSessionOpen (pair : Fin 8) (s : State) : Out :=
  s.mbxCmd pair 0x0001 (fun r s =>
    let role := r.n 0x10 1
    let lo := r.n 0x11 1
    let hi := min (r.n 0x12 1) 3
    if role = 0 || 3 < role then (.err eBadParameter, s)
    else if hi < 1 || hi < lo || (2 ≤ role && hi < 2) then (.err eRevision, s)
    else if 64 ≤ s.fw.sessions.length || (role = 2 && 4 ≤ s.sessionsOf 2) || (role = 3 && 1 ≤ s.sessionsOf 3) then
      (.err eSessionLimit, s)
    else
      let n := s.newSession
      let (f, s) := s.draw
      let ch := leBytes 32 f
      let x : Session := { role := role, rev := hi, authed := false, challenge := ch, expired := false, fails := 0
                           kept := [], diag := false }
      (.ok (putBytes (result [(0x10, 4, n), (0x14, 1, hi)]) 8 ch) 0,
        { s with fw := { s.fw with sessions := mset s.fw.sessions n x, nextSession := BitVec.ofNat 32 (n + 1) } }))

/-- Roles of the key slots (R526): 1 Operator, 2 Installer, 3 Maker, 4 image signing. -/
def slotRole (k : Nat) : Nat := if k ≤ 1 then 3 else if k ≤ 3 then 4 else if k ≤ 7 then 2 else 1

/-- Do both signatures of a message verify against a key slot (R287, R526)? -/
def State.bothVerify (s : State) (slot : Nat) (msg ed ml : List Byte) : Bool :=
  match mget s.mram.keys slot with
  | none => false
  | some k => !(k.ed ++ k.ml).all (· = 0) && Config.ed25519Verify k.ed msg ed && Config.mlDsaVerify k.ml msg ml

/-- The AUTH record of R287 and R288. -/
def State.logAuth (s : State) (r : Req) (slot err : Nat) : State :=
  s.submit { LogRec.blank 0x03 0 with
    status := b2n (err ≠ 0), role := r.role, session := BitVec.ofNat 32 r.session, opcode := 0x0002, tag := r.tag
    error := err, arg0 := BitVec.ofNat 64 slot } false

/-- A failed authentication (R288): logged, counted for the lockout, and the session closes at its third, or at once
when its challenge has expired. -/
def State.failAuth (s : State) (r : Req) (x : Session) (slot : Nat) : Ans × State :=
  let s := s.logAuth r slot eAuthFailed
  let times := (s.fw.authFails ++ [s.aclk]).filter (fun t => s.aclk ≤ t + 2 ^ 25)
  let lock := 16 ≤ times.length
  let s := { s with fw := { s.fw with authFails := if lock then [] else times, authLocked := s.fw.authLocked || lock } }
  let s := s.modSession r.session (fun y => { y with fails := y.fails + 1 })
  (.err eAuthFailed, if x.expired || 3 ≤ x.fails + 1 then s.endSession r.session else s)

/-- An authentication refused during a lockout (R288): logged, and one of the session's three; it checks nothing, so it
is no further failed authentication of the die. -/
def State.refuseAuth (s : State) (r : Req) (x : Session) (slot : Nat) : State :=
  let s := (s.logAuth r slot eAuthLocked).modSession r.session (fun y => { y with fails := y.fails + 1 })
  if 3 ≤ x.fails + 1 then s.endSession r.session else s

/-- SESSION_AUTH (R287, R288). -/
def execSessionAuth (pair : Fin 8) (buf : Option (List Byte)) (s : State) : Out :=
  s.mbxCmd pair 0x0002 (fun r s =>
    match s.session? r.session with
    | none => (.err eNoSession, s)
    | some x =>
      if s.fw.authLocked then
        (.err eAuthLocked, s.refuseAuth r x (((r.input 0x10 3389 3389 buf).map (fun b => getLe b 0 1)).getD 0))
      else match r.input 0x10 3389 3389 buf with
        | none => (.err eBuffer, s)
        | some b =>
          let slot := getLe b 0 1
          let msg := x.challenge ++ leBytes 8 Config.dieId.toNat ++ leBytes 4 r.session ++ leBytes 1 x.role
            ++ leBytes 1 x.rev ++ zeros 2
          if getLe b 1 15 ≠ 0 then (.err eBadParameter, s)
          else if slot ≤ 15 && slotRole slot = x.role && !x.expired
              && s.bothVerify slot msg (slice b 0x10 64) (slice b 0x50 3309) then
            (Ans.done, (s.logAuth r slot 0).modSession r.session (fun y => { y with authed := true }))
          else s.failAuth r x slot)

/-- SESSION_CLOSE (R289). -/
def execSessionClose (pair : Fin 8) (s : State) : Out :=
  s.mbxCmd pair 0x0003 (fun r s => (Ans.done, s.endSession r.session))

/-- CHALLENGE_EXPIRY: 2^22 ACLK after SESSION_OPEN (R288). -/
def execChallengeExpiry (session : Word) (s : State) : Out :=
  .next (s.modSession session.toNat (fun x => if x.authed then x else { x with expired := true }))

/-- AUTH_LOCKOUT_END (R288). -/
def execAuthLockoutEnd (s : State) : Out := .next { s with fw := { s.fw with authLocked := false } }

/-- PING (R298): the value, and an MCLK stamp. -/
def execPing (pair : Fin 8) (s : State) : Out :=
  s.mbxCmd pair 0x0004 (fun r s => (.ok (result [(0x10, 8, r.n 0x10 8), (0x18, 8, s.stamp domM)]) 0, s))

end Sys2Proof.Machine
end

