-- ==== Sys2Proof/Machine/Events.lean ====
section
/-! DEFINITION. The event unit (R322 to R325): counters, the awaits a record releases, and the mailbox commands that
allocate, free and bind events (R298). -/

namespace Sys2Proof.Machine

/-- Condition pairs of an EVENT_AWAIT payload that are enabled: event, value (R317). -/
def awaitPairs (payload : List Byte) : List (Nat × Nat) :=
  [0x00, 0x10, 0x20].filterMap (fun o =>
    let e := getLe payload o 4
    if bit e 31 then some (bits e 16 0, getLe payload (o + 8) 8) else none)

/-- Do all conditions hold? -/
def State.awaitHolds (s : State) (payload : List Byte) : Bool :=
  (awaitPairs payload).all (fun p => match mget s.events p.1 with
    | some e => p.2 ≤ e.count.toNat
    | none => false)

/-- A released command begins with a caravan-scope acquire on its engine (R180, R323). -/
def State.queueAcquire (s : State) (q : Queue) : State := if q.kind = 0 then s.acquire q.unit else s

/-- Release every waiting EVENT_AWAIT whose conditions hold (R323). -/
def State.releaseAwaits (s : State) : State :=
  s.queues.foldl (fun s p =>
    p.2.cmds.foldl (fun s c =>
      if c.opcode = 0x03 && c.st = .started && s.awaitHolds c.payload then
        (s.endCmd p.1 c.index 0 0).queueAcquire p.2
      else s) s) s

/-- Record a value on a local event (R322): the counter never falls; a change sends the bound event's cookie and
releases awaits. `lost` sets COMPLETION_WRITE_LOST (R327). -/
def State.recordEvent (s : State) (ev v : Nat) (lost : Bool) : State :=
  match mget s.events ev with
  | none => s
  | some e =>
    if v ≤ e.count.toNat then s
    else
      let s := { s with events := mset s.events ev { e with count := BitVec.ofNat 64 v } }
      (s.interruptOpt e.vector 0x0 (b2n lost) ev v).releaseAwaits

/-- Opcodes that allow a SIGNAL (R314, R348, R380, R442). -/
def signalOpcodes : List Nat := [0x01, 0x02, 0x03, 0x04, 0x05, 0x06, 0x12, 0x20, 0x21, 0x34]

/-- A SIGNAL block: enabled, remote, die, event, value (R313). -/
structure Signal where
  enable : Bool
  remote : Bool
  die : Nat
  event : Nat
  value : Nat
  deriving DecidableEq, Repr

/-- The SIGNAL block of a payload: the last 16 bytes of its last entry. -/
def signalOf (opcode : Nat) (payload : List Byte) : Option Signal :=
  if !signalOpcodes.contains opcode || payload.length < 64 then none
  else
    let e := getLe payload (payload.length - 16) 4
    some { enable := bit e 31, remote := bit e 20, die := bits e 19 17, event := bits e 16 0
           value := getLe payload (payload.length - 8) 8 }

/-- Does an accepted command wait on a local event or hold a SIGNAL that names it (R325)? -/
def Cmd.names (c : Cmd) (self ev : Nat) : Bool :=
  (match signalOf c.opcode c.payload with
    | some g => g.enable && (!g.remote || g.die = self) && g.event = ev
    | none => false)
  || (c.opcode = 0x03 && (awaitPairs c.payload).any (fun p => p.1 = ev))

def State.eventBusy (s : State) (ev : Nat) : Bool := s.queues.any (fun p => p.2.cmds.any (fun c => c.names s.caravan.die ev))

def eEventBusy : Nat := 0x0404

/-- A free number of [lo, lo + n): the device's choice is a free value where that number is free, else the lowest. -/
def State.pick {α : Type} (s : State) (m : Map α) (lo n : Nat) : Option (Nat × State) :=
  let c := lo + s.peek 0 % n
  if !mhas m c then some (c, s.drew 1) else (firstFree m lo n).map (fun k => (k, s.drew 1))

/-- EVENT_ALLOC (R298). -/
def execEventAlloc (pair : Fin 8) (s : State) : Out :=
  s.mbxCmd pair 0x0110 (fun r s =>
    let v := r.n 0x18 2
    if !vectorOk v then (.err eBadParameter, s)
    else match s.pick s.events 0 131072 with
      | none => (.err eNoResource, s)
      | some (k, s) =>
        let e : Event := { count := BitVec.ofNat 64 (r.n 0x10 8), vector := v }
        (.ok (result [(0x10, 4, k)]) 0, { s with events := mset s.events k e }))

/-- EVENT_FREE (R325). -/
def execEventFree (pair : Fin 8) (s : State) : Out :=
  s.mbxCmd pair 0x0111 (fun r s =>
    let k := r.n 0x10 4
    if 131071 < k then (.err eBadParameter, s)
    else if !mhas s.events k then (.err eNotFound, s)
    else if s.eventBusy k then (.err eEventBusy, s)
    else (Ans.done, { s with events := merase s.events k }))

/-- EVENT_BIND (R298). -/
def execEventBind (pair : Fin 8) (s : State) : Out :=
  s.mbxCmd pair 0x0112 (fun r s =>
    let k := r.n 0x10 4
    let v := r.n 0x14 2
    if 131071 < k || !vectorOk v then (.err eBadParameter, s)
    else if !mhas s.events k then (.err eNotFound, s)
    else (Ans.done, { s with events := mmod s.events k (fun e => { e with vector := v }) }))

end Sys2Proof.Machine
end

