-- ==== Sys2Proof/Machine/Heap.lean ====
section
/-! DEFINITION. The device allocator (R103, R104, R208 to R214) and the instructions ALLOC and FREE, class 0xB. -/

namespace Sys2Proof.Machine

/-- Key of a heap slot of an address space. -/
def heapKey (asid slot : Nat) : Nat := asid * 256 + slot

/-- Class of a request: the smallest c with 64 × 2^c ≥ size (R209). -/
def heapClass (size : Nat) : Nat := ((List.range 21).find? (fun c => size ≤ 64 * 2 ^ c)).getD 20

/-- Live heap objects of a heap: base and size (R213). -/
def State.heapObjs (s : State) (h : Heap) : List (Nat × Nat) :=
  h.objs.filterMap (fun o => match mget s.mmu.objs o.1 with
    | some x => if x.st = .live then some (x.va, x.size) else none
    | none => none)

/-- Chunk bases of the live heap objects, rising within each object. -/
def State.heapChunks (s : State) (h : Heap) : List Nat :=
  ((s.heapObjs h).map (fun o => (List.range (o.2 / 2 ^ 21)).map (fun i => o.1 + i * 2 ^ 21))).flatten

/-- Is a chunk free: no class holds it and no large block covers it? -/
def Heap.chunkFree (h : Heap) (c : Nat) : Bool :=
  !mhas h.chunks c && h.blocks.all (fun b => b.2 < 15 || c < b.1 || b.1 + 64 * 2 ^ b.2 ≤ c)

/-- A free block of class c in a chunk: the free value's block where it is free, else the lowest free one. -/
def Heap.blockIn (h : Heap) (chunk c free : Nat) : Option Nat :=
  let sz := 64 * 2 ^ c
  let n := 2 ^ 21 / sz
  let used := (h.blocks.filter (fun b => chunk ≤ b.1 && b.1 < chunk + 2 ^ 21)).length
  if n ≤ used then none
  else
    let cand := chunk + free % n * sz
    if !mhas h.blocks cand then some cand
    else ((List.range (used + 1)).map (fun i => chunk + i * sz)).find? (fun a => !mhas h.blocks a)

/-- Where a request of class c is served now (R209): the block, and the heap with it. Which free block a request takes is
not stated: it is chosen by a free value (log entry 10). -/
def State.heapTake (s : State) (h : Heap) (c free : Nat) : Option (Nat × Heap) :=
  let live := s.heapChunks h
  if c ≤ 14 then
    let own := (h.chunks.filter (fun p => p.2 = c && live.contains p.1)).map (fun p => p.1)
    match own.filterMap (fun ch => h.blockIn ch c free) with
    | a :: as =>
      let l := a :: as
      let b := l.getD (free % l.length) a
      some (b, { h with blocks := mset h.blocks b c })
    | [] =>
      let fr := live.filter h.chunkFree
      (fr[free % fr.length]?).map (fun ch =>
        let b := ch + free % (2 ^ 21 / (64 * 2 ^ c)) * (64 * 2 ^ c)
        (b, { h with blocks := mset h.blocks b c, chunks := mset h.chunks ch c }))
  else
    let n := 2 ^ (c - 15)
    let fits := live.filter (fun ch =>
      (s.heapObjs h).any (fun o => o.1 ≤ ch && ch + n * 2 ^ 21 ≤ o.1 + o.2) &&
      (List.range n).all (fun i => h.chunkFree (ch + i * 2 ^ 21)))
    (fits[free % fits.length]?).map (fun ch => (ch, { h with blocks := mset h.blocks ch c }))

/-- Serve lanes in ascending order (R103, R210): results, unserved classes, heap after. -/
def State.heapServe (s : State) (h : Heap) (reqs : List (Nat × Nat)) : List (Nat × Nat) × List Nat × Heap :=
  foldIdx reqs ([], [], h) (fun r k q =>
    let (out, un, h) := r
    if q.2 = 0 || 64 * 2 ^ 20 < q.2 then (out ++ [(q.1, 0)], un, h)
    else match s.heapTake h (heapClass q.2) (s.peek k) with
      | some (b, h) => (out ++ [(q.1, b)], un, h)
      | none => (out ++ [(q.1, 0)], un ++ [heapClass q.2], h))

/-- ALLOC (R103, R104, R210, R211). -/
def execAlloc (w : Site) (h : Hdr) (low : BitVec 26) (s : State) : Out :=
  let slot := bits low.toNat 25 18
  let grow := bit low.toNat 17
  let u : Use := { use0 with rv := [h.src0.toNat], wv := regs h.dst.toNat 2, ok := h.dst.toNat % 2 = 0 }
  s.issue w h 0xB (bits low.toNat 16 0 = 0) u (fun a s =>
    let asid := (s.ctxOf a.str.queue a.str.cmd).1
    let ls := lanesOf a.lanes
    let reqs := ls.map (fun i => (i, (a.a0 i).toNat))
    let done := fun (out : List (Nat × Nat)) (s : State) =>
      (s.bump blkCE a.e 0x018 (out.filter (fun p => p.2 = 0)).length).setStr a.e a.place
        ((out.foldl (fun st p => st.setV2 h.dst.toNat p.1 p.2) a.str.step).pend u.writes)
    match mget s.mmu.heaps (heapKey asid slot) with
    | none => done (ls.map (fun i => (i, 0))) s
    | some hp =>
      let (out, un, hp') := s.heapServe hp reqs
      -- a DECLINE answered this string's growth request: it replays as if GROW were 0 (R211)
      if grow && !un.isEmpty && !a.str.noGrow then
        let top := un.foldl max 0
        s.park a 0x10 accRead 0 0xFF (roundUp (64 * 2 ^ top) (2 ^ 21)) slot (heapKey asid slot)
      else
        let s := { s with mmu := { s.mmu with heaps := mset s.mmu.heaps (heapKey asid slot) hp' } }.drew 32
        (done out s).modStr a.e a.place (fun st => { st with noGrow := false }))

/-- Return one block (R212, R213): whether the free was bad, and the heap after. -/
def State.heapFree (s : State) (h : Heap) (addr : Nat) : Bool × Heap :=
  let inside := fun (o : Obj) => o.va ≤ addr && addr < o.va + o.size
  let objs := h.objs.filterMap (fun o => mget s.mmu.objs o.1)
  match objs.find? inside with
  | none => (true, h)
  | some o =>
    if o.st ≠ .live then (!mhas h.blocks addr, h)
    else if !mhas h.blocks addr then (true, h)
    else
      let blocks := merase h.blocks addr
      let chunk := addr / 2 ^ 21 * 2 ^ 21
      let empty := blocks.all (fun b => b.1 < chunk || chunk + 2 ^ 21 ≤ b.1)
      (false, { h with blocks := blocks, chunks := if empty then merase h.chunks chunk else h.chunks })

/-- A bad FREE is counted, and logged once per dispatch (R212). -/
def State.badFree (s : State) (a : Act) (asid slot addr : Nat) : State :=
  let (_, _, wb, _) := s.ctxOf a.str.queue a.str.cmd
  let s := { s with mmu := { s.mmu with heaps := mmod s.mmu.heaps (heapKey asid slot) (fun h =>
    { h with badFrees := h.badFrees + 1 }) } }
  let mine := fun (d : Disp) => d.queue = a.str.queue && d.cmd = a.str.cmd
  if (s.eng a.e).disps.any (fun d => mine d && !d.badFree) then
    (s.modEng a.e (fun v => { v with disps := v.disps.map (fun d => if mine d then { d with badFree := true } else d) })).log
      0x06 addr wb.toNat (asid + slot * 65536)
  else s

/-- FREE (R103, R212, R213): address 0 does nothing. -/
def execFree (w : Site) (h : Hdr) (low : BitVec 26) (s : State) : Out :=
  let slot := bits low.toNat 25 18
  s.issue w h 0xB (bits low.toNat 17 0 = 0) { use0 with rv := regs h.src0.toNat 2, ok := h.src0.toNat % 2 = 0 } (fun a s =>
    let asid := (s.ctxOf a.str.queue a.str.cmd).1
    let s := s.setStr a.e a.place a.str.step
    (lanesOf a.lanes).foldl (fun s i =>
      let addr := a.str.v2 h.src0.toNat i
      if addr = 0 then s
      else match mget s.mmu.heaps (heapKey asid slot) with
        | none => s.badFree a asid slot addr
        | some hp =>
          let (bad, hp) := s.heapFree hp addr
          if bad then s.badFree a asid slot addr
          else { s with mmu := { s.mmu with heaps := mset s.mmu.heaps (heapKey asid slot) hp } }) s)

end Sys2Proof.Machine
end

