-- ==== Sys2Proof/Machine/Objects.lean ====
section
/-! DEFINITION. Address spaces, memory objects and heaps: the commands of R183, R201 to R208, R212, doom and reclaim (R206,
R207). -/

namespace Sys2Proof.Machine

def eObjectDoomed : Nat := 0x0201
def eObjectBusy : Nat := 0x0202
def eObjectInvalid : Nat := 0x0203
def eNoTableSpace : Nat := 0x0204
def eAsidBusy : Nat := 0x0207

def State.obj? (s : State) (h : Nat) : Option Obj := mget s.mmu.objs h
def State.modObj (s : State) (h : Nat) (f : Obj → Obj) : State :=
  { s with mmu := { s.mmu with objs := mmod s.mmu.objs h f } }

/-! ### Address spaces -/

/-- ASID_CREATE (R183, R298): a root table from the page-table region. -/
def execAsidCreate (pair : Fin 8) (s : State) : Out :=
  s.mbxCmd pair 0x0301 (fun r s =>
    let ring := r.n 0x10 1
    if 15 < ring then (.err eBadParameter, s)
    else match s.pick s.mmu.asids 0 65535 with
      | none => (.err eNoResource, s)
      | some (k, t) => match t.newTable with
        | none => (.err eNoTableSpace, s)
        | some (root, s) =>
          let a : Asid := { ring := ring, root := root }
          (.ok (result [(0x10, 2, k)]) 0, { s with mmu := { s.mmu with asids := mset s.mmu.asids k a } }))

/-- The table pages under a table of a level (R185). -/
def State.tablesUnder (s : State) : Nat → Nat → List Nat
  | 0, t => [t]
  | n + 1, t => t :: ((List.range 512).map (fun i =>
      let pte := memLe s.mem.cells (t + 8 * i) 8
      if bit pte 0 && !bit pte 1 then s.tablesUnder n (bits pte 39 12 * 4096) else [])).flatten

/-- Remove an address space: its table pages return to the region, and its cached translations are dropped (R191). -/
def State.dropAsid (s : State) (k : Nat) : State :=
  match mget s.mmu.asids k with
  | none => s
  | some a =>
    let gone := s.tablesUnder 3 a.root
    let s := s.invalidate k 0 (2 ^ 48)
    { s with mmu := { s.mmu with
        asids := merase s.mmu.asids k
        tables := s.mmu.tables.filter (fun t => !gone.contains t)
        heaps := s.mmu.heaps.filter (fun p => p.1 / 256 ≠ k) } }

/-- ASID_DESTROY (R298). -/
def execAsidDestroy (pair : Fin 8) (s : State) : Out :=
  s.mbxCmd pair 0x0302 (fun r s =>
    let k := r.n 0x10 2
    if k = 0xFFFF then (.err eBadParameter, s)
    else if !mhas s.mmu.asids k then (.err eNotFound, s)
    else if s.queues.any (fun p => p.2.asid = k) || s.mmu.objs.any (fun p => p.2.asid = k) then (.err eAsidBusy, s)
    else (Ans.done, s.dropAsid k))

/-! ### Backing and mapping -/

/-- Is a range already mapped in an address space? -/
def State.overlaps (s : State) (asid va size : Nat) : Bool :=
  s.mmu.objs.any (fun p => p.2.asid = asid && p.2.va < va + size && va < p.2.va + p.2.size)

/-- A range of R201: multiples of the page size, not empty, below 2^48, above the first 64 KiB, not mapped yet. -/
def State.rangeOk (s : State) (asid va size page : Nat) : Bool :=
  va % pageCode page = 0 && size % pageCode page = 0 && size ≠ 0 && va + size ≤ 2 ^ 48 && 65536 ≤ va
  && !s.overlaps asid va size

/-- The next handle of the rotation (R201). -/
def State.freeHandle (s : State) : Option Nat :=
  match firstFree s.mmu.objs s.mmu.nextHandle (2 ^ 20 - s.mmu.nextHandle) with
  | some h => some h
  | none => firstFree s.mmu.objs 0 s.mmu.nextHandle

/-- Addresses of the pages of a backing. -/
def Backing.addrs (b : Backing) (page : Nat) : List Nat :=
  if b.placement = 2 then b.pages else (List.range (b.size / pageCode page)).map (fun i => b.base + i * pageCode page)

/-- TARGET of a backing's pages (R186). -/
def Backing.target (b : Backing) : Nat := if b.placement = 2 then 1 else if b.placement = 3 then 2 else 0

/-- Map a backing as a new object; none when the page-table region is full. -/
def State.mapObj (s : State) (o : Obj) (h : Nat) (b : Backing) : Option State :=
  match mget s.mmu.asids o.asid with
  | none => none
  | some a =>
    let flags := leafFlags o.access o.cpol b.target (if b.placement = 3 then b.die else 0) h (o.page = 1)
    (s.mapPages a.root o.va o.page flags (b.addrs o.page)).map (fun s =>
      { s with mmu := { s.mmu with objs := mset s.mmu.objs h o, nextHandle := (h + 1) % 2 ^ 20 } })

/-- Backing of R201 by placement. `ext` carries what the outside answers: the page list of host placement, or the base
address that the owning die's caravan master gives (R471). -/
def State.newBacking (s : State) (placement die size page : Nat) (ext : Option (List Byte)) :
    Except Nat (Backing × State) :=
  let b : Backing := { placement := placement, die := die, heldFor := none, base := 0, size := size, pages := [] }
  match placement with
  | 0 => match s.reserve size (pageCode page) with
    | some (a, s) => .ok ({ b with base := a }, s)
    | none => .error eNoResource
  | 1 => match s.reserveSr size (pageCode page) with
    | some (a, s) => .ok ({ b with base := a }, s)
    | none => .error eNoResource
  | 2 =>
    let n := size / pageCode page
    match ext with
    | none => .error eBuffer
    | some l =>
      let ps := (List.range n).map (fun i => getLe l (8 * i) 8)
      if l.length ≠ 8 * n then .error eBuffer
      else if ps.any (fun a => a % pageCode page ≠ 0 || 2 ^ 52 ≤ a) then .error eBadParameter
      else .ok ({ b with pages := ps }, s)
  | _ =>
    let s := s.askDie die (mgmtBytes mgmtBacking page (leBytes 8 size))
    match ext with
    | none => .error eNoResource
    | some l =>
      let a := getLe l 0 8
      if l.length ≠ 8 || a % pageCode page ≠ 0 || 2 ^ 40 ≤ a then .error eNoResource else .ok ({ b with base := a }, s)

/-- OBJ_CREATE (R201). -/
def execObjCreate (pair : Fin 8) (buf : Option (List Byte)) (s : State) : Out :=
  s.mbxCmd pair 0x0310 (fun r s =>
    let asid := r.n 0x10 2
    let placement := r.n 0x12 1
    let die := r.n 0x13 1
    let page := r.n 0x14 1
    let access := r.n 0x15 1
    let cpol := r.n 0x16 1
    let va := r.n 0x18 8
    let size := r.n 0x20 8
    if !mhas s.mmu.asids asid then (.err eNotFound, s)
    else if 3 < placement || 3 < page || 3 < access || 3 ≤ cpol || !s.rangeOk asid va size page
        || (placement = 3 && (die = s.caravan.die || !(match mget s.caravan.topo die with
          | some t => t.st = 1
          | none => false))) then (.err eBadParameter, s)
    else match s.freeHandle with
      | none => (.err eNoResource, s)
      | some h => match s.newBacking placement die size page buf with
        | .error e => (.err e, s)
        | .ok (b, t) =>
          let key := t.mmu.nextBacking
          let t := { t with mmu := { t.mmu with backings := mset t.mmu.backings key b, nextBacking := key + 1 } }
          let o : Obj := { asid := asid, va := va, size := size, page := page, access := access, cpol := cpol
                           backing := key, st := .live, uses := 0, horizons := [], event := none }
          match t.mapObj o h b with
          | none => (.err eNoTableSpace, s)
          | some t => (.ok (result [(0x10, 4, h)]) 0, t))

/-- OBJ_ALIAS (R201): a second handle over the same backing. -/
def execObjAlias (pair : Fin 8) (s : State) : Out :=
  s.mbxCmd pair 0x0311 (fun r s =>
    let h0 := r.n 0x10 4
    let asid := r.n 0x14 2
    let access := r.n 0x16 1
    let va := r.n 0x18 8
    if !mhas s.mmu.asids asid then (.err eNotFound, s)
    else match s.obj? h0 with
      | none => (.err eNotFound, s)
      | some o0 =>
        if o0.st ≠ .live then (.err eObjectDoomed, s)
        else if 3 < access || !s.rangeOk asid va o0.size o0.page then (.err eBadParameter, s)
        else match s.freeHandle, mget s.mmu.backings o0.backing with
          | some h, some b =>
            let o : Obj := { o0 with asid := asid, va := va, access := access, uses := 0, horizons := [], event := none }
            (match s.mapObj o h b with
            | none => (.err eNoTableSpace, s)
            | some t => (.ok (result [(0x10, 4, h)]) 0, t))
          | _, _ => (.err eNoResource, s))

/-! ### Doom and reclaim -/

/-- Has a queue fetched up to a horizon, or been destroyed (R206)? -/
def State.pastHorizon (s : State) (z : Nat × Word) : Bool :=
  match s.queue? z.1 with
  | none => true
  | some q => (q.head - z.2).toNat < 2 ^ 31

/-- Objects whose every horizon has been reached are DOOMED (R206). -/
def State.checkDoom (s : State) : State :=
  { s with mmu := { s.mmu with objs := mmap s.mmu.objs (fun _ o =>
      if o.st = .dooming then
        let left := o.horizons.filter (fun z => !s.pastHorizon z)
        { o with horizons := left, st := if left.isEmpty then .doomed else .dooming }
      else o) } }

/-- Doom a live object: a horizon for each queue of its address space (R206). -/
def State.doom (s : State) (h : Nat) (event : Option (Nat × Dword)) : State :=
  match s.obj? h with
  | none => s
  | some o =>
    if o.st ≠ .live then s
    else
      let zs := (s.queues.filter (fun p => p.2.asid = o.asid)).map (fun p => (p.1, p.2.tail))
      (s.modObj h (fun o => { o with st := .dooming, horizons := zs, event := event })).checkDoom

/-- OBJ_FREE (R202, R206). -/
def execObjFree (pair : Fin 8) (s : State) : Out :=
  s.mbxCmd pair 0x0312 (fun r s =>
    let h := r.n 0x10 4
    let ev := r.n 0x14 4
    if 2 ^ 20 ≤ h || (ev ≠ 0xFFFFFFFF && 131071 < ev) then (.err eBadParameter, s)
    else match s.obj? h with
      | none => (.err eObjectDoomed, s)
      | some o =>
        if o.st ≠ .live then (.err eObjectDoomed, s)
        else if ev ≠ 0xFFFFFFFF && !mhas s.events ev then (.err eNotFound, s)
        else (Ans.done, s.doom h (if ev = 0xFFFFFFFF then none else some (ev, BitVec.ofNat 64 (r.n 0x18 8)))))

/-- STATE of OBJ_QUERY. -/
def ObjState.code : ObjState → Nat
  | .live => 1
  | .dooming => 2
  | .doomed => 3

/-- OBJ_QUERY (R202, R298). -/
def execObjQuery (pair : Fin 8) (s : State) : Out :=
  s.mbxCmd pair 0x0313 (fun r s =>
    let h := r.n 0x10 4
    if 2 ^ 20 ≤ h then (.err eBadParameter, s)
    else match s.obj? h with
      | none => (Ans.done, s)
      | some o => (.ok (result [(0x10, 1, o.st.code), (0x14, 4, o.uses), (0x18, 8, o.va), (0x20, 8, o.size),
          (0x28, 2, o.asid)]) 0, s))

/-- Give a backing back once no handle maps it: zeros and the free pool, or the owning die (R207). -/
def State.releaseBacking (s : State) (key : Nat) : State :=
  if s.mmu.objs.any (fun p => p.2.backing = key) then s
  else match mget s.mmu.backings key with
    | none => s
    | some b =>
      let s := { s with mmu := { s.mmu with backings := merase s.mmu.backings key } }
      if b.placement = 0 || b.placement = 1 then (s.zeroPhys b.base b.size).unreserve b.base
      else if b.placement = 3 then s.askDie b.die (mgmtBytes mgmtRelease 0 (leBytes 8 b.base))
      else s

/-- A heap object leaves every heap that holds it, with its blocks and its bookkeeping. -/
def State.heapForget (s : State) (h : Nat) (o : Obj) : State :=
  let inside := fun (a : Nat) => o.va ≤ a && a < o.va + o.size
  let mine := (s.mmu.heaps.map (fun p => p.2.objs.filter (fun x => x.1 = h && p.1 / 256 = o.asid))).flatten
  let s := mine.foldl (fun s x => s.unreserve x.2) s
  { s with mmu := { s.mmu with heaps := mmap s.mmu.heaps (fun k hp =>
      if k / 256 = o.asid && hp.objs.any (fun x => x.1 = h) then
        { hp with objs := hp.objs.filter (fun x => x.1 ≠ h), blocks := hp.blocks.filter (fun b => !inside b.1)
                  chunks := hp.chunks.filter (fun c => !inside c.1) }
      else hp) } }

/-- Unmap an object, free its handle and its backing, and record its event (R207). -/
def State.reclaim (s : State) (h : Nat) : State :=
  match s.obj? h with
  | none => s
  | some o =>
    let root := match mget s.mmu.asids o.asid with | some a => a.root | none => 0
    let s := s.unmapPages o.asid root o.va o.page (o.size / pageCode o.page)
    let s := s.heapForget h o
    let s := { s with mmu := { s.mmu with objs := merase s.mmu.objs h } }.releaseBacking o.backing
    match o.event with
    | some (ev, v) => s.recordEvent ev v.toNat false
    | none => s

/-- OBJECT_RECLAIM (R207). -/
def execObjectReclaim (handle : Nat) (s : State) : Out :=
  match s.obj? handle with
  | none => .next s
  | some o => .next (if s.live && o.st = .doomed && o.uses = 0 then s.reclaim handle else s)

/-! ### Heaps (R208, R212) -/

/-- HEAP_CREATE (R208); a slot that is filled already is busy (log entry 27). -/
def execHeapCreate (pair : Fin 8) (s : State) : Out :=
  s.mbxCmd pair 0x0320 (fun r s =>
    let asid := r.n 0x10 2
    let k := heapKey asid (r.n 0x12 1)
    if !mhas s.mmu.asids asid then (.err eNotFound, s)
    else if mhas s.mmu.heaps k then (.err eBusy, s)
    else
      let hp : Heap := { objs := [], blocks := [], chunks := [], badFrees := 0 }
      (Ans.done, { s with mmu := { s.mmu with heaps := mset s.mmu.heaps k hp } }))

/-- HEAP_ADD (R208). -/
def execHeapAdd (pair : Fin 8) (s : State) : Out :=
  s.mbxCmd pair 0x0321 (fun r s =>
    let asid := r.n 0x10 2
    let k := heapKey asid (r.n 0x12 1)
    let h := r.n 0x14 4
    match mget s.mmu.heaps k with
    | none => (.err eNotFound, s)
    | some hp => match s.obj? h with
      | none => (.err eObjectInvalid, s)
      | some o =>
        if o.st ≠ .live || o.asid ≠ asid || o.va % 2 ^ 21 ≠ 0 || o.size % 2 ^ 21 ≠ 0
            || s.mmu.heaps.any (fun p => p.2.objs.any (fun x => x.1 = h)) then (.err eObjectInvalid, s)
        else match s.reserve (o.size / 2 ^ 21 * 4096) 4096 with
          | none => (.err eNoResource, s)
          | some (a, s) =>
            (Ans.done, { s with mmu := { s.mmu with heaps := mset s.mmu.heaps k { hp with objs := hp.objs ++ [(h, a)] } } }))

/-- HEAP_DESTROY (R208): the slot is free and its heap objects are doomed. -/
def execHeapDestroy (pair : Fin 8) (s : State) : Out :=
  s.mbxCmd pair 0x0322 (fun r s =>
    let k := heapKey (r.n 0x10 2) (r.n 0x12 1)
    match mget s.mmu.heaps k with
    | none => (.err eNotFound, s)
    | some hp =>
      let s := { s with mmu := { s.mmu with heaps := merase s.mmu.heaps k } }
      (Ans.done, hp.objs.foldl (fun s x => (s.unreserve x.2).doom x.1 none) s))

/-- HEAP_QUERY (R212, R298). -/
def execHeapQuery (pair : Fin 8) (s : State) : Out :=
  s.mbxCmd pair 0x0323 (fun r s =>
    match mget s.mmu.heaps (heapKey (r.n 0x10 2) (r.n 0x12 1)) with
    | none => (.err eNotFound, s)
    | some hp =>
      let sizes := hp.objs.map (fun x => match s.obj? x.1 with | some o => o.size / 2 ^ 21 | none => 0)
      let free := ((s.heapChunks hp).filter hp.chunkFree).length
      let used := hp.blocks.foldl (fun a b => a + 64 * 2 ^ b.2) 0
      (.ok (result [(0x10, 4, sizes.foldl (· + ·) 0), (0x14, 4, free), (0x18, 8, used), (0x20, 4, hp.badFrees.toNat),
          (0x24, 1, hp.objs.length)]) 0, s))

end Sys2Proof.Machine
end

