-- ==== Sys2Proof/Machine/Tick.lean ====
section
/-! DEFINITION. What passes while no command waits: one ACLK of the clock domains (R504), and the loaded cycles that
charge points collect (R345, R361). -/

namespace Sys2Proof.Machine

/-- Does an engine hold a started, unretired command (R332)? -/
def Eng.loaded (v : Eng) : Bool := !v.strs.isEmpty || !v.tensors.isEmpty || v.arrive.isSome

/-- Do the domains other than ACLK run now? They stop by cycle 1,024 of Halt entry, and run again from cycle 3,200 of
wake (R513, R516; log entry 24). -/
def State.clocksRun (s : State) : Bool :=
  !s.thermal.tripped && (match s.power.st with
    | .off => false
    | .haltEntry => s.count domA < s.power.since + 1024
    | .halt => false
    | .waking => s.power.since + 3200 ≤ s.count domA
    | _ => true)

/-- Does a domain run? -/
def State.domainRuns (s : State) (d : Nat) : Bool :=
  s.pins.resetN && s.pins.pwrGood && s.power.st ≠ .off && (d = domA || s.clocksRun)

/-- Frequency of a domain now in kHz, 0 while it is stopped (R302). -/
def State.khzNow (s : State) (d : Nat) : Nat := if s.domainRuns d then mgetD s.clk.khz d 0 else 0

/-- Cycles that a domain completes in this ACLK, and the fraction it still owes (in 1/38,400 cycle). -/
def State.cyclesOf (s : State) (d : Nat) : Nat × Nat :=
  let t := mgetD s.clk.phase d 0 + s.khzNow d
  (t / 38400, t % 38400)

/-- One ACLK (log entry 13): every running domain counts at its own frequency, and loaded engines collect cycles. -/
def State.tick (s : State) : State :=
  let step := fun (c : Clk) (p : Nat × Nat) =>
    let (n, r) := s.cyclesOf p.1
    { c with counts := mset c.counts p.1 ((mgetD c.counts p.1 0 + n) % 2 ^ 56), phase := mset c.phase p.1 r }
  let c := (s.cyclesOf domC).1
  let f := (s.cyclesOf domF).1
  let work := fun (_ : Nat) (v : Eng) =>
    if v.loaded then { v with loadedC := v.loadedC + c, loadedF := v.loadedF + f } else v
  { s with clk := s.clk.khz.foldl step s.clk, engines := mmap s.engines work }

end Sys2Proof.Machine
end

