-- ==== Sys2Proof/Machine/Charge.lean ====
section
/-! DEFINITION. Partitions and convoys as the scheduler sees them, charge points and virtual time (R343 to R346, R360,
R361), and its choice of the next convoy (R344, R347). -/

namespace Sys2Proof.Machine

/-! ### Partitions -/

def State.part? (s : State) (p : Nat) : Option Partition := mget s.parts p
def State.modPart (s : State) (p : Nat) (f : Partition → Partition) : State := { s with parts := mmod s.parts p f }
def State.convoy? (s : State) (c : Nat) : Option Convoy := mget s.convoys c
def State.modConvoy (s : State) (c : Nat) (f : Convoy → Convoy) : State := { s with convoys := mmod s.convoys c f }

def SchRegs.reset : SchRegs := { epoch := 0, switches := 0, forced := 0, overruns := 0 }
def State.schRegs (s : State) (p : Nat) : SchRegs := mgetD s.sch p SchRegs.reset
def State.modSch (s : State) (p : Nat) (f : SchRegs → SchRegs) : State :=
  { s with sch := mset s.sch p (f (s.schRegs p)) }

/-- Engines of a partition. -/
def Partition.engines (x : Partition) : List Nat := (List.range 32).filter (fun e => bit x.quads.toNat (e / 4))

/-- Engines of a partition that are in service (R340). -/
def State.enginesIn (s : State) (p : Nat) : List Nat :=
  match s.part? p with
  | none => []
  | some x => x.engines.filter (fun e => !s.fenced 0 e)

/-- Partition of an engine. -/
def State.partOf (s : State) (e : Nat) : Option Nat :=
  (s.parts.find? (fun p => bit p.2.quads.toNat (e / 4))).map (fun p => p.1)

/-- Convoy resident on an engine: none while the engine is fenced (R340). -/
def State.residentOn (s : State) (e : Nat) : Option Nat :=
  if s.fenced 0 e then none
  else match s.partOf e with
    | none => none
    | some p => (s.part? p).bind (fun x => x.resident)

/-- Queues of a convoy. -/
def State.queuesOf (s : State) (c : Nat) : Map Queue := s.queues.filter (fun p => p.2.convoy = some c)

/-- Agent TLB of a queue's fetcher (R189, R308). -/
def Queue.agent (q : Queue) : Nat := if q.kind = 0 then 32 + q.unit else if q.kind = 1 then 64 + q.unit else 68 + q.unit

/-- Queue that serves an engine now: that of the resident convoy (R308). -/
def State.queueOn (s : State) (e : Nat) : Option (Nat × Queue) :=
  match s.residentOn e with
  | none => none
  | some c => (s.queuesOf c).find? (fun p => p.2.unit = e)

/-- Does a convoy hold a save slot? -/
def State.holdsSlot (s : State) (c : Nat) : Bool := s.parts.any (fun p => p.2.slots.any (fun x => x.convoy = c))

/-- Is a convoy resident? -/
def State.isResident (s : State) (c : Nat) : Bool := s.parts.any (fun p => p.2.resident = some c)

/-! ### Accounting (R360) -/

def Account.reset : Account :=
  { seen := false, epoch := 0, partition := 0, vtime := 0, engineTime := 0, preemptTime := 0, commands := 0
    preemptions := 0, fallbacks := 0, misses := 0 }
def State.account (s : State) (ctx : Nat) : Account := mgetD s.accounts ctx Account.reset
def State.modAccount (s : State) (ctx : Nat) (f : Account → Account) : State :=
  { s with accounts := mset s.accounts ctx (f (s.account ctx)) }

/-- The 32 bytes of an accounting record. -/
def Account.bytes (a : Account) : List Byte :=
  leBytes 8 (a.vtime + a.partition * 2 ^ 56 + a.epoch * 2 ^ 59 + b2n a.seen * 2 ^ 63)
  ++ leBytes 8 (domC * 2 ^ 56 + a.engineTime) ++ leBytes 8 (domC * 2 ^ 56 + a.preemptTime) ++ leBytes 4 a.commands.toNat
  ++ leBytes 2 a.preemptions ++ leBytes 1 a.fallbacks ++ leBytes 1 a.misses

/-- Context of a waybill (R312). -/
def ctxOfWaybill (w : Dword) : Nat := bits w.toNat 17 0

/-- a − b as a signed 56-bit difference is negative (R344). -/
def before56 (a b : Nat) : Bool := 2 ^ 55 ≤ (a + 2 ^ 56 - b % 2 ^ 56) % 2 ^ 56

/-! ### Charging (R345, R361) -/

/-- An engine adds its loaded cycles and its virtual-time charge to its charge context. -/
def State.settle (s : State) (e : Nat) : State :=
  let v := s.eng e
  if v.loadedC = 0 && v.loadedF = 0 then s
  else
    let s := s.setEng e { v with loadedC := 0, loadedF := 0 }
    match v.charge, ((s.partOf e).bind s.part?).bind (fun x => x.resident.bind s.convoy?) with
    | some (ctx, _, _), some c =>
      s.modAccount ctx (fun a => { a with
        vtime := (a.vtime + v.loadedF * (65536 / c.share)) % 2 ^ 56
        engineTime := (a.engineTime + v.loadedC) % 2 ^ 56 })
    | _, _ => s

/-- The charge context follows the oldest started, unretired command of the resident convoy's queue on the engine, and
keeps its last value while there is none (R345). -/
def State.refreshCharge (s : State) (e : Nat) : State :=
  match s.queueOn e with
  | none => s
  | some (_, q) => match q.cmds.find? (fun c => c.st ≠ .accepted) with
    | none => s
    | some c => s.modEng e (fun v => { v with charge := some (ctxOfWaybill c.waybill, c.waybill, c.seq) })

/-! ### Readiness and keys (R343, R344) -/

/-- Entries of a queue that are pending and not held at a BATCH_START (R343). -/
def Queue.hasWork (q : Queue) : Bool := q.head ≠ q.tail && !q.atBatchStart

/-- Is a convoy ready (R343)? A convoy that is switched out is barred while a fault record it caused is outstanding
(R199). -/
def State.ready (s : State) (c : Nat) : Bool :=
  let qs := s.queuesOf c
  qs.any (fun p => p.2.hasWork) && qs.all (fun p => !p.2.stopped)
  && (s.isResident c || s.mmu.faults.all (fun f => f.2.convoy ≠ some c))

/-- The key of a convoy (R344). -/
def State.key (s : State) (x : Partition) (c : Nat) : Nat :=
  match (s.convoy? c).bind (fun v => v.keyCtx) with
  | some ctx => (s.account ctx).vtime
  | none => x.vmin

/-- Convoys of a partition, ascending. -/
def State.convoysOf (s : State) (p : Nat) : List Nat :=
  (s.convoys.filter (fun v => v.2.partition = p)).map (fun v => v.1)

/-- Is a timed convoy released (R365)? Its absolute deadline. -/
def Convoy.released (v : Convoy) : Option Nat :=
  match v.timed, v.batch with
  | some t, some b => some (b.tR + t.deadline)
  | _, _ => none

/-- Does a save slot of a convoy hold the state of the engine that a microcode update has out (R537)? -/
def State.slotOut (s : State) (x : Partition) (c : Nat) : Bool :=
  match s.ucodeTurn with
  | none => false
  | some e => x.slots.any (fun y => y.convoy = c && mhas y.engines e)

/-- The convoy the scheduler chooses (R344); `skip` is left out of the choice. -/
def State.chooseBut (s : State) (p : Nat) (skip : Option Nat) : Option Nat :=
  match s.part? p with
  | none => none
  | some x =>
    let l := (s.convoysOf p).filter (fun c => s.ready c && skip ≠ some c && !s.slotOut x c)
    let timed := l.filterMap (fun c => (s.convoy? c).bind (fun v => v.released.map (fun d => (c, d))))
    match timed with
    | t :: ts => some (ts.foldl (fun (b : Nat × Nat) a => if a.2 < b.2 then a else b) t).1
    | [] => match l with
      | [] => none
      | c :: cs => some (cs.foldl (fun b a => if before56 (s.key x a) (s.key x b) then a else b) c)

def State.choose (s : State) (p : Nat) : Option Nat := s.chooseBut p none

/-- A charge point of a partition (R346, R361). -/
def State.chargePoint (s : State) (p : Nat) : State :=
  match s.part? p with
  | none => s
  | some x =>
    let s := x.engines.foldl (fun s e => s.settle e) s
    let keys := ((s.convoysOf p).filter (fun c => s.ready c || x.resident = some c)).filterMap (fun c =>
      ((s.convoy? c).bind (fun v => v.keyCtx)).map (fun ctx => (s.account ctx).vtime))
    match keys with
    | [] => s
    | k :: ks =>
      let least := ks.foldl (fun b a => if before56 a b then a else b) k
      if before56 x.vmin least then s.modPart p (fun x => { x with vmin := least }) else s

/-- At acceptance, a context that is not seen or lies behind VMIN starts level with it (R346). -/
def State.levelContext (s : State) (p ctx : Nat) : State :=
  match s.part? p with
  | none => s
  | some x =>
    let a := s.account ctx
    let ep := (s.schRegs p).epoch
    if a.seen && a.partition = p && a.epoch = ep && !before56 a.vtime x.vmin then s
    else s.modAccount ctx (fun a => { a with seen := true, partition := p, epoch := ep, vtime := x.vmin })

/-! ### Starting a switch (R347, R349) -/

/-- SWITCH: outriders stop accepting and gang arrivals are withdrawn (R140, R349). -/
def State.sendSwitch (s : State) (p next : Nat) : State :=
  let s := (s.enginesIn p).foldl (fun s e => s.modEng e (fun v => { v with stopped := true, arrive := none })) s
  s.modPart p (fun x => { x with switching := some next, sliceOn := false })

/-- The scheduler chooses again (R347): a new slice for the resident convoy, or a switch. While a pre-emption runs it
names the convoy that comes next. -/
def State.reschedule (s : State) (p : Nat) : State :=
  match s.part? p with
  | none => s
  | some x => match s.choose p with
    | none => s
    | some c =>
      match x.forcing with
      | some f => if f.restore then s else s.modPart p (fun x => { x with forcing := some { f with next := some c } })
      | none =>
        if x.resident = some c && x.switching.isNone then s.modPart p (fun x => { x with sliceOn := true })
        else s.sendSwitch p c

end Sys2Proof.Machine
end

