-- ==== Sys2Proof/Machine/Timed.lean ====
section
/-! DEFINITION. Timed convoys (R363 to R372): release, batches, the predictor, the switch-point decision, batch ends. -/

namespace Sys2Proof.Machine

/-- New settings keep the history of the layers that the old ones had (R369: it is 0 when the convoy becomes timed). -/
def Timed.inherit (t : Timed) (old : Option Timed) : Timed :=
  { t with layers := t.layers.map (fun (l : LayerEnt) =>
      match (old.bind (fun o => o.layers.find? (fun k => k.layer = l.layer))) with
      | some k => { l with avg := k.avg, n := k.n }
      | none => l) }

/-- Settings that apply at a release (R363). -/
def Convoy.applyNext (v : Convoy) : Convoy :=
  match v.timedNext with
  | some t => { v with timed := t.map (fun t => t.inherit v.timed), timedNext := none }
  | none => v

/-- A held BATCH_START passes (R365). -/
def State.passBatchStart (s : State) (q : Nat) : State :=
  match s.queue? q with
  | none => s
  | some v => match v.cmds.find? (fun c => c.opcode = 0x30 && c.st ≠ .ended 0) with
    | none => s
    | some c => (s.endCmd q c.index 0 0).modQueue q (fun v => { v with atBatchStart := false, inBatch := true })

/-- A batch is released at t_R: BATCH_START passes on every queue that holds at it, and the scheduler chooses again
(R347, R365). -/
def State.release (s : State) (c tR : Nat) : State :=
  match s.convoy? c with
  | none => s
  | some v =>
    let b : Batch := { tR := tR, diverted := none, decided := [], samples := [] }
    let s := s.modConvoy c (fun v => { v.applyNext with batch := some b, pendingEdge := none })
    let s := (s.queuesOf c).foldl (fun s p => if p.2.atBatchStart then s.passBatchStart p.1 else s) s
    s.reschedule v.partition

/-- Does a queue hold, among its covered entries, a BATCH_START that has not passed? Entries of a ring in device memory
are read where they stand; those of another ring are known once they are fetched (log entry 28). -/
def State.coversStart (s : State) (v : Queue) : Bool :=
  let walk := iter (fun (st : Word × Bool) =>
    if st.2 || st.1 = v.tail || 2 ^ v.sizeLog < (v.tail - st.1).toNat then none
    else
      match (s.translate v.agent v.asid
          (v.ringVa.toNat + 64 * (st.1.toNat % 2 ^ v.sizeLog)) accRead).1 with
      | .ok 0 pa _ _ _ =>
        let h := memRead s.mem.cells pa 2
        some (st.1 + 1 + BitVec.ofNat 32 (bits (getLe h 1 1) 1 0), getLe h 0 1 = 0x30)
      | _ => none) (2 ^ v.sizeLog)
  v.atBatchStart || (walk (v.head, false)).2

/-- RELEASE 0: a batch is released when none is in progress and a queue holds a covered BATCH_START (R365). -/
def State.tryRelease (s : State) (c tR : Nat) : State :=
  match s.convoy? c with
  | none => s
  | some v => match v.timed with
    | none => s
    | some t =>
      if t.release = 0 && v.batch.isNone && (s.queuesOf c).any (fun p => s.coversStart p.2) then s.release c tR else s

/-- An FSYNC edge releases, or is held as pending, or is dropped (R365, R366). -/
def State.fsyncRelease (s : State) (input : Nat) (falling : Bool) : State :=
  s.convoys.foldl (fun s p =>
    match s.convoy? p.1 with
    | none => s
    | some v => match v.timed with
      | none => s
      | some t =>
        if t.release ≠ input + 1 || t.falling ≠ falling then s
        else if v.batch.isNone then s.release p.1 s.fclk
        else if v.pendingEdge.isNone then s.modConvoy p.1 (fun v => { v with pendingEdge := some s.fclk })
        else (s.modSch v.partition (fun r => { r with overruns := satInc r.overruns })).log 0x0C v.partition input 0) s

/-! ### Predictor (R369) -/

/-- Prediction of a layer entry. -/
def LayerEnt.prediction (l : LayerEnt) : Nat := if 8 ≤ l.n then l.avg else l.worst

/-- A sample updates an entry; the division rounds down. -/
def LayerEnt.sample (l : LayerEnt) (x : Nat) : LayerEnt :=
  if l.n = 0 then { l with avg := x, n := 1 }
  else { l with avg := ((l.avg : Int) + ((x : Int) - l.avg) / 8).toNat, n := min (l.n + 1) 255 }

/-- LAYER of a waybill (R312). -/
def layerOf (w : Dword) : Nat := bits w.toNat 41 18

/-- Convoy of a queue whose batch is in progress on that queue. -/
def State.batchOf (s : State) (q : Nat) : Option (Nat × Convoy × Batch) :=
  match s.queue? q with
  | none => none
  | some v =>
    if !v.inBatch then none else v.convoy.bind (fun c => (s.convoy? c).bind (fun x => x.batch.map (fun b => (c, x, b))))

/-- A command of a batch starts or retires: the layer's first start and last retirement (R369). -/
def State.noteLayer (s : State) (q : Nat) (c : Cmd) (retired : Bool) : State :=
  match s.batchOf q with
  | none => s
  | some (k, x, b) =>
    let l := layerOf c.waybill
    let known := match x.timed with | some t => t.layers.any (fun e => e.layer = l) | none => false
    if c.inStream || !known then s
    else
      let old := mget b.samples l
      let new := match old, retired with
        | none, false => some (s.fclk, none)
        | none, true => none
        | some (a, z), false => some (a, z)
        | some (a, _), true => some (a, some s.fclk)
      match new with
      | none => s
      | some e => s.modConvoy k (fun v => { v with batch := some { b with samples := mset b.samples l e } })

/-- The first accepted SWITCH_POINT of a batch at a point decides for all of its queues (R370). -/
def State.decidePoint (s : State) (k : Nat) (p : Nat) : State :=
  match s.convoy? k with
  | none => s
  | some x => match x.timed, x.batch with
    | some t, some b =>
      if b.decided.contains p || b.diverted.isSome then s
      else match t.points[p]? with
        | none => s
        | some e =>
          let rest := (t.layers.drop e.before).foldl (fun a l => a + l.prediction) 0
          let late := t.deadline - t.margin < s.fclk - b.tR + rest
          s.modConvoy k (fun v => { v with batch := some { b with
            decided := p :: b.decided, diverted := if late then some p else none } })
    | _, _ => s

/-- A queue diverted at a point enters its fallback stream (R371). -/
def State.divert (s : State) (q : Nat) (p : Nat) : State :=
  match s.batchOf q, s.queue? q with
  | some (_, x, b), some v =>
    (match (x.timed.bind (fun t => t.points[p]?)) with
    | some e =>
      if b.diverted = some p && v.diverted.isNone then
        let a := ((e.streams.find? (fun t => t.1 = v.unit)).map (fun t => t.2)).getD 0
        let st : Stream := { next := a, ended := false, err := 0, detail := 0 }
        s.modQueue q (fun v => { v with diverted := some p, stream := some st })
      else s
    | none => s)
  | _, _ => s

/-! ### Batch end (R364, R366, R367) -/

/-- Would the retirement of a queue's BATCH_END end its batch? -/
def State.endsBatch (s : State) (q : Nat) : Bool :=
  match s.batchOf q with
  | none => false
  | some (k, _, _) => (s.queuesOf k).all (fun p => p.1 = q || p.2.batchDone)

/-- Is it after the deadline? -/
def State.batchLate (s : State) (q : Nat) : Bool :=
  match s.batchOf q with
  | some (_, x, b) => (match x.timed with | some t => b.tR + t.deadline < s.fclk | none => false)
  | none => false

/-- A convoy made untimed holds no queue at a BATCH_START any more (R348). -/
def State.dropStarts (s : State) (k : Nat) : State :=
  match (s.convoy? k).bind (fun v => v.timed) with
  | some _ => s
  | none => (s.queuesOf k).foldl (fun s (p : Nat × Queue) => if p.2.atBatchStart then
      (s.passBatchStart p.1).modQueue p.1 (fun v => { v with inBatch := false }) else s) s

/-- BATCH_END retires on a queue; the last one ends the batch: predictor, counts, the next release. -/
def State.retireBatchEnd (s : State) (q : Nat) (ctx : Nat) : State :=
  match s.batchOf q with
  | none => s
  | some (k, _, b) =>
    let last := s.endsBatch q
    let late := s.batchLate q
    let s := s.modQueue q (fun v => { v with inBatch := false, batchDone := true })
    if !last then s
    else
      let s := if late then s.modAccount ctx (fun a => { a with misses := min (a.misses + 1) 255 }) else s
      let s := if b.diverted.isSome then s.modAccount ctx (fun a => { a with fallbacks := min (a.fallbacks + 1) 255 }) else s
      let learn := fun (t : Timed) => { t with layers := t.layers.map (fun (l : LayerEnt) => match mget b.samples l.layer with
        | some (a, some z) => l.sample (z - a)
        | _ => l) }
      let now := s.fclk
      let s := s.modConvoy k (fun v =>
        let v := { v with batch := none, lastEnd := now, timed := v.timed.map learn }
        match v.timedNext with | some none => v.applyNext | _ => v)
      let s := (s.queuesOf k).foldl (fun s p => s.modQueue p.1 (fun v => { v with batchDone := false })) s
      let s := s.dropStarts k
      match (s.convoy? k).bind (fun v => v.pendingEdge) with
      | some t => s.release k t
      | none => s.tryRelease k now

end Sys2Proof.Machine
end

