-- ==== Sys2Proof/Machine/Forms.lean ====
section
/-! DEFINITION. The form of queue commands: the header (R312), LENGTH and kinds (R314), and the payload of every opcode
(R315 to R318, R348, R381 to R384, R442, R443). A command that breaks its form is malformed (R328). -/

namespace Sys2Proof.Machine

def eBadCommand : Nat := 0x0402
def eEventInvalid : Nat := 0x0403
def eHang : Nat := 0x0405

/-- Fields of a header entry (R312). -/
structure CmdHdr where
  opcode : Nat
  length : Nat
  crec : Bool
  serial : Bool
  resCount : Nat
  seq : Nat
  waybill : Nat
  ext : Nat
  inl : Nat
  /-- every reserved field is 0 -/
  clean : Bool
  deriving DecidableEq, Repr

def headerOf (b : List Byte) : CmdHdr :=
  let fl := getLe b 2 1
  let len := getLe b 1 1
  let rc := getLe b 3 1
  let w := getLe b 8 8
  let x := getLe b 0x10 8
  let inl := getLe b 0x18 40
  let n := bits rc 4 0
  { opcode := getLe b 0 1, length := bits len 1 0, crec := bit fl 0, serial := bit fl 1, resCount := n, seq := getLe b 4 4
    waybill := w, ext := x, inl := inl
    clean := bits len 7 2 = 0 && bits fl 7 2 = 0 && bits rc 7 5 = 0 && bits w 63 58 = 0 && bits x 1 0 = 0
      && bits x 63 60 = 0 && (n ≤ 16 && inl / 2 ^ (20 * n) = 0) }

/-- Inline handles (R312). -/
def CmdHdr.handles (h : CmdHdr) : List Nat := (List.range h.resCount).map (fun i => bits h.inl (20 * i + 19) (20 * i))

/-- Address and entries of the extended residency list (R204, R312). -/
def CmdHdr.extList (h : CmdHdr) : Option (Nat × Nat) :=
  if h.ext = 0 then none else some (bits h.ext 47 2 * 4, bits h.ext 59 48 + 1)

/-- LENGTH and queue kinds of an opcode (R314, R348, R380, R442). -/
def opcodeForm (op : Nat) : Option (Nat × List Nat) :=
  match op with
  | 0x00 => some (0, [0, 1, 2])
  | 0x01 => some (1, [0])
  | 0x02 => some (2, [0])
  | 0x03 => some (1, [0, 1, 2])
  | 0x04 => some (1, [0, 1, 2])
  | 0x05 => some (1, [1])
  | 0x06 => some (1, [1])
  | 0x10 => some (3, [0])
  | 0x11 => some (1, [0])
  | 0x12 => some (1, [0])
  | 0x20 => some (2, [2])
  | 0x21 => some (2, [2])
  | 0x30 => some (0, [0])
  | 0x31 => some (1, [0])
  | 0x32 => some (0, [0])
  | 0x33 => some (0, [0])
  | 0x34 => some (1, [0])
  | _ => none

/-- n bytes at an offset are 0. -/
def zeroAt (p : List Byte) (off n : Nat) : Bool := getLe p off n = 0

/-- The reserved bits of a SIGNAL block are 0 (R313). -/
def signalClean (p : List Byte) : Bool :=
  let o := p.length - 16
  bits (getLe p o 4) 30 21 = 0 && zeroAt p (o + 4) 4

/-- First payload entry of DISPATCH and GANG_LAYER (R315). -/
def dispatchForm (p : List Byte) : Bool :=
  getLe p 0 8 % 8 = 0 && getLe p 8 4 ≠ 0 && getLe p 0xC 4 ≠ 0 && getLe p 0x10 4 ≠ 0
  && (1 ≤ getLe p 0x14 2 && getLe p 0x14 2 ≤ 1024) && (1 ≤ getLe p 0x16 1 && getLe p 0x16 1 ≤ 32)
  && getLe p 0x17 1 ≤ 48 && getLe p 0x20 1 ≤ 16 && zeroAt p 0x21 15

/-- GANG_LAYER (R316) on an engine. -/
def gangForm (p : List Byte) (engine : Nat) : Bool :=
  dispatchForm p && zeroAt p 0x30 16 && zeroAt p 0x42 6 && zeroAt p 0x68 8 && zeroAt p (0x48 + 8 * (engine % 4)) 8
  && (List.range 4).all (fun i => getLe p (0x48 + 8 * i) 8 % 8 = 0)

/-- EVENT_AWAIT (R317). -/
def awaitForm (p : List Byte) : Bool :=
  [0x00, 0x10, 0x20].all (fun o => bits (getLe p o 4) 30 17 = 0 && zeroAt p (o + 4) 4) && !(awaitPairs p).isEmpty

/-- COPY and FILL (R318): BYTES at an offset. -/
def moveForm (p : List Byte) (off : Nat) : Bool :=
  1 ≤ getLe p off 8 && getLe p off 8 ≤ 2 ^ 36 && zeroAt p 0x18 24

/-! ### Attachments (R381 to R383) -/

/-- Bytes of a sample in memory and in tile memory; none for a reserved format (R382). -/
def formatBytes (f : Nat) : Option (Nat × Nat) :=
  match f with
  | 0x00 => some (0, 0)
  | 0x01 => some (1, 1)
  | 0x02 => some (2, 2)
  | 0x03 => some (4, 4)
  | 0x04 => some (4, 4)
  | 0x05 => some (4, 4)
  | 0x06 => some (4, 4)
  | 0x07 => some (2, 2)
  | 0x08 => some (4, 4)
  | 0x09 => some (8, 8)
  | 0x0A => some (4, 4)
  | 0x0B => some (8, 8)
  | 0x0C => some (16, 16)
  | 0x20 => some (2, 2)
  | 0x21 => some (4, 4)
  | 0x22 => some (8, 5)
  | 0x23 => some (1, 1)
  | _ => none

/-- Fields of attachment k of a PASS_BEGIN payload: VA, PITCH, FORMAT, LOAD, STORE, and its clean reserved bits. -/
structure Att where
  va : Nat
  pitch : Nat
  format : Nat
  load : Nat
  store : Bool
  clean : Bool
  deriving DecidableEq, Repr

def attOf (p : List Byte) (k : Nat) : Att :=
  let o := 0x28 + 16 * k
  let l := getLe p (o + 0xD) 1
  { va := getLe p o 8, pitch := getLe p (o + 8) 4, format := getLe p (o + 0xC) 1, load := bits l 1 0, store := bit l 2
    clean := bits l 7 3 = 0 && zeroAt p (o + 0xE) 2 }

def Att.mem (a : Att) : Nat := ((formatBytes a.format).getD (0, 0)).1
def Att.tile (a : Att) : Nat := ((formatBytes a.format).getD (0, 0)).2

/-- PASS_BEGIN (R381, R383); `engines` are those of the partition. -/
def passForm (p : List Byte) (engines : List Nat) : Bool :=
  let t := getLe p 2 1
  let sm := 2 ^ getLe p 3 1
  let w := getLe p 8 2
  let h := getLe p 0xA 2
  let hm := getLe p 0x18 4
  let hl := getLe p 0x1C 4
  let atts := (List.range 5).map (attOf p)
  bits t 1 0 ≠ 3 && bits t 7 4 = 0 && getLe p 3 1 ≤ 3
  && (bitList (getLe p 4 4) 32).all (fun e => engines.contains e)
  && (1 ≤ w && w ≤ 16384) && (1 ≤ h && h ≤ 16384) && getLe p 0x10 8 % 2 ^ 21 = 0
  && (64 ≤ hm && hm % 2 = 0 && hm ≤ hl && hl % 2 = 0 && hl ≤ 65536) && zeroAt p 0x20 8 && zeroAt p 0xBD 3
  && atts.all (fun a => a.clean && a.load ≠ 3 && (formatBytes a.format).isSome
      && (a.format = 0 || (a.pitch % 64 = 0 && w * sm * a.mem ≤ a.pitch)))
  && atts.any (fun a => a.format ≠ 0)
  && (List.range 4).all (fun k => (attOf p k).format < 0x20)
  && ((attOf p 4).format = 0 || 0x20 ≤ (attOf p 4).format)

/-- DRAW (R384); `last` is the ORDER of the queue's previous DRAW of the pass. -/
def drawForm (p : List Byte) (last : Option Nat) : Bool :=
  let o := getLe p 0 4
  getLe p 4 4 ≠ 0 && getLe p 8 8 % 8 = 0 && getLe p 0x10 8 % 8 = 0 && getLe p 0x28 8 % 32 = 0 && getLe p 0x30 1 ≤ 3
  && bits (getLe p 0x31 1) 7 2 = 0 && (1 ≤ getLe p 0x32 1 && getLe p 0x32 1 ≤ 32)
  && (1 ≤ getLe p 0x33 1 && getLe p 0x33 1 ≤ 32) && getLe p 0x34 1 ≤ 16 && zeroAt p 0x35 3 && getLe p 0x38 4 ≠ 0
  && zeroAt p 0x3C 4 && (match last with | some x => x < o | none => true)

/-- COMPRESS and DECOMPRESS (R443). -/
def jobForm (p : List Byte) (compress : Bool) : Bool :=
  let framing := getLe p 0x40 1
  let level := getLe p 0x41 1
  let dict := getLe p 0x20 8
  let db := getLe p 0x42 2
  getLe p 8 8 ≤ 2 ^ 32 && (1 ≤ getLe p 0x18 8 && getLe p 0x18 8 ≤ 2 ^ 32) && getLe p 0x28 8 % 32 = 0
  && zeroAt p 0x30 16 && framing ≤ 2 && (if compress then 1 ≤ level && level ≤ 9 else level = 0)
  && db ≤ 32768 && ((dict = 0) = (db = 0)) && (framing ≠ 2 || db = 0) && zeroAt p 0x44 44

/-- The payload of an opcode has its form. -/
def payloadForm (op : Nat) (p : List Byte) (q : Queue) (engines : List Nat) : Bool :=
  (!signalOpcodes.contains op || signalClean p) &&
  (match op with
  | 0x01 => dispatchForm p
  | 0x02 => gangForm p q.unit
  | 0x03 => awaitForm p
  | 0x04 => zeroAt p 0 0x30 && bit (getLe p 0x30 4) 31
  | 0x05 => moveForm p 0x10
  | 0x06 => moveForm p 0x08
  | 0x10 => passForm p engines
  | 0x11 => drawForm p q.lastOrder
  | 0x12 => zeroAt p 0 0x30
  | 0x20 => jobForm p true
  | 0x21 => jobForm p false
  | 0x31 => getLe p 0 2 ≤ 63 && zeroAt p 2 62
  | 0x34 => zeroAt p 0 0x30
  | _ => true)

/-- Commands that may stand between PASS_BEGIN and PASS_END, and those that must (R375). -/
def passPlace (op : Nat) (open_ : Bool) : Bool :=
  if open_ then op = 0x00 || op = 0x11 || op = 0x12 else op ≠ 0x11 && op ≠ 0x12

/-- Every event that a command names is allocated (R325); the events of another die are that die's. -/
def State.eventsExist (s : State) (op : Nat) (p : List Byte) : Bool :=
  (match signalOf op p with
    | some g => !g.enable || (g.remote && g.die ≠ s.caravan.die) || mhas s.events g.event
    | none => true)
  && (op ≠ 0x03 || (awaitPairs p).all (fun x => mhas s.events x.1))

/-! ### Binning fronts (R378, R390) -/

/-- The front that members in a Quad use: that of the Quad, or of the next Quad of the partition in service. -/
def State.frontOf (s : State) (x : Partition) (quad : Nat) : Option Nat :=
  let qs := bitList x.quads.toNat 8
  ((qs.filter (fun q => quad ≤ q)) ++ qs.filter (fun q => q < quad)).find? (fun q => !s.fenced 1 q)

/-- The fronts that the engines of a mask use, ascending. -/
def State.frontsFor (s : State) (x : Partition) (engines : List Nat) : List Nat :=
  (bitList x.quads.toNat 8).filter (fun q => engines.any (fun e => s.frontOf x (e / 4) = some q))

/-- Bytes of the control area of a manifest heap at a tile size. -/
def controlBytes (p : List Byte) (tile fronts : Nat) : Nat :=
  0x1000 + 8 * ((getLe p 8 2 + tile - 1) / tile) * ((getLe p 0xA 2 + tile - 1) / tile) * fronts

/-- Tile size of a code (R381). -/
def tileOf (code : Nat) : Nat := 16 * 2 ^ code

/-- The control area and a data chunk per front lie below HEAP_MAPPED (R390). -/
def State.heapFits (s : State) (x : Partition) (p : List Byte) : Bool :=
  let f := (s.frontsFor x ((bitList (getLe p 4 4) 32).filter (fun e => !s.fenced 0 e))).length
  roundUp (controlBytes p (tileOf (bits (getLe p 2 1) 1 0)) f) (2 ^ 21) + f * 2 ^ 21 ≤ getLe p 0x18 4 * 2 ^ 20

/-- Error of a command's form: 0, E_BAD_COMMAND or E_EVENT_INVALID (R328). -/
def State.formError (s : State) (h : CmdHdr) (p : List Byte) (q : Queue) : Nat :=
  let part := (q.convoy.bind s.convoy?).bind (fun c => s.part? c.partition)
  let engines := match part with | some x => x.engines | none => []
  match opcodeForm h.opcode with
  | none => eBadCommand
  | some (len, kinds) =>
    if !h.clean || h.length ≠ len || !kinds.contains q.kind || !passPlace h.opcode q.passOpen
      || !payloadForm h.opcode p q engines
      || (h.opcode = 0x10 && !(match part with | some x => s.heapFits x p | none => false)) then eBadCommand
    else if !s.eventsExist h.opcode p then eEventInvalid
    else 0

end Sys2Proof.Machine
end

