-- ==== Sys2Proof/Machine/Wake.lean ====
section
/-! DEFINITION. What a request from outside does to the power state: leaving Rest (R511), cancelling a drain (R512),
waking from Halt and waiting there (R253, R514, R517). -/

namespace Sys2Proof.Machine

/-- The device leaves Rest (R511). -/
def State.leaveRest (s : State) : State :=
  if s.power.st = .rest then s.noting (fun s => { s with power := { s.power with st := .run } }) else s

/-- Pipes that a drain had stopped start again at their next frame start (R421, R512). -/
def State.restartPipes (s : State) : State :=
  let go := fun (pipes : Map Pipe) (p : Nat) =>
    mmod pipes p (fun v => { v with stopping := false, enabled := true, starting := v.starting || !v.enabled })
  { s with pipes := s.power.pipesStopped.foldl go s.pipes, power := { s.power with pipesStopped := [] } }

/-- A drain toward Halt is cancelled (R512). -/
def State.cancelHalt (s : State) : State :=
  if !s.power.drain then s
  else
    let s := { s with power := { s.power with drain := false, haltCancels := s.power.haltCancels + 1 } }
    s.restartPipes.log 0x21 2 0 0

/-- A request on the host link that is performed now; `passes` marks those that a drain lets pass (R512). -/
def State.hostTouch (s : State) (passes : Bool) : State := if passes then s.leaveRest else s.leaveRest.cancelHalt

/-- A wake source is seen (R514, R516, R517). -/
def State.wake (s : State) (src : Nat) : State :=
  let seen := fun (p : Power) => { p with lastWake := s.aclk, wakeSrc := src }
  match s.power.st with
  | .halt => s.noting (fun s => { s with power := { seen s.power with st := .waking, since := s.aclk } })
  | .haltEntry =>
    if s.power.wakePending.isSome then s else { s with power := { seen s.power with wakePending := some src } }
  | _ => s

/-- A request on the host link in Halt: it waits, and wakes the device (R253). -/
def State.hold (s : State) (w : HeldWrite) : State :=
  { s with host := { s.host with heldWrites := s.host.heldWrites ++ [w] } }.wake 1

/-- Can the function take a memory request (R255)? Boot step 14 opens the window (R520). -/
def State.windowOpen (s : State) : Bool := s.up && !s.host.d3hot && 14 < s.boot.step && s.host.linkUp

end Sys2Proof.Machine
end

