-- ==== Sys2Proof/Machine/Queues.lean ====
section
/-! DEFINITION. Queues (chapter 10): doorbells, fetching and acceptance (R306 to R312, R319, R328, R329), start and
retirement (R320 to R327), the markers of R348 and the queue commands of the mailbox (R304, R329, R341). -/

namespace Sys2Proof.Machine

def eQueueBusy : Nat := 0x0401
def eQueueNotStopped : Nat := 0x0406
def eConvoyAsid : Nat := 0x0503
def eConvoyEngine : Nat := 0x0504
def eDeadlineMissed : Nat := 0x0508
def eDiverted : Nat := 0x0509
def eCvlUnreachable : Nat := 0x0805

/-! ### Doorbells -/

/-- Apply a doorbell value (R252, R306, R365). -/
def State.ringDoorbell (s : State) (q : Nat) (t : Word) : State :=
  let drop := { s with host := { s.host with doorbellDrop := satInc s.host.doorbellDrop } }
  match s.queue? q with
  | none => drop
  | some v =>
    if 2 ^ v.sizeLog < (t - v.head).toNat then drop
    else if (t - v.head).toNat < (v.tail - v.head).toNat then s
    else
      let s := s.setQueue q { v with tail := t, rung := v.rung ++ [(t, s.fclk)] }
      match v.convoy with
      | some c => s.tryRelease c s.fclk
      | none => s

/-- A BAR2 write as far as it reaches one 64-byte stride (R252). -/
def State.strideWrite (s : State) (off : Nat) (l : List Byte) (q : Nat) : State :=
  let lo := max off (64 * q)
  if 64 * q + 4 ≤ lo then s
  else if lo = 64 * q && 64 * q + 4 ≤ off + l.length then s.ringDoorbell q (BitVec.ofNat 32 (getLe l (lo - off) 4))
  else s.lostWrite true off l

/-- A write to BAR2 (R252): one that starts at byte 0 of a stride uses its bytes 0-3 alone. -/
def State.bar2Write (s : State) (off : Nat) (l : List Byte) : State :=
  if l.isEmpty || 2 ^ 18 < off + l.length then s
  else if off % 64 = 0 then s.strideWrite off l (off / 64)
  else (List.range ((off + l.length - 1) / 64 - off / 64 + 1)).foldl (fun s i => s.strideWrite off l (off / 64 + i)) s

/-- DOORBELL (R252, R306): a write to BAR2; held in Halt (R253). -/
def execDoorbell (offset : Nat) (data : List Byte) (s : State) : Out :=
  if !s.windowOpen then .next s
  else if s.halted then .next (s.hold (.bar2 offset data))
  else .next ((s.hostTouch false).bar2Write offset data)

/-! ### Fetching -/

/-- Key of a command in the ring, of a fallback command by its address, and of a command that stops its queue. -/
def ringKey (i : Nat) : Nat := i
def streamKey (a : Nat) : Nat := 2 ^ 48 + a / 64
def stopKey (i : Nat) : Nat := 2 ^ 40 + i

/-- Is a queue's fetcher in service, with the queue in its turn (R308, R340, R349)? -/
def State.fetcherOn (s : State) (v : Queue) : Bool :=
  match v.kind with
  | 0 => v.convoy.isSome && s.residentOn v.unit = v.convoy && !(s.eng v.unit).stopped && s.ucodeTurn ≠ some v.unit
  | 1 => !s.fenced 7 v.unit
  | _ => !s.fenced 6 v.unit

/-- A marker at which fetching waits until it has been decided (R365, R370), or the end of a fallback stream (R371). -/
def Queue.holding (v : Queue) : Bool :=
  v.cmds.any (fun c => (c.opcode = 0x30 || c.opcode = 0x31) && (c.st = .accepted || c.st = .started))
  || (match v.stream with
    | some x => !x.ended && v.cmds.any (fun c => c.inStream && c.opcode = 0x34)
    | none => false)

/-- May a queue fetch (R308, R320, R329, R512)? -/
def State.mayFetch (s : State) (v : Queue) : Bool :=
  s.working && !s.power.drain && !v.stopped && v.stalled.isNone && !v.atBatchStart && !v.holding && s.fetcherOn v
  && (match v.stream with
    | some x => !x.ended || v.cmds.all (fun c => !c.inStream)
    | none => true)

/-- Is the fetcher in its fallback stream (R371)? -/
def Queue.streaming (v : Queue) : Option Stream := v.stream.bind (fun x => if x.ended then none else some x)

/-- Address of the k-th entry of the next command. -/
def Queue.entryAt (v : Queue) (k : Nat) : Nat :=
  match v.streaming with
  | some x => x.next.toNat + 64 * k
  | none => v.ringVa.toNat + 64 * ((v.head + BitVec.ofNat 32 k).toNat % 2 ^ v.sizeLog)

/-- Entries from head that tail covers; a fallback stream is not covered by a doorbell. -/
def Queue.covered (v : Queue) : Nat := match v.streaming with | some _ => 4 | none => (v.tail - v.head).toNat

/-- What ends a fetch early. -/
inductive FetchEnd where
  | fault (kind level pte va : Nat)
  | poison
  deriving DecidableEq, Repr

/-- Read n bytes for a fetcher. -/
def State.fetchBytes (s : State) (v : Queue) (va n : Nat) (ext : Option (List Byte)) :
    (Except FetchEnd (List Byte × Option (List Byte))) × State :=
  match s.readVaX v.agent v.asid va n false ext with
  | (.error (k, l, p, a), s) => (.error (.fault k l p a), s)
  | (.ok ((b, bad), rest), s) => (if bad then .error .poison else .ok (b, rest), s)

/-- Read n entries from the k-th on. -/
def State.fetchEntries (s : State) (v : Queue) (ext : Option (List Byte)) :
    Nat → Nat → (Except FetchEnd (List Byte)) × State
  | _, 0 => (.ok [], s)
  | k, n + 1 => match s.fetchBytes v (v.entryAt k) 64 ext with
    | (.error e, s) => (.error e, s)
    | (.ok (b, rest), s) => match s.fetchEntries v rest (k + 1) n with
      | (.error e, s) => (.error e, s)
      | (.ok l, s) => (.ok (b ++ l), s)

/-- The command record of a header. -/
def Cmd.of (h : CmdHdr) (index : Nat) (handles : List Nat) (payload : List Byte) (inStream : Bool) : Cmd :=
  { index := index, opcode := h.opcode, crec := h.crec, serial := h.serial, seq := BitVec.ofNat 32 h.seq
    waybill := BitVec.ofNat 64 h.waybill, handles := handles, payload := payload, st := .accepted, detail := 0
    preempted := false, fallback := false, stops := false, inStream := inStream, headerRead := true
    signalled := false }

/-- A command that could not be read at all (R329). -/
def Cmd.unread (v : Queue) : Cmd :=
  { index := stopKey v.head.toNat, opcode := 0xFF, crec := true, serial := false, seq := v.last, waybill := 0
    handles := [], payload := [], st := .accepted, detail := 0, preempted := false, fallback := false, stops := true
    inStream := false, headerRead := false, signalled := false }

/-- A failure that stops the queue, or ends its fallback stream (R328, R329, R371). -/
def State.stopFetch (s : State) (q : Nat) (h : Option CmdHdr) (err detail : Nat) : State :=
  s.modQueue q (fun v =>
    match v.stream with
    | some x =>
      if !x.ended then
        { v with stream := some { x with ended := true, err := if x.err = 0 then err else x.err
                                         detail := if x.err = 0 then BitVec.ofNat 64 detail else x.detail } }
      else v
    | none =>
      let c := match h with
        | none => Cmd.unread v
        | some h => { Cmd.of h (stopKey v.head.toNat) [] [] false with stops := true }
      { v with stopped := true, cmds := v.cmds ++ [{ c with st := .ended err, detail := BitVec.ofNat 64 detail }] })

/-- A fetch stops: the queue stalls on a fault record, or stops in error (R194, R328). -/
def State.endFetch (s : State) (q : Nat) (v : Queue) (hdr : Option (List Byte)) (e : FetchEnd) : State :=
  let h := hdr.map headerOf
  match e with
  | .poison => s.stopFetch q h ePoison 0
  | .fault k lv pte va =>
    let (id, s) := s.raiseFault
      { asid := v.asid, kind := k, acc := accRead, va := va
        waybill := (h.map (fun x => BitVec.ofNat 64 x.waybill)).getD 0
        seq := (h.map (fun x => BitVec.ofNat 32 x.seq)).getD v.last
        agent := 2 + v.kind, unit := v.unit, queue := q, level := lv, heap := 0, detail := pte, growKey := 0
        convoy := v.convoy }
    s.modQueue q (fun v => { v with stalled := some id, stallHdr := hdr.getD [] })

/-! ### Residency (R203 to R206) -/

/-- The error of one listed handle, with how often the list names it. -/
def State.handleError (s : State) (q : Nat) (v : Queue) (h times : Nat) : Nat :=
  match s.obj? h with
  | none => eObjectInvalid
  | some o =>
    if o.asid ≠ v.asid then eObjectInvalid
    else if o.st = .doomed then eObjectDoomed
    else if o.st = .dooming && !o.horizons.any (fun z => z.1 = q && 2 ^ 31 ≤ (v.head - z.2).toNat) then eObjectDoomed
    else if 2 ^ 32 ≤ o.uses + times then eObjectBusy
    else 0

/-- The first error of a residency list, and the handles it names. -/
def State.residency (s : State) (q : Nat) (v : Queue) (l : List Nat) : Nat :=
  ((l.map (fun w => if 2 ^ 20 ≤ w then eObjectInvalid else s.handleError q v w (l.count w))).find? (· ≠ 0)).getD 0

/-- Raise, and lower, the use counts of a list (R203). -/
def State.useUp (s : State) (l : List Nat) : State := l.foldl (fun s h => s.modObj h (fun o => { o with uses := o.uses + 1 })) s
def State.useDown (s : State) (l : List Nat) : State := l.foldl (fun s h => s.modObj h (fun o => { o with uses := o.uses - 1 })) s

/-! ### Acceptance (R311, R319, R346, R371) -/

/-- head, or the stream's place, moves past a command of n entries. -/
def Queue.advance (v : Queue) (n : Nat) : Queue :=
  match v.streaming with
  | some x => { v with stream := some { x with next := x.next + BitVec.ofNat 64 (64 * n) } }
  | none =>
    let head := v.head + BitVec.ofNat 32 n
    { v with head := head, rung := v.rung.filter (fun p => 2 ^ 31 ≤ (head - p.1).toNat) }

/-- Instance of a queue's fetcher in the QF block (R543). -/
def Queue.qfInstance (v : Queue) : Nat := if v.kind = 0 then v.unit else if v.kind = 1 then 0x20 + v.unit else 0x30 + v.unit

/-- A duplicate: head moves past it and the fetcher's count rises (R319). -/
def State.duplicate (s : State) (q : Nat) (v : Queue) (n : Nat) : State :=
  let unit := if v.kind = 0 then v.unit else if v.kind = 1 then 32 + v.unit else 36 + v.unit
  (({ s with dups := mset s.dups unit (satInc (mgetD s.dups unit 0)) }.modQueue q (fun v => v.advance n)).bump blkQF
    v.qfInstance 1 1).checkDoom

/-- A main command between a switch point and its BATCH_END after the fallback stream (R371): the command as it ends. -/
def Cmd.divertAs (c : Cmd) (x : Stream) (rejected : Nat) : Cmd :=
  let c := { c with fallback := true }
  if c.opcode = 0x34 then
    if rejected ≠ 0 then { c with st := .ended rejected }
    else if x.err ≠ 0 then { c with st := .ended x.err, detail := x.detail, crec := true }
    else { c with st := .ended eDiverted }
  else { c with st := .ended eDiverted }

/-- FCLK count at which the doorbell that covered index i was applied. -/
def Queue.rungAt (v : Queue) (i : Word) (now : Nat) : Nat :=
  ((v.rung.find? (fun p => 1 ≤ (p.1 - i).toNat && (p.1 - i).toNat < 2 ^ 31)).map (fun p => p.2)).getD now

/-- The context of an accepted command of an engine queue (R344, R346). -/
def State.chargeAccept (s : State) (v : Queue) (waybill : Dword) : State :=
  match v.convoy with
  | none => s
  | some c => match s.convoy? c with
    | none => s
    | some x => (s.levelContext x.partition (ctxOfWaybill waybill)).modConvoy c (fun x =>
        { x with keyCtx := some (ctxOfWaybill waybill) })

/-- Accept a command whose entries and residency list have been read and checked. -/
def State.accept (s : State) (q : Nat) (v : Queue) (h : CmdHdr) (payload : List Byte) (l : List Nat) : State :=
  let inStream := v.streaming.isSome
  let diverted := v.stream.isSome && !inStream
  let err := s.residency q v l
  let handles := if err = 0 then l else []
  let key := match v.streaming with | some x => streamKey x.next.toNat | none => ringKey v.head.toNat
  let c := Cmd.of h key handles payload inStream
  let c := match diverted, v.stream with
    | true, some x => c.divertAs x err
    | _, _ => if err = 0 then c else { c with st := .ended err }
  let s := s.modQueue q (fun v =>
    let v := { v.advance (1 + h.length) with cmds := v.cmds ++ [c], last := if inStream then v.last else c.seq }
    let v := if diverted && h.opcode = 0x34 then { v with diverted := none, stream := none } else v
    if diverted then v
    else match h.opcode with
      | 0x10 => { v with passOpen := true, lastOrder := none }
      | 0x11 => { v with lastOrder := some (getLe payload 0 4) }
      | 0x12 => { v with passOpen := false, lastOrder := none }
      | _ => v)
  let s := ((s.useUp handles).checkDoom).chargeAccept v c.waybill |>.bump blkQF v.qfInstance 0 1
  match v.convoy with
  | some k =>
    if h.opcode = 0x30 && !v.stream.isSome then
      s.tryRelease k (max (v.rungAt v.head s.fclk) (((s.convoy? k).map (fun x => x.lastEnd)).getD 0))
    else s
  | none => s

/-- COMMAND_ACCEPT (R311): the fetcher reads and checks the next command of a queue. `entries` and `ext` are the bytes
that host memory returns for the ring and for the extended residency list. -/
def execCommandAccept (queue : Half) (entries : Option (List Byte)) (ext : Option (List Byte)) (s : State) : Out :=
  let q := queue.toNat
  match s.queue? q with
  | none => .next s
  | some v =>
    if !s.mayFetch v || v.covered = 0 then .next s
    else match s.fetchBytes v (v.entryAt 0) 64 entries with
      | (.error e, s) => .next (s.endFetch q v none e)
      | (.ok (b, rest), s) =>
        let h := headerOf b
        if v.covered < 1 + h.length then .next s
        else match s.fetchEntries v rest 1 h.length with
          | (.error e, s) => .next (s.endFetch q v (some b) e)
          | (.ok payload, s) =>
            let inStream := v.streaming.isSome
            let diverted := v.stream.isSome && !inStream
            let err := if diverted then 0 else s.formError h payload v
            let d := (BitVec.ofNat 32 h.seq - v.last).toNat
            if err ≠ 0 then .next (s.stopFetch q (some h) err 0)
            else if !inStream && !(1 ≤ d && d < 2 ^ 31) then .next (s.duplicate q v (1 + h.length))
            else match h.extList with
              | none => .next (s.accept q v h payload h.handles)
              | some (a, n) => match s.fetchBytes v a (4 * n) ext with
                | (.error e, s) => .next (s.endFetch q v (some b) e)
                | (.ok (l, _), s) =>
                  .next (s.accept q v h payload (h.handles ++ (List.range n).map (fun i => getLe l (4 * i) 4)))

/-! ### Start (R320) -/

/-- Is a command's work over? -/
def Cmd.over (c : Cmd) : Bool := match c.st with | .ended _ => true | _ => false

/-- The command of a queue that is next to start, when nothing before it in the ring holds it back (R320). -/
def Queue.nextStart (v : Queue) : Option Cmd :=
  match v.cmds.find? (fun c => c.st = .accepted) with
  | none => none
  | some c =>
    let earlier := v.cmds.takeWhile (fun d => d.index ≠ c.index)
    if earlier.all (fun d => d.opcode ≠ 0x03 || d.over) && (!(c.serial || c.opcode = 0x03) || earlier.isEmpty) then some c
    else none

/-- Is the unit of a queue in service for its next command? -/
def State.unitOpen (s : State) (v : Queue) : Bool := s.working && s.fetcherOn v

/-- The next command of a queue, if it has this opcode and may start now. -/
def State.startable (s : State) (q op : Nat) : Option (Queue × Cmd) :=
  match s.queue? q with
  | none => none
  | some v =>
    if !s.unitOpen v then none
    else match v.nextStart with
      | some c => if c.opcode = op then some (v, c) else none
      | none => none

/-- A command starts (R320, R345, R369). -/
def State.beginCmd (s : State) (q : Nat) (v : Queue) (c : Cmd) : State :=
  let s := (s.modCmd q c.index (fun c => { c with st := .started })).noteLayer q c false
  if v.kind = 0 then s.refreshCharge v.unit else s

/-- Run a command that ends at once. -/
def State.instant (s : State) (queue : Half) (op : Nat) (f : Queue → Cmd → State → State) : Out :=
  let q := queue.toNat
  match s.startable q op with
  | none => .next s
  | some (v, c) => .next ((f v c ((s.modCmd q c.index (fun c => { c with st := .started })).noteLayer q c false)).endCmd
      q c.index 0 0)

/-- NOP (R314). -/
def execQueueNop (queue : Half) (s : State) : Out := s.instant queue 0x00 (fun _ _ s => s)

/-- EVENT_RECORD (R317): its SIGNAL is its retirement's. -/
def execEventRecord (queue : Half) (s : State) : Out := s.instant queue 0x04 (fun _ _ s => s)

/-- EVENT_AWAIT (R317, R323): completes at once when its conditions hold, else waits for a record. -/
def execEventAwait (queue : Half) (s : State) : Out :=
  let q := queue.toNat
  match s.startable q 0x03 with
  | none => .next s
  | some (v, c) =>
    let s := s.beginCmd q v c
    .next (if s.awaitHolds c.payload then (s.endCmd q c.index 0 0).queueAcquire v else s)

/-! ### Markers (R348) -/

/-- BATCH_START (R348, R365): passes where a batch is released and has not passed it here; else holds. -/
def execBatchStart (queue : Half) (s : State) : Out :=
  let q := queue.toNat
  match s.startable q 0x30 with
  | none => .next s
  | some (v, c) =>
    match (v.convoy.bind s.convoy?).bind (fun x => if c.inStream then none else x.timed.map (fun _ => x)) with
    | none => .next (s.endCmd q c.index 0 0)
    | some x =>
      if x.batch.isSome && !v.batchDone && !v.inBatch then .next (s.passBatchStart q)
      else .next (s.modQueue q (fun v => { v with atBatchStart := true }))

/-- SWITCH_POINT (R348, R370, R371). -/
def execSwitchPoint (queue : Half) (s : State) : Out :=
  let q := queue.toNat
  match s.startable q 0x31 with
  | none => .next s
  | some (v, c) =>
    let p := getLe c.payload 0 2
    match s.batchOf q with
    | none => .next (s.endCmd q c.index 0 0)
    | some (k, _, _) =>
      if c.inStream || v.stream.isSome then .next (s.endCmd q c.index 0 0)
      else .next (((s.decidePoint k p).divert q p).endCmd q c.index 0 0)

/-- TILE_HOLD and TILE_FREE (R348, R350). -/
def execTileHold (queue : Half) (s : State) : Out :=
  s.instant queue 0x32 (fun v _ s => s.modEng v.unit (fun x => { x with tileHold := true }))
def execTileFree (queue : Half) (s : State) : Out :=
  s.instant queue 0x33 (fun v _ s => s.modEng v.unit (fun x => { x with tileHold := false }))

/-- BATCH_END (R348): reached in ring order; its retirement ends the batch. -/
def execBatchEnd (queue : Half) (s : State) : Out := s.instant queue 0x34 (fun _ _ s => s)

/-! ### Retirement (R321 to R329) -/

/-- Do writes of a queue's unit still wait for another die's acknowledgement (R180, R472)? -/
def State.writesOwed (s : State) (v : Queue) : Bool :=
  s.caravan.reqs.any (fun p => (p.2.type = 2 || p.2.type = 3 || p.2.type = 4) && (match p.2.dest with
    | .store e _ => v.kind = 0 && e = v.unit
    | .other => true
    | _ => false))

/-- The completion record of a command (R326). -/
def recordBytes (v : Queue) (c : Cmd) (err : Nat) (late : Bool) (fclk : Nat) : List Byte :=
  leBytes 4 c.seq.toNat ++ leBytes 2 err
  ++ leBytes 1 (b2n (c.index % 2 ^ 32 / 2 ^ v.sizeLog % 2 = 0) * 128 + b2n late * 4 + b2n c.fallback * 2 + b2n c.preempted)
  ++ leBytes 1 c.opcode ++ leBytes 8 c.detail.toNat ++ leBytes 8 c.waybill.toNat ++ leBytes 8 (domF * 2 ^ 56 + fclk)

/-- Write a completion record; true when it is lost (R327). -/
def State.writeRecord (s : State) (q : Nat) (v : Queue) (c : Cmd) (err : Nat) (late : Bool) : Bool × State :=
  let a := v.ringVa.toNat + 64 * 2 ^ v.sizeLog + 32 * (c.index % 2 ^ v.sizeLog)
  match s.writeVa v.agent v.asid a (recordBytes v c err late s.fclk) false with
  | (.ok _, s) => (false, s)
  | (.error _, s) => (true, s.log 0x05 a c.waybill.toNat (err + q * 2 ^ 16))

/-- Progress unit of a queue's unit (R331). -/
def Queue.progressUnit (v : Queue) : Nat := if v.kind = 0 then v.unit else if v.kind = 1 then 32 + v.unit else 36 + v.unit

/-- Does a retirement of this opcode raise its unit's progress counter? Compression engines count jobs (R331). -/
def countsProgress (v : Queue) (op : Nat) : Bool := v.kind ≠ 2 || op = 0x20 || op = 0x21

/-- The actions after the SIGNAL: the stop cookie, use counts, accounting, the batch and the fallback stream. -/
def State.finishRetire (s : State) (q : Nat) (v : Queue) (c : Cmd) (err : Nat) (lost : Bool) : State :=
  let ctx := ctxOfWaybill c.waybill
  let s := if c.stops then s.interruptOpt v.vector 0x1 (b2n lost) q (err * 2 ^ 32 + c.seq.toNat) else s
  let s := s.noteLayer q c true
  let s := (s.useDown c.handles).modQueue q (fun v => { v with
    cmds := v.cmds.filter (fun d => d.index ≠ c.index)
    stream := if c.inStream then v.stream.map (fun x =>
        let x := if err ≠ 0 && x.err = 0 then { x with err := err, detail := c.detail } else x
        if c.opcode = 0x34 then { x with ended := true } else x) else v.stream })
  let s := (if countsProgress v c.opcode then s.progress v.progressUnit 1 else s).bump blkQF v.qfInstance 2 1
  let s := if v.kind = 2 && countsProgress v c.opcode then
      { s with cmpJobs := mset s.cmpJobs v.unit (mgetD s.cmpJobs v.unit 0 + 1) } else s
  let s := s.modAccount ctx (fun a => { a with commands := a.commands + 1 })
  let s := match (v.convoy.bind s.convoy?) with
    | some x => s.chargePoint x.partition
    | none => s
  let s := if v.kind = 0 then s.refreshCharge v.unit else s
  if c.opcode = 0x34 && !c.inStream && !c.stops then s.retireBatchEnd q ctx else s

/-- May a SIGNAL still go to a die: reachable, and not leaving the caravan (R469, R475)? -/
def State.signalable (s : State) (die : Nat) : Bool :=
  s.reachable die && (match mget s.caravan.topo die with | some t => t.st ≠ 3 | none => true)

/-- The STATUS that a command retires with (R321, R367, R473). -/
def State.finalError (s : State) (c : Cmd) (late : Bool) : Nat :=
  let own := match c.st with | .ended e => e | _ => 0
  let gone := match signalOf c.opcode c.payload with
    | some g => g.enable && g.remote && g.die ≠ s.caravan.die && !s.signalable g.die && !c.stops
    | none => false
  if own ≠ 0 && own ≠ eDiverted then own
  else if gone then eCvlUnreachable
  else if late then eDeadlineMissed
  else own

/-- Perform a SIGNAL (R322, R324, R473): true when the retirement goes on at once. -/
def State.performSignal (s : State) (q : Nat) (c : Cmd) (lost : Bool) : Bool × State :=
  match signalOf c.opcode c.payload with
  | none => (true, s)
  | some g =>
    if !g.enable || c.stops then (true, s)
    else if !g.remote || g.die = s.caravan.die then (true, s.recordEvent g.event g.value lost)
    else if !s.signalable g.die then (true, s.log 0x0E g.event g.die 0)
    else match s.cvlRequest 5 g.die g.event 0 (leBytes 16 g.value) .other (some (q, c.index)) false 0 with
      | some s => (false, s.modCmd q c.index (fun c => { c with signalled := true }))
      | none => (false, s)

/-- The retirement actions of the oldest command of a queue, once its work is over (R321). -/
def State.retireFront (s : State) (q : Nat) : Out :=
  match s.queue? q with
  | none => .next s
  | some v => match v.cmds with
    | [] => .next s
    | c :: _ =>
      if !s.working || !c.over || c.signalled || s.writesOwed v then .next s
      else
        let late := c.opcode = 0x34 && !c.inStream && !c.stops && s.endsBatch q && s.batchLate q
        let err := s.finalError c late
        let record := !c.inStream && (c.crec || (err ≠ 0 && err ≠ eDiverted) || late)
        let (lost, s) := if record then s.writeRecord q v c err late else (false, s)
        let s := s.modCmd q c.index (fun c => { c with st := .ended err })
        match s.performSignal q c lost with
        | (true, s) => .next (s.finishRetire q v c err lost)
        | (false, s) => .next s

/-! ### Mailbox commands -/

/-- A queue as QUEUE_CREATE leaves it (R305). -/
def Queue.new (asid sizeLog kind vector : Nat) (ringVa : Dword) (convoy : Option Nat) (unit : Nat) : Queue :=
  { asid := asid, sizeLog := sizeLog, kind := kind, vector := vector, ringVa := ringVa, convoy := convoy, unit := unit
    head := 0, tail := 0, last := 0, rung := [], stopped := false, stalled := none, stallHdr := [], cmds := [], stream := none
    diverted := none, atBatchStart := false, inBatch := false, batchDone := false, passOpen := false, pass := none
    lastOrder := none }

/-- Units of a queue kind. -/
def kindUnits (kind : Nat) : Nat := if kind = 0 then 32 else if kind = 1 then 4 else 2

/-- QUEUE_CREATE (R304, R341). -/
def execQueueCreate (pair : Fin 8) (s : State) : Out :=
  s.mbxCmd pair 0x0101 (fun r s =>
    let k := r.n 0x10 2
    let asid := r.n 0x12 2
    let size := r.n 0x14 1
    let kind := r.n 0x15 1
    let vec := r.n 0x16 2
    let va := r.n 0x18 8
    let conv := r.n 0x20 4
    let unit := r.n 0x24 1
    if (k ≠ 0xFFFF && 4095 < k) || asid = 0xFFFF || size < 6 || 20 < size || 2 < kind || !vectorOk vec || va % 4096 ≠ 0
        || 2 ^ 48 < va + 96 * 2 ^ size || kindUnits kind ≤ unit || (kind = 0 && 511 < conv) then (.err eBadParameter, s)
    else if k ≠ 0xFFFF && mhas s.queues k then (.err eBusy, s)
    else if !mhas s.mmu.asids asid then (.err eNotFound, s)
    else if kind = 0 && !mhas s.convoys conv then (.err eNotFound, s)
    else
      let x := s.convoy? conv
      let mine := s.queuesOf conv
      if kind = 0 && ((match x.bind (fun x => s.part? x.partition) with
            | some p => !p.engines.contains unit
            | none => true) || mine.any (fun p => p.2.unit = unit)) then (.err eConvoyEngine, s)
      else if kind = 0 && mine.any (fun p => p.2.asid ≠ asid) then (.err eConvoyAsid, s)
      else
        let q := Queue.new asid size kind vec (BitVec.ofNat 64 va) (if kind = 0 then some conv else none) unit
        if k ≠ 0xFFFF then (.ok (result [(0x10, 2, k)]) 0, s.setQueue k q)
        else match s.pick s.queues 0 4096 with
          | none => (.err eNoResource, s)
          | some (k, s) => (.ok (result [(0x10, 2, k)]) 0, s.setQueue k q))

/-- QUEUE_DESTROY (R329, R342). -/
def execQueueDestroy (pair : Fin 8) (s : State) : Out :=
  s.mbxCmd pair 0x0102 (fun r s =>
    let k := r.n 0x10 2
    if 4095 < k then (.err eBadParameter, s)
    else match s.queue? k with
      | none => (.err eNotFound, s)
      | some v =>
        let held := match v.convoy with | some c => s.holdsSlot c | none => false
        if held || !v.cmds.isEmpty || (!v.stopped && v.head ≠ v.tail) then (.err eQueueBusy, s)
        else (Ans.done, { s with queues := merase s.queues k }.checkDoom))

/-- QUEUE_RESTART (R329). -/
def execQueueRestart (pair : Fin 8) (s : State) : Out :=
  s.mbxCmd pair 0x0103 (fun r s =>
    let k := r.n 0x10 2
    let h := BitVec.ofNat 32 (r.n 0x14 4)
    if 4095 < k then (.err eBadParameter, s)
    else match s.queue? k with
      | none => (.err eNotFound, s)
      | some v =>
        if !v.stopped then (.err eQueueNotStopped, s)
        else if 2 ^ v.sizeLog < (v.tail - h).toNat then (.err eBadParameter, s)
        else (Ans.done, (s.setQueue k { v with head := h, stopped := false, passOpen := false, lastOrder := none }).checkDoom))

end Sys2Proof.Machine
end

