-- ==== Sys2Proof/Machine/Tensor.lean ====
section
/-! DEFINITION. Tensor instructions, class 0xA (R107 to R136), their start and completion (R130), accumulation sets (R59,
R60, R62 to R66, R113 to R116), tile memory (R117, R118) and gang instructions (R110, R138). -/

namespace Sys2Proof.Machine

/-! ### Tile memory -/

/-- A byte of tile memory; bytes of a granule that has changed sides are undefined until written (R145). -/
def Eng.tileByte (v : Eng) (off : Nat) : Byte :=
  match mget v.tile off with
  | some b => b
  | none => match mget v.tileFree (off / 262144) with
    | some seed => BitVec.ofNat 8 (Config.freeNat seed / 256 ^ (off % 262144))
    | none => 0

def Eng.setTile (v : Eng) (off : Nat) (b : Byte) : Eng := { v with tile := mset v.tile off b }

/-! ### Descriptors (R122, R123) -/

/-- The fields of a tensor descriptor. -/
structure Desc where
  scaleOff : Nat
  pitch : Nat
  spread : Nat
  row : Bool
  blk16 : Bool
  uns : Bool
  fmt : Nat
  offset : Nat
  scalePitch : Nat
  cols : Nat
  rows : Nat
  deriving DecidableEq, Repr

def descOf (d : BitVec 128) : Desc :=
  let w := d.toNat
  { scaleOff := bits w 63 48 * 64, pitch := bits w 47 32, spread := 2 ^ bits w 31 30, row := bit w 29, blk16 := bit w 28
    uns := bit w 27, fmt := bits w 26 22, offset := bits w 21 0, scalePitch := bits w 127 112, cols := bits w 95 80
    rows := bits w 79 64 }

def Desc.code (d : Desc) : Code := (codeOf d.fmt).getD (.int 8)
def Desc.blk (d : Desc) : Nat := if d.blk16 then 16 else 32

/-- Bytes of one slice or row. -/
def Desc.sliceBytes (d : Desc) : Nat := rowBytes d.code.width d.cols

/-- Lines of the element array. -/
def Desc.lines (d : Desc) : Nat := (d.rows - 1) * d.pitch + (d.sliceBytes + 63) / 64

/-- Tile offset of byte x of the region (R118). -/
def Desc.at (d : Desc) (x : Nat) : Nat :=
  (d.offset / 262144 + x / 64 % d.spread) * 262144 + d.offset % 262144 + x / 64 / d.spread * 64 + x % 64

/-- Scale slices or rows, and bytes in each (R119): blocks run along the reduction. -/
def Desc.scaleShape (d : Desc) : Nat × Nat :=
  if !d.code.isMx then (0, 0)
  else if d.row then (d.rows, (d.cols + d.blk - 1) / d.blk)
  else ((d.rows + d.blk - 1) / d.blk, d.cols)

/-- First byte past the scale array. -/
def Desc.scaleEnd (d : Desc) : Nat :=
  let (n, b) := d.scaleShape
  if n = 0 then d.scaleOff else d.scaleOff + (n - 1) * d.scalePitch + b

/-- Everything R123 asks of a descriptor by itself, with the tensor side from granule `tb`. -/
def Desc.legal (d : Desc) (w : BitVec 128) (tb : Nat) : Bool :=
  let g0 := d.offset / 262144
  let perGran := (d.lines + d.spread - 1) / d.spread
  match codeOf d.fmt with
  | none => false
  | some c =>
    d.pitch ≠ 0 && d.cols ≠ 0 && d.rows ≠ 0 && bits w.toNat 111 96 = 0 && d.offset % 64 = 0
    && (c.isMx || !d.blk16) && (c.isInt || !d.uns) && (c.isMx || d.scalePitch = 0)
    && tb ≤ g0 && g0 + d.spread ≤ 16
    && d.offset % 262144 + 64 * perGran ≤ 262144
    && (!c.isMx || (tb ≤ d.scaleOff / 262144 && d.scaleEnd ≤ (d.scaleOff / 262144 + 1) * 262144))

/-- Do the byte ranges of two regions meet? Granule by granule, elements and scales. -/
def Desc.ranges (d : Desc) : List (Nat × Nat) :=
  let perGran := (d.lines + d.spread - 1) / d.spread
  ((List.range d.spread).map (fun i =>
    let a := (d.offset / 262144 + i) * 262144 + d.offset % 262144
    (a, a + 64 * perGran))) ++ (if d.code.isMx then [(d.scaleOff, d.scaleEnd)] else [])

def Desc.meets (a b : Desc) : Bool := a.ranges.any (fun x => b.ranges.any (fun y => x.1 < y.2 && y.1 < x.2))

/-- Code of element i of slice or row k. -/
def Eng.elemCode (v : Eng) (d : Desc) (k i : Nat) : Nat :=
  let n := d.code.width
  let base := k * d.pitch * 64
  let byte := fun (x : Nat) => (v.tileByte (d.at (base + x))).toNat
  if n = 4 then bits (byte (i / 2)) (4 * (i % 2) + 3) (4 * (i % 2))
  else if n = 6 then
    let g := 3 * (i / 4)
    bits (byte g + 256 * byte (g + 1) + 65536 * byte (g + 2)) (6 * (i % 4) + 5) (6 * (i % 4))
  else (List.range (n / 8)).foldl (fun a j => a + byte (i * (n / 8) + j) * 256 ^ j) 0

/-- Scale byte that covers element i of slice or row k (R46, R119). -/
def Eng.elemScale (v : Eng) (d : Desc) (k i : Nat) : Nat :=
  let at_ := if d.row then d.scaleOff + k * d.scalePitch + i / d.blk else d.scaleOff + k / d.blk * d.scalePitch + i
  (v.tileByte at_).toNat

/-- Store one row of element codes at slice or row k. -/
def Eng.putRow (v : Eng) (d : Desc) (k : Nat) (codes : List Nat) : Eng :=
  foldIdx (packRow d.code.width codes) v (fun v x b => v.setTile (d.at (k * d.pitch * 64 + x)) b)

/-- Store one element of a byte-wide format. -/
def Eng.putElem (v : Eng) (d : Desc) (k i code : Nat) : Eng :=
  let n := d.code.width / 8
  loop n v (fun v j => v.setTile (d.at (k * d.pitch * 64 + i * n + j)) (BitVec.ofNat 8 (code / 256 ^ j)))

/-! ### Accumulation (R59, R60) -/

/-- A product or partial sum: an exact integer, or a floating-point value. -/
inductive Term where
  | int (i : Int)
  | flt (v : FVal)
  deriving DecidableEq, Repr

/-- One integer set: exact sum, clamped under SAT or wrapped under IEEE (R59). -/
def intSet (ieee : Bool) (acc : Int) (ps : List Int) : Int :=
  let t := ps.foldl (· + ·) acc
  if ieee then sext 32 (wrapInt 32 t) else clampInt (intLo 32 false) (intHi 32 false) t

/-- A dyadic number truncated toward zero to multiples of 2^q. -/
def Dy.truncAt (d : Dy) (q : Int) : Dy :=
  if q ≤ d.e then d
  else
    let m := d.m.natAbs / 2 ^ (q - d.e).toNat
    ⟨if d.m < 0 then -(m : Int) else m, q⟩

/-- One floating-point set: align to the largest exponent, keep 36 bits below its leading bit, add, round once (R60). -/
def fltSet (ieee : Bool) (vs : List FVal) : FVal :=
  if vs.any FVal.isNan then .nan
  else
    let infs := vs.filter FVal.isInf
    match infs with
    | i :: _ => if infs.all (fun x => x.sgn = i.sgn) then i else .nan
    | [] =>
      let ds := (vs.map FVal.dy).filter (fun d => d.m ≠ 0)
      match ds with
      | [] => .fin (vs.all FVal.sgn) 0 0
      | d :: _ =>
        let top := ds.foldl (fun m x => max m x.expo) d.expo
        let sum := ds.foldl (fun a x => a.add (x.truncAt (top - 36))) Dy.zero
        fmtFP32.decode (fmtFP32.encode ieee .rne (FVal.ofDy sum false))

/-- One set of products with its accumulator (R59, R60, R115). -/
def setSum (ieee : Bool) (acc : Term) (ps : List Term) : Term :=
  match acc with
  | .int a => .int (intSet ieee a (ps.filterMap (fun t => match t with | .int i => some i | .flt _ => none)))
  | .flt a => .flt (fltSet ieee (a :: ps.filterMap (fun t => match t with | .flt v => some v | .int _ => none)))

/-! ### Split passes (R62 to R66) -/

/-- Piece p of an INT16 value: 0 lo, 1 hi. -/
def int16Piece (p : Nat) (i : Int) : Int := if p = 0 then i % 256 else i / 256

/-- Piece of an FP32 value: 0 h, 1 m, 2 l (R64). -/
def fp32Piece (p : Nat) (v : FVal) : FVal :=
  let bf := fun (x : FVal) => fmtBF16.decode (fmtBF16.encode true .rtz x)
  match v with
  | .nan => if p = 0 then .nan else .fin false 0 0
  | .inf s => if p = 0 then .inf s else .fin s 0 0
  | .fin s _ _ =>
    let h := bf v
    let r1 := FVal.ofDy (v.dy.sub h.dy) s
    let m := bf r1
    if p = 0 then h else if p = 1 then m else FVal.ofDy (r1.dy.sub m.dy) s

/-- A piece of an element; 3 is the whole element. -/
def Elem.piece (x : Elem) (p : Nat) : Elem :=
  if p = 3 then x else match x with
    | .int i => .int (int16Piece p i)
    | .flt v => .flt (fp32Piece p v)

def isI16 (c : Code) : Bool := c = .int 16
def isF32 (c : Code) : Bool := c = .flt fmtFP32

/-- Passes of an operand pair: piece of A, piece of B, shift of an integer term (R66). -/
def passesOf (a b : Code) : List (Nat × Nat × Nat) :=
  if isI16 a && isI16 b then [(0, 0, 0), (0, 1, 8), (1, 0, 8), (1, 1, 16)]
  else if isI16 a then [(0, 3, 0), (1, 3, 8)]
  else if isI16 b then [(3, 0, 0), (3, 1, 8)]
  else if isF32 a && isF32 b then [(0, 2, 0), (2, 0, 0), (1, 1, 0), (0, 1, 0), (1, 0, 0), (0, 0, 0)]
  else if isF32 a then [(2, 3, 0), (1, 3, 0), (0, 3, 0)]
  else if isF32 b then [(3, 2, 0), (3, 1, 0), (3, 0, 0)]
  else [(3, 3, 0)]

/-- Reduction indices a cell takes per set: 2 for the 4-bit class, else 1 (R107, R115). -/
def setWidth (a b : Code) : Nat := if a.passBits = 4 && b.passBits = 4 then 2 else 1

/-- Product of two elements in a pass, with the MX scales (R49, R60). -/
def product (x y : Elem) (pass : Nat × Nat × Nat) : Term :=
  match x.piece pass.1, y.piece pass.2.1 with
  | .int i, .int j => .int (i * j * (2 ^ pass.2.2 : Nat))
  | a, b => .flt (a.val.mul b.val)

/-- Output-stationary element: sets of `w` products in ascending K order, pass by pass (R59, R115). -/
def outStationary (ieee : Bool) (passes : List (Nat × Nat × Nat)) (w k : Nat) (a b : Nat → Elem) (acc : Term) : Term :=
  passes.foldl (fun acc p =>
    (List.range ((k + w - 1) / w)).foldl (fun acc t =>
      setSum ieee acc (((List.range w).filter (fun j => w * t + j < k)).map (fun j =>
        product (a (w * t + j)) (b (w * t + j)) p))) acc) acc

/-- Weight-stationary element: columns of 16 cells chained inside a window of `win` indices; every output that leaves the
array is added to C as a set of two values, but the first of the first pass when ACC = 0 (R114, R115). `late`: the
partial sum that enters index `mid` comes late and is added as its own set (R116). -/
def weightStationary (ieee : Bool) (passes : List (Nat × Nat × Nat)) (w k win : Nat) (a b : Nat → Elem) (zero c : Term)
    (acc : Bool) (mid : Option Nat) (late : Bool) : Term :=
  let step := 16 * w
  (foldIdx passes (c, acc) (fun st _ p =>
    (List.range ((k + win - 1) / win)).foldl (fun st wi =>
      let lo := wi * win
      let hi := min k (lo + win)
      let part := (List.range ((hi - lo + step - 1) / step)).foldl (fun part t =>
        let s0 := lo + t * step
        let ps := ((List.range step).filter (fun j => s0 + j < hi)).map (fun j => product (a (s0 + j)) (b (s0 + j)) p)
        if late && mid = some s0 then setSum ieee (setSum ieee zero ps) [part] else setSum ieee part ps) zero
      if st.2 then (setSum ieee st.1 [part], true) else (part, true)) st)).1

/-! ### Instruction state -/

/-- Descriptor pairs of an instruction by kind. -/
def TIns.a (t : TIns) : Desc := descOf t.descA
def TIns.b (t : TIns) : Desc := descOf t.descB
def TIns.c (t : TIns) : Desc := descOf t.descC
def TIns.shape (t : TIns) : Nat := bits t.low.toNat 7 5
def TIns.df (t : TIns) : Bool := bit t.low.toNat 4
def TIns.ieee (t : TIns) : Bool := bit t.low.toNat 1
def TIns.acc (t : TIns) : Bool := bit t.low.toNat 0
def TIns.xpose (t : TIns) : Bool := bit t.low.toNat 7

/-- Position of an engine in its Quad (R110): row, column. -/
def gangRow (e : Nat) : Nat := e % 4 / 2
def gangCol (e : Nat) : Nat := e % 2

/-- Operand roles a member of a gang has (R110): A, B, C. -/
def gangRoles (e : Nat) (df : Bool) : Bool × Bool × Bool :=
  if df then (gangCol e = 0, true, gangRow e = 1) else (gangCol e = 0, gangCol e = 1, true)

/-- Roles a TMMA has on an engine. -/
def TIns.roles (t : TIns) (e : Nat) : Bool × Bool × Bool :=
  if t.shape = 4 then gangRoles e t.df else (true, true, true)

/-- Regions an instruction reads and writes that it still holds: a started TMMA has released A and B (R130). -/
def TIns.reads (t : TIns) (e : Nat) : List Desc :=
  match t.kind with
  | .tmma =>
    let (ra, rb, rc) := t.roles e
    if t.started then [] else
      (if ra then [t.a] else []) ++ (if rb then [t.b] else []) ++ (if rc && t.acc then [t.c] else [])
  | .tspill => [t.a]
  | .tcvt => [t.b]
  | .tfill => []
def TIns.writes (t : TIns) (e : Nat) : List Desc :=
  match t.kind with
  | .tmma => if (t.roles e).2.2 then [t.c] else []
  | .tfill => [t.a]
  | .tcvt => [t.c]
  | .tspill => []

/-- Does an earlier instruction still hold a region that a later one shares, with a write on either side (R130)? -/
def TIns.blocks (t u : TIns) (e : Nat) : Bool :=
  (t.writes e).any (fun x => (u.reads e ++ u.writes e).any x.meets) || (t.reads e).any (fun x => (u.writes e).any x.meets)

/-! ### Issue -/

/-- A uniform-register pair as a descriptor. -/
def Str.pair (st : Str) (r : Nat) : BitVec 128 := BitVec.ofNat 128 ((st.u r).toNat + 2 ^ 64 * (st.u (r + 1)).toNat)

/-- Header of a class 0xA instruction: PRED p7, PNEG 0, bits [49:26] zero (R129). -/
def tensorHdr (h : Hdr) : Bool := h.pred = 7 && !h.pneg && h.dst = 0 && h.src0 = 0 && h.src1 = 0

/-- Issue a tensor instruction: at most 16 outstanding on an engine (R129). -/
def State.issueTensor (s : State) (w : Site) (h : Hdr) (legal : Bool) (pairs : List Nat) (singles : List Nat)
    (f : Act → State → State) : Out :=
  let u : Use := { use0 with ru := (pairs.map (fun r => [r, r + 1])).flatten ++ singles, ok := pairs.all (· % 2 = 0) }
  s.issue w h 0xA (tensorHdr h && legal) u (fun a s =>
    if 16 ≤ (s.eng a.e).tensors.length then s.setStr a.e a.place (a.str.blockHead .tensorFull) else f a s)

/-- Enter a tensor instruction and advance the string. -/
def State.pushTensor (s : State) (a : Act) (t : TIns) : State :=
  (s.modEng a.e (fun v => { v with tensors := v.tensors ++ [{ t with id := v.nextTensor }], nextTensor := v.nextTensor + 1 })).setStr
    a.e a.place a.str.step

def State.blankTensor (_ : State) (a : Act) (kind : TKind) (low : BitVec 26) : TIns :=
  { id := 0, kind := kind, place := a.place, queue := a.str.queue, cmd := a.str.cmd, low := low, descA := 0, descB := 0
    descC := 0, addr := 0, scaleAddr := 0, pitch := 0, gangSeq := none, started := false, faulted := false }

def eTensorDesc : Nat := 0x0104
def eGangMismatch : Nat := 0x0105

/-- Layouts, dimensions and formats of a TMMA on an engine (R35, R38, R120, R121). -/
def TIns.tmmaLegal (t : TIns) (e tb : Nat) : Bool :=
  let (ra, rb, rc) := t.roles e
  let gang := t.shape = 4
  let a := t.a
  let b := t.b
  let c := t.c
  let okA := !ra || (a.legal t.descA tb && a.code.operand && a.row = t.df)
  let okB := !rb || (b.legal t.descB tb && b.code.operand && !b.row)
  let okC := !rc || (c.legal t.descC tb && c.row && (c.fmt = 0x03 || c.fmt = 0x0B))
  let k := if gang && t.df then 256 else if ra then (if t.df then a.cols else a.rows) else b.rows
  let mx := (!ra || !a.code.isMx || k % a.blk = 0) && (!rb || !b.code.isMx || k % b.blk = 0)
  let kinds := (!ra || !rc || a.code.isInt = (c.fmt = 0x03)) && (!rb || !rc || b.code.isInt = (c.fmt = 0x03))
    && (!ra || !rb || a.code.isInt = b.code.isInt)
  let dims := if gang then
      (if t.df then (!ra || a.cols = 128) && (!rb || (b.rows = 128 && b.cols = 128)) && (!rc || c.cols = 128)
       else (!ra || a.cols = 128) && (!rb || b.cols = 128) && (!rc || (c.rows = 128 && c.cols = 128)))
    else if t.df then a.cols = b.rows && c.rows = a.rows && c.cols = b.cols
    else a.rows = b.rows && c.rows = a.cols && c.cols = b.cols
  okA && okB && okC && mx && kinds && dims

/-- TMMA (R131). -/
def execTmma (w : Site) (h : Hdr) (low : BitVec 26) (s : State) : Out :=
  let f := low.toNat
  let e := w.engine.val
  let ua := bits f 25 20
  let ub := bits f 19 14
  let uc := bits f 13 8
  let shape := bits f 7 5
  let (ra, rb, rc) := if shape = 4 then gangRoles e (bit f 4) else (true, true, true)
  let inGang := match s.str? e w.place.val with
    | some st => (s.eng e).disps.any (fun d => d.gang && d.queue = st.queue && d.cmd = st.cmd)
    | none => false
  let legal := shape ≤ 4 && bits f 3 2 = 0 && (shape ≠ 4 || inGang) && (ra || ua = 0) && (rb || ub = 0) && (rc || uc = 0)
  s.issueTensor w h legal ((if ra then [ua] else []) ++ (if rb then [ub] else []) ++ (if rc then [uc] else [])) []
    (fun a s =>
      let mine := fun (d : Disp) => d.queue = a.str.queue && d.cmd = a.str.cmd
      let seq := ((s.eng e).disps.find? mine).map (fun d => d.gangOps)
      let t := { s.blankTensor a .tmma low with
        descA := if ra then a.str.pair ua else 0, descB := if rb then a.str.pair ub else 0
        descC := if rc then a.str.pair uc else 0, gangSeq := if shape = 4 then seq else none }
      if !t.tmmaLegal e (s.eng e).tb then s.trap e a.str.queue a.str.cmd eTensorDesc 0
      else
        let s := s.pushTensor a t
        if shape = 4 then s.modEng e (fun v => { v with disps := v.disps.map (fun d =>
          if mine d then { d with gangOps := d.gangOps + 1 } else d) })
        else s)

/-- TFILL and TSPILL share their operand form (R131 to R133). -/
def State.issueMover (s : State) (kind : TKind) (w : Site) (h : Hdr) (low : BitVec 26) : Out :=
  let f := low.toNat
  let ud := bits f 25 20
  let uaddr := bits f 19 14
  let upitch := bits f 13 8
  s.issueTensor w h (bits f 6 0 = 0) [ud, uaddr] [upitch] (fun a s =>
    let t := { s.blankTensor a kind low with
      descA := a.str.pair ud, addr := a.str.u uaddr, scaleAddr := a.str.u (uaddr + 1), pitch := a.str.u upitch }
    let d := t.a
    let p := t.pitch.toNat
    let (sn, sb) := d.scaleShape
    let mis := t.addr.toNat % 16 ≠ 0 || bits p 31 0 % 16 ≠ 0
      || (d.code.isMx && (t.scaleAddr.toNat % 16 ≠ 0 || bits p 63 32 % 16 ≠ 0))
    if !d.legal t.descA (s.eng a.e).tb || (t.xpose && d.row) || 262144 < d.rows * d.sliceBytes + sn * sb then
      s.trap a.e a.str.queue a.str.cmd eTensorDesc 0
    else if mis then s.trap a.e a.str.queue a.str.cmd eMisaligned 0
    else s.pushTensor a t)

def execTfill (w : Site) (h : Hdr) (low : BitVec 26) (s : State) : Out := s.issueMover .tfill w h low
def execTspill (w : Site) (h : Hdr) (low : BitVec 26) (s : State) : Out := s.issueMover .tspill w h low

/-- TCVT (R131, R134). -/
def execTcvt (w : Site) (h : Hdr) (low : BitVec 26) (s : State) : Out :=
  let f := low.toNat
  let us := bits f 25 20
  let ud := bits f 19 14
  s.issueTensor w h (bits f 13 4 = 0 && bits f 3 2 ≠ 3 && bits f 0 0 = 0) [us, ud] [] (fun a s =>
    let t := { s.blankTensor a .tcvt low with descB := a.str.pair us, descC := a.str.pair ud }
    let src := t.b
    let dst := t.c
    let tb := (s.eng a.e).tb
    if !src.legal t.descB tb || !dst.legal t.descC tb || src.rows ≠ dst.rows || src.cols ≠ dst.cols || src.row ≠ dst.row then
      s.trap a.e a.str.queue a.str.cmd eTensorDesc 0
    else s.pushTensor a t)

/-- TWAIT (R131, R135). -/
def execTwait (w : Site) (h : Hdr) (low : BitVec 26) (s : State) : Out :=
  let n := bits low.toNat 25 18
  s.issue w h 0xA (tensorHdr h && bits low.toNat 17 0 = 0) use0 (fun a s =>
    let mine := (s.eng a.e).tensors.filter (fun t => t.place = a.place && t.queue = a.str.queue && t.cmd = a.str.cmd)
    s.setStr a.e a.place (if mine.length ≤ n then a.str.step else a.str.step.blockHead (.tensor n)))

/-! ### Execution -/

/-- Element x of an operand for the reduction index k and outer index i, scaled. -/
def Eng.operand (v : Eng) (d : Desc) (ieee : Bool) (k i : Nat) : Elem :=
  let (r, c) := if d.row then (i, k) else (k, i)
  let x := d.code.read d.uns ieee (v.elemCode d r c)
  if d.code.isMx then x.scale (v.elemScale d r c) else x

/-- Accumulator element of C under an overflow mode, and its code. -/
def Eng.accAt (v : Eng) (d : Desc) (ieee : Bool) (i j : Nat) : Term :=
  match d.code.read d.uns ieee (v.elemCode d i j) with
  | .int x => .int x
  | .flt x => .flt x

def Term.code (t : Term) : Nat := match t with | .int i => wrapInt 32 i | .flt v => fmtFP32.encode true .rne v

def zeroTerm (c : Desc) : Term := if c.fmt = 0x03 then .int 0 else .flt (.fin false 0 0)

/-- Smallest power of two not less than n, at most g (R113, R114). -/
def pow2cap (n g : Nat) : Nat := ((List.range 8).map (fun i => 2 ^ i)).foldl (fun b x => if n ≤ b then b else min x g) 1

/-- MACs of a TMMA and their counters (R125, R544, R545). -/
def State.countMacs (s : State) (e : Nat) (fmtA : Nat) (passes m n k : Nat) (busy : Nat) : State :=
  let s := s.bump blkTNS e fmtA (passes * m * n * k)
  let s := if passes = 1 then s else loop passes s (fun s p => s.bump blkTNS e (0x020 + p) (m * n * k))
  s.bump blkTNS e 0x030 busy

/-- Steady cycles of an in-engine TMMA (R125). -/
def steadyCycles (df : Bool) (shape passes m n k : Nat) (a b : Code) : Nat :=
  let sd := 16 * 2 ^ shape
  let g := 128 / sd
  let w := setWidth a b
  let c16 := a.passBits = 16 || b.passBits = 16
  if df then
    let gk := pow2cap ((k + sd * w - 1) / (sd * w)) g
    let gn := g * g / gk
    passes * (((k + gk * sd * w - 1) / (gk * sd * w)) * ((n + gn * sd - 1) / (gn * sd))) * m * (if c16 then 2 else 1)
  else
    let gm := pow2cap ((m + sd - 1) / sd) g
    let gn := g * g / gm
    passes * (((m + gm * sd - 1) / (gm * sd)) * ((n + gn * sd - 1) / (gn * sd))) * (if c16 then 2 * k else (k + w - 1) / w)

/-- Write a whole C region from a function of row and column. -/
def Eng.putC (v : Eng) (d : Desc) (f : Nat → Nat → Term) : Eng :=
  let old := v
  loop d.rows v (fun v i => loop d.cols v (fun v j =>
    let _ := old
    v.putElem d i j (f i j).code))

/-- Run an in-engine TMMA (R113 to R115). -/
def State.runTmma (s : State) (e : Nat) (t : TIns) : State :=
  let v := s.eng e
  let a := t.a
  let b := t.b
  let c := t.c
  let k := b.rows
  let ps := passesOf a.code b.code
  let w := setWidth a.code b.code
  let sd := 16 * 2 ^ t.shape
  let g := 128 / sd
  let win := pow2cap ((k + sd * w - 1) / (sd * w)) g * sd * w
  let f := fun (i j : Nat) =>
    let ea := fun (x : Nat) => v.operand a t.ieee x i
    let eb := fun (x : Nat) => v.operand b t.ieee x j
    let c0 := if t.acc then v.accAt c t.ieee i j else zeroTerm c
    if t.df then weightStationary t.ieee ps w k win ea eb (zeroTerm c) c0 t.acc none false
    else outStationary t.ieee ps w k ea eb c0
  (s.setEng e (v.putC c f)).countMacs e a.fmt ps.length c.rows c.cols k
    (steadyCycles t.df t.shape ps.length c.rows c.cols k a.code b.code)

/-- Run a gang TMMA on the four members of a Quad (R110, R116). `ins` gives each member's instruction. -/
def State.runGang (s : State) (q : Nat) (ins : List (Nat × TIns)) : State :=
  let of := fun (p : Nat) => (ins.find? (fun x => x.1 = 4 * q + p)).map (fun x => x.2)
  match of 0, of 1, of 2, of 3 with
  | some t0, some t1, some t2, some t3 =>
    let en := fun (p : Nat) => s.eng (4 * q + p)
    let ieee := t0.ieee
    let ps := passesOf t0.a.code (if t0.df then t0.b.code else t1.b.code)
    let w := setWidth t0.a.code (if t0.df then t0.b.code else t1.b.code)
    let base := s.clk.fresh
    let tc := fun (p : Nat) => if p = 0 then t0.c else if p = 1 then t1.c else if p = 2 then t2.c else t3.c
    let res := fun (p i j : Nat) =>
      let c := tc p
      let c0 := if t0.acc then (en p).accAt c ieee i j else zeroTerm c
      if t0.df then
        let ea := fun (x : Nat) => if x < 128 then (en 0).operand t0.a ieee x i else (en 2).operand t2.a ieee (x - 128) i
        let eb := fun (x : Nat) =>
          if p = 2 then (if x < 128 then (en 0).operand t0.b ieee x j else (en 2).operand t2.b ieee (x - 128) j)
          else (if x < 128 then (en 1).operand t1.b ieee x j else (en 3).operand t3.b ieee (x - 128) j)
        weightStationary ieee ps w 256 256 ea eb (zeroTerm c) c0 t0.acc (some 128)
          (bit (Config.freeNat (base + p)) (128 * i + j))
      else
        let ea := fun (x : Nat) => if p < 2 then (en 0).operand t0.a ieee x i else (en 2).operand t2.a ieee x i
        let eb := fun (x : Nat) => if p % 2 = 0 then (en 1).operand t1.b ieee x j else (en 3).operand t3.b ieee x j
        outStationary ieee ps w t0.a.rows ea eb c0
    let ws := if t0.df then [2, 3] else [0, 1, 2, 3]
    let s := ws.foldl (fun s p => s.modEng (4 * q + p) (fun v => v.putC (tc p) (res p))) s
    let k := if t0.df then 256 else t0.a.rows
    ((List.range 4).foldl (fun s p => (s.bump blkTNS (4 * q + p) 0x034 1).countMacs (4 * q + p) t0.a.fmt ps.length 128 128 k
      (ps.length * k)) s).drew 4
  | _, _, _, _ => s

/-- TCVT of a whole region (R134): scales first, then elements. -/
def State.runTcvt (s : State) (e : Nat) (t : TIns) : State :=
  let v := s.eng e
  let src := t.b
  let dst := t.c
  let n := src.rows * src.cols
  let base := s.clk.fresh
  let rm := bits t.low.toNat 3 2
  let mode := fun (k i : Nat) => rmodeOf rm (Config.freeNat (base + k * src.cols + i))
  let elem := fun (k i : Nat) =>
    let x := src.code.read src.uns t.ieee (v.elemCode src k i)
    if src.code.isMx then x.scale (v.elemScale src k i) else x
  let v' :=
    if !dst.code.isMx then
      loop dst.rows v (fun v k => v.putRow dst k ((List.range dst.cols).map (fun i =>
        dst.code.write dst.uns t.ieee (mode k i) (elem k i))))
    else if dst.row then
      loop dst.rows v (fun v k =>
        let bl := (chunksOf dst.blk (List.range dst.cols)).map (fun is =>
          mxBlock dst.code t.ieee (is.map (mode k)) (is.map (elem k)))
        let v := foldIdx bl v (fun v b x => v.setTile (dst.scaleOff + k * dst.scalePitch + b) (BitVec.ofNat 8 x.1))
        v.putRow dst k (bl.map (fun x => x.2)).flatten)
    else
      let cols := (List.range dst.cols).map (fun i => (chunksOf dst.blk (List.range dst.rows)).map (fun ks =>
        mxBlock dst.code t.ieee (ks.map (fun k => mode k i)) (ks.map (fun k => elem k i))))
      let v := foldIdx cols v (fun v i bl => foldIdx bl v (fun v b x =>
        v.setTile (dst.scaleOff + b * dst.scalePitch + i) (BitVec.ofNat 8 x.1)))
      loop dst.rows v (fun v k => v.putRow dst k (cols.map (fun bl =>
        ((bl.getD (k / dst.blk) (0, [])).2).getD (k % dst.blk) 0)))
  (s.setEng e v').drew n

/-! ### The mover (R132, R133) -/

/-- Rows of device memory of a TFILL or TSPILL: address and bytes, elements then scales. -/
def TIns.memRows (t : TIns) : List (Nat × Nat) :=
  let d := t.a
  let p := t.pitch.toNat
  let (sn, sb) := d.scaleShape
  let elems := if t.xpose then (d.cols, rowBytes d.code.width d.rows) else (d.rows, d.sliceBytes)
  let scales := if t.xpose then (d.cols, sn) else (sn, sb)
  ((List.range elems.1).map (fun i => (t.addr.toNat + i * bits p 31 0, elems.2)))
  ++ (if d.code.isMx then (List.range scales.1).map (fun i => (t.scaleAddr.toNat + i * bits p 63 32, scales.2)) else [])

/-- Translate every page of the region before a byte moves (R133): address pieces of each row, or the first fault. -/
def State.moverPieces (s : State) (e asid : Nat) (rows : List (Nat × Nat)) (acc : Acc) :
    (Except (Nat × Nat × Nat × Nat) (List (List (Nat × Nat × Nat × Nat × Nat × Bool)))) × State :=
  rows.foldl (fun r p =>
    match r.1 with
    | .error _ => r
    | .ok l => match r.2.pieces e asid p.1 p.2 acc with
      | (.ok x, s) => (.ok (l ++ [x]), s)
      | (.error f, s) => (.error f, s)) (.ok [], s)

/-- Bytes of the translated rows; bytes of host and remote pages come from the operand. -/
def State.moverRead (s : State) (rows : List (List (Nat × Nat × Nat × Nat × Nat × Bool))) (ext : Option (List Byte)) :
    (List (List Byte) × Bool) × State :=
  let r := rows.foldl (fun (st : (List (List Byte) × Bool × List Byte) × State) ps =>
    let r := ps.foldl (fun (st : (List Byte × Bool × List Byte) × State) p =>
      let (t, pa, len, pol, _, _) := p
      let ((acc, bad, ext'), s) := st
      if t = 0 then
        let ((b, poison), s) := s.readPhys pa len pol
        ((acc ++ b, bad || poison, ext'), s)
      else ((acc ++ slice ext' 0 len, bad || ext.isNone, ext'.drop len), s)) (([], st.1.2.1, st.1.2.2), st.2)
    ((st.1.1 ++ [r.1.1], r.1.2.1, r.1.2.2), r.2)) (([], false, ext.getD []), s)
  ((r.1.1, r.1.2.1), r.2)

/-- Fill a tile region from memory rows (R132). -/
def Eng.fillRegion (v : Eng) (t : TIns) (rows : List (List Byte)) : Eng :=
  let d := t.a
  let n := d.code.width
  let (sn, sb) := d.scaleShape
  let ne := if t.xpose then d.cols else d.rows
  let el := rows.take ne
  let sc := rows.drop ne
  let v := loop d.rows v (fun v k => v.putRow d k ((List.range d.cols).map (fun i =>
    if t.xpose then unpackAt (el.getD i []) n k else unpackAt (el.getD k []) n i)))
  loop sn v (fun v b => loop sb v (fun v i =>
    v.setTile (d.scaleOff + b * d.scalePitch + i)
      (if t.xpose then (sc.getD i []).getD b 0 else (sc.getD b []).getD i 0)))

/-- Memory rows of a tile region (R132). -/
def Eng.spillRegion (v : Eng) (t : TIns) : List (List Byte) :=
  let d := t.a
  let n := d.code.width
  let (sn, sb) := d.scaleShape
  let el := if t.xpose then
      (List.range d.cols).map (fun i => packRow n ((List.range d.rows).map (fun k => v.elemCode d k i)))
    else (List.range d.rows).map (fun k => packRow n ((List.range d.cols).map (fun i => v.elemCode d k i)))
  let sc := fun (b i : Nat) => v.tileByte (d.scaleOff + b * d.scalePitch + i)
  el ++ (if !d.code.isMx then []
    else if t.xpose then (List.range d.cols).map (fun i => (List.range sn).map (fun b => sc b i))
    else (List.range sn).map (fun b => (List.range sb).map (fun i => sc b i)))

/-- The mover's fault parks its issuing string (R133). -/
def State.moverFault (s : State) (e : Nat) (t : TIns) (acc : Acc) (k lv pte va : Nat) : State :=
  let (asid, convoy, wb, seq) := s.ctxOf t.queue t.cmd
  let (id, s) := s.raiseFault { asid := asid, kind := k, acc := acc, va := va, waybill := wb, seq := seq, agent := 1
                                unit := e, queue := t.queue, level := lv, heap := 0, detail := pte, growKey := 0
                                convoy := convoy }
  let s := s.modEng e (fun v => { v with tensors := v.tensors.map (fun x =>
    if x.id = t.id then { x with started := false, faulted := true } else x) })
  (s.modStr e t.place (fun st => { st with state := .parked id })).gangPark e t.queue t.cmd

/-! ### Start and completion (R109, R130, R138) -/

/-- May an instruction start: every earlier one has released what they share, and its unit takes it in issue order? -/
def Eng.mayStart (v : Eng) (e : Nat) (t : TIns) : Bool :=
  let earlier := v.tensors.filter (fun x => x.id < t.id)
  let array := fun (x : TIns) => x.kind = .tmma || x.kind = .tcvt
  earlier.all (fun x => !x.blocks t e) &&
  (if array t then earlier.all (fun x => !array x || (x.kind = .tmma && x.started))
   else earlier.all (fun x => array x))

/-- The instruction has completed: strings that wait for it may go on (R129, R135). -/
def State.retireTensor (s : State) (e : Nat) (t : TIns) : State :=
  let s := (s.modEng e (fun v => { v with tensors := v.tensors.filter (fun x => x.id ≠ t.id) })).progress e 1
  s.modEng e (fun v => { v with strs := mmap v.strs (fun pl st =>
    let left := (v.tensors.filter (fun x => x.place = pl && x.queue = st.queue && x.cmd = st.cmd)).length
    st.unblock (fun b => match b with
      | .tensor n => decide (left ≤ n)
      | .tensorFull => true
      | _ => false)) }) |>.checkDisp e t.queue t.cmd

/-- The members' n-th gang instructions agree (R138). -/
def gangAgree (l : List (Nat × TIns)) : Bool :=
  match l with
  | (_, t) :: _ =>
    l.all (fun p =>
      let u := p.2
      let (ra, rb, _) := gangRoles p.1 t.df
      u.df = t.df && u.acc = t.acc && u.ieee = t.ieee
      && (t.df || ((!ra || !(gangRoles 0 false).1 || u.a.rows = (l.head?.map (fun x => x.2.a.rows)).getD 0)
          && (!rb || u.b.rows = (l.head?.map (fun x => x.2.a.rows)).getD 0)))
      && l.all (fun q =>
        let (qa, qb, _) := gangRoles q.1 t.df
        (!ra || !qa || (u.a.fmt = q.2.a.fmt && u.a.uns = q.2.a.uns && u.a.blk16 = q.2.a.blk16)) &&
        (!rb || !qb || (u.b.fmt = q.2.b.fmt && u.b.uns = q.2.b.uns && u.b.blk16 = q.2.b.blk16))))
  | [] => false

/-- A gang layer fails on all four members with E_GANG_MISMATCH (R139). -/
def State.gangMismatch (s : State) (e : Nat) : State :=
  (quadOf e).foldl (fun s m => match (s.eng m).disps.find? (fun d => d.gang) with
    | some d => (s.trap m d.queue d.cmd eGangMismatch 0)
    | none => s) s

/-- TENSOR_INSTRUCTION_START (R130): a TMMA reads its operands and accumulates; a mover translates. -/
def execTensorInstructionStart (engine : Fin 32) (id : Nat) (s : State) : Out :=
  let e := engine.val
  match (s.eng e).tensors.find? (fun t => t.id = id) with
  | none => .next s
  | some t =>
    if !s.working || s.frozen e || t.started || t.faulted || !(s.eng e).mayStart e t then .next s
    else
      let mark := fun (s : State) (m i : Nat) => s.modEng m (fun v => { v with tensors := v.tensors.map (fun x =>
        if x.id = i then { x with started := true } else x) })
      match t.kind, t.gangSeq with
      | .tmma, none => .next ((mark s e id).runTmma e t)
      | .tmma, some n =>
        let ins := (quadOf e).filterMap (fun m =>
          ((s.eng m).tensors.find? (fun x => x.gangSeq = some n && !x.started)).map (fun x => (m, x)))
        if ins.length ≠ 4 || (quadOf e).any (fun m => (s.eng m).gangParked) ||
            !ins.all (fun p => (s.eng p.1).mayStart p.1 p.2) then .next s
        else if !gangAgree ins then .next (s.gangMismatch e)
        else .next ((ins.foldl (fun s p => mark s p.1 p.2.id) s).runGang (e / 4) ins)
      | .tcvt, _ => .next (mark s e id)
      | k, _ =>
        let acc := if k = .tfill then accRead else accWrite
        match s.moverPieces e (s.ctxOf t.queue t.cmd).1 t.memRows acc with
        | (.error (kd, lv, pte, va), s) => .next (s.moverFault e t acc kd lv pte va)
        | (.ok _, s) => .next (mark s e id)

/-- TENSOR_INSTRUCTION_COMPLETE (R130, R133). `host` gives the bytes a TFILL reads from host and remote pages. -/
def execTensorInstructionComplete (engine : Fin 32) (id : Nat) (host : Option (List Byte)) (s : State) : Out :=
  let e := engine.val
  match (s.eng e).tensors.find? (fun t => t.id = id) with
  | none => .next s
  | some t =>
    if !s.working || s.frozen e || !t.started then .next s
    else match t.kind with
      | .tmma => .next (s.retireTensor e t)
      | .tcvt => .next ((s.runTcvt e t).retireTensor e t)
      | .tfill =>
        match s.moverPieces e (s.ctxOf t.queue t.cmd).1 t.memRows accRead with
        | (.error (kd, lv, pte, va), s) => .next (s.moverFault e t accRead kd lv pte va)
        | (.ok ps, s) =>
          let ((rows, bad), s) := s.moverRead ps host
          if bad then .next (s.trap e t.queue t.cmd ePoison 0)
          else
            let s := s.bump blkTNS e 0x037 (rows.foldl (fun a r => a + r.length) 0)
            .next ((s.modEng e (fun v => v.fillRegion t rows)).retireTensor e t)
      | .tspill =>
        match s.moverPieces e (s.ctxOf t.queue t.cmd).1 t.memRows accWrite with
        | (.error (kd, lv, pte, va), s) => .next (s.moverFault e t accWrite kd lv pte va)
        | (.ok ps, s) =>
          let rows := (s.eng e).spillRegion t
          let s := s.bump blkTNS e 0x037 (rows.foldl (fun a r => a + r.length) 0)
          let s := (ps.zip rows).foldl (fun s x =>
            (x.1.foldl (fun (st : List Byte × State) p =>
              let (tg, pa, len, pol, die, _) := p
              (st.1.drop len, st.2.writePiece tg pa pol die (st.1.take len))) (x.2, s)).2) s
          .next (s.retireTensor e t)

end Sys2Proof.Machine
end

