-- ==== Sys2Proof/Machine/Launch.lean ====
section
/-! DEFINITION. Dispatches, workgroups and strings from launch to release (R70 to R76, R315), gang layers and their
rendezvous (R137 to R150, R316), and the granule boundary (R141 to R145). -/

namespace Sys2Proof.Machine

def eTileGranules : Nat := 0x0106
def eWorkgroupSize : Nat := 0x010A
def eGangNoFallback : Nat := 0x010B

/-! ### Places (R69, R70, R74) -/

/-- Registers in use in a slot. -/
def Eng.slotRegs (v : Eng) (sl : Nat) : Nat := v.strs.foldl (fun a p => if p.1 / 16 = sl then a + p.2.regs else a) 0

/-- Place of the next string: the slot with the most free register space that can take it, ties to the lowest (R74). -/
def Eng.placeFor (v : Eng) (regs : Nat) : Option Nat :=
  let fits := (List.range 4).filter (fun sl => v.slotRegs sl + regs ≤ 512 && (firstFree v.strs (16 * sl) 16).isSome)
  match fits with
  | [] => none
  | a :: as =>
    let sl := as.foldl (fun b x => if v.slotRegs x < v.slotRegs b then x else b) a
    firstFree v.strs (16 * sl) 16

/-- A string as it is launched (R74): every register 0 but those listed. -/
def Str.launch (queue cmd wg : Nat) (kind : StrKind) (regs : Nat) (stamp : Word) (entry : Dword) (live : Word)
    (vregs : Map Word) (uregs : Map Dword) : Str :=
  { queue := queue, cmd := cmd, wg := wg, kind := kind, regs := regs, stamp := stamp, state := .ready, promoted := none
    live := live, groups := [{ pc := entry, mask := live, budget := 64, block := .open }], vregs := vregs, preds := []
    uregs := uregs, busy := [], noGrow := false, pixels := [], coverage := [] }

/-- Launch strings one after the other; none unless every one finds a place (R73). -/
def Eng.launchAll (v : Eng) : List (Nat × (Word → Str)) → Option Eng
  | [] => some v
  | (regs, build) :: rest => match v.placeFor regs with
    | none => none
    | some p => ({ v with strs := mset v.strs p (build v.stamp), stamp := v.stamp + 1 }).launchAll rest

/-- Mask of n lanes. -/
def lowLanes (n : Nat) : Word := BitVec.ofNat 32 (2 ^ min n 32 - 1)

/-- Launch the next workgroup of a dispatch (R72 to R74); no effect while it does not fit as a whole. -/
def State.launchCompute (s : State) (e : Nat) (d : Disp) : State :=
  let v := s.eng e
  let n := (d.threads + 31) / 32
  let key := v.nextWg
  let regs0 : Map Dword := mset (mset [] 0 (BitVec.ofNat 64 d.next)) 1 d.args
  let uregs := if d.u2 = 0 then regs0 else mset regs0 2 d.u2
  let build := fun (i : Nat) (stamp : Word) =>
    let lanes := min 32 (d.threads - 32 * i)
    Str.launch d.queue d.cmd key .compute d.regs stamp d.entry (lowLanes lanes)
      (loop lanes [] (fun m l => if 32 * i + l = 0 then m else mset m l (BitVec.ofNat 32 (32 * i + l)))) uregs
  if d.total ≤ d.next || 196608 < v.sharedBytes + d.shared then s
  else match v.launchAll ((List.range n).map (fun i => (d.regs, build i))) with
    | none => s
    | some v =>
      let g : Wg := { queue := d.queue, cmd := d.cmd, index := d.next, threads := d.threads, exited := 0, strings := n
                      sharedSize := d.shared, shared := [], sharedSeed := s.clk.fresh, bars := [] }
      let bump := fun (x : Disp) => if x.queue = d.queue && x.cmd = d.cmd then { x with next := x.next + 1 } else x
      let v := { v with wgs := mset v.wgs key g, nextWg := key + 1, disps := v.disps.map bump }
      ((s.setEng e v.l1Shrink).drew 1)

/-! ### Granules (R141 to R145) -/

/-- Do n tensor granules fit now? None when they never can (R144). -/
def State.tnsFit (s : State) (e n : Nat) : Option Bool :=
  let gfxMin := match (s.partOf e).bind s.part? with | some x => x.gfxMin | none => 0
  let v := s.eng e
  if 16 - gfxMin < n then none else some (n = 0 || (n ≤ 16 - v.tb && v.waitGfx.isNone))

/-- Do n graphics granules fit now? -/
def State.gfxFit (s : State) (e n : Nat) : Option Bool :=
  let tnsMin := match (s.partOf e).bind s.part? with | some x => x.tnsMin | none => 0
  let v := s.eng e
  if 16 - tnsMin < n then none else some (n ≤ v.tb && v.waitTns.isNone)

/-- Granules [lo, hi) change sides: their contents are undefined (R145). -/
def State.loseGranules (s : State) (e lo hi : Nat) : State :=
  let v := s.eng e
  let f := fun (m : Map Nat) (i : Nat) => mset m (lo + i) (s.clk.fresh + i)
  let v := { v with
    tile := v.tile.filter (fun p => !(lo * 262144 ≤ p.1 && p.1 < hi * 262144))
    tileFree := (List.range (hi - lo)).foldl f v.tileFree }
  (s.setEng e v).drew (hi - lo)

/-- GRANULE_BOUNDARY_MOVE (R142): TB moves for the waiting side when no moved granule is held and the other side keeps
its floor. -/
def execGranuleBoundaryMove (engine : Fin 32) (s : State) : Out :=
  let e := engine.val
  let v := s.eng e
  match s.working && !s.frozen e, (s.partOf e).bind s.part? with
  | true, some x =>
    let gfxHeld := v.gfxHolds.foldl (fun a p => max a p.2) 0
    let tnsHeld := v.disps.foldl (fun a d => max a d.granules) 0
    (match v.waitTns, v.waitGfx with
    | some n, _ =>
      let t := 16 - n
      if v.tb ≤ t || t < x.gfxMin || t < gfxHeld then .next s
      else .next ((s.loseGranules e t v.tb).modEng e (fun v => { v with tb := t, waitTns := none }))
    | none, some n =>
      if n ≤ v.tb || 16 - n < x.tnsMin || 16 - n < tnsHeld then .next s
      else .next ((s.loseGranules e v.tb n).modEng e (fun v => { v with tb := n, waitGfx := none }))
    | none, none => .next s)
  | _, _ => .next s

/-! ### Starting a dispatch -/

/-- The dispatch that a first payload entry describes (R315). -/
def dispOf (q : Nat) (c : Cmd) (entry : Nat) (u2 : Dword) (gang : Bool) : Disp :=
  let p := c.payload
  { queue := q, cmd := c.index, entry := BitVec.ofNat 64 entry, total := getLe p 8 4 * getLe p 0xC 4 * getLe p 0x10 4
    threads := getLe p 0x14 2, regs := 8 * getLe p 0x16 1, shared := 4096 * getLe p 0x17 1
    args := BitVec.ofNat 64 (getLe p 0x18 8), u2 := u2, next := 0, gang := gang, badFree := false, gangOps := 0
    granules := getLe p 0x20 1 }

/-- Can a workgroup ever be launched on an empty engine (R73)? -/
def Disp.launchable (d : Disp) : Bool := (d.threads + 31) / 32 ≤ 4 * min 16 (512 / d.regs)

/-- The error of a dispatch that can never run, or whether its granules fit now (R73, R144). -/
def State.dispFit (s : State) (e : Nat) (d : Disp) : Except Nat Bool :=
  if !d.launchable then .error eWorkgroupSize
  else match s.tnsFit e d.granules with
    | none => .error eTileGranules
    | some b => .ok b

/-- A tensor layer waits at its command for granules (R142). -/
def State.awaitTns (s : State) (e n : Nat) : State :=
  s.modEng e (fun v => if v.waitGfx.isSome || n ≤ 16 - v.tb then v else { v with waitTns := some n })

/-- A command that never runs ends with an error. -/
def State.refuseCmd (s : State) (q : Nat) (v : Queue) (c : Cmd) (err : Nat) : State :=
  (s.beginCmd q v c).endCmd q c.index err 0

/-- A dispatch starts on its engine, waits for granules, or fails. -/
def State.startDisp (s : State) (q : Nat) (v : Queue) (c : Cmd) (d : Disp) : State :=
  match s.dispFit v.unit d with
  | .error err => s.refuseCmd q v c err
  | .ok false => s.awaitTns v.unit d.granules
  | .ok true =>
    (s.modEng v.unit (fun x => { x with disps := x.disps ++ [d], waitTns := none })).beginCmd q v c

/-- DISPATCH (R315). -/
def execDispatch (queue : Half) (s : State) : Out :=
  let q := queue.toNat
  match s.startable q 0x01 with
  | none => .next s
  | some (v, c) =>
    if s.frozen v.unit then .next s else .next (s.startDisp q v c (dispOf q c (getLe c.payload 0 8) 0 false))

/-! ### Gang layers -/

/-- Positions of a Quad whose engine is fenced, or out for its microcode, as a mask (R150, R537). -/
def State.gangMask (s : State) (quad : Nat) : Nat :=
  maskOf ((List.range 4).filter (fun p => s.fenced 0 (4 * quad + p) || s.ucodeTurn = some (4 * quad + p)))

/-- A gang layer runs the fallback kernel of position p (R150, R316). -/
def State.startFallback (s : State) (q : Nat) (v : Queue) (c : Cmd) (p mask : Nat) : State :=
  let entry := getLe c.payload (0x48 + 8 * p) 8
  if entry = 0 then s.refuseCmd q v c eGangNoFallback
  else (s.modCmd q c.index (fun c => { c with fallback := true })).startDisp q v c
    (dispOf q c entry (BitVec.ofNat 64 mask) false)

/-- GANG_LAYER (R137, R150, R316): the outrider reaches it with its bank idle; a Quad with a fenced member, or whose
members run different microcode (R537; log entry 41), runs fallback kernels. -/
def execGangLayer (queue : Half) (s : State) : Out :=
  let q := queue.toNat
  match s.startable q 0x02 with
  | none => .next s
  | some (v, c) =>
    let e := v.unit
    let mask := s.gangMask (e / 4)
    let x := s.eng e
    if s.frozen e then .next s
    else if mask ≠ 0 then
      .next ((s.modEng e (fun x => { x with atGang := none, arrive := none })).startFallback q v c
        ((bitList mask 4).headD 0) mask)
    else if x.atGang.isSome then .next s
    else if (quadOf e).any (fun m => (s.eng m).ucode ≠ x.ucode) then
      let (f, s) := s.draw
      .next (s.startFallback q v c (f % 4) 0)
    else if !x.tensors.isEmpty then .next s
    else
      let d := dispOf q c (getLe c.payload 0 8) 0 true
      match s.dispFit e d with
      | .error err => .next (s.refuseCmd q v c err)
      | .ok false => .next (s.awaitTns e d.granules)
      | .ok true => .next (s.modEng e (fun x => { x with atGang := some (q, c.index), waitTns := none }))

/-- What a member sends in ARRIVE: convoy, gang identifier, layer identifier (R137). -/
def State.arriveOf (s : State) (q cmd : Nat) : Option (Nat × Nat × Nat) :=
  match s.queue? q, s.cmd? q cmd with
  | some v, some c => v.convoy.map (fun k => (k, getLe c.payload 0x40 2, layerOf c.waybill))
  | _, _ => none

/-- One member starts the layer, or resumes it after a restore (R137, R148). -/
def State.gangStart (s : State) (m : Nat) : State :=
  match (s.eng m).atGang with
  | none => s
  | some (q, cmd) =>
    let s := s.modEng m (fun v => { v with atGang := none, arrive := none, gangParked := false })
    match s.queue? q, s.cmd? q cmd with
    | some v, some c =>
      if c.st ≠ .accepted then s
      else (s.modEng m (fun x => { x with disps := x.disps ++ [dispOf q c (getLe c.payload 0 8) 0 true] })).beginCmd q v c
    | _, _ => s

/-- One member fails the layer (R139). -/
def State.gangFail (s : State) (m : Nat) : State :=
  match (s.eng m).atGang with
  | none => s
  | some (q, cmd) =>
    (s.modEng m (fun v => { v with atGang := none, arrive := none, gangParked := false })).trap m q cmd eGangMismatch 0

/-- GANG_ARRIVE (R137, R139, R148): the last arrival runs the rendezvous. -/
def execGangArrive (engine : Fin 32) (s : State) : Out :=
  let e := engine.val
  match (s.eng e).atGang.bind (fun g => s.arriveOf g.1 g.2) with
  | none => .next s
  | some a =>
    if !s.working || s.frozen e || (s.eng e).stopped || s.fenced 0 e || s.ucodeTurn = some e then .next s
    else
      let s := s.modEng e (fun v => { v with arrive := some a })
      let all := (quadOf e).map (fun m => (s.eng m).arrive)
      if all.any (fun x => x.isNone) then .next s
      else if all.all (fun x => x = some a) then .next ((quadOf e).foldl State.gangStart s)
      else .next ((quadOf e).foldl State.gangFail s)

/-- Does a member hold a parked string of its gang layer (R146)? -/
def Eng.gangHeld (v : Eng) : Bool :=
  v.disps.any (fun d => d.gang && v.strs.any (fun p => p.2.queue = d.queue && p.2.cmd = d.cmd &&
    (match p.2.state with | .parked _ => true | _ => false)))

/-- GANG_RESUME (R146): the last parked string of the layer has replayed. -/
def execGangResume (engine : Fin 32) (s : State) : Out :=
  let q := quadOf engine.val
  if !s.working || q.any (fun m => (s.eng m).gangHeld || (s.eng m).atGang.isSome || s.frozen m) then .next s
  else .next (q.foldl (fun s m => s.modEng m (fun v => { v with gangParked := false })) s)

/-! ### Release (R75, R76) -/

/-- Does anything outside still owe a string an answer? -/
def State.strOwed (s : State) (e place : Nat) : Bool :=
  let f := fun (d : NpDest) => match d with
    | .load e' p' _ _ _ _ => e' = e && p' = place
    | .atomic e' p' _ _ _ _ => e' = e && p' = place
    | .combined e' p' _ _ _ _ _ => e' = e && p' = place
    | .store e' p' => e' = e && p' = place
    | .aperture _ => false
    | .other => false
  s.host.np.any (fun p => f p.2.dest) || s.caravan.reqs.any (fun p => f p.2.dest)

/-- A drained string releases its place; its workgroup goes with its last string (R76). -/
def State.freeStr (s : State) (e place : Nat) (st : Str) : State :=
  s.modEng e (fun v =>
    let wgs := match mget v.wgs st.wg with
      | none => v.wgs
      | some g => if g.strings ≤ 1 then merase v.wgs st.wg else mset v.wgs st.wg { g with strings := g.strings - 1 }
    { v with strs := merase v.strs place, wgs := wgs })

end Sys2Proof.Machine
end

