-- ==== Sys2Proof/Machine/Color.lean ====
section
/-! DEFINITION. What happens to one sample of a tile (R381, R382, R401, R402): attachment formats, depth and stencil
tests, blending. Codes of the comparisons and operations are those of Vulkan 1.3 (R386). -/

namespace Sys2Proof.Machine

/-! ### Rounding of exact ratios -/

/-- binary32 code of (-1)^neg × num / den, rounded to nearest even. -/
def ratF32 (neg : Bool) (num den : Nat) : Nat :=
  if den = 0 then fmtFP32.nanCode
  else
    let k := log2 den + 200
    let q := num * 2 ^ k / den
    let m := 2 * q + b2n (num * 2 ^ k % den ≠ 0)
    fmtFP32.ieee (.fin neg m (-((k : Int) + 1)))

/-- Nearest integer to num / den, ties to even. -/
def ratRound (num den : Nat) : Nat :=
  let q := num / den
  let r := num % den
  if 2 * r > den || (2 * r = den && q % 2 = 1) then q + 1 else q

/-- ⌊num / den⌋, or one more where the quotient is not exact and the free bit says so: a rounding that the spec leaves
open. -/
def ratOpen (num : Int) (den : Nat) (free : Nat) : Int :=
  num / (den : Int) + (if num % (den : Int) ≠ 0 && free % 2 = 1 then 1 else 0)

/-- A finite binary32 value as an exact number; none for an infinity or a NaN. -/
def finite32 (w : Nat) : Option Dy := match fmtFP32.decode w with | .fin s m e => some (FVal.fin s m e).dy | _ => none

/-- binary32 as a value clamped to [0, 1]; a NaN counts as 0. -/
def clamp01 (w : Nat) : Nat :=
  let v := fmtFP32.decode w
  if v.isNan || v.lt (.fin false 0 0) then 0
  else if FVal.lt (.fin false 1 0) v then 0x3F800000 else w

/-! ### Colour formats (R382) -/

/-- A component of a format: bits, and how they are read. -/
inductive CompKind where
  | unorm (n : Nat)
  | srgb
  | flt (f : Fmt)
  /-- an unsigned small float with no sign bit -/
  | uflt (f : Fmt)
  deriving DecidableEq, Repr

def CompKind.width (k : CompKind) : Nat :=
  match k with
  | .unorm n => n
  | .srgb => 8
  | .flt f => f.width
  | .uflt f => f.ebits + f.mbits

/-- Components of a colour format, R first, from the lowest bit up. -/
def colorComps (f : Nat) : List CompKind :=
  match f with
  | 0x01 => [.unorm 8]
  | 0x02 => [.unorm 8, .unorm 8]
  | 0x03 => [.unorm 8, .unorm 8, .unorm 8, .unorm 8]
  | 0x04 => [.srgb, .srgb, .srgb, .unorm 8]
  | 0x05 => [.unorm 10, .unorm 10, .unorm 10, .unorm 2]
  | 0x06 => [.uflt ⟨5, 6, 15, .ieee⟩, .uflt ⟨5, 6, 15, .ieee⟩, .uflt ⟨5, 5, 15, .ieee⟩]
  | 0x07 => [.flt fmtFP16]
  | 0x08 => [.flt fmtFP16, .flt fmtFP16]
  | 0x09 => [.flt fmtFP16, .flt fmtFP16, .flt fmtFP16, .flt fmtFP16]
  | 0x0A => [.flt fmtFP32]
  | 0x0B => [.flt fmtFP32, .flt fmtFP32]
  | 0x0C => [.flt fmtFP32, .flt fmtFP32, .flt fmtFP32, .flt fmtFP32]
  | _ => []

/-- A component's code as binary32. -/
def CompKind.read (k : CompKind) (c : Nat) : Nat :=
  match k with
  | .unorm n => ratF32 false c (2 ^ n - 1)
  | .srgb => (Config.srgbDecode (BitVec.ofNat 8 c)).toNat
  | .flt f => fmtFP32.ieee (f.decode c)
  | .uflt f => fmtFP32.ieee (f.decode c)

/-- A binary32 value as a component's code, rounded to nearest even (R381, R402). -/
def CompKind.write (k : CompKind) (w : Nat) : Nat :=
  match k with
  | .unorm n => match finite32 (clamp01 w) with
    | some d => roundTo .rne (d.m.natAbs * (2 ^ n - 1)) d.e
    | none => 0
  | .srgb => (Config.srgbEncode (BitVec.ofNat 32 (clamp01 w))).toNat
  | .flt f => f.ieee (fmtFP32.decode w)
  | .uflt f =>
    let v := fmtFP32.decode w
    if v.sgn && !v.isNan then 0 else f.ieee v % 2 ^ (f.ebits + f.mbits)

/-- The four components of a sample value; absent ones read 0, 0, 0, 1. -/
def readColor (f v : Nat) : List Nat :=
  let cs := colorComps f
  let r := cs.foldl (fun (a : List Nat × Nat) k => (a.1 ++ [k.read (v / 2 ^ a.2 % 2 ^ k.width)], a.2 + k.width)) ([], 0)
  (List.range 4).map (fun i => (r.1[i]?).getD (if i = 3 then 0x3F800000 else 0))

/-- A sample value from four components; a component whose mask bit is clear keeps the old one (R402). -/
def writeColor (f old mask : Nat) (c : List Nat) : Nat :=
  (foldIdx (colorComps f) (0, 0) (fun (a : Nat × Nat) i k =>
    let x := if bit mask i then k.write (c.getD i 0) else old / 2 ^ a.2 % 2 ^ k.width
    (a.1 + x * 2 ^ a.2, a.2 + k.width))).1

/-- Does a format clamp its sources and blend factors to [0, 1]? -/
def clampsSource (f : Nat) : Bool := 1 ≤ f && f ≤ 5

/-! ### Comparisons and stencil operations (R386) -/

/-- VkCompareOp on two ordered values given by "less" and "equal". -/
def vkCompare (op : Nat) (lt eq : Bool) : Bool :=
  match op with
  | 0 => false
  | 1 => lt
  | 2 => eq
  | 3 => lt || eq
  | 4 => !lt && !eq
  | 5 => !eq
  | 6 => !lt
  | _ => true

/-- VkStencilOp on an 8-bit value. -/
def vkStencil (op old ref : Nat) : Nat :=
  match op with
  | 0 => old
  | 1 => 0
  | 2 => ref
  | 3 => min 255 (old + 1)
  | 4 => old - 1
  | 5 => 255 - old
  | 6 => (old + 1) % 256
  | _ => (old + 255) % 256

/-- Has an attachment format depth, or stencil? -/
def hasDepth (f : Nat) : Bool := 0x20 ≤ f && f ≤ 0x22
def hasStencil (f : Nat) : Bool := f = 0x22 || f = 0x23

/-- Depth and stencil of a sample value of ATT4. -/
def depthOf (f v : Nat) : Nat := if f = 0x20 then v % 2 ^ 16 else v % 2 ^ 32
def stencilOf (f v : Nat) : Nat := if f = 0x22 then v / 2 ^ 32 % 256 else v % 256
def packDs (f d st : Nat) : Nat := if f = 0x22 then d + st * 2 ^ 32 else if f = 0x23 then st else d

/-- Is depth a below depth b, in the attachment's format (R401)? -/
def depthLt (f a b : Nat) : Bool :=
  if f = 0x20 then a < b else (fmtFP32.decode a).lt (fmtFP32.decode b)
def depthEq (f a b : Nat) : Bool :=
  if f = 0x20 then a = b else (fmtFP32.decode a).eqv (fmtFP32.decode b)

/-- A binary32 depth in the attachment's format (R401). -/
def depthCode (f w : Nat) : Nat := if f = 0x20 then CompKind.write (.unorm 16) w else w

/-- Depth and stencil test of one sample (R386, R401): passes or not, and the sample value afterwards. -/
def dsTest (state : List Byte) (front : Bool) (f old z : Nat) : Bool × Nat :=
  let d := getLe state 0 1
  let st := getLe state (if front then 4 else 0x0C) 8
  let ref := bits st 35 28
  let cm := bits st 19 12
  let wm := bits st 27 20
  let so := stencilOf f old
  let sPass := !hasStencil f || vkCompare (bits st 2 0) ((ref &&& cm) < (so &&& cm)) ((ref &&& cm) = (so &&& cm))
  let zOld := depthOf f old
  let zPass := !hasDepth f || !bit d 3 || vkCompare (bits d 2 0) (depthLt f z zOld) (depthEq f z zOld)
  let op := if !sPass then bits st 5 3 else if !zPass then bits st 11 9 else bits st 8 6
  let sNew := (so &&& (255 - wm)) ||| (vkStencil op so ref &&& wm)
  let zNew := if sPass && zPass && bit d 3 && bit d 4 then z else zOld
  (sPass && zPass, if f = 0 then old else packDs f (if hasDepth f then zNew else 0) (if hasStencil f then sNew else 0))

/-! ### Blending (R402) -/

def fAdd (a b : Nat) : Nat := fmtFP32.fadd a b
def fMul (a b : Nat) : Nat := fmtFP32.fmul a b
def fNeg (a : Nat) : Nat := fmtFP32.fneg a
def one32 : Nat := 0x3F800000
def fOneMinus (a : Nat) : Nat := fAdd one32 (fNeg a)

/-- VkBlendFactor 0 to 14 for component i, from source, destination and constant. -/
def blendFactor (code i : Nat) (src dst con : List Nat) : Nat :=
  let c := fun (l : List Nat) (k : Nat) => l.getD k 0
  match code with
  | 0 => 0
  | 1 => one32
  | 2 => c src i
  | 3 => fOneMinus (c src i)
  | 4 => c dst i
  | 5 => fOneMinus (c dst i)
  | 6 => c src 3
  | 7 => fOneMinus (c src 3)
  | 8 => c dst 3
  | 9 => fOneMinus (c dst 3)
  | 10 => c con i
  | 11 => fOneMinus (c con i)
  | 12 => c con 3
  | 13 => fOneMinus (c con 3)
  | _ => if i = 3 then one32 else fmtFP32.fmin (c src 3) (fOneMinus (c dst 3))

/-- VkBlendOp 0 to 4. -/
def blendOp (code s fs d fd : Nat) : Nat :=
  match code with
  | 0 => fAdd (fMul s fs) (fMul d fd)
  | 1 => fAdd (fMul s fs) (fNeg (fMul d fd))
  | 2 => fAdd (fMul d fd) (fNeg (fMul s fs))
  | 3 => fmtFP32.fmin s d
  | _ => fmtFP32.fmax s d

/-- A colour of attachment k written to a sample value, with the draw's blend state (R386, R402). -/
def blendSample (state : List Byte) (k f old : Nat) (color : List Word) : Nat :=
  let b := getLe state (0x20 + 8 * k) 8
  let fit := fun (w : Nat) => if clampsSource f then clamp01 w else w
  let src := color.map (fun w => fit w.toNat)
  let con := (List.range 4).map (fun i => fit (fmtFP32.ieee (fmtFP16.decode (getLe state (0x18 + 2 * i) 2))))
  let dst := readColor f old
  let out := (List.range 4).map (fun i =>
    if !bit b 0 then src.getD i 0
    else
      let (op, sf, df) := if i = 3 then (bits b 26 24, bits b 18 14, bits b 23 19) else (bits b 13 11, bits b 5 1, bits b 10 6)
      blendOp op (src.getD i 0) (blendFactor sf i src dst con) (dst.getD i 0) (blendFactor df i src dst con))
  writeColor f old (bits b 30 27) out

/-- The clear value of attachment k (R381). -/
def clearValue (p : List Byte) (k : Nat) : Nat :=
  let f := (attOf p k).format
  if k = 4 then packDs f (if hasDepth f then depthCode f (getLe p 0xB8 4) else 0) (if hasStencil f then getLe p 0xBC 1 else 0)
  else writeColor f 0 15 ((List.range 4).map (fun i => getLe p (0x78 + 16 * k + 4 * i) 4))

end Sys2Proof.Machine
end

