-- ==== Sys2Proof/Machine/Raster.lean ====
section
/-! DEFINITION. Clipping, setup and coverage of primitives (R384, R386, R399): exact arithmetic on the clip coordinates,
with every rounding that the spec leaves open taken from a free value of the pass (log entry 44). -/

namespace Sys2Proof.Machine

/-- A free value of a pass by a key of its own. -/
def Pass.free (p : Pass) (key : Nat) : Nat := Config.freeNat (2 ^ 200 * (p.seed + 1) + key)

/-- Keys of free values: what, then order key, pixel, sample. -/
def freeKey (what order prim x y k : Nat) : Nat :=
  (((((what * 2 ^ 32 + order) * 2 ^ 40 + prim) * 2 ^ 14 + y) * 2 ^ 14 + x) * 2 ^ 8) + k

/-! ### Primitive assembly (R384) -/

/-- COUNT, INSTANCES, TOPOLOGY, ATTRS of a draw. -/
def DrawRec.count (d : DrawRec) : Nat := getLe d.payload 4 4
def DrawRec.order (d : DrawRec) : Nat := getLe d.payload 0 4
def DrawRec.instances (d : DrawRec) : Nat := getLe d.payload 0x38 4
def DrawRec.topology (d : DrawRec) : Nat := getLe d.payload 0x30 1
def DrawRec.fsDepth (d : DrawRec) : Bool := bit (getLe d.payload 0x31 1) 1

/-- Vertices of a primitive of the draw's topology. -/
def DrawRec.arity (d : DrawRec) : Nat := match d.topology with | 2 => 2 | 3 => 1 | _ => 3

/-- Primitives of one instance. -/
def DrawRec.perInstance (d : DrawRec) : Nat :=
  match d.topology with
  | 0 => d.count / 3
  | 1 => d.count - 2
  | 2 => d.count / 2
  | _ => d.count

/-- Keys of the vertices of primitive `prim`, in Vulkan's order. -/
def DrawRec.vertsOf (d : DrawRec) (prim : Nat) : List Nat :=
  let i := prim % d.perInstance
  let base := prim / d.perInstance * d.count
  match d.topology with
  | 0 => [base + 3 * i, base + 3 * i + 1, base + 3 * i + 2]
  | 1 => [base + i, base + i + (1 + i % 2), base + i + (2 - i % 2)]
  | 2 => [base + 2 * i, base + 2 * i + 1]
  | _ => [base + i]

/-- Primitives of the whole draw. -/
def DrawRec.prims (d : DrawRec) : Nat := if d.perInstance = 0 then 0 else d.perInstance * d.instances

/-- The next primitive, once its vertices are shaded. -/
def DrawRec.nextPrim (d : DrawRec) (draw : Nat) : Option Prim :=
  if d.prims ≤ d.assembled then none
  else
    let vs := (d.vertsOf d.assembled).filterMap (fun k => mget d.outs k)
    if vs.length = d.arity then some { order := d.order, prim := d.assembled, verts := vs, draw := draw } else none

/-! ### Clip space -/

/-- A homogeneous position in integers. -/
structure Pos where
  x : Int
  y : Int
  z : Int
  w : Int
  deriving DecidableEq, Repr

/-- The vertices' positions over one common power of two; none when a coordinate is not finite. -/
def posOf (vs : List Vertex) : Option (List Pos) :=
  let cs := vs.map (fun v => [finite32 v.x.toNat, finite32 v.y.toNat, finite32 v.z.toNat, finite32 v.w.toNat])
  if cs.any (fun c => c.any (fun o => o.isNone)) then none
  else
    let e := cs.foldl (fun e c => c.foldl (fun e o => match o with | some d => min e d.e | none => e) e) (0 : Int)
    some (cs.map (fun c =>
      let g := fun (i : Nat) => match c.getD i none with | some d => Dy.at d e | none => (0 : Int)
      { x := g 0, y := g 1, z := g 2, w := g 3 }))

/-- Where a position crosses a plane between two vertices at signed distances da ≥ 0 > db. -/
def crossPos (a b : Pos) (da db : Int) : Pos :=
  { x := a.x * -db + b.x * da, y := a.y * -db + b.y * da, z := a.z * -db + b.z * da, w := a.w * -db + b.w * da }

/-- Clip a polygon to the half-space dist ≥ 0. -/
def clipPlane (dist : Pos → Int) (l : List Pos) : List Pos :=
  let n := l.length
  (List.range n).foldl (fun acc i => match l[i]?, l[((i + 1) % n)]? with
    | some a, some b =>
      let da := dist a
      let db := dist b
      let acc := if 0 ≤ da then acc ++ [a] else acc
      if 0 ≤ da && db < 0 then acc ++ [crossPos a b da db]
      else if da < 0 && 0 ≤ db then acc ++ [crossPos b a db da]
      else acc
    | _, _ => acc) []

/-- Clip to the view volume of Vulkan; depth clamp leaves out the near and far planes (R386). -/
def clipPoly (clamp : Bool) (l : List Pos) : List Pos :=
  let planes : List (Pos → Int) := [fun p => p.w + p.x, fun p => p.w - p.x, fun p => p.w + p.y, fun p => p.w - p.y]
    ++ (if clamp then [] else [fun p => p.z, fun p => p.w - p.z])
  (planes.foldl (fun l f => clipPlane f l) l).filter (fun p => 0 < p.w)

/-! ### Setup -/

/-- A primitive ready for coverage: its polygon in 1/256 pixel, facing, the plane of its depth. -/
structure Setup where
  order : Nat
  prim : Nat
  draw : DrawRec
  /-- a position was not finite: coverage is open -/
  odd : Bool
  poly : List (Int × Int)
  front : Bool
  /-- normal of the plane n·(x, y, z, w) = 0 in clip space -/
  n : Pos
  deriving DecidableEq, Repr

/-- 256 × (a + b × c / w), rounded openly. -/
def snap (a b : Dy) (c w : Int) (free : Nat) : Int :=
  let e := min a.e b.e
  let num := 256 * (a.at e * w + b.at e * c)
  if 0 ≤ e then ratOpen (num * (2 ^ e.toNat : Nat)) w.toNat free else ratOpen num (w.toNat * 2 ^ (-e).toNat) free

/-- Viewport value k as an exact number; a value that is not finite counts as 0. -/
def vpDy (state : List Byte) (off : Nat) : Dy := (finite32 (getLe state off 4)).getD Dy.zero

/-- Half of an exact number. -/
def Dy.half (d : Dy) : Dy := ⟨d.m, d.e - 1⟩

/-- Screen position of a clip position, in 1/256 pixel (R399). -/
def screenPos (state : List Byte) (p : Pos) (free : Nat) : Int × Int :=
  let hw := (vpDy state 0x48).half
  let hh := (vpDy state 0x4C).half
  (snap ((vpDy state 0x40).add hw) hw p.x p.w free, snap ((vpDy state 0x44).add hh) hh p.y p.w (free / 2))

/-- Twice the signed area of a polygon. -/
def area2 (l : List (Int × Int)) : Int :=
  let n := l.length
  (List.range n).foldl (fun a i => match l[i]?, l[((i + 1) % n)]? with
    | some p, some q => a + (p.1 * q.2 - q.1 * p.2)
    | _, _ => a) 0

/-- The plane through three positions and the eye. -/
def planeOf (a b c : Pos) : Pos :=
  let det := fun (p q r : Int × Int × Int) =>
    p.1 * (q.2.1 * r.2.2 - q.2.2 * r.2.1) - p.2.1 * (q.1 * r.2.2 - q.2.2 * r.1) + p.2.2 * (q.1 * r.2.1 - q.2.1 * r.1)
  let pick := fun (f : Pos → Int × Int × Int) => det (f a) (f b) (f c)
  { x := pick (fun p => (p.y, p.z, p.w)), y := -pick (fun p => (p.x, p.z, p.w))
    z := pick (fun p => (p.x, p.y, p.w)), w := -pick (fun p => (p.x, p.y, p.z)) }

/-- A single-pixel-wide line as a parallelogram half a pixel to each side along the minor axis; a point as a square. -/
def widen (l : List (Int × Int)) : List (Int × Int) :=
  match l with
  | [p] => [(p.1 - 128, p.2 - 128), (p.1 + 128, p.2 - 128), (p.1 + 128, p.2 + 128), (p.1 - 128, p.2 + 128)]
  | [p, q] =>
    if (q.2 - p.2).natAbs ≤ (q.1 - p.1).natAbs then [(p.1, p.2 - 128), (q.1, q.2 - 128), (q.1, q.2 + 128), (p.1, p.2 + 128)]
    else [(p.1 - 128, p.2), (p.1 + 128, p.2), (q.1 + 128, q.2), (q.1 - 128, q.2)]
  | l => l

/-- Clip a line to the half-spaces, as a polygon of two vertices. -/
def clipLine (clamp : Bool) (l : List Pos) : List Pos := ((clipPoly clamp l).take 2)

/-- Setup of a primitive of a pass. -/
def Pass.setup (p : Pass) (d : DrawRec) (x : Prim) : Setup :=
  let none_ : Setup :=
    { order := x.order, prim := x.prim, draw := d, odd := true, poly := [], front := true, n := ⟨0, 0, 0, 1⟩ }
  match posOf x.verts with
  | none => none_
  | some ps =>
    let clamp := bit (getLe d.state 0 1) 5
    let cl := if x.verts.length = 3 then clipPoly clamp ps else clipLine clamp ps
    let sc := foldIdx cl [] (fun acc i q => acc ++ [screenPos d.state q (p.free (freeKey 1 x.order x.prim 0 0 i))])
    let a := area2 sc
    let cw := bit (getLe d.state 1 1) 2
    let n := match ps with
      | [a, b, c] => planeOf a b c
      -- a line: the plane that holds it and is level across its minor axis
      | [a, b] =>
        if ((a.y * b.w - b.y * a.w).natAbs ≤ (a.x * b.w - b.x * a.w).natAbs) then planeOf a b ⟨0, 1, 0, 0⟩
        else planeOf a b ⟨1, 0, 0, 0⟩
      | [a] => planeOf a ⟨1, 0, 0, 0⟩ ⟨0, 1, 0, 0⟩
      | _ => ⟨0, 0, 0, 1⟩
    let poly := if x.verts.length = 3 then (if a < 0 then sc.reverse else sc)
      else let w := widen sc; if area2 w < 0 then w.reverse else w
    { order := x.order, prim := x.prim, draw := d, odd := false, poly := poly
      -- a positive area is clockwise on the screen, whose y grows downward
      front := x.verts.length ≠ 3 || ((0 < a) = cw), n := n }

/-- Culled by facing, or of zero area (R386, R394). -/
def Setup.culled (t : Setup) : Bool :=
  let c := bits (getLe t.draw.state 1 1) 1 0
  !t.odd && ((t.draw.arity = 3 && (if t.front then bit c 0 else bit c 1)) || area2 t.poly = 0)

/-! ### Coverage (R399) -/

/-- Vulkan's standard sample positions in 1/256 pixel. -/
def samplePos (log2s : Nat) : List (Nat × Nat) :=
  match log2s with
  | 0 => [(128, 128)]
  | 1 => [(192, 192), (64, 64)]
  | 2 => [(96, 32), (224, 96), (32, 160), (160, 224)]
  | _ => [(144, 80), (112, 176), (208, 144), (80, 48), (48, 208), (16, 112), (176, 240), (240, 16)]

/-- Is a point inside a polygon whose area is positive, by the top-left rule? -/
def insidePoly (l : List (Int × Int)) (x y : Int) : Bool :=
  let n := l.length
  3 ≤ n && (List.range n).all (fun i => match l[i]?, l[((i + 1) % n)]? with
    | some a, some b =>
      let e := (b.1 - a.1) * (y - a.2) - (b.2 - a.2) * (x - a.1)
      if a = b then true
      else 0 < e || (e = 0 && ((a.2 = b.2 && a.1 < b.1) || b.2 < a.2))
    | _, _ => false)

/-- Samples per pixel (log2), width, height of a pass. -/
def Pass.logS (p : Pass) : Nat := getLe p.payload 3 1
def Pass.width (p : Pass) : Nat := getLe p.payload 8 2
def Pass.height (p : Pass) : Nat := getLe p.payload 0xA 2

/-- Is a pixel inside the render area and the scissor of a draw? -/
def Pass.inScissor (p : Pass) (state : List Byte) (x y : Nat) : Bool :=
  x < p.width && y < p.height
  && getLe state 0x58 2 ≤ x && x < getLe state 0x58 2 + getLe state 0x5C 2
  && getLe state 0x5A 2 ≤ y && y < getLe state 0x5A 2 + getLe state 0x5E 2

/-- Coverage mask of a pixel. -/
def Pass.coverage (p : Pass) (t : Setup) (x y : Nat) : Nat :=
  if !p.inScissor t.draw.state x y || t.culled then 0
  else if t.odd then p.free (freeKey 2 t.order t.prim x y 0) % 2 ^ (2 ^ p.logS)
  else foldIdx (samplePos p.logS) 0 (fun m i q =>
    if insidePoly t.poly (256 * x + q.1) (256 * y + q.2) then m + 2 ^ i else m)

/-- Depth of a sample in the attachment's format (R401): the plane at the sample, the viewport's range, the clamp; the
rounding is open. -/
def Pass.depthAt (p : Pass) (t : Setup) (f x y i : Nat) : Nat :=
  let free := p.free (freeKey 3 t.order t.prim x y i)
  let st := t.draw.state
  let lo := vpDy st 0x50
  let hi := vpDy st 0x54
  let q := ((samplePos p.logS)[i]?).getD (128, 128)
  -- screen position as numbers over 256, then device coordinates (num / den)
  let ndc := fun (off : Nat) (at_ : Nat) =>
    let hw := (vpDy st (off + 8)).half
    let d := (Dy.mk (at_ : Int) (-8)).sub ((vpDy st off).add hw)
    let e := min d.e hw.e
    (d.at e, hw.at e)
  let (xn, xd) := ndc 0x40 (256 * x + q.1)
  let (yn, yd) := ndc 0x44 (256 * y + q.2)
  let num := -(t.n.x * xn * yd + t.n.y * yn * xd + t.n.w * xd * yd)
  let den := t.n.z * xd * yd
  if t.odd || den = 0 then free % 2 ^ (if f = 0x20 then 16 else 32)
  else
    -- z = lo + (num / den) × (hi − lo)
    let r := hi.sub lo
    let e := min (min lo.e r.e) 0
    let zn0 := lo.at e * den + r.at e * num
    let zn := if den < 0 then -zn0 else zn0
    let zd := den.natAbs * 2 ^ (-e).toNat
    let scaled := fun (d : Dy) => d.at e * (den.natAbs : Int)
    let zn := if bit (getLe st 0 1) 5 then max (min zn (max (scaled lo) (scaled hi))) (min (scaled lo) (scaled hi)) else zn
    if f = 0x20 then
      let c := ratOpen (zn * 65535) zd free
      (max 0 (min c 65535)).toNat
    else
      -- round toward zero, then one step away from zero where the value is not exact and the free bit says so
      let k := log2 zd + 200
      let m := zn.natAbs * 2 ^ k / zd
      let c := fmtFP32.encode true .rtz (.fin (zn < 0) m (-(k : Int)))
      let exact := match finite32 c with | some d => d.eqv ⟨(if zn < 0 then -(m : Int) else m), -(k : Int)⟩ && zn.natAbs * 2 ^ k % zd = 0 | none => true
      if exact || free % 2 = 0 then c else c + 1

end Sys2Proof.Machine
end

