-- ==== Sys2Proof/Machine/Passes.lean ====
section
/-! DEFINITION. Render passes (R375 to R401): opening, geometry and binning, manifests and their growth, incremental
renders, tiles, retirement and abandonment. -/

namespace Sys2Proof.Machine

def ePassMismatch : Nat := 0x0601
def ePassAbandoned : Nat := 0x0602
def eNoBinningFront : Nat := 0x0603

/-! ### Shape of a pass -/

/-- Engines that a PASS_BEGIN payload names (R375). -/
def passEngines (p : List Byte) : List Nat := bitList (getLe p 4 4) 32

/-- Graphics granules at a tile size (R388). -/
def passGranules (p : List Byte) (t : Nat) : Nat :=
  let b := (List.range 5).foldl (fun a k => a + (attOf p k).tile) 0
  (2 * t * t * 2 ^ getLe p 3 1 * b + 262143) / 262144

/-- Main and alternative tile size. -/
def mainTile (p : List Byte) : Nat := tileOf (bits (getLe p 2 1) 1 0)
def altTile (p : List Byte) : Option Nat := if bits (getLe p 2 1) 3 2 = 3 then none else some (tileOf (bits (getLe p 2 1) 3 2))

/-- Tiles across and down (R387). -/
def Pass.tilesX (p : Pass) : Nat := (p.width + p.tile - 1) / p.tile
def Pass.tilesY (p : Pass) : Nat := (p.height + p.tile - 1) / p.tile

/-- Member engines, ascending. -/
def Pass.engines (p : Pass) : List Nat := p.members.map (fun m => m.1)

/-- Owner of a tile (R387). -/
def Pass.owner (p : Pass) (tx ty : Nat) : Option Nat := p.engines[(tx + 3 * ty) % p.members.length]?

/-- Tiles of a member in the order it renders them (R389). -/
def Pass.tilesOf (p : Pass) (e : Nat) : List (Nat × Nat) :=
  ((List.range p.tilesY).map (fun ty => (List.range p.tilesX).filterMap (fun tx =>
    if p.owner tx ty = some e then some (tx, ty) else none))).flatten

def State.pass? (s : State) (id : Nat) : Option Pass := mget s.passes id
def State.modPass (s : State) (id : Nat) (f : Pass → Pass) : State := { s with passes := mmod s.passes id f }

/-- The commands of a pass on a member's queue: PASS_BEGIN to PASS_END (R375). -/
def passCmds (v : Queue) (m : Member) : List Cmd :=
  let l := v.cmds.dropWhile (fun c => c.index ≠ m.cmd)
  l.take ((l.takeWhile (fun c => c.opcode ≠ 0x12)).length + 1)

/-- Engine whose translation buffer a pass's own accesses use: its lowest member. -/
def Pass.agent (p : Pass) : Nat := p.engines.headD 0

/-- May the pass go on: its convoy resident, nothing held? -/
def State.passRuns (s : State) (p : Pass) : Bool :=
  s.working && s.isResident p.convoy && p.stall.isNone && p.engines.all (fun e => !s.frozen e)

/-! ### Abandonment (R379) -/

/-- Bytes with free contents. -/
def freeBytes (seed n : Nat) : List Byte := (List.range n).map (fun i => BitVec.ofNat 8 (Config.freeNat (seed + i)))

/-- Local bytes of [va, va + n) become undefined. -/
def State.scramble (s : State) (agent asid va n : Nat) : State :=
  match s.pieces agent asid va n accWrite with
  | (.error _, s) => s
  | (.ok ps, s) => ps.foldl (fun s p =>
      let (t, pa, len, _, _, _) := p
      if t = 0 then
        { s with mem := { s.mem with cells := memWrite s.mem.cells pa (freeBytes s.clk.fresh len) } }.drew len
      else s) s

/-- The attachments' contents inside the render area are undefined (R379). -/
def State.scrambleAtts (s : State) (p : Pass) : State :=
  (List.range 5).foldl (fun s k =>
    let a := attOf p.payload k
    if a.format = 0 then s
    else loop p.height s (fun s y => s.scramble p.agent p.asid (a.va + y * a.pitch) (p.width * 2 ^ p.logS * a.mem))) s

/-- Remove the strings of a pass from an engine, with its granules. -/
def State.dropPassWork (s : State) (e id : Nat) : State :=
  State.orphan <| s.modEng e (fun v =>
    let mine := fun (st : Str) => match st.kind with
      | .vertex k _ => k = id
      | .fragment k _ _ => k = id
      | .compute => false
    let gone := (v.strs.filter (fun q => mine q.2)).map (fun q => q.2.wg)
    { v with strs := v.strs.filter (fun q => !mine q.2), wgs := v.wgs.filter (fun g => !gone.contains g.1)
             gfxHolds := merase v.gfxHolds id, waitGfx := none })

/-- Engines that were to join and have not: their PASS_BEGIN will find the pass gone. -/
def State.markAbsent (s : State) (p : Pass) (engines : List Nat) : State :=
  let crc := crc32c p.payload
  s.modConvoy p.convoy (fun c => { c with absent := c.absent ++ (engines.filter (fun e => !mhas p.members e)).map (fun e => (e, crc)) })

/-! ### Answered fault records (R95, R194, R195) -/

/-- A string parked on a record (none: on the wait for a free one) replays; after a declined growth as if GROW were 0. -/
def Str.resume (id : Option Nat) (decline : Bool) (st : Str) : Str :=
  if st.state = .parked id then ({ st with state := .ready, noGrow := st.noGrow || decline }).settle else st

def Eng.resume (id : Option Nat) (decline : Bool) (v : Eng) : Eng :=
  let ps := (v.strs.filter (fun p => p.2.state = .parked id)).map (fun p => p.1)
  { v with
    strs := mmap v.strs (fun _ st => st.resume id decline)
    tensors := v.tensors.map (fun (t : TIns) => if ps.contains t.place then { t with faulted := false } else t) }

/-- Everything that a record holds up may go on: strings resident and saved, fetchers, jobs, passes. -/
def State.resumeUnits (s : State) (id : Option Nat) (decline : Bool) : State :=
  { s with
    engines := mmap s.engines (fun _ v => v.resume id decline)
    parts := mmap s.parts (fun _ x => { x with slots := x.slots.map (fun (y : Slot) =>
      { y with engines := mmap y.engines (fun _ v => v.resume id decline) }) })
    queues := mmap s.queues (fun _ v => if v.stalled = some id then { v with stalled := none, stallHdr := [] } else v)
    jobs := mmap s.jobs (fun _ j => if j.fault = some id then { j with fault := none } else j)
    passes := mmap s.passes (fun _ (p : Pass) =>
      let held := id.isNone && p.growth.isNone
      { p with
        stall := if p.stall.map (fun x => x.1) = some id then none else p.stall
        fronts := if held then p.fronts.map (fun f => { f with stalled := none }) else p.fronts }) }

/-- A record frees: the faults that found none are raised again by their agents. -/
def State.closeFault (s : State) (id : Nat) : State :=
  { s with mmu := { s.mmu with faults := merase s.mmu.faults id } }.resumeUnits none false

/-- A pass is abandoned on every member; `begin_` is what its PASS_BEGINs retire with (R376, R379). -/
def State.abandonPass (s : State) (id begin_ : Nat) : State :=
  match s.pass? id with
  | none => s
  | some p =>
    let s := { s with passes := merase s.passes id }
    let s := p.members.foldl (fun s m =>
      let s := s.dropPassWork m.1 id
      match s.queue? m.2.queue with
      | none => s
      | some v =>
        let s := (passCmds v m.2).foldl (fun s c =>
          s.endCmd m.2.queue c.index (if c.opcode = 0x10 then begin_ else ePassAbandoned) 0) s
        s.modQueue m.2.queue (fun v => { v with pass := none })) s
    let s := if p.phase = .opening then s.markAbsent p (passEngines p.payload) else s
    let s := match p.growth with
      | some g => s.closeFault g
      | none => s
    if p.phase = .opening then s else s.scrambleAtts p

/-- Has a command of the pass failed? -/
def State.passFailed (s : State) (p : Pass) : Bool :=
  p.members.any (fun m => match s.queue? m.2.queue with
    | none => true
    | some v => (passCmds v m.2).any (fun c => match c.st with | .ended e => e ≠ 0 && c.opcode ≠ 0x00 | _ => false))

/-- Abandon every pass that holds a failed command (R379). -/
def State.sweepPasses (s : State) : State :=
  s.passes.foldl (fun s p => if s.passFailed p.2 then s.abandonPass p.1 ePassAbandoned else s) s

/-! ### A pass's own translation faults -/

/-- A read or write of a pass faults: it waits on the record. -/
def State.stallPass (s : State) (id : Nat) (p : Pass) (q cmd : Nat) (acc : Acc) (f : Nat × Nat × Nat × Nat) : State :=
  let (asid, convoy, wb, seq) := s.ctxOf q cmd
  let (rec_, s) := s.raiseFault
    { asid := asid, kind := f.1, acc := acc, va := f.2.2.2, waybill := wb, seq := seq, agent := 0, unit := p.agent
      queue := q, level := f.2.1, heap := 0, detail := f.2.2.1, growKey := 0, convoy := convoy }
  s.modPass id (fun p => { p with stall := some (rec_, q, cmd) })

/-! ### Opening (R375 to R378, R381) -/

/-- A pass that an engine may join: opening, in the same convoy, naming the engine, which has not joined. -/
def State.joinable (s : State) (convoy e : Nat) : Option (Nat × Pass) :=
  s.passes.find? (fun p => p.2.phase = .opening && p.2.convoy = convoy && (passEngines p.2.payload).contains e
    && !mhas p.2.members e)

/-- A member joins. -/
def State.joinPass (s : State) (id q : Nat) (v : Queue) (c : Cmd) : State :=
  let m : Member := { queue := q, cmd := c.index, granted := false, ended := none }
  ((s.modPass id (fun p => { p with members := mset p.members v.unit m })).modQueue q (fun v => { v with pass := some id })).beginCmd
    q v c

/-- PASS_BEGIN (R375 to R378, R381). -/
def execPassBegin (queue : Half) (s : State) : Out :=
  let q := queue.toNat
  match s.startable q 0x10 with
  | none => .next s
  | some (v, c) =>
    match v.convoy, (v.convoy.bind s.convoy?) with
    | some k, some x =>
      let crc := crc32c c.payload
      if s.frozen v.unit || v.pass.isSome then .next s
      else if x.absent.contains (v.unit, crc) then
        .next ((s.modConvoy k (fun x => { x with absent := x.absent.erase (v.unit, crc) })).refuseCmd q v c ePassAbandoned)
      else if !(passEngines c.payload).contains v.unit then .next (s.refuseCmd q v c ePassAbandoned)
      else
        let front := (s.part? x.partition).bind (fun y => s.frontOf y (v.unit / 4))
        let need := passGranules c.payload (mainTile c.payload)
        let err := if front.isNone then eNoBinningFront else if (s.gfxFit v.unit need).isNone then eTileGranules else 0
        (match s.joinable k v.unit with
        | some (id, p) =>
          let s := s.joinPass id q v c
          if crc32c p.payload ≠ crc then .next (s.abandonPass id ePassMismatch)
          else if err ≠ 0 then .next ((s.endCmd q c.index err 0).abandonPass id ePassAbandoned)
          else .next s
        | none =>
          if err ≠ 0 then .next (s.refuseCmd q v c err)
          else
            let p : Pass :=
              { convoy := k, asid := v.asid, payload := c.payload, phase := .opening, tile := 0, members := [], draws := []
                fronts := [], mapped := 0, increments := 0, chunks := [], rendered := [], growth := none, frags := []
                writes := [], seed := s.clk.fresh, stall := none }
            let id := s.nextPass
            .next (({ s with passes := mset s.passes id p, nextPass := id + 1 }.drew 1).joinPass id q v c))
    | _, _ => .next s

/-- The tile size at which every member has its granules (R142, R143). -/
def State.tileNow (s : State) (p : Pass) : Option Nat :=
  let fits := fun t => p.engines.all (fun e => s.gfxFit e (passGranules p.payload t) = some true)
  if fits (mainTile p.payload) then some (mainTile p.payload)
  else match altTile p.payload with
    | some t => if fits t then some t else none
    | none => none

/-- Members whose side is too small ask for granules (R142). -/
def State.askGfx (s : State) (p : Pass) : State :=
  let n := passGranules p.payload (mainTile p.payload)
  p.engines.foldl (fun s e => s.modEng e (fun v => if n ≤ v.tb || v.waitTns.isSome then v else { v with waitGfx := some n })) s

/-- Bytes from HEAP_VA to its first data chunk. -/
def Pass.dataStart (p : Pass) : Nat := roundUp (controlBytes p.payload p.tile p.fronts.length) (2 ^ 21)
def Pass.heapVa (p : Pass) : Nat := getLe p.payload 0x10 8

/-- The pass-state fields of the heap: MAPPED, INCREMENTS (R390). -/
def State.writePassState (s : State) (p : Pass) : State :=
  (s.writeVa p.agent p.asid (p.heapVa + 0x800) (leBytes 8 p.mapped ++ leBytes 4 p.increments) false).2

/-- GEOMETRY_PHASE_START (R376): every named engine in service has joined and holds its granules. -/
def execGeometryPhaseStart (pass : Nat) (s : State) : Out :=
  match s.pass? pass with
  | none => .next s
  | some p =>
    let named := passEngines p.payload
    let fenced := named.filter (fun e => s.fenced 0 e)
    let part := (s.convoy? p.convoy).bind (fun c => s.part? c.partition)
    match part with
    | none => .next s
    | some x =>
      let quads := s.frontsFor x p.engines
      let taken := s.passes.any (fun o => o.1 ≠ pass && o.2.phase ≠ .opening && o.2.fronts.any (fun f => quads.contains f.quad))
      if p.phase ≠ .opening || !s.passRuns p || named.any (fun e => !fenced.contains e && !mhas p.members e) || taken then .next s
      else match s.tileNow p with
        | none => .next (s.askGfx p)
        | some t =>
          let front := fun (q : Nat) => ({ quad := q, members := p.engines.filter (fun e => s.frontOf x (e / 4) = some q)
                                           binned := [], chunk := none, used := 0, stalled := none, drawsWritten := []
                                           tails := [] } : Front)
          let p1 := { p with tile := t, phase := .geometry, fronts := quads.map front
                             mapped := getLe p.payload 0x18 4 * 2 ^ 20 }
          let m := (p.members.head?.map (fun m => m.2)).getD { queue := 0, cmd := 0, granted := false, ended := none }
          match s.writeVa p.agent p.asid p.heapVa (zeros (controlBytes p.payload t quads.length)) false with
          | (.error f, s) => .next (s.stallPass pass p m.queue m.cmd accWrite f)
          | (.ok _, s) =>
            let p1 := { p1 with members := mmap p1.members (fun _ m => { m with granted := true }) }
            let s := (s.modPass pass (fun _ => p1)).writePassState p1
            let n := passGranules p.payload t
            let s := p.engines.foldl (fun s e => s.modEng e (fun v =>
              { v with gfxHolds := mset v.gfxHolds pass n, waitGfx := none })) s
            .next (s.markAbsent p1 fenced)

/-! ### Manifests (R390 to R395) -/

/-- Where a front's next chunk comes from (R395). -/
inductive Grow where
  | chunk (c : Nat) (p : Pass)
  | increment
  | fault
  deriving DecidableEq, Repr

/-- Take the next data chunk. -/
def State.nextChunk (s : State) (p : Pass) : Grow × State :=
  let lo := p.dataStart / 2 ^ 21
  let hi := p.mapped / 2 ^ 21
  match ((List.range (hi - lo)).map (fun i => lo + i)).find? (fun c => !p.chunks.contains c) with
  | some c => (.chunk c { p with chunks := p.chunks ++ [c] }, s)
  | none =>
    if getLe p.payload 0x1C 4 * 2 ^ 20 ≤ p.mapped then (.increment, s)
    else match s.translate p.agent p.asid (p.heapVa + p.mapped) accWrite with
      | (.ok _ _ _ _ _, s) => (.chunk hi { p with chunks := p.chunks ++ [hi], mapped := p.mapped + 2 ^ 21 }, s)
      | (.fault _ _ _, s) => (.fault, s)

/-- Writes to a heap that wait to be made: addresses and bytes. -/
abbrev Writes := List (Nat × List Byte)

/-- Allocate n bytes for front i, inside one chunk (R391). -/
def State.allocManifest (s : State) (p : Pass) (i n : Nat) : (Except Grow (Nat × Pass)) × State :=
  match p.fronts[i]? with
  | none => (.error .fault, s)
  | some f =>
    let put := fun (p : Pass) (c used : Nat) =>
      { p with fronts := p.fronts.set i { f with chunk := some c, used := used + n } }
    match f.chunk with
    | some c =>
      if f.used + n ≤ 2 ^ 21 then (.ok (p.heapVa + c * 2 ^ 21 + f.used, put p c f.used), s)
      else match s.nextChunk p with
        | (.chunk c p, s) => (.ok (p.heapVa + c * 2 ^ 21, put p c 0), s)
        | (g, s) => (.error g, s)
    | none => match s.nextChunk p with
      | (.chunk c p, s) => (.ok (p.heapVa + c * 2 ^ 21, put p c 0), s)
      | (g, s) => (.error g, s)

/-- Tiles that a primitive touches: those with a covered sample (R391). -/
def Pass.touched (p : Pass) (t : Setup) : List (Nat × Nat) :=
  ((List.range p.tilesY).map (fun ty => (List.range p.tilesX).filterMap (fun tx =>
    if (List.range p.tile).any (fun j => (List.range p.tile).any (fun i =>
        p.coverage t (tx * p.tile + i) (ty * p.tile + j) ≠ 0)) then some (tx, ty) else none))).flatten

/-- The primitive record (R392); the roundings of its screen values are open. -/
def Pass.primBytes (p : Pass) (d : DrawRec) (x : Prim) (drawAddr : Nat) : List Byte :=
  leBytes 4 x.order ++ leBytes 4 x.prim ++ leBytes 8 drawAddr
  ++ foldIdx x.verts [] (fun acc i v =>
    acc ++ ((List.range 4).map (fun k => leBytes 4 (p.free (freeKey 5 x.order x.prim 0 i k)))).flatten
    ++ ((v.attrs.take (4 * getLe d.payload 0x34 1)).map (fun w => leBytes 4 w.toNat)).flatten)

/-- Append an entry to a tile's list on front i (R391, R392). -/
def State.addEntry (s : State) (p : Pass) (i : Nat) (x : Prim) (rec_ : Nat) (tile : Nat × Nat) :
    (Except Grow (Pass × Writes)) × State :=
  let key := tile.2 * p.tilesX + tile.1
  let entry := leBytes 4 x.order ++ leBytes 4 x.prim ++ leBytes 8 rec_
  match p.fronts[i]? with
  | none => (.error .fault, s)
  | some f =>
    let old := mget f.tails key
    let setTail := fun (p : Pass) (a n : Nat) =>
      { p with fronts := p.fronts.modify i (fun f => { f with tails := mset f.tails key (a, n) }) }
    match old with
    | some (a, n) =>
      if n < 31 then (.ok (setTail p a (n + 1), [(a + 8, leBytes 2 (n + 1)), (a + 0x10 + 16 * n, entry)]), s)
      else match s.allocManifest p i 512 with
        | (.error g, s) => (.error g, s)
        | (.ok (b, p), s) => (.ok (setTail p b 1,
            [(a, leBytes 8 b), (b, zeros 8 ++ leBytes 2 1 ++ zeros 6 ++ entry ++ zeros 480)]), s)
    | none => match s.allocManifest p i 512 with
      | (.error g, s) => (.error g, s)
      | (.ok (b, p), s) => (.ok (setTail p b 1,
          [(p.heapVa + 0x1000 + 8 * (key * p.fronts.length + i), leBytes 8 b)
          , (b, zeros 8 ++ leBytes 2 1 ++ zeros 6 ++ entry ++ zeros 480)]), s)

/-- Everything a front writes for a primitive, or what it lacks. -/
def State.manifest (s : State) (p : Pass) (i : Nat) (d : DrawRec) (x : Prim) (tiles : List (Nat × Nat)) :
    (Except Grow (Pass × Writes)) × State :=
  match p.fronts[i]? with
  | none => (.error .fault, s)
  | some f =>
    let first : (Except Grow (Nat × Pass × Writes)) × State := match mget f.drawsWritten x.draw with
      | some a => (.ok (a, p, []), s)
      | none => match s.allocManifest p i 64 with
        | (.error g, s) => (.error g, s)
        | (.ok (a, p), s) => (.ok (a, { p with fronts := p.fronts.modify i (fun f =>
            { f with drawsWritten := mset f.drawsWritten x.draw a }) }, [(a, d.payload)]), s)
    match first with
    | (.error g, s) => (.error g, s)
    | (.ok (da, p, ws), s) =>
      let bytes := p.primBytes d x da
      match s.allocManifest p i (roundUp bytes.length 16) with
      | (.error g, s) => (.error g, s)
      | (.ok (ra, p), s) =>
        tiles.foldl (fun st t => match st with
          | (.error g, s) => (.error g, s)
          | (.ok (p, ws), s) => match s.addEntry p i x ra t with
            | (.error g, s) => (.error g, s)
            | (.ok (p, w), s) => (.ok (p, ws ++ w), s)) (.ok (p, ws ++ [(ra, bytes)]), s)

/-- Raise, or attach to, the growth record of a pass (R395). -/
def State.growPass (s : State) (id : Nat) (p : Pass) (i : Nat) (f : Front) (x : Prim) (d : DrawRec) : State :=
  let (asid, convoy, wb, seq) := s.ctxOf d.queue d.cmd
  let (rec_, s) := s.raiseFault
    { asid := asid, kind := 0x11, acc := accRead, va := 0, waybill := wb, seq := seq, agent := 6, unit := f.quad
      queue := 0xFFFF, level := 0xFF, heap := 0, detail := 2097152, growKey := id + 1, convoy := convoy }
  s.modPass id (fun _ => { p with growth := rec_, fronts := p.fronts.modify i (fun f => { f with stalled := some x.draw }) })

/-- Result of one attempt to bin. -/
inductive Binned where
  | done (s : State)
  | stuck (s : State)

/-- Bin one primitive on front i (R391, R394). -/
def State.binPrim (s : State) (id : Nat) (p : Pass) (i : Nat) (d : DrawRec) (x : Prim) : Binned :=
  match p.fronts[i]? with
  | none => .stuck s
  | some f =>
    let bump := fun (p : Pass) => { p with draws := p.draws.modify x.draw (fun d => { d with assembled := d.assembled + 1 }) }
    let count := fun (s : State) => s.progress (40 + f.quad) 1
    let t := p.setup d x
    let tiles := if t.culled then [] else p.touched t
    if tiles.isEmpty then .done (count (s.modPass id (fun _ => bump p)))
    else match s.manifest p i d x tiles with
      | (.error .increment, s) => .stuck (s.modPass id (fun _ => { p with phase := .increment }))
      | (.error _, s) => .stuck (s.growPass id p i f x d)
      | (.ok (p1, ws), s) =>
        -- a chunk that lost its mapping stalls the pass at this primitive
        match ws.foldl (fun (st : (Except (Nat × Nat × Nat × Nat) Unit) × State) w => match st with
            | (.error f, s) => (.error f, s)
            | (.ok _, s) => s.writeVa p.agent p.asid w.1 w.2 false) (.ok (), s) with
        | (.error f, s) => .stuck (s.stallPass id p d.queue d.cmd accWrite f)
        | (.ok _, s) =>
          let p1 := { p1 with fronts := p1.fronts.modify i (fun f => { f with binned := f.binned ++ [x] }) }
          let s := s.modPass id (fun _ => bump p1)
          .done (count (if p1.mapped = p.mapped then s else s.writePassState p1))

/-- What a member can deliver next: its first unfinished draw, the index of it, and its primitive if it is ready (R393). -/
def Pass.memberNext (p : Pass) (e : Nat) : Option (DrawRec × Option Prim) :=
  (foldIdx p.draws none (fun (a : Option (DrawRec × Option Prim)) i d =>
    if a.isSome || d.engine ≠ e || d.prims ≤ d.assembled then a else some (d, d.nextPrim i)))

/-- Key order of primitives: ORDER, then PRIM. -/
def keyLt (a b : Nat × Nat) : Bool := a.1 < b.1 || (a.1 = b.1 && a.2 < b.2)

/-- The primitive a front takes next (R393): the least key that is ready, when no member can still deliver a lower one. -/
def Pass.candidate (p : Pass) (f : Front) : Option (DrawRec × Prim) :=
  let next := f.members.map (fun e => (e, p.memberNext e))
  let ready := next.filterMap (fun x => x.2.bind (fun y => y.2.map (fun z => (y.1, z))))
  match ready with
  | [] => none
  | r :: rs =>
    let c := rs.foldl (fun b a => if keyLt (a.2.order, a.2.prim) (b.2.order, b.2.prim) then a else b) r
    let clear := next.all (fun x => match x.2 with
      | some (_, some _) => true
      | some (d, none) => c.2.order < d.order
      | none => match mget p.members x.1 with
        | some m => m.ended.isSome
        | none => true)
    if clear then some c else none

/-- Bin while some front can (R393). The number of primitives bounds the rounds. -/
def State.pump (s : State) (id : Nat) : Nat → State
  | 0 => s
  | n + 1 => match s.pass? id with
    | none => s
    | some p =>
      if p.phase ≠ .geometry || !s.passRuns p then s
      else
        let pick := foldIdx p.fronts none (fun (a : Option (Nat × DrawRec × Prim)) i f =>
          if a.isSome || f.stalled.isSome || s.fenced 1 f.quad then a else (p.candidate f).map (fun c => (i, c.1, c.2)))
        match pick with
        | none => s
        | some (i, d, x) => match s.binPrim id p i d x with
          | .done s => s.pump id n
          | .stuck s => s.pump id n

/-- Rounds that binning may take. -/
def Pass.rounds (p : Pass) : Nat := p.draws.foldl (fun a d => a + d.prims) 0 + p.fronts.length + 1

/-! ### Pixels (R388, R389, R400, R401) -/

/-- Values of a pixel: per attachment, per sample. -/
abbrev PixVals := List (List Nat)

def PixVals.get (v : PixVals) (k i : Nat) : Nat := (v.getD k []).getD i 0
def PixVals.put (v : PixVals) (k i x : Nat) : PixVals := v.modify k (fun l => l.set i x)

/-- Setups of the binned primitives in ascending order key (R393). -/
def Pass.setups (p : Pass) : List Setup :=
  let all := ((p.fronts.map (fun f => f.binned)).flatten).filterMap (fun x => (p.draws[x.draw]?).map (fun d => p.setup d x))
  all.foldl (fun acc t => insertBy (fun u => u.order * 2 ^ 40 + u.prim) t acc) []

/-- The TSA writes of a primitive on a pixel. -/
def Pass.applyWrites (p : Pass) (order prim x y : Nat) (v : PixVals) : PixVals :=
  p.writes.foldl (fun v w => if w.order = order && w.prim = prim && w.x = x && w.y = y then v.put w.att w.sample w.value else v) v

/-- Colours of a fragment blended into the samples of a mask. -/
def Pass.applyColors (p : Pass) (d : DrawRec) (f : Shaded) (mask : Nat) (v : PixVals) : PixVals :=
  foldIdx (colorsUsed p.payload) v (fun v n k =>
    (bitList mask 8).foldl (fun v i => v.put k i (blendSample d.state k (attOf p.payload k).format (v.get k i) (f.colors.getD n []))) v)

/-- Depth and stencil tests of the samples of a mask, at given depths (R401): the mask that passes. -/
def Pass.testAll (p : Pass) (t : Setup) (mask : Nat) (z : Nat → Nat) (v : PixVals) : Nat × PixVals :=
  let f := (attOf p.payload 4).format
  (bitList mask 8).foldl (fun (a : Nat × PixVals) i =>
    let (ok, x) := dsTest t.draw.state t.front f (a.2.get 4 i) (z i)
    (if ok then a.1 + 2 ^ i else a.1, a.2.put 4 i x)) (0, v)

/-- One primitive on one pixel; none while its fragment has not been shaded. With `dsOnly`, colours are left aside. -/
def Pass.stepPixel (p : Pass) (t : Setup) (x y cov : Nat) (dsOnly : Bool) (v : PixVals) : Option PixVals :=
  let f := (attOf p.payload 4).format
  let frag := p.frags.find? (fun f => f.order = t.order && f.prim = t.prim && f.x = x && f.y = y)
  if t.draw.fsDepth then
    frag.map (fun g =>
      let v := p.applyWrites t.order t.prim x y v
      if g.discarded then v
      else
        let (m, v) := p.testAll t cov (fun _ => depthCode f g.depth.toNat) v
        p.applyColors t.draw g m v)
  else
    let (m, v) := p.testAll t cov (fun i => p.depthAt t f x y i) v
    if m = 0 then some v
    else match frag with
      | some g => some (p.applyColors t.draw g m (p.applyWrites t.order t.prim x y v))
      | none => if dsOnly then some v else none

/-- Does a primitive other than the given one cover a pixel? -/
def Pass.shared (p : Pass) (ts : List Setup) (order prim x y : Nat) : Bool :=
  ts.any (fun t => !(t.order = order && t.prim = prim) && p.coverage t x y ≠ 0)

/-- Unordered writes to a pixel that another primitive covers leave the sample open (R404): of a colour attachment that
value, of ATT4 every value of the sample, since later tests depend on it. -/
def Pass.openWrites (p : Pass) (ts : List Setup) (x y : Nat) (v : PixVals) : PixVals :=
  p.writes.foldl (fun v w =>
    if w.ordered || w.x ≠ x || w.y ≠ y || !p.shared ts w.order w.prim x y then v
    else (List.range 5).foldl (fun v k =>
      if k = w.att || w.att = 4 then
        v.put k w.sample (p.free (freeKey 8 k 0 x y w.sample) % 2 ^ (8 * (attOf p.payload k).tile))
      else v) v) v

/-- A pixel after every primitive below a key (R400). -/
def Pass.pixel (p : Pass) (ts : List Setup) (x y : Nat) (below : Option (Nat × Nat)) (dsOnly : Bool) (v : PixVals) :
    Option PixVals :=
  (ts.foldl (fun a t => a.bind (fun v =>
    if (match below with | some k => !keyLt (t.order, t.prim) k | none => false) then some v
    else
      let c := p.coverage t x y
      if c = 0 then some v else p.stepPixel t x y c dsOnly v)) (some v)).map (p.openWrites ts x y)

/-- Address of a sample (R383). -/
def Pass.sampleVa (p : Pass) (k x y i : Nat) : Nat :=
  let a := attOf p.payload k
  a.va + y * a.pitch + (x * 2 ^ p.logS + i) * a.mem

/-- A sample of an attachment in memory: a free value where it is poisoned or not in local memory. -/
def State.loadSample (s : State) (p : Pass) (k x y i : Nat) : Except (Nat × Nat × Nat × Nat) Nat × State :=
  let a := attOf p.payload k
  match s.readVa p.agent p.asid (p.sampleVa k x y i) a.mem false none with
  | (.error f, s) => (.error f, s)
  | (.ok (b, bad), s) =>
    (.ok (if bad then p.free (freeKey 6 k 0 x y i) % 2 ^ (8 * a.tile) else getLe b 0 a.tile), s)

/-- A pixel as its tile starts (R381, R389, R396). -/
def State.startPixel (s : State) (p : Pass) (x y : Nat) : Except (Nat × Nat × Nat × Nat) PixVals × State :=
  let again := p.rendered.contains (y / p.tile * p.tilesX + x / p.tile)
  (List.range 5).foldl (fun st k =>
    match st with
    | (.error f, s) => (.error f, s)
    | (.ok v, s) =>
      let a := attOf p.payload k
      if a.format = 0 then (.ok (v ++ [[]]), s)
      else
        let r := (List.range (2 ^ p.logS)).foldl (fun (st : Except (Nat × Nat × Nat × Nat) (List Nat) × State) i =>
          match st with
          | (.error f, s) => (.error f, s)
          | (.ok l, s) =>
            if again || a.load = 0 then
              match s.loadSample p k x y i with
              | (.error f, s) => (.error f, s)
              | (.ok x, s) => (.ok (l ++ [x]), s)
            else if a.load = 1 then (.ok (l ++ [clearValue p.payload k]), s)
            else (.ok (l ++ [p.free (freeKey 7 k 0 x y i) % 2 ^ (8 * a.tile)]), s)) (.ok [], s)
        match r with
        | (.error f, s) => (.error f, s)
        | (.ok l, s) => (.ok (v ++ [l]), s)) (.ok [], s)

/-- Store a pixel's samples (R389): attachments whose STORE bit is set, or every one. -/
def State.storePixel (s : State) (p : Pass) (x y : Nat) (all : Bool) (v : PixVals) :
    Except (Nat × Nat × Nat × Nat) Unit × State :=
  (List.range 5).foldl (fun st k =>
    let a := attOf p.payload k
    if a.format = 0 || !(a.store || all) then st
    else (List.range (2 ^ p.logS)).foldl (fun (st : Except (Nat × Nat × Nat × Nat) Unit × State) i =>
      match st with
      | (.error f, s) => (.error f, s)
      | (.ok _, s) => s.writeVa p.agent p.asid (p.sampleVa k x y i) (leBytes a.tile (v.get k i)) false) st) (.ok (), s)

/-- What ends a render before it is done. -/
inductive RenderEnd where
  /-- a fragment has not been shaded yet -/
  | wait
  | fault (acc : Acc) (f : Nat × Nat × Nat × Nat)
  deriving DecidableEq, Repr

/-- Render and store one tile (R389). -/
def State.renderTile (s : State) (p : Pass) (ts : List Setup) (all : Bool) (tile : Nat × Nat) : Except RenderEnd Unit × State :=
  let xs := (List.range p.tile).map (fun i => tile.1 * p.tile + i) |>.filter (· < p.width)
  let ys := (List.range p.tile).map (fun j => tile.2 * p.tile + j) |>.filter (· < p.height)
  ys.foldl (fun st y => xs.foldl (fun (st : Except RenderEnd Unit × State) x =>
    match st with
    | (.error e, s) => (.error e, s)
    | (.ok _, s) => match s.startPixel p x y with
      | (.error f, s) => (.error (.fault accRead f), s)
      | (.ok v, s) => match p.pixel ts x y none false v with
        | none => (.error .wait, s)
        | some v => match s.storePixel p x y all v with
          | (.error f, s) => (.error (.fault accWrite f), s)
          | (.ok _, s) => (.ok (), s)) st) (.ok (), s)

/-- Render a list of tiles. -/
def State.renderTiles (s : State) (p : Pass) (all : Bool) (tiles : List (Nat × Nat)) : Except RenderEnd Unit × State :=
  let ts := p.setups
  tiles.foldl (fun st t => match st with
    | (.error e, s) => (.error e, s)
    | (.ok _, s) => s.renderTile p ts all t) (.ok (), s)

/-- Tiles with an entry in some manifest (R396). -/
def Pass.entered (p : Pass) : List (Nat × Nat) :=
  (p.engines.map (fun e => (p.tilesOf e).filter (fun t => p.fronts.any (fun f => mhas f.tails (t.2 * p.tilesX + t.1))))).flatten

/-- An incremental render ends once every fragment it needs is shaded (R396): the tiles are stored, the manifests are
empty, and binning goes on. -/
def State.settleIncrement (s : State) (id : Nat) : State :=
  match s.pass? id with
  | none => s
  | some p =>
    if p.phase ≠ .increment || !s.passRuns p then s
    else
      let tiles := p.entered
      match s.renderTiles p true tiles with
      | (.error .wait, _) => s
      | (.error (.fault acc f), t) =>
        let m := (p.members.head?.map (fun m => m.2)).getD { queue := 0, cmd := 0, granted := false, ended := none }
        -- the tiles rendered so far are rendered again from the start when the pass goes on
        ({ s with mmu := t.mmu }).stallPass id p m.queue m.cmd acc f
      | (.ok _, s) =>
        let p := { p with
          phase := .geometry, increments := p.increments + 1, chunks := [], frags := [], writes := []
          rendered := dedup (p.rendered ++ tiles.map (fun t => t.2 * p.tilesX + t.1))
          fronts := p.fronts.map (fun f => { f with binned := [], chunk := none, used := 0, stalled := none
                                                    drawsWritten := [], tails := [] }) }
        let n := controlBytes p.payload p.tile p.fronts.length - 0x1000
        let s := (s.writeVa p.agent p.asid (p.heapVa + 0x1000) (zeros n) false).2
        (s.modPass id (fun _ => p)).writePassState p

/-- Everything a pass can do by itself: bin, and end an incremental render. Two rounds let binning go on after one. -/
def State.runPass (s : State) (id : Nat) : State :=
  match s.pass? id with
  | none => s
  | some p => loop 2 s (fun s _ => (s.pump id p.rounds).settleIncrement id)

/-- An incremental render begins (R395, R396). -/
def State.startIncrement (s : State) (id : Nat) : State :=
  (s.modPass id (fun p => if p.phase = .geometry then { p with phase := .increment, growth := none } else p)).runPass id

/-- A growth record of a pass is answered with RETRY: stalled fronts try again (R395). -/
def State.retryGrowth (s : State) (id : Nat) : State :=
  (s.modPass id (fun p => { p with growth := none, fronts := p.fronts.map (fun f => { f with stalled := none }) })).runPass id

/-- The pass is abandoned at its stalled primitive (R395): that draw retires with E_PAGE_FAULT. -/
def State.abortGrowth (s : State) (id : Nat) : State :=
  match s.pass? id with
  | none => s
  | some p =>
    let d := (p.fronts.filterMap (fun f => f.stalled.bind (fun i => p.draws[i]?))).head?
    let s := match d with | some d => s.endCmd d.queue d.cmd ePageFault (p.growth.getD 0) | none => s
    s.abandonPass id ePassAbandoned

/-- GROW_WAIT_EXPIRY (R395): the record is closed and logged. -/
def execGrowWaitExpiry (pass : Nat) (s : State) : Out :=
  match s.pass? pass with
  | none => .next s
  | some p => match p.growth with
    | none => .next s
    | some g =>
      if !s.working || getLe p.payload 0x0C 4 = 0 then .next s
      else
        let s := s.closeFault g
        .next ((s.log 0x0D g (getLe p.payload 0 2) 0).startIncrement pass)

/-! ### Draws and the end of a pass -/

/-- DRAW (R384, R386, R393). -/
def execDraw (queue : Half) (s : State) : Out :=
  let q := queue.toNat
  match s.startable q 0x11 with
  | none => .next s
  | some (v, c) => match v.pass.bind (fun id => (s.pass? id).map (fun p => (id, p))) with
    | none => .next (s.refuseCmd q v c ePassAbandoned)
    | some (id, p) =>
      if !s.passRuns p then .next s
      else match s.readVa v.unit v.asid (getLe c.payload 0x28 8) 96 false none with
        | (.error f, s) => .next (s.stallPass id p q c.index accRead f)
        | (.ok (b, bad), s) =>
          if bad then .next (((s.beginCmd q v c).endCmd q c.index ePoison 0).abandonPass id ePassAbandoned)
          else
            let d : DrawRec := { engine := v.unit, queue := q, cmd := c.index, payload := c.payload, state := b
                                 fetched := [], outs := [], assembled := 0 }
            .next (((s.modPass id (fun p => { p with draws := p.draws ++ [d] })).beginCmd q v c).runPass id)

/-- PASS_END (R375, R393). -/
def execPassEnd (queue : Half) (s : State) : Out :=
  let q := queue.toNat
  match s.startable q 0x12 with
  | none => .next s
  | some (v, c) => match v.pass.bind (fun id => (s.pass? id).map (fun p => (id, p))) with
    | none => .next (s.refuseCmd q v c ePassAbandoned)
    | some (id, _) =>
      let s := s.modPass id (fun p => { p with members := mmod p.members v.unit (fun m => { m with ended := some c.index }) })
      .next ((s.beginCmd q v c).runPass id)

/-- TILES_PHASE_START (R376): every member has accepted PASS_END and every front has binned every primitive. -/
def execTilesPhaseStart (pass : Nat) (s : State) : Out :=
  match s.pass? pass with
  | none => .next s
  | some p =>
    if p.phase = .geometry && s.passRuns p && p.members.all (fun m => m.2.ended.isSome)
        && p.draws.all (fun d => d.prims ≤ d.assembled) && p.growth.isNone then
      .next (s.modPass pass (fun p => { p with phase := .tiles }))
    else .next s

/-- The commands of a finished pass end on every member (R376). -/
def State.finishPass (s : State) (id : Nat) (p : Pass) : State :=
  let s := p.members.foldl (fun s m =>
    match s.queue? m.2.queue with
    | none => s
    | some v =>
      let s := (passCmds v m.2).foldl (fun s c => s.endCmd m.2.queue c.index 0 0) s
      (s.modQueue m.2.queue (fun v => { v with pass := none })).modEng m.1 (fun v => { v with gfxHolds := merase v.gfxHolds id })) s
  let s := p.fronts.foldl (fun s f => s.progress (40 + f.quad) 1) s
  { s with passes := merase s.passes id }

/-- PASS_RETIREMENT (R376, R389): every member renders and stores its tiles; nothing while a fragment is not shaded. -/
def execPassRetirement (pass : Nat) (s : State) : Out :=
  match s.pass? pass with
  | none => .next s
  | some p =>
    if p.phase ≠ .tiles || !s.passRuns p then .next s
    else match s.renderTiles p false ((p.engines.map p.tilesOf).flatten) with
      | (.error .wait, _) => .next s
      | (.error (.fault acc f), t) =>
        let m := (p.members.head?.map (fun m => m.2)).getD { queue := 0, cmd := 0, granted := false, ended := none }
        .next (({ s with mmu := t.mmu }).stallPass pass p m.queue m.cmd acc f)
      | (.ok _, s) => .next (s.finishPass pass p)

/-- COMMAND_RETIRE (R321): the retirement actions of a queue's oldest command whose work is over; a pass that holds a
failed command is abandoned first (R379). -/
def execCommandRetire (queue : Half) (s : State) : Out := s.sweepPasses.retireFront queue.toNat

/-! ### Strings of a pass (R385) -/

/-- Index of a vertex (R384): 2 or 4 bytes of the index array, or its place. -/
def State.fetchIndex (s : State) (e : Nat) (asid : Nat) (d : DrawRec) (k : Nat) (ext : Option (List Byte)) :
    (Except (Nat × Nat × Nat × Nat) (Nat × Bool × Option (List Byte))) × State :=
  let va := getLe d.payload 0x20 8
  let n := if bit (getLe d.payload 0x31 1) 0 then 4 else 2
  if va = 0 then (.ok (k % d.count, false, ext), s)
  else match s.readVaX e asid (va + n * (k % d.count)) n false ext with
    | (.error f, s) => (.error f, s)
    | (.ok ((b, bad), rest), s) => (.ok (getLe b 0 n, bad, rest), s)

/-- Put one graphics string on an engine, with a workgroup of its own. -/
def State.launchString (s : State) (e : Nat) (d : DrawRec) (kind : StrKind) (regs8 : Nat) (entry : Nat) (lanes : Word)
    (vregs : Map Word) (pixels cover : Map Nat) : Option State :=
  let v := s.eng e
  let key := v.nextWg
  let st := fun (stamp : Word) =>
    { Str.launch d.queue d.cmd key kind (8 * regs8) stamp (BitVec.ofNat 64 entry) lanes vregs
        [(1, BitVec.ofNat 64 (getLe d.payload 0x18 8))] with pixels := pixels, coverage := cover }
  (v.launchAll [(8 * regs8, st)]).map (fun v =>
    let g : Wg := { queue := d.queue, cmd := d.cmd, index := 0, threads := popCount lanes.toNat 32, exited := 0, strings := 1
                    sharedSize := 0, shared := [], sharedSeed := s.clk.fresh, bars := [] }
    (s.setEng e { v with wgs := mset v.wgs key g, nextWg := key + 1 }).drew 1)

/-- Launch a vertex string (R385). -/
def State.launchVertex (s : State) (e pass order : Nat) (verts : List Nat) (ext : Option (List Byte)) : State :=
  match s.pass? pass with
  | none => s
  | some p => match p.draws.find? (fun d => d.order = order && d.engine = e) with
    | none => s
    | some d =>
      if p.phase ≠ .geometry || !s.passRuns p || verts.isEmpty || 32 < verts.length || !verts.Nodup
          || verts.any (fun k => d.count * d.instances ≤ k || mhas d.fetched k) then s
      else
        let r := verts.foldl (fun (st : (Except (Nat × Nat × Nat × Nat) (List Nat × Bool × Option (List Byte))) × State) k =>
          match st with
          | (.error f, s) => (.error f, s)
          | (.ok (l, bad, ext), s) => match s.fetchIndex e p.asid d k ext with
            | (.error f, s) => (.error f, s)
            | (.ok (i, b, ext), s) => (.ok (l ++ [i], bad || b, ext), s)) (.ok ([], false, ext), s)
        match r with
        | (.error f, s) => s.stallPass pass p d.queue d.cmd accRead f
        | (.ok (idx, bad, _), s) =>
          if bad then (s.endCmd d.queue d.cmd ePoison 0).abandonPass pass ePassAbandoned
          else
            let v0 := foldIdx idx ([] : Map Word) (fun m i x => mset m i (BitVec.ofNat 32 x))
            let v01 := foldIdx verts v0 (fun m i k => mset m (32 + i) (BitVec.ofNat 32 (k / d.count)))
            let px := foldIdx verts ([] : Map Nat) (fun m i k => mset m i k)
            let mark := fun (x : DrawRec) => if x.order = order && x.engine = e then
              { x with fetched := foldIdx verts x.fetched (fun m i k => mset m k (idx.getD i 0)) } else x
            match s.launchString e d (.vertex pass order) (getLe d.payload 0x32 1) (getLe d.payload 8 8)
                (lowLanes verts.length) v01 px [] with
            | none => s
            | some s => s.modPass pass (fun p => { p with draws := p.draws.map mark })

/-- The samples of a pixel that a primitive shades: its coverage, less those that fail an early test (R401). -/
def State.liveCover (s : State) (p : Pass) (ts : List Setup) (t : Setup) (x y : Nat) : Option Nat :=
  let c := p.coverage t x y
  if c = 0 || t.draw.fsDepth then some c
  else match (s.startPixel p x y).1 with
    | .error _ => none
    | .ok v => (p.pixel ts x y (some (t.order, t.prim)) true v).map (fun v =>
        if (p.testAll t c (fun i => p.depthAt t (attOf p.payload 4).format x y i) v).1 = 0 then 0 else c)

/-- Launch a fragment string of a primitive (R385): 2 × 2 quads on lanes 4q to 4q + 3. -/
def State.launchFragment (s : State) (e pass order prim : Nat) (quads : List Nat) : State :=
  match s.pass? pass with
  | none => s
  | some p =>
    let ts := p.setups
    match ts.find? (fun t => t.order = order && t.prim = prim) with
    | none => s
    | some t =>
      let px := (quads.map (fun q => (List.range 4).map (fun j =>
        (2 * (q % 65536) + j % 2, 2 * (q / 65536) + j / 2)))).flatten
      let done := fun (x y : Nat) => p.frags.any (fun f => f.order = order && f.prim = prim && f.x = x && f.y = y)
        || s.engines.any (fun g => g.2.strs.any (fun st => st.2.kind = .fragment pass order prim
          && st.2.pixels.any (fun q => q.2 = y * 65536 + x && mgetD st.2.coverage q.1 0 ≠ 0)))
      let cov := px.map (fun q => s.liveCover p ts t q.1 q.2)
      let mine := px.all (fun q => q.1 < p.width && q.2 < p.height → p.owner (q.1 / p.tile) (q.2 / p.tile) = some e)
      let live := px.zip (cov.map (fun c => c.getD 0))
      if (p.phase ≠ .tiles && p.phase ≠ .increment) || !s.passRuns p || !mine || cov.any (fun c => c.isNone)
          || quads.isEmpty || 8 < quads.length || !quads.Nodup || live.any (fun q => q.2 ≠ 0 && done q.1.1 q.1.2)
          || live.all (fun q => q.2 = 0) then s
      else
        let attrs := 4 * getLe t.draw.payload 0x34 1
        let regs := foldIdx live ([] : Map Word) (fun m i q =>
          let m := mset (mset m i (BitVec.ofNat 32 (q.1.1 + q.1.2 * 65536))) (32 + i) (BitVec.ofNat 32 q.2)
          loop attrs m (fun m k => mset m (32 * (2 + k) + i) (BitVec.ofNat 32 (p.free (freeKey 4 order prim q.1.1 q.1.2 k)))))
        let pixels := foldIdx live ([] : Map Nat) (fun m i q => mset m i (q.1.2 * 65536 + q.1.1))
        let cover := foldIdx live ([] : Map Nat) (fun m i q => if q.2 = 0 then m else mset m i q.2)
        (s.launchString e t.draw (.fragment pass order prim) (getLe t.draw.payload 0x33 1) (getLe t.draw.payload 0x10 8)
          (lowLanes (4 * quads.length)) regs pixels cover).getD s

/-- WORKGROUP_LAUNCH (R73, R385): the next workgroup of a dispatch, or a string of a draw. `ext` is what host memory
returns for an index array. -/
def execWorkgroupLaunch (engine : Fin 32) (launch : Launch) (ext : Option (List Byte)) (s : State) : Out :=
  let e := engine.val
  if !s.working || s.frozen e || s.fenced 0 e then .next s
  else match launch with
    | .compute i => match (s.eng e).disps[i]? with
      | some d => .next (s.launchCompute e d)
      | none => .next s
    | .vertex pass order verts => .next (s.launchVertex e pass order verts ext)
    | .fragment pass order prim quads => .next (s.launchFragment e pass order prim quads)

/-- STRING_FREE (R75, R76): every lane has exited and its stores are accepted. -/
def execStringFree (w : Site) (s : State) : Out :=
  let e := w.engine.val
  let pl := w.place.val
  match s.str? e pl with
  | none => .next s
  | some st =>
    if !s.working || s.frozen e || st.state ≠ .draining || s.strOwed e pl then .next s
    else
      let s := s.freeStr e pl st
      match st.kind with
      | .compute => .next (s.checkDisp e st.queue st.cmd)
      | .vertex pass _ => .next (s.runPass pass)
      | .fragment pass _ _ => .next (s.runPass pass)

end Sys2Proof.Machine
end

