-- ==== Sys2Proof/Machine/TileAccess.lean ====
section
/-! DEFINITION. Tile access, class 0xC (R404, R400, R157). The registers that an instruction names are those of log
entry 42. -/

namespace Sys2Proof.Machine

/-- The pass, the primitive and its setups behind a fragment string. -/
def State.fragOf (s : State) (st : Str) : Option (Nat × Pass × List Setup × Setup) :=
  match st.kind with
  | .fragment id order prim => (s.pass? id).bind (fun p =>
      let ts := p.setups
      (ts.find? (fun t => t.order = order && t.prim = prim)).map (fun t => (id, p, ts, t)))
  | _ => none

def Str.isFragment (st : Str) : Bool := match st.kind with | .fragment _ _ _ => true | _ => false

/-- What the tile holds at a lane's own pixel as its fragment sees it: after every lower primitive, its own early tests
and its own writes. None while a lower fragment has not been shaded (R400). -/
def Pass.ownPixel (p : Pass) (ts : List Setup) (t : Setup) (x y : Nat) (v : PixVals) : Option PixVals :=
  (p.pixel ts x y (some (t.order, t.prim)) false v).map (fun v =>
    let v := if t.draw.fsDepth then v
      else (p.testAll t (p.coverage t x y) (fun i => p.depthAt t (attOf p.payload 4).format x y i) v).2
    p.applyWrites t.order t.prim x y v)

/-- What one lane of a TLA reads. -/
inductive TileRead where
  | value (l : List Nat)
  /-- it waits by R400 -/
  | wait
  | fault (f : Nat × Nat × Nat × Nat)

/-- Registers of a sample value: four components, or depth and stencil. -/
def tileWords (f att v : Nat) : List Nat :=
  if att = 4 then [if hasDepth f then depthOf f v else 0, if hasStencil f then stencilOf f v else 0] else readColor f v

/-- One lane of TLA. An attachment or a sample that the pass does not have, and an unordered read that other primitives
can change, give open values. -/
def State.tlaLane (s : State) (p : Pass) (ts : List Setup) (t : Setup) (px att i : Nat) (ordered : Bool) :
    TileRead × State :=
  let x := px % 65536
  let y := px / 65536
  let f := (attOf p.payload att).format
  let open_ := (List.range 4).map (fun k => s.peek k % 2 ^ 32)
  if f = 0 || 2 ^ p.logS ≤ i || p.width ≤ x || p.height ≤ y then (.value open_, s.drew 4)
  else if !ordered && p.shared ts t.order t.prim x y then (.value open_, s.drew 4)
  else match s.startPixel p x y with
    | (.error e, s) => (.fault e, s)
    | (.ok v, s) => match p.ownPixel ts t x y v with
      | none => (.wait, s)
      | some v => (.value (tileWords f att (v.get att i)), s)

/-- TLA: reads an attachment sample of the lane's own pixel (R404). -/
def execTla (w : Site) (h : Hdr) (att : Fin 5) (sample : Fin 8) (ordered : Bool) (s : State) : Out :=
  let n := if att.val = 4 then 2 else 4
  let frag := match s.str? w.engine.val w.place.val with | some st => st.isFragment | none => true
  let u : Use := { use0 with wv := regs h.dst.toNat n, ok := h.dst.toNat % n = 0 }
  s.issue w h 0xC frag u (fun a t =>
    match t.fragOf a.str with
    | none => s
    | some (id, p, ts, own) =>
      if !t.passRuns p then s
      else
        let r := (lanesOf a.lanes).foldl (fun (r : (Except TileRead Str) × State) i =>
          match r.1 with
          | .error e => (.error e, r.2)
          | .ok st => match r.2.tlaLane p ts own (mgetD st.pixels i 0) att.val sample.val ordered with
            | (.value l, t) => (.ok (st.setVn h.dst.toNat i n (foldIdx l 0 (fun a k x => a + x * 2 ^ (32 * k)))), t)
            | (e, t) => (.error e, t)) (.ok a.str.step, t)
        match r with
        | (.ok st, t) => t.setStr a.e a.place (st.pend u.writes)
        | (.error (.fault f), t) => ({ s with mmu := t.mmu }).stallPass id p a.str.queue a.str.cmd accRead f
        | (.error _, _) => s)

/-- May a fragment's ordered operation on a pixel go on (R400)? -/
def State.orderedReady (s : State) (p : Pass) (ts : List Setup) (t : Setup) (px : Nat) : Bool :=
  match s.startPixel p (px % 65536) (px / 65536) with
  | (.ok v, _) => (p.ownPixel ts t (px % 65536) (px / 65536) v).isSome
  | (.error _, _) => false

/-- TSA: writes an attachment sample of the lane's own pixel (R404); helper lanes write nothing (R385). -/
def execTsa (w : Site) (h : Hdr) (att : Fin 5) (sample : Fin 8) (ordered : Bool) (s : State) : Out :=
  let n := if att.val = 4 then 2 else 4
  let frag := match s.str? w.engine.val w.place.val with | some st => st.isFragment | none => true
  let u : Use := { use0 with rv := regs h.src0.toNat n, ok := h.src0.toNat % n = 0 }
  s.issue w h 0xC frag u (fun a t =>
    match t.fragOf a.str with
    | none => s
    | some (id, p, ts, own) =>
      let a := a.writers t 0 0
      let f := (attOf p.payload att.val).format
      let lanes := lanesOf a.lanes
      if !t.passRuns p || (ordered && lanes.any (fun i => !t.orderedReady p ts own (mgetD a.str.pixels i 0))) then s
      else
        let word := fun (i k : Nat) => (a.str.v (h.src0.toNat + k) i).toNat
        let value := fun (i : Nat) =>
          if att.val = 4 then packDs f (if hasDepth f then depthCode f (word i 0) else 0) (if hasStencil f then word i 1 % 256 else 0)
          else writeColor f 0 15 ((List.range 4).map (word i))
        let new := lanes.map (fun i =>
          let px := mgetD a.str.pixels i 0
          ({ order := own.order, prim := own.prim, x := px % 65536, y := px / 65536, att := att.val
             sample := sample.val, value := value i, ordered := ordered } : TileWrite))
        let new := if f = 0 || 2 ^ p.logS ≤ sample.val then [] else new
        (t.modPass id (fun p => { p with writes := p.writes ++ new })).setStr a.e a.place a.str.step)

/-! ### TLDR and TSTR -/

/-- Bytes of tile memory at an offset: open where a running pass lays out its tiles, and beyond 4 MiB. -/
def State.tileBytes (s : State) (e off n : Nat) : List Byte × State :=
  let v := s.eng e
  let held := v.gfxHolds.foldl (fun m p => m + p.2) 0
  if off / 262144 < held || 2 ^ 22 < off + n then (leBytes n (s.peek 0), s.drew 1)
  else ((List.range n).map (fun k => v.tileByte (off + k)), s)

/-- Regions that running tensor instructions of an engine read or write (R157). -/
def Eng.runningRegions (v : Eng) (e : Nat) : List Desc :=
  ((v.tensors.filter (fun t => t.started)).map (fun t => t.reads e ++ t.writes e)).flatten

/-- Write tile memory at an offset; a region that a running tensor instruction uses becomes open (R157). -/
def State.setTileBytes (s : State) (e off : Nat) (l : List Byte) : State :=
  if 2 ^ 22 < off + l.length then s
  else
    let s := s.modEng e (fun v => foldIdx l v (fun v k b => v.setTile (off + k) b))
    let hit := ((s.eng e).runningRegions e).filter (fun d => d.ranges.any (fun x => x.1 < off + l.length && off < x.2))
    hit.foldl (fun s d => d.ranges.foldl (fun s x =>
      (s.modEng e (fun v => loop (x.2 - x.1) v (fun v k => v.setTile (x.1 + k) (BitVec.ofNat 8 (s.peek k))))).drew (x.2 - x.1)) s) s

/-- TLDR: 32, 64 or 128 bits per lane from a tile-memory byte offset (R404). -/
def execTldr (w : Site) (h : Hdr) (size : Fin 3) (s : State) : Out :=
  let n := 2 ^ (size.val + 2)
  let u : Use := { use0 with
    rv := [h.src0.toNat], wv := regs h.dst.toNat (n / 4), ok := h.dst.toNat % (n / 4) = 0 }
  s.issue w h 0xC true u (fun a s =>
    let off := fun (i : Nat) => (a.str.v h.src0.toNat i).toNat
    if (lanesOf a.lanes).any (fun i => off i % n ≠ 0) then s.trap a.e a.str.queue a.str.cmd eMisaligned 0
    else
      let r := (lanesOf a.lanes).foldl (fun (r : Str × State) i =>
        let (b, s) := r.2.tileBytes a.e (off i) n
        (r.1.setVn h.dst.toNat i (n / 4) (leNat b), s)) (a.str.step, s)
      r.2.setStr a.e a.place (r.1.pend u.writes))

/-- TSTR: 32, 64 or 128 bits per lane to a tile-memory byte offset (R404). -/
def execTstr (w : Site) (h : Hdr) (size : Fin 3) (s : State) : Out :=
  let n := 2 ^ (size.val + 2)
  let u : Use := { use0 with
    rv := h.src0.toNat :: regs h.src1.toNat (n / 4), ok := h.src1.toNat % (n / 4) = 0 }
  s.issue w h 0xC true u (fun a s =>
    let a := a.writers s 0 0
    let off := fun (i : Nat) => (a.str.v h.src0.toNat i).toNat
    if (lanesOf a.lanes).any (fun i => off i % n ≠ 0) then s.trap a.e a.str.queue a.str.cmd eMisaligned 0
    else ((lanesOf a.lanes).foldl (fun s i =>
      s.setTileBytes a.e (off i) (leBytes n (a.str.vn h.src1.toNat i (n / 4)))) s).setStr a.e a.place a.str.step)

end Sys2Proof.Machine
end

