-- ==== Sys2Proof/Machine/Texture.lean ====
section
/-! DEFINITION. Textures, class 0x5 (R405 to R408): descriptors, texel formats and layout, addressing, level choice,
sampling. Registers that the encodings name are those of log entry 42; format numbers, addressing and level formulas
are Vulkan's (R406, R407). -/

namespace Sys2Proof.Machine

/-! ### Descriptors -/

/-- Image descriptor (R406). -/
structure ImgDesc where
  base : Nat
  width : Nat
  height : Nat
  depth : Nat
  levels : Nat
  /-- 0 2D, 1 3D, 2 cube, 3 1D -/
  type : Nat
  array : Bool
  format : Nat
  swizzle : Nat
  pitch : Nat
  minLevel : Nat
  deriving DecidableEq, Repr

def imgOf (b : List Byte) : ImgDesc :=
  { base := getLe b 0 8, width := getLe b 8 2 + 1, height := getLe b 0xA 2 + 1, depth := getLe b 0xC 2 + 1
    levels := getLe b 0xE 1 + 1, type := getLe b 0xF 1 % 4, array := bit (getLe b 0xF 1) 2, format := getLe b 0x10 4
    swizzle := getLe b 0x14 4 % 4096, pitch := getLe b 0x18 4, minLevel := getLe b 0x1C 1 }

/-- Sampler descriptor (R407). -/
structure SmpDesc where
  filter : Nat
  mode : List Nat
  compare : Nat
  border : Nat
  bias : Int
  minLod : Int
  maxLod : Int
  deriving DecidableEq, Repr

def smpOf (b : List Byte) : SmpDesc :=
  { filter := getLe b 0 1, mode := [getLe b 1 1, getLe b 2 1, getLe b 3 1], compare := getLe b 4 1, border := getLe b 5 1
    bias := sext 16 (getLe b 6 2), minLod := getLe b 8 2, maxLod := getLe b 0xA 2 }

def SmpDesc.magLinear (m : SmpDesc) : Bool := bit m.filter 0
def SmpDesc.minLinear (m : SmpDesc) : Bool := bit m.filter 1
def SmpDesc.mipLinear (m : SmpDesc) : Bool := bit m.filter 2
def SmpDesc.mipOff (m : SmpDesc) : Bool := bit m.filter 3
def SmpDesc.compares (m : SmpDesc) : Bool := bit m.compare 3
/-- log2 of the maximum anisotropy. -/
def SmpDesc.aniso (m : SmpDesc) : Nat := min 4 (bits m.filter 6 4)

/-! ### Texel formats (R406: VkFormat) -/

/-- How a component is stored. -/
inductive TexKind where
  | col (k : CompKind)
  | snorm (n : Nat)
  | uint (n : Nat)
  | sint (n : Nat)
  deriving DecidableEq, Repr

def TexKind.width (k : TexKind) : Nat :=
  match k with
  | .col c => c.width
  | .snorm n => n
  | .uint n => n
  | .sint n => n

def TexKind.isInt (k : TexKind) : Bool := match k with | .uint _ => true | .sint _ => true | _ => false

/-- A component's 32-bit result. -/
def TexKind.read (k : TexKind) (c : Nat) : Nat :=
  match k with
  | .col k => k.read c
  | .snorm n =>
    let i := max (sext n c) (-(2 ^ (n - 1) - 1 : Nat))
    ratF32 (i < 0) i.natAbs (2 ^ (n - 1) - 1)
  | .uint n => c % 2 ^ n
  | .sint n => wrapInt 32 (sext n c)

/-- What a texel or block is: bytes, block width and height; components from the lowest bit up with the channel each
gives (0 R, 1 G, 2 B, 3 A); none for a format that the opaque decoder reads. -/
structure TexFmt where
  bytes : Nat
  bw : Nat
  bh : Nat
  comps : Option (List (Nat × TexKind))
  deriving DecidableEq, Repr

/-- n equal components R, G, B, A. -/
def equalComps (n : Nat) (k : TexKind) : Option (List (Nat × TexKind)) := some ((List.range n).map (fun i => (i, k)))
def unormT (n : Nat) : TexKind := .col (.unorm n)
def half16 : TexKind := .col (.flt fmtFP16)
def float32 : TexKind := .col (.flt fmtFP32)

/-- Block dimensions of the ASTC formats in VkFormat order. -/
def astcDims : List (Nat × Nat) :=
  [(4, 4), (5, 4), (5, 5), (6, 5), (6, 6), (8, 5), (8, 6), (8, 8), (10, 5), (10, 6), (10, 8), (10, 10), (12, 10), (12, 12)]

/-- The formats of R406 by VkFormat value: those whose sampled-image support Vulkan 1.3 requires (log entry 40), and the
ETC2, EAC and ASTC LDR 2D formats. -/
def texFmt (f : Nat) : Option TexFmt :=
  let plain := fun (n : Nat) (c : Option (List (Nat × TexKind))) => some (⟨n, 1, 1, c⟩ : TexFmt)
  let rgba8 : List (Nat × TexKind) := [(0, .col .srgb), (1, .col .srgb), (2, .col .srgb), (3, unormT 8)]
  match f with
  | 3 => plain 2 (some [(3, unormT 4), (0, unormT 4), (1, unormT 4), (2, unormT 4)])
  | 4 => plain 2 (some [(2, unormT 5), (1, unormT 6), (0, unormT 5)])
  | 8 => plain 2 (some [(2, unormT 5), (1, unormT 5), (0, unormT 5), (3, unormT 1)])
  | 9 => plain 1 (equalComps 1 (unormT 8))
  | 10 => plain 1 (equalComps 1 (.snorm 8))
  | 13 => plain 1 (equalComps 1 (.uint 8))
  | 14 => plain 1 (equalComps 1 (.sint 8))
  | 16 => plain 2 (equalComps 2 (unormT 8))
  | 17 => plain 2 (equalComps 2 (.snorm 8))
  | 20 => plain 2 (equalComps 2 (.uint 8))
  | 21 => plain 2 (equalComps 2 (.sint 8))
  | 37 => plain 4 (equalComps 4 (unormT 8))
  | 38 => plain 4 (equalComps 4 (.snorm 8))
  | 41 => plain 4 (equalComps 4 (.uint 8))
  | 42 => plain 4 (equalComps 4 (.sint 8))
  | 43 => plain 4 (some rgba8)
  | 44 => plain 4 (some [(2, unormT 8), (1, unormT 8), (0, unormT 8), (3, unormT 8)])
  | 50 => plain 4 (some [(2, .col .srgb), (1, .col .srgb), (0, .col .srgb), (3, unormT 8)])
  | 51 => plain 4 (equalComps 4 (unormT 8))
  | 52 => plain 4 (equalComps 4 (.snorm 8))
  | 55 => plain 4 (equalComps 4 (.uint 8))
  | 56 => plain 4 (equalComps 4 (.sint 8))
  | 57 => plain 4 (some rgba8)
  | 64 => plain 4 (some [(0, unormT 10), (1, unormT 10), (2, unormT 10), (3, unormT 2)])
  | 68 => plain 4 (some [(0, .uint 10), (1, .uint 10), (2, .uint 10), (3, .uint 2)])
  | 74 => plain 2 (equalComps 1 (.uint 16))
  | 75 => plain 2 (equalComps 1 (.sint 16))
  | 76 => plain 2 (equalComps 1 half16)
  | 81 => plain 4 (equalComps 2 (.uint 16))
  | 82 => plain 4 (equalComps 2 (.sint 16))
  | 83 => plain 4 (equalComps 2 half16)
  | 95 => plain 8 (equalComps 4 (.uint 16))
  | 96 => plain 8 (equalComps 4 (.sint 16))
  | 97 => plain 8 (equalComps 4 half16)
  | 98 => plain 4 (equalComps 1 (.uint 32))
  | 99 => plain 4 (equalComps 1 (.sint 32))
  | 100 => plain 4 (equalComps 1 float32)
  | 101 => plain 8 (equalComps 2 (.uint 32))
  | 102 => plain 8 (equalComps 2 (.sint 32))
  | 103 => plain 8 (equalComps 2 float32)
  | 107 => plain 16 (equalComps 4 (.uint 32))
  | 108 => plain 16 (equalComps 4 (.sint 32))
  | 109 => plain 16 (equalComps 4 float32)
  | 122 => plain 4 (some [(0, .col (.uflt ⟨5, 6, 15, .ieee⟩)), (1, .col (.uflt ⟨5, 6, 15, .ieee⟩)), (2, .col (.uflt ⟨5, 5, 15, .ieee⟩))])
  | 123 => plain 4 none
  | 124 => plain 2 (equalComps 1 (unormT 16))
  | 126 => plain 4 (equalComps 1 float32)
  | _ =>
    if 147 ≤ f && f ≤ 156 then some ⟨if f = 151 || f = 152 || 155 ≤ f then 16 else 8, 4, 4, none⟩
    else if 157 ≤ f && f ≤ 184 then
      (let d := astcDims.getD ((f - 157) / 2) (4, 4); some ⟨16, d.1, d.2, none⟩)
    else none

/-- Four components of texel i of a block's bytes. -/
def TexFmt.decode (t : TexFmt) (f : Nat) (b : List Byte) (i : Nat) : List Nat :=
  match t.comps with
  | some cs =>
    let w := leNat b
    let one := if cs.any (fun c => c.2.isInt) then 1 else one32
    let r := cs.foldl (fun (a : Map Nat × Nat) c => (mset a.1 c.1 (c.2.read (w / 2 ^ a.2 % 2 ^ c.2.width)), a.2 + c.2.width)) ([], 0)
    (List.range 4).map (fun k => mgetD r.1 k (if k = 3 then one else 0))
  | none =>
    if f = 123 then
      -- E5B9G9R9: mantissa × 2^(exponent - 24)
      let w := leNat b
      let x := bits w 31 27
      ((List.range 3).map (fun k => fmtFP32.ieee (.fin false (bits w (9 * k + 8) (9 * k)) ((x : Int) - 24)))) ++ [one32]
    else (List.range 4).map (fun k => ((Config.texelDecode f b i).getD k 0).toNat)

/-- Does a format give integers? -/
def TexFmt.isInt (t : TexFmt) : Bool := match t.comps with | some cs => cs.any (fun c => c.2.isInt) | none => false

/-! ### Layout (R406) -/

/-- A dimension at a level. -/
def levelDim (n l : Nat) : Nat := max 1 (n / 2 ^ l)
def ImgDesc.w (d : ImgDesc) (l : Nat) : Nat := levelDim d.width l
def ImgDesc.h (d : ImgDesc) (l : Nat) : Nat := if d.type = 3 then 1 else levelDim d.height l
/-- Depth of a level of a 3D image, 1 otherwise. -/
def ImgDesc.z (d : ImgDesc) (l : Nat) : Nat := if d.type = 1 then levelDim d.depth l else 1
/-- Layers, six for a cube. -/
def ImgDesc.layers (d : ImgDesc) : Nat :=
  if d.type = 1 then 1 else if d.type = 2 then (if d.array then d.depth else 6) else if d.array then d.depth else 1

/-- Region of a page in texels or blocks. -/
def pageRegion (bytes : Nat) : Nat × Nat :=
  match bytes with
  | 1 => (64, 64)
  | 2 => (64, 32)
  | 4 => (32, 32)
  | 8 => (32, 16)
  | _ => (16, 16)

/-- Pages across and down of one slice of a level. -/
def ImgDesc.pages (d : ImgDesc) (t : TexFmt) (l : Nat) : Nat × Nat :=
  let (rw, rh) := pageRegion t.bytes
  let bx := (d.w l + t.bw - 1) / t.bw
  let by_ := (d.h l + t.bh - 1) / t.bh
  ((bx + rw - 1) / rw, (by_ + rh - 1) / rh)

def ImgDesc.levelBytes (d : ImgDesc) (t : TexFmt) (l : Nat) : Nat :=
  let (px, py) := d.pages t l
  4096 * px * py * d.z l

/-- Bytes of the levels below l. -/
def ImgDesc.levelOff (d : ImgDesc) (t : TexFmt) (l : Nat) : Nat := (List.range l).foldl (fun a k => a + d.levelBytes t k) 0

/-- Address of the block that holds a texel, and the texel's index in it; none where the layout is not stated (a linear
image has one level and one layer). -/
def ImgDesc.addr (d : ImgDesc) (t : TexFmt) (x y z layer l : Nat) : Option (Nat × Nat) :=
  let bx := x / t.bw
  let by_ := y / t.bh
  let sub := y % t.bh * t.bw + x % t.bw
  if d.pitch ≠ 0 then
    if l = 0 && z = 0 && layer = 0 then some (d.base + by_ * d.pitch + bx * t.bytes, sub) else none
  else
    let (rw, rh) := pageRegion t.bytes
    let (px, py) := d.pages t l
    let page := (z * py + by_ / rh) * px + bx / rw
    some (d.base + layer * d.levelOff t d.levels + d.levelOff t l + 4096 * page
      + (by_ % rh * rw + bx % rw) * t.bytes, sub)

/-! ### Addressing (R407) -/

/-- Texel coordinate after a VkSamplerAddressMode; none is the border. -/
def wrapTexel (mode : Nat) (i : Int) (n : Nat) : Option Nat :=
  let mirror := fun (k : Int) => if 0 ≤ k then k else -(1 + k)
  let clamp := fun (k : Int) => (max 0 (min k (n - 1))).toNat
  match mode with
  | 0 => some (i % (n : Int)).toNat
  | 1 => some ((n : Int) - 1 - mirror (i % (2 * n : Int) - n)).toNat
  | 2 => some (clamp i)
  | 3 => if 0 ≤ i && i < n then some i.toNat else none
  | _ => some (clamp (mirror i))

/-- An exact quotient. -/
structure Quot where
  num : Int
  den : Nat
  deriving DecidableEq, Repr

def quotOf (w : Nat) : Option Quot := (finite32 w).map (fun d =>
  if 0 ≤ d.e then ⟨d.at 0, 1⟩ else ⟨d.m, 2 ^ (-d.e).toNat⟩)

/-- A coordinate scaled to a dimension, in 1/256 of a texel: rounded down or up where it is not exact, since the rounding
is not stated (R408: 8 fractional bits). -/
def Quot.scaled (q : Quot) (n : Nat) (free : Nat) : Int := ratOpen (q.num * (256 * n : Nat)) q.den free

/-! ### One sample -/

/-- Face and face coordinates of a cube direction (Vulkan, table of cube map faces); none for the zero vector. -/
def cubeFace (x y z : Quot) : Option (Nat × Quot × Quot) :=
  let k := x.den * y.den * z.den
  let ax := x.num * (k / x.den : Nat)
  let ay := y.num * (k / y.den : Nat)
  let az := z.num * (k / z.den : Nat)
  let st := fun (f : Nat) (sc tc ma : Int) => (f, (⟨sc + ma.natAbs, 2 * ma.natAbs⟩ : Quot), (⟨tc + ma.natAbs, 2 * ma.natAbs⟩ : Quot))
  if ax = 0 && ay = 0 && az = 0 then none
  else if ax.natAbs ≤ az.natAbs && ay.natAbs ≤ az.natAbs then
    some (if 0 ≤ az then st 4 ax (-ay) az else st 5 (-ax) (-ay) az)
  else if ax.natAbs ≤ ay.natAbs then some (if 0 ≤ ay then st 2 ax az ay else st 3 ax (-az) ay)
  else some (if 0 ≤ ax then st 0 (-az) (-ay) ax else st 1 az (-ay) ax)

/-- Where a lane samples: coordinates and layer; none where a coordinate is not finite. -/
def texPoint (d : ImgDesc) (c : List Nat) : Option (List Quot × Nat) :=
  let q := fun (k : Nat) => quotOf (c.getD k 0)
  let layer := fun (k : Nat) => if !d.array then some 0 else
    (finite32 (c.getD k 0)).map (fun v => if v.m < 0 then 0 else min (roundTo .rne v.m.natAbs v.e) (d.layers - 1))
  match d.type with
  | 0 => match q 0, q 1, layer 2 with | some u, some v, some l => some ([u, v], l) | _, _, _ => none
  | 1 => match q 0, q 1, q 2 with | some u, some v, some w => some ([u, v, w], 0) | _, _, _ => none
  | 2 => match q 0, q 1, q 2 with
    | some x, some y, some z => (cubeFace x y z).bind (fun f =>
        if !d.array then some ([f.2.1, f.2.2], f.1)
        else (finite32 (c.getD 3 0)).map (fun v =>
          ([f.2.1, f.2.2], min (6 * (if v.m < 0 then 0 else roundTo .rne v.m.natAbs v.e) + f.1) (d.layers - 1))))
    | _, _, _ => none
  | _ => match q 0, layer 1 with | some u, some l => some ([u], l) | _, _ => none

/-- A texel to fetch, or the border. -/
abbrev Texel := Option (Nat × Nat)

/-- What a lane of a texture instruction does. -/
structure TexPlan where
  /-- texels it fetches: none is the border colour -/
  texels : List Texel
  /-- the result is the first texel; otherwise it is open -/
  exact : Bool
  /-- TG4 -/
  gather : Bool
  taps : Nat
  deriving DecidableEq, Repr

/-- Texel coordinates of one axis: lower, upper, and the weight of the upper one in 1/256; nearest has weight 0. -/
def axis (q : Quot) (n : Nat) (linear : Bool) (free : Nat) : Int × Int × Int :=
  let u := q.scaled n free
  if linear then ((u - 128) / 256, (u - 128) / 256 + 1, (u - 128) % 256) else (u / 256, u / 256, 0)

/-- The footprint of a point at one level: texels, and whether a single one has all the weight. -/
def ImgDesc.footprint (d : ImgDesc) (t : TexFmt) (m : SmpDesc) (pt : List Quot × Nat) (l : Nat) (linear : Bool)
    (free : Nat → Nat) : List Texel × Bool :=
  let dims := [d.w l, d.h l, d.z l]
  let ax := foldIdx pt.1 ([] : List (Int × Int × Int)) (fun acc i q => acc ++ [axis q (dims.getD i 1) linear (free i)])
  let pick := fun (i : Nat) (hi : Bool) =>
    let a := ax.getD i (0, 0, 0)
    wrapTexel (if d.type = 2 then 2 else m.mode.getD i 0) (if hi then a.2.1 else a.1) (dims.getD i 1)
  let at_ := fun (hx hy hz : Bool) => match pick 0 hx, pick 1 hy, pick 2 hz with
    | some x, some y, some z => d.addr t x y z pt.2 l
    | _, _, _ => none
  let n := pt.1.length
  let one := ax.all (fun a => a.2.2 = 0)
  if !linear || one then ([at_ false false false], true)
  else ((List.range (2 ^ n)).map (fun k => at_ (bit k 0) (bit k 1) (bit k 2)), false)

/-- Level of detail in 1/256: bias, clamps (R407). -/
def SmpDesc.lod (m : SmpDesc) (base bias : Int) : Int := max m.minLod (min m.maxLod (base + bias + m.bias))

/-- Level of an image for a level of detail, and whether two levels are blended; `free` decides an exact half. -/
def ImgDesc.level (d : ImgDesc) (m : SmpDesc) (lod : Int) (free : Nat) : Nat × Bool :=
  let top := d.levels - 1 - d.minLevel
  let lod := (max 0 lod).toNat
  if m.mipOff then (d.minLevel, false)
  else if m.mipLinear then (d.minLevel + min top (lod / 256), lod % 256 ≠ 0 && lod / 256 < top)
  else (d.minLevel + min top (if lod % 256 = 128 then (lod / 256 + free % 2) else (lod + 128) / 256), false)

/-- Plan of a filtered sample at a level of detail. -/
def ImgDesc.plan (d : ImgDesc) (t : TexFmt) (m : SmpDesc) (pt : List Quot × Nat) (lod : Int) (aniso : Nat)
    (free : Nat → Nat) : TexPlan :=
  let linear := if lod ≤ 0 then m.magLinear else m.minLinear
  let (l, two) := d.level m lod (free 0)
  let a := d.footprint t m pt l linear (fun i => free (1 + i))
  let b := if two then d.footprint t m pt (l + 1) linear (fun i => free (4 + i)) else ([], true)
  { texels := a.1 ++ b.1, exact := a.2 && !two && aniso = 0, gather := false
    taps := 2 ^ aniso * (if two then 2 else 1) }

/-- The four texels of a bilinear footprint in Vulkan's gather order (log entry 42). -/
def ImgDesc.gather (d : ImgDesc) (t : TexFmt) (m : SmpDesc) (pt : List Quot × Nat) (free : Nat → Nat) : List Texel :=
  let l := min d.minLevel (d.levels - 1)
  let dims := [d.w l, d.h l]
  let ax := foldIdx pt.1 ([] : List (Int × Int × Int)) (fun acc i q => acc ++ [axis q (dims.getD i 1) true (free i)])
  let pick := fun (i : Nat) (hi : Bool) =>
    let a := ax.getD i (0, 0, 0)
    wrapTexel (if d.type = 2 then 2 else m.mode.getD i 0) (if hi then a.2.1 else a.1) (dims.getD i 1)
  [(false, true), (true, true), (true, false), (false, false)].map (fun h =>
    match pick 0 h.1, pick 1 h.2 with
    | some x, some y => d.addr t x y 0 pt.2 l
    | _, _ => none)

/-! ### Results -/

/-- A component after the swizzle; none for a reserved source. -/
def swizzle (sw : Nat) (isInt : Bool) (c : List Nat) (k : Nat) : Option Nat :=
  match bits sw (3 * k + 2) (3 * k) with
  | 0 => some 0
  | 1 => some (if isInt then 1 else one32)
  | 2 => some (c.getD 0 0)
  | 3 => some (c.getD 1 0)
  | 4 => some (c.getD 2 0)
  | 5 => some (c.getD 3 0)
  | _ => none

/-- Border colour (R407). -/
def SmpDesc.borderColor (m : SmpDesc) (isInt : Bool) : List Nat :=
  let one := if isInt then 1 else one32
  match m.border with
  | 0 => [0, 0, 0, 0]
  | 1 => [0, 0, 0, one]
  | _ => [one, one, one, one]

/-- A texel's four components: with a depth comparison, the outcome as R. -/
def SmpDesc.result (m : SmpDesc) (f ref : Nat) (c : List Nat) : List Nat :=
  if !m.compares then c
  else
    let r := fmtFP32.decode (if f = 124 then clamp01 ref else ref)
    let v := fmtFP32.decode (c.getD 0 0)
    [if vkCompare (bits m.compare 2 0) (r.lt v) (r.eqv v) then one32 else 0, 0, 0, one32]

/-- Four results in registers: four words, or FP16 packed in two. -/
def packTex (packed isInt : Bool) (c : List Nat) (free : Nat) : Nat :=
  if !packed then foldIdx c 0 (fun a k x => a + x % 2 ^ 32 * 2 ^ (32 * k))
  else if isInt then free % 2 ^ 64
  else foldIdx c 0 (fun a k x => a + fmtFP16.ieee (fmtFP32.decode x) * 2 ^ (16 * k))

/-- Bytes of a translated lane address: through the engine's L1, or from the operand for host and remote pages. -/
def State.texRead (s : State) (e : Nat) (x : LaneAddr) (n : Nat) (ext : Option (List Byte)) :
    (List Byte × Bool × Option (List Byte)) × State :=
  if x.target = 0 then let ((b, bad), s) := s.l1Read e x.pa n x.pol x.ro; ((b, bad, ext), s)
  else ((slice (ext.getD []) 0 n, ext.isNone, ext.map (fun l => l.drop n)), s)

/-- Descriptors read at issue. -/
structure TexEnv where
  img : ImgDesc
  smp : SmpDesc
  fmt : Option TexFmt
  ext : Option (List Byte)

/-- What stops a texture instruction. -/
inductive TexStop where
  | fault (f : Nat × Nat × Nat × Nat)
  | trap (err : Nat)

/-- Read the descriptors (R405 to R407). -/
def State.texEnv (s : State) (a : Act) (t : TexOps) (sampler : Bool) (ext : Option (List Byte)) :
    Except TexStop TexEnv × State :=
  let asid := (s.ctxOf a.str.queue a.str.cmd).1
  let iv := (a.str.u (2 * t.image.val)).toNat
  let sv := (a.str.u (2 * t.sampler.val)).toNat
  if iv % 32 ≠ 0 || (sampler && sv % 16 ≠ 0) then (.error (.trap eMisaligned), s)
  else match s.readVaX a.e asid iv 32 false ext with
    | (.error f, s) => (.error (.fault f), s)
    | (.ok ((ib, ibad), ext), s) =>
      let d := imgOf ib
      if ibad then (.error (.trap ePoison), s)
      else if !sampler then (.ok ⟨d, smpOf [], texFmt d.format, ext⟩, s)
      else match s.readVaX a.e asid sv 16 false ext with
        | (.error f, s) => (.error (.fault f), s)
        | (.ok ((sb, sbad), ext), s) =>
          if sbad then (.error (.trap ePoison), s) else (.ok ⟨d, smpOf sb, texFmt d.format, ext⟩, s)

/-- Stop a texture instruction: park, or fail the dispatch. -/
def State.texStop (s : State) (a : Act) (x : TexStop) : State :=
  match x with
  | .fault f => s.park a f.1 accRead f.2.2.2 f.2.1 f.2.2.1 0 0
  | .trap err => s.trap a.e a.str.queue a.str.cmd err 0

/-- Is a descriptor of a form that R406 describes? -/
def ImgDesc.stated (d : ImgDesc) : Bool :=
  d.levels ≤ 15 && d.minLevel < d.levels && d.base % 4096 = 0 && d.pitch % 64 = 0
  && (d.pitch = 0 || (d.levels = 1 && d.layers = 1 && d.type ≠ 1))

/-- One lane's result from the texels it read. -/
def texResult (v : TexEnv) (t : TexOps) (p : TexPlan) (ref : Nat) (texels : List (List Nat)) (free : Nat → Nat) : Nat :=
  let isInt := match v.fmt with | some f => f.isInt | none => false
  let sw := fun (c : List Nat) (k : Nat) => (swizzle v.img.swizzle isInt c k).getD (free k % 2 ^ 32)
  let out :=
    if p.gather then texels.map (fun c => sw (v.smp.result v.img.format ref c) t.comp.val)
    else if p.exact then (match texels with
      | c :: _ => (List.range 4).map (sw (v.smp.result v.img.format ref c))
      | [] => (List.range 4).map (fun k => free k % 2 ^ 32))
    else (List.range 4).map (fun k => free k % 2 ^ 32)
  packTex t.packed isInt out (free 4)

/-- Fetch the planned texels of every lane and write the results; free values of a lane start at 32 × lane. -/
def State.texRun (s : State) (a : Act) (t : TexOps) (v : TexEnv) (plans : List (Nat × TexPlan)) (u : Use) : State :=
  let bytes := match v.fmt with | some f => f.bytes | none => 4
  let addrs := (plans.map (fun p => p.2.texels.filterMap (fun x => x.map (fun y => (p.1, y.1))))).flatten
  match s.translateLanes a addrs accRead with
  | (.error (k, lv, pte, va), s) => s.park a k accRead va lv pte 0 0
  | (.ok l, s) =>
    let taps := plans.foldl (fun n p => n + p.2.taps) 0 * (if bytes = 8 then 2 else if bytes = 16 then 4 else 1)
    let s := s.bump blkCE a.e 0x040 taps
    let isInt := match v.fmt with | some f => f.isInt | none => false
    let r := plans.foldl (fun (r : (Str × Bool × Option (List Byte) × List LaneAddr) × State) p =>
      let (st, bad, ext, l) := r.1
      let got := p.2.texels.foldl (fun (g : (List (List Nat) × Bool × Option (List Byte) × List LaneAddr) × State) x =>
        let (acc, bad, ext, l) := g.1
        match x, l, v.fmt with
        | some y, q :: l, some f =>
          let ((b, pois, ext), s) := g.2.texRead a.e q f.bytes ext
          ((acc ++ [f.decode v.img.format b y.2], bad || pois, ext, l), s)
        | _, l, _ => ((acc ++ [v.smp.borderColor isInt], bad, ext, l), g.2)) (([], bad, ext, l), r.2)
      let (texels, bad, ext, l) := got.1
      let w := texResult v t p.2 (a.str.v t.ref.toNat p.1).toNat texels (fun k => s.peek (32 * p.1 + 16 + k))
      ((st.setVn a.hdr.dst.toNat p.1 (if t.packed then 2 else 4) w, bad, ext, l), got.2)) ((a.str.step, false, v.ext, l), s)
    if r.1.2.1 then r.2.trap a.e a.str.queue a.str.cmd ePoison 0
    else (r.2.drew 1024).setStr a.e a.place (r.1.1.pend u.writes)

/-- Registers of a texture instruction (log entry 42): four coordinates, `extra` more from SRC1, the reference. -/
def texUse (h : Hdr) (t : TexOps) (extra : Nat) (sampler : Bool) : Use :=
  let n := if t.packed then 2 else 4
  { use0 with
    rv := regs h.src0.toNat 4 ++ regs h.src1.toNat extra ++ [t.ref.toNat], wv := regs h.dst.toNat n
    ru := [2 * t.image.val, 2 * t.image.val + 1] ++ (if sampler then [2 * t.sampler.val, 2 * t.sampler.val + 1] else [])
    ok := h.dst.toNat % n = 0 }

/-- A plan with an open result that fetches nothing. -/
def TexPlan.open : TexPlan := { texels := [], exact := false, gather := false, taps := 1 }

/-- A texture instruction whose lanes plan what they fetch. -/
def State.execTex (s : State) (w : Site) (h : Hdr) (t : TexOps) (ext : Option (List Byte)) (extra : Nat) (sampler : Bool)
    (plan : Act → State → TexEnv → TexFmt → Nat → TexPlan) : Out :=
  let u := texUse h t extra sampler
  s.issue w h 5 true u (fun a s =>
    match s.texEnv a t sampler ext with
    | (.error x, s) => s.texStop a x
    | (.ok v, s) =>
      let one := fun (i : Nat) => match v.fmt with
        | some f => if v.img.stated then plan a s v f i else TexPlan.open
        | none => TexPlan.open
      s.texRun a t v ((lanesOf a.lanes).map (fun i => (i, one i))) u)

/-- Coordinates of a lane. -/
def Act.coords (a : Act) (i : Nat) : List Nat := (List.range 4).map (fun k => (a.str.v (a.hdr.src0.toNat + k) i).toNat)

/-- A filtered sample of lane i at a level of detail in 1/256; the axis ratio of an anisotropic footprint is open. -/
def texSample (s : State) (a : Act) (v : TexEnv) (f : TexFmt) (i : Nat) (lod bias : Int) (footprint : Bool) : TexPlan :=
  let free := fun (k : Nat) => s.peek (32 * i + k)
  match texPoint v.img (a.coords i) with
  | none => TexPlan.open
  | some pt =>
    v.img.plan f v.smp pt (v.smp.lod lod bias) (if footprint then free 9 % (v.smp.aniso + 1) else 0) free

/-- Level of detail of TEX from the differences across the quad (R405): level 0 with no active pair, the lowest where
nothing differs, else open. -/
def quadLod (s : State) (a : Act) (i : Nat) : Int :=
  let q := i / 4 * 4
  let act := fun (k : Nat) => bit a.lanes.toNat (q + k)
  let same := fun (j k : Nat) => a.coords (q + j) = a.coords (q + k)
  let pairs := ([(0, 1), (2, 3), (0, 2), (1, 3)] : List (Nat × Nat)).filter (fun p => act p.1 && act p.2)
  if pairs.isEmpty then 0
  else if pairs.all (fun p => same p.1 p.2) then -(2 ^ 20)
  else (s.peek (32 * i + 10) : Int) % 2 ^ 20 - 2 ^ 19

/-- A register's binary32 value in 1/256, its rounding open; 0 where it is not finite. -/
def lodOf (w free : Nat) : Int := match quotOf w with | some q => ratOpen (q.num * 256) q.den free | none => 0

/-- TEX (R405). -/
def execTex (w : Site) (h : Hdr) (t : TexOps) (ext : Option (List Byte)) (s : State) : Out :=
  s.execTex w h t ext 0 true (fun a s v f i => texSample s a v f i (quadLod s a i) 0 true)

/-- TEXB: with a level bias in SRC1 (R405). -/
def execTexb (w : Site) (h : Hdr) (t : TexOps) (ext : Option (List Byte)) (s : State) : Out :=
  s.execTex w h t ext 1 true (fun a s v f i =>
    texSample s a v f i (quadLod s a i) (lodOf (a.str.v h.src1.toNat i).toNat (s.peek (32 * i + 11))) true)

/-- TEXL: at an explicit level in SRC1 (R405). -/
def execTexl (w : Site) (h : Hdr) (t : TexOps) (ext : Option (List Byte)) (s : State) : Out :=
  s.execTex w h t ext 1 true (fun a s v f i =>
    texSample s a v f i (lodOf (a.str.v h.src1.toNat i).toNat (s.peek (32 * i + 11))) 0 false)

/-- TEXG: explicit gradients in six registers from SRC1 (R405): the level is open unless every gradient is 0. -/
def execTexg (w : Site) (h : Hdr) (t : TexOps) (ext : Option (List Byte)) (s : State) : Out :=
  s.execTex w h t ext 6 true (fun a s v f i =>
    let zero := (List.range 6).all (fun k => (a.str.v (h.src1.toNat + k) i).toNat % 2 ^ 31 = 0)
    texSample s a v f i (if zero then -(2 ^ 20) else (s.peek (32 * i + 10) : Int) % 2 ^ 20 - 2 ^ 19) 0 true)

/-- TLD: unfiltered fetch at integer coordinates, layer and level (R405); a coordinate outside the image gives an open
value. -/
def execTld (w : Site) (h : Hdr) (t : TexOps) (ext : Option (List Byte)) (s : State) : Out :=
  s.execTex w h t ext 1 false (fun a _ v f i =>
    let d := v.img
    let c := a.coords i
    let l := (a.str.v h.src1.toNat i).toNat
    let n := if d.type = 1 then 3 else if d.type = 3 then 1 else 2
    let x := c.getD 0 0
    let y := if n ≤ 1 then 0 else c.getD 1 0
    let z := if n ≤ 2 then 0 else c.getD 2 0
    let layer := if d.array || d.type = 2 then c.getD n 0 else 0
    if d.levels ≤ l || d.w l ≤ x || d.h l ≤ y || d.z l ≤ z || d.layers ≤ layer then TexPlan.open
    else match d.addr f x y z layer l with
      | some q => { texels := [some q], exact := true, gather := false, taps := 1 }
      | none => TexPlan.open)

/-- TG4: one component each of the four texels of a bilinear footprint (R405); of a 1D or 3D image it is open. -/
def execTg4 (w : Site) (h : Hdr) (t : TexOps) (ext : Option (List Byte)) (s : State) : Out :=
  s.execTex w h t ext 0 true (fun a s v f i =>
    match texPoint v.img (a.coords i) with
    | some pt =>
      if v.img.type = 1 || v.img.type = 3 then TexPlan.open
      else { texels := v.img.gather f v.smp pt (fun k => s.peek (32 * i + k)), exact := false, gather := true, taps := 1 }
    | none => TexPlan.open)

/-- TQ: width, height, depth or layers, and levels (R405). -/
def execTq (w : Site) (h : Hdr) (t : TexOps) (ext : Option (List Byte)) (s : State) : Out :=
  let u : Use := { use0 with
    wv := regs h.dst.toNat 4, ru := [2 * t.image.val, 2 * t.image.val + 1], ok := h.dst.toNat % 4 = 0 }
  s.issue w h 5 true u (fun a s =>
    match s.texEnv a t false ext with
    | (.error x, s) => s.texStop a x
    | (.ok v, s) =>
      let n := v.img.width + v.img.height * 2 ^ 32 + v.img.depth * 2 ^ 64 + v.img.levels * 2 ^ 96
      s.setStr a.e a.place (((lanesOf a.lanes).foldl (fun st i => st.setVn h.dst.toNat i 4 n) a.str.step).pend u.writes))

end Sys2Proof.Machine
end

