-- ==== Sys2Proof/Machine/Rays.lean ====
section
/-! DEFINITION. Ray and point queries, class 0x6 (R409 to R414): nodes, query records in shared memory, traversal, exact
tests. Registers and the inner layout of a record are those of log entry 42; facing, interval ends and flags follow the
Vulkan ray query rules (R412, log entry 45). -/

namespace Sys2Proof.Machine

/-! ### Exact geometry -/

abbrev Vec := Dy × Dy × Dy

def Vec.sub (a b : Vec) : Vec := (a.1.sub b.1, a.2.1.sub b.2.1, a.2.2.sub b.2.2)
def Vec.dot (a b : Vec) : Dy := ((a.1.mul b.1).add (a.2.1.mul b.2.1)).add (a.2.2.mul b.2.2)
def Vec.cross (a b : Vec) : Vec :=
  ((a.2.1.mul b.2.2).sub (a.2.2.mul b.2.1), (a.2.2.mul b.1).sub (a.1.mul b.2.2), (a.1.mul b.2.1).sub (a.2.1.mul b.1))
def Vec.axis (v : Vec) (i : Nat) : Dy := if i = 0 then v.1 else if i = 1 then v.2.1 else v.2.2

/-- Three binary32 values; none where one is not finite. -/
def vecAt (b : List Byte) (off : Nat) : Option Vec :=
  match finite32 (getLe b off 4), finite32 (getLe b (off + 4) 4), finite32 (getLe b (off + 8) 4) with
  | some x, some y, some z => some (x, y, z)
  | _, _, _ => none

/-- An exact quotient of dyadic numbers with a positive divisor. -/
structure DyQ where
  num : Dy
  den : Dy
  deriving DecidableEq, Repr

def dyQ (a b : Dy) : DyQ := if b.m < 0 then ⟨a.neg, b.neg⟩ else ⟨a, b⟩
def DyQ.le (a b : DyQ) : Bool := (a.num.mul b.den).le (b.num.mul a.den)
def DyQ.lt (a b : DyQ) : Bool := (a.num.mul b.den).lt (b.num.mul a.den)
def DyQ.ofDy (a : Dy) : DyQ := ⟨a, Dy.ofInt 1⟩

/-- binary32 code of an exact quotient, rounded to one of its two neighbours: the rounding is not stated. -/
def DyQ.f32 (q : DyQ) (free : Nat) : Nat :=
  let e := min q.num.e q.den.e
  let n := (q.num.at e).natAbs
  let d := (q.den.at e).natAbs
  let neg := q.num.m < 0
  if d = 0 then fmtFP32.nanCode
  else
    let k := log2 d + 200
    let c := fmtFP32.encode true .rtz (.fin neg (2 * (n * 2 ^ k / d) + b2n (n * 2 ^ k % d ≠ 0)) (-((k : Int) + 1)))
    let exact := match finite32 c with
      | some x => (DyQ.ofDy x).le q && q.le (DyQ.ofDy x)
      | none => true
    if exact || free % 2 = 0 then c else c + 1

/-! ### Nodes (R409, R410) -/

/-- A child pointer. -/
structure Ptr where
  addr : Nat
  count : Nat
  type : Nat
  clean : Bool
  deriving DecidableEq, Repr

def ptrOf (w : Nat) : Ptr := { addr := bits w 47 6 * 64, count := bits w 5 3, type := bits w 2 0, clean := bits w 63 48 = 0 }
def ptrWord (addr count type : Nat) : Nat := addr / 64 * 64 + count * 8 + type

/-- Bytes of a node. -/
def nodeBytes (type : Nat) : Nat := if type = 2 || type = 4 then 64 else 128

/-- A pointer that a ray query, or a point query, may follow: 0 malformed, 1 empty, 2 good. -/
def Ptr.form (p : Ptr) (point : Bool) : Nat :=
  if p.type = 0 then 1
  else if !p.clean then 0
  else if p.type = 1 then (if p.count = 0 then 2 else 0)
  else if point then (if p.type = 5 then 2 else 0)
  else if p.type = 3 then (if p.count = 0 then 2 else 0)
  else if p.type = 2 || p.type = 4 then 2 else 0

/-! ### The query record (R411): a state of 64 bytes and 56 stack entries (log entry 42) -/

structure Rq where
  origin : Nat × Nat × Nat
  dir : Nat × Nat × Nat
  tmin : Nat
  /-- t-max, or the committed t -/
  tmax : Nat
  flags : Nat
  /-- committed: 0 nothing, 1 triangle, 2 generated -/
  committed : Nat
  /-- candidate: 0 none, 1 triangle, 2 procedural -/
  candidate : Nat
  malformed : Bool
  mask : Nat
  /-- stack, top first -/
  stack : List Nat
  /-- instance node the traversal is in; 0 none -/
  inst : Nat
  comNode : Nat
  comInst : Nat
  canNode : Nat
  canT : Nat
  deriving DecidableEq, Repr

def rqOf (b : List Byte) : Rq :=
  let v := fun (o : Nat) => (getLe b o 4, getLe b (o + 4) 4, getLe b (o + 8) 4)
  let f := getLe b 0x20 2
  let n := min 56 (getLe b 0x23 1)
  { origin := v 0, dir := v 0xC, tmin := getLe b 0x18 4, tmax := getLe b 0x1C 4, flags := f % 1024
    committed := bits f 11 10, candidate := bits f 13 12, malformed := bit f 14, mask := getLe b 0x22 1
    stack := (List.range n).map (fun i => getLe b (64 + 8 * (n - 1 - i)) 8)
    inst := getLe b 0x24 6, comNode := getLe b 0x2A 6, comInst := getLe b 0x30 6, canNode := getLe b 0x36 6
    canT := getLe b 0x3C 4 }

def Rq.bytes (r : Rq) : List Byte :=
  let v := fun (x : Nat × Nat × Nat) => leBytes 4 x.1 ++ leBytes 4 x.2.1 ++ leBytes 4 x.2.2
  let st := (r.stack.take 56).reverse
  v r.origin ++ v r.dir ++ leBytes 4 r.tmin ++ leBytes 4 r.tmax
  ++ leBytes 2 (r.flags % 1024 + r.committed * 1024 + r.candidate * 4096 + b2n r.malformed * 16384) ++ leBytes 1 r.mask
  ++ leBytes 1 st.length ++ leBytes 6 r.inst ++ leBytes 6 r.comNode ++ leBytes 6 r.comInst ++ leBytes 6 r.canNode
  ++ leBytes 4 r.canT ++ (st.map (leBytes 8)).flatten

/-- Status of R414. -/
def Rq.status (r : Rq) : Nat :=
  if r.malformed then 4 else if r.candidate = 1 then 2 else if r.candidate = 2 then 3
  else if r.committed ≠ 0 then 1 else 0

/-! ### Rays -/

/-- A ray with exact origin and direction; none where a value is not finite. -/
def Rq.ray (r : Rq) : Option (Vec × Vec) :=
  match finite32 r.origin.1, finite32 r.origin.2.1, finite32 r.origin.2.2,
        finite32 r.dir.1, finite32 r.dir.2.1, finite32 r.dir.2.2 with
  | some a, some b, some c, some d, some e, some f => some ((a, b, c), (d, e, f))
  | _, _, _, _, _, _ => none

/-- Row i of a 3 × 4 matrix at an offset, applied to a point (w = 1) or a direction (w = 0). -/
def matRow (b : List Byte) (off i : Nat) (v : Vec) (w : Bool) : Option Dy :=
  match vecAt b (off + 16 * i), finite32 (getLe b (off + 16 * i + 12) 4) with
  | some m, some t => some (if w then (m.dot v).add t else m.dot v)
  | _, _ => none

def matApply (b : List Byte) (off : Nat) (v : Vec) (w : Bool) : Option Vec :=
  match matRow b off 0 v w, matRow b off 1 v w, matRow b off 2 v w with
  | some x, some y, some z => some (x, y, z)
  | _, _, _ => none

/-- The ray in object space of an instance node. -/
def objectRay (node : List Byte) (ray : Vec × Vec) : Option (Vec × Vec) :=
  match matApply node 0 ray.1 true, matApply node 0 ray.2 false with
  | some o, some d => some (o, d)
  | _, _ => none

/-- Is a t inside the ray's interval, ends included or not? An infinite t-max bounds nothing; a NaN admits nothing. -/
def Rq.inside (r : Rq) (t : DyQ) (closed : Bool) : Bool :=
  let lo := fmtFP32.decode r.tmin
  let hi := fmtFP32.decode r.tmax
  (match lo with
   | .fin _ _ _ => let l := DyQ.ofDy lo.dy; if closed then l.le t else l.lt t
   | .inf s => s
   | .nan => false)
  && (match hi with
   | .fin _ _ _ => let h := DyQ.ofDy hi.dy; if closed then t.le h else t.lt h
   | .inf s => !s
   | .nan => false)

/-- Does the ray meet a box within its interval (exact slabs)? Open where a bound is not finite. -/
def Rq.boxHit (r : Rq) (ray : Vec × Vec) (b : List Byte) (off : Nat) (free : Nat) : Bool :=
  match vecAt b off, vecAt b (off + 12) with
  | some lo, some hi =>
    let step := fun (a : Option (List DyQ × List DyQ)) (i : Nat) => a.bind (fun (ls, hs) =>
      let o := ray.1.axis i
      let d := ray.2.axis i
      let x := (lo.axis i).sub o
      let y := (hi.axis i).sub o
      if d.m = 0 then (if x.m ≤ 0 && 0 ≤ y.m then some (ls, hs) else none)
      else if 0 < d.m then some (dyQ x d :: ls, dyQ y d :: hs) else some (dyQ y d :: ls, dyQ x d :: hs))
    match (List.range 3).foldl step (some ([], [])) with
    | none => false
    | some (ls, hs) =>
      let tl := fmtFP32.decode r.tmin
      let th := fmtFP32.decode r.tmax
      let ls := (match tl with | .fin _ _ _ => [DyQ.ofDy tl.dy] | _ => []) ++ ls
      let hs := (match th with | .fin _ _ _ => [DyQ.ofDy th.dy] | _ => []) ++ hs
      ls.all (fun l => hs.all (fun h => l.le h))
  | _, _ => bit free 0

/-- A triangle hit: t, barycentrics u and v, front face. -/
structure TriHit where
  t : DyQ
  u : DyQ
  v : DyQ
  /-- the vertices appear clockwise from the origin -/
  cw : Bool
  deriving DecidableEq, Repr

/-- The plane of a triangle met by a ray; none where it is parallel or a value is not finite. -/
def triMeet (ray : Vec × Vec) (b : List Byte) : Option TriHit :=
  match vecAt b 0, vecAt b 12, vecAt b 24 with
  | some v0, some v1, some v2 =>
    let e1 := v1.sub v0
    let e2 := v2.sub v0
    let p := ray.2.cross e2
    let det := e1.dot p
    let tv := ray.1.sub v0
    let q := tv.cross e1
    if det.m = 0 then none
    else some { t := dyQ (e2.dot q) det, u := dyQ (tv.dot p) det, v := dyQ (ray.2.dot q) det, cw := det.m < 0 }
  | _, _, _ => none

/-- Is the meeting point in the closed triangle? Shared edges and vertices belong to both triangles (R412). -/
def TriHit.inTri (h : TriHit) : Bool :=
  0 ≤ h.u.num.m && 0 ≤ h.v.num.m && ((h.u.num.mul h.v.den).add (h.v.num.mul h.u.den)).le (h.u.den.mul h.v.den)

/-! ### Traversal -/

/-- Flags of the query and of the instance it is in: word at 0x3C of the instance node. -/
def Rq.flag (r : Rq) (i : Nat) : Bool := bit r.flags i

/-- Opacity after the flags of ray and instance (Vulkan). -/
def Rq.opaque? (r : Rq) (instFlags : Nat) (geom : Bool) : Bool :=
  if r.flag 0 then true else if r.flag 1 then false
  else if bit instFlags 24 then true else if bit instFlags 25 then false else geom

/-- What a step of the traversal reads or ends with. -/
inductive RqStep where
  | go (r : Rq)
  | stop (r : Rq)

/-- A query that met a malformed pointer or node. -/
def Rq.broken (r : Rq) : Rq := { r with malformed := true, stack := [], candidate := 0 }

/-- Push an entry. -/
def Rq.push (r : Rq) (w : Nat) : Rq := if 56 ≤ r.stack.length then r.broken else { r with stack := w :: r.stack }

/-- A committed hit. -/
def Rq.commit (r : Rq) (kind node t : Nat) : Rq :=
  let r := { r with committed := kind, comNode := node, comInst := r.inst, tmax := t, candidate := 0 }
  if r.flag 2 then { r with stack := [] } else r

/-- Child numbers of a box in the order a free value chooses: the order of a ray's visits is not stated. -/
def freeOrder (free : Nat) : List Nat := sortBy (fun i => free / 16 ^ i % 16) [0, 1, 2, 3]

/-- A triangle node (R412). -/
def Rq.triangle (r : Rq) (ray : Option (Vec × Vec)) (node : List Byte) (addr instFlags free : Nat) : RqStep :=
  let w := getLe node 0x24 4
  let opq := r.opaque? instFlags (bit w 24)
  match ray.bind (fun x => triMeet x node) with
  | none => .go r
  | some h =>
    let front := h.cw != bit instFlags 27
    let culled := r.flag 8 || (opq && r.flag 6) || (!opq && r.flag 7)
      || (!bit instFlags 26 && ((front && r.flag 5) || (!front && r.flag 4)))
    if culled || !h.inTri || !r.inside h.t false then .go r
    else
      let t := h.t.f32 free
      if opq then
        let r := r.commit 1 addr t
        if r.flag 2 then .stop r else .go r
      else .stop { r with candidate := 1, canNode := addr, canT := t }

/-- A procedural node (R412). -/
def Rq.procedural (r : Rq) (ray : Option (Vec × Vec)) (node : List Byte) (addr instFlags free : Nat) : RqStep :=
  let opq := r.opaque? instFlags (bit (getLe node 0x18 4) 24)
  let hit := match ray with | some x => r.boxHit x node 0 free | none => bit free 1
  if r.flag 9 || (opq && r.flag 6) || (!opq && r.flag 7) || !hit then .go r
  else .stop { r with candidate := 2, canNode := addr, canT := 0 }

/-- The children of a box node; `ptr` is false for a child that is not visited. -/
def Rq.box (r : Rq) (ray : Option (Vec × Vec)) (node : List Byte) (free : Nat) : RqStep :=
  let r := (freeOrder free).foldl (fun (r : Rq) i =>
    let w := getLe node (0x60 + 8 * i) 8
    let p := ptrOf w
    match p.form false with
    | 1 => r
    | 0 => r.broken
    | _ =>
      let f := free / 2 ^ (16 + 2 * i)
      -- a conservative test may visit a box that the exact ray misses
      let visit := (match ray with | some x => r.boxHit x node (24 * i) f | none => true) || bit f 1
      if visit && !r.malformed then r.push w else r) r
  if r.malformed then .stop r else .go r

/-- Read n bytes for a query: through translation, host and remote bytes from the operand. -/
abbrev QErr := (Nat × Nat × Nat × Nat) ⊕ Nat

def State.qRead (s : State) (a : Act) (va n : Nat) (ext : Option (List Byte)) :
    Except QErr (List Byte × Option (List Byte)) × State :=
  match s.readVaX a.e (s.ctxOf a.str.queue a.str.cmd).1 va n false ext with
  | (.error f, s) => (.error (.inl f), s)
  | (.ok ((b, bad), ext), s) => if bad then (.error (.inr ePoison), s) else (.ok (b, ext), s)

/-- Marker on the stack: the traversal leaves its instance. -/
def leaveInst : Nat := 7

/-- Flags and ray inside the query's instance. -/
def State.qInst (s : State) (a : Act) (r : Rq) (ext : Option (List Byte)) :
    Except QErr (Option (Vec × Vec) × Nat × Option (List Byte)) × State :=
  if r.inst = 0 then (.ok (r.ray, 0, ext), s)
  else match s.qRead a r.inst 128 ext with
    | (.error e, s) => (.error e, s)
    | (.ok (b, ext), s) => (.ok (r.ray.bind (objectRay b), getLe b 0x3C 4, ext), s)

/-- One stack entry. -/
def State.rqStep (s : State) (a : Act) (r : Rq) (ext : Option (List Byte)) :
    Except QErr (RqStep × Option (List Byte)) × State :=
  match r.stack with
  | [] => (.ok (.stop r, ext), s)
  | w :: rest =>
    let r := { r with stack := rest }
    if w = leaveInst then (.ok (.go { r with inst := 0 }, ext), s)
    else
      let p := ptrOf w
      match p.form false with
      | 1 => (.ok (.go r, ext), s)
      | 0 => (.ok (.stop r.broken, ext), s)
      | _ =>
        match s.qInst a r ext with
        | (.error e, s) => (.error e, s)
        | (.ok (ray, fl, ext), s) => match s.qRead a p.addr (nodeBytes p.type) ext with
          | (.error e, s) => (.error e, s)
          | (.ok (b, ext), s) =>
            let (free, s) := s.draw
            let r := if p.count = 0 then r else r.push (ptrWord (p.addr + 64) (p.count - 1) p.type)
            let x := if r.malformed then RqStep.stop r else match p.type with
              | 1 => r.box ray b free
              | 2 => r.triangle ray b p.addr fl free
              | 4 => r.procedural ray b p.addr fl free
              | _ =>
                let root := getLe b 0x30 8
                let q := ptrOf root
                if r.inst ≠ 0 || q.type ≠ 1 || q.form false ≠ 2 then .stop r.broken
                else if bits (getLe b 0x38 4) 31 24 &&& r.mask = 0 then .go r
                else
                  let r := (r.push leaveInst).push root
                  if r.malformed then .stop r else .go { r with inst := p.addr }
            (.ok (x, ext), s)

/-- Traverse until a candidate or the end; none when the fuel does not suffice. -/
def State.rqRun (s : State) (a : Act) (r : Rq) (ext : Option (List Byte)) :
    Nat → Except QErr (Option Rq × Option (List Byte)) × State
  | 0 => (.ok (none, ext), s)
  | n + 1 =>
    if r.stack.isEmpty then (.ok (some { r with inst := 0 }, ext), s)
    else match s.rqStep a r ext with
      | (.error e, s) => (.error e, s)
      | (.ok (.stop r, ext), s) => (.ok (some r, ext), s)
      | (.ok (.go r, ext), s) => s.rqRun a r ext n

/-! ### Instructions on records -/

/-- The record of a lane. -/
def Act.record (a : Act) (g : Wg) (i : Nat) : Rq := rqOf (g.read (a.str.v a.hdr.src0.toNat i).toNat 512)
def Act.putRecord (a : Act) (g : Wg) (i : Nat) (r : Rq) : Wg := g.write (a.str.v a.hdr.src0.toNat i).toNat r.bytes

/-- An instruction that only changes its lanes' records. -/
def State.execRq (s : State) (w : Site) (h : Hdr) (u : Use) (f : Act → Nat → Rq → Rq) : Out :=
  s.issue w h 6 true u (fun a s => match s.wg? a.e a.str.wg with
    | none => s
    | some g => (s.setWg a.e a.str.wg ((lanesOf a.lanes).foldl (fun g i => a.putRecord g i (f a i (a.record g i))) g)).setStr
        a.e a.place a.str.step)

/-- RQ.INIT: root (two registers), origin, direction, t-min, t-max, flags, cull mask from SRC1 (R411). -/
def execRqInit (w : Site) (h : Hdr) (s : State) : Out :=
  s.execRq w h { use0 with rv := h.src0.toNat :: regs h.src1.toNat 12 } (fun a i _ =>
    let v := fun (k : Nat) => (a.str.v (h.src1.toNat + k) i).toNat
    { origin := (v 2, v 3, v 4), dir := (v 5, v 6, v 7), tmin := v 8, tmax := v 9, flags := v 10 % 1024 &&& 0x3F7
      committed := 0, candidate := 0, malformed := false, mask := v 11 % 256, stack := [v 0 + v 1 * 2 ^ 32], inst := 0
      comNode := 0, comInst := 0, canNode := 0, canT := 0 })

/-- RQ.CONFIRM: commits the triangle candidate (R411). -/
def execRqConfirm (w : Site) (h : Hdr) (s : State) : Out :=
  s.execRq w h { use0 with rv := [h.src0.toNat] } (fun _ _ r =>
    if r.candidate = 1 then r.commit 1 r.canNode r.canT else r)

/-- RQ.GENHIT: commits a procedural hit at the t in SRC1 (R411). -/
def execRqGenhit (w : Site) (h : Hdr) (s : State) : Out :=
  s.execRq w h { use0 with rv := [h.src0.toNat, h.src1.toNat] } (fun a i r =>
    if r.candidate = 2 then r.commit 2 r.canNode (a.str.v h.src1.toNat i).toNat else r)

/-- RQ.TERMINATE: ends traversal, keeping the committed hit (R411). -/
def execRqTerminate (w : Site) (h : Hdr) (s : State) : Out :=
  s.execRq w h { use0 with rv := [h.src0.toNat] } (fun _ _ r => { r with stack := [], candidate := 0, inst := 0 })

/-- What stops a query instruction: a fault parks the string with no effect (R93), poison fails the dispatch. -/
def State.qStop (s : State) (a : Act) (e : QErr) : State :=
  match e with
  | .inl f => s.park a f.1 accRead f.2.2.2 f.2.1 f.2.2.1 0 0
  | .inr err => s.trap a.e a.str.queue a.str.cmd err 0

/-- Nodes that one instruction may visit in the model; a hierarchy with a cycle never completes. -/
def nodeFuel : Nat := 2 ^ 20

/-- RQ.PROCEED: traverses every lane's query to its next candidate or its end, and writes the status (R411, R414). -/
def execRqProceed (w : Site) (h : Hdr) (ext : Option (List Byte)) (s : State) : Out :=
  let u := useV [h.src0] h.dst
  s.issue w h 6 true u (fun a t => match t.wg? a.e a.str.wg with
    | none => s
    | some g =>
      let r := (lanesOf a.lanes).foldl
        (fun (r : Except QErr (Option (Wg × Str) × Option (List Byte)) × State) i => match r.1 with
          | .error _ => r
          | .ok (none, _) => r
          | .ok (some (g, st), ext) =>
            let q := a.record g i
            match r.2.rqRun a { q with candidate := 0 } ext nodeFuel with
            | (.error e, t) => (.error e, t)
            | (.ok (none, ext), t) => (.ok (none, ext), t)
            | (.ok (some q, ext), t) =>
              (.ok (some (a.putRecord g i q, st.setV h.dst.toNat i (BitVec.ofNat 32 q.status)), ext), t))
        (.ok (some (g, a.str.step), ext), t)
      match r with
      | (.error e, t) => t.qStop a e
      | (.ok (none, _), _) => s
      | (.ok (some (g, st), _), t) => (t.setWg a.e a.str.wg g).setStr a.e a.place (st.pend u.writes))

/-- Registers of a value (log entry 42). -/
def rqSize (f : RqField) : Nat :=
  match f with
  | .bary => 2
  | .origin | .direction => 3
  | .toObject | .toWorld => 12
  | _ => 1

/-- Words of a value from the query, the hit's node and its instance node; open where the query has none. -/
def Rq.field (r : Rq) (com : Bool) (f : RqField) (kind : Nat) (node : List Byte) (inst : Option (List Byte))
    (free : Nat → Nat) : List Nat :=
  let none_ := (List.range (rqSize f)).map (fun k => free k % 2 ^ 32)
  let ray := match inst with | some b => r.ray.bind (objectRay b) | none => r.ray
  let tri := kind = 1
  let instFlags := match inst with | some b => getLe b 0x3C 4 | none => 0
  let vec := fun (v : Option Vec) => match v with
    | some v => [0, 1, 2].map (fun i => (DyQ.ofDy (v.axis i)).f32 (free i))
    | none => none_
  if kind = 0 then none_
  else match f with
    | .t => if com then [r.tmax] else if tri then [r.canT] else none_
    | .bary => match (if tri then ray.bind (fun x => triMeet x node) else none) with
      | some h => [h.u.f32 (free 0), h.v.f32 (free 1)]
      | none => none_
    | .frontFace => match (if tri then ray.bind (fun x => triMeet x node) else none) with
      | some h => [b2n (h.cw != bit instFlags 27)]
      | none => none_
    | .geometry => [getLe node (if tri then 0x24 else 0x18) 3]
    | .primitive => [getLe node (if tri then 0x28 else 0x1C) 4]
    | .instIndex => match inst with | some b => [getLe b 0x3C 3] | none => none_
    | .custom => match inst with | some b => [getLe b 0x38 3] | none => none_
    | .origin => vec (ray.map (fun x => x.1))
    | .direction => vec (ray.map (fun x => x.2))
    | .toObject => match inst with | some b => (List.range 12).map (fun k => getLe b (4 * k) 4) | none => none_
    | .toWorld => match inst with | some b => (List.range 12).map (fun k => getLe b (0x40 + 4 * k) 4) | none => none_

/-- RQ.GET: a committed or candidate value of every lane's query (R411). -/
def execRqGet (w : Site) (h : Hdr) (committed : Bool) (field : RqField) (ext : Option (List Byte)) (s : State) : Out :=
  let u : Use := { use0 with rv := [h.src0.toNat], wv := regs h.dst.toNat (rqSize field) }
  s.issue w h 6 true u (fun a t => match t.wg? a.e a.str.wg with
    | none => s
    | some g =>
      let r := (lanesOf a.lanes).foldl (fun (r : Except QErr (Str × Option (List Byte)) × State) i => match r.1 with
        | .error _ => r
        | .ok (st, ext) =>
          let q := a.record g i
          let (kind, node, inst) := if committed then (q.committed, q.comNode, q.comInst) else (q.candidate, q.canNode, q.inst)
          let put := fun (st : Str) (t : State) (nb : List Byte) (ib : Option (List Byte)) =>
            foldIdx (q.field committed field kind nb ib (fun k => t.peek k)) st (fun st k x =>
              st.setV (h.dst.toNat + k) i (BitVec.ofNat 32 x))
          if kind = 0 then (.ok (put st r.2 [] none, ext), r.2.drew 16)
          else match r.2.qRead a node 64 ext with
            | (.error e, t) => (.error e, t)
            | (.ok (nb, ext), t) =>
              if inst = 0 then (.ok (put st t nb none, ext), t.drew 16)
              else match t.qRead a inst 128 ext with
                | (.error e, t) => (.error e, t)
                | (.ok (ib, ext), t) => (.ok (put st t nb (some ib), ext), t.drew 16)) (.ok (a.str.step, ext), t)
      match r with
      | (.error e, t) => t.qStop a e
      | (.ok (st, _), t) => t.setStr a.e a.place (st.pend u.writes))

/-! ### Point queries (R413) -/

/-- Squared distance of a point, each operation in binary32 with RNE. -/
def distSq (p q : Nat × Nat × Nat) : Nat :=
  let sub := fun (a b : Nat) => fmtFP32.fadd a (fmtFP32.fneg b)
  let dx := sub p.1 q.1
  let dy := sub p.2.1 q.2.1
  let dz := sub p.2.2 q.2.2
  fmtFP32.fadd (fmtFP32.fadd (fmtFP32.fmul dx dx) (fmtFP32.fmul dy dy)) (fmtFP32.fmul dz dz)

/-- Operands of a point query: root, query point, RAD2, k or MAX, result address, space (log entry 42). -/
structure Pq where
  root : Nat
  point : Nat × Nat × Nat
  rad2 : Nat
  count : Nat
  addr : Nat
  shared : Bool
  deriving DecidableEq, Repr

def Act.pq (a : Act) (i : Nat) : Pq :=
  let v := fun (k : Nat) => (a.str.v (a.hdr.src1.toNat + k) i).toNat
  { root := v 0 + v 1 * 2 ^ 32, point := (v 2, v 3, v 4), rad2 := v 5, count := v 6
    addr := if v 9 % 2 = 1 then v 7 else v 7 + v 8 * 2 ^ 32, shared := v 9 % 2 = 1 }

/-- Is a squared distance in range? -/
def Pq.near (q : Pq) (d : Nat) : Bool :=
  let x := fmtFP32.decode d
  let r := fmtFP32.decode q.rad2
  x.lt r || x.eqv r

/-- May a box be left out: is a conservative lower bound of its squared distance above RAD2 (exact, less 2^-20)? -/
def Pq.prunable (q : Pq) (b : List Byte) (off : Nat) : Bool :=
  match vecAt b off, vecAt b (off + 12), finite32 q.point.1, finite32 q.point.2.1, finite32 q.point.2.2, finite32 q.rad2 with
  | some lo, some hi, some x, some y, some z, some r =>
    let gap := fun (i : Nat) (c : Dy) =>
      if c.lt (lo.axis i) then (lo.axis i).sub c else if (hi.axis i).lt c then c.sub (hi.axis i) else Dy.zero
    let sq := fun (d : Dy) => d.mul d
    let d := ((sq (gap 0 x)).add (sq (gap 1 y))).add (sq (gap 2 z))
    (r.mul ⟨2 ^ 20, 0⟩).lt (d.mul ⟨2 ^ 20 - 1, 0⟩)
  | _, _, _, _, _, _ => false

/-- Points found so far: distance, identifier, in depth-first order. -/
abbrev Found := List (Nat × Nat)

/-- Points of a leaf in range, slots ascending. -/
def Pq.leaf (q : Pq) (b : List Byte) : Found :=
  (List.range 8).filterMap (fun i =>
    let id := getLe b (16 * i + 12) 4
    let d := distSq (getLe b (16 * i) 4, getLe b (16 * i + 4) 4, getLe b (16 * i + 8) 4) q.point
    if id = 2 ^ 32 - 1 || !q.near d then none else some (d, id))

/-- Walk a hierarchy for a point query: children ascending, 56 stack entries. `none` without enough fuel; the flag says
that it was well formed. -/
def State.pqRun (s : State) (a : Act) (q : Pq) (stack : List Nat) (found : Found) (ext : Option (List Byte)) :
    Nat → Except QErr (Option (Found × Bool) × Option (List Byte)) × State
  | 0 => (.ok (none, ext), s)
  | n + 1 =>
    match stack with
    | [] => (.ok (some (found, true), ext), s)
    | w :: rest =>
      let p := ptrOf w
      match p.form true with
      | 1 => s.pqRun a q rest found ext n
      | 0 => (.ok (some (found, false), ext), s)
      | _ => match s.qRead a p.addr 128 ext with
        | (.error e, s) => (.error e, s)
        | (.ok (b, ext), s) =>
          if p.type = 5 then
            let rest := if p.count = 0 then rest else ptrWord (p.addr + 128) (p.count - 1) 5 :: rest
            s.pqRun a q rest (found ++ q.leaf b) ext n
          else
            let (free, s) := s.draw
            let kids := (List.range 4).filterMap (fun i =>
              let w := getLe b (0x60 + 8 * i) 8
              if (ptrOf w).type = 0 || (q.prunable b (24 * i) && bit free i) then none else some w)
            if 56 < rest.length + kids.length then (.ok (some (found, false), ext), s)
            else s.pqRun a q (kids ++ rest) found ext n

/-- Records in ascending distance, ties by ascending identifier. -/
def sortFound (l : Found) : Found :=
  let lt := fun (a b : Nat × Nat) =>
    let x := fmtFP32.decode a.1
    let y := fmtFP32.decode b.1
    x.lt y || (!y.lt x && a.2 < b.2)
  l.foldl (fun acc a => acc.takeWhile (fun b => !lt a b) ++ a :: acc.dropWhile (fun b => !lt a b)) []

def foundBytes (l : Found) : List Byte := (l.map (fun x => leBytes 4 x.2 ++ leBytes 4 x.1)).flatten

/-- Write bytes for a string by virtual address: nothing is written when any page faults; its L1 follows (R156). -/
def State.strWrite (s : State) (a : Act) (va : Nat) (l : List Byte) : Except QErr Unit × State :=
  match s.pieces a.e (s.ctxOf a.str.queue a.str.cmd).1 va l.length accWrite with
  | (.error f, s) => (.error (.inl f), s)
  | (.ok ps, s) =>
    let r := ps.foldl (fun (st : List Byte × State) p =>
      let (t, pa, len, pol, die, _) := p
      let b := st.1.take len
      let s := match t with
        | 0 => (linePieces pa len).foldl (fun s x => s.l1Write a.e x.1 pol (slice b (x.1 - pa) x.2)) st.2
        | 1 => st.2.hostWrite pa b
        | _ => st.2.cvlStore die pa b (.store a.e a.place)
      (st.1.drop len, s)) (l, s)
    (.ok (), r.2)

/-- A point query on every lane; `pick` gives the records, the returned number and the records of the area from what was
found. DST receives the number, the next register the status of R414; a malformed hierarchy gives status 4 with nothing
found. The record in shared memory holds open values afterwards. -/
def State.execPq (s : State) (w : Site) (h : Hdr) (ext : Option (List Byte)) (pick : Pq → Found → Nat → Found × Nat × Nat) : Out :=
  let u : Use := { use0 with rv := h.src0.toNat :: regs h.src1.toNat 10, wv := regs h.dst.toNat 2 }
  s.issue w h 6 true u (fun a t =>
    let a := a.writers t h.dst.toNat 2
    let t := t.drew 32
    if (lanesOf a.lanes).any (fun i => (a.pq i).addr % 8 ≠ 0) then t.trap a.e a.str.queue a.str.cmd eMisaligned 0
    else match t.wg? a.e a.str.wg with
      | none => s
      | some g =>
        -- the walks come first: a fault leaves no effect (R93)
        let r := (lanesOf a.lanes).foldl
          (fun (r : Except QErr (Option (List (Nat × Found × Nat × Nat × Bool)) × Option (List Byte)) × State) i => match r.1 with
            | .error _ => r
            | .ok (none, _) => r
            | .ok (some l, ext) =>
              let q := a.pq i
              match r.2.pqRun a q [q.root] [] ext nodeFuel with
              | (.error e, t) => (.error e, t)
              | (.ok (none, ext), t) => (.ok (none, ext), t)
              | (.ok (some (f, good), ext), t) =>
                let (rs, n, area) := pick q (if good then f else []) (t.peek 0)
                (.ok (some (l ++ [(i, rs, n, area, good)]), ext), t.drew 1))
          (.ok (some [], ext), t)
        match r with
        | (.error e, t) => t.qStop a e
        | (.ok (none, _), _) => s
        | (.ok (some l, _), t) =>
          let area := fun (x : Nat × Found × Nat × Nat × Bool) (t : State) =>
            foundBytes x.2.1 ++ freeBytes t.clk.fresh (8 * (x.2.2.2.1 - x.2.1.length))
          let pages := l.foldl (fun (r : Except QErr Unit × State) x => match r.1 with
            | .error _ => r
            | .ok _ =>
              if (a.pq x.1).shared then r
              else match r.2.pieces a.e (r.2.ctxOf a.str.queue a.str.cmd).1 (a.pq x.1).addr (8 * max x.2.2.2.1 x.2.1.length) accWrite with
                | (.error f, t) => (.error (.inl f), t)
                | (.ok _, t) => (.ok (), t)) (.ok (), t)
          match pages with
          | (.error e, t) => t.qStop a e
          | (.ok _, t) =>
            let done := l.foldl (fun (r : (Wg × Str) × State) x =>
              let q := a.pq x.1
              let b := area x r.2
              let g := r.1.1.write (a.str.v h.src0.toNat x.1).toNat (freeBytes (r.2.clk.fresh + 512) 512)
              let status := if !x.2.2.2.2 then 4 else if x.2.2.1 = 0 then 0 else 1
              let st := (r.1.2.setV h.dst.toNat x.1 (BitVec.ofNat 32 x.2.2.1)).setV (h.dst.toNat + 1) x.1 (BitVec.ofNat 32 status)
              let t := r.2.drew 1024
              if q.shared then ((g.write q.addr b, st), t) else ((g, st), (t.strWrite a q.addr b).2)) ((g, a.str.step), t)
            (done.2.setWg a.e a.str.wg done.1.1).setStr a.e a.place (done.1.2.pend u.writes))

/-- PQ.KNN: the k nearest points in range, sorted; the rest of the k records is open (R413). A k outside 1 to 64 is
taken as a free one. -/
def execPqKnn (w : Site) (h : Hdr) (ext : Option (List Byte)) (s : State) : Out :=
  s.execPq w h ext (fun q f free =>
    let k := if 1 ≤ q.count && q.count ≤ 64 then q.count else free % 65
    let l := (sortFound f).take k
    (l, l.length, k))

/-- PQ.RADIUS: every point in range in depth-first order, at most MAX written (R413). -/
def execPqRadius (w : Site) (h : Hdr) (ext : Option (List Byte)) (s : State) : Out :=
  s.execPq w h ext (fun q f _ => (f.take q.count, f.length, 0))

end Sys2Proof.Machine
end

