-- ==== Sys2Proof/Machine/Jobs.lean ====
section
/-! DEFINITION. Jobs of the copy engines X0-X3 (R318) and the compression engines Z0, Z1 (R442 to R455). A job's work is
one command; where a page faults, the job stops and the same command goes on once the fault is answered (R194). -/

namespace Sys2Proof.Machine

/-- Unit of a queue: 0-3 X0-X3, 4-5 Z0-Z1. -/
def Queue.jobUnit (v : Queue) : Nat := if v.kind = 1 then v.unit else 4 + v.unit

/-- Fault-record AGENT of a job (R197). -/
def Queue.jobAgent (v : Queue) : Nat := if v.kind = 1 then 3 else 4

def isJob (op : Nat) : Bool := op = 0x05 || op = 0x06 || op = 0x20 || op = 0x21

/-- Queues of a unit whose next command is a job that may start now, ascending. -/
def State.jobQueues (s : State) (kind unit : Nat) : List Nat :=
  (s.queues.filter (fun p => p.2.kind = kind && p.2.unit = unit && s.unitOpen p.2
    && (match p.2.nextStart with | some c => isJob c.opcode | none => false))).map (fun p => p.1)

/-- Is it this queue's turn: the next one above the last served, else the lowest (R308)? -/
def State.turnOf (s : State) (q : Nat) (v : Queue) : Bool :=
  let l := s.jobQueues v.kind v.unit
  let next := match mget s.turns v.jobUnit with
    | some last => (l.find? (fun x => last < x)).orElse (fun _ => l.head?)
    | none => l.head?
  next = some q

/-- The job of a queue that may run now: the one in progress once its fault is answered, or the next command. -/
def State.jobRun (s : State) (q op : Nat) : Option (Queue × Cmd × Job × State) :=
  match s.queue? q with
  | none => none
  | some v =>
    match mget s.jobs v.jobUnit with
    | some j => match s.cmd? j.queue j.cmd with
      | some c => if j.queue = q && c.opcode = op && j.fault.isNone && s.unitOpen v then some (v, c, j, s) else none
      | none => none
    | none => match s.startable q op with
      | none => none
      | some (v, c) =>
        if !isJob op || !s.turnOf q v then none
        else
          let j : Job := { queue := q, cmd := c.index, done := 0, fault := none, decompressing := op = 0x21 }
          let s := s.beginCmd q v c
          some (v, c, j, { s with jobs := mset s.jobs v.jobUnit j, turns := mset s.turns v.jobUnit q })

/-- A job stops at a faulting page. -/
def State.jobFault (s : State) (v : Queue) (c : Cmd) (j : Job) (acc : Acc) (f : Nat × Nat × Nat × Nat) : State :=
  let (asid, convoy, wb, seq) := s.ctxOf j.queue c.index
  let (id, s) := s.raiseFault
    { asid := asid, kind := f.1, acc := acc, va := f.2.2.2, waybill := wb, seq := seq, agent := v.jobAgent, unit := v.unit
      queue := j.queue, level := f.2.1, heap := 0, detail := f.2.2.1, growKey := 0, convoy := convoy }
  { s with jobs := mset s.jobs v.jobUnit { j with fault := some id } }

/-- A job's work is over. -/
def State.jobEnd (s : State) (v : Queue) (j : Job) (err : Nat) : State :=
  ({ s with jobs := merase s.jobs v.jobUnit }).endCmd j.queue j.cmd err 0

/-! ### COPY and FILL -/

/-- Do [a, a + n) and [b, b + m) overlap? -/
def rangesMeet (a n b m : Nat) : Bool := a < b + m && b < a + n

/-- Bytes from an address to the end of its page, at most n. -/
def pageRest (a n : Nat) : Nat := min n (4096 - a % 4096)

/-- How a step of moving bytes ended. -/
inductive MoveEnd where
  | done
  | fault (acc : Acc) (f : Nat × Nat × Nat × Nat) (at_ : Nat)
  | poison
  deriving DecidableEq, Repr

/-- Move bytes [done, n) page by page; `src` none fills with the pattern (R318). Overlapping ranges leave the destination
open. -/
def State.moveBytes (s : State) (v : Queue) (src : Option Nat) (dst n pattern : Nat) (ext : Option (List Byte)) (done : Nat) :
    Nat → MoveEnd × State
  | 0 => (.done, s)
  | fuel + 1 =>
    if n ≤ done then (.done, s)
    else
      let len := pageRest (dst + done) (n - done)
      let len := match src with | some a => pageRest (a + done) len | none => len
      let r : (Except (Nat × Nat × Nat × Nat) (List Byte × Bool × Option (List Byte))) × State := match src with
        | none => (.ok ((List.range len).map (fun i => BitVec.ofNat 8 (pattern / 256 ^ ((dst + done + i) % 8))), false, ext), s)
        | some a => match s.readVaX v.agent v.asid (a + done) len true ext with
          | (.error f, s) => (.error f, s)
          | (.ok ((b, bad), ext), s) =>
            if rangesMeet a n dst n then (.ok (freeBytes s.clk.fresh len, bad, ext), s.drew len) else (.ok (b, bad, ext), s)
      match r with
      | (.error f, s) => (.fault accRead f done, s)
      | (.ok (b, bad, ext), s) =>
        if bad then (.poison, s)
        else match s.writeVa v.agent v.asid (dst + done) b true with
          | (.error f, s) => (.fault accWrite f done, s)
          | (.ok _, s) => s.moveBytes v src dst n pattern ext (done + len) fuel

/-- Run a COPY or FILL from where it stands. -/
def State.runMove (s : State) (q op : Nat) (src : Cmd → Option Nat) (dst n pattern : Cmd → Nat) (host : Option (List Byte)) :
    Out :=
  match s.jobRun q op with
  | none => .next s
  | some (v, c, j, s) =>
    match s.moveBytes v (src c) (dst c) (n c) (pattern c) host j.done (n c / 1024 + 8) with
    | (.done, s) => .next ((s.progress v.progressUnit (n c / 64)).jobEnd v j 0)
    | (.poison, s) => .next (s.jobEnd v j ePoison)
    | (.fault acc f at_, s) => .next (s.jobFault v c { j with done := at_ } acc f)

/-- COPY (R318). `host` is what host and remote memory returns for the bytes read, in order. -/
def execCopy (queue : Half) (host : Option (List Byte)) (s : State) : Out :=
  s.runMove queue.toNat 0x05 (fun c => some (getLe c.payload 0 8)) (fun c => getLe c.payload 8 8)
    (fun c => getLe c.payload 0x10 8) (fun _ => 0) host

/-- FILL (R318). -/
def execFill (queue : Half) (host : Option (List Byte)) (s : State) : Out :=
  s.runMove queue.toNat 0x06 (fun _ => none) (fun c => getLe c.payload 0 8) (fun c => getLe c.payload 8 8)
    (fun c => getLe c.payload 0x10 8) host

/-! ### Compression -/

/-- Fields of a compression job (R443). -/
structure CmpJob where
  src : Nat
  srcBytes : Nat
  dst : Nat
  dstBytes : Nat
  dict : Nat
  dictBytes : Nat
  result : Nat
  framing : Nat
  level : Nat
  deriving DecidableEq, Repr

def cmpJob (p : List Byte) : CmpJob :=
  { src := getLe p 0 8, srcBytes := getLe p 8 8, dst := getLe p 0x10 8, dstBytes := getLe p 0x18 8, dict := getLe p 0x20 8
    dictBytes := getLe p 0x42 2, result := getLe p 0x28 8, framing := getLe p 0x40 1, level := getLe p 0x41 1 }

/-- Do any two of the input, the output, the dictionary and the record overlap (R444)? -/
def CmpJob.overlap (x : CmpJob) : Bool :=
  let rs : List (Nat × Nat) := [(x.src, x.srcBytes), (x.dst, x.dstBytes), (x.dict, x.dictBytes)]
    ++ (if x.result = 0 then [] else [(x.result, 32)])
  rs.tails.any (fun t => match t with
    | a :: as => as.any (fun b => rangesMeet a.1 a.2 b.1 b.2)
    | [] => false)

/-- What a job gives: output, and the fields of its record (R454). -/
structure CmpResult where
  out : List Byte
  status : Nat
  dictUsed : Bool
  check : Nat
  used : Nat
  blocks : Nat
  stored : Nat
  deriving DecidableEq, Repr

/-- The 32 bytes of a job record (R454). -/
def CmpResult.bytes (r : CmpResult) : List Byte :=
  let ok := r.status = 0
  leBytes 2 r.status
  ++ leBytes 1 (b2n (r.stored ≠ 0) + 2 * b2n (r.blocks ≠ 0 && r.stored = r.blocks) + 4 * b2n r.dictUsed + 8 * b2n (!ok))
  ++ zeros 1 ++ leBytes 4 (if ok then r.check else 0) ++ leBytes 8 r.used ++ leBytes 8 (if ok then r.out.length else 0)
  ++ leBytes 4 r.blocks ++ leBytes 4 r.stored

/-- A failure with nothing written. -/
def CmpResult.failed (err used : Nat) : CmpResult :=
  { out := [], status := err, dictUsed := false, check := 0, used := used, blocks := 0, stored := 0 }

/-- The last actions of a job: the output (open after a failure or an overlap), the record, and the end. -/
def State.cmpFinish (s : State) (v : Queue) (c : Cmd) (j : Job) (x : CmpJob) (r : CmpResult) : State :=
  let w := if r.status = 0 && !x.overlap then s.writeVa v.agent v.asid x.dst r.out true
    else (.ok (), s.scramble v.agent v.asid x.dst x.dstBytes)
  match w with
  | (.error f, s) => s.jobFault v c j accWrite f
  | (.ok _, s) =>
    let rec_ := if x.overlap then freeBytes s.clk.fresh 32 else r.bytes
    let s := s.drew 32
    match (if x.result = 0 then (.ok (), s) else s.writeVa v.agent v.asid x.result rec_ true) with
    | (.error f, s) => s.jobFault v c j accWrite f
    | (.ok _, s) =>
      let s := (s.bump blkCMP v.unit 0 r.used).bump blkCMP v.unit 1 (if r.status = 0 then r.out.length else 0)
      (s.progress v.progressUnit (r.used / 64)).jobEnd v j r.status

/-- Read a range for a job: bytes, or what stops it; the rest of the host's bytes. -/
def State.cmpRead (s : State) (v : Queue) (va n : Nat) (ext : Option (List Byte)) :
    Except (Nat × Nat × Nat × Nat) (List Byte × Bool × Option (List Byte)) × State :=
  match s.readVaX v.agent v.asid va n true ext with
  | (.error f, s) => (.error f, s)
  | (.ok ((b, bad), ext), s) => (.ok (b, bad, ext), s)

/-- Run a job's body once its dictionary is read. -/
def State.runCmp (s : State) (q op : Nat) (host : Option (List Byte))
    (body : State → Queue → CmpJob → List Byte → Option (List Byte) →
      Except (Nat × Nat × Nat × Nat) CmpResult × State) : Out :=
  match s.jobRun q op with
  | none => .next s
  | some (v, c, j, s) =>
    let x := cmpJob c.payload
    match s.cmpRead v x.dict x.dictBytes host with
    | (.error f, s) => .next (s.jobFault v c j accRead f)
    | (.ok (dict, bad, ext), s) =>
      if bad then .next (s.cmpFinish v c j x (CmpResult.failed ePoison 0))
      else match body s v x dict ext with
        | (.error f, s) => .next (s.jobFault v c j accRead f)
        | (.ok r, s) => .next (s.cmpFinish v c j x r)

/-- COMPRESS (R448, R449, R453). How much input a job that overflows has consumed is open. -/
def execCompress (queue : Half) (host : Option (List Byte)) (s : State) : Out :=
  s.runCmp queue.toNat 0x20 host (fun s v x dict ext =>
    match s.cmpRead v x.src x.srcBytes ext with
    | (.error f, s) => (.error f, s)
    | (.ok (input, bad, _), s) =>
      if bad then (.ok (CmpResult.failed ePoison (s.peek 0 % (x.srcBytes + 1))), s.drew 1)
      else
        let (out, d) := compressAll x.framing x.level dict input
        let full := x.dstBytes < out.length
        (.ok { out := out, status := if full then eCmpFull else 0, dictUsed := !dict.isEmpty
               check := frameCheck x.framing input, used := if full then s.peek 0 % (x.srcBytes + 1) else x.srcBytes
               blocks := d.blocks, stored := d.stored }, s.drew 1))

/-- Decode with as much of the input as it takes: 64 bytes at a time, so that nothing past the stream's end is read
(R451). -/
def State.inflateFrom (s : State) (v : Queue) (x : CmpJob) (dict got : List Byte) (ext : Option (List Byte)) :
    Nat → Except (Nat × Nat × Nat × Nat) CmpResult × State
  | 0 => (.ok (CmpResult.failed eCmpTruncated got.length), s)
  | fuel + 1 =>
    match inflate x.framing dict got x.dstBytes with
    | .ok r => (.ok { out := r.inf.out.reverse, status := 0, dictUsed := r.dictUsed, check := r.check
                      used := got.length - r.inf.src.length / 8, blocks := r.inf.blocks, stored := r.inf.stored }, s)
    | .error (e, i) =>
      let fail := fun (e : Nat) (i : Inf) => ({ out := [], status := e, dictUsed := false, check := 0
                                                used := got.length - i.src.length / 8, blocks := i.blocks
                                                stored := i.stored } : CmpResult)
      if e ≠ eCmpTruncated || x.srcBytes ≤ got.length then (.ok (fail e i), s)
      else
        let n := min (64 - (x.src + got.length) % 64) (x.srcBytes - got.length)
        match s.cmpRead v (x.src + got.length) n ext with
        | (.error f, s) => (.error f, s)
        | (.ok (b, bad, ext), s) =>
          if bad then (.ok { fail ePoison i with used := got.length }, s)
          else s.inflateFrom v x dict (got ++ b) ext fuel

/-- DECOMPRESS (R451 to R453). -/
def execDecompress (queue : Half) (host : Option (List Byte)) (s : State) : Out :=
  s.runCmp queue.toNat 0x21 host (fun s v x dict ext => s.inflateFrom v x dict [] ext (x.srcBytes / 64 + 3))

/-- A job in progress fails (R198, R455): its record is written where its page can be, and the queue goes on. -/
def State.failJob (s : State) (unit err : Nat) : State :=
  match mget s.jobs unit with
  | none => s
  | some j => match s.queue? j.queue, s.cmd? j.queue j.cmd with
    | some v, some c =>
      if v.kind = 1 then s.jobEnd v j err
      else
        let x := cmpJob c.payload
        let used := s.peek 0 % (x.srcBytes + 1)
        let s := (s.drew 1).scramble v.agent v.asid x.dst x.dstBytes
        let s := if x.result = 0 then s
          else (s.writeVa v.agent v.asid x.result (CmpResult.failed err used).bytes true).2
        s.jobEnd v j err
    | _, _ => { s with jobs := merase s.jobs unit }

end Sys2Proof.Machine
end

