-- ==== Sys2Proof/Machine/Sched.lean ====
section
/-! DEFINITION. The scheduler (chapter 11): partitions, convoys, slices, switches at a boundary, forced pre-emption and
restore, timed settings, accounting records. -/

namespace Sys2Proof.Machine

def ePartitionBusy : Nat := 0x0501
def eConvoyBusy : Nat := 0x0502
def eNoSaveSpace : Nat := 0x0505
def eTimedLimit : Nat := 0x0506
def eFallbackTable : Nat := 0x0507

/-! ### Partitions (R337 to R339) -/

/-- Bytes of save slots per Quad (R339). -/
def saveQuad : Nat := 72 * 2 ^ 20

/-- TB of an engine becomes 16 − TNS_MIN (R338); granules that change sides lose their contents (R145). -/
def State.setFloor (s : State) (e tns : Nat) : State :=
  let old := (s.eng e).tb
  let new := 16 - tns
  (s.loseGranules e (min old new) (max old new)).modEng e (fun v => { v with tb := new })

/-- PARTITION_SET (R337 to R339). -/
def execPartitionSet (pair : Fin 8) (s : State) : Out :=
  s.mbxCmd pair 0x0201 (fun r s =>
    let p := r.n 0x10 1
    let quads := r.n 0x11 1
    let gfx := r.n 0x12 1
    let tns := r.n 0x13 1
    let slice := r.n 0x14 4
    let park := r.n 0x18 4
    let share := if r.n 0x1C 2 = 0 then 65535 else r.n 0x1C 2
    let others := s.parts.any (fun x => x.1 ≠ p && x.2.quads.toNat &&& quads ≠ 0)
    if 7 < p || 16 < gfx || 16 < tns || 16 < gfx + tns || slice < 60000 || 60000000 < slice || park < 12000
        || 60000000 < park || others then (.err eBadParameter, s)
    else
      let busy := !(s.convoysOf p).isEmpty
      let epoch := fun (s : State) => s.modSch p (fun r => { r with epoch := (r.epoch + 1) % 16 })
      match s.part? p with
      | some x =>
        if x.quads.toNat = quads then
          (Ans.done, s.modPart p (fun x => { x with
            gfxMin := gfx, tnsMin := tns, slice := slice, parkLimit := park, shareMax := share }))
        else if busy then (.err ePartitionBusy, s)
        else if quads = 0 then
          (Ans.done, epoch ({ s with parts := merase s.parts p }.unreserve x.saveBase))
        else
          let n := popCount quads 8 * saveQuad
          match (s.unreserve x.saveBase).reserve n 4096 with
          | none => (.err eNoSaveSpace, s)
          | some (base, s) =>
            let y : Partition := { x with
              quads := BitVec.ofNat 8 quads, gfxMin := gfx, tnsMin := tns, slice := slice, parkLimit := park
              shareMax := share, resident := none, sliceOn := false, switching := none, forcing := none, slots := []
              saveBase := base, saveBytes := n }
            (Ans.done, epoch (y.engines.foldl (fun s e => s.setFloor e tns) { s with parts := mset s.parts p y }))
      | none =>
        if quads = 0 then (Ans.done, s)
        else
          let n := popCount quads 8 * saveQuad
          match s.reserve n 4096 with
          | none => (.err eNoSaveSpace, s)
          | some (base, s) =>
            let y : Partition :=
              { quads := BitVec.ofNat 8 quads, gfxMin := gfx, tnsMin := tns, slice := slice, parkLimit := park
                shareMax := share, vmin := 0, resident := none, sliceOn := false, switching := none, forcing := none
                slots := [], saveBase := base, saveBytes := n }
            (Ans.done, epoch (y.engines.foldl (fun s e => s.setFloor e tns) { s with parts := mset s.parts p y })))

/-! ### Convoys (R341, R342, R345) -/

/-- CONVOY_CREATE (R341). -/
def execConvoyCreate (pair : Fin 8) (s : State) : Out :=
  s.mbxCmd pair 0x0202 (fun r s =>
    let p := r.n 0x10 1
    let share := r.n 0x12 2
    if 7 < p || share = 0 then (.err eBadParameter, s)
    else match s.part? p with
      | none => (.err eNotFound, s)
      | some x =>
        if x.shareMax < share then (.err eShareLimit, s)
        else match s.pick s.convoys 0 512 with
          | none => (.err eNoResource, s)
          | some (c, s) =>
            let v : Convoy := { partition := p, share := share, keyCtx := none, timed := none, timedNext := none
                                batch := none, pendingEdge := none, absent := [], lastEnd := 0 }
            (.ok (result [(0x10, 4, c)]) 0, { s with convoys := mset s.convoys c v }))

/-- CONVOY_DESTROY (R342). -/
def execConvoyDestroy (pair : Fin 8) (s : State) : Out :=
  s.mbxCmd pair 0x0203 (fun r s =>
    let c := r.n 0x10 4
    if 511 < c then (.err eBadParameter, s)
    else match s.convoy? c with
      | none => (.err eNotFound, s)
      | some v =>
        if !(s.queuesOf c).isEmpty then (.err eConvoyBusy, s)
        else
          let gone := fun (o : Option Nat) => if o = some c then none else o
          let s := { s with convoys := merase s.convoys c }
          (Ans.done, s.modPart v.partition (fun x => { x with
            resident := gone x.resident, switching := gone x.switching
            forcing := x.forcing.map (fun f => { f with next := gone f.next })
            sliceOn := x.sliceOn && x.resident ≠ some c })))

/-- CONVOY_SET_SHARE (R341): the charges so far use the old share (R345). -/
def execConvoySetShare (pair : Fin 8) (s : State) : Out :=
  s.mbxCmd pair 0x0204 (fun r s =>
    let c := r.n 0x10 4
    let share := r.n 0x14 2
    if 511 < c || share = 0 then (.err eBadParameter, s)
    else match s.convoy? c with
      | none => (.err eNotFound, s)
      | some v =>
        if (match s.part? v.partition with | some x => decide (x.shareMax < share) | none => false) then (.err eShareLimit, s)
        else
          let s := if s.isResident c then (s.enginesIn v.partition).foldl State.settle s else s
          (Ans.done, s.modConvoy c (fun v => { v with share := share })))

/-! ### Timed settings (R363, R368) -/

/-- Bytes of the fallback table, and the rest of what host memory returns; none where they cannot be read. -/
def State.tableBytes (s : State) (asid va n : Nat) (ext : Option (List Byte)) :
    Option (List Byte × Option (List Byte)) × State :=
  match s.readVaX 255 asid va n false ext with
  | (.ok ((b, false), ext), s) => (some (b, ext), s)
  | (_, s) => (none, s)

/-- The layer entries; none where a check fails. -/
def tableLayers (b : List Byte) (n : Nat) : Option (List LayerEnt) :=
  let l := (List.range n).map (fun i => ({ layer := getLe b (16 * i) 3, worst := getLe b (16 * i + 8) 8, avg := 0, n := 0 } : LayerEnt))
  let clean := (List.range n).all (fun i => getLe b (16 * i + 3) 1 = 0 && getLe b (16 * i + 4) 4 = 0)
  if clean && (l.map (fun x => x.layer)).Nodup then some l else none

/-- Read a point entry with its streams, for the engines of the convoy's queues. -/
def State.tablePoint (s : State) (asid : Nat) (b : List Byte) (engines : List Nat) (ext : Option (List Byte)) :
    Option (PointEnt × Option (List Byte)) × State :=
  if getLe b 2 6 ≠ 0 || getLe b 0x18 8 ≠ 0 then (none, s)
  else match s.tableBytes asid (getLe b 0x10 8) (8 * engines.length) ext with
    | (none, s) => (none, s)
    | (some (w, ext), s) =>
      let streams := foldIdx engines [] (fun (l : List (Nat × Dword)) i e => l ++ [(e, BitVec.ofNat 64 (getLe w (8 * i) 8))])
      -- every stream address must translate
      let r := streams.foldl (fun (r : Bool × State) x => match r.2.translate 255 asid x.2.toNat accRead with
        | (.ok _ _ _ _ _, s) => (r.1, s)
        | (.fault _ _ _, s) => (false, s)) (true, s)
      if r.1 then (some ({ before := getLe b 0 2, fbWorst := getLe b 8 8, streams := streams }, ext), r.2) else (none, r.2)

/-- Read and check a fallback table (R368). -/
def State.fallbackTable (s : State) (c va : Nat) (ext : Option (List Byte)) :
    Option (List LayerEnt × List PointEnt) × State :=
  let qs := s.queuesOf c
  match qs with
  | [] => (none, s)
  | q :: _ =>
    let asid := q.2.asid
    let engines := sortBy id (qs.map (fun p => p.2.unit))
    match s.tableBytes asid va 16 ext with
    | (none, s) => (none, s)
    | (some (h, ext), s) =>
      let nl := getLe h 0 2
      let np := getLe h 2 2
      if nl = 0 || 1024 < nl || 64 < np || getLe h 4 12 ≠ 0 then (none, s)
      else match s.tableBytes asid (va + 16) (16 * nl + 32 * np) ext with
        | (none, s) => (none, s)
        | (some (b, ext), s) => match tableLayers b nl with
          | none => (none, s)
          | some layers =>
            let r := (List.range np).foldl (fun (r : Option (List PointEnt × Option (List Byte)) × State) i => match r.1 with
              | none => r
              | some (ps, ext) => match r.2.tablePoint asid (slice b (16 * nl + 32 * i) 32) engines ext with
                | (none, s) => (none, s)
                | (some (p, ext), s) =>
                  if (match ps.getLast? with | some l => decide (p.before ≤ l.before) | none => false) then (none, s)
                  else (some (ps ++ [p], ext), s)) (some ([], ext), s)
            (r.1.map (fun x => (layers, x.1)), r.2)

/-- CONVOY_SET_TIMED (R363). `buf` is what host memory returns where the fallback table lies there. -/
def execConvoySetTimed (pair : Fin 8) (buf : Option (List Byte)) (s : State) : Out :=
  s.mbxCmd pair 0x0205 (fun r s =>
    let c := r.n 0x10 4
    let rel := r.n 0x14 1
    let edge := r.n 0x15 1
    let deadline := r.n 0x18 4
    let margin := r.n 0x1C 4
    if 511 < c || (4 < rel && rel ≠ 0xFF) || 1 < edge then (.err eBadParameter, s)
    else match s.convoy? c with
      | none => (.err eNotFound, s)
      | some v =>
        let settle := fun (s : State) (t : Option Timed) =>
          if v.batch.isSome then s.modConvoy c (fun v => { v with timedNext := some t })
          else
            let s := (s.modConvoy c (fun v => { v with timedNext := some t }.applyNext)).dropStarts c
            s.tryRelease c s.fclk
        if rel = 0xFF then (Ans.done, if v.timed.isNone then s else settle s none)
        else if deadline < 300000 || deadline ≤ margin then (.err eBadParameter, s)
        else if v.timed.isNone && 256 ≤ (s.convoys.filter (fun x => x.2.timed.isSome)).length then (.err eTimedLimit, s)
        else match s.fallbackTable c (r.n 0x20 8) buf with
          | (none, s) => (.err eFallbackTable, s)
          | (some (layers, points), s) =>
            let t : Timed := { release := rel, falling := edge = 1, deadline := deadline, margin := margin
                               layers := layers, points := points }
            (Ans.done, settle s (some t)))

/-! ### Accounting (R361, R362) -/

/-- A charge point on every partition. -/
def State.chargeAll (s : State) : State := s.parts.foldl (fun s p => s.chargePoint p.1) s

/-- CONTEXT_READ (R362): writes the records back to device memory and copies them. -/
def execContextRead (pair : Fin 8) (s : State) : Out :=
  s.mbxCmd pair 0x0206 (fun r s =>
    let first := r.n 0x10 4
    let n := r.n 0x14 4
    let (a, len) := r.buf 0x18
    if n = 0 || 4096 < n || 2 ^ 18 < first + n then (.err eBadParameter, s)
    else if len < 32 * n || a % 8 ≠ 0 then (.err eBuffer, s)
    else
      let s := s.chargeAll
      let bytes := ((List.range n).map (fun i => (s.account (first + i)).bytes)).flatten
      (Ans.done, (s.writePhys (s.mmu.acctBase + 32 * first) bytes 0).output a bytes))

/-- CHARGE_POINT_TICK (R361): 2^20 FCLK have passed with a resident convoy. -/
def execChargePointTick (partition : Fin 8) (s : State) : Out :=
  let p := partition.val
  if s.working && (match s.part? p with | some x => x.resident.isSome | none => false) then .next (s.chargePoint p)
  else .next s

/-! ### Residency (R349, R355) -/

/-- Tile memory whose contents a switch does not keep (R349). -/
def State.forgetTile (s : State) (e : Nat) : State :=
  (s.modEng e (fun v => { v with
    tile := [], tileFree := (List.range 16).map (fun g => (g, s.clk.fresh + g)) })).drew 16

/-- A convoy becomes resident and its slice starts; with a save slot, its restore starts (R349, R355). -/
def State.becomeResident (s : State) (p c : Nat) : State :=
  match s.part? p with
  | none => s
  | some x =>
    let slot := x.slots.any (fun y => y.convoy = c)
    let s := s.modSch p (fun r => { r with switches := r.switches + 1 })
    let f : Forcing := { victim := c, next := none, restore := true, since := s.count domC }
    let s := s.modPart p (fun x => { x with
      resident := some c, sliceOn := true, switching := none, forcing := if slot then some f else none })
    if slot then s
    else (s.enginesIn p).foldl (fun s e => s.modEng e (fun v => { v with stopped := false })) s

/-- SLICE_END (R347). -/
def execSliceEnd (partition : Fin 8) (s : State) : Out :=
  let p := partition.val
  match s.part? p with
  | none => .next s
  | some x =>
    if !s.working || x.resident.isNone || !x.sliceOn || x.forcing.isSome then .next s
    else .next (((s.chargePoint p).modPart p (fun x => { x with sliceOn := false })).reschedule p)

/-- CONVOY_UNREADY_RESCHEDULE (R347): the resident convoy is not ready and every engine is unloaded, or there is none; a
choice that found no ready convoy when the slice ended is made again. -/
def execConvoyUnreadyReschedule (partition : Fin 8) (s : State) : Out :=
  let p := partition.val
  match s.part? p with
  | none => .next s
  | some x =>
    let idle := match x.resident with
      | none => true
      | some c => (!s.ready c && (s.enginesIn p).all (fun e => !(s.eng e).loaded)) || !x.sliceOn
    if !s.working || !idle || x.switching.isSome || x.forcing.isSome then .next s else .next (s.reschedule p)

/-- An engine is at its boundary (R349): no started command, no pass, no tile-held region. A command that waits at
EVENT_AWAIT has not started (R332). -/
def State.atBoundary (s : State) (c e : Nat) : Bool :=
  (s.queuesOf c).all (fun q => q.2.unit ≠ e || q.2.cmds.all (fun d => d.st ≠ .started || d.opcode = 0x03))
  && !(s.eng e).tileHold && (s.eng e).disps.isEmpty && (s.eng e).tensors.isEmpty
  && s.passes.all (fun q => q.2.convoy ≠ c || !mhas q.2.members e)

/-- BOUNDARY_SWITCH (R349): every engine has reached its boundary. -/
def execBoundarySwitch (partition : Fin 8) (s : State) : Out :=
  let p := partition.val
  match s.part? p with
  | none => .next s
  | some x => match x.switching with
    | none => .next s
    | some c =>
      let es := s.enginesIn p
      let clear := match x.resident with | some r => es.all (s.atBoundary r) | none => true
      if !s.working || x.forcing.isSome || !clear then .next s
      else
        let s := s.chargePoint p
        let s := es.foldl (fun s e => (s.modEng e (fun v => { v with
          atGang := none, arrive := none, gangParked := false, waitGfx := none, waitTns := none })).forgetTile e) s
        .next (s.becomeResident p c)

/-! ### Forced pre-emption (R351 to R356) -/

/-- A saved pre-emption starts, where a slot is free (R353, R356). -/
def State.force (s : State) (p : Nat) (victim : Nat) (next : Option Nat) : State :=
  match s.part? p with
  | none => s
  | some x =>
    if x.forcing.isSome || 4 ≤ x.slots.length then s
    else
      let f : Forcing := { victim := victim, next := next, restore := false, since := s.count domC }
      let s := (s.enginesIn p).foldl (fun s e => s.modEng e (fun v => { v with stopped := true, arrive := none })) s
      (s.modPart p (fun x => { x with forcing := some f, switching := none, sliceOn := false })).modSch p
        (fun r => { r with forced := r.forced + 1 })

/-- Is a convoy timed? -/
def State.isTimed (s : State) (c : Nat) : Bool := match s.convoy? c with | some v => v.timed.isSome | none => false

/-- GRACE_PERIOD_EXPIRY (R351): not every engine has reached its boundary in time. A switch between timed convoys waits. -/
def execGracePeriodExpiry (partition : Fin 8) (s : State) : Out :=
  let p := partition.val
  match s.part? p with
  | none => .next s
  | some x => match x.switching, x.resident with
    | some c, some r =>
      let out := match s.convoy? c with | some v => v.released.isSome | none => false
      if !s.working || c = r || (s.isTimed r && s.isTimed c && out) then .next s else .next (s.force p r (some c))
    | _, _ => .next s

/-- PARK_LIMIT_EXPIRY (R199): the convoy behind a fault record is switched out when another one is ready. -/
def execParkLimitExpiry (fault : Nat) (s : State) : Out :=
  match (mget s.mmu.faults fault).bind (fun r => r.convoy) with
  | none => .next s
  | some c => match (s.convoy? c).map (fun v => v.partition) with
    | none => .next s
    | some p => match s.part? p, s.chooseBut p (some c) with
      | some x, some n => if s.working && x.resident = some c then .next (s.force p c (some n)) else .next s
      | _, _ => .next s

/-- The saved form of an engine (R353, R357, R359): movers in flight start again, results that were on their way have
arrived, the other groups follow in ascending program-counter order. -/
def Eng.saved (v : Eng) : Eng :=
  { v with
    tensors := v.tensors.map (fun (t : TIns) => if t.kind = .tmma then t else { t with started := false })
    strs := mmap v.strs (fun _ (st : Str) => { st with
      busy := [], groups := match st.groups with | g :: gs => g :: sortBy (fun x => x.pc.toNat) gs | [] => [] })
    l1 := [], plru := [], arrive := none, waitGfx := none, waitTns := none }

/-- An engine after its convoy has left it: caches, microcode and counts stay. -/
def Eng.vacant (v : Eng) : Eng :=
  { Eng.reset with
    stamp := v.stamp, nextWg := v.nextWg, nextTensor := v.nextTensor, tb := v.tb, l1 := v.l1, plru := v.plru
    stopped := v.stopped, charge := v.charge, ucode := v.ucode, promotions := v.promotions, loadedC := v.loadedC
    loadedF := v.loadedF }

/-- A restored engine: the saved work beside what stays with the engine (R355); gang members rendezvous again (R148). -/
def Eng.restored (saved v : Eng) : Eng :=
  let gang := saved.disps.find? (fun d => d.gang)
  { saved with
    stamp := max v.stamp.toNat saved.stamp.toNat |> BitVec.ofNat 32, nextWg := max v.nextWg saved.nextWg
    nextTensor := max v.nextTensor saved.nextTensor, l1 := v.l1, plru := v.plru, stopped := v.stopped, ucode := v.ucode
    promotions := max v.promotions saved.promotions, loadedC := 0, loadedF := 0
    atGang := match gang with | some d => some (d.queue, d.cmd) | none => saved.atGang
    gangParked := gang.isSome || saved.gangParked }

/-- Cycles of a pre-emption or restore are charged on every engine to its context (R361). -/
def State.chargePreempt (s : State) (es : List Nat) (since : Nat) : State :=
  let n := (s.count domC + 2 ^ 56 - since) % 2 ^ 56
  es.foldl (fun s e => match (s.eng e).charge with
    | some (ctx, _, _) => s.modAccount ctx (fun a => { a with preemptTime := (a.preemptTime + n) % 2 ^ 56 })
    | none => s) s

/-- Started commands of a convoy's queues carry PREEMPTED (R355). -/
def State.markPreempted (s : State) (c : Nat) : State :=
  (s.queuesOf c).foldl (fun s q => s.modQueue q.1 (fun v => { v with
    cmds := v.cmds.map (fun d => if d.st = .started && d.opcode ≠ 0x03 then { d with preempted := true } else d) })) s

/-- PREEMPTION_SAVE_COMPLETE (R353): every engine has written its slot, once nothing is owed to its strings any more. -/
def execPreemptionSaveComplete (partition : Fin 8) (s : State) : Out :=
  let p := partition.val
  match s.part? p with
  | none => .next s
  | some x => match x.forcing with
    | none => .next s
    | some f =>
      let es := s.enginesIn p
      let owed := es.any (fun e => (s.eng e).strs.any (fun st => s.strOwed e st.1))
      if !s.working || f.restore || owed then .next s
      else
        let s := (s.chargePoint p).chargePreempt es f.since
        let ctxs := dedup (es.filterMap (fun e => (s.eng e).charge.map (fun c => c.1)))
        let s := ctxs.foldl (fun s ctx => s.modAccount ctx (fun a => { a with preemptions := min (a.preemptions + 1) 65535 })) s
        let slot : Slot := { convoy := f.victim, engines := es.map (fun e => (e, (s.eng e).saved)) }
        let s := es.foldl (fun s e => (s.modEng e Eng.vacant).forgetTile e) (s.markPreempted f.victim)
        let s := s.modPart p (fun x => { x with slots := x.slots ++ [slot], forcing := none, resident := none })
        match f.next with
        | some c => .next (s.becomeResident p c)
        | none => .next s

/-- CONVOY_RESTORE (R355): every engine has reloaded its slot, which becomes free. -/
def execConvoyRestore (partition : Fin 8) (s : State) : Out :=
  let p := partition.val
  match s.part? p with
  | none => .next s
  | some x => match x.forcing with
    | none => .next s
    | some f => match x.slots.find? (fun y => y.convoy = f.victim) with
      | none => .next s
      | some slot =>
        if !s.working || !f.restore then .next s
        else
          let es := s.enginesIn p
          let s := es.foldl (fun s e => match mget slot.engines e with
            | some v => s.modEng e (fun w => v.restored w)
            | none => s) s
          let s := s.chargePreempt es f.since
          let s := es.foldl (fun s e => s.modEng e (fun v => { v with stopped := false })) s
          .next (s.modPart p (fun x => { x with
            slots := x.slots.filter (fun y => y.convoy ≠ f.victim), forcing := none }))

/-- A discarded pre-emption of a partition (R352): its engines' work is gone, unsaved. -/
def State.discard (s : State) (p : Nat) : State :=
  let s := ((s.enginesIn p).foldl (fun s e => (s.modEng e Eng.vacant).forgetTile e) s).orphan
  s.modPart p (fun x => { x with forcing := none, switching := none })

end Sys2Proof.Machine
end

