-- ==== Sys2Proof/Machine/Deliver.lean ====
section
/-! DEFINITION. What answers of the host and of other dies do to the strings that asked (R78, R226, R247, R472, R473), and
what a caravan port that goes down does to the requests that left through it (R465, R476). -/

namespace Sys2Proof.Machine

/-! ### Strings -/

/-- Groups that wait to release go on once nothing is owed any more (R179). -/
def State.unblockRelease (s : State) (e place : Nat) : State :=
  if s.unacked e place then s else s.modStr e place (fun st => st.unblock (fun b => b = .release))

/-- A string's request ends with data, or with poison: its dispatch then retires with E_DATA_POISON (R226). A store has no
consumer of data. A request of the host through BAR4 is completed (R251). -/
def State.deliverTo (s : State) (d : NpDest) (data : List Byte) (bad : Bool) : State :=
  match d.string with
  | none => match d with
    | .aperture n => s.send (.completion 0 (slice data 0 n) bad)
    | _ => s
  | some (e, place) => match s.str? e place with
    | none => s
    | some st =>
      let fail := s.trap e st.queue st.cmd ePoison 0
      match d with
      | .load _ _ dst lane width sgn =>
        if bad then fail
        else
          let n := leNat (slice data 0 width)
          let n := if sgn && width < 4 then wrapInt 32 (sext (8 * width) n) else n
          s.setStr e place (st.setVn dst lane ((width + 3) / 4) n)
      | .atomic _ _ dst lane width ret =>
        if bad then fail
        else (if ret then s.setStr e place (st.setVn dst lane ((width + 3) / 4) (leNat (slice data 0 width))) else s).unblockRelease e place
      | .combined _ _ dst op width lanes ret =>
        if bad then fail
        else
          let n := if width = 1 then 2 else 1
          let (free, s) := s.draw
          let old := leNat (slice data 0 (4 * n))
          let vals := (atomCombined op width old free lanes).2
          (if ret then s.setStr e place (vals.foldl (fun st p => st.setVn dst p.1 n p.2) st) else s).unblockRelease e place
      | .store _ _ => s.unblockRelease e place
      | .aperture _ | .other => s

/-! ### Requests to other dies (R472, R473) -/

/-- The SIGNAL of a command reaches no die any more: it is dropped, and the command retires with E_CVL_UNREACHABLE; its
record is written whatever CREC says (R473). -/
def State.dropSignal (s : State) (q cmd : Nat) : State :=
  match s.queue? q, s.cmd? q cmd with
  | some v, some c => match signalOf c.opcode c.payload with
    | none => s
    | some g =>
      let s := s.log 0x0E g.event g.die 0
      let err := s.finalError c false
      let (lost, s) := s.writeRecord q v c err false
      (s.modCmd q cmd (fun c => { c with st := .ended err })).finishRetire q v c err lost
  | _, _ => s

/-- A SIGNAL whose message was lost is sent again over what ports are left (R473). -/
def State.resendSignal (s : State) (q cmd : Nat) : State :=
  match s.cmd? q cmd with
  | none => s
  | some c => match signalOf c.opcode c.payload with
    | none => s
    | some g =>
      if !s.signalable g.die then s.dropSignal q cmd
      else (s.cvlRequest 5 g.die g.event 0 (leBytes 16 g.value) .other (some (q, cmd)) false 0).getD s

/-- A read of a read-only page fills L1 and L2 with the line (R14, R158). -/
def State.fillRemote (s : State) (r : CvlReq) (data : List Byte) : State :=
  match r.dest.string with
  | none => s
  | some (e, _) =>
    let s := s.modEng e (fun v => v.l1Fill (l1Tag (r.addr / 128) (some r.dst)) true (slice data 0 128))
    s.fillLine r.addr (some r.dst) 1 (BitVec.allOnes 128) 0 (slice data 0 128)

/-- A request to another die ends: with its response, or poisoned (R465, R472). -/
def State.endReq (s : State) (tag : Nat) (data : List Byte) (bad : Bool) : State :=
  match mget s.caravan.reqs tag with
  | none => s
  | some r =>
    let s := { s with caravan := { s.caravan with reqs := merase s.caravan.reqs tag } }
    match r.signal with
    | some (q, cmd) => if bad then s.resendSignal q cmd else s
    | none =>
      let s := if r.fill && !bad then s.fillRemote r data else s
      let data := if r.type = 1 then data.drop r.off else data
      s.deliverTo r.dest data (bad && (r.type = 1 || r.type = 4))

/-- Every request outstanding through a port completes poisoned at its source (R465). -/
def State.losePort (s : State) (p : Nat) : State :=
  let tags := (s.caravan.reqs.filter (fun r => r.2.port = p)).map (fun r => r.1)
  tags.foldl (fun s t => s.endReq t [] true) s

/-- A port leaves normal operation: its link is down and trains in the background, what it held is gone. -/
def State.dropLink (s : State) (p : Nat) : State :=
  (s.modPort p (fun v => { v with link := 1, replay := [], rxPartial := [], replaysInRow := 0 })).losePort p

/-- A port declares itself down (R465): F_CVL_DOWN, which fences the port at its third time within WINDOW (R476). -/
def State.portDown (s : State) (p : Nat) : State :=
  let window := (s.policy 0x0503).window
  let downs := ((s.caravan.port p).downs ++ [s.aclk]).filter (fun t => s.aclk ≤ t + window)
  let s := (s.modPort p (fun v => { v with downs := downs })).dropLink p
  s.recordFaultBy { code := 0x0503, kind := 4, index := p, addr := 0, info := 0, waybill := 0, seq := 0 } (3 ≤ downs.length)

end Sys2Proof.Machine
end

