-- ==== Sys2Proof/Machine/Fencing.lean ====
section
/-! DEFINITION. Fences (R486 to R494): what each kind of unit does when it is fenced (R487) and when it returns (R492),
UNIT_FENCE, UNIT_READMIT and the quiet-period exit. A fence takes effect in the command that records it. -/

namespace Sys2Proof.Machine

def eFltNotFenced : Nat := 0x0902
def eUnitFenced : Nat := 0x0903

/-- A display pipe at reset (R441). -/
def Pipe.reset : Pipe :=
  { cfg := [], crcRef := 0, enabled := false, starting := false, stopping := false, fenced := false, link := 0, lanes := 0
    rate := 0, failedRetrains := 0, dscOn := false, flatValid := false, flatOff := false, locked := false
    fsyncLost := false, fsyncRange := false, layerOff := 0, frames := 0, underruns := 0, underrunLogged := false
    vtotal := 0, d := 0, stamp := 0 }

def State.pipe (s : State) (p : Nat) : Pipe := mgetD s.pipes p Pipe.reset
def State.modPipe (s : State) (p : Nat) (f : Pipe → Pipe) : State := { s with pipes := mset s.pipes p (f (s.pipe p)) }

/-! ### Ways and slices (R163, R164, R170) -/

/-- Cache ways of a slice that are enabled. -/
def Mem.cacheWays (m : Mem) (sl : Nat) : Nat :=
  ((List.range 16).filter (fun w => !m.srWay w && !bit (m.slice sl).off.toNat w)).length

/-- Change one slice. -/
def State.modSlice (s : State) (i : Nat) (f : Slice → Slice) : State := { s with mem := s.mem.setSlice i (f (s.mem.slice i)) }

/-- Strongroom ways of a slice are lost: their bytes are gone, and F_STRONGROOM_LOST is recorded once (R170). -/
def State.loseSr (s : State) (i kind index : Nat) (ways : Nat) : State :=
  if ways = 0 then s
  else
    let s := s.modSlice i (fun v => { v with lost := v.lost ||| BitVec.ofNat 16 ways })
    s.report 0x0304 kind index 0 0

/-- Zeros in every byte of a strongroom way (R168, R170). -/
def Mem.zeroSrWay (m : Mem) (sl w : Nat) : Mem :=
  let mine := fun (a : Nat) => srBase ≤ a && a < srBase + m.srWays * 4 * 2 ^ 20 &&
    (srPlace m.srWays (a - srBase)).1 = sl && (srPlace m.srWays (a - srBase)).2.1 = w
  { m with cells := m.cells.filter (fun c => !mine c.1), poison := m.poison.filter (fun p => !mine (32 * p)) }

/-- A strongroom way comes back into service with zeros (R170). -/
def State.returnSr (s : State) (sl w : Nat) : State :=
  ({ s with mem := s.mem.zeroSrWay sl w }).modSlice sl (fun v => { v with
    lost := v.lost &&& ~~~BitVec.ofNat 16 (2 ^ w), wayCe := merase v.wayCe w, weak := v.weak.filter (· ≠ w) })

/-- A slice is written back and invalidated, and served by its remap slice (R164). -/
def State.sliceOff (s : State) (i : Nat) : State :=
  let s := s.flushWays i (fun _ => true)
  let s := s.modSlice i (fun v => { v with fenced := true, wayCe := [] })
  s.loseSr i 3 i (maskOf ((List.range 16).filter (fun w => s.mem.srWay w)))

/-- Enter a fence that no recorded fault asks for (R163, R486). -/
def State.enterFence (s : State) (kind index code : Nat) (software : Bool) : State :=
  let perm := !software && 8 ≤ s.recentExits kind index (s.policy code).window
  let fe : Fence := { software := software, code := code, cls := faultClass code, permanent := perm
                      since := s.aclk, applied := false }
  (s.noting (fun s => { s with flt := { s.flt with fences := mset s.flt.fences (unitKey kind index) fe } })).capChanged

/-- With fewer than two cache ways left, the collector fences the slice (R163). -/
def State.checkSlice (s : State) (i : Nat) : State :=
  if s.mem.cacheWays i < 2 && !s.fenced 3 i && !s.flt.fatal then s.enterFence 3 i 0x0204 false else s

/-- A way leaves service (R163, R170). -/
def State.wayOff (s : State) (i w : Nat) : State :=
  if bit (s.mem.slice i).off.toNat w then s
  else
    let s := s.flushWays i (fun x => x = w)
    let s := s.modSlice i (fun v => { v with off := v.off ||| BitVec.ofNat 16 (2 ^ w), wayCe := merase v.wayCe w })
    let s := if s.mem.srWay w then s.loseSr i 2 (16 * i + w) (2 ^ w) else s
    s.checkSlice i

/-- A way returns (R163, R170). -/
def State.wayOn (s : State) (i w : Nat) : State :=
  let s := s.modSlice i (fun v => { v with
    off := v.off &&& ~~~BitVec.ofNat 16 (2 ^ w), wayCe := merase v.wayCe w, weak := v.weak.filter (· ≠ w) })
  if s.mem.srWay w && !(s.mem.slice i).fenced then s.returnSr i w else s

/-- A slice returns: its lines leave the remap slice, its enabled strongroom ways return with zeros (R492). -/
def State.sliceOn (s : State) (i : Nat) : State :=
  let j := s.mem.remap i
  let mine := fun (p : Nat × L2Line) => p.1 / 32768 = j && sliceOf (128 * p.2.line) = i
  let s := (s.mem.lines.filter mine).foldl (fun s p => s.evict p.1) s
  let s := s.modSlice i (fun v => { v with fenced := false })
  let back := (List.range 16).filter (fun w => s.mem.srWay w && !bit (s.mem.slice i).off.toNat w)
  (back.foldl (fun s w => s.returnSr i w) s).checkSlice i

/-! ### Engines (R150, R487, R488) -/

/-- A member of a broken gang starts its layer again on the fallback kernel (R150); on an engine that a pre-emption
holds it starts after the restore. -/
def State.breakMember (s : State) (m : Nat) : State :=
  let v := s.eng m
  let gangs := v.disps.filter (fun d => match s.cmd? d.queue d.cmd with | some c => c.opcode = 0x02 | none => false)
  let s := s.modEng m (fun v => { v with atGang := none, arrive := none, gangParked := false })
  gangs.foldl (fun s d =>
    let s := (s.killCmd m d.queue d.cmd).modCmd d.queue d.cmd (fun c => { c with st := .accepted })
    let mask := s.gangMask (m / 4)
    match s.queue? d.queue, s.cmd? d.queue d.cmd with
    | some q, some c => if s.frozen m then s else s.startFallback d.queue q c ((bitList mask 4).headD 0) mask
    | _, _ => s) s

/-- The gang layers that members hold in a save slot start again when they are restored (R150). -/
def State.breakSaved (s : State) (quad : List Nat) (slot : Slot) : Slot × State :=
  slot.engines.foldl (fun (r : Slot × State) p =>
    if !quad.contains p.1 then r
    else
      let gangs := p.2.disps.filter (fun d => d.gang)
      let v := gangs.foldl (fun (v : Eng) d => v.kill d.queue d.cmd) p.2
      let v : Eng := { v with atGang := none, arrive := none, gangParked := false }
      ({ r.1 with engines := mset r.1.engines p.1 v },
        gangs.foldl (fun s d => s.modCmd d.queue d.cmd (fun c => { c with st := .accepted })) r.2)) (slot, s)

/-- The fence of an engine discards its part of a save slot: its started commands retire with E_UNIT_FENCED (R488). -/
def State.fenceSaved (s : State) (e p : Nat) (slot : Slot) : State :=
  match mget slot.engines e with
  | none => s
  | some v =>
    let s := v.disps.foldl (fun s d => s.endCmd d.queue d.cmd eUnitFenced 0) s
    let slot : Slot := { slot with engines := merase slot.engines e }
    let (slot, s) := if v.disps.any (fun d => d.gang) then s.breakSaved (quadOf e) slot else (slot, s)
    s.modPart p (fun x => { x with slots := x.slots.map (fun y => if y.convoy = slot.convoy then slot else y) })

/-- An engine is fenced (R487, R488). -/
def State.fenceEngine (s : State) (e : Nat) : State :=
  let s := s.settle e
  let v := s.eng e
  let s := v.disps.foldl (fun s d => s.trap e d.queue d.cmd eUnitFenced 0) s
  let s := (s.passes.filter (fun p => mhas p.2.members e)).foldl (fun s p => s.abandonPass p.1 ePassAbandoned) s
  let s := s.parts.foldl (fun s p => p.2.slots.foldl (fun s y => s.fenceSaved e p.1 y) s) s
  let s := ((s.modEng e Eng.vacant).forgetTile e).orphan
  ((quadOf e).filter (· ≠ e)).foldl State.breakMember s

/-- A re-admitted engine starts empty, with the active microcode (R537) and its partition's boundary, and fetches from the resident convoy's queue unless
its partition is switching (R155, R190, R338, R492). -/
def State.returnEngine (s : State) (e : Nat) : State :=
  let v := s.eng e
  let part := (s.partOf e).bind s.part?
  let tns := (part.map (fun x => x.tnsMin)).getD 0
  let hold := match part with | some x => x.switching.isSome || x.forcing.isSome | none => false
  let v : Eng := { Eng.reset with
    ucode := s.activeUcode, nextWg := v.nextWg, nextTensor := v.nextTensor, tb := 16 - tns, stopped := hold }
  (((s.setEng e v).forgetTile e).tlbEmpty e).tlbEmpty (32 + e)

/-! ### Every kind of unit (R487) -/

/-- A fence takes effect on its unit. -/
def State.fenceUnit (s : State) (kind index : Nat) : State :=
  match kind with
  | 0 => s.fenceEngine index
  | 1 => (s.passes.filter (fun p => p.2.fronts.any (fun f => f.quad = index))).foldl
      (fun s p => s.abandonPass p.1 ePassAbandoned) s
  | 2 => s.wayOff (index / 16) (index % 16)
  | 3 => s.sliceOff index
  | 4 => (s.modPort index (fun v => { v with fenced := true })).dropLink index
  | 5 => s.modPipe index (fun v => { v with fenced := true })
  | 6 => s.failJob (4 + index) eCmpFenced
  | 7 => s.failJob index eUnitFenced
  | 9 => s.setRing index { s.ring index with fenced := true, enabled := false, ignoredWrite := false }
  | _ => s

/-- Give every fence that has been entered its effect; a lost slice may follow from a lost way. -/
def State.applyFences (s : State) : State :=
  loop 2 s (fun s _ => (s.flt.fences.filter (fun f => !f.2.applied)).foldl (fun s f =>
    let s := { s with flt := { s.flt with fences := mmod s.flt.fences f.1 (fun x => { x with applied := true }) } }
    if s.flt.fatal then s else s.fenceUnit (f.1 / 256) (f.1 % 256)) s)

/-- A unit returns to service (R492). -/
def State.returnUnit (s : State) (kind index : Nat) : State :=
  match kind with
  | 0 => s.returnEngine index
  | 2 => s.wayOn (index / 16) (index % 16)
  | 3 => s.sliceOn index
  | 4 => s.modPort index (fun v => { v with fenced := false, link := 1 })
  | 5 => s.modPipe index (fun v => { v with fenced := false, link := 1 })
  | 6 => s.tlbEmpty (68 + index)
  | 7 => s.tlbEmpty (64 + index)
  | 8 => { s with mem := { s.mem with channels := mmodD s.mem.channels index Channel.reset (fun c =>
      { c with failed := false, training := true }) } }
  | 9 => s.setRing index { s.ring index with fenced := false }
  | _ => s

/-- A record with SOFTWARE or READMIT set: logged and sent as a cookie, with no pulse (R486). -/
def State.noteUnit (s : State) (code cls flags kind index : Nat) : State :=
  s.addRecord
    { code := code, cls := cls, flags := flags, unitKind := kind, index := index
      recoveries := mgetD s.flt.recoveries (unitKey kind index) 0, count := 1, addr := 0, info := 0, waybill := 0
      seq := 0, stamp := s.aclk, detect := BitVec.ofNat 64 (s.stamp domA) } true true false

/-- Code and class of the fence that an exit ends: that of a disabled way or a FAILED channel where no fence is
entered. -/
def State.fenceCode (s : State) (kind index : Nat) : Nat :=
  match s.fence? kind index with
  | some f => f.code
  | none => if kind = 2 then 0x0204 else 0x0105

/-- The exit from the fence (R492), with the result of its self-test. -/
def State.exitFence (s : State) (kind index : Nat) (selfTest : Bool) : State :=
  let k := unitKey kind index
  let code := s.fenceCode kind index
  let flt := { s.flt with
    recoveries := mmodD s.flt.recoveries k 0 (· + 1)
    exits := mmodD s.flt.exits k [] (fun l => l ++ [s.aclk])
    fences := merase s.flt.fences k }
  if !selfTest && kind ≠ 8 then
    -- the unit is fenced again; its work is gone already
    let s := ({ s with flt := flt }.report (if kind = 3 then 0x0205 else 0x1004) kind index 0 0)
    { s with flt := { s.flt with fences := mmod s.flt.fences k (fun f => { f with applied := true }) } }
  else
    let s := (s.noting (fun s => { s with flt := flt })).returnUnit kind index
    ((s.noteUnit code (faultClass code) 0x10 kind index).capChanged).applyFences

/-- FENCE_QUIET_EXPIRY (R491): QUIET has passed with no new fault on a unit under a fault fence; the exit waits for the
caravan master. A disabled way waits for its re-admission (R487). -/
def execFenceQuietExpiry (kind index : Nat) (selfTest : Bool) (s : State) : Out :=
  match s.fence? kind index with
  | none => .next s
  | some f =>
    if !s.live || f.software || f.permanent || kind = 2 || !s.fw.masterAlive then .next s
    else .next (s.exitFence kind index selfTest)

/-- Indices of a kind of R299. -/
def kindCount (kind : Nat) : Nat :=
  match kind with
  | 0 => 32 | 1 => 8 | 2 => 256 | 3 => 16 | 4 => 4 | 5 => 4 | 6 => 2 | 7 => 4 | 8 => 24 | 9 => 16 | _ => 0

/-- UNIT_FENCE (R299, R486, R488, R494). -/
def execUnitFence (pair : Fin 8) (s : State) : Out :=
  s.mbxCmd pair 0x0804 (fun r s =>
    let kind := r.n 0x10 1
    let index := r.n 0x11 1
    if !fenceable kind || kindCount kind ≤ index then (.err eBadParameter, s)
    else match s.fence? kind index with
      | some f =>
        if f.software then (Ans.done, s)
        else
          let g : Fence := { f with software := true, code := 0x1007, cls := 3 }
          let s := { s with flt := { s.flt with fences := mset s.flt.fences (unitKey kind index) g } }
          (Ans.done, s.noteUnit 0x1007 3 (8 + b2n f.permanent * 2) kind index)
      | none => (Ans.done, ((s.noteUnit 0x1007 3 9 kind index).enterFence kind index 0x1007 true).applyFences))

/-- Is a unit out of service so that UNIT_READMIT applies to it: under a fence, a disabled way, or a FAILED channel? -/
def State.readmittable (s : State) (kind index : Nat) : Bool :=
  (s.fence? kind index).isSome || (kind = 2 && bit (s.mem.slice (index / 16)).off.toNat (index % 16))
  || (kind = 8 && (s.mem.chan index).failed)

/-- UNIT_READMIT (R299, R494). -/
def execUnitReadmit (pair : Fin 8) (selfTest : Bool) (s : State) : Out :=
  s.mbxCmd pair 0x0805 (fun r s =>
    let kind := r.n 0x10 1
    let index := r.n 0x11 1
    let perm := match s.fence? kind index with | some f => f.permanent | none => false
    if kindCount kind ≤ index then (.err eBadParameter, s)
    else if !s.readmittable kind index then (.err eFltNotFenced, s)
    else if (perm || kind = 2 || kind = 8) && r.role ≠ 3 then (.err eRole, s)
    else (Ans.done, s.exitFence kind index selfTest))

end Sys2Proof.Machine
end

