-- ==== Sys2Proof/Machine/Dram.lean ====
section
/-! DEFINITION. The memory system's own steps (chapters 05 and 07): corrected errors, the error log (R231, R232),
scrubbers (R233, R234), PHY tracking (R236), live retraining and channel loss (R237, R238), strongroom conversion (R168,
R169), and the memory commands of the mailbox. -/

namespace Sys2Proof.Machine

def eStrongroomWays : Nat := 0x0205
def eStrongroomInUse : Nat := 0x0206
def eDrcPopulation : Nat := 0x0301
def eDrcNoSpill : Nat := 0x0302
def eDrcBusy : Nat := 0x0303

def State.modChan (s : State) (c : Nat) (f : Channel → Channel) : State :=
  { s with mem := { s.mem with channels := mset s.mem.channels c (f (s.mem.chan c)) } }

/-- Clock domain of a channel's controller (R504). -/
def Mem.dclk (m : Mem) (c : Nat) : Nat := 0x10 + c / m.perCtl

/-- Data rate in MT/s of a RATE in units of 100 MT/s (R217, R239). -/
def rateMts (r : Nat) : Nat := if r = 106 then 10667 else if r = 85 then 8533 else r * 100

/-! ### Retraining (R237, R238) -/

/-- Is some channel other than c excluded or on its way out? -/
def Mem.otherOut (m : Mem) (c : Nat) : Bool :=
  (List.range m.nch).any (fun i => i ≠ c && ((m.chan i).excluded || (m.chan i).migrating))

/-- May a channel be excluded now (R237)? -/
def Mem.canExclude (m : Mem) (c : Nat) : Bool :=
  m.spill ≠ 0 && !m.otherOut c && !(m.chan c).excluded && !(m.chan c).migrating

/-- Step 1 of R237: the migration pointer starts at 0. -/
def State.startMigration (s : State) (c : Nat) : State :=
  s.modChan c (fun v => { v with migrating := true, back := false, pointer := 0, retrainWanted := false })

/-- A channel with too many corrected errors is retrained, or the caravan master logs that it waits (R231). -/
def State.wantRetrain (s : State) (c : Nat) : State :=
  if s.mem.canExclude c then s.startMigration c
  else (s.modChan c (fun v => { v with retrainWanted := true })).log 0x0A (c * 256) (s.mem.chan c).corrected.toNat 0

/-- MIGRATION_GRANULE_COPY (R237): granule P has been copied, and P advances; at the end the channel is excluded and is
trained, unless it is FAILED, or it is included again. -/
def execMigrationGranuleCopy (channel : Fin 24) (s : State) : Out :=
  let c := channel.val
  let v := s.mem.chan c
  if !s.working || !v.migrating then .next s
  else if v.pointer + 1 < s.mem.granules then .next (s.modChan c (fun v => { v with pointer := v.pointer + 1 }))
  else if v.back then
    .next (s.modChan c (fun v => { v with migrating := false, back := false, excluded := false, pointer := 0 }))
  else .next (s.modChan c (fun v => { v with
    migrating := false, excluded := true, pointer := 0, training := !v.failed }))

/-- A channel that cannot be trained or reached: it stays excluded as FAILED, or the loss is fatal (R238). -/
def State.loseChannel (s : State) (c : Nat) (readable : Bool) : State :=
  let v := s.mem.chan c
  if s.mem.spill ≠ 0 && !s.mem.otherOut c && (readable || v.excluded) then
    let s := (s.modChan c (fun v => { v with
      failed := true, training := false, back := false, migrating := !v.excluded, pointer := 0 })).capChanged
    s.report 0x0105 8 c 0 0
  else s.report 0x0104 8 c 0 0

/-- CHANNEL_LOST (R238): a channel is unresponsive, or has failed training at the safe rate. -/
def execChannelLost (channel : Fin 24) (readable : Bool) (s : State) : Out :=
  if !s.live || s.mem.nch ≤ channel.val || (s.mem.chan channel.val).failed then .next s
  else .next (s.loseChannel channel.val readable)

/-- CHANNEL_RETRAIN (R235, R237): an excluded channel has been trained, or has failed; a channel whose retraining was
deferred starts it once nothing stands against it (R231). -/
def execChannelRetrain (channel : Fin 24) (ok : Bool) (s : State) : Out :=
  let c := channel.val
  let v := s.mem.chan c
  if !s.working then .next s
  else if v.training then
    let s := s.log 0x09 (3 + c * 256 + (if ok then 0 else 2 * 65536)) (rateMts v.rate) (if s.mem.mode = 0 then 24 else 16)
    if ok then .next (s.modChan c (fun v => { v with training := false, migrating := true, back := true, pointer := 0 }))
    else .next (s.loseChannel c true)
  else if v.retrainWanted && s.mem.canExclude c then .next (s.startMigration c)
  else .next s

/-- DRC_RETRAIN (R237). -/
def execDrcRetrain (pair : Fin 8) (s : State) : Out :=
  s.mbxCmd pair 0x0402 (fun r s =>
    let c := r.n 0x10 1
    if s.mem.nch ≤ c then (.err eBadParameter, s)
    else if s.mem.spill = 0 then (.err eDrcNoSpill, s)
    else if !s.mem.canExclude c then (.err eDrcBusy, s)
    else match s.startLong r [] with
      | (.progress, s) => (.progress, s.startMigration c)
      | r => r)

/-! ### Corrected errors (R231, R232) -/

/-- An entry of the correctable-error log. -/
def State.eccNote (s : State) (source unit sub position syndrome addr dom : Nat) : State :=
  let a := addr / 32 * 32
  let m := s.mem
  match m.eccLog.find? (fun e => e.source = source && e.addr = a) with
  | some _ =>
    let up := fun (e : EccEnt) => if e.source = source && e.addr = a then { e with repeats := satInc e.repeats } else e
    { s with mem := { m with eccLog := m.eccLog.map up } }
  | none =>
    let e : EccEnt := { addr := a, source := source, unit := unit, sub := sub, position := position
                        syndrome := BitVec.ofNat 32 syndrome, repeats := 0, stamp := BitVec.ofNat 64 (s.stamp dom) }
    let full := 32 ≤ m.eccLog.length
    { s with mem := { m with
        eccLog := (if full then m.eccLog.drop 1 else m.eccLog) ++ [e]
        logOverwritten := if full then satInc m.logOverwritten else m.logOverwritten } }

/-- A corrected DRAM error of a channel (R231): counts, log, and retraining once the lap's count exceeds CH_CE_LIMIT.
The symbol's position and its sub-channel are not in the report. -/
def State.dramCorrected (s : State) (c addr syndrome : Nat) : State :=
  let (free, s) := s.draw
  let s := s.modChan c (fun v => { v with corrected := satInc v.corrected, lapCe := v.lapCe + 1 })
  let s := s.eccNote 0 c (if s.mem.mode = 0 then bits addr 7 7 else 0) (free % 36) syndrome addr (s.mem.dclk c)
  if (s.mem.chan c).lapCe = s.setting 0x42 + 1 then s.wantRetrain c else s

/-- A corrected error in a slice (R231): cache (`sr` false) or strongroom. A report that names only the slice leaves the
way open. -/
def State.sliceCorrected (s : State) (i way addr syndrome : Nat) (sr : Bool) : State :=
  let (free, s) := s.draw
  let s := s.modSlice i (fun v => { v with
    corrected := if sr then v.corrected else satInc v.corrected
    correctedSr := if sr then satInc v.correctedSr else v.correctedSr
    wayCe := mmodD v.wayCe way 0 (· + 1) })
  s.eccNote (if sr then 3 else 1 + free % 2) i way (free / 2 % 72) (syndrome % 256)
    (if sr then addr - srBase else addr) domF

/-- WAY_CE_LIMIT_REACHED (R231): the way's count of this lap has reached WAY_CE_LIMIT. A strongroom way stays and is
recorded once. -/
def execWayCeLimitReached (slice way : Fin 16) (s : State) : Out :=
  let i := slice.val
  let w := way.val
  let limit := s.setting 0x41
  let v := s.mem.slice i
  if !s.working || limit = 0 || mgetD v.wayCe w 0 < limit || bit v.off.toNat w then .next s
  else if s.mem.srWay w then
    if v.weak.contains w then .next s
    else .next ((s.modSlice i (fun v => { v with weak := v.weak ++ [w] })).report 0x0302 2 (16 * i + w) 0 0)
  else .next (((s.report 0x0204 2 (16 * i + w) 0 0).wayOff i w).applyFences)

/-- ECC_LOG_READ (R232). -/
def execEccLogRead (pair : Fin 8) (s : State) : Out :=
  s.mbxCmd pair 0x0403 (fun r s =>
    let (a, n) := r.buf 0x10
    if n < 1024 || a % 8 ≠ 0 then (.err eBuffer, s)
    else
      let b := (s.mem.eccLog.map (fun e => leBytes 8 e.addr ++ leBytes 1 e.source ++ leBytes 1 e.unit ++ leBytes 1 e.sub
        ++ leBytes 1 e.position ++ leBytes 4 e.syndrome.toNat ++ leBytes 4 e.repeats.toNat ++ zeros 4
        ++ leBytes 8 e.stamp.toNat)).flatten
      (.ok (result [(0x10, 1, s.mem.eccLog.length), (0x14, 4, s.mem.logOverwritten.toNat)]) 0, s.output a b))

/-- ECC_LOG_CLEAR (R232). -/
def execEccLogClear (pair : Fin 8) (s : State) : Out :=
  s.mbxCmd pair 0x0404 (fun _ s => (Ans.done, { s with mem := { s.mem with eccLog := [], logOverwritten := 0 } }))

/-! ### Scrubbers (R233, R234): 0-3 the memory controllers, 16-31 the slices -/

/-- Granules of a channel, spill area included. -/
def Mem.allGranules (m : Mem) : Nat := m.dataArea / 256

/-- Channels of a controller that its scrubber covers now. -/
def Mem.scrubbed (m : Mem) (k : Nat) : List Nat :=
  (List.range m.nch).filter (fun c => c / m.perCtl = k && !(m.chan c).excluded && !(m.chan c).migrating && !(m.chan c).training)

/-- Lines of a slice: a scrubber skips disabled ways. -/
def Mem.lineStep (m : Mem) (i p : Nat) : Nat :=
  ((List.range 17).map (fun k => p + k)).find? (fun x => 32768 ≤ x || !bit (m.slice i).off.toNat (x % 16)) |>.getD 32768

/-- SCRUB_READ (R233): one granule of a channel of the controller, the least advanced one, or one line of the slice. -/
def execScrubRead (scrubber : Nat) (s : State) : Out :=
  if !s.working then .next s
  else if scrubber < 4 then
    let l := (s.mem.scrubbed scrubber).filter (fun c => (s.mem.chan c).scrubPos < s.mem.allGranules)
    let best := l.foldl (fun (b : Option Nat) c => match b with
      | none => some c
      | some x => if (s.mem.chan c).scrubPos < (s.mem.chan x).scrubPos then some c else some x) none
    match best with
    | none => .next s
    | some c => .next (s.modChan c (fun v => { v with scrubPos := v.scrubPos + 1 }))
  else if 16 ≤ scrubber && scrubber < 32 then
    let i := scrubber - 16
    let p := s.mem.lineStep i (s.mem.slice i).scrubPos
    if 32768 ≤ p then .next s else .next (s.modSlice i (fun v => { v with scrubPos := p + 1 }))
  else .next s

/-- Cycles of a scrubber's lap so far, in its own clock. -/
def State.lapCycles (s : State) (scrubber : Nat) : Nat :=
  (s.count (if scrubber < 4 then 0x10 + scrubber else domF) + 2 ^ 56 - mgetD s.mem.lapStart scrubber 0) % 2 ^ 56

/-- SCRUB_LAP_END (R231, R234): every granule, or every line of every enabled way, has been read. -/
def execScrubLapEnd (scrubber : Nat) (s : State) : Out :=
  let dur := s.lapCycles scrubber
  let now := s.count (if scrubber < 4 then 0x10 + scrubber else domF)
  let begin_ := fun (m : Mem) => { m with lapStart := mset m.lapStart scrubber now }
  if !s.working then .next s
  else if scrubber < 4 then
    let l := s.mem.scrubbed scrubber
    if l.any (fun c => (s.mem.chan c).scrubPos < s.mem.allGranules) then .next s
    else
      let m := begin_ s.mem
      let s := { s with mem := { m with
        laps := mset m.laps scrubber dur, lapWarned := m.lapWarned.filter (· ≠ scrubber) } }
      let all := (List.range s.mem.nch).filter (fun c => c / s.mem.perCtl = scrubber)
      let s := all.foldl (fun s c => s.modChan c (fun v => { v with scrubPos := 0, lapCe := 0 })) s
      .next (all.foldl (fun s c => if (s.mem.chan c).retrainWanted then s.wantRetrain c else s) s)
  else if 16 ≤ scrubber && scrubber < 32 then
    let i := scrubber - 16
    if s.mem.lineStep i (s.mem.slice i).scrubPos < 32768 then .next s
    else .next (({ s with mem := begin_ s.mem }).modSlice i (fun v => { v with scrubPos := 0, lap := dur, wayCe := [] }))
  else .next s

/-- LAP_WARN_EXPIRY (R234): a DRAM lap has exceeded LAP_WARN; one record per lap. -/
def execLapWarnExpiry (scrubber : Nat) (s : State) : Out :=
  if !s.working || 4 ≤ scrubber || s.mem.lapWarned.contains scrubber then .next s
  else .next (({ s with mem := { s.mem with lapWarned := s.mem.lapWarned ++ [scrubber] } }).log 0x0A
    (1 + scrubber * s.mem.perCtl * 256) (s.lapCycles scrubber) 0)

/-! ### PHY (R236) -/

/-- PHY_SAMPLER_STEP: the data sampler of a read lane moves one tap toward the eye centre; its side is the world's. -/
def execPhySamplerStep (lane : Nat) (up : Bool) (s : State) : Out :=
  if !s.working then .next s
  else .next { s with mem := { s.mem with taps := mmodD s.mem.taps lane 0 (fun t => if up then t + 1 else t - 1) } }

/-- DQS_OSCILLATOR_READ: write timing follows the reading. -/
def execDqsOscillatorRead (dram value : Nat) (s : State) : Out :=
  if !s.working then .next s else .next { s with mem := { s.mem with dqs := mset s.mem.dqs dram value } }

/-- IMPEDANCE_CALIBRATION. -/
def execImpedanceCalibration (code : Nat) (s : State) : Out :=
  if !s.working then .next s else .next { s with mem := { s.mem with impedance := mset s.mem.impedance 0 code } }

/-! ### Requests at the slices and controllers -/

/-- L2_ATOMIC (R172): a slice performs an atomic on a local address it owns; FADD, FMIN and FMAX are FP32 here. -/
def execL2Atomic (addr : Nat) (op : AtomOp) (wide : Bool) (operand compare : Dword) (s : State) : Out :=
  let w := b2n wide
  match atomWidth op w with
  | none => .next s
  | some n =>
    if !s.working || addr % n ≠ 0 then .next s
    else .next (s.atomAt addr n 0 (fun old => atomApply op w old (operand.toNat % 2 ^ (8 * n)) (compare.toNat % 2 ^ (8 * n)))).2

/-- L2_FILL (R161): a local line that is not present is read from memory into an eligible way. -/
def execL2Fill (line : Nat) (s : State) : Out :=
  let pa := 128 * line
  let sl := s.mem.remap (sliceOf pa)
  if !s.working || s.mem.whereIs pa ≠ .dram || (s.mem.findWay sl (setOf pa) line none).isSome
      || (s.mem.ways sl).isEmpty then .next s
  else .next (s.lineRead pa 0)

/-- DRAM_READ_MODIFY_WRITE (R229): the waiting partial writes of a sector are merged with what the sector holds. -/
def execDramReadModifyWrite (sector : Nat) (s : State) : Out :=
  if !s.working || s.mem.partials.all (fun p => p.sector ≠ sector) then .next s
  else
    let s := { s with mem := { s.mem with partials := s.mem.partials.filter (fun p => p.sector ≠ sector) } }
    .next ((s.dramTouch sector 1 false).dramTouch sector 1 true)

/-! ### Strongroom conversion (R168, R169) -/

/-- May the strongroom grow to w ways (R168)? -/
def Mem.srGrow (m : Mem) (w : Nat) : Bool :=
  w ≤ 8 && (List.range 16).all (fun i =>
    (m.slice i).fenced || ((List.range 16).filter (fun x => x < 16 - w && !bit (m.slice i).off.toNat x)).length ≥ 4
      && (List.range 16).all (fun x => !(16 - w ≤ x && x < 16 - m.srWays && bit (m.slice i).off.toNat x)))

/-- Ways that a growth to w takes, as a mask. -/
def Mem.srTaken (m : Mem) (w : Nat) : Nat := maskOf ((List.range 16).filter (fun x => 16 - w ≤ x && x < 16 - m.srWays))

/-- Step 1 and 2 of R168 on every slice. -/
def State.srStart (s : State) (w : Nat) : State :=
  let mask := s.mem.srTaken w
  let s := loop 16 s (fun s i => (s.modSlice i (fun v => { v with
    converting := true, leaving := BitVec.ofNat 16 mask })).flushWays i (fun x => bit mask x))
  { s with mem := { s.mem with srTarget := some w } }

/-- Steps 3 and 4: the new ways hold zeros, the window grows. Ways of a fenced slice are lost at once (R170). -/
def State.srFinish (s : State) (w : Nat) : State :=
  let mask := s.mem.srTaken w
  let drop := fun (m : Map Nat) => m.filter (fun p => !bit mask p.1)
  let s := loop 16 s (fun s i => s.modSlice i (fun v => { v with
    converting := false, leaving := 0, wayCe := drop v.wayCe, weak := v.weak.filter (fun x => !bit mask x) }))
  let s := ({ s with mem := { s.mem with srWays := w, srTarget := none } }.setSetting 0x45 w).capChanged
  loop 16 s (fun s i => if (s.mem.slice i).fenced then s.loseSr i 3 i mask else s)

/-- A decrease (R169): the window shrinks, and the released ways serve the cache again. -/
def State.srShrink (s : State) (w : Nat) : State :=
  let top := srBase + w * 4 * 2 ^ 20
  let gone := fun (x : Nat) => 16 - s.mem.srWays ≤ x && x < 16 - w
  let mask := maskOf ((List.range 16).filter gone)
  let s := loop 16 s (fun s i => s.modSlice i (fun v => { v with
    lost := v.lost &&& ~~~BitVec.ofNat 16 mask, wayCe := v.wayCe.filter (fun p => !gone p.1)
    weak := v.weak.filter (fun x => !gone x) }))
  let m := s.mem
  ({ s with mem := { m with
      srWays := w, cells := m.cells.filter (fun c => c.1 < top || srBase + srSpan ≤ c.1)
      poison := m.poison.filter (fun p => 32 * p < top || srBase + srSpan ≤ 32 * p) } }.setSetting 0x45 w).capChanged

/-- L2_SET_STRONGROOM (R168, R169): an increase answers when STRONGROOM_CONVERSION_END says that every slice is done. -/
def execL2SetStrongroom (pair : Fin 8) (s : State) : Out :=
  if s.mem.srTarget.isSome then .next s
  else
    let w := (s.mbx pair.val).req
    let w := getLe w 0x10 1
    let ok := fun (n : Nat) => Ans.ok (result [(0x10, 1, n)]) 0
    -- an increase that passes every check starts and leaves its request waiting
    let probe := s.mbxCmd pair 0x0330 (fun _ s =>
      if 8 < w then (.err eStrongroomWays, s)
      else if s.mem.srWays < w then
        (if s.mem.srGrow w then (.ok (zeros 48) 0, s.srStart w) else (.err eStrongroomWays, s))
      else if w < s.mem.srWays then
        (if s.mmu.backings.any (fun b => b.2.placement = 1 && srBase + w * 4 * 2 ^ 20 < b.2.base + b.2.size) then
          (.err eStrongroomInUse, s) else (ok w, s.srShrink w))
      else (ok w, s))
    match probe with
    | .next t => if t.mem.srTarget.isSome then .next (s.srStart w) else .next t
    | r => r

/-- STRONGROOM_CONVERSION_END (R168 steps 3 and 4): the response of the waiting request is sent only now. -/
def execStrongroomConversionEnd (s : State) : Out :=
  match s.mem.srTarget with
  | none => .next s
  | some w =>
    if !s.working then .next s
    else
      let s := s.srFinish w
      let waits := (List.range 8).find? (fun n => (s.mbx n).reqPending && frameOp (s.mbx n).req = 0x0330
        && getLe (s.mbx n).req 0x10 1 = w)
      match waits with
      | none => .next s
      | some n => s.mbxServe n (fun b => frameOp b = 0x0330) (fun _ s => (.ok (result [(0x10, 1, w)]) 0, s))

/-- DRC_CONFIGURE (R215, R216, R228): stored for the next boot. -/
def execDrcConfigure (pair : Fin 8) (s : State) : Out :=
  s.mbxCmd pair 0x0401 (fun r s =>
    let mode := r.n 0x10 1
    let density := r.n 0x11 1
    let ranks := r.n 0x12 1
    let pt := r.n 0x18 4
    if 1 < mode || !(if mode = 0 then [2, 4, 8] else [1, 2, 4]).contains density || ranks = 0 || 2 < ranks
        || 1 < r.n 0x13 1 || 2 < r.n 0x14 1 || pt < 16 || 4096 < pt then (.err eBadParameter, s)
    else if Config.mixedPopulation then (.err eDrcPopulation, s)
    else (Ans.done, (s.setSetting 0x40 (r.n 0x10 8)).setSetting 0x46 pt))

end Sys2Proof.Machine
end

