-- ==== Sys2Proof/Machine/Logbook.lean ====
section
/-! DEFINITION. The logbook's writer (R497 to R501), the ends of long operations (R292, R295), and the commands that read
the collector's and the logbook's records and set the fault policy (R484, R485, R501). -/

namespace Sys2Proof.Machine

/-! ### The writer (R497, R500) -/

/-- One record goes to MRAM. The latest 4,096 are held. -/
def State.putLog (s : State) (r : LogRec) : State :=
  let n := s.logbook.next.toNat
  let keep := (mset s.logbook.records n r).filter (fun p => (n + 2 ^ 32 - p.1) % 2 ^ 32 < 4096)
  { s with logbook := { s.logbook with records := keep, next := s.logbook.next + 1 } }

/-- A record of the always-on domain itself, written at once. -/
def State.putOwn (s : State) (type arg0 : Nat) : State :=
  s.putLog { LogRec.blank type 2 with stamp := s.aclk, boot := s.bootCount, arg0 := BitVec.ofNat 64 arg0 }

/-- The oldest queued record is written and its entry frees: a LOST record follows where submissions were dropped, and a
fatal record that the collector holds takes the entry. Nothing is written while power is failing. -/
def State.writeLog (s : State) : State :=
  match s.logbook.queue with
  | [] => s
  | r :: rest =>
    if !s.aon || s.logbook.warnAt.isSome then s
    else
      let s := ({ s with logbook := { s.logbook with queue := rest } }).putLog r
      let s := if s.logbook.lost = 0 then s
        else
          let n := s.logbook.lost
          ({ s with logbook := { s.logbook with lost := 0 } }).putOwn 0x0F n
      match s.logbook.heldFatal with
      | [] => s
      | h :: hs =>
        let kept := s.logbook.queue.all (fun q => !q.kept)
        { s with logbook := { s.logbook with
          queue := s.logbook.queue ++ [{ h with kept := kept, stamp := s.aclk }], heldFatal := hs } }

/-- Every queued record is written; the steps of boot leave the writer the time for it. -/
def State.drainLog (s : State) : State := loop 24 s (fun s _ => s.writeLog)

/-- LOGBOOK_WRITE (R497). -/
def execLogbookWrite (s : State) : Out := .next s.writeLog

/-! ### Long operations (R292, R295) -/

/-- UPDATING sets once FW_ACTIVATE, its image verified, is the only long operation left (R536). -/
def State.beginPause (s : State) : State :=
  if !s.fw.updating && s.fw.longOps.any (fun l => l.opcode = 0x0911 && l.refused = 0) && s.fw.longOps.length = 1 then
    s.noting (fun s => { s with fw := { s.fw with updating := true } })
  else s

/-- A long operation ends: the kept response becomes final and the pair's vector is raised; after its session has closed
the result is found only in the logbook. -/
def State.endLong (s : State) (l : LongOp) (a : Ans) : State :=
  let (status, flags, err, res) := match a with
    | .ok res flags => (0, flags, 0, res)
    | .err code => (1, 0, code, zeros 48)
    | .progress => (2, 0, 0, zeros 48)
  let s := { s with fw := { s.fw with longOps := s.fw.longOps.filter (fun x => x ≠ l) } }.beginPause
  let s := s.logCommand l.role l.session l.opcode l.tag status err
  if mhas s.fw.sessions l.session then
    let b := response l.opcode l.tag l.session l.rev status flags err res
    let f := fun (k : Kept) => if k.tag = l.tag && k.running then { k with rsp := b, running := false } else k
    (s.modSession l.session (fun x => { x with kept := x.kept.map f })).interrupt l.pair 0x3 0 l.pair l.tag
  else
    s.submit { LogRec.blank 0x10 0 with
      role := l.role, session := BitVec.ofNat 32 l.session, opcode := l.opcode, tag := l.tag, error := err
      arg0 := BitVec.ofNat 64 status } false

def eLedgerWrite : Nat := 0x0915

/-- Settings as bytes, for an operation that keeps them: 4-byte key and 8-byte value each; and back. -/
def packSettings (m : Map Dword) : List Byte := m.flatMap (fun p => leBytes 4 p.1 ++ leBytes 8 p.2.toNat)
def unpackSettings (b : List Byte) : Map Dword :=
  (chunksOf 12 b).map (fun c => (getLe c 0 4, BitVec.ofNat 64 (getLe c 4 8)))

/-- A store of the settings that was cut short (R532): one copy is whole. How far the writes had come stands open: the
older copy unchanged, torn or written, and then the other one torn or written. -/
def State.tearSettings (s : State) (entries : Map Dword) : State :=
  let (r, s) := s.draw
  let m := s.mram
  let aNew := m.settingsA.valid && (!m.settingsB.valid || m.settingsB.generation.toNat ≤ m.settingsA.generation.toNat)
  let older := if aNew then m.settingsB else m.settingsA
  let newer := if aNew then m.settingsA else m.settingsB
  let fresh : SettingsCopy := { generation := newer.generation + 1, entries := entries, valid := true }
  let (o, n) := match r % 5 with
    | 0 => (older, newer)
    | 1 => ({ older with valid := false }, newer)
    | 2 => (fresh, newer)
    | 3 => (fresh, { newer with valid := false })
    | _ => (fresh, fresh)
  { s with mram := if aNew then { m with settingsA := n, settingsB := o } else { m with settingsA := o, settingsB := n } }

/-- POWER_FAIL_WARNING (R500, R532): no new write starts; a settings store stops. -/
def execPowerFailWarning (s : State) : Out :=
  if !s.pins.pwrFailN || s.power.st = .off then .next s
  else
    let s := { s with pins := { s.pins with pwrFailN := false }, logbook := { s.logbook with warnAt := some s.aclk } }
    .next ((s.fw.longOps.filter (fun l => l.opcode = 0x0905)).foldl (fun s l => (s.tearSettings (unpackSettings l.data)).endLong l (.err eLedgerWrite)) s)

/-- POWER_FAIL_RELEASE (R500): the writer resumes with a POWER_WARN record. -/
def execPowerFailRelease (s : State) : Out :=
  let s := { s with pins := { s.pins with pwrFailN := true } }
  match s.logbook.warnAt with
  | none => .next s
  | some t =>
    if !s.aon then .next { s with logbook := { s.logbook with warnAt := none } }
    else .next (({ s with logbook := { s.logbook with warnAt := none } }).putOwn 0x11 t)

/-! ### Records as bytes (R483, R498) -/

/-- The 64 bytes of a fault record. -/
def FltRecord.bytes (n : Nat) (r : FltRecord) : List Byte :=
  leBytes 4 n ++ leBytes 2 r.code ++ leBytes 1 r.cls ++ leBytes 1 r.flags ++ leBytes 1 r.unitKind ++ leBytes 1 r.index
  ++ leBytes 2 (min r.recoveries 65535) ++ leBytes 4 r.count ++ leBytes 8 r.addr.toNat ++ leBytes 8 r.info.toNat
  ++ leBytes 8 r.waybill.toNat ++ leBytes 4 r.seq.toNat ++ zeros 4 ++ leBytes 8 (domA * 2 ^ 56 + r.stamp)
  ++ leBytes 8 r.detect.toNat

/-- The 64 bytes of a logbook record. -/
def LogRec.bytes (n : Nat) (r : LogRec) : List Byte :=
  let b := leBytes 4 n ++ leBytes 2 r.type ++ leBytes 1 r.writer ++ leBytes 1 r.status
    ++ leBytes 8 (domA * 2 ^ 56 + r.stamp) ++ leBytes 4 r.boot.toNat ++ leBytes 4 r.session.toNat ++ leBytes 1 r.role
    ++ zeros 1 ++ leBytes 2 r.opcode ++ leBytes 2 r.tag ++ leBytes 2 r.error ++ leBytes 8 r.arg0.toNat
    ++ leBytes 8 r.arg1.toNat ++ leBytes 8 r.arg2.toNat
  b ++ leBytes 4 (crc32c b) ++ zeros 4

/-- Numbers of the records that a read gives (R484): from FIRST, or from the oldest held, at most COUNT. -/
def readNumbers (first count next held : Nat) : List Nat :=
  let d := (next + 2 ^ 32 - first) % 2 ^ 32
  if d = 0 || 2 ^ 31 ≤ d then []
  else
    let n := min d held
    (List.range (min n count)).map (fun i => (next + 2 ^ 32 - n + i) % 2 ^ 32)

/-- FLT_READ and LOGBOOK_READ: copy records into the buffer. -/
def State.readRecords (s : State) (r : Req) (next held : Nat) (f : Nat → Option (List Byte)) : Ans × State :=
  let count := r.n 0x14 2
  let (a, n) := r.buf 0x18
  if n < 64 * count || a % 8 ≠ 0 then (.err eBuffer, s)
  else
    let l := (readNumbers (r.n 0x10 4) count next held).filterMap f
    (.ok (result [(0x10, 4, l.length)]) 0, s.output a l.flatten)

/-- FLT_READ (R484). -/
def execFltRead (pair : Fin 8) (s : State) : Out :=
  s.mbxCmd pair 0x0801 (fun r s => s.readRecords r s.flt.next.toNat s.flt.records.length
    (fun n => (mget s.flt.records n).map (FltRecord.bytes n)))

/-- LOGBOOK_READ (R501). -/
def execLogbookRead (pair : Fin 8) (s : State) : Out :=
  s.mbxCmd pair 0x0802 (fun r s => s.readRecords r s.logbook.next.toNat s.logbook.records.length
    (fun n => (mget s.logbook.records n).map (LogRec.bytes n)))

/-- FLT_POLICY_SET (R485). -/
def execFltPolicySet (pair : Fin 8) (s : State) : Out :=
  s.mbxCmd pair 0x0803 (fun r s =>
    let code := r.n 0x10 2
    let action := r.n 0x12 1
    let quiet := r.n 0x14 4
    let window := r.n 0x18 4
    if !faultCodes.contains code || code = 0x1007 || faultClass code = 2 || 16 ≤ action
        || bit action 0 ≠ bit (s.policy code).action 0 || quiet < 3840000 || window < quiet then (.err eBadParameter, s)
    else (Ans.done, (s.setSetting (0x00010000 + code) (action + quiet * 2 ^ 32)).setSetting (0x00020000 + code) window))

/-- ERRN_SET (R495, R496). -/
def execErrnSet (pair : Fin 8) (s : State) : Out :=
  s.mbxCmd pair 0x0806 (fun r s =>
    if 1 < r.n 0x10 1 then (.err eBadParameter, s)
    else (Ans.done, { s with flt := { s.flt with swLevel := r.n 0x10 1 = 1 } }.refreshErrN))

/-- ERRN_PULSE_END (R495). -/
def execErrnPulseEnd (s : State) : Out :=
  if !s.flt.pulse then .next s else .next { s with flt := { s.flt with pulse := false } }.refreshErrN

end Sys2Proof.Machine
end

