-- ==== Sys2Proof/Machine/Answers.lean ====
section
/-! DEFINITION. Fault rings and the answers to fault records (R194 to R198, R211, R395): MMU_SET_FAULT_RING,
FAULT_RESOLVE, the writing of a record to its ring, and a page-table walk. -/

namespace Sys2Proof.Machine

/-! ### Rings (R196) -/

/-- The checks of MMU_SET_FAULT_RING that both its forms share. -/
def Req.faultRingBad (r : Req) : Bool :=
  16 ≤ r.n 0x10 1 || !vectorOk (r.n 0x12 2) || 1 < r.n 0x14 1 || 16 < r.n 0x11 1 || (1 ≤ r.n 0x11 1 && r.n 0x11 1 < 6)

/-- MMU_SET_FAULT_RING with SIZE not 0 (R196): the ring starts at slot 0 with an empty occupancy. -/
def execMmuSetFaultRingEnable (pair : Fin 8) (s : State) : Out :=
  s.mbxServe pair.val (fun b => frameOp b = 0x0303 && getLe b 0x11 1 ≠ 0) (fun r s =>
    if r.faultRingBad then (.err eBadParameter, s)
    else if r.n 0x14 1 = 1 && !mhas s.mmu.asids (r.n 0x16 2) then (.err eNotFound, s)
    else
      let g : FaultRing :=
        { sizeLog := r.n 0x11 1, vector := r.n 0x12 2, device := r.n 0x14 1 = 1, asid := r.n 0x16 2
          addr := BitVec.ofNat 64 (r.n 0x18 8), widx := 0, slots := [] }
      (Ans.done, { s with mmu := { s.mmu with rings := mset s.mmu.rings (r.n 0x10 1) g } }))

/-- MMU_SET_FAULT_RING with SIZE 0 (R196): records for the ring wait from now on. -/
def execMmuSetFaultRingDisable (pair : Fin 8) (s : State) : Out :=
  s.mbxServe pair.val (fun b => frameOp b = 0x0303 && getLe b 0x11 1 = 0) (fun r s =>
    if r.faultRingBad then (.err eBadParameter, s)
    else (Ans.done, { s with mmu := { s.mmu with rings := merase s.mmu.rings (r.n 0x10 1) } }))

/-- Is a record the first in FAULT_ID order that waits for a ring? -/
def State.firstWaiting (s : State) (k fault : Nat) : Bool :=
  let age := fun (id : Nat) => (id + 2 ^ 32 - s.mmu.nextFault) % 2 ^ 32
  s.mmu.faults.all (fun p => p.2.slot.isSome || s.ringOf p.2 ≠ k || age fault ≤ age p.1)

/-- Is the slot at the write index occupied by an outstanding record? -/
def State.ringFull (s : State) (g : FaultRing) : Bool :=
  match mget g.slots (g.widx % 2 ^ g.sizeLog) with
  | some id => mhas s.mmu.faults id
  | none => false

/-- A record has reached its slot. -/
def State.recordPlaced (s : State) (k fault : Nat) (g : FaultRing) (r : FaultRec) : State :=
  let i := g.widx % 2 ^ g.sizeLog
  let s := { s with mmu := { s.mmu with
    rings := mset s.mmu.rings k { g with widx := g.widx + 1, slots := mset g.slots i fault }
    faults := mset s.mmu.faults fault { r with slot := some (k, i) } } }
  s.interruptOpt g.vector 0x2 0 k fault

/-- FAULT_RECORD_WRITE (R196): the oldest record that waits for an enabled ring with a free slot is written there. A
write in device memory that faults disables the ring. -/
def execFaultRecordWrite (fault : Nat) (s : State) : Out :=
  match mget s.mmu.faults fault with
  | none => .next s
  | some r =>
    let k := s.ringOf r
    match mget s.mmu.rings k with
    | none => .next s
    | some g =>
      if !s.working || r.slot.isSome || !s.firstWaiting k fault || s.ringFull g then .next s
      else
        let at_ := g.addr.toNat + 64 * (g.widx % 2 ^ g.sizeLog)
        let b := faultBytes fault r (g.widx / 2 ^ g.sizeLog % 2 = 0)
        if !g.device then .next ((s.hostWrite at_ b).recordPlaced k fault g r)
        else match s.writeVa 255 g.asid at_ b false with
          | (.ok _, s) => .next (s.recordPlaced k fault g r)
          | (.error _, s) =>
            let s := { s with mmu := { s.mmu with rings := merase s.mmu.rings k } }
            .next ((s.interruptOpt g.vector 0x2 0 k (fault + 2 ^ 32)).log 0x12 k at_ g.asid)

/-- TRANSLATION_WALK (R185, R189, R192): a walk of the tables of an address space for an address; its leaf entry fills
the shared TLB. A walk that stops gives no translation. -/
def execTranslationWalk (asid : Half) (va : Dword) (s : State) : Out :=
  if !s.working || 2 ^ 48 ≤ va.toNat then .next s
  else match s.walkTable asid.toNat va.toNat with
    | (.error _, s) => .next s
    | (.ok e, s) => .next (s.stlbFill va.toNat e)

/-! ### FAULT_RESOLVE (R194, R198) -/

/-- Every pass that can go on by itself does. -/
def State.runPasses (s : State) : State := s.passes.foldl (fun s p => s.runPass p.1) s

/-- A job fails and its record carries a DETAIL. -/
def State.failJobWith (s : State) (unit err detail : Nat) : State :=
  match mget s.jobs unit with
  | none => s
  | some j => (s.failJob unit err).modCmd j.queue j.cmd (fun c =>
      if c.st = .ended err then { c with detail := BitVec.ofNat 64 detail } else c)

/-- Commands with a string parked on a record. -/
def Eng.parkedCmds (v : Eng) (id : Nat) : List (Nat × Nat) :=
  (v.strs.filter (fun p => p.2.state = .parked (some id))).map (fun p => (p.2.queue, p.2.cmd))

/-- RETRY: every attached agent resumes (R194); a display layer returns at the next frame start (R429). -/
def State.retryFault (s : State) (id : Nat) : State :=
  match mget s.mmu.faults id with
  | none => s
  | some r =>
    let s := s.closeFault id
    let s := { s with layers := mmap s.layers (fun _ (l : PipeLayers) => { l with faults := l.faults.filter (fun f => f.2 ≠ id) }) }
    if r.kind = 0x11 then (s.retryGrowth (r.growKey - 1)).runPasses
    else (s.resumeUnits (some id) false).runPasses

/-- ABORT: attached strings retire their dispatches with E_PAGE_FAULT, jobs fail, a stalled fetcher stops its queue, a
stalled pass is abandoned. -/
def State.abortFault (s : State) (id : Nat) : State :=
  match mget s.mmu.faults id with
  | none => s
  | some r =>
    let s := s.engines.foldl (fun s e => (e.2.parkedCmds id).foldl (fun s c => s.trap e.1 c.1 c.2 ePageFault id) s) s
    let s := s.parts.foldl (fun s p => p.2.slots.foldl (fun s y => y.engines.foldl (fun s e =>
      (e.2.parkedCmds id).foldl (fun s c => s.endCmd c.1 c.2 ePageFault id) s) s) s) s
    let clean := fun (v : Eng) => (v.parkedCmds id).foldl (fun v c => v.kill c.1 c.2) v
    let s := { s with parts := mmap s.parts (fun _ (x : Partition) => { x with slots := x.slots.map (fun (y : Slot) =>
      { y with engines := mmap y.engines (fun _ v => clean v) }) }) }.orphan
    let s := s.queues.foldl (fun s q => if q.2.stalled = some (some id) then
        (s.modQueue q.1 (fun v => { v with stalled := none, stallHdr := [] })).stopFetch q.1
          (if q.2.stallHdr.isEmpty then none else some (headerOf q.2.stallHdr)) ePageFault id
      else s) s
    let s := s.jobs.foldl (fun s j => if j.2.fault = some (some id) then s.failJobWith j.1 ePageFault id else s) s
    let s := s.passes.foldl (fun s p => match p.2.stall with
      | some (x, q, c) => if x = some id then (s.endCmd q c ePageFault id).abandonPass p.1 ePassAbandoned else s
      | none => s) s
    let s := { s with layers := mmap s.layers (fun _ (l : PipeLayers) =>
      { l with faults := mmap l.faults (fun _ f => if f = id then 2 ^ 32 else f) }) }
    let s := if r.kind = 0x11 then s.abortGrowth (r.growKey - 1) else s
    (s.closeFault id).runPasses

/-- DECLINE: the effect of the last column of R193. -/
def State.declineFault (s : State) (id : Nat) : State :=
  match mget s.mmu.faults id with
  | none => s
  | some r =>
    if r.kind = 0x10 then ((s.closeFault id).resumeUnits (some id) true).runPasses
    else if r.kind = 0x11 then ((s.closeFault id).startIncrement (r.growKey - 1)).runPasses
    else s.abortFault id

/-- FAULT_RESOLVE with OUTCOME 0 (R198); an OUTCOME above 2 is answered here too. -/
def execFaultResolveRetry (pair : Fin 8) (s : State) : Out :=
  s.mbxServe pair.val (fun b => frameOp b = 0x0304 && (getLe b 0x14 1 = 0 || 2 < getLe b 0x14 1)) (fun r s =>
    if 2 < r.n 0x14 1 then (.err eBadParameter, s) else (Ans.done, s.retryFault (r.n 0x10 4)))

/-- FAULT_RESOLVE with OUTCOME 1 (R193, R198). -/
def execFaultResolveDecline (pair : Fin 8) (s : State) : Out :=
  s.mbxServe pair.val (fun b => frameOp b = 0x0304 && getLe b 0x14 1 = 1) (fun r s =>
    (Ans.done, s.declineFault (r.n 0x10 4)))

/-- FAULT_RESOLVE with OUTCOME 2 (R198). -/
def execFaultResolveAbort (pair : Fin 8) (s : State) : Out :=
  s.mbxServe pair.val (fun b => frameOp b = 0x0304 && getLe b 0x14 1 = 2) (fun r s =>
    (Ans.done, s.abortFault (r.n 0x10 4)))

end Sys2Proof.Machine
end

