-- ==== Sys2Proof/Machine/Hang.lean ====
section
/-! DEFINITION. The progress watchdog (R331 to R335): sampling, expiry with the stalled path, the stop of a hung unit, and
a forced pre-emption that misses its bound (R353). Units: 0-31 engines, 32-35 X0-X3, 36-37 Z0-Z1, 40-47 fronts. -/

namespace Sys2Proof.Machine

/-- The units that have a watch timer. -/
def watchUnits : List Nat := List.range 38 ++ (List.range 8).map (fun q => 40 + q)

def Watch.reset : Watch := { timer := 0, last := 0, loaded := false, exempt := false, later := 0, since := 0 }
def State.watch (s : State) (u : Nat) : Watch := mgetD s.flt.watch u Watch.reset
def State.setWatch (s : State) (u : Nat) (w : Watch) : State := { s with flt := { s.flt with watch := mset s.flt.watch u w } }

/-- Draws that a front of a pass still has to bin. -/
def Pass.toBin (p : Pass) (f : Front) : List DrawRec :=
  p.draws.filter (fun d => f.members.contains d.engine && d.assembled < d.prims)

/-- Passes with a front of a Quad that bins (R332). -/
def State.binning (s : State) (quad : Nat) : List (Nat × Pass × Front) :=
  s.passes.flatMap (fun p =>
    if p.2.phase = .geometry || p.2.phase = .increment then
      (p.2.fronts.filter (fun f => f.quad = quad && !(p.2.toBin f).isEmpty)).map (fun f => (p.1, p.2, f))
    else [])

/-- LOADED of a unit (R332). -/
def State.unitLoaded (s : State) (u : Nat) : Bool :=
  if u < 32 then (s.eng u).loaded
  else if u < 38 then mhas s.jobs (u - 32)
  else !(s.binning (u - 40)).isEmpty

/-- Does a string of an engine wait for the host? -/
def State.hostOwed (s : State) (e : Nat) : Bool :=
  s.host.np.any (fun p => match p.2.dest.string with | some (x, _) => x = e | none => false)

/-- EXEMPT of a unit (R332). -/
def State.unitExempt (s : State) (u : Nat) : Bool :=
  if u < 32 then
    let v := s.eng u
    let parked := fun (st : Str) => match st.state with | .parked _ => true | _ => false
    let wants := fun (st : Str) => st.state = .parked none
    (!v.strs.isEmpty && v.strs.all (fun p => parked p.2)) || v.gangParked || v.strs.any (fun p => wants p.2)
    || (match s.queueOn u with | some (_, q) => q.stalled = some none | none => false)
    || (s.host.d3hot && s.hostOwed u)
  else if u < 38 then (match mget s.jobs (u - 32) with | some j => j.fault.isSome | none => false)
  else (s.binning (u - 40)).any (fun x => x.2.2.stalled.isSome || x.2.1.stall.isSome)

/-- One sample of a unit's timer (R333). -/
def State.sampleWatch (s : State) (u : Nat) : State :=
  let w := s.watch u
  let n := mgetD s.flt.progress u 0
  let loaded := s.unitLoaded u
  let exempt := s.unitExempt u
  let restart := n ≠ w.last || (loaded && !w.loaded) || (w.exempt && !exempt)
  let w := { w with last := n, loaded := loaded, exempt := exempt }
  s.setWatch u (if restart then { w with timer := 0, later := 0, since := s.aclk }
    else if exempt || !loaded then w
    else { w with timer := w.timer + 1024 })

/-- PROGRESS_COUNTER_SAMPLE (R333): once per 1,024 ACLK. -/
def execProgressCounterSample (s : State) : Out :=
  if !s.live then .next s else .next (watchUnits.foldl State.sampleWatch s)

/-! ### Expiry (R334) -/

/-- Ports on the route to a die. -/
def State.routePorts (s : State) (die : Nat) : List Nat :=
  match mget s.caravan.routes die with
  | none => []
  | some r => bitList (if s.caravan.onAlt.contains die then r.alt else r.ports).toNat 4

/-- The stalled path of an engine: does it use the host link, and which ports (R334)? The other units' accesses end within
their own command. -/
def State.stalledPath (s : State) (u : Nat) : Bool × List Nat :=
  let mine := s.caravan.reqs.filter (fun p => match p.2.dest.string with | some (e, _) => e = u | none => false)
  if 32 ≤ u then (false, []) else (s.hostOwed u, dedup (mine.flatMap (fun p => s.routePorts p.2.dst)))

/-- A command ends with E_HANG and stops its queue (R335). -/
def State.hangCmd (s : State) (q cmd detail : Nat) : State :=
  match s.cmd? q cmd with
  | none => s
  | some c =>
    if c.over then s
    else ((s.endCmd q cmd eHang detail).modCmd q cmd (fun c => { c with stops := true })).modQueue q
      (fun v => { v with stopped := true })

/-- An engine is stopped, its state discarded unsaved (R335). -/
def State.hangEngine (s : State) (detail e : Nat) : State :=
  let s := s.settle e
  let v := s.eng e
  let cmds := v.disps.map (fun d => (d.queue, d.cmd)) ++ v.strs.map (fun p => (p.2.queue, p.2.cmd))
    ++ (if v.arrive.isSome then v.atGang.toList else [])
  let s := cmds.foldl (fun s c => s.hangCmd c.1 c.2 detail) s
  let s := (s.passes.filter (fun p => mhas p.2.members e)).foldl (fun s p => s.abandonPass p.1 ePassAbandoned) s
  ((s.modEng e Eng.vacant).forgetTile e).orphan

/-- Is an engine's work a gang layer, so that all four members stop (R335)? -/
def Eng.inGang (v : Eng) : Bool := v.disps.any (fun d => d.gang) || v.arrive.isSome

/-- F_HANG of a unit: recorded, and its command stopped (R334, R335). -/
def State.hang (s : State) (u : Nat) : State :=
  let n := mgetD s.flt.progress u 0
  let first := if u < 32 then ((s.eng u).disps.head?.map (fun d => (d.queue, d.cmd))).orElse (fun _ =>
      (s.eng u).strs.head?.map (fun p => (p.2.queue, p.2.cmd)))
    else if u < 38 then (mget s.jobs (u - 32)).map (fun j => (j.queue, j.cmd))
    else ((s.binning (u - 40)).head?.bind (fun x => (x.2.1.toBin x.2.2).head?)).map (fun d => (d.queue, d.cmd))
  let c := first.bind (fun x => s.cmd? x.1 x.2)
  let (kind, index) := if u < 32 then (0, u) else if u < 36 then (7, u - 32) else if u < 38 then (6, u - 36) else (1, u - 40)
  let s := s.recordFault
    { code := 0x1003, kind := kind, index := index, addr := 0, info := BitVec.ofNat 64 n
      waybill := (c.map (fun c => c.waybill)).getD 0, seq := (c.map (fun c => c.seq)).getD 0 }
  let s := s.setWatch u { s.watch u with timer := 0, later := 0, since := s.aclk }
  let s := if u < 32 then
      (if (s.eng u).inGang then (quadOf u).foldl (fun s e => s.hangEngine n e) s else s.hangEngine n u)
    else match first with
      | none => s
      | some (q, cmd) =>
        if u < 38 then
          ((s.failJobWith (u - 32) eHang n).modCmd q cmd (fun c => { c with stops := true })).modQueue q
            (fun v => { v with stopped := true })
        else (s.binning (u - 40)).foldl (fun s x => (s.hangCmd q cmd n).abandonPass x.1 ePassAbandoned) s
  s.applyFences

/-- WATCH_TIMER_EXPIRY (R334): a link of the path in retry or recovery moves the expiry point, one that went down since
the timer restarted restarts it; otherwise the unit hangs. -/
def execWatchTimerExpiry (unit : Nat) (s : State) : Out :=
  let w := s.watch unit
  if !s.live || !watchUnits.contains unit || !w.loaded || w.exempt || !s.unitLoaded unit || s.unitExempt unit
      || w.timer < 2 ^ s.setting 0x30 + w.later then .next s
  else
    let (host, ports) := s.stalledPath unit
    let slow := (if host && (s.host.retry || s.host.recovery) then [Config.hostRetryBudget] else [])
      ++ (ports.filter (fun p => (s.caravan.port p).link = 3 || (s.caravan.port p).link = 4)).map (fun _ => 2 ^ s.setting 3)
    match slow with
    | b :: bs => .next (s.setWatch unit { w with later := w.later + bs.foldl max b })
    | [] =>
      if ports.any (fun p => (s.caravan.port p).downs.any (fun t => w.since ≤ t)) then
        .next (s.setWatch unit { w with timer := 0, later := 0, since := s.aclk })
      else .next (s.hang unit)

/-- PREEMPTION_STOP_TIMEOUT (R335, R353): the stop phase of a forced pre-emption misses its bound on one engine, which
the collector fences; which engine it is stands open. -/
def execPreemptionStopTimeout (partition : Fin 8) (s : State) : Out :=
  match s.part? partition.val with
  | none => .next s
  | some x => match x.forcing with
    | none => .next s
    | some f =>
      let es := s.enginesIn partition.val
      if !s.working || f.restore || es.isEmpty then .next s
      else
        let (r, s) := s.draw
        .next (s.report 0x1006 0 (es[r % es.length]?.getD 0) 0 0).applyFences

end Sys2Proof.Machine
end

