-- ==== Sys2Proof/Machine/Flits.lean ====
section
/-! DEFINITION. What arrives on the caravan ports (R461 to R473): flits with link-level retry, and the messages they carry.
A message command stands for a message that the port has accepted; FLIT_RECEIVE does the same for every message that its
flit completes. -/

namespace Sys2Proof.Machine

/-! ### Ports -/

/-- May a port take a message now? In Halt, activity wakes the device and the sender keeps the message (R460). -/
def State.portOpen (s : State) (p : Nat) : Bool := s.live && !s.halted && s.caravan.inService p

/-- Activity on a port: the device leaves Rest (R511), or wakes from Halt (R514). -/
def State.portTouch (s : State) (p : Nat) : State := if s.halted then s.wake (3 + p) else s.leaveRest

/-- Count a message that is discarded (R477). -/
def State.discardMsg (s : State) (p : Nat) : State := s.modPort p (fun v => { v with discards := satInc v.discards })

/-! ### Link-level retry (R464, R465) -/

/-- Send every flit that is not acknowledged again. More than eight replays with no acknowledgement in between take the
port into recovery. -/
def State.replayPort (s : State) (p : Nat) : State :=
  let v := s.caravan.port p
  if v.replay.isEmpty then s
  else
    let n := v.replaysInRow + 1
    let s := s.setPort p { v with
      replaysInRow := n, replays := loop v.replay.length v.replays (fun w _ => satInc w)
      link := if 8 < n then 4 else if v.link = 2 then 3 else v.link }
    let s := v.replay.foldl (fun s f => s.emit (.replay p f.1)) s
    s.report 0x0501 4 p 0 0

/-- An acknowledgement frees the flits up to ACK_SEQ; with none left the port is out of retry. -/
def State.ackPort (s : State) (p seq : Nat) : State :=
  let v := s.caravan.port p
  if !v.replay.any (fun f => f.1 = seq) then s
  else
    let rest := (v.replay.dropWhile (fun f => f.1 ≠ seq)).drop 1
    s.setPort p { v with replay := rest, replaysInRow := 0, link := if v.link = 3 && rest.isEmpty then 2 else v.link }

/-- A LINK slot of a port. -/
def State.linkSlot (s : State) (p seq : Nat) (nak : Bool) : State :=
  let s := s.ackPort p seq
  if nak then s.replayPort p else s

/-- LINK (R464). -/
def execLink (port : Fin 4) (nak : Bool) (seq : Nat) (s : State) : Out :=
  if !s.portOpen port.val then .next (s.portTouch port.val) else .next ((s.portTouch port.val).linkSlot port.val seq nak)

/-- LINK_ACK_TIMEOUT (R464): replay as on a NAK. -/
def execLinkAckTimeout (port : Fin 4) (s : State) : Out :=
  if !s.portOpen port.val then .next s else .next (s.replayPort port.val)

/-- PORT_RETRY_BUDGET_EXPIRY (R465): a port still in retry or recovery declares itself down. -/
def execPortRetryBudgetExpiry (port : Fin 4) (s : State) : Out :=
  let l := (s.caravan.port port.val).link
  if !s.live || (l ≠ 3 && l ≠ 4) then .next s else .next (s.portDown port.val).applyFences

/-- A port has trained (R459): width, rate and the die at the far end; a training record, and a fault of a port that is
not at its best. -/
def State.portUp (s : State) (p : Nat) (far : PortTrain) : State :=
  let s := s.modPort p (fun v => { v with
    link := 2, width := if far.wide then 2 else 1, rate64 := far.rate64, peer := some far.peer.val, replaysInRow := 0 })
  let t := mgetD s.caravan.topo far.peer.val { st := 0, hops := 0, dieId := 0, peers := [], rates := [], capacity := 0 }
  let s := if far.peer.val = s.caravan.die then s
    else { s with caravan := { s.caravan with topo := mset s.caravan.topo far.peer.val { t with dieId := far.dieId } } }
  let full := far.wide && far.rate64
  let s := s.log 0x09 (1 + p * 256 + (if full then 0 else 65536)) (if far.rate64 then 64000 else 32000) (if far.wide then 8 else 4)
  (if full then s else s.report 0x0502 4 p 0 0).capChanged

/-- PORT_RETRAIN_COMPLETE (R465, R476, R492): a port that trains in the background or that recovers is in service again;
what is not acknowledged is sent again. -/
def execPortRetrainComplete (port : Fin 4) (far : PortTrain) (s : State) : Out :=
  let p := port.val
  let v := s.caravan.port p
  if !s.live || s.halted || (v.link ≠ 1 && v.link ≠ 4) || v.fenced then .next s
  else
    let s := (s.portUp p far).report 0x0501 4 p 0 0
    let s := if v.link = 4 then v.replay.foldl (fun s f => s.emit (.replay p f.1)) s else s
    .next (s.modPort p (fun v => { v with link := if v.replay.isEmpty then 2 else 3 }))

/-! ### Requests served as the owner (R470 to R473) -/

/-- Send a response to a die on the route its address takes (R467). -/
def State.respond (s : State) (type : Nat) (m : CvlMsg) (aux : Nat) (data : List Byte) (poison : Bool) : State :=
  match s.route m.src m.addr true with
  | some (port, hops, _) => s.cvlSend port type m.src m.tag m.addr aux hops data poison
  | none => s

/-- STATE of a die in the topology (R302). -/
def State.dieState (s : State) (die : Nat) : Nat := match mget s.caravan.topo die with | some t => t.st | none => 0

/-- Which sectors of a range of local memory are poisoned, as a mask from its first one. -/
def State.poisonMask (s : State) (pa n : Nat) : Nat :=
  maskOf ((List.range (n / 32)).filter (fun k => s.mem.poisoned (pa + 32 * k) 32))

/-- RD_REQ at the owner: the slice of the line reads, poison goes with the response (R226, R470). -/
def State.serveRead (s : State) (m : CvlMsg) : State :=
  let n := 32 * 2 ^ m.size
  if 2 < m.size || m.addr % n ≠ 0 then s
  else
    let ((b, bad), s) := s.readPhys m.addr n 0
    let mask := s.poisonMask m.addr n
    s.respond 8 m (if bad && mask = 0 then 2 ^ (n / 32) - 1 else mask) b bad

/-- A write at the owner, whole or under a mask; a poisoned message leaves poisoned sectors (R472). -/
def State.serveWrite (s : State) (type : Nat) (m : CvlMsg) : State :=
  let n := m.data.length
  if m.addr % 32 ≠ 0 || !(if type = 2 then n = 32 || n = 64 || n = 128 else n = 32) then s
  else
    let s := if type = 2 then s.writePhys m.addr m.data 0 else s.writeMasked m.addr m.data m.aux 0
    let s := if m.poison then { s with mem := s.mem.setPoison m.addr n } else s
    s.respond 9 m 0 [] false

/-- ATOMIC at the owner (R102, R172): performed at the slice; a poisoned operand or sector performs nothing. -/
def State.serveAtomic (s : State) (m : CvlMsg) : State :=
  let w := bits m.aux 6 5
  match (atomOfCode (bits m.aux 4 0)).bind (fun op => (atomWidth op w).map (fun n => (op, n))) with
  | none => s
  | some (op, n) =>
    if m.addr % n ≠ 0 || m.data.length ≠ 16 then s
    else
      let v := getLe m.data 0 8 % 2 ^ (8 * n)
      let c := getLe m.data 8 8 % 2 ^ (8 * n)
      let ((old, bad), s) := s.atomAt m.addr n 0 (fun old => if m.poison then old else atomApply op w old v c)
      s.respond 0xA m 0 (leBytes 16 old) (bad || m.poison)

/-- EVENT at the owner: recorded and acknowledged (R322, R473). -/
def State.serveEvent (s : State) (m : CvlMsg) : State :=
  if m.poison || m.data.length ≠ 16 then s
  else
    let s := s.recordEvent (m.addr % 131072) (getLe m.data 0 8) false
    match s.route m.src 0 false with
    | some (port, hops, _) => s.cvlSend port 0xB m.src m.tag m.addr 0 hops [] false
    | none => s

/-! ### Management messages (R466, R471, R474, R475; log entry 50) -/

/-- A routing entry from its 8 bytes (R466), and back. -/
def routeOf (b : List Byte) : Route :=
  { ports := BitVec.ofNat 4 (getLe b 0 1), alt := BitVec.ofNat 4 (getLe b 1 1), hops := getLe b 2 1, altHops := getLe b 3 1 }
def Route.code (r : Route) : Nat := r.ports.toNat + r.alt.toNat * 256 + r.hops * 65536 + r.altHops * 2 ^ 24

/-- Apply a routing table to this die: live, and in the working copy of the settings (R466, R533). -/
def State.applyRoutes (s : State) (b : List Byte) : State :=
  let l := (List.range 8).map (fun d => (d, routeOf (slice b (8 * d) 8)))
  let s := l.foldl (fun s p => s.setSetting (0x18 + p.1) p.2.code) s
  let live := l.filter (fun p => p.2.ports ≠ 0 || p.2.alt ≠ 0)
  let topo := mmap s.caravan.topo (fun d t => match mget live d with
    | some r => { t with hops := if r.ports ≠ 0 then r.hops else r.altHops }
    | none => { t with hops := 0 })
  ({ s with caravan := { s.caravan with routes := live, topo := topo } }).capChanged

/-- The topology entry of a die changes its STATE (R303, R474, R475). -/
def State.setDieState (s : State) (die st : Nat) : State :=
  let t := mgetD s.caravan.topo die { st := 0, hops := 0, dieId := 0, peers := [], rates := [], capacity := 0 }
  let topo := mset s.caravan.topo die { t with st := st }
  let size := 1 + (topo.filter (fun p => p.1 ≠ s.caravan.die && p.2.st = 1)).length
  ({ s with caravan := { s.caravan with topo := topo, size := size } }).capChanged

/-- MGMT at its destination, once firmware takes it. -/
def State.serveMgmt (s : State) (m : CvlMsg) : State :=
  let kind := getLe m.data 0 1
  let arg := getLe m.data 1 1
  let body := m.data.drop 16
  if s.fw.restarting || m.poison then s
  else if kind = mgmtBacking && s.dieState m.src = 1 && arg ≤ 3 then
    let size := getLe body 0 8
    match s.reserve size (pageCode arg) with
    | none => s.askDie m.src (mgmtBytes mgmtAnswer 1 [])
    | some (a, s) =>
      let b : Backing := { placement := 0, die := s.caravan.die, heldFor := some m.src, base := a, size := size, pages := [] }
      ({ s with mmu := { s.mmu with
        backings := mset s.mmu.backings s.mmu.nextBacking b, nextBacking := s.mmu.nextBacking + 1 } }).askDie m.src
        (mgmtBytes mgmtAnswer 0 (leBytes 8 a))
  else if kind = mgmtRelease then
    match s.mmu.backings.find? (fun p => p.2.heldFor = some m.src && p.2.base = getLe body 0 8) with
    | some (k, _) => s.releaseBacking k
    | none => s
  else if kind = mgmtTable && s.dieState m.src = 1 then s.applyRoutes (slice body 0 64)
  else if kind = mgmtState && arg < 8 && arg ≠ s.caravan.die then s.setDieState arg (getLe body 0 1 % 4)
  else s

/-! ### Responses to this die -/

/-- A response matches an outstanding request of a type to its source. -/
def State.matching (s : State) (m : CvlMsg) (types : List Nat) : Option CvlReq :=
  (mget s.caravan.reqs m.tag).bind (fun r => if r.dst = m.src && types.contains r.type then some r else none)

/-- RD_RSP: data, or poison of the wanted sector (R470, R472). A line with a poisoned sector is not kept. -/
def State.takeRead (s : State) (m : CvlMsg) : State :=
  match s.matching m [1] with
  | none => s
  | some r =>
    if m.data.length ≠ (if r.fill then 128 else 32) then s
    else
      let any := m.poison || m.aux % 16 ≠ 0
      let mine := bit m.aux (r.off / 32) || (m.poison && m.aux % 16 = 0)
      let s := if any then { s with caravan := { s.caravan with reqs := mset s.caravan.reqs m.tag { r with fill := false } } } else s
      s.endReq m.tag m.data mine

/-- WR_ACK: the write has been performed at its owner (R472). -/
def State.takeWriteAck (s : State) (m : CvlMsg) : State :=
  match s.matching m [2, 3] with
  | none => s
  | some _ => s.endReq m.tag [] false

/-- ATOMIC_RSP (R472). -/
def State.takeAtomic (s : State) (m : CvlMsg) : State :=
  match s.matching m [4] with
  | none => s
  | some _ => if m.data.length ≠ 16 then s else s.endReq m.tag m.data m.poison

/-- EVENT_ACK: the SIGNAL step of the retirement is complete (R321, R473). -/
def State.takeEventAck (s : State) (m : CvlMsg) : State :=
  match s.matching m [5] with
  | none => s
  | some r =>
    let s := s.endReq m.tag [] false
    match r.signal with
    | none => s
    | some (q, cmd) => match s.queue? q, s.cmd? q cmd with
      | some v, some c => if c.signalled then s.finishRetire q v c (match c.st with | .ended e => e | _ => 0) false else s
      | _, _ => s

/-! ### Every message (R462, R468, R470) -/

/-- The port on which a message for another die goes on (R468): PORTS without the way it came, then ALT. -/
def State.forwardPort (s : State) (from_ dst pa : Nat) (plain : Bool) : Option Nat :=
  match mget s.caravan.routes dst with
  | none => none
  | some r =>
    let came := (s.caravan.port from_).peer
    let open_ := fun (mask : Nat) => (s.caravan.usable mask).filter (fun p => came.isNone || (s.caravan.port p).peer ≠ came)
    let l := if (open_ r.ports.toNat).isEmpty then open_ r.alt.toNat else open_ r.ports.toNat
    l[portIndex pa plain l.length]?

/-- A message for another die: forwarded, or discarded as misrouted. -/
def State.forward (s : State) (p type : Nat) (m : CvlMsg) : State :=
  let lost := (s.discardMsg p).report 0x0505 4 p m.addr 0
  if m.hops = 0 then lost.applyFences
  else match s.forwardPort p m.dst m.addr (type ≠ 5 && type ≠ 6 && type ≠ 0xB) with
    | none => lost.applyFences
    | some q => (s.bump blkCVL p 3 1).cvlEmit q type m.src m.dst m.tag m.addr m.aux m.size (m.hops - 1) m.data m.poison

/-- A message of a type arrives on a port. -/
def State.receiveMsg (s : State) (p type : Nat) (m : CvlMsg) : State :=
  if m.dst ≠ s.caravan.die then s.forward p type m
  else
    let s := if m.poison then (s.report 0x0506 4 p m.addr 0).applyFences else s
    let access := type = 1 || type = 2 || type = 3 || type = 4
    if access && s.dieState m.src ≠ 1 then s.discardMsg p
    else match type with
      | 1 => s.serveRead m
      | 2 | 3 => s.serveWrite type m
      | 4 => s.serveAtomic m
      | 5 => s.serveEvent m
      | 6 => s.serveMgmt m
      | 8 => s.takeRead m
      | 9 => s.takeWriteAck m
      | 0xA => s.takeAtomic m
      | 0xB => s.takeEventAck m
      | _ => s

/-- A message command. -/
def State.message (s : State) (port : Fin 4) (type : Nat) (m : CvlMsg) : Out :=
  if !s.portOpen port.val then .next (s.portTouch port.val) else .next (((s.portTouch port.val).bump blkCVL port.val 1 1).receiveMsg port.val type m)

/-- RD_REQ (R470). -/
def execRdReq (port : Fin 4) (msg : CvlMsg) (s : State) : Out := s.message port 1 msg
/-- WR (R472). -/
def execWr (port : Fin 4) (msg : CvlMsg) (s : State) : Out := s.message port 2 msg
/-- WR_PARTIAL (R462, R472). -/
def execWrPartial (port : Fin 4) (msg : CvlMsg) (s : State) : Out := s.message port 3 msg
/-- ATOMIC (R472). -/
def execAtomic (port : Fin 4) (msg : CvlMsg) (s : State) : Out := s.message port 4 msg
/-- EVENT (R473). -/
def execEvent (port : Fin 4) (msg : CvlMsg) (s : State) : Out := s.message port 5 msg
/-- MGMT (R466, R471). -/
def execMgmt (port : Fin 4) (msg : CvlMsg) (s : State) : Out := s.message port 6 msg
/-- RD_RSP (R470). -/
def execRdRsp (port : Fin 4) (msg : CvlMsg) (s : State) : Out := s.message port 8 msg
/-- WR_ACK (R472). -/
def execWrAck (port : Fin 4) (msg : CvlMsg) (s : State) : Out := s.message port 9 msg
/-- ATOMIC_RSP (R472). -/
def execAtomicRsp (port : Fin 4) (msg : CvlMsg) (s : State) : Out := s.message port 0xA msg
/-- EVENT_ACK (R473). -/
def execEventAck (port : Fin 4) (msg : CvlMsg) (s : State) : Out := s.message port 0xB msg

/-- CVL_REQUEST_TIMEOUT (R472): not while a port of the route is in retry or recovery. -/
def execCvlRequestTimeout (tag : Nat) (s : State) : Out :=
  match mget s.caravan.reqs tag with
  | none => .next s
  | some r =>
    let slow := (s.routePorts r.dst).any (fun p => (s.caravan.port p).link = 3 || (s.caravan.port p).link = 4)
    if !s.live || s.halted || slow then .next s
    else
      let c := match r.dest.string with
        | some (e, place) => (s.str? e place).bind (fun st => s.cmd? st.queue st.cmd)
        | none => r.signal.bind (fun x => s.cmd? x.1 x.2)
      let s := s.recordFault
        { code := 0x0504, kind := 4, index := r.port, addr := BitVec.ofNat 64 r.addr, info := 0
          waybill := (c.map (fun c => c.waybill)).getD 0, seq := (c.map (fun c => c.seq)).getD 0 }
      .next (s.endReq tag [] true).applyFences

/-! ### Flits (R461, R462, R464) -/

/-- One step of CRC-64 of R461, most significant bit first. -/
def crc64Step (c b : Nat) : Nat :=
  loop 8 (c ^^^ (b * 2 ^ 56)) (fun c _ => if bit c 63 then (c * 2 % 2 ^ 64) ^^^ 0x42F0E1EBA9EA3693 else c * 2 % 2 ^ 64)

def crc64 (l : List Byte) : Nat := l.foldl (fun c b => crc64Step c b.toNat) 0

/-- Data slots that a type may have (R462); none for a reserved type. -/
def slotsOf (type : Nat) : Option (List Nat) :=
  match type with
  | 0 | 1 | 9 | 0xB | 0xF => some [0]
  | 2 | 8 => some [2, 4, 8]
  | 3 => some [2]
  | 4 | 5 | 0xA => some [1]
  | 6 => some [1, 2, 3, 4, 5, 6, 7, 8]
  | _ => none

/-- A message of its header slot and data slots. -/
def msgOf (h : Nat) (data : List (BitVec 128)) : CvlMsg :=
  { dst := bits h 6 4, src := bits h 9 7, tag := bits h 23 12, addr := bits h 71 32, aux := bits h 127 96
    size := bits h 31 28, hops := bits h 73 72, data := data.flatMap (fun d => leBytes 16 d.toNat), poison := bit h 10 }

/-- The messages in a list of slots, in order, and the slots of one that is not whole yet; none when a header is of a
reserved type. -/
def parseSlots : Nat → List (BitVec 128) → Option (List (Nat × CvlMsg) × List (BitVec 128))
  | 0, l => some ([], l)
  | _ + 1, [] => some ([], [])
  | n + 1, h :: rest =>
    let t := bits h.toNat 3 0
    let d := bits h.toNat 27 24
    match slotsOf t with
    | none => none
    | some ds =>
      if !ds.contains d then none
      else if rest.length < d then some ([], h :: rest)
      else match parseSlots n (rest.drop d) with
        | none => none
        | some (ms, r) => some (if t = 0 then ms else (t, msgOf h.toNat (rest.take d)) :: ms, r)

/-- The slots of a flit. -/
def flitSlots (b : List Byte) : List (BitVec 128) := (List.range 15).map (fun i => BitVec.ofNat 128 (getLe b (2 + 16 * i) 16))

/-- What the messages of a flit do. -/
def State.receiveAll (s : State) (p : Nat) (ms : List (Nat × CvlMsg)) : State :=
  ms.foldl (fun s m => if m.1 = 0xF then s.linkSlot p (m.2.aux % 1024) (bit m.2.aux 10) else s.receiveMsg p m.1 m.2) s

/-- A flit that is not accepted: NAK with the latest good flit (R464). -/
def State.nakFlit (s : State) (p : Nat) : State :=
  s.emit (.linkAck p (((s.caravan.port p).rxSeq + 1023) % 1024) true)

/-- A corrected flit on an open port. -/
def State.takeFlit (s : State) (p : Nat) (b : List Byte) : State :=
  let v := s.caravan.port p
  let h := getLe b 0 2
  let type := bits h 11 10
  let ahead := (bits h 9 0 + 1024 - v.rxSeq) % 1024
  if crc64 (b.take 242) ≠ getLe b 0xF2 8 || 2 ≤ type then s.nakFlit p
  else if type = 1 then
    match parseSlots 16 (flitSlots b) with
    | none => s.nakFlit p
    | some (ms, _) => (s.modPort p (fun v => { v with idle := true })).receiveAll p (ms.filter (fun m => m.1 = 0xF))
  else if ahead ≠ 0 then
    -- a flit ahead of the next one is discarded; one that has been accepted already is only acknowledged
    if ahead < 512 then s.nakFlit p else s.emit (.linkAck p ((v.rxSeq + 1023) % 1024) false)
  else match parseSlots 32 (v.rxPartial ++ flitSlots b) with
    | none => s.nakFlit p
    | some (ms, rest) =>
      let s := s.setPort p { v with rxSeq := (v.rxSeq + 1) % 1024, rxPartial := rest, idle := false }
      (s.emit (.linkAck p v.rxSeq false)).receiveAll p ms

/-- FLIT_RECEIVE (R464): FEC, CRC, sequence, and the messages that the flit completes. -/
def execFlitReceive (port : Fin 4) (flit : List Byte) (s : State) : Out :=
  let p := port.val
  if flit.length ≠ 256 then .fault .illFormed
  else if !s.portOpen p then .next (s.portTouch p)
  else
    let (b, fixed) := Config.fecDecode flit
    let s := (s.portTouch p).bump blkCVL p 1 1
    let s := if fixed = 0 then s
      else (s.modPort p (fun v => { v with fecCorrected := satInc v.fecCorrected })).report 0x0501 4 p 0 0
    .next (s.takeFlit p b)

end Sys2Proof.Machine
end

