-- ==== Sys2Proof/Machine/Caravan.lean ====
section
/-! DEFINITION. Routing tables and membership (R466, R474, R475): CVL_ROUTE_SET, CVL_MEMBER, and what their ends do. -/

namespace Sys2Proof.Machine

def eCvlRoute : Nat := 0x0801
def eCvlInUse : Nat := 0x0802
def eCvlPartitioned : Nat := 0x0803
def eCvlNotAllowed : Nat := 0x0804
def eCvlDieNumber : Nat := 0x0806

/-! ### The check of a route (R466 to R468) -/

/-- The die at the far end of a port of a member (PEERS of R302). -/
def State.portPeer (s : State) (die p : Nat) : Option Nat :=
  if die = s.caravan.die then (s.caravan.port p).peer
  else match mget s.caravan.topo die with
    | some t => match t.peers[p]? with
      | some q => if q < 8 then some q else none
      | none => none
    | none => none

/-- Dies next to a die. -/
def State.peersOf (s : State) (die : Nat) : List Nat := dedup ((List.range 4).filterMap (s.portPeer die))

/-- Can a message go from a die to another in exactly n hops over members, with no die visited twice? -/
def State.walks (s : State) (dst : Nat) : Nat → Nat → List Nat → Bool
  | 0, d, _ => d = dst
  | n + 1, d, seen => d ≠ dst && (s.peersOf d).any (fun q =>
      !seen.contains q && (q = dst || s.dieState q = 1 || q = s.caravan.die) && s.walks dst n q (q :: seen))

/-- Does every port of a mask of a die lead to the destination in the mask's hop count? -/
def State.maskRoutes (s : State) (die dst mask hops : Nat) : Bool :=
  (bitList mask 4).all (fun p => match s.portPeer die p with
    | none => false
    | some q => q ≠ die && s.walks dst (hops - 1) q [q, die])

/-- Is an entry of a table well formed? -/
def entryOk (self : Bool) (b : List Byte) : Bool :=
  let r := routeOf b
  getLe b 0 1 < 16 && getLe b 1 1 < 16 && getLe b 4 4 = 0
  && (if r.ports = 0 then getLe b 0 4 = 0 else !self && 1 ≤ r.hops && r.hops ≤ 3)
  && (if r.alt = 0 then r.altHops = 0 else 1 ≤ r.altHops && r.altHops ≤ 3)

/-- Does every route of a table of a die reach its destination? -/
def State.tableOk (s : State) (die : Nat) (b : List Byte) : Bool :=
  (List.range 8).all (fun d =>
    let r := routeOf (slice b (8 * d) 8)
    s.maskRoutes die d r.ports.toNat r.hops && s.maskRoutes die d r.alt.toNat r.altHops)

/-- CVL_ROUTE_SET (R466): this die's table is applied; a table for another member goes there as a MGMT message. -/
def execCvlRouteSet (pair : Fin 8) (buf : Option (List Byte)) (s : State) : Out :=
  s.mbxCmd pair 0x0701 (fun r s =>
    let die := r.n 0x10 1
    if 8 ≤ die then (.err eBadParameter, s)
    else match r.input 0x18 64 64 buf with
      | none => (.err eBuffer, s)
      | some b =>
        if (List.range 8).any (fun d => !entryOk (d = die) (slice b (8 * d) 8)) then (.err eBadParameter, s)
        else if !s.tableOk die b then (.err eCvlRoute, s)
        else if die = s.caravan.die then (Ans.done, s.applyRoutes b)
        else if s.dieState die ≠ 1 || !s.reachable die then (.err eCvlRoute, s)
        else (Ans.done, s.askDie die (mgmtBytes mgmtTable 0 b)))

/-! ### Membership (R474, R475) -/

/-- Dies that are members, this one left out. -/
def State.members (s : State) : List Nat :=
  (s.caravan.topo.filter (fun p => p.1 ≠ s.caravan.die && p.2.st = 1)).map (fun p => p.1)

/-- Every member hears of a die's new STATE. -/
def State.announce (s : State) (die st : Nat) : State :=
  (s.members.filter (· ≠ die)).foldl (fun s m => s.askDie m (mgmtBytes mgmtState die (leBytes 1 st))) (s.setDieState die st)

/-- Is a die next to this one or to a member, over trained ports? -/
def State.inSight (s : State) (die : Nat) : Bool :=
  (List.range 4).any (fun p => s.caravan.inService p && (s.caravan.port p).peer = some die)
  || s.members.any (fun m => s.reachable m && (s.peersOf m).contains die)

/-- Is the identifier that a die has shown on the admission list (R474, R533)? -/
def State.admissible (s : State) (die : Nat) : Bool :=
  match mget s.caravan.topo die with
  | none => false
  | some t => t.dieId ≠ 0 && (List.range 8).any (fun i => s.setting (0x10 + i) = t.dieId.toNat)

/-- CVL_MEMBER admit, its first two steps (R474); an ACTION above 1 is answered here. -/
def execCvlMemberAdmit (pair : Fin 8) (s : State) : Out :=
  s.mbxServe pair.val (fun b => frameOp b = 0x0702 && getLe b 0x11 1 ≠ 1) (fun r s =>
    let die := r.n 0x10 1
    if 8 ≤ die || r.n 0x11 1 ≠ 0 then (.err eBadParameter, s)
    else if die = s.caravan.die || s.dieState die ≠ 0 then (.err eCvlDieNumber, s)
    else if !s.inSight die || !s.admissible die then (.err eCvlNotAllowed, s)
    else match s.startLong r [] with
      | (.progress, s) => (.progress, s.announce die 2)
      | x => x)

/-- Does an object of another die stand on this one, or one of this die on that one (R475)? -/
def State.placedOn (s : State) (die : Nat) : Bool :=
  s.mmu.backings.any (fun p => (p.2.placement = 3 && p.2.die = die) || p.2.heldFor = some die)

/-- Do all remaining members still reach each other within three hops when a die goes? -/
def State.holdsTogether (s : State) (die : Nat) : Bool :=
  let rest := s.caravan.die :: s.members.filter (· ≠ die)
  rest.all (fun a => rest.all (fun b => a = b || [1, 2, 3].any (fun n => s.walks b n a [a, die])))

/-- CVL_MEMBER remove, its first two steps (R475). -/
def execCvlMemberRemove (pair : Fin 8) (s : State) : Out :=
  s.mbxServe pair.val (fun b => frameOp b = 0x0702 && getLe b 0x11 1 = 1) (fun r s =>
    let die := r.n 0x10 1
    if 8 ≤ die then (.err eBadParameter, s)
    else if s.dieState die ≠ 1 || die = s.caravan.die then (.err eNotFound, s)
    else if s.placedOn die then (.err eCvlInUse, s)
    else if !s.holdsTogether die then (.err eCvlPartitioned, s)
    else match s.startLong r [] with
      | (.progress, s) => (.progress, s.announce die 3)
      | x => x)

/-- Stored routing table of this die: the working copy of the settings (R533). -/
def State.storedTable (s : State) : List Byte := (List.range 8).flatMap (fun d => leBytes 8 (s.setting (0x18 + d)))

/-- The end of CVL_MEMBER (R474, R475). `ok` says whether the far side accepts (admit) or no other member holds an
object there (remove); `data` may hold the new member's PEERS, RATES and CAPACITY (16 bytes). A removal waits until this
die's own messages to the leaving die have completed. -/
def State.endMember (s : State) (l : LongOp) (ok : Bool) (data : List Byte) : State :=
  let die := getLe l.params 0 1
  if getLe l.params 1 1 = 0 then
    if !ok then (s.announce die 0).endLong l (.err eCvlNotAllowed)
    else
      let s := if data.length ≠ 16 then s
        else { s with caravan := { s.caravan with topo := mmod s.caravan.topo die (fun t => { t with
          peers := (List.range 4).map (fun p => getLe data p 1), rates := (List.range 4).map (fun p => getLe data (4 + p) 1)
          capacity := getLe data 8 8 }) } }
      if !s.tableOk s.caravan.die s.storedTable then (s.announce die 0).endLong l (.err eCvlRoute)
      else ((s.applyRoutes s.storedTable).announce die 1).endLong l Ans.done
  else if !ok then (s.announce die 1).endLong l (.err eCvlInUse)
  else if s.caravan.reqs.any (fun p => p.2.dst = die) then s
  else
    let mine := fun (x : Nat) => x / 2 ^ 33 = die + 1
    let s := { s with
      engines := mmap s.engines (fun _ (v : Eng) => { v with l1 := v.l1.filter (fun p => !mine p.2.line) })
      mem := { s.mem with lines := s.mem.lines.filter (fun p => p.2.die ≠ some die) } }
    let b := putBytes s.storedTable (8 * die) (zeros 8)
    let s := s.applyRoutes b
    let s := (List.range 4).foldl (fun s p =>
      if (s.caravan.port p).peer = some die then s.modPort p (fun v => { v with idle := true }) else s) s
    (s.announce die 0).endLong l Ans.done

end Sys2Proof.Machine
end

