-- ==== Sys2Proof/Machine/Display.lean ====
section
/-! DEFINITION. Display pipes, first part (R417 to R429, R432, R433, R437, R438): the pipe configuration and its checks,
enable, layers and scaler tables as staged, link training, FSYNC inputs. -/

namespace Sys2Proof.Machine

def eDspPipeEnabled : Nat := 0x0611
def eDspMode : Nat := 0x0612
def eDspLayer : Nat := 0x0613
def eDspCoeff : Nat := 0x0614

/-! ### The configuration (R417, R418) -/

/-- Fields of a pipe configuration, by their offsets. -/
def dHactive (b : List Byte) : Nat := getLe b 0 2
def dHtotal (b : List Byte) : Nat := getLe b 0 2 + getLe b 2 2 + getLe b 4 2 + getLe b 6 2
def dVactive (b : List Byte) : Nat := getLe b 8 2
def dVfront (b : List Byte) : Nat := getLe b 0xA 2
def dVtotal (b : List Byte) : Nat := getLe b 8 2 + getLe b 0xA 2 + getLe b 0xC 2 + getLe b 0xE 2
def dKhz (b : List Byte) : Nat := getLe b 0x10 4
def dEdp (b : List Byte) : Bool := bit (getLe b 0x14 1) 0
def dDither (b : List Byte) : Bool := bit (getLe b 0x14 1) 3
def dFlatten (b : List Byte) : Bool := bit (getLe b 0x14 1) 4
def dLanes (b : List Byte) : Nat := getLe b 0x15 1
def dRate (b : List Byte) : Nat := getLe b 0x16 1
def dBpc (b : List Byte) : Nat := 6 + 2 * bits (getLe b 0x17 1) 3 2
def dDsc (b : List Byte) : Bool := bit (getLe b 0x18 4) 0
def dFsMode (b : List Byte) : Nat := bits (getLe b 0x1C 4) 1 0
def dFsInput (b : List Byte) : Nat := bits (getLe b 0x1C 4) 3 2
def dFsFalling (b : List Byte) : Bool := bit (getLe b 0x1C 4) 4
def dFsOffset (b : List Byte) : Nat := bits (getLe b 0x1C 4) 31 16
def dFlatVa (b : List Byte) : Nat := getLe b 0x28 8
def dFlatAsid (b : List Byte) : Nat := getLe b 0x30 2

/-- Mb/s per lane of a RATE code (R422); none for a reserved one. -/
def dspRate (c : Nat) : Option Nat :=
  match c with
  | 0 => some 1620 | 1 => some 2700 | 2 => some 5400 | 3 => some 8100 | 4 => some 10000 | 5 => some 13500
  | 6 => some 20000 | 8 => some 2160 | 9 => some 2430 | 10 => some 3240 | 11 => some 4320 | _ => none

/-- Coding of a rate: 128b/132b or 8b/10b (R422). -/
def uhbr (c : Nat) : Bool := 4 ≤ c && c ≤ 6

/-- Bits per pixel × 16 on the link (R423). -/
def dBpp16 (b : List Byte) : Nat :=
  if dDsc b then bits (getLe b 0x18 4) 13 4
  else (if bits (getLe b 0x17 1) 1 0 = 2 then 2 else 3) * dBpc b * 16

/-- Does the stream fit the link at a rate (R423)? -/
def linkFits (b : List Byte) (rate : Nat) : Bool :=
  match dspRate rate with
  | none => false
  | some m =>
    let cap := dLanes b * m * 1000
    if uhbr rate then dKhz b * dBpp16 b * 132 ≤ cap * 128 * 16 else dKhz b * dBpp16 b * 10 ≤ cap * 8 * 16

/-- The DSC limits of R424. -/
def dscOk (b : List Byte) : Bool :=
  let w := getLe b 0x18 4
  let slices := 2 ^ bits w 2 1
  let h := bits w 31 16
  bits (getLe b 0x17 1) 1 0 ≤ 1 && 8 ≤ dBpc b && 128 ≤ dBpp16 b && dBpp16 b ≤ 3 * dBpc b * 16
  && dHactive b % slices = 0 && 64 ≤ dHactive b / slices && h ≠ 0 && dVactive b % h = 0
  && dKhz b ≤ min slices 4 * 700000

/-- Every check of a configuration of a pipe (R417, R422 to R424, R437). -/
def dspModeOk (pipe : Nat) (b : List Byte) : Bool :=
  let h := (List.range 3).map (fun i => getLe b (2 + 2 * i) 2)
  let v := (List.range 3).map (fun i => getLe b (0xA + 2 * i) 2)
  let rate := dRate b
  let w := getLe b 0x18 4
  let f := getLe b 0x1C 4
  64 ≤ dHactive b && dHactive b ≤ 8192 && dHactive b % 4 = 0 && h.all (fun x => 4 ≤ x && x % 4 = 0)
  && 1 ≤ dVactive b && dVactive b ≤ 8192 && v.all (fun x => 1 ≤ x) && dKhz b ≤ 2800000
  && getLe b 0x14 1 < 32 && [1, 2, 4].contains (dLanes b) && (dspRate rate).isSome
  && (if dEdp b then pipe ≤ 1 && !uhbr rate else rate ≤ 6)
  && bits (getLe b 0x17 1) 1 0 ≠ 3 && getLe b 0x17 1 < 16 && !bit w 3 && bits w 15 14 = 0 && (!dDsc b || dscOk b)
  && dFsMode b ≠ 3 && bits f 15 5 = 0 && dFsOffset b < dVtotal b
  && (dFsMode b ≠ 2 || 1 + (dVtotal b + 15) / 16 ≤ dVfront b)
  && getLe b 0x20 4 < 2 ^ 30 && getLe b 0x24 4 < 2 ^ 30 && dFlatVa b % 4096 = 0 && getLe b 0x32 14 = 0
  && linkFits b rate

def PipeLayers.reset : PipeLayers :=
  { live := [], staged := [], superseded := [], apply := false, coeff := [], coeffStaged := [], faults := [], lockRun := 0
    lastEdge := none, nextTotal := none, flatRun := 0, frame := [] }

def State.layersOf (s : State) (p : Nat) : PipeLayers := mgetD s.layers p PipeLayers.reset
def State.modLayers (s : State) (p : Nat) (f : PipeLayers → PipeLayers) : State :=
  { s with layers := mset s.layers p (f (s.layersOf p)) }

/-- The frequency of a domain changes: its entry in the table, and a CLOCK_CHANGE record (R507). -/
def State.setKhz (s : State) (d khz : Nat) : State :=
  if mget s.clk.khz d = some khz then s
  else (({ s with clk := { s.clk with khz := mset s.clk.khz d khz } }).capChanged).log 0x20 d khz (s.count d)

/-- Is a pipe in use? -/
def Pipe.on (v : Pipe) : Bool := v.enabled || v.starting

/-- DSP_PIPE_SET (R417 to R419, R436). -/
def execDspPipeSet (pair : Fin 8) (buf : Option (List Byte)) (s : State) : Out :=
  s.mbxCmd pair 0x0501 (fun r s =>
    let p := r.n 0x10 1
    if 3 < p then (.err eBadParameter, s)
    else match r.input 0x18 64 64 buf with
      | none => (.err eBuffer, s)
      | some b =>
        if (s.pipe p).on then (.err eDspPipeEnabled, s)
        else if !dspModeOk p b then (.err eDspMode, s)
        else
          let keep := dFlatten b && (s.pipe p).cfg = b
          let s := s.modPipe p (fun v => { v with
            cfg := b, crcRef := BitVec.ofNat 32 (crc32c b), flatOff := false, flatValid := v.flatValid && keep
            vtotal := dVtotal b, d := 0 })
          let s := s.modLayers p (fun v => { v with flatRun := if keep then v.flatRun else 0, nextTotal := none, lastEdge := none })
          (Ans.done, s.setKhz (0x20 + p) (dKhz b / 4)))

/-! ### Enable (R420) -/

/-- DSP_PIPE_ENABLE with ENABLE 1; an ENABLE above 1 is answered here. -/
def execDspPipeEnableOn (pair : Fin 8) (s : State) : Out :=
  s.mbxServe pair.val (fun b => frameOp b = 0x0502 && getLe b 0x11 1 ≠ 0) (fun r s =>
    let p := r.n 0x10 1
    let v := s.pipe p
    if 3 < p || 1 < r.n 0x11 1 then (.err eBadParameter, s)
    else if v.cfg.length ≠ 64 || v.crcRef.toNat ≠ crc32c v.cfg then (.err eDspMode, s)
    else if v.on then (Ans.done, s.modPipe p (fun v => { v with stopping := false }))
    else (Ans.done, s.modPipe p (fun v => { v with
      starting := true, stopping := false, link := 1, failedRetrains := 0, underrunLogged := false })))

/-- DSP_PIPE_ENABLE with ENABLE 0: the pipe stops at the end of the frame in progress. -/
def execDspPipeEnableOff (pair : Fin 8) (s : State) : Out :=
  s.mbxServe pair.val (fun b => frameOp b = 0x0502 && getLe b 0x11 1 = 0) (fun r s =>
    let p := r.n 0x10 1
    if 3 < p then (.err eBadParameter, s)
    else (Ans.done, s.modPipe p (fun v => { v with starting := false, stopping := v.enabled })))

/-! ### Layers (R426 to R428, R432) -/

/-- Fields of a layer descriptor. -/
def lFlag (b : List Byte) (i : Nat) : Bool := bit (getLe b 0x13 1) i
def lFormat (b : List Byte) : Nat := getLe b 0x12 1
def lAsid (b : List Byte) : Nat := getLe b 0x10 2
def lSrc (b : List Byte) : Nat × Nat × Nat × Nat := (getLe b 0x1C 2, getLe b 0x1E 2, getLe b 0x20 2, getLe b 0x22 2)
def lDstX (b : List Byte) : Int := sext 16 (getLe b 0x24 2)
def lDstY (b : List Byte) : Int := sext 16 (getLe b 0x26 2)
def lDstW (b : List Byte) : Nat := getLe b 0x28 2
def lDstH (b : List Byte) : Nat := getLe b 0x2A 2

/-- Two-plane formats (R427). -/
def lPlanes (b : List Byte) : Bool := lFormat b = 0x42 || lFormat b = 0x43

/-- Every check of a descriptor of a layer (R426, R432). -/
def layerOk (layer : Nat) (b : List Byte) : Bool :=
  let (_, _, w, h) := lSrc b
  getLe b 0 8 % 64 = 0 && (if lPlanes b then getLe b 8 8 % 64 = 0 else getLe b 8 8 = 0)
  && [0x03, 0x05, 0x09, 0x40, 0x41, 0x42, 0x43].contains (lFormat b) && !lFlag b 7
  && getLe b 0x14 4 % 64 = 0 && getLe b 0x18 4 % 64 = 0 && 1 ≤ w && 1 ≤ h && 1 ≤ lDstW b && 1 ≤ lDstH b
  && getLe b 0x2D 3 = 0 && bits (getLe b 0x30 4) 30 17 = 0 && getLe b 0x34 4 = 0
  && w ≤ 4 * lDstW b && lDstW b ≤ 16 * w && h ≤ 4 * lDstH b && lDstH b ≤ 16 * h
  && (layer ≠ 6 || (lFormat b = 0x03 && w = lDstW b && h = lDstH b && w ≤ 256 && h ≤ 256
      && !lFlag b 1 && !lFlag b 3 && !lFlag b 4))

/-- DSP_LAYER_SET (R428). -/
def execDspLayerSet (pair : Fin 8) (buf : Option (List Byte)) (s : State) : Out :=
  s.mbxCmd pair 0x0503 (fun r s =>
    let p := r.n 0x10 1
    let l := r.n 0x11 1
    if 3 < p || 6 < l then (.err eBadParameter, s)
    else match r.input 0x18 64 64 buf with
      | none => (.err eBuffer, s)
      | some b =>
        if !(s.pipe p).on || !layerOk l b then (.err eDspLayer, s)
        else (Ans.done, s.modLayers p (fun v => { v with
          staged := mset v.staged l b, superseded := v.superseded ++ (mget v.staged l).toList, apply := v.apply || lFlag b 5 })))

/-- DSP_SCALER_LOAD (R433): live at the next frame start. -/
def execDspScalerLoad (pair : Fin 8) (buf : Option (List Byte)) (s : State) : Out :=
  s.mbxCmd pair 0x0504 (fun r s =>
    let p := r.n 0x10 1
    let l := r.n 0x11 1
    if 3 < p || 5 < l then (.err eBadParameter, s)
    else match r.input 0x18 1792 1792 buf with
      | none => (.err eBuffer, s)
      | some b =>
        let ok := fun (i : Nat) => let w := getLe b (2 * i) 2; bits w 15 10 = (if bit w 9 then 63 else 0)
        if !(List.range 896).all ok then (.err eDspCoeff, s)
        else (Ans.done, s.modLayers p (fun v => { v with coeffStaged := mset v.coeffStaged l b })))

/-! ### Links (R425) -/

/-- The training record of a pipe (R499). -/
def State.logPipe (s : State) (p res : Nat) : State :=
  s.log 0x09 (2 + p * 256 + res * 65536) (match res with | 2 => 0 | _ => (dspRate (s.pipe p).rate).getD 0)
    (match res with | 2 => 0 | _ => (s.pipe p).lanes)

/-- PIPE_LINK_TRAINING_END (R420, R425): at the configured rate, or a lower one of its coding that still fits; none of
them: failed at an enable, or after three retrains. -/
def execPipeLinkTrainingEnd (pipe : Fin 4) (rate : Option (Fin 16)) (s : State) : Out :=
  let p := pipe.val
  let v := s.pipe p
  if !s.live || s.halted || v.fenced || !(v.link = 1 || v.link = 3) || v.cfg.length ≠ 64 then .next s
  else match rate with
    | some r =>
      let c := dRate v.cfg
      let lower := uhbr r.val = uhbr c && (dspRate r.val).getD 0 < (dspRate c).getD 0
        && (if dEdp v.cfg then true else r.val ≤ 6) && linkFits v.cfg r.val
      if !((dspRate r.val).isSome && (r.val = c || lower)) then .next s
      else .next ((s.modPipe p (fun v => { v with
        link := 2, lanes := dLanes v.cfg, rate := r.val, dscOn := dDsc v.cfg, failedRetrains := 0 })).logPipe p
          (if r.val = c then 0 else 1))
    | none =>
      let n := v.failedRetrains + 1
      let dead := v.link = 1 || 3 ≤ n
      .next ((s.modPipe p (fun v => { v with link := if dead then 4 else 3, failedRetrains := n })).logPipe p 2)

/-- HPD_EVENT (R425, R562): the level of HPD; a fall or a reported loss of lock makes the pipe retrain. HPD is ignored in
Halt. -/
def execHpdEvent (pipe : Fin 4) (high lost : Bool) (s : State) : Out :=
  let p := pipe.val
  if !s.live || s.halted then .next s
  else
    let fell := bit s.pins.hpd.toNat p && !high
    let s := { s with pins := { s.pins with hpd := BitVec.ofNat 4 (setBit s.pins.hpd.toNat p high) } }
    if (fell || lost) && (s.pipe p).link = 2 then
      .next (s.modPipe p (fun v => { v with link := 3, failedRetrains := 0, dscOn := false }))
    else .next s

/-! ### FSYNC (R437, R438, R440) -/

def Sync.reset : Sync := { level := false, edges := 0, period := 0, lastRise := none }
def State.sync (s : State) (i : Nat) : Sync := mgetD s.syncs i Sync.reset

/-- Nearest integer to a / b. -/
def roundDiv (a b : Nat) : Nat := (2 * a + b) / (2 * b)

/-- The remainder of an integer in 0 to m - 1. -/
def wrapMod (i : Int) (m : Nat) : Nat := (Int.emod i m).toNat

/-- An edge reaches a pipe that tracks it (R437, R438). -/
def State.trackEdge (s : State) (p : Nat) : State :=
  let v := s.pipe p
  let x := s.layersOf p
  let now := s.count (0x20 + p)
  let hline := max 1 (dHtotal v.cfg / 4)
  let vnom := dVtotal v.cfg
  let total := v.vtotal
  let line : Nat := (now + 2 ^ 56 - v.stamp) % 2 ^ 56 / hline % max 1 total
  let d0 : Nat := wrapMod ((total : Int) - (line : Int) - (dFsOffset v.cfg : Int)) (max 1 total)
  let d : Int := if 2 * d0 ≤ total then d0 else (d0 : Int) - total
  let s := s.modPipe p (fun v => { v with d := d, fsyncLost := false })
  match x.lastEdge with
  | none => s.modLayers p (fun x => { x with lastEdge := some now })
  | some t =>
    let per := roundDiv ((now + 2 ^ 56 - t) % 2 ^ 56) hline
    let want : Int := (per : Int) - Int.tdiv d 8 - total
    let next : Int := total + max (-1) (min 1 want)
    let lo := vnom - vnom / 16
    let hi := vnom + vnom / 16
    let s := s.modPipe p (fun v => { v with fsyncRange := per < lo || hi < per })
    s.modLayers p (fun x => { x with lastEdge := some now, nextTotal := some (max lo (min hi next.toNat)) })

/-- FSYNC_EDGE (R365, R437, R440): ignored in Halt (R514). -/
def execFsyncEdge (input : Fin 4) (level : Bool) (s : State) : Out :=
  let i := input.val
  let y := s.sync i
  if !s.live || s.halted || y.level = level then .next s
  else
    let y : Sync := if level then
        { level := true, edges := y.edges + 1, lastRise := some s.aclk
          period := match y.lastRise with | some t => (s.aclk + 2 ^ 56 - t) % 2 ^ 56 | none => 0 }
      else { y with level := false, edges := y.edges + 1 }
    let s := { s with syncs := mset s.syncs i y }
    let acts := fun (p : Nat) =>
      let v := s.pipe p
      v.enabled && !v.fenced && v.cfg.length = 64 && dFsInput v.cfg = i && dFsFalling v.cfg = !level
    let s := ((List.range 4).filter (fun p => acts p && dFsMode (s.pipe p).cfg = 2)).foldl State.trackEdge s
    let held := s.convoys.any (fun c => match c.2.timed with
      | some t => t.release = i + 1 && t.falling = !level
      | none => false)
    .next ((if held then s.leaveRest else s).fsyncRelease i (!level))

/-- FSYNC_LOST_EXPIRY (R438): no edge for 4 × VNOM lines. -/
def execFsyncLostExpiry (pipe : Fin 4) (s : State) : Out :=
  let v := s.pipe pipe.val
  if !s.live || s.halted || !v.enabled || v.cfg.length ≠ 64 || dFsMode v.cfg ≠ 2 then .next s
  else .next (s.modPipe pipe.val (fun v => { v with fsyncLost := true, locked := false }))

end Sys2Proof.Machine
end

