-- ==== Sys2Proof/Machine/Compose.lean ====
section
/-! DEFINITION. The frames of a display pipe (R420, R426 to R438): fetching the layers' rows, scaling, blending, the
flattened surface, and the frame start. -/

namespace Sys2Proof.Machine

/-! ### Numbers -/

/-- a / b rounded to nearest, ties to even. -/
def divEven (a b : Nat) : Nat :=
  let q := a / b
  if b < 2 * (a % b) || (2 * (a % b) = b && q % 2 = 1) then q + 1 else q

/-- The same for an integer over 256, clamped to 0 to `top`. -/
def scaleRound (a : Int) (top : Nat) : Nat := if a ≤ 0 then 0 else min top (divEven a.toNat 256)

/-- A component of m levels as 12 bits, and a 12-bit one as 10 bits. -/
def to12 (m v : Nat) : Nat := divEven (v * 4095) m
def to10 (v : Nat) : Nat := divEven (v * 1023) 4095

/-- Product of two 12-bit values (R431). -/
def mul12 (a b : Nat) : Nat := divEven (a * b) 4095

/-- An FP16 value clamped to 0 to 1, as 12 bits; a NaN has no stated value and takes a free one. -/
def half12 (w free : Nat) : Nat :=
  let e := bits w 14 10
  let m := bits w 9 0
  if e = 31 && m ≠ 0 then free % 4096
  else if bit w 15 then 0
  else if 15 ≤ e then 4095
  else divEven ((if e = 0 then m else 1024 + m) * 2 ^ (if e = 0 then 1 else e) * 4095) (2 ^ 25)

/-! ### Rows in memory -/

/-- Bytes of one surface row from an offset, with the poison of each 32-byte sector. -/
structure Row where
  base : Nat
  bytes : List Byte
  bad : List Bool
  deriving DecidableEq, Repr

def Row.get (r : Row) (off n : Nat) : Nat := getLe r.bytes (off - r.base) n
def Row.poisoned (r : Row) (off : Nat) : Bool := (r.bad[(off - r.base) / 32]?).getD false

/-- Read bytes [off, off + n) of a row at an address, sector by sector. -/
def State.fetchRow (s : State) (pipe asid va off n : Nat) (ext : Option (List Byte)) :
    Except (Nat × Nat × Nat × Nat) (Row × Option (List Byte)) × State :=
  let base := off / 32 * 32
  let k := (off + n + 31) / 32 - off / 32
  (List.range k).foldl (fun (r : Except (Nat × Nat × Nat × Nat) (Row × Option (List Byte)) × State) i =>
    match r with
    | (.error e, s) => (.error e, s)
    | (.ok (row, ext), s) => match s.readVaX (72 + pipe) asid (va + base + 32 * i) 32 true ext with
      | (.error e, s) => (.error e, s)
      | (.ok ((b, bad), ext), s) => (.ok ({ row with bytes := row.bytes ++ b, bad := row.bad ++ [bad] }, ext), s))
    (.ok ({ base := base, bytes := [], bad := [] }, ext), s)

/-- The rows of one layer that have been fetched: of plane 0 and of the chroma plane, by row. -/
structure Rows where
  luma : Map Row
  chroma : Map Row
  deriving DecidableEq, Repr

/-! ### Scaling (R432) -/

/-- Source position of output index x: whole part and phase, at the full step or at the chroma step. `mid` shifts by the
quarter that chroma rows are sited at (R427). -/
def srcPos (src dst x : Nat) (half mid : Bool) : Int × Nat :=
  let step := src * 65536 / dst
  let p : Int := (step * x + step / 2 : Nat) - (0x8000 : Int)
  let p : Int := if half then p / 2 - (if mid then 0x4000 else 0) else p
  (p / 65536, ((p / 1024) % 64).toNat)

/-- An index inside an edge-clamped, perhaps mirrored source of n. -/
def srcIndex (i : Int) (n : Nat) (flip : Bool) : Nat :=
  let j := if i < 0 then 0 else min i.toNat (n - 1)
  if flip then n - 1 - j else j

/-- Coefficient k of a phase: horizontal (8 taps) or vertical (6); the linear table where none was loaded (R433). -/
def coeffH (t : Option (List Byte)) (ph k : Nat) : Int :=
  match t with
  | some b => sext 10 (getLe b (16 * ph + 2 * k) 2)
  | none => if k = 3 then 256 - 4 * (ph : Int) else if k = 4 then 4 * (ph : Int) else 0
def coeffV (t : Option (List Byte)) (ph k : Nat) : Int :=
  match t with
  | some b => sext 10 (getLe b (1024 + 12 * ph + 2 * k) 2)
  | none => if k = 2 then 256 - 4 * (ph : Int) else if k = 3 then 4 * (ph : Int) else 0

/-- Extent of a plane of a layer: first column, columns, first row, rows. -/
def planeRect (d : List Byte) (half : Bool) : Nat × Nat × Nat × Nat :=
  let (x, y, w, h) := lSrc d
  if half then (x / 2, (x + w - 1) / 2 - x / 2 + 1, y / 2, (y + h - 1) / 2 - y / 2 + 1) else (x, w, y, h)

/-- Rows of a plane that output line y reads. -/
def rowsFor (d : List Byte) (y : Nat) (half : Bool) : List Nat :=
  let (_, _, y0, n) := planeRect d half
  let (i, _) := srcPos (lSrc d).2.2.2 (lDstH d) y half half
  dedup ((List.range 6).map (fun k => y0 + srcIndex (i - 2 + (k : Int)) n (lFlag d 4)))

/-- Columns that output column x reads, by tap. -/
def colsFor (d : List Byte) (x : Nat) (half : Bool) : List Nat :=
  let (x0, n, _, _) := planeRect d half
  let (i, _) := srcPos (lSrc d).2.2.1 (lDstW d) x half false
  (List.range 8).map (fun k => x0 + srcIndex (i - 3 + (k : Int)) n (lFlag d 3))

/-- Bytes of a sample of plane 0, and of a chroma pair. -/
def lBytes (f : Nat) : Nat := match f with | 0x09 => 8 | 0x41 => 2 | 0x42 => 1 | 0x43 => 2 | _ => 4
def lBytesUv (f : Nat) : Nat := if f = 0x43 then 4 else 2

/-- Components of a sample as they are scaled: RGBA of 12 bits, or Y, or Cb and Cr, in their own width (R427). -/
def sampleOf (f : Nat) (chroma : Bool) (w free : Nat) : List Nat :=
  let b8 := fun (i : Nat) => to12 255 (bits w (8 * i + 7) (8 * i))
  match f with
  | 0x03 => [b8 0, b8 1, b8 2, b8 3]
  | 0x40 => [b8 2, b8 1, b8 0, b8 3]
  | 0x05 => [to12 1023 (bits w 9 0), to12 1023 (bits w 19 10), to12 1023 (bits w 29 20), to12 3 (bits w 31 30)]
  | 0x09 => (List.range 4).map (fun i => half12 (bits w (16 * i + 15) (16 * i)) free)
  | 0x41 => [to12 31 (bits w 4 0), to12 63 (bits w 10 5), to12 31 (bits w 15 11), 4095]
  | 0x42 => if chroma then [bits w 7 0, bits w 15 8] else [bits w 7 0]
  | _ => if chroma then [bits w 15 6, bits w 31 22] else [bits w 15 6]

/-- Highest value of a scaled component. -/
def lTop (f : Nat) : Nat := if f = 0x42 then 255 else if f = 0x43 then 1023 else 4095

/-- One plane of a layer at an output pixel after both passes of the scaler: components, poison. -/
def scaled (d : List Byte) (t : Option (List Byte)) (rows : Map Row) (x y : Nat) (half : Bool) (free : Nat) :
    List Nat × Bool :=
  let f := lFormat d
  let n := if half then lBytesUv f else lBytes f
  let (_, _, y0, h) := planeRect d half
  let (i, pv) := srcPos (lSrc d).2.2.2 (lDstH d) y half half
  let (_, ph) := srcPos (lSrc d).2.2.1 (lDstW d) x half false
  let cols := colsFor d x half
  let line := fun (k : Nat) =>
    let row := (mget rows (y0 + srcIndex (i - 2 + (k : Int)) h (lFlag d 4))).getD { base := 0, bytes := [], bad := [] }
    let px := cols.map (fun c => sampleOf f half (row.get (c * n) n) free)
    let bad := cols.any (fun c => row.poisoned (c * n))
    let comps := (List.range (if half then 2 else if f = 0x42 || f = 0x43 then 1 else 4)).map (fun j =>
      scaleRound (foldIdx px (0 : Int) (fun a k p => a + coeffH t ph k * (p[j]?.getD 0 : Nat))) (lTop f))
    (comps, bad)
  let lines := (List.range 6).map line
  let m := if half then 2 else if f = 0x42 || f = 0x43 then 1 else 4
  ((List.range m).map (fun j =>
      scaleRound (foldIdx lines (0 : Int) (fun a k l => a + coeffV t pv k * (l.1[j]?.getD 0 : Nat))) (lTop f)),
    lines.any (fun l => l.2))

/-- A pixel of a layer: R, G, B, alpha of 12 bits, and poison. -/
def layerPixel (d : List Byte) (t : Option (List Byte)) (r : Rows) (x y free : Nat) : List Nat × Bool :=
  let (a, bad) := scaled d t r.luma x y false free
  if lPlanes d then
    let (uv, bad2) := scaled d t r.chroma x y true free
    let (p, q, z) := Config.yccToRgb (lFlag d 6) (if lFormat d = 0x42 then 8 else 10) (a[0]?.getD 0) (uv[0]?.getD 0) (uv[1]?.getD 0)
    ([p % 4096, q % 4096, z % 4096, 4095], bad || bad2)
  else (a, bad)

/-! ### Fetching a layer -/

/-- A layer ready to compose: descriptor, table, rows, and the output line from which it is transparent. -/
structure Layer where
  d : List Byte
  t : Option (List Byte)
  rows : Rows
  stop : Option Nat
  fault : Option (Nat × Nat × Nat × Nat)
  deriving DecidableEq, Repr

/-- Output lines of a layer that lie in the active area. -/
def linesIn (d : List Byte) (vactive : Nat) : List Nat :=
  (List.range (lDstH d)).filter (fun (y : Nat) => 0 ≤ lDstY d + (y : Int) && lDstY d + (y : Int) < (vactive : Int))

/-- Fetch the rows of one plane that an output line needs and that are not there yet. -/
def State.fetchPlane (s : State) (pipe : Nat) (d : List Byte) (half : Bool) (y : Nat) (rows : Map Row) (ext : Option (List Byte)) :
    Except (Nat × Nat × Nat × Nat) (Map Row × Option (List Byte)) × State :=
  let (x0, n, _, _) := planeRect d half
  let b := if half then lBytesUv (lFormat d) else lBytes (lFormat d)
  let (va, pitch) := if half then (getLe d 8 8, getLe d 0x18 4) else (getLe d 0 8, getLe d 0x14 4)
  (rowsFor d y half).foldl (fun (r : Except (Nat × Nat × Nat × Nat) (Map Row × Option (List Byte)) × State) k =>
    match r with
    | (.error e, s) => (.error e, s)
    | (.ok (rows, ext), s) =>
      if mhas rows k then (.ok (rows, ext), s)
      else match s.fetchRow pipe (lAsid d) (va + pitch * k) (x0 * b) (n * b) ext with
        | (.error e, s) => (.error e, s)
        | (.ok (row, ext), s) => (.ok (mset rows k row, ext), s)) (.ok (rows, ext), s)

/-- Fetch a layer line by line; a fault ends it (R429). -/
def State.fetchLayer (s : State) (pipe vactive : Nat) (d : List Byte) (t : Option (List Byte)) (ext : Option (List Byte)) :
    (Layer × Option (List Byte)) × State :=
  let none_ : Layer := { d := d, t := t, rows := { luma := [], chroma := [] }, stop := none, fault := none }
  (linesIn d vactive).foldl (fun (r : (Layer × Option (List Byte)) × State) y =>
    let ((l, ext), s) := r
    if l.stop.isSome then r
    else match s.fetchPlane pipe d false y l.rows.luma ext with
      | (.error e, s) => (({ l with stop := some y, fault := some e }, ext), s)
      | (.ok (a, ext), s) =>
        if !lPlanes d then (({ l with rows := { l.rows with luma := a } }, ext), s)
        else match s.fetchPlane pipe d true y l.rows.chroma ext with
          | (.error e, s) => (({ l with stop := some y, fault := some e }, ext), s)
          | (.ok (c, ext), s) => (({ l with rows := { luma := a, chroma := c } }, ext), s)) ((none_, ext), s)

/-! ### Blending (R431) -/

/-- A pixel in composition: R, G, B of 12 bits, and whether it comes from poison. -/
structure Mix where
  c : List Nat
  bad : Bool
  deriving DecidableEq, Repr

/-- A 10-bit-per-component colour of the configuration. -/
def color10 (w : Nat) : List Nat := [to12 1023 (bits w 9 0), to12 1023 (bits w 19 10), to12 1023 (bits w 29 20)]

/-- Blend one layer's pixel over the running colour. -/
def blendOver (d : List Byte) (px : List Nat × Bool) (m : Mix) : Mix :=
  let g := to12 255 (getLe d 0x2C 1)
  let a := px.1[3]?.getD 4095
  let a' := mul12 a g
  let c := (List.range 3).map (fun i =>
    let cs := px.1[i]?.getD 0
    let cs := if lFlag d 2 then mul12 cs g else mul12 (mul12 cs a) g
    min 4095 (cs + mul12 (4095 - a') (m.c[i]?.getD 0)))
  { c := c, bad := m.bad || px.2 }

/-- One layer at a screen pixel. -/
def Layer.over (l : Layer) (x y free : Nat) (m : Mix) : Mix :=
  let lx := (x : Int) - lDstX l.d
  let ly := (y : Int) - lDstY l.d
  if 0 ≤ lx && lx < (lDstW l.d : Int) && 0 ≤ ly && ly < (lDstH l.d : Int)
      && (match l.stop with | some t => ly < (t : Int) | none => true) then
    blendOver l.d (layerPixel l.d l.t l.rows lx.toNat ly.toNat free) m
  else m

/-- The screen pixels, row by row. -/
def screen (b : List Byte) : List (Nat × Nat) :=
  (List.range (dVactive b)).flatMap (fun y => (List.range (dHactive b)).map (fun x => (x, y)))

/-! ### The flattened surface (R434 to R436) -/

/-- The static run: enabled, static layers from layer 0 up. -/
def staticRun (live : Map (List Byte)) : Nat :=
  ((List.range 6).takeWhile (fun l => match mget live l with | some d => lFlag d 0 && lFlag d 1 | none => false)).length

/-- Row pitch of the flattened surface. -/
def flatPitch (b : List Byte) : Nat := roundUp (dHactive b * 4) 64

/-- Read the flattened surface. -/
def State.fetchFlat (s : State) (pipe : Nat) (b : List Byte) (ext : Option (List Byte)) :
    Except (Nat × Nat × Nat × Nat) (Map Row × Option (List Byte)) × State :=
  (List.range (dVactive b)).foldl (fun (r : Except (Nat × Nat × Nat × Nat) (Map Row × Option (List Byte)) × State) y =>
    match r with
    | (.error e, s) => (.error e, s)
    | (.ok (rows, ext), s) => match s.fetchRow pipe (dFlatAsid b) (dFlatVa b + flatPitch b * y) 0 (dHactive b * 4) ext with
      | (.error e, s) => (.error e, s)
      | (.ok (row, ext), s) => (.ok (mset rows y row, ext), s)) (.ok ([], ext), s)

/-- A pixel of the flattened surface. -/
def flatPixel (rows : Map Row) (x y : Nat) : Mix :=
  let row := (mget rows y).getD { base := 0, bytes := [], bad := [] }
  { c := color10 (row.get (4 * x) 4), bad := row.poisoned (4 * x) }

/-- Write the flattened surface row by row. -/
def State.writeFlat (s : State) (pipe : Nat) (b : List Byte) (at_ : Nat → Nat → Mix) :
    Except (Nat × Nat × Nat × Nat) Unit × State :=
  (List.range (dVactive b)).foldl (fun (r : Except (Nat × Nat × Nat × Nat) Unit × State) y =>
    match r with
    | (.error e, s) => (.error e, s)
    | (.ok _, s) =>
      let row := (List.range (dHactive b)).flatMap (fun x =>
        let px := (at_ x y).c
        leBytes 4 (to10 (px[0]?.getD 0) + to10 (px[1]?.getD 0) * 1024 + to10 (px[2]?.getD 0) * 2 ^ 20 + 3 * 2 ^ 30))
      s.writeVa (72 + pipe) (dFlatAsid b) (dFlatVa b + flatPitch b * y) row true) (.ok (), s)

/-! ### Faults of a pipe (R429, R436) -/

/-- A pipe's fault record: it does not wait for the answer. -/
def State.pipeFault (s : State) (p asid : Nat) (acc : Acc) (f : Nat × Nat × Nat × Nat) : Option Nat × State :=
  s.raiseFault
    { asid := asid, kind := f.1, acc := acc, va := f.2.2.2, waybill := 0, seq := 0, agent := 5, unit := p, queue := 0xFFFF
      level := f.2.1, heap := 0, detail := f.2.2.1, growKey := 0, convoy := none }

/-- A layer goes off; without a free record it comes back at the next frame start and faults again. -/
def State.layerFault (s : State) (p l : Nat) (asid : Nat) (f : Nat × Nat × Nat × Nat) : State :=
  let (id, s) := s.pipeFault p asid accRead f
  let s := s.modPipe p (fun v => { v with layerOff := v.layerOff ||| BitVec.ofNat 7 (2 ^ l) })
  match id with
  | some id => s.modLayers p (fun x => { x with faults := mset x.faults l id })
  | none => s

/-- A fault on the flattened surface: the pipe composes live until the next DSP_PIPE_SET. -/
def State.flatFault (s : State) (p : Nat) (acc : Acc) (f : Nat × Nat × Nat × Nat) : State :=
  let s := (s.pipeFault p (dFlatAsid (s.pipe p).cfg) acc f).2
  (s.modPipe p (fun v => { v with flatOff := true, flatValid := false })).modLayers p (fun x => { x with flatRun := 0 })

/-! ### Frame start -/

/-- Staged descriptors and tables go live (R428, R433, R435); the events of the set and of what it superseded. -/
def State.goLive (s : State) (p : Nat) : State :=
  let x := s.layersOf p
  let s := s.modLayers p (fun x => { x with coeff := x.coeffStaged.foldl (fun m c => mset m c.1 c.2) x.coeff, coeffStaged := [] })
  if !x.apply then s
  else
    let run := staticRun x.live
    let hits := x.staged.any (fun d => d.1 ≤ run)
    let off := maskOf (x.staged.map (fun d => d.1))
    let s := s.modLayers p (fun x => { x with
      live := x.staged.foldl (fun m d => mset m d.1 d.2) x.live, staged := [], superseded := [], apply := false
      faults := x.faults.filter (fun f => !x.staged.any (fun d => d.1 = f.1)), flatRun := if hits then 0 else x.flatRun })
    let s := s.modPipe p (fun v => { v with
      layerOff := v.layerOff &&& ~~~BitVec.ofNat 7 off, flatValid := v.flatValid && !hits })
    (x.superseded ++ x.staged.map (fun d => d.2)).foldl (fun s d =>
      let e := getLe d 0x30 4
      if bit e 31 then s.recordEvent (bits e 16 0) (getLe d 0x38 8) false else s) s

/-- Layers come back after a RETRY, and go off when their address space is gone (R429). -/
def State.settleLayers (s : State) (p : Nat) : State :=
  let x := s.layersOf p
  let gone := x.live.filter (fun d => !mhas s.mmu.asids (lAsid d.2))
  let faults := gone.foldl (fun (m : Map Nat) d => mset m d.1 (2 ^ 32)) x.faults
  let off := maskOf (faults.map (fun f => f.1))
  (s.modLayers p (fun x => { x with faults := faults })).modPipe p (fun v => { v with layerOff := BitVec.ofNat 7 off })

/-- Fetch the layers that are on, from a layer number up, in order. -/
def State.fetchLayers (s : State) (p : Nat) (first : Nat) (ext : Option (List Byte)) :
    (List Layer × Option (List Byte)) × State :=
  let v := s.pipe p
  let x := s.layersOf p
  let on := (x.live.filter (fun d => first ≤ d.1 && lFlag d.2 0 && !bit v.layerOff.toNat d.1))
  on.foldl (fun (r : (List Layer × Option (List Byte)) × State) d =>
    let ((ls, ext), s) := r
    let ((l, ext), s) := s.fetchLayer p (dVactive v.cfg) d.2 (if d.1 = 6 then none else mget x.coeff d.1) ext
    let s := match l.fault with | some f => s.layerFault p d.1 (lAsid d.2) f | none => s
    ((ls ++ [l], ext), s)) (([], ext), s)

/-- Compose and send one frame (R430, R431, R434). `late` gives the underruns as line and first column. -/
def State.compose (s : State) (p : Nat) (late : List (Nat × Nat)) (ext : Option (List Byte)) : State :=
  let v := s.pipe p
  let b := v.cfg
  let run := staticRun (s.layersOf p).live
  let useFlat := dFlatten b && !v.flatOff && v.flatValid && run ≠ 0
  let (flat, ext, s) : Option (Map Row) × Option (List Byte) × State :=
    if useFlat then match s.fetchFlat p b ext with
      | (.ok (rows, ext), s) => (some rows, ext, s)
      | (.error f, s) => (none, ext, s.flatFault p accRead f)
    else (none, ext, s)
  let free := s.peek 0
  let ((ls, _), s) := (s.drew 1).fetchLayers p (if flat.isSome then run else 0) ext
  let ground := fun (x y : Nat) => match flat with
    | some rows => flatPixel rows x y
    | none => { c := color10 (getLe b 0x20 4), bad := false }
  let below := fun (k x y : Nat) => (ls.take k).foldl (fun m l => l.over x y free m) (ground x y)
  let isLate := fun (x y : Nat) => late.any (fun q => q.1 = y && q.2 ≤ x)
  let out := fun (x y : Nat) (i : Nat) =>
    let m := below ls.length x y
    let px := if m.bad || isLate x y then color10 (getLe b 0x24 4) else m.c
    let w := px[i]?.getD 0
    if dDither b then Config.dither (dBpc b) (x % 4) (y % 4) w % 2 ^ dBpc b else w / 2 ^ (12 - dBpc b)
  let pixel := fun (q : Nat × Nat) => BitVec.ofNat 36 (out q.1 q.2 0 + out q.1 q.2 1 * 4096 + out q.1 q.2 2 * 2 ^ 24)
  let s := s.modLayers p (fun x => { x with frame := (screen b).map pixel })
  -- a frame composed live writes the static run for the next ones (R434); not one with replaced pixels in it
  let clean := (screen b).all (fun q => !(below run q.1 q.2).bad && !isLate q.1 q.2)
  let s := if dFlatten b && !(s.pipe p).flatOff && flat.isNone && run ≠ 0 && clean
      && (ls.take run).length = run && (ls.take run).all (fun l => l.fault.isNone) then
      (match s.writeFlat p b (fun x y => below run x y) with
        | (.ok _, s) => s.modLayers p (fun x => { x with flatRun := run })
        | (.error f, s) => s.flatFault p accWrite f)
    else s
  let lines := dedup ((late.filter (fun q => q.1 < dVactive b && q.2 < dHactive b)).map (fun q => q.1))
  match lines with
  | [] => s
  | y :: _ =>
    let s := if (s.pipe p).underrunLogged then s else s.log 0x0B p y 0
    s.modPipe p (fun v => { v with underruns := loop lines.length v.underruns (fun w _ => satInc w), underrunLogged := true })

/-- Frame-lock state at a frame start (R437, R438). -/
def State.lockFrame (s : State) (p : Nat) : State :=
  let v := s.pipe p
  let x := s.layersOf p
  let vnom := dVtotal v.cfg
  let next := match x.nextTotal with
    | some t => t
    | none => if v.fsyncLost then (if vnom < v.vtotal then v.vtotal - 1 else if v.vtotal < vnom then v.vtotal + 1 else vnom)
      else v.vtotal
  if dFsMode v.cfg ≠ 2 then s.modPipe p (fun v => { v with vtotal := vnom })
  else
    let near := v.d.natAbs ≤ 1
    let n := if near then x.lockRun + 1 else 0
    let s := s.modLayers p (fun x => { x with lockRun := n, nextTotal := none })
    s.modPipe p (fun v => { v with vtotal := next
                                   locked := if 4 < v.d.natAbs then false else v.locked || (8 ≤ n && !v.fsyncLost) })

/-- FRAME_START (R418, R420, R428, R429): a stopping pipe stops; one that runs, or starts with a trained link, takes its
staged state and composes. While its link retrains it keeps its frames and fetches nothing (R425). -/
def execFrameStart (pipe : Fin 4) (late : List (Nat × Nat)) (ext : Option (List Byte)) (s : State) : Out :=
  let p := pipe.val
  let v := s.pipe p
  if !s.live || s.halted || v.fenced || v.cfg.length ≠ 64 then .next s
  else if v.stopping then
    .next ((s.modPipe p (fun v => { v with enabled := false, stopping := false, locked := false })).emit (.display p false))
  else if !v.enabled && !(v.starting && v.link = 2) then .next s
  else
    let s := if v.enabled then s else s.emit (.display p true)
    let s := s.modPipe p (fun v => { v with
      enabled := true, starting := false, frames := v.frames + 1, stamp := s.count (0x20 + p) })
    let x := s.layersOf p
    let s := s.modPipe p (fun v => { v with flatValid := x.flatRun ≠ 0 && x.flatRun = staticRun x.live && !v.flatOff })
    let s := ((s.goLive p).settleLayers p).lockFrame p
    .next (if (s.pipe p).link = 2 then s.compose p late ext else s)

end Sys2Proof.Machine
end

