-- ==== Sys2Proof/Machine/Sampling.lean ====
section
/-! DEFINITION. Counters by block, instance and event (R300, R543 to R545) and the sample rings (R546 to R554). -/

namespace Sys2Proof.Machine

/-! ### Counters -/

/-- Instances of a block (R300, R543). -/
def blockHas (block inst : Nat) : Bool :=
  match block with
  | 0x01 => inst < 8
  | 0x03 => inst < 0x24 || inst = 0x30 || inst = 0x31
  | 0x05 => inst < 8
  | 0x06 | 0x07 | 0x08 => inst < 32
  | 0x09 | 0x0E | 0x0F => inst < 4
  | 0x0A => inst < 16
  | 0x0D => inst < 24 || (0x40 ≤ inst && inst ≤ 0x43)
  | 0x10 => inst < 2
  | _ => block ≤ 0x13 && inst = 0

/-- Events that a block defines (R545). -/
def eventDefined (block e : Nat) : Bool :=
  match block with
  | 0x00 => e ≤ 1
  | 0x03 => e ≤ 3
  | 0x06 => e ≤ 0x00C || (0x010 ≤ e && e ≤ 0x018) || (0x020 ≤ e && e ≤ 0x026) || (0x040 ≤ e && e ≤ 0x045)
      || (0x050 ≤ e && e ≤ 0x052)
  | 0x07 => e ≤ 0x025 || (0x030 ≤ e && e ≤ 0x037)
  | 0x0A => e ≤ 6
  | 0x0B => e ≤ 3
  | 0x0D => e ≤ 3
  | 0x0E => e ≤ 4
  | 0x10 => e ≤ 1
  | _ => false

/-- Has an instance of a block this counter? The controllers of DRC have none. -/
def hasCounter (block inst e : Nat) : Bool := blockHas block inst && eventDefined block e && !(block = 0x0D && 24 ≤ inst)

/-- Events that count cycles, or work of other agents, that the model does not follow: their counts are free values
(log entry 53). -/
def eventFree (block e : Nat) : Bool :=
  match block with
  | 0x00 => true
  | 0x03 => e = 3
  | 0x06 => (0x022 ≤ e && e ≤ 0x024) || (0x041 ≤ e && e ≤ 0x045) || (0x050 ≤ e && e ≤ 0x052)
  | 0x07 => (0x031 ≤ e && e ≤ 0x033) || e = 0x035 || e = 0x036
  | 0x0B => e = 3
  | 0x0E => e = 2 || e = 4
  | _ => false

/-- Domain of a block's clock (R545). -/
def State.blockDomain (s : State) (block inst : Nat) : Nat :=
  match block with
  | 0x00 => 0x30
  | 0x06 | 0x07 => domC
  | 0x0D => 0x10 + inst / s.mem.perCtl
  | 0x0E => 0x40 + inst
  | _ => domF

/-- A counter as it is read (R542). -/
def State.counterValue (s : State) (block inst e : Nat) : Nat × State :=
  let d := s.blockDomain block inst * 2 ^ 56
  if eventFree block e then let (f, s) := s.draw; (d + f % 2 ^ 56, s)
  else (d + s.ctr block inst e, s)

/-! ### Rings -/

def SampleRing.reset : SampleRing :=
  { enabled := false, faulted := false, sizeLog := 0, vector := 0, asid := 0, va := 0, interval := 0, domain := 0, events := []
    units := [], sample := 0, widx := 0, latched := [], dropped := 0, dropOwed := false }

def State.sring (s : State) (r : Nat) : SampleRing := mgetD s.sampleRings r SampleRing.reset
def State.setSring (s : State) (r : Nat) (v : SampleRing) : State := { s with sampleRings := mset s.sampleRings r v }

/-- Is a selection buffer well formed for the blocks it names (R546)? -/
def State.selectionOk (s : State) (b : List Byte) : Bool :=
  let n := getLe b 1 1
  let u := getLe b 2 1
  let iv := getLe b 0 1
  let evs := (List.range 12).map (fun i => getLe b (0x10 + 2 * i) 2)
  let units := (List.range 32).map (fun i => getLe b (0x30 + 2 * i) 2)
  (iv = 0 || (10 ≤ iv && iv ≤ 24)) && 1 ≤ n && n ≤ 12 && 1 ≤ u && u ≤ 32 && getLe b 4 12 = 0 && getLe b 0x28 8 = 0
  && (evs.drop n).all (fun e => e = 0) && (units.drop u).all (fun x => x = 0)
  && (units.take u).all (fun x => (evs.take n).all (fun e => hasCounter (x / 256) (x % 256) e)
      && s.blockDomain (x / 256) (x % 256) = getLe b 3 1)

/-- SAMPLE_RING_SET with SIZE not 0 (R546). -/
def execSampleRingSetEnable (pair : Fin 8) (buf : Option (List Byte)) (s : State) : Out :=
  s.mbxServe pair.val (fun b => frameOp b = 0x0A01 && getLe b 0x11 1 ≠ 0) (fun r s =>
    let k := r.n 0x10 1
    let size := r.n 0x11 1
    if 15 < k || size < 6 || 16 < size || !vectorOk (r.n 0x12 2) || r.n 0x18 8 % 4096 ≠ 0 then (.err eBadParameter, s)
    else match r.input 0x20 112 112 buf with
      | none => (.err eBuffer, s)
      | some b =>
        if !s.selectionOk b then (.err eBadParameter, s)
        else if !mhas s.mmu.asids (r.n 0x14 2) then (.err eNotFound, s)
        else if (s.sring k).enabled then (.err eBusy, s)
        else
          let iv := getLe b 0 1
          let v : SampleRing :=
            { enabled := true, faulted := false, sizeLog := size, vector := r.n 0x12 2, asid := r.n 0x14 2
              va := BitVec.ofNat 64 (r.n 0x18 8), interval := if iv = 0 then 16 else iv, domain := getLe b 3 1
              events := (List.range (getLe b 1 1)).map (fun i => getLe b (0x10 + 2 * i) 2)
              units := (List.range (getLe b 2 1)).map (fun i => getLe b (0x30 + 2 * i) 2)
              sample := 0, widx := 0, latched := [], dropped := (s.sring k).dropped, dropOwed := false }
          (Ans.done, s.setSring k v))

/-- The 128 bytes of a record (R549). -/
def SampleRec.bytes (x : SampleRec) (phase dropped : Bool) : List Byte :=
  let w := x.waybill.getD (0, 0)
  leBytes 4 x.sample ++ leBytes 1 (b2n phase * 128 + b2n x.fenced * 4 + b2n dropped * 2 + b2n x.waybill.isNone)
  ++ leBytes 1 x.block ++ leBytes 1 x.inst ++ leBytes 1 x.values.length ++ leBytes 8 x.stamp.toNat
  ++ leBytes 8 w.1.toNat ++ leBytes 4 w.2.toNat ++ zeros 4
  ++ slice (x.values.flatMap (fun v => leBytes 8 v.toNat)) 0 96

/-- A SAMPLE cookie with the ring's write index (R278, R551). -/
def State.sampleCookie (s : State) (k : Nat) : State := s.interruptOpt (s.sring k).vector 0x7 0 k (s.sring k).widx.toNat

/-- Write the oldest latched record of a ring (R551, R552). -/
def State.writeSample (s : State) (k : Nat) : State :=
  let v := s.sring k
  match v.latched with
  | [] => s
  | x :: rest =>
    let at_ := v.va.toNat + 128 * (v.widx.toNat % 2 ^ v.sizeLog)
    let b := x.bytes (v.widx.toNat / 2 ^ v.sizeLog % 2 = 0) v.dropOwed
    match s.writeVa 255 v.asid at_ b true with
    | (.error _, s) =>
      (s.setSring k { v with enabled := false, faulted := true, latched := [] }).log 0x30 k at_ v.asid
    | (.ok _, s) =>
      let s := s.setSring k { v with latched := rest, widx := v.widx + 1, dropOwed := false }
      if (v.widx.toNat + 1) % 2 ^ (v.sizeLog - 2) = 0 then s.sampleCookie k else s

/-- SAMPLE_RING_SET with SIZE 0: what is latched is written, then the ring stops (R551). -/
def execSampleRingSetDisable (pair : Fin 8) (s : State) : Out :=
  s.mbxServe pair.val (fun b => frameOp b = 0x0A01 && getLe b 0x11 1 = 0) (fun r s =>
    let k := r.n 0x10 1
    if 15 < k || !vectorOk (r.n 0x12 2) then (.err eBadParameter, s)
    else if !(s.sring k).enabled then (Ans.done, s)
    else
      let s := loop 64 s (fun s _ => s.writeSample k)
      if !(s.sring k).enabled then (Ans.done, s)
      else (Ans.done, (s.setSring k { s.sring k with enabled := false }).sampleCookie k))

/-- Is the unit behind a counter block fenced? -/
def State.blockFenced (s : State) (block inst : Nat) : Bool :=
  match block with
  | 0x03 => if inst < 32 && inst < 0x20 then s.fenced 0 inst else if inst < 0x24 then s.fenced 7 (inst - 0x20) else s.fenced 6 (inst - 0x30)
  | 0x06 | 0x07 => s.fenced 0 inst
  | 0x0A => s.fenced 3 inst
  | 0x0D => (s.mem.chan inst).failed
  | 0x0E => s.fenced 4 inst
  | 0x10 => s.fenced 6 inst
  | _ => false

/-- The waybill of a unit now (R550). -/
def State.blockWaybill (s : State) (block inst : Nat) : Option (Dword × Word) :=
  let job := fun (u : Nat) => (mget s.jobs u).bind (fun j => (s.cmd? j.queue j.cmd).map (fun c => (c.waybill, c.seq)))
  let engine := fun (e : Nat) => if (s.eng e).loaded then (s.eng e).charge.map (fun c => (c.2.1, c.2.2)) else none
  match block with
  | 0x03 => if inst < 0x20 then engine inst else if inst < 0x24 then job (inst - 0x20) else job (4 + inst - 0x30)
  | 0x06 | 0x07 => engine inst
  | _ => none

/-- One record of a snapshot. -/
def State.sampleOf (s : State) (v : SampleRing) (unit : Nat) : SampleRec × State :=
  let block := unit / 256
  let inst := unit % 256
  let r := v.events.foldl (fun (r : List Dword × State) e =>
    let (n, s) := r.2.counterValue block inst e
    (r.1 ++ [BitVec.ofNat 64 n], s)) (([] : List Dword), s)
  let at_ := v.domain * 2 ^ 56 + s.count v.domain / 2 ^ v.interval * 2 ^ v.interval
  ({ sample := v.sample, block := block, inst := inst, fenced := s.blockFenced block inst, stamp := BitVec.ofNat 64 at_
     waybill := s.blockWaybill block inst, values := r.1 }, r.2)

/-- SAMPLE_SNAPSHOT (R547, R548, R551): the domain's count passes a multiple of the interval. -/
def execSampleSnapshot (ring : Fin 16) (s : State) : Out :=
  let k := ring.val
  let v := s.sring k
  if !s.live || s.halted || !v.enabled then .next s
  else if 64 < v.latched.length + v.units.length then
    .next (s.setSring k { v with sample := (v.sample + 1) % 2 ^ 32, dropped := satInc v.dropped, dropOwed := true })
  else
    let r := v.units.foldl (fun (r : List SampleRec × State) u =>
      let (x, s) := r.2.sampleOf v u
      (r.1 ++ [x], s)) (([] : List SampleRec), s)
    .next (r.2.setSring k { v with sample := (v.sample + 1) % 2 ^ 32, latched := v.latched ++ r.1 })

/-- SAMPLE_RECORD_WRITE (R551). -/
def execSampleRecordWrite (ring : Fin 16) (s : State) : Out :=
  if !s.live || s.halted || !(s.sring ring.val).enabled then .next s else .next (s.writeSample ring.val)

end Sys2Proof.Machine
end

