-- ==== Sys2Proof/Machine/Power.lean ====
section
/-! DEFINITION. Power management (R508 to R517) and temperatures (R565 to R569): samples and what they do to CCLK, Rest, the
drain toward Halt, Halt entry, wake sources, and the thermal trip. -/

namespace Sys2Proof.Machine

/-! ### CCLK (R508, R509) -/

/-- CCLK in kHz at a point (R539). -/
def pointKhz (p : Nat) : Nat := if p = 0 then 450000 else if p = 1 then 675000 else 900000

/-- CCLK moves to a point; a raise that waited is given up. -/
def State.setPoint (s : State) (p : Nat) : State :=
  { s with power := { s.power with point := p, raising := none } }.setKhz domC (pointKhz p)

/-- One point down. -/
def State.lowerCclk (s : State) : State :=
  { s with power := { s.power with stepsDown := s.power.stepsDown + 1 } }.setPoint (s.power.point - 1)

/-- One more idle CCLK in every 8 at the tensor arrays, at most 4. -/
def State.addIdle (s : State) : State :=
  { s with power := { s.power with idle := min 4 (s.power.idle + 1), raising := none } }

/-- SUSTAINED and PEAK in 1/16 W. -/
def State.limits (s : State) : Nat × Nat := (16 * bits (s.setting 0x50) 15 0, 16 * bits (s.setting 0x50) 31 16)

/-- Does the average of some samples lie above a limit? -/
def avgOver (l : List Nat) (limit : Nat) : Bool := limit * l.length < l.sum

/-- Does it lie at or below limit × f_now / f_next? -/
def avgCalm (l : List Nat) (limit point : Nat) : Bool :=
  if point = 0 then l.sum * 3 ≤ limit * l.length * 2 else l.sum * 4 ≤ limit * l.length * 3

/-- Is something held down that a limit or a temperature may hold? -/
def Power.held (p : Power) : Bool := p.point < 2 || 0 < p.idle

/-- A sample over a limit: one point down, or at 450 MHz idle cycles, one more per 1,000 further samples. -/
def State.powerOver (s : State) : State :=
  let p := s.power
  if 0 < p.point then { s with power := { p with overs := 0 } }.lowerCclk
  else if p.idle = 0 then { s with power := { p with overs := 0 } }.addIdle
  else if 999 ≤ p.overs then { s with power := { p with overs := 0 } }.addIdle
  else { s with power := { p with overs := p.overs + 1, raising := none } }

/-- 10,000 calm samples in a row: an idle cycle goes, or a raise starts. Zone 1 and above raise nothing (R566), and CCLK
stays at 450 MHz on the PMIC's default voltages (R520). -/
def State.powerCalm (s : State) : State :=
  let p := s.power
  if 2 ≤ s.thermal.zone then s
  else if 0 < p.idle then { s with power := { p with idle := p.idle - 1, under := 0 } }
  else if p.point < 2 && p.raising.isNone && !p.capPmic && s.thermal.zone = 0 then
    { s with power := { p with raising := some (p.point + 1), under := 0 } }
  else s

/-- POWER_SAMPLE (R508). -/
def execPowerSample (sixteenths : Nat) (s : State) : Out :=
  if !s.up || s.halted then .next s
  else
    let l := (sixteenths :: s.power.samples).take 100000
    let (sus, peak) := s.limits
    let over_ := avgOver (l.take 1000) peak || avgOver l sus
    let calmP := avgCalm (l.take 1000) peak s.power.point
    let calmS := avgCalm l sus s.power.point
    let under := if calmP && calmS then s.power.under + 1 else 0
    let s := { s with power := { s.power with samples := l, under := under } }
    let s := if over_ then s.powerOver else if 10000 ≤ under then s.powerCalm else s
    .next { s with power := { s.power with
      capPeak := s.power.held && !calmP, capSustained := s.power.held && !calmS } }

/-- PMIC_CALIBRATION (R508): the estimators follow the PMIC's reading; they are the source of later samples. -/
def execPmicCalibration (reading : Nat) (s : State) : Out :=
  if !s.up || s.halted then .next s
  else .next { s with power := { s.power with calibration := Config.calibrate reading } }

/-- CCLK_RAISE_CONFIRMED (R509). -/
def execCclkRaiseConfirmed (s : State) : Out :=
  match s.power.raising with
  | none => .next s
  | some p => if !s.up || s.halted then .next s else .next (s.setPoint p)

/-- PWR_LIMIT_SET (R508). -/
def execPwrLimitSet (pair : Fin 8) (s : State) : Out :=
  s.mbxCmd pair 0x0902 (fun r s =>
    let sus := r.n 0x10 2
    let peak := r.n 0x12 2
    if 230 < sus || 280 < peak || peak < sus then (.err eBadParameter, s)
    else (Ans.done, s.setSetting 0x50 (sus + peak * 65536)))

/-! ### Temperatures (R565, R566, R569) -/

/-- A THERMAL record. -/
def State.logThermal (s : State) (event : Nat) : State :=
  s.log 0x40 (event + s.thermal.sensor * 256) (wrapInt 64 s.thermal.tmax) s.power.point

/-- One thermal step down: a point, or at 450 MHz an idle cycle. -/
def State.thermalStep (s : State) : State := if 0 < s.power.point then s.lowerCclk else s.addIdle

/-- Zones 2 and 3, left after 10,000 samples at or below 107 °C. -/
def State.zoneHot (s : State) : State :=
  let t := s.thermal
  let cool := if t.tmax ≤ 1712 then t.cool + 1 else 0
  if 10000 ≤ cool then
    { s with thermal := { t with zone := if 1680 < t.tmax then 1 else 0, cool := 0, hot := 0 } }.logThermal 2
  else
    let s := { s with thermal := { t with cool := cool } }
    let step := (s.power.point = 0 && s.power.idle = 0) || 999 ≤ t.hot
    let s := if t.tmax ≤ 1760 then s
      else if step then { s with thermal := { s.thermal with hot := 0 } }.thermalStep
      else { s with thermal := { s.thermal with hot := t.hot + 1 } }
    { s with thermal := { s.thermal with zone := if s.power.point = 0 then 3 else 2 } }

/-- Zones 0 and 1, and the way into zone 2. A raise that waits is given up above 105 °C. -/
def State.zoneCool (s : State) : State :=
  let t := s.thermal
  if 1760 < t.tmax then
    let s := { s with thermal := { t with zone := 2, hot := 0, cool := 0 } }
    let s := if 0 < s.power.point || s.power.idle = 0 then s.thermalStep else s
    { s with thermal := { s.thermal with zone := if s.power.point = 0 then 3 else 2 } }.logThermal 1
  else if 1680 < t.tmax then
    let s := { s with thermal := { t with zone := 1 }, power := { s.power with raising := none } }
    if t.zone = 0 then s.logThermal 0 else s
  else { s with thermal := { t with zone := 0 } }

/-- SENSOR_SAMPLE (R565, R566): 48 readings in 1/16 °C; in Halt only sensor 47 is read, and no zone acts. -/
def execSensorSample (temps : List Int) (s : State) : Out :=
  if temps.length ≠ 48 || temps.any (fun t => t < -32768 || 32767 < t) then .fault .illFormed
  else if !s.up then .next s
  else
    let halt := s.power.st = .halt
    let read := (List.range 48).filter (fun i => !halt || i = 47)
    let t := s.thermal
    let best := read.foldl (fun (b i : Nat) => if temps.getD b 0 < temps.getD i 0 then i else b) (if halt then 47 else 0)
    let tmax := temps.getD best 0
    let s := { s with thermal := { t with
      temps := read.foldl (fun (m : Map Int) i => mset m i (temps.getD i 0)) t.temps, tmax := tmax, sensor := best
      tripRun := if 2000 < tmax then t.tripRun + 1 else 0 } }
    if s.halted then .next s
    else
      let s := if 2 ≤ s.thermal.zone then s.zoneHot else s.zoneCool
      let z := s.thermal.zone
      .next { s with power := { s.power with capThermal := 2 ≤ z || (z = 1 && s.power.point < 2) } }

/-- THERMAL_TRIP (R496, R567): the third sample in a row above 125 °C. -/
def execThermalTrip (s : State) : Out :=
  if !s.up || s.thermal.tripRun < 3 then .next s
  else
    let s := s.noting (fun s => { s with flt := { s.flt with fatal := true, held := true } }.refreshErrN)
    let s := { s with pins := { s.pins with thermTrip := true } }
    let s := s.submit { LogRec.blank 0x40 1 with
      arg0 := BitVec.ofNat 64 (3 + s.thermal.sensor * 256), arg1 := BitVec.ofNat 64 (wrapInt 64 s.thermal.tmax)
      arg2 := BitVec.ofNat 64 s.power.point } true
    .next { s with
      thermal := { s.thermal with tripped := true, zone := 4 }, host := { s.host with linkUp := false }
      engines := [], jobs := [], passes := [] }

/-! ### Rest (R511) -/

/-- Does anything stand against Rest: a loaded unit, pending entries of a resident convoy, a request on a link? -/
def State.busyNow (s : State) : Bool :=
  watchUnits.any s.unitLoaded
  || s.queues.any (fun q => match q.2.convoy with
      | some c => s.isResident c && q.2.head ≠ q.2.tail
      | none => false)
  || !s.host.np.isEmpty || !s.caravan.reqs.isEmpty

/-- REST_ENTRY (R511): 4,096 FCLK have passed idle. -/
def execRestEntry (s : State) : Out :=
  if !s.live || s.power.st ≠ .run || s.power.drain || s.boot.step ≠ 0xFF || s.busyNow then .next s
  else .next (s.noting (fun s => { s with power := { s.power with st := .rest } }))

/-! ### Halt (R512 to R517) -/

/-- Every enabled pipe stops at the end of its frame (R421). -/
def State.stopPipes (s : State) : State :=
  let l := (List.range 4).filter (fun p => (s.pipe p).on)
  let s := l.foldl (fun s p => s.modPipe p (fun v => { v with stopping := v.enabled, starting := false })) s
  { s with power := { s.power with pipesStopped := l } }

/-- PWR_HALT (R512): the drain starts once the response is sent. -/
def execPwrHalt (pair : Fin 8) (s : State) : Out :=
  s.mbxCmd pair 0x0901 (fun r s =>
    let s := (List.range 8).foldl (fun s n =>
      let p := s.mbx n
      if n = r.pair then s.setMbx n { p with haltAck := true }
      else if p.haltAck then s.setMbx n { p with haltAck := false } else s) s
    (Ans.done, if s.power.drain then s
      else ({ s with power := { s.power with drain := true } }).stopPipes))

/-- Step 2 of the drain: no engine, copy engine or binning front holds a started command, every pipe has ended its frame,
and the response has been acknowledged. Copies of R237 and the 64-byte steps of R455 end within their own command. -/
def State.drained (s : State) : Bool :=
  (List.range 32).all (fun e => (s.eng e).disps.isEmpty && !(s.eng e).loaded && (match s.queueOn e with
    | some (_, q) => q.cmds.all (fun c => c.st ≠ .started)
    | none => true))
  && (List.range 4).all (fun u => !mhas s.jobs u) && (List.range 8).all (fun q => (s.binning q).isEmpty)
  && (List.range 4).all (fun p => !(s.pipe p).enabled) && (List.range 8).all (fun n => !(s.mbx n).haltAck)

/-- HALT_COMMIT (R512, R513). -/
def execHaltCommit (s : State) : Out :=
  if !s.live || !s.power.drain || (s.power.st ≠ .run && s.power.st ≠ .rest) || !s.drained then .next s
  else
    .next (s.noting (fun s => { s with power := { s.power with
      st := .haltEntry, drain := false, halts := s.power.halts + 1, since := s.aclk, wakePending := none } }))

/-- HALT_REACHED (R513, R517, R540): the always-on domain writes the record; a source seen during entry starts wake. -/
def execHaltReached (s : State) : Out :=
  if s.power.st ≠ .haltEntry || !s.pins.resetN || !s.pins.pwrGood then .next s
  else
    let s := s.submit { LogRec.blank 0x21 2 with arg1 := BitVec.ofNat 64 ((s.aclk + 2 ^ 56 - s.power.since) % 2 ^ 56) } false
    match s.power.wakePending with
    | none => .next { s with power := { s.power with st := .halt } }
    | some _ => .next (s.noting (fun s => { s with power := { s.power with
        st := .waking, wakePending := none, since := s.aclk } }))

/-- WAKE_SOURCE (R514, R515): 1 the mainband, 2 the sideband message, 3-6 activity on P0-P3. Nothing outside Halt. -/
def execWakeSource (source : Nat) (s : State) : Out :=
  if source < 1 || 6 < source || !s.up then .next s else .next (s.wake source)

end Sys2Proof.Machine
end

