-- ==== Sys2Proof/Machine/Trust.lean ====
section
/-! DEFINITION. Settings (R525, R531 to R533), images and live update (R528, R529, R534 to R538), keys (R526, R527), debug
and calibration (R298, R301, R530), and the ends of long operations (R292). -/

namespace Sys2Proof.Machine

def eUpdateRollback : Nat := 0x0911
def eUpdateReverted : Nat := 0x0912
def eUpdateFormat : Nat := 0x0913
def eKeyAuthority : Nat := 0x0914
def eNotStaged : Nat := 0x0916

/-! ### The boot ledger as the settings show it (R524, R525) -/

/-- Is copy A the one in force? -/
def Mram.ledgerIsA (m : Mram) : Bool := m.bootA.valid && (!m.bootB.valid || m.bootB.count.toNat ≤ m.bootA.count.toNat)
/-- The ledger copy in force. -/
def Mram.ledger (m : Mram) : BootCopy := if m.ledgerIsA then m.bootA else m.bootB
/-- Rewrite that copy. -/
def Mram.setLedger (m : Mram) (c : BootCopy) : Mram := if m.ledgerIsA then { m with bootA := c } else { m with bootB := c }

def BootStep.reset : BootStep := { result := 0, mode := 0, fails := 0, sinceTry := 0, duration := 0, detail := 0 }
def BootCopy.step (c : BootCopy) (n : Nat) : BootStep := mgetD c.steps n BootStep.reset

/-- The 16 bytes of a step's entry. -/
def BootStep.bytes (x : BootStep) : List Byte :=
  leBytes 1 x.result ++ leBytes 1 x.mode ++ leBytes 1 x.fails ++ leBytes 1 x.sinceTry ++ leBytes 4 x.duration.toNat
  ++ leBytes 4 x.detail.toNat ++ zeros 4

/-! ### SETTING_GET and SETTING_SET (R525, R533) -/

/-- The step that a ledger key of a block names. -/
def ledgerStep (block key : Nat) : Option Nat :=
  if key / 256 = block * 256 && 1 ≤ key % 256 && key % 256 ≤ 24 then some (key % 256) else none

/-- Value of a key; none for an unknown one. -/
def State.settingValue (s : State) (key : Nat) : Option Nat :=
  if key = 0xB0000000 then some s.bootCount.toNat
  else match ledgerStep 0xB000 key, ledgerStep 0xB100 key with
    | some n, _ => some (getLe (s.mram.ledger.step n).bytes 0 8)
    | none, some n => some (getLe (s.mram.ledger.step n).bytes 8 8)
    | none, none => if (settingRange key).isSome || (ownedDefault key).isSome then some (s.setting key) else none

/-- SETTING_GET. -/
def execSettingGet (pair : Fin 8) (s : State) : Out :=
  s.mbxCmd pair 0x0903 (fun r s =>
    match s.settingValue (r.n 0x10 4) with
    | none => (.err eNotFound, s)
    | some v => (.ok (result [(0x10, 8, v)]) 0, s))

/-- May SETTING_SET give a key this value? -/
def settingTakes (key v : Nat) : Bool :=
  match settingRange key with
  | none => false
  | some (lo, hi, _) => lo ≤ v && v ≤ hi && !(key = 0x21 && v = 3)

/-- SETTING_SET: a key that a command owns takes no value here; a ledger entry returns to normal mode. -/
def execSettingSet (pair : Fin 8) (s : State) : Out :=
  s.mbxCmd pair 0x0904 (fun r s =>
    let key := r.n 0x10 4
    let v := r.n 0x18 8
    match ledgerStep 0xB000 key with
    | some n =>
      if v ≠ 0 then (.err eBadParameter, s)
      else
        let c := s.mram.ledger
        (Ans.done, { s with mram := s.mram.setLedger { c with steps := mset c.steps n { c.step n with mode := 0 } } })
    | none =>
      if (s.settingValue key).isNone then (.err eNotFound, s)
      else if settingTakes key v then (Ans.done, s.setSetting key v)
      else (.err eBadParameter, s))

/-- STORE_SETTINGS (R532): the working copy as it is now. -/
def execStoreSettings (pair : Fin 8) (s : State) : Out :=
  s.mbxCmd pair 0x0905 (fun r s => s.startLong r (packSettings s.mram.working))

/-- Its end: both copies written, or the read-back of the older one failed, or power was failing from the start. -/
def State.endStore (s : State) (l : LongOp) (ok : Bool) : State :=
  let m := s.mram
  let aNew := m.settingsA.valid && (!m.settingsB.valid || m.settingsB.generation.toNat ≤ m.settingsA.generation.toNat)
  let gen := (if aNew then m.settingsA else m.settingsB).generation + 1
  if s.logbook.warnAt.isSome then s.endLong l (.err eLedgerWrite)
  else if !ok then
    let m := if aNew then { m with settingsB := { m.settingsB with valid := false } }
      else { m with settingsA := { m.settingsA with valid := false } }
    { s with mram := m }.endLong l (.err eLedgerWrite)
  else
    let c : SettingsCopy := { generation := gen, entries := unpackSettings l.data, valid := true }
    (({ s with mram := { m with settingsA := c, settingsB := c } }).log 0x24 gen.toNat 0 0).endLong l Ans.done

/-! ### Images (R528, R529) -/

/-- Is an image's header well formed for a kind: 1 firmware, 2 microcode? -/
def imageFormed (kind : Nat) (b : List Byte) : Bool :=
  let n := getLe b 0x10 8
  b.length = 0x1000 + n && n ≤ (if kind = 1 then 2097152 else 1048576) && getLe b 0 4 = 0x4D56494D && getLe b 4 1 = kind
  && getLe b 5 1 = 1 && getLe b 6 1 ≤ 63 && getLe b 7 1 ≤ 1 && (getLe b 0xC 1 = 2 || getLe b 0xC 1 = 3)
  && getLe b 0xD 3 = 0 && (slice b 0x50 176).all (· = 0) && (kind = 2 || getLe b 0x48 8 = 0)

/-- Do both signatures of a header verify against its KEY_SLOT? -/
def State.headerSigned (s : State) (h : List Byte) : Bool :=
  s.bothVerify (getLe h 0xC 1) (slice h 0 0x100) (slice h 0x100 64) (slice h 0x140 3309)

def State.svnFloor (s : State) (kind : Nat) : Nat := if kind = 1 then s.mram.floorFw else s.mram.floorUcode

/-- The error of an image, 0 when it is accepted (R529). -/
def State.imageError (s : State) (kind : Nat) (b : List Byte) : Nat :=
  if !imageFormed kind b || !s.headerSigned b || Config.sha384 (b.drop 0x1000) ≠ slice b 0x18 48 then eSignature
  else if getLe b 6 1 < s.svnFloor kind then eUpdateRollback
  else 0

/-- The slot that an accepted image fills. -/
def imageSlot (b : List Byte) : ImageSlot :=
  { version := BitVec.ofNat 32 (getLe b 8 4), svn := getLe b 6 1, raiseFloor := bit (getLe b 7 1) 0
    formats := BitVec.ofNat 64 (getLe b 0x48 8), valid := true, intact := true, header := slice b 0 0xE2D }

/-- The error of an image that lies in a slot. -/
def State.slotError (s : State) (kind : Nat) (x : ImageSlot) : Nat :=
  if !x.intact || !(x.header.isEmpty || s.headerSigned x.header) then eSignature
  else if x.svn < s.svnFloor kind then eUpdateRollback
  else 0

def Mram.otherFw (m : Mram) : ImageSlot := if m.activeSlot = 0 then m.fwB else m.fwA
def Mram.setOtherFw (m : Mram) (x : ImageSlot) : Mram := if m.activeSlot = 0 then { m with fwB := x } else { m with fwA := x }
def Mram.activeFw (m : Mram) : ImageSlot := if m.activeSlot = 0 then m.fwA else m.fwB
def Mram.otherUcode (m : Mram) : ImageSlot := if m.ucodeSlot = 0 then m.ucodeB else m.ucodeA
def Mram.setOtherUcode (m : Mram) (x : ImageSlot) : Mram :=
  if m.ucodeSlot = 0 then { m with ucodeB := x } else { m with ucodeA := x }

/-! ### Firmware (R535, R536) -/

/-- FW_STAGE: the slot that is not active is empty until the image has been verified and written. -/
def execFwStage (pair : Fin 8) (buf : Option (List Byte)) (s : State) : Out :=
  s.mbxCmd pair 0x0910 (fun r s =>
    match r.input 0x10 0x1000 (0x1000 + 2097152) buf with
    | none => (.err eBuffer, s)
    | some b => match s.startLong r b with
      | (.progress, s) => (.progress, ({ s with mram := s.mram.setOtherFw ImageSlot.reset }).capChanged)
      | x => x)

def State.endStage (s : State) (l : LongOp) : State :=
  let err := s.imageError 1 l.data
  if err ≠ 0 then s.endLong l (.err err)
  else
    let x := imageSlot l.data
    (({ s with mram := s.mram.setOtherFw x }).capChanged).endLong l (.ok (result [(0x10, 4, x.version.toNat)]) 0)

/-- FW_ACTIVATE: the staged slot is verified again; UPDATING sets once no other long operation runs. -/
def execFwActivate (pair : Fin 8) (s : State) : Out :=
  s.mbxCmd pair 0x0911 (fun r s =>
    if !s.mram.otherFw.valid then (.err eNotStaged, s)
    else match s.startLong r (ucodeData 0 0 false (s.slotError 1 s.mram.otherFw)) with
      | (.progress, s) => (.progress, s.beginPause)
      | x => x)

/-- Its end: the new firmware has taken over, or has refused the hand-over block. -/
def State.endActivate (s : State) (l : LongOp) (ok : Bool) : State :=
  if l.refused ≠ 0 then s.endLong l (.err l.refused)
  else if !s.fw.updating then s
  else
    let x := s.mram.otherFw
    let v := x.version.toNat
    let s := s.noting (fun s => { s with fw := { s.fw with updating := false } })
    if !ok then (s.log 0x23 0 v eUpdateReverted).endLong l (.err eUpdateReverted)
    else
      let m := s.mram
      let slot := 1 - m.activeSlot
      let m := m.setLedger { m.ledger with activeSlot := slot }
      let s := { s with mram := { m with
        activeSlot := slot, floorFw := if x.raiseFloor then max m.floorFw x.svn else m.floorFw } }
      ((s.capChanged).log 0x23 0 v 0).endLong l (.ok (result [(0x10, 4, v)]) 0)

/-! ### Microcode (R537) -/

/-- UCODE_UPDATE: an accepted image goes to the standby slot, and the engines take their turns. An occupied save slot
holds FORMAT_REV 1 (R358). -/
def execUcodeUpdate (pair : Fin 8) (buf : Option (List Byte)) (s : State) : Out :=
  s.mbxCmd pair 0x0912 (fun r s =>
    match r.input 0x10 0x1000 (0x1000 + 1048576) buf with
    | none => (.err eBuffer, s)
    | some b =>
      let e := s.imageError 2 b
      let saved := s.parts.any (fun p => !p.2.slots.isEmpty)
      let err := if e ≠ 0 then e else if saved && !bit (getLe b 0x48 8) 1 then eUpdateFormat else 0
      match s.startLong r (ucodeData (getLe b 8 4) 0 false err) with
      | (.progress, s) => (.progress, if err = 0 then { s with mram := s.mram.setOtherUcode (imageSlot b) } else s)
      | x => x)

/-- Is an engine at its boundary (R349)? -/
def State.engineClear (s : State) (e : Nat) : Bool :=
  let forcing := match (s.partOf e).bind s.part? with | some x => x.forcing.isSome | none => false
  !forcing && (match s.residentOn e with
    | some c => s.atBoundary c e
    | none => (s.eng e).disps.isEmpty && (s.eng e).tensors.isEmpty)

/-- What a running operation keeps changes. -/
def State.setLongData (s : State) (l : LongOp) (d : List Byte) : State :=
  { s with fw := { s.fw with longOps := s.fw.longOps.map (fun x => if x = l then { x with data := d } else x) } }

/-- UCODE_ENGINE_UPDATE: the engine whose turn it is reaches its boundary, loads the microcode, runs its self-test and
returns. A failed self-test turns the update around: every engine updated so far goes back, the last one first. -/
def execUcodeEngineUpdate (engine : Fin 32) (selfTest : Bool) (s : State) : Out :=
  let e := engine.val
  match s.ucodeOp with
  | none => .next s
  | some l =>
    if !s.working || s.ucodeTurn ≠ some e || !s.engineClear e then .next s
    else
      let v := l.newVersion
      let t := ((s.settle e).returnEngine e).capChanged
      if l.undoing then .next (t.setLongData l (ucodeData v (setBit l.updated e false) true 0))
      else if selfTest then
        let t := t.modEng e (fun x => { x with ucode := BitVec.ofNat 32 v })
        .next ((t.log 0x23 1 v (e * 65536)).setLongData l (ucodeData v (setBit l.updated e true) false 0))
      else .next (t.setLongData l (ucodeData v l.updated true 0))

/-- The end of UCODE_UPDATE, once no engine has a turn left. -/
def State.endUcode (s : State) (l : LongOp) : State :=
  if l.refused ≠ 0 then s.endLong l (.err l.refused)
  else if s.ucodeTurn.isSome then s
  else if l.undoing then (s.log 0x23 2 l.newVersion eUpdateReverted).endLong l (.err eUpdateReverted)
  else
    let m := s.mram
    let x := m.otherUcode
    let s := { s with mram := { m with
      ucodeSlot := 1 - m.ucodeSlot, floorUcode := if x.raiseFloor then max m.floorUcode x.svn else m.floorUcode } }
    ((s.capChanged).log 0x23 2 l.newVersion 0).endLong l Ans.done

/-! ### RECALIBRATE (R538) -/

/-- RECALIBRATE. -/
def execRecalibrate (pair : Fin 8) (s : State) : Out :=
  s.mbxCmd pair 0x0913 (fun r s =>
    let target := r.n 0x10 1
    let i := r.n 0x11 1
    let known := match target with | 0 => i < 4 | 1 => i < 4 | 2 => i < s.mem.nch | _ => false
    let down := match target with
      | 0 => !s.host.linkUp || s.host.modules ≤ i
      | 1 => !s.caravan.inService i
      | _ => (s.mem.chan i).failed
    if !known then (.err eBadParameter, s) else if down then (.err eBusy, s) else s.startLong r [])

/-- The TRAINING record of a target: 0 trained, 2 failed. -/
def State.logTarget (s : State) (target i res : Nat) : State :=
  let (kind, rate, lanes) := match target with
    | 0 => (0, s.host.rate * 1000, s.host.lanes)
    | 1 => (1, if (s.caravan.port i).rate64 then 64000 else 32000, if (s.caravan.port i).width = 2 then 8 else 4)
    | _ => (3, rateMts (s.mem.chan i).rate, if s.mem.mode = 0 then 24 else 16)
  s.log 0x09 (kind + i * 256 + res * 65536) (if res = 2 then 0 else rate) (if res = 2 then 0 else lanes)

/-- The end of a phase. `ok` says that every lane has its margin, or that the retraining has worked; otherwise the target
retrains, and the operation ends a second time once it is back. An error the spec does not name is a free value. -/
def State.endRecalibrate (s : State) (l : LongOp) (ok : Bool) : State :=
  let target := getLe l.params 0 1
  let i := getLe l.params 1 1
  let fail := fun (s : State) => let (f, s) := s.draw; s.endLong l (.err (f % 65536))
  if l.data.isEmpty && ok then (s.logTarget target i 0).endLong l Ans.done
  else if l.data.isEmpty then
    let s := s.setLongData l [1]
    match target with
    | 0 => if s.host.modules ≤ 1 then { s with host := { s.host with recovery := true } } else s
    | 1 => s.modPort i (fun v => { v with link := 1 })
    | _ => s.wantRetrain i
  else match target with
    | 0 =>
      if ok then ((({ s with host := { s.host with recovery := false } }).report 0x0401 10 i 0 0).logTarget 0 i 0).endLong l Ans.done
      else if s.host.modules ≤ 1 then s
      else
        let s := ({ s with host := { s.host with modules := s.host.modules - 1 } }).capChanged
        fail ((s.report 0x0402 10 i 0 0).logTarget 0 i 2)
    | 1 =>
      if s.caravan.inService i then s.endLong l Ans.done
      else if (s.caravan.port i).fenced then fail (s.logTarget 1 i 2) else s
    | _ =>
      let c := s.mem.chan i
      if c.failed then fail s
      else if c.migrating || c.training || c.excluded then s
      else s.endLong l Ans.done

/-- The end of DRC_RETRAIN (R237): the channel is included again, or has failed. -/
def State.endRetrain (s : State) (l : LongOp) : State :=
  let c := s.mem.chan (getLe l.params 0 1)
  if c.failed then let (f, s) := s.draw; s.endLong l (.err (f % 65536))
  else if c.migrating || c.training || c.excluded then s
  else s.endLong l Ans.done

/-- LONG_OPERATION_END (R292): the running operation of an opcode ends, where all that it waits for holds. -/
def execLongOperationEnd (opcode : Nat) (ok : Bool) (data : List Byte) (s : State) : Out :=
  match s.fw.longOps.find? (fun l => l.opcode = opcode) with
  | none => .next s
  | some l =>
    if !s.up || s.halted then .next s
    else .next (match opcode with
      | 0x0402 => s.endRetrain l
      | 0x0702 => s.endMember l ok data
      | 0x0905 => s.endStore l ok
      | 0x0910 => s.endStage l
      | 0x0911 => s.endActivate l ok
      | 0x0912 => s.endUcode l
      | 0x0913 => s.endRecalibrate l ok
      | _ => s)

/-! ### Keys, debug, calibration, fuses -/

/-- May a slot's record be signed by a slot, in a session of a role (R526)? -/
def keyAuthority (slot signer role : Nat) : Bool :=
  if slot ≤ 3 then role = 3 && signer ≤ 1
  else (role = 2 || role = 3) && (signer ≤ 1 || (4 ≤ signer && signer ≤ 7))

/-- KEY_SET (R526, R527). -/
def execKeySet (pair : Fin 8) (buf : Option (List Byte)) (s : State) : Out :=
  s.mbxCmd pair 0x0920 (fun r s =>
    match r.input 0x18 5365 5365 buf with
    | none => (.err eBuffer, s)
    | some b =>
      let slot := getLe b 0 1
      let signer := getLe b 1 1
      let serial := getLe b 4 4
      let keys := slice b 8 1984
      let old := match mget s.mram.keys slot with | some k => k.serial.toNat | none => 0
      if 15 < slot || r.n 0x10 1 ≠ slot || getLe b 2 2 ≠ 0 then (.err eBadParameter, s)
      else if !s.bothVerify signer (slice b 0 0x7C8) (slice b 0x7C8 64) (slice b 0x808 3309) then (.err eSignature, s)
      else if !keyAuthority slot signer r.role || serial ≤ old
          || (slot ≤ 1 && Config.sha384 keys ≠ Config.makerDigest slot) then (.err eKeyAuthority, s)
      else
        let k : KeySlot := { ed := slice b 8 32, ml := slice b 0x28 1952, serial := BitVec.ofNat 32 serial }
        (Ans.done, ({ s with mram := { s.mram with keys := mset s.mram.keys slot k } }).log 0x23 3 slot 0))

/-- DIAG_OPEN (R301, R530). -/
def execDiagOpen (pair : Fin 8) (s : State) : Out :=
  s.mbxCmd pair 0x0921 (fun r s => (Ans.done, (s.modSession r.session (fun x => { x with diag := true })).log 0x25 1 0 0))

/-- DEBUG_UNLOCK (R530). -/
def execDebugUnlock (pair : Fin 8) (s : State) : Out :=
  s.mbxCmd pair 0x0922 (fun _ s => (Ans.done, ({ s with fw := { s.fw with debugOpen := true } }).log 0x25 0 0 0))

/-- CAL_WRITE (R298, R301). -/
def execCalWrite (pair : Fin 8) (buf : Option (List Byte)) (s : State) : Out :=
  s.mbxCmd pair 0x0923 (fun r s =>
    match r.input 0x10 0 (2 ^ 32 - 1) buf with
    | none => (.err eBuffer, s)
    | some b => (Ans.done, { s with mram := { s.mram with calibration := s.mram.calibration ++ [b] } }))

/-- FUSE_WRITE (R298): a blown fuse stays blown. -/
def execFuseWrite (pair : Fin 8) (s : State) : Out :=
  s.mbxCmd pair 0x0924 (fun r s =>
    let w := r.n 0x10 2
    let v := mgetD s.mram.fuses w 0 ||| BitVec.ofNat 64 (r.n 0x18 8)
    (.ok (result [(0x10, 8, v.toNat)]) 0, { s with mram := { s.mram with fuses := mset s.mram.fuses w v } }))

end Sys2Proof.Machine
end

