-- ==== Sys2Proof/Machine/Boot.lean ====
section
/-! DEFINITION. Reset and boot (R519 to R524): what a reset leaves, the 24 steps with the boot ledger's modes, and the
boundary-scan port (R530, R561). -/

namespace Sys2Proof.Machine

/-! ### Reset (R519, R559) -/

/-- MRAM after a reset: the working copy of the settings is gone, a store of them was cut short (R531, R532). -/
def State.mramAfter (s : State) : Mram :=
  let s := match s.fw.longOps.find? (fun l => l.opcode = 0x0905) with
    | some l => s.tearSettings (unpackSettings l.data)
    | none => s
  { s.mram with working := [] }

/-- Local memory after a reset: disabled ways and FAILED channels stay so (R163, R238); the counts of corrected errors
since power-up stay unless power was lost. -/
def Mem.after (m : Mem) (off : Bool) : Mem :=
  let slices := mmap m.slices (fun _ (v : Slice) => { Slice.reset with
    off := v.off, corrected := if off then 0 else v.corrected, correctedSr := if off then 0 else v.correctedSr })
  let channels := mmap m.channels (fun _ (v : Channel) => { Channel.reset with
    failed := v.failed, excluded := v.failed, corrected := if off then 0 else v.corrected })
  { Mem.reset with slices := slices, channels := channels }

/-- The whole die resets. What counts since power-up goes on unless power was lost; a thermal trip does not end (R567). -/
def State.dieReset (s : State) (off : Bool) : State :=
  let z := State.reset
  let trip := s.thermal.tripped && !off
  let clk : Clk := if off then { z.clk with fresh := s.clk.fresh + 1 }
    else { z.clk with counts := s.clk.counts, phase := s.clk.phase, fresh := s.clk.fresh + 1 }
  { z with
    clk := clk, pending := s.pending, mram := s.mramAfter, mem := s.mem.after off
    counters := if off then [] else s.counters
    host := { z.host with out := s.host.out, writeLost := if off then 0 else s.host.writeLost }
    flt := { z.flt with recoveries := if off then [] else s.flt.recoveries, fatal := trip, held := trip }
    thermal := if trip then { z.thermal with tripped := true, zone := 4 } else z.thermal
    logbook := { z.logbook with
      records := s.logbook.records, next := s.logbook.next
      warnAt := if s.pins.pwrFailN || off then none else some s.aclk }
    pins := { z.pins with
      pwrFailN := s.pins.pwrFailN || off, errN := trip, thermTrip := trip, hpd := if off then 0 else s.pins.hpd
      tap := if off then .testLogicReset else s.pins.tap, tapShift := if off then [] else s.pins.tapShift } }

/-- RESET (R519): RESET_N falls and rises again; boot has not started. -/
def execReset (s : State) : Out := if s.power.st = .off then .next s else .next (s.dieReset false)

/-- POWER_GOOD_LOSS (R559): a reset at once; the supplies go. -/
def execPowerGoodLoss (s : State) : Out :=
  if s.power.st = .off then .next s
  else
    let s := s.dieReset true
    .next { s with power := { s.power with st := .off }, pins := { s.pins with pwrGood := false, resetN := false } }

/-! ### The boot ledger in a boot (R521 to R524) -/

/-- Step 4: the copy that is not in force starts a new boot. With no copy that may be read, the ledger starts afresh. -/
def State.openLedger (s : State) (fresh : Bool) : State :=
  let m := s.mram
  let old := m.ledger
  let known := (m.bootA.valid || m.bootB.valid) && !fresh
  let entry := fun (i : Nat) =>
    let x : BootStep := if known then old.step (i + 1) else BootStep.reset
    (i + 1, { x with result := if i < 3 then 1 else 0, duration := 0, detail := 0 })
  let c : BootCopy :=
    { count := if known then old.count + 1 else 1, lastStep := 4, outcome := 3
      activeSlot := if known then old.activeSlot else m.activeSlot, stamp := s.aclk, steps := (List.range 24).map entry
      valid := true }
  let m := if !known then { m with bootA := c, bootB := BootCopy.reset }
    else if m.ledgerIsA then { m with bootB := c } else { m with bootA := c }
  { s with mram := m }

/-- Rewrite the entry of a step. -/
def State.noteStep (s : State) (n : Nat) (f : BootStep → BootStep) : State :=
  let c := s.mram.ledger
  { s with mram := s.mram.setLedger { c with stamp := s.aclk, steps := mset c.steps n (f (c.step n)) } }

def State.noteOutcome (s : State) (o : Nat) : State :=
  { s with mram := s.mram.setLedger { s.mram.ledger with outcome := o } }

/-- Mode in which a step of this boot runs: 0 normal, 1 skip, 2 alternate. -/
def State.bootMode (s : State) (n : Nat) : Nat := if n < 4 then 0 else (s.mram.ledger.step n).mode

def bootOptional (n : Nat) : Bool := n = 19 || n = 23
def bootAlternate (n : Nat) : Bool := [4, 5, 7, 8, 9, 13, 16, 20, 22].contains n

/-- The next step starts, or boot is complete. -/
def State.advanceBoot (s : State) (n : Nat) : State :=
  let next := if n = 24 then 0xFF else n + 1
  let s := if 4 ≤ n && n < 24 then { s with mram := s.mram.setLedger { s.mram.ledger with lastStep := n + 1 } } else s
  (s.noting (fun s => { s with boot := { s.boot with step := next } })).drainLog

/-- A failed step (R522). While power is failing no failure is recorded. -/
def State.failBoot (s : State) (n detail : Nat) : State :=
  if !s.pins.pwrFailN then s.dieReset false
  else
    let alt := s.bootMode n = 2
    let s := if n < 4 then s.openLedger false else s
    let result := if alt then 6 else 3
    let mode := if bootOptional n then 1 else if bootAlternate n then 2 else 0
    let c := s.mram.ledger
    let s := s.noteStep n (fun x => { x with
      result := result, mode := mode, fails := min (x.fails + 1) 255, sinceTry := 0
      duration := BitVec.ofNat 32 (s.aclk + 2 ^ 56 - c.stamp), detail := BitVec.ofNat 32 detail })
    let s := (s.log 0x22 n (result + mode * 256) detail).drainLog
    if bootOptional n then s.advanceBoot n
    else if bootAlternate n && !alt then (s.noteOutcome 1).dieReset false
    else (s.noteOutcome 2).goFatal

/-! ### The work of the steps (R520) -/

/-- The frequency of a clock that boot starts. -/
def State.startClock (s : State) (d khz : Nat) : State := { s with clk := { s.clk with khz := mset s.clk.khz d khz } }

/-- Step 5: the valid copy of the settings with the higher generation. -/
def Mram.storedSettings (m : Mram) : Map Dword :=
  if m.settingsA.valid && (!m.settingsB.valid || m.settingsB.generation.toNat ≤ m.settingsA.generation.toNat) then
    m.settingsA.entries
  else if m.settingsB.valid then m.settingsB.entries
  else []

/-- Step 13: the UCIe link. -/
def State.trainLink (s : State) (alt : Bool) (w : BootWorld) : State :=
  let top := min w.rate (if alt then 8 else s.setting 0x20)
  let rate := ([32, 24, 16, 12, 8, 4].find? (fun r => r ≤ top)).getD 4
  let n := min w.modules (s.setting 0x21)
  let half := w.lanes = 32 || w.lanes = 8
  let s := { s with host := { s.host with
    modules := n, lanes := w.lanes, rate := rate, ucieRev := w.ucieRev, linkUp := true } }
  (List.range n).foldl (fun s i =>
    let s := (s.startClock (0x30 + i) (Config.linkKhz false rate)).log 0x09 (i * 256 + b2n half * 65536) (rate * 1000) w.lanes
    if half then s.report 0x0402 10 i 0 0 else s) s

/-- The DRAM configuration in force: mode, density, spill, rate code (R215, R217); with none stored, that of the board. -/
def State.dramConfig (s : State) : Nat × Nat × Nat × Nat :=
  let v := s.setting 0x40
  if v ≠ 0 then (bits v 7 0, bits v 15 8, bits v 31 24, bits v 39 32)
  else
    let (m, d, sp, r) := Config.boardDram
    (m % 2, (if m % 2 = 0 then 2 else 1) * 2 ^ (d % 3), sp % 2, r % 3)

/-- A normal rate in units of 100 MT/s (R217). -/
def dramRate (mode code : Nat) : Nat :=
  ((if mode = 0 then [106, 96, 85] else [96, 85, 75])[code]?).getD 64

/-- Step 16: every channel that is not FAILED trains. -/
def State.trainDram (s : State) (alt : Bool) : State :=
  let (mode, density, spill, code) := s.dramConfig
  let rate := if alt then 64 else dramRate mode code
  let s := { s with mem := { s.mem with mode := mode, density := density, spill := spill } }
  let s := (List.range 4).foldl (fun s c => s.startClock (0x10 + c) (rateMts rate * 1000 / 8)) s
  (List.range s.mem.nch).foldl (fun s c =>
    if (s.mem.chan c).failed then s
    else ((s.modChan c (fun v => { v with rate := rate, safe := alt })).log 0x09 (3 + c * 256 + b2n alt * 65536)
      (rateMts rate) (if mode = 0 then 24 else 16)).drainLog) s

/-- Step 18: the accounting region on top, the page-table region below it, and the aperture's address space (R250, R571). -/
def State.layRegions (s : State) : State :=
  let pt := s.setting 0x46 * 2 ^ 20
  let acct := s.mem.capacity - 8 * 2 ^ 20
  let s := { s with accounts := [], mmu := { Mmu.reset with ptBase := acct - pt, ptBytes := pt, acctBase := acct } }
  match s.newTable with
  | none => s
  | some (root, s) => { s with mmu := { s.mmu with asids := mset s.mmu.asids 0xFFFF { ring := 0, root := root } } }

/-- Step 22: each port that trains. -/
def State.trainPorts (s : State) (alt : Bool) (w : BootWorld) : State :=
  foldIdx w.ports s (fun s p far => match far with
    | none => s
    | some f =>
      let f := { f with rate64 := f.rate64 && !alt && s.setting 2 = 0 }
      (s.startClock (0x40 + p) (Config.linkKhz true (if f.rate64 then 64 else 32))).portUp p f)

/-- Step 23: the stored routes, and every neighbour on the admission list that they reach. -/
def State.joinCaravan (s : State) : State :=
  let s := s.applyRoutes s.storedTable
  s.caravan.topo.foldl (fun s t => if s.admissible t.1 && s.reachable t.1 then s.setDieState t.1 1 else s) s

/-- What a step that passes has done; `alt` by its alternate method. -/
def State.bootWork (s : State) (n : Nat) (alt : Bool) (w : BootWorld) : State :=
  match n with
  | 3 => s.startClock domM 800000
  | 4 => s.openLedger alt
  | 5 =>
    let s := { s with mram := { s.mram with working := if alt then [] else s.mram.storedSettings } }
    { s with caravan := { s.caravan with die := s.setting 1 } }
  | 7 =>
    let a := s.mram.ledger.activeSlot
    { s with mram := { s.mram with activeSlot := if alt then 1 - a else a } }
  | 8 =>
    let s := if alt && s.bootMode 7 ≠ 2 then { s with mram := { s.mram with activeSlot := 1 - s.mram.activeSlot } } else s
    s.noting (fun s => { s with
      fw := { s.fw with masterAlive := true }, host := { s.host with heartbeat := s.host.heartbeat + 1 } })
  | 9 => if alt then { s with power := { s.power with capPmic := true, point := 0 } } else s
  | 10 => (s.startClock domF 1200000).startClock domC (pointKhz s.power.point)
  | 12 => { s with engines := [], mem := { s.mem with lines := [] } }
  | 13 => s.trainLink alt w
  | 16 => s.trainDram alt
  | 17 => { s with mem := { s.mem with cells := [], poison := [], partials := [] } }
  | 18 => s.layRegions
  | 19 => { s with mem := { s.mem with srWays := s.setting 0x45 } }
  | 20 =>
    let s := if alt then { s with mram := { s.mram with ucodeSlot := 1 - s.mram.ucodeSlot } } else s
    (List.range 32).foldl (fun s e => s.modEng e (fun v => { v with ucode := s.activeUcode })) s
  | 22 => s.trainPorts alt w
  | 23 => s.joinCaravan
  | 24 => (s.noting (fun s => { s with fw := { s.fw with mbxReady := true } })).noteOutcome 0
  | _ => s

/-- The failure that a step meets whatever the world says: 0 none. -/
def State.bootError (s : State) (n : Nat) (alt : Bool) (w : BootWorld) : Nat :=
  match n with
  | 7 =>
    let a := s.mram.ledger.activeSlot
    let x := if (if alt then 1 - a else a) = 0 then s.mram.fwA else s.mram.fwB
    if !x.valid then eSignature else s.slotError 1 x
  | 13 => if w.modules = 0 then 0x0408 else 0
  | 19 => if s.setting 0x45 = 0 || s.mem.srGrow (s.setting 0x45) then 0 else eStrongroomWays
  | 20 =>
    let x := if (if alt then 1 - s.mram.ucodeSlot else s.mram.ucodeSlot) = 0 then s.mram.ucodeA else s.mram.ucodeB
    if !x.valid then eSignature else s.slotError 2 x
  | _ => 0

/-- One step with the world's result: 0 passed, 1 passed degraded, otherwise failed with that DETAIL (2: none). -/
def State.bootStep (s : State) (n r : Nat) (w : BootWorld) : State :=
  let mode := s.bootMode n
  let alt := mode = 2
  let x := s.mram.ledger.step n
  if mode = 1 && x.sinceTry < 7 then
    (s.noteStep n (fun x => { x with result := 4, sinceTry := x.sinceTry + 1 })).advanceBoot n
  else
    let err := s.bootError n alt w
    if err ≠ 0 then s.failBoot n err
    else if 2 ≤ r then s.failBoot n (if r = 2 then 0 else r)
    else
      let s := s.bootWork n alt w
      let s := if n < 4 then s else
        let c := s.mram.ledger
        s.noteStep n (fun x => { x with
          result := if alt then 5 else 1 + r, mode := if alt && n ≠ 4 then 2 else 0, fails := 0, sinceTry := 0
          duration := BitVec.ofNat 32 (s.aclk + 2 ^ 56 - c.stamp), detail := 0 })
      let s := if n = 24 then s.log 0x04 s.bootCount.toNat 0 0 else s
      s.advanceBoot n

/-- Is what boot meets outside of the form the row takes? -/
def worldFormed (w : BootWorld) : Bool :=
  w.modules ≤ 4 && [64, 32, 16, 8].contains w.lanes && [4, 8, 12, 16, 24, 32].contains w.rate
  && (w.ucieRev = 0x11 || w.ucieRev = 0x20) && w.ports.length = 4

/-- BOOT_START (R519, R520): power and RESET_N come up where they are down; then one step for each result. A boot in
progress goes on where it stands. -/
def execBootStart (results : List Nat) (world : BootWorld) (s : State) : Out :=
  if 24 < results.length || !worldFormed world then .fault .illFormed
  else if s.thermal.tripped || s.flt.fatal || s.boot.step = 0xFF then .next s
  else
    let s := { s with
      power := { s.power with st := if s.power.st = .off then .run else s.power.st }
      pins := { s.pins with pwrGood := true, resetN := true } }
    let s := if s.boot.step = 0 then s.noting (fun s => { s with boot := { s.boot with step := 1 } }) else s
    .next (results.foldl (fun s r =>
      if 1 ≤ s.boot.step && s.boot.step ≤ 24 && !s.flt.fatal then s.bootStep s.boot.step r world else s) s)

/-- BOOT_STEP_TIMEOUT (R520): the step in progress has run longer than 2^28 ACLK. -/
def execBootStepTimeout (s : State) : Out :=
  if !s.live || s.boot.step < 1 || 24 < s.boot.step then .next s else .next (s.failBoot s.boot.step 0)

/-! ### Boundary scan (R530, R561) -/

/-- The next state of the TAP controller (IEEE 1149.1). -/
def Tap.next (t : Tap) (tms : Bool) : Tap :=
  match t, tms with
  | .testLogicReset, true => .testLogicReset | .testLogicReset, false => .runTestIdle
  | .runTestIdle, true => .selectDr | .runTestIdle, false => .runTestIdle
  | .selectDr, true => .selectIr | .selectDr, false => .captureDr
  | .captureDr, true => .exit1Dr | .captureDr, false => .shiftDr
  | .shiftDr, true => .exit1Dr | .shiftDr, false => .shiftDr
  | .exit1Dr, true => .updateDr | .exit1Dr, false => .pauseDr
  | .pauseDr, true => .exit2Dr | .pauseDr, false => .pauseDr
  | .exit2Dr, true => .updateDr | .exit2Dr, false => .shiftDr
  | .updateDr, true => .selectDr | .updateDr, false => .runTestIdle
  | .selectIr, true => .testLogicReset | .selectIr, false => .captureIr
  | .captureIr, true => .exit1Ir | .captureIr, false => .shiftIr
  | .shiftIr, true => .exit1Ir | .shiftIr, false => .shiftIr
  | .exit1Ir, true => .updateIr | .exit1Ir, false => .pauseIr
  | .pauseIr, true => .exit2Ir | .pauseIr, false => .pauseIr
  | .exit2Ir, true => .updateIr | .exit2Ir, false => .shiftIr
  | .updateIr, true => .selectDr | .updateIr, false => .runTestIdle

def Tap.shifts (t : Tap) : Bool := t = .shiftDr || t = .shiftIr

/-- BOUNDARY_SCAN: one rising edge of TCK. A bit shifts in while the controller shifts, and TDO is driven then; which bit
leaves stands open, since the spec gives no register's contents. Inactive in Halt and Off. -/
def execBoundaryScan (tms tdi : Bool) (s : State) : Out :=
  if s.power.st = .off || s.power.st = .halt then .next s
  else
    let old := s.pins.tap
    let t := old.next tms
    let kept := if old.shifts then tdi :: s.pins.tapShift
      else if old = .captureDr || old = .captureIr then [] else s.pins.tapShift
    let (f, s) := s.draw
    .next { s with pins := { s.pins with
      tap := t, tdo := if t.shifts then some (bit f 0) else none, tapShift := kept } }

end Sys2Proof.Machine
end

