-- ==== Sys2Proof/Machine/Master.lean ====
section
/-! DEFINITION. Faults as units report them to the collector (R224, R227, R480 to R488), and the caravan master's heartbeat,
divergence and restart (R258, R259, R489). -/

namespace Sys2Proof.Machine

/-! ### The caravan master (R489) -/

/-- A lockstep divergence: recorded; both cores are reset and the firmware restarts, or, after eight restarts within
WINDOW, the master is lost. Sessions close, long operations end as failed with an error the spec does not name. -/
def State.diverge (s : State) : State :=
  let s := s.report 0x0602 11 0 0 0
  let window := (s.policy 0x0602).window
  if 8 ≤ (s.fw.restarts.filter (fun t => s.aclk ≤ t + window)).length then s.report 0x0603 11 0 0 0
  else
    let ops := s.fw.longOps
    let s := s.noting (fun s => { s with fw := { s.fw with
      mbxReady := false, masterAlive := false, updating := false, restarting := true, sessions := [], longOps := [] } })
    let s := { s with host := { s.host with pairs := mmap s.host.pairs (fun _ (p : MbxPair) => { p with held := none }) } }
    ops.foldl (fun s l =>
      let s := if l.opcode = 0x0905 then s.tearSettings (unpackSettings l.data) else s
      let (f, s) := s.draw
      s.endLong l (.err (f % 65536))) s

/-- LOCKSTEP_DIVERGENCE (R489). -/
def execLockstepDivergence (s : State) : Out := if !s.live || s.fw.restarting then .next s else .next s.diverge

/-- MASTER_RESTART_COMPLETE (R489): the mailboxes open again; requests that waited are served by their own commands. -/
def execMasterRestartComplete (s : State) : Out :=
  if !s.up || s.flt.fatal || !s.fw.restarting || s.halted then .next s
  else .next (s.noting (fun s => { s with
    host := { s.host with heartbeat := s.host.heartbeat + 1 }
    fw := { s.fw with mbxReady := true, masterAlive := true, restarting := false, restarts := s.fw.restarts ++ [s.aclk] } }))

/-- HEARTBEAT_TIMEOUT (R489): no heartbeat within 2^25 ACLK of the cores' reset. -/
def execHeartbeatTimeout (s : State) : Out :=
  if !s.live || !s.fw.restarting then .next s else .next (s.report 0x0603 11 0 0 0)

/-- HEARTBEAT_TICK (R258, R259): every 2^20 MCLK while the firmware runs. -/
def execHeartbeatTick (s : State) : Out :=
  if !s.up || s.halted || s.boot.step ≤ 8 || (s.fw.restarting && s.flt.fatal) then .next s
  else .next (s.noting (fun s => { s with
    host := { s.host with heartbeat := s.host.heartbeat + 1 }, fw := { s.fw with masterAlive := true } }))

/-- MASTER_ALIVE_TIMEOUT (R259): no heartbeat for 2^17 ACLK. -/
def execMasterAliveTimeout (s : State) : Out :=
  if !s.up || !s.fw.masterAlive then .next s
  else .next (s.noting (fun s => { s with fw := { s.fw with masterAlive := false } }))

/-! ### FAULT_REPORT -/

/-- Can a unit of this kind and index report (R299, R483)? -/
def unitKnown (kind index : Nat) : Bool :=
  match kind with
  | 10 | 12 => index < 4
  | 11 => index = 0
  | 13 => index ≤ 0x13
  | 0xFF => true
  | _ => index < kindCount kind

/-- The effect of an error beside its record: counts and the error log of corrected errors (R231, R232), poison (R225,
R227), a way or a channel lost (R231, R238), the command that the engine was running (R224). -/
def State.faultEffect (s : State) (f : FaultIn) : State :=
  let a := f.addr.toNat
  match f.code with
  | 0x0101 => if f.kind = 8 then s.dramCorrected f.index a f.info.toNat else s
  | 0x0201 | 0x0301 =>
    let sr := f.code = 0x0301
    let a := if sr then srBase + a else a
    if f.kind = 2 then s.sliceCorrected (f.index / 16) (f.index % 16) a f.info.toNat sr
    else if f.kind = 3 then let (w, s) := s.draw; s.sliceCorrected f.index (w % 16) a f.info.toNat sr
    else s
  | 0x0102 | 0x0202 => { s with mem := s.mem.setPoison (a / 32 * 32) 32 }
  | 0x0303 => { s with mem := s.mem.setPoison (srBase + a / 32 * 32) 32 }
  | 0x0204 => if f.kind = 2 then s.wayOff (f.index / 16) (f.index % 16) else s
  | 0x0406 => { s with host := { s.host with linkUp := false } }
  | 0x1001 =>
    if f.kind ≠ 0 then s
    else
      let mine := (s.eng f.index).disps.filter (fun d => match s.cmd? d.queue d.cmd with
        | some c => c.waybill = f.waybill && c.seq = f.seq
        | none => false)
      mine.foldl (fun s d => s.trap f.index d.queue d.cmd ePoison 0) s
  | _ => s

/-- The watch unit of a kind and index. -/
def watchOf (kind index : Nat) : Option Nat :=
  match kind with
  | 0 => some index | 1 => some (40 + index) | 6 => some (36 + index) | 7 => some (32 + index) | _ => none

/-- FAULT_REPORT (R480 to R488): a unit's checker reports a fault; the collector records it, and its effect follows. A
fault that has steps of its own (a port or channel lost, a divergence, a hang) takes them. -/
def execFaultReport (f : FaultIn) (s : State) : Out :=
  if !s.up || !faultCodes.contains f.code || f.code = 0x1007 || !unitKnown f.kind f.index then .next s
  else match f.code with
    | 0x0503 => .next (if f.kind = 4 then s.portDown f.index else s.recordFault f).applyFences
    | 0x0105 => .next (if f.kind = 8 && f.index < s.mem.nch then s.loseChannel f.index true else s.recordFault f)
    | 0x0602 => .next (if s.fw.restarting then s.recordFault f else s.diverge)
    | 0x1003 => match watchOf f.kind f.index with
      | some u => .next (s.hang u)
      | none => .next (s.recordFault f).applyFences
    | _ => .next ((s.faultEffect f).recordFault f).applyFences

end Sys2Proof.Machine
end

