-- ==== Sys2Proof/Machine/Registers.lean ====
section
/-! DEFINITION. What the registers hold: the blocks of R300 with the offsets their rules give (R141, R165, R239, R258, R336,
R373, R439, R440, R456, R477, R502, R539, R553, R568), the event counters (R543), and the capability and topology table
(R302). -/

namespace Sys2Proof.Machine

/-- A word from its fields, each as lowest bit and value. -/
def word (fields : List (Nat × Nat)) : Nat := fields.foldl (fun a f => a + f.2 * 2 ^ f.1) 0

/-! ### HRW (R258) and MBX (R260) -/

/-- HRW_ID to HRW_SCRATCH3: the registers of 64 bits. -/
def State.hrw64 (s : State) (off : Nat) : Option Nat :=
  match off with
  | 0x00 => some (0x3290 + Config.stepping.toNat * 2 ^ 16)
  | 0x08 => some Config.dieId.toNat
  | 0x10 => some 0x0001_0000_0000_0000
  | 0x20 => some (s.stamp domF)
  | 0x28 => some (s.stamp domA)
  | 0x40 | 0x48 | 0x50 | 0x58 => some (mgetD s.host.scratch ((off - 0x40) / 8) 0).toNat
  | _ => none

/-- The registers of 32 bits, and the reserved words. -/
def State.hrw32 (s : State) (off : Nat) : Option Nat :=
  match off with
  | 0x18 => some s.hrwState
  | 0x1C => some s.host.heartbeat.toNat
  | 0x30 => some s.host.writeLost.toNat
  | 0x34 => some s.host.lastLost.toNat
  | 0x38 => some s.host.apertureMiss.toNat
  | 0x3C => some s.host.doorbellDrop.toNat
  | _ => if 0x60 ≤ off && off < 0x100 && off % 4 = 0 then some 0 else none

/-- The words of a mailbox pair; MBX_CTRL reads 0. -/
def State.mbx32 (s : State) (n off : Nat) : Option Nat :=
  let p := s.mbx n
  if off % 4 ≠ 0 || 0x400 ≤ off then none
  else if off < 0x40 then some (getLe p.req off 4)
  else if off < 0x80 then some (getLe p.rsp (off - 0x40) 4)
  else if off = 0x84 then some (word [(2, b2n p.rspReady), (1, b2n p.reqPending), (0, b2n p.busy)])
  else some 0

/-! ### QF (R336) and SCH (R373) -/

/-- PHASE of the queue that an engine's outrider serves. -/
def State.qfPhase (s : State) (e : Nat) (v : Queue) : Nat :=
  if v.stopped then 6
  else if v.stalled.isSome then 4
  else if (s.eng e).atGang.isSome || (s.eng e).arrive.isSome then 5
  else match v.cmds.find? (fun c => c.st = .accepted || (c.opcode = 0x03 && !c.over)) with
    | some c =>
      if c.opcode = 0x03 then 2
      else if c.serial && (v.cmds.head?.map (fun d => d.index)) ≠ some c.index then 3
      else 1
    | none => if v.cmds.isEmpty && v.head = v.tail then 0 else 1

/-- QF_STATE of an engine. -/
def State.qfState (s : State) (e : Nat) : Nat :=
  if (s.residentOn e).isNone then 2 ^ 28
  else match s.queueOn e with
    | none => 0
    | some (q, v) => word [(16, q), (0, s.qfPhase e v)]

/-- The same of a copy or compression engine, by its unit of `State.jobs`: the queue it serves, or served last. -/
def State.qfJobState (s : State) (u : Nat) : Nat :=
  let q := match mget s.jobs u with
    | some j => some j.queue
    | none => mget s.turns u
  match q.bind (fun q => (s.queue? q).map (fun v => (q, v))) with
  | none => 2 ^ 28
  | some (q, v) => word [(16, q), (0, s.qfPhase 0xFF v)]

/-- Unit of a QF instance: 0-31 engines, 32-35 X0-X3, 36-37 Z0-Z1. -/
def qfUnit (inst : Nat) : Nat := if inst < 0x20 then inst else if inst < 0x30 then inst else 36 + inst - 0x30

def State.qf32 (s : State) (inst off : Nat) : Option Nat :=
  let u := qfUnit inst
  match off with
  | 0x00 => some (if u < 32 then s.qfState u else s.qfJobState (u - 32))
  | 0x04 => some (mgetD s.dups u 0).toNat
  | 0x08 => some ((s.watch u).timer % 2 ^ 32)
  | _ => if off < 0x100 && off % 4 = 0 then some 0 else none

def State.sch32 (s : State) (p off : Nat) : Option Nat :=
  let r := s.schRegs p
  match off with
  | 0x00 => some (match s.part? p with
    | none => 0x200
    | some x => word [(31, 1), (16, x.quads.toNat), (15, b2n x.switching.isSome), (14, b2n x.forcing.isSome),
        (11, x.slots.length), (9, b2n x.resident.isNone), (0, x.resident.getD 0)])
  | 0x04 => some r.switches.toNat
  | 0x10 => some r.forced.toNat
  | 0x14 => some r.overruns.toNat
  | _ => if 0x18 ≤ off && off < 0x100 && off % 4 = 0 then some 0 else none

def State.sch64 (s : State) (p off : Nat) : Option Nat :=
  if off = 0x08 then some (domF * 2 ^ 56 + (match s.part? p with | some x => x.vmin % 2 ^ 56 | none => 0)) else none

/-! ### TIL (R141), SYN (R440), L2C (R165), DRC (R239) -/

/-- TIL_GRANULE_MAP: what running passes hold from G0 upward, and layers from G15 downward. -/
def Eng.granuleMap (v : Eng) : Nat :=
  let gfx := v.gfxHolds.foldl (fun a p => max a p.2) 0
  let tns := v.disps.foldl (fun a d => max a d.granules) 0
  word [(23, b2n v.waitTns.isSome), (22, b2n v.waitGfx.isSome), (16, v.tb),
    (0, maskOf ((List.range 16).filter (fun g => g < gfx || 16 - tns ≤ g)))]

def State.syn32 (s : State) (i off : Nat) : Option Nat :=
  match off with
  | 0x00 => some (b2n (s.sync i).level)
  | 0x04 => some (s.sync i).edges.toNat
  | _ => if 0x10 ≤ off && off < 0x100 && off % 4 = 0 then some 0 else none

/-- L2C_SLICE_STATE. -/
def State.sliceState (s : State) (i : Nat) : Nat :=
  let v := s.mem.slice i
  word [(36, s.mem.remap i), (35, b2n v.fenced), (34, b2n v.converting), (33, b2n (v.lost ≠ 0)),
    (16, maskOf ((List.range 16).filter s.mem.srWay)), (0, v.off.toNat)]

/-- DRC_CHANNEL_STATE: a FAILED channel is lost and excluded (R238). -/
def State.channelState (s : State) (c : Nat) : Nat :=
  let v := s.mem.chan c
  word [(40, v.rate), (39, b2n (v.failed && v.excluded)), (38, b2n v.excluded), (37, b2n v.migrating),
    (36, b2n v.training), (35, b2n v.safe), (0, v.corrected.toNat)]

/-- DRC_SCRUB_LAP. -/
def State.scrubLap (s : State) (k : Nat) : Nat := (0x10 + k) * 2 ^ 56 + mgetD s.mem.laps k 0 % 2 ^ 56

/-! ### CVL (R477), DSP (R439), CMP (R456) -/

def State.cvl32 (s : State) (p off : Nat) : Option Nat :=
  let v := s.caravan.port p
  match off with
  | 0x00 => some (word [(29, v.link), (27, v.width), (26, b2n v.rate64), (25, b2n v.fenced), (24, b2n v.peer.isSome),
      (21, v.peer.getD 0)])
  | 0x04 => some v.replays.toNat
  | 0x08 => some v.fecCorrected.toNat
  | 0x0C => some v.discards.toNat
  | _ => if off < 0x100 && off % 4 = 0 then some 0 else none

def State.dsp32 (s : State) (p off : Nat) : Option Nat :=
  let v := s.pipe p
  match off with
  | 0x00 => some (word [(29, v.link), (26, v.lanes), (22, v.rate), (15, b2n v.enabled), (14, b2n v.fenced),
      (13, b2n v.dscOn), (12, b2n v.flatValid), (11, b2n v.flatOff), (10, b2n v.locked), (9, b2n v.fsyncLost),
      (8, b2n v.fsyncRange), (7, b2n (s.layersOf p).apply), (0, v.layerOff.toNat)])
  | 0x04 => some v.frames.toNat
  | 0x08 => some v.underruns.toNat
  | 0x0C => some (word [(16, wrapInt 16 v.d), (0, v.vtotal)])
  | 0x18 => some v.crcRef.toNat
  | _ => if 0x1C ≤ off && off < 0x100 && off % 4 = 0 then some 0 else none

def State.cmp32 (s : State) (z off : Nat) : Option Nat :=
  match off with
  | 0x00 => some (match mget s.jobs (4 + z) with
    | none => word [(3, b2n (s.fenced 6 z))]
    | some j => word [(4, j.queue), (3, b2n (s.fenced 6 z)), (2, b2n j.fault.isSome), (1, b2n j.decompressing), (0, 1)])
  | 0x04 => some (mgetD s.cmpJobs z 0).toNat
  | _ => if off < 0x100 && off % 4 = 0 then some 0 else none

/-! ### FLT (R502), PWR (R539, R568), DBG (R553) -/

def State.flt32 (s : State) (off : Nat) : Option Nat :=
  match off with
  | 0x00 => some (word [(31, b2n s.flt.fatal), (30, b2n s.pins.errN), (29, b2n s.flt.pulse), (28, b2n s.flt.swLevel),
      (27, b2n (!s.fw.masterAlive)), (26, b2n (!s.pins.pwrFailN)), (0, min s.flt.fences.length 255)])
  | 0x04 => some s.flt.next.toNat
  | 0x08 => some s.logbook.next.toNat
  | 0x0C => some s.logbook.dropped.toNat
  | 0x10 => some (s.setting 0x32)
  | _ => if off < 0x100 && off % 4 = 0 then some 0 else none

/-- Average of samples in 1/16 W, rounded down. -/
def average (l : List Nat) : Nat := min (l.sum / l.length) 65535

def State.pwr32 (s : State) (off : Nat) : Option Nat :=
  let p := s.power
  match off with
  | 0x00 => some (word [(8, p.wakeSrc), (7, b2n (0 < p.idle)), (6, b2n p.capPmic), (5, b2n p.capThermal),
      (4, b2n p.capPeak), (3, b2n p.capSustained), (0, p.point)])
  | 0x04 => some p.stepsDown.toNat
  | 0x08 => some (word [(16, average p.samples), (0, average (p.samples.take 1000))])
  | 0x0C => some (s.setting 0x50)
  | 0x10 => some p.halts.toNat
  | 0x14 => some p.haltCancels.toNat
  | 0x100 => some (word [(24, s.thermal.sensor), (16, s.thermal.zone), (0, wrapInt 16 s.thermal.tmax)])
  | _ =>
    if off % 4 ≠ 0 then none
    else if 0x200 ≤ off && off ≤ 0x2BC then some (wrapInt 16 (mgetD s.thermal.temps ((off - 0x200) / 4) 0))
    else if (0x20 ≤ off && off < 0x200) || (0x2C0 ≤ off && off < 0x1000) then some 0
    else none

def State.dbg32 (s : State) (off : Nat) : Option Nat :=
  let v := s.sring (off / 16)
  if off % 4 ≠ 0 || 0x4000 ≤ off then none
  else if 0x100 ≤ off then some 0
  else match off % 16 with
    | 0 => some (word [(8, if v.enabled then v.domain else 0), (2, b2n v.faulted), (1, b2n (32 < v.latched.length)),
        (0, b2n v.enabled)])
    | 4 => some v.widx.toNat
    | 8 => some v.dropped.toNat
    | _ => some 0

/-! ### Registers by key (R300) -/

/-- A register of 64 bits. -/
def State.reg64 (s : State) (block inst off : Nat) : Option Nat :=
  match block with
  | 0x00 => s.hrw64 off
  | 0x05 => s.sch64 inst off
  | 0x09 => if off = 0x08 then some (domA * 2 ^ 56 + (s.sync inst).period % 2 ^ 56) else none
  | 0x0A => if off = 0 then some (s.sliceState inst) else none
  | 0x0D => if off ≠ 0 then none else some (if inst < 24 then s.channelState inst else s.scrubLap (inst - 0x40))
  | 0x0F => if off = 0x10 then some ((0x20 + inst) * 2 ^ 56 + (s.pipe inst).stamp % 2 ^ 56) else none
  | 0x12 => if off = 0x18 then some (domA * 2 ^ 56 + s.power.lastWake % 2 ^ 56) else none
  | _ => none

/-- A register of 32 bits. -/
def State.reg32 (s : State) (block inst off : Nat) : Option Nat :=
  match block with
  | 0x00 => s.hrw32 off
  | 0x01 => s.mbx32 inst off
  | 0x03 => s.qf32 inst off
  | 0x05 => s.sch32 inst off
  | 0x08 => if off = 0 then some (s.eng inst).granuleMap else none
  | 0x09 => s.syn32 inst off
  | 0x0E => s.cvl32 inst off
  | 0x0F => s.dsp32 inst off
  | 0x10 => s.cmp32 inst off
  | 0x11 => s.flt32 off
  | 0x12 => s.pwr32 off
  | 0x13 => s.dbg32 off
  | _ => none

/-- A read of a 64-bit register loads its shadow (R263). Shadows stand by key, those of BAR0 alone by 2^32 + offset. -/
def State.shadowed (s : State) (key v : Nat) : State :=
  { s with host := { s.host with shadows := mset s.host.shadows key (BitVec.ofNat 32 (v / 2 ^ 32)) } }

/-- Read a register by its key: none where the key names no register (R300, R543). The contents of the diagnostic window
are not given (R301). -/
def State.readKey (s : State) (key : Nat) : Option (Nat × State) :=
  let block := key / 2 ^ 24
  let inst := key / 2 ^ 16 % 256
  let off := key % 2 ^ 16
  if !blockHas block inst then none
  else if 0x8000 ≤ off then let (f, s) := s.draw; some (f % 2 ^ 64, s)
  else if 0x4000 ≤ off then
    (if off % 8 = 0 && hasCounter block inst ((off - 0x4000) / 8) then
      let (v, s) := s.counterValue block inst ((off - 0x4000) / 8)
      some (v, s.shadowed key v)
    else none)
  else match s.reg64 block inst off with
    | some v => some (v, s.shadowed key v)
    | none => (s.reg32 block inst off).map (fun v => (v, s))

/-! ### The capability and topology table (R302) -/

/-- Units of a kind that are in service. -/
def State.inService (s : State) (kind : Nat) : Nat :=
  ((List.range (kindCount kind)).filter (fun i => !s.fenced kind i)).length

/-- Engines that work now: a microcode update counts the one it has its turn on as out of service (R537). -/
def State.engineOn (s : State) (e : Nat) : Bool := !s.fenced 0 e && s.ucodeTurn ≠ some e

def State.fencedMask (s : State) (kind : Nat) : Nat := maskOf ((List.range (kindCount kind)).filter (s.fenced kind))

/-- The clocks with their identifiers (R504): identifier, clock code, instance. -/
def clockList : List (Nat × Nat × Nat) :=
  [(domA, 5, 0), (domM, 2, 0), (domF, 1, 0), (domC, 0, 0)]
  ++ (List.range 4).map (fun i => (0x10 + i, 3, i)) ++ (List.range 4).map (fun i => (0x20 + i, 4, i))
  ++ (List.range 4).map (fun i => (0x30 + i, 6, i)) ++ (List.range 4).map (fun i => (0x40 + i, 7, i))

def State.capHeader (s : State) : List (Nat × Nat × Nat) :=
  [(0x00, 4, 0x5041435A), (0x04, 2, 1), (0x08, 4, 0x500), (0x0C, 4, s.host.capGeneration.toNat),
   (0x10, 8, Config.dieId.toNat), (0x18, 2, Config.vendorId.toNat), (0x1A, 2, 0x3290), (0x1C, 1, Config.stepping.toNat),
   (0x1D, 1, b2n Config.grade), (0x1E, 1, s.caravan.die), (0x1F, 1, s.caravan.size),
   (0x40, 1, 1), (0x41, 1, 3), (0x42, 1, s.mram.activeSlot), (0x44, 4, s.mram.activeFw.version.toNat),
   (0x48, 4, if s.mram.otherFw.valid then s.mram.otherFw.version.toNat else 0), (0x4C, 4, s.activeUcode.toNat),
   (0x50, 1, s.host.ucieRev), (0x51, 1, s.host.modules), (0x52, 1, s.host.lanes), (0x53, 1, s.host.rate)]

def State.capCounts (s : State) : List (Nat × Nat × Nat) :=
  let m := s.mem
  let cache := ((List.range 16).filter (fun i => !(m.slice i).fenced)).foldl (fun a i => a + m.cacheWays i * 262144) 0
  [(0x80, 1, ((List.range 32).filter s.engineOn).length),
   (0x81, 1, ((List.range 8).filter (fun q => (quadOf (4 * q)).all s.engineOn)).length), (0x82, 1, s.inService 1),
   (0x83, 1, s.inService 3), (0x84, 1, m.srWays), (0x85, 1, s.inService 7), (0x86, 1, s.inService 6),
   (0x87, 1, s.inService 5), (0x88, 1, s.inService 4), (0x89, 1, 8), (0x8A, 1, m.mode),
   (0x8B, 1, ((List.range m.nch).filter (fun c => !(m.chan c).excluded)).length),
   (0x8C, 2, rateMts ((List.range m.nch).foldl (fun a c => max a (m.chan c).rate) 0)), (0x90, 8, m.capacity),
   (0x98, 8, cache), (0xA0, 4, 4096), (0xA4, 4, 512), (0xA8, 4, 256), (0xAC, 4, 131072), (0xB0, 4, 262144),
   (0xB4, 4, 1048576), (0xB8, 4, 65536), (0xBC, 1, 48), (0xBD, 1, 0x0F), (0xBE, 2, 2048), (0xC0, 4, 4096), (0xC4, 4, 256),
   (0xC8, 4, 256), (0xCC, 4, 64), (0xD0, 4, s.khzNow domC), (0xD4, 4, s.mmu.ptBytes / 2 ^ 20), (0xD8, 8, srBase),
   (0x180, 4, 0x003F0FFF), (0x184, 1, 0x03), (0x185, 1, 0x07), (0x186, 1, 0x1F), (0x187, 1, 0x03)]

def State.capClocks (s : State) : List (Nat × Nat × Nat) :=
  (List.range 32).flatMap (fun i => match clockList[i]? with
    | some (d, c, n) => [(0x1C0 + 8 * i, 1, d), (0x1C1 + 8 * i, 1, c), (0x1C2 + 8 * i, 1, n), (0x1C4 + 8 * i, 4, s.khzNow d)]
    | none => [(0x1C1 + 8 * i, 1, 0xFF)])

def State.capFenced (s : State) : List (Nat × Nat × Nat) :=
  let perm := maskOf ((List.range 32).filter (fun e => match s.fence? 0 e with | some f => f.permanent | none => false))
  [(0x2C0, 4, s.fencedMask 0), (0x2C4, 4, perm), (0x2C8, 1, s.fencedMask 1), (0x2C9, 1, s.fencedMask 7),
   (0x2CA, 1, s.fencedMask 6), (0x2CB, 1, s.fencedMask 5), (0x2CC, 1, s.fencedMask 4), (0x2D0, 2, s.fencedMask 3),
   (0x2D4, 4, maskOf ((List.range 24).filter (fun c => (s.mem.chan c).failed))), (0x2D8, 2, s.fencedMask 9)]
  ++ (List.range 16).map (fun i => (0x2E0 + 2 * i, 2, (s.mem.slice i).off.toNat))

/-- GT/s of a port of this die, 0 when it is down. -/
def Port.gts (p : Port) : Nat := if p.link < 2 then 0 else if p.rate64 then 64 else 32

def State.capTopology (s : State) : List (Nat × Nat × Nat) :=
  (List.range 8).flatMap (fun d =>
    let o := 0x300 + 64 * d
    if d = s.caravan.die then
      [(o, 1, 1), (o + 1, 1, 0), (o + 8, 8, Config.dieId.toNat), (o + 0x18, 8, s.mem.capacity)]
      ++ (List.range 4).flatMap (fun p =>
        let v := s.caravan.port p
        [(o + 0x10 + p, 1, v.peer.getD 0xFF), (o + 0x14 + p, 1, v.gts)])
    else
      let t := (mget s.caravan.topo d).getD { st := 0, hops := 0, dieId := 0, peers := [], rates := [], capacity := 0 }
      [(o, 1, t.st), (o + 1, 1, t.hops), (o + 8, 8, t.dieId.toNat), (o + 0x18, 8, t.capacity)]
      ++ (List.range 4).flatMap (fun p =>
        [(o + 0x10 + p, 1, (t.peers[p]?).getD 0xFF), (o + 0x14 + p, 1, (t.rates[p]?).getD 0)]))

/-- The 1,280 bytes in use; the rest of the 64 KiB reads 0. -/
def State.capTable (s : State) : List Byte :=
  (s.capHeader ++ s.capCounts ++ s.capClocks ++ s.capFenced ++ s.capTopology).foldl
    (fun b f => putLe b f.1 f.2.1 f.2.2) (zeros 0x500)

end Sys2Proof.Machine
end

