-- ==== Sys2Proof/Machine/Window.lean ====
section
/-! DEFINITION. The host register window: reads (R256, R257, R262, R263), writes (R264, R266, R269), mailbox registers
(R260, R261), cookie rings (R267, R268, R272, R273, R276, R279), MSI-X masks (R271), REG_READ and REG_WRITE (R300), and the
aperture (R250, R251). -/

namespace Sys2Proof.Machine

/-! ### Reads of BAR0 -/

/-- Progress counter of a unit with its domain (R262, R331): engines count CCLK, the others FCLK. -/
def State.progressReg (s : State) (i : Nat) : Nat :=
  let u := if i < 38 then i else 40 + i - 38
  (if i < 32 then domC else domF) * 2 ^ 56 + mgetD s.flt.progress u 0 % 2 ^ 56

/-- A register of 64 bits at a BAR0 offset: the key of its shadow, and its value. -/
def State.bar64 (s : State) (off : Nat) : Option (Nat × Nat) :=
  if 0x010000 ≤ off && off < 0x010100 then (s.hrw64 (off - 0x010000)).map (fun v => (off - 0x010000, v))
  else if 0x030000 ≤ off && off < 0x030400 && off % 64 = 0 then
    some (2 ^ 32 + off, (s.ring ((off - 0x030000) / 64)).base.toNat)
  else if 0x050000 ≤ off && off < 0x050170 && off % 8 = 0 then some (2 ^ 32 + off, s.progressReg ((off - 0x050000) / 8))
  else none

/-- The CRC of a cookie ring's configuration (R267). -/
def CookieRing.crc (c : CookieRing) : Nat :=
  crc32c (leBytes 8 (c.base.toNat / 4096 * 4096) ++ leBytes 4 (c.size.toNat * 2))

/-- HRW_CKR_STATUS. -/
def CookieRing.status (c : CookieRing) : Nat :=
  word [(5, b2n c.fenced), (4, b2n c.full), (3, b2n (c.crcMismatch && c.crc ≠ c.crcRef.toNat)),
    (2, b2n (8 < c.size.toNat)), (1, b2n c.ignoredWrite), (0, b2n c.enabled)]

/-- A word of a cookie ring's registers but HRW_CKR_BASE. -/
def CookieRing.word32 (c : CookieRing) (off : Nat) : Nat :=
  match off with
  | 0x08 => word [(1, c.size.toNat), (0, b2n c.enabled)]
  | 0x0C => c.crcRef.toNat
  | 0x10 => c.head.toNat
  | 0x14 => c.tail.toNat
  | 0x18 => c.status
  | 0x1C => c.dropped.toNat
  | _ => 0

/-- A word of the MSI-X table, as PCIe defines it. -/
def MsixEnt.word32 (e : MsixEnt) (off : Nat) : Nat :=
  match off with
  | 0 => e.addr.toNat % 2 ^ 32
  | 4 => e.addr.toNat / 2 ^ 32
  | 8 => e.data.toNat
  | _ => b2n e.masked

/-- A word that belongs to no register of 64 bits. -/
def State.bar32 (s : State) (off : Nat) : Nat :=
  if off < 0x010000 then (if off < 0x500 then getLe s.capTable off 4 else 0)
  else if off < 0x010100 then (s.hrw32 (off - 0x010000)).getD 0
  else if 0x020000 ≤ off && off < 0x022000 then (s.mbx32 ((off - 0x020000) / 0x400) (off % 0x400)).getD 0
  else if 0x030000 ≤ off && off < 0x030400 then (s.ring ((off - 0x030000) / 64)).word32 (off % 64)
  else if 0x040000 ≤ off && off < 0x048000 then (s.msix ((off - 0x040000) / 16)).word32 (off % 16)
  else if 0x048000 ≤ off && off < 0x048100 then
    let v := (off - 0x048000) * 8
    maskOf ((List.range 32).filter (fun i => s.host.pendingBits.contains (v + i)))
  else if 0x060000 ≤ off && off < 0x064000 then
    (match s.queue? ((off - 0x060000) / 4) with | some v => v.head.toNat | none => 0)
  else 0

/-- A 32-bit read (R263). -/
def State.readWord (s : State) (off : Nat) : Nat × State :=
  match s.bar64 (off / 8 * 8) with
  | some (k, v) =>
    if off % 8 = 0 then (v % 2 ^ 32, s.shadowed k v) else ((mgetD s.host.shadows k 0).toNat, s)
  | none => (s.bar32 off, s)

/-- A 64-bit read. -/
def State.readPair (s : State) (off : Nat) : Nat × State :=
  match s.bar64 off with
  | some (k, v) => (v, s.shadowed k v)
  | none =>
    let (a, s) := s.readWord off
    let (b, s) := s.readWord (off + 4)
    (a + b * 2 ^ 32, s)

/-- Does BAR0 take an access of whole words up to 64 bytes here (R257)? -/
def burstOk (off n : Nat) : Bool :=
  off % 4 = 0 && n % 4 = 0 && 4 ≤ n && n ≤ 64 && off / 64 = (off + n - 1) / 64
  && (off < 0x010000 || (0x020000 ≤ off && off < 0x022000 && off % 0x400 < 0x80))

/-- A read of BAR0 and its completion (R257). -/
def State.bar0Read (s : State) (off n : Nat) : State :=
  if 2 ^ 24 < off + n then s
  else if n = 4 && off % 4 = 0 then
    let (v, s) := s.readWord off
    s.send (.completion 0 (leBytes 4 v) false)
  else if n = 8 && off % 8 = 0 then
    let (v, s) := s.readPair off
    s.send (.completion 0 (leBytes 8 v) false)
  else if burstOk off n then
    let r := (List.range (n / 4)).foldl (fun (r : List Byte × State) i =>
      let (v, s) := r.2.readWord (off + 4 * i)
      (r.1 ++ leBytes 4 v, s)) ([], s)
    r.2.send (.completion 0 r.1 false)
  else s.send (.completion 1 [] false)

/-! ### Cookie rings -/

/-- ENABLE rises (R268, R272, R273, R279). -/
def CookieRing.enable (c : CookieRing) : CookieRing :=
  if c.fenced || 8 < c.size.toNat then c
  else if c.crc ≠ c.crcRef.toNat then { c with crcMismatch := true }
  else { c with enabled := true, head := 0, tail := 0, crcMismatch := false, ignoredWrite := false }

/-- CRC_MISMATCH clears once the configuration and the reference agree (R268). -/
def CookieRing.agree (c : CookieRing) : CookieRing := { c with crcMismatch := c.crcMismatch && c.crc ≠ c.crcRef.toNat }

/-- A write to HRW_CKR_CTRL. -/
def CookieRing.writeCtrl (c : CookieRing) (v : Nat) : CookieRing :=
  let size := BitVec.ofNat 4 (bits v 4 1)
  if c.enabled then
    (if bit v 0 then { c with ignoredWrite := c.ignoredWrite || size ≠ c.size }
    else { c with enabled := false, ignoredWrite := false })
  else
    let c := { c with size := size }.agree
    if bit v 0 then c.enable else c

/-- A word written to a cookie ring's registers but HRW_CKR_BASE; reserved and read-only words ignore it. -/
def State.writeRing (s : State) (r off v : Nat) : State :=
  let c := s.ring r
  match off with
  | 0x08 => s.setRing r (c.writeCtrl v)
  | 0x0C =>
    let w := BitVec.ofNat 32 v
    if c.enabled then s.setRing r { c with ignoredWrite := c.ignoredWrite || w ≠ c.crcRef }
    else s.setRing r ({ c with crcRef := w }).agree
  | 0x10 =>
    let w := BitVec.ofNat 32 v
    if (c.tail - c.head).toNat < (w - c.head).toNat then s.lostWrite false (0x030010 + 64 * r) (leBytes 4 v)
    else s.setRing r { c with head := w }
  | _ => s

/-! ### Writes of BAR0 -/

/-- A register of 64 bits takes its new value (R258, R266, R272). -/
def State.write64 (s : State) (off v : Nat) : State :=
  if 0x010040 ≤ off && off < 0x010060 then
    { s with host := { s.host with scratch := mset s.host.scratch ((off - 0x010040) / 8) (BitVec.ofNat 64 v) } }
  else if 0x030000 ≤ off && off < 0x030400 then
    let r := (off - 0x030000) / 64
    let c := s.ring r
    let b := BitVec.ofNat 64 (v / 4096 * 4096)
    if c.enabled then s.setRing r { c with ignoredWrite := c.ignoredWrite || b ≠ c.base }
    else s.setRing r ({ c with base := b }).agree
  else s

/-- Is the register of 64 bits at an offset writable? -/
def writable64 (off : Nat) : Bool :=
  (0x010040 ≤ off && off < 0x010060 && off % 8 = 0) || (0x030000 ≤ off && off < 0x030400 && off % 64 = 0)

/-- Send what a vector has pending once nothing masks it (R271). -/
def State.flushMsix (s : State) (v : Nat) : State :=
  let e := s.msix v
  if e.masked || s.host.functionMask || !s.host.pendingBits.contains v then s
  else { s with host := { s.host with pendingBits := setDel s.host.pendingBits v } }.send (.msix v e.addr e.data)

/-- A word written to the MSI-X table. -/
def State.writeMsix (s : State) (v off w : Nat) : State :=
  let e := s.msix v
  let e : MsixEnt := match off with
    | 0 => { e with addr := BitVec.ofNat 64 (e.addr.toNat / 2 ^ 32 * 2 ^ 32 + w) }
    | 4 => { e with addr := BitVec.ofNat 64 (w * 2 ^ 32 + e.addr.toNat % 2 ^ 32) }
    | 8 => { e with data := BitVec.ofNat 32 w }
    | _ => { e with masked := bit w 0 }
  { s with host := { s.host with msix := mset s.host.msix v e } }.flushMsix v

/-- A word written (R264, R265): read-only and unassigned words ignore it. -/
def State.writeWord (s : State) (off v : Nat) : State :=
  let low := off / 8 * 8
  if writable64 low then
    (if off % 8 = 0 then { s with host := { s.host with staged := mset s.host.staged low (BitVec.ofNat 32 v) } }
    else
      let lo := match mget s.host.staged low with
        | some w => w.toNat
        | none => (match s.bar64 low with | some (_, x) => x % 2 ^ 32 | none => 0)
      { s with host := { s.host with staged := merase s.host.staged low } }.write64 low (lo + v * 2 ^ 32))
  else if 0x030000 ≤ off && off < 0x030400 then s.writeRing ((off - 0x030000) / 64) (off % 64) v
  else if 0x040000 ≤ off && off < 0x048000 then s.writeMsix ((off - 0x040000) / 16) (off % 16) v
  else s

/-- A write to MBX_CTRL (R260, R261). -/
def State.ctrlWrite (s : State) (n w : Nat) : State :=
  let s := if bit w 1 then s.ackMbx n else s
  if bit w 0 then s.postMbx n else s

/-- A write to the registers of a mailbox pair: the request buffer belongs to the caravan master while a request waits. -/
def State.mbxWrite (s : State) (n o : Nat) (l : List Byte) : State :=
  if o < 0x40 then
    let p := s.mbx n
    if p.reqPending then s.lostWrite false (0x020000 + 0x400 * n + o) l
    else s.setMbx n { p with req := putBytes p.req o l }
  else if o = 0x80 then s.ctrlWrite n (getLe l 0 4)
  else s

/-- A write to BAR0 (R257). Of two words written at once the higher takes effect first. -/
def State.bar0Write (s : State) (off : Nat) (l : List Byte) : State :=
  let n := l.length
  let plain := (n = 4 || n = 8) && off % n = 0
  if l.isEmpty || 2 ^ 24 < off + n then s
  else if !plain && !burstOk off n then s.lostWrite false off l
  else if 0x020000 ≤ off && off < 0x022000 then s.mbxWrite ((off - 0x020000) / 0x400) (off % 0x400) l
  else if !plain then s
  else if n = 4 then s.writeWord off (leNat l)
  else if writable64 off then s.write64 off (leNat l)
  else (s.writeWord (off + 4) (getLe l 4 4)).writeWord off (getLe l 0 4)

/-- Does a drain toward Halt let a write to BAR0 pass (R512)? -/
def drainPasses (off : Nat) (l : List Byte) : Bool :=
  (0x020000 ≤ off && off < 0x022000 && off % 0x400 = 0x80 && bit (getLe l 0 1) 1 && !bit (getLe l 0 1) 0)
  || (0x030000 ≤ off && off < 0x030400 && off % 64 = 0x10)

/-- A write to BAR0 as the host sends it: held in Halt (R253). -/
def State.hostBar0 (s : State) (off : Nat) (l : List Byte) : Out :=
  if !s.windowOpen then .next s
  else if s.halted then .next (s.hold (.bar0 off l))
  else .next ((s.hostTouch (drainPasses off l)).bar0Write off l)

/-- REGISTER_WRITE (R256, R257, R264, R266, R269). -/
def execRegisterWrite (offset : Nat) (data : List Byte) (s : State) : Out := s.hostBar0 offset data

/-- REGISTER_LOW_WORD_READ (R256, R257, R263): a read of BAR0. -/
def execRegisterLowWordRead (offset len : Nat) (s : State) : Out :=
  if !s.windowOpen then .next s
  else if s.halted then .next (s.hold (.read0 offset len))
  else .next ((s.hostTouch true).bar0Read offset len)

/-- MBX_POST (R261, R282). -/
def execMbxPost (pair : Fin 8) (s : State) : Out := s.hostBar0 (0x020080 + 0x400 * pair.val) (leBytes 4 1)

/-- MBX_ACK (R261, R282). -/
def execMbxAck (pair : Fin 8) (s : State) : Out := s.hostBar0 (0x020080 + 0x400 * pair.val) (leBytes 4 2)

/-- COOKIE_RING_ENABLE (R268, R272, R273, R279): HRW_CKR_CTRL with ENABLE set. -/
def execCookieRingEnable (ring : Fin 16) (value : Word) (s : State) : Out :=
  s.hostBar0 (0x030008 + 64 * ring.val) (leBytes 4 (setBit value.toNat 0 true))

/-- COOKIE_RING_DISABLE (R273): HRW_CKR_CTRL with ENABLE clear. -/
def execCookieRingDisable (ring : Fin 16) (value : Word) (s : State) : Out :=
  s.hostBar0 (0x030008 + 64 * ring.val) (leBytes 4 (setBit value.toNat 0 false))

/-- COOKIE_RING_HEAD_WRITE (R276). -/
def execCookieRingHeadWrite (ring : Fin 16) (value : Word) (s : State) : Out :=
  s.hostBar0 (0x030010 + 64 * ring.val) (leBytes 4 value.toNat)

/-- MSIX_UNMASK (R271): the mask of a vector, or that of the function, is written. -/
def execMsixUnmask (vector : Option (Fin 2048)) (masked : Bool) (s : State) : Out :=
  match vector with
  | some v => s.hostBar0 (0x04000C + 16 * v.val) (leBytes 4 (b2n masked))
  | none =>
    if !s.up || s.halted then .next s
    else
      let s := (s.hostTouch false)
      let s := { s with host := { s.host with functionMask := masked } }
      .next (s.host.pendingBits.foldl (fun s v => s.flushMsix v) s)

/-- CFG_CRC_CHECK (R268, R419): block 0-15 a cookie ring, 16-19 a display pipe. -/
def execCfgCrcCheck (block : Nat) (s : State) : Out :=
  if !s.live then .next s
  else if block < 16 then
    let c := s.ring block
    .next (if c.enabled && c.crc ≠ c.crcRef.toNat then (s.report 0x1002 9 block 0 0).applyFences else s)
  else if block < 20 then
    let v := s.pipe (block - 16)
    .next (if v.on && crc32c v.cfg ≠ v.crcRef.toNat then (s.report 0x1002 5 (block - 16) 0 0).applyFences else s)
  else .next s

/-! ### REG_READ and REG_WRITE (R300, R301) -/

/-- Does a key lie in the diagnostic window while it is not open for the session? -/
def State.diagShut (s : State) (r : Req) (key : Nat) : Bool :=
  0x8000 ≤ key % 2 ^ 16 && !(match s.session? r.session with | some x => x.diag | none => false)

/-- REG_READ. -/
def execRegRead (pair : Fin 8) (s : State) : Out :=
  s.mbxCmd pair 0x0010 (fun r s =>
    let n := r.n 0x20 1
    let keys := (List.range n).map (fun i => r.n (0x10 + 4 * i) 4)
    if n = 0 || 4 < n then (.err eBadParameter, s)
    else if keys.any (s.diagShut r) then (.err eRole, s)
    else
      let x := foldIdx keys (([] : List (Nat × Nat × Nat)), 0, s) (fun a i k => match a.2.2.readKey k with
        | some (v, s) => (a.1 ++ [(0x10 + 8 * i, 8, v)], a.2.1, s)
        | none => (a.1, setBit a.2.1 i true, a.2.2))
      (.ok (result (x.1 ++ [(0x30, 1, x.2.1)])) 0, x.2.2))

/-- Write a value to a register by key: none where it has no field that may be written; otherwise whether R266 refused
the write. -/
def State.writeKey (s : State) (key v : Nat) : Option (Bool × State) :=
  let block := key / 2 ^ 24
  let inst := key / 2 ^ 16 % 256
  let off := key % 2 ^ 16
  if block = 0 && 0x40 ≤ off && off < 0x60 then some (false, s.write64 (0x010000 + off) v)
  else if block = 1 && off < 0x40 then some (false, s.mbxWrite inst off (leBytes 4 v))
  else if block = 1 && off = 0x80 then some (false, s.ctrlWrite inst v)
  else if block = 0x0F && off = 0x18 then
    let w := BitVec.ofNat 32 v
    if (s.pipe inst).on then some (w ≠ (s.pipe inst).crcRef, s)
    else some (false, s.modPipe inst (fun x => { x with crcRef := w }))
  else if 0x8000 ≤ off then some (false, s)
  else none

/-- REG_WRITE. -/
def execRegWrite (pair : Fin 8) (s : State) : Out :=
  s.mbxCmd pair 0x0011 (fun r s =>
    let key := r.n 0x10 4
    let mask := r.n 0x20 8
    if s.diagShut r key then (.err eRole, s)
    else match s.readKey key with
      | none => (.err eNotFound, s)
      | some (old, s) =>
        let w := if mask = 0 then some (false, s)
          else s.writeKey key ((old &&& (2 ^ 64 - 1 - mask)) ||| (r.n 0x18 8 &&& mask))
        match w with
        | none => (.err eBadParameter, s)
        | some (ignored, s) => match s.readKey key with
          | none => (Ans.done, s)
          | some (v, s) => (.ok (result [(0x10, 8, v)]) (if ignored then 2 else 0), s))

/-! ### The aperture (R250, R251) -/

/-- Agent of the host window's translations, which has no TLB. -/
def agentHost : Nat := 255

/-- An access to BAR4 that is refused. -/
def State.apertureMiss (s : State) (off : Nat) : State :=
  let s := { s with host := { s.host with apertureMiss := satInc s.host.apertureMiss } }
  (s.log 0x07 off 0 0).report 0x0405 10 0 off 0

/-- Does an access lie in BAR4 (R244, R249)? -/
def State.inBar4 (s : State) (off n : Nat) : Bool := n ≠ 0 && off + n ≤ 2 ^ s.host.bar4Log

/-- A read of BAR4 and its completion. -/
def State.bar4Read (s : State) (off n : Nat) (ext : Option (List Byte)) : State :=
  if !s.inBar4 off n then s
  else match s.readVa agentHost 0xFFFF off n false ext with
    | (.error _, s) => (s.apertureMiss off).send (.completion 1 [] false)
    | (.ok (b, bad), s) => s.send (.completion 0 b bad)

/-- A write to BAR4. -/
def State.bar4Write (s : State) (off : Nat) (l : List Byte) : State :=
  if !s.inBar4 off l.length then s
  else match s.writeVa agentHost 0xFFFF off l false with
    | (.error _, s) => s.apertureMiss off
    | (.ok _, s) => s

/-- An AtomicOp of BAR4 and its completion: performed at the owning slice, on its owning die, or by the host. -/
def State.bar4Atomic (s : State) (off : Nat) (op : AtomOp) (wide : Bool) (operand compare : Dword) : State :=
  let n := if wide then 8 else 4
  let refuse := fun (s : State) => s.send (.completion 1 [] false)
  if !s.inBar4 off n then s
  else match s.translate agentHost 0xFFFF off accAtomic with
    | (.fault _ _ _, s) => refuse (s.apertureMiss off)
    | (.ok target pa pol _ die, s) =>
      if target = 0 then
        let w := 2 ^ (8 * n)
        let ((old, bad), s) := s.atomAt pa n pol (fun old => atomApply op (b2n wide) old (operand.toNat % w) (compare.toNat % w))
        s.send (.completion 0 (leBytes n old) bad)
      else if target = 1 then
        (s.hostRequest pa n (match op with | .add => 1 | .exch => 2 | _ => 3) operand compare (.aperture n)).getD (refuse s)
      else
        (s.cvlRequest 4 die pa (atomCode op + b2n wide * 32 + 128) (leBytes 8 operand.toNat ++ leBytes 8 compare.toNat)
          (.aperture n) none false 0).getD (refuse s)

/-- APERTURE_READ (R250, R251, R226): `ext` gives the bytes of host and remote pages. -/
def execApertureRead (offset len : Nat) (ext : Option (List Byte)) (s : State) : Out :=
  if !s.windowOpen then .next s
  else if s.halted then .next (s.hold (.read4 offset len ext))
  else .next ((s.hostTouch false).bar4Read offset len ext)

/-- APERTURE_WRITE (R250, R251). -/
def execApertureWrite (offset : Nat) (data : List Byte) (s : State) : Out :=
  if !s.windowOpen then .next s
  else if s.halted then .next (s.hold (.bar4 offset data))
  else .next ((s.hostTouch false).bar4Write offset data)

/-- The AtomicOps of PCIe, at a naturally aligned address. -/
def pcieAtomic (offset : Nat) (op : AtomOp) (wide : Bool) : Bool :=
  [AtomOp.add, .exch, .cas].contains op && offset % (if wide then 8 else 4) = 0

/-- APERTURE_ATOMIC (R251, R226). -/
def execApertureAtomic (offset : Nat) (op : AtomOp) (wide : Bool) (operand compare : Dword) (s : State) : Out :=
  if !pcieAtomic offset op wide then .fault .illFormed
  else if !s.windowOpen then .next s
  else if s.halted then .next (s.hold (.atom4 offset op wide operand compare))
  else .next ((s.hostTouch false).bar4Atomic offset op wide operand compare)

end Sys2Proof.Machine
end

