-- ==== Sys2Proof/Machine/HostLink.lean ====
section
/-! DEFINITION. The host link beside the register window: Function Level Reset (R254), D3hot (R255), completions of the
device's own requests (R247), the link's faults and training (R243, R248), and the end of wake (R253, R516). -/

namespace Sys2Proof.Machine

/-! ### Function Level Reset (R254) -/

/-- Step 1: every outrider stops; dispatches, jobs and passes in progress are discarded unsaved (R352). -/
def State.flrStop (s : State) : State :=
  let s := s.chargeAll
  let s := s.parts.foldl (fun s p => (s.discard p.1).modPart p.1 (fun x => { x with
    resident := none, sliceOn := false, slots := [] })) s
  let s := { s with jobs := [], passes := [], turns := [], queues := [], convoys := [], events := [] }.orphan
  { s with
    host := { s.host with np := [], waitOut := [] }
    caravan := { s.caravan with reqs := mmap s.caravan.reqs (fun _ (r : CvlReq) => { r with signal := none }) } }

/-- Step 2: objects, heaps, address spaces but the aperture's, fault records and sessions go. -/
def State.flrRemove (s : State) : State :=
  let forget := { s.mmu with objs := mmap s.mmu.objs (fun _ (o : Obj) => { o with event := none }), faults := [] }
  let s := { s with mmu := forget }
  let s := s.mmu.objs.foldl (fun s p => s.reclaim p.1) s
  let s := (s.mmu.asids.filter (fun p => p.1 ≠ 0xFFFF)).foldl (fun s p => s.dropAsid p.1) s
  { s with mmu := { s.mmu with heaps := [] }, fw := { s.fw with sessions := [] } }

/-- Step 3: cookie rings, fault rings and sample rings are disabled, the MSI-X table and the configuration space return to
their reset values; the scratch registers and the scaler tables as well (R258, R433). -/
def State.flrDisable (s : State) : State :=
  let ring := fun (_ : Nat) (c : CookieRing) => { c with enabled := false, ignoredWrite := false }
  let sring := fun (_ : Nat) (c : SampleRing) => { c with enabled := false, latched := [] }
  let tables := fun (_ : Nat) (v : PipeLayers) => { v with coeff := [], coeffStaged := [] }
  { s with
    mmu := { s.mmu with rings := [] }
    sampleRings := mmap s.sampleRings sring, layers := mmap s.layers tables
    host := { s.host with
      rings := mmap s.host.rings ring, msix := [], functionMask := false, pendingBits := [], scratch := [], staged := []
      bar4Log := 28, d3hot := false } }

/-- Function Level Reset, with its record as step 4. -/
def State.flr (s : State) : State := s.flrStop.flrRemove.flrDisable.log 0x08 0 0 0

/-! ### Configuration writes that have rows -/

/-- What has waited leaves in its order (R253, R255). -/
def State.flushOut (s : State) : State :=
  if s.host.d3hot || s.halted then s
  else { s with host := { s.host with out := s.host.waitOut.reverse ++ s.host.out, waitOut := [] } }

/-- 0 Function Level Reset, 1 to D3hot, 2 to D0. -/
def State.configWrite (s : State) (op : Nat) : State :=
  match op with
  | 0 => s.flr
  | 1 => { s with host := { s.host with d3hot := true } }
  | _ => { s with host := { s.host with d3hot := false } }.flushOut

/-- A configuration write as the host sends it: held in Halt, a cancellation of a drain. -/
def State.hostConfig (s : State) (op : Nat) : Out :=
  if !s.up || !s.host.linkUp then .next s
  else if s.halted then .next (s.hold (.config op))
  else .next ((s.hostTouch false).configWrite op)

/-- FUNCTION_LEVEL_RESET (R254). -/
def execFunctionLevelReset (s : State) : Out := s.hostConfig 0

/-- D3HOT_ENTRY (R255). -/
def execD3hotEntry (s : State) : Out := s.hostConfig 1

/-- D0_RETURN (R255). -/
def execD0Return (s : State) : Out := s.hostConfig 2

/-! ### Completions of the device's requests (R247) -/

/-- A host-link fault on a request: the command of the string that asked is the affected one (R483). -/
def State.requestFault (s : State) (code : Nat) (q : NpReq) : State :=
  let who := q.dest.string.bind (fun p => (s.str? p.1 p.2).map (fun st => s.ctxOf st.queue st.cmd))
  let f : FaultIn := match who with
    | some (_, _, waybill, seq) => { code := code, kind := 10, index := 0, addr := BitVec.ofNat 64 q.addr
                                     info := BitVec.ofNat 64 ePoison, waybill := waybill, seq := seq }
    | none => { code := code, kind := 10, index := 0, addr := BitVec.ofNat 64 q.addr, info := 0, waybill := 0, seq := 0 }
  s.recordFault f

/-- A request ends without good data: fault, and poison to its requester. -/
def State.failRequest (s : State) (code tag : Nat) (q : NpReq) : State :=
  ((({ s with host := { s.host with np := merase s.host.np tag } }).requestFault code q).deliverTo q.dest [] true)

/-- HOST_COMPLETION (R247): status 0 successful, otherwise UR or CA. Data of another length than asked for is no completion
of the request. -/
def execHostCompletion (tag status : Nat) (data : List Byte) (poison : Bool) (s : State) : Out :=
  match mget s.host.np tag with
  | none => .next s
  | some q =>
    if !s.up then .next s
    else if status ≠ 0 then .next (s.failRequest 0x0404 tag q)
    else if poison then .next (s.failRequest 0x0403 tag q)
    else if data.length ≠ q.len then .next s
    else .next ({ s with host := { s.host with np := merase s.host.np tag } }.deliverTo q.dest data false)

/-- HOST_COMPLETION_TIMEOUT (R247): the timeout runs from when a request has left (R255). -/
def execHostCompletionTimeout (tag : Nat) (s : State) : Out :=
  match mget s.host.np tag with
  | none => .next s
  | some q =>
    let waits := s.host.waitOut.any (fun m => match m with | .request t _ _ _ _ _ => t = tag | _ => false)
    if !s.up || waits then .next s else .next (s.failRequest 0x0404 tag q)

/-! ### Faults and training of the link (R243, R248) -/

/-- POISONED_TLP_RX (R248): a write to BAR4 whose data is poisoned; every sector it touches is written as poisoned. -/
def execPoisonedTlpRx (offset : Nat) (data : List Byte) (s : State) : Out :=
  if !s.windowOpen || s.halted || !s.inBar4 offset data.length then .next s
  else
    let s := (s.hostTouch false).report 0x0403 10 0 offset 0
    match s.pieces agentHost 0xFFFF offset data.length accWrite with
    | (.error _, s) => .next (s.apertureMiss offset)
    | (.ok ps, s) => .next (ps.foldl (fun (st : List Byte × State) p =>
        let (t, pa, len, pol, die, _) := p
        let (l, s) := st
        let s := if t = 0 then
            let s := s.writePhys pa (l.take len) pol
            (match s.mem.whereIs pa with
            | .dram | .strong _ => { s with mem := s.mem.setPoison pa len }
            | _ => s)
          else if t = 1 then s.writePiece t pa pol die (l.take len)
          else s.cvlStoreAs die pa (l.take len) .other true
        (l.drop len, s)) (data, s)).2

/-- MALFORMED_TLP_RX (R248). -/
def execMalformedTlpRx (s : State) : Out :=
  if !s.up || !s.host.linkUp then .next s else .next (s.report 0x0407 10 0 0 0)

/-- HOST_LINK_DOWN (R248). -/
def execHostLinkDown (s : State) : Out :=
  if !s.up || !s.host.linkUp then .next s
  else .next ({ s with host := { s.host with linkUp := false, retry := false, recovery := false } }.report 0x0406 10 0 0 0)

/-- HOST_LINK_FLIT_REPLAY (R248). -/
def execHostLinkFlitReplay (s : State) : Out :=
  if !s.up || !s.host.linkUp then .next s
  else .next ({ s with host := { s.host with retry := true } }.report 0x0401 10 0 0 0)

/-- HOST_LINK_RETRAINED (R243, R248): the modules that run and their width; retry and recovery end. A module left out or
at half width is a corrected fault of its own, and none trained a fatal one. -/
def execHostLinkRetrained (modules lanes : Nat) (s : State) : Out :=
  if !s.up || !s.host.linkUp || 4 < modules then .next s
  else if modules = 0 then .next (s.report 0x0408 10 0 0 0)
  else
    let half := lanes = 32 || lanes = 8
    let degraded := half || modules < s.host.modules
    let res := if degraded then 1 else 0
    let changed := modules ≠ s.host.modules || lanes ≠ s.host.lanes
    let s := { s with host := { s.host with modules := modules, lanes := lanes, retry := false, recovery := false } }
    let s := (s.log 0x09 (res * 65536) (s.host.rate * 1000) lanes).report 0x0401 10 0 0 0
    let s := if degraded then s.report 0x0402 10 0 0 0 else s
    .next (if changed then s.capChanged else s)

/-! ### The end of wake (R253, R516) -/

/-- A request that was held in Halt is performed. -/
def State.performHeld (s : State) (w : HeldWrite) : State :=
  if s.host.d3hot then (match w with | .config op => s.configWrite op | _ => s)
  else match w with
    | .bar0 off l => s.bar0Write off l
    | .bar2 off l => s.bar2Write off l
    | .bar4 off l => s.bar4Write off l
    | .read0 off n => s.bar0Read off n
    | .read4 off n ext => s.bar4Read off n ext
    | .atom4 off op wide a b => s.bar4Atomic off op wide a b
    | .config op => s.configWrite op

/-- The pipes that Halt entry stopped train again and start at their next frame start (R421). -/
def State.wakePipes (s : State) : State :=
  let l := s.power.pipesStopped
  l.foldl (fun s p => s.modPipe p (fun v => { v with link := 1 })) s.restartPipes

/-- WAKE_COMPLETE (R516): held cookies and messages leave, held requests are performed in arrival order, the POWER_STATE
record is written, and POWER reads 0. -/
def execWakeComplete (s : State) : Out :=
  if s.power.st ≠ .waking || !s.up then .next s
  else
    let old := s.hrwState
    let held := s.host.heldWrites
    let took := (s.aclk + 2 ^ 56 - s.power.lastWake) % 2 ^ 56
    let s := { s with power := { s.power with st := .run }, host := { s.host with heldWrites := [] } }.flushOut
    let s := (held.foldl State.performHeld s).wakePipes.log 0x21 (1 + s.power.wakeSrc * 256) took 0
    .next (if s.hrwState = old then s else s.interrupt 9 0x6 0 s.hrwState 0)

end Sys2Proof.Machine
end

