-- ==== Sys2Proof/Machine/Dispatch.lean ====
section
/-! DEFINITION. One arm per command: the meaning it calls (spec/opcode_table.json gives the rows). -/

namespace Sys2Proof.Machine

def exec (i : Instr) (s : State) : Host.Outcome State Fault Refusal :=
  match i with
  | .bra w h low => Sys2Proof.Machine.execBra w h low s
  | .jmp w h low => Sys2Proof.Machine.execJmp w h low s
  | .call w h low => Sys2Proof.Machine.execCall w h low s
  | .calli w h low => Sys2Proof.Machine.execCalli w h low s
  | .exit w h low => Sys2Proof.Machine.execExit w h low s
  | .join w h low => Sys2Proof.Machine.execJoin w h low s
  | .yield w h low => Sys2Proof.Machine.execYield w h low s
  | .sleep w h low => Sys2Proof.Machine.execSleep w h low s
  | .gmask w h low => Sys2Proof.Machine.execGmask w h low s
  | .trap w h low => Sys2Proof.Machine.execTrap w h low s
  | .nop w h low => Sys2Proof.Machine.execNop w h low s
  | .barSync w h low => Sys2Proof.Machine.execBarSync w h low s
  | .barArrive w h low => Sys2Proof.Machine.execBarArrive w h low s
  | .barWait w h low => Sys2Proof.Machine.execBarWait w h low s
  | .shfl w h low => Sys2Proof.Machine.execShfl w h low s
  | .vote w h low => Sys2Proof.Machine.execVote w h low s
  | .fence w h low => Sys2Proof.Machine.execFence w h low s
  | .atomAdd w h low => Sys2Proof.Machine.execAtomAdd w h low s
  | .atomSmin w h low => Sys2Proof.Machine.execAtomSmin w h low s
  | .atomUmin w h low => Sys2Proof.Machine.execAtomUmin w h low s
  | .atomSmax w h low => Sys2Proof.Machine.execAtomSmax w h low s
  | .atomUmax w h low => Sys2Proof.Machine.execAtomUmax w h low s
  | .atomAnd w h low => Sys2Proof.Machine.execAtomAnd w h low s
  | .atomOr w h low => Sys2Proof.Machine.execAtomOr w h low s
  | .atomXor w h low => Sys2Proof.Machine.execAtomXor w h low s
  | .atomExch w h low => Sys2Proof.Machine.execAtomExch w h low s
  | .atomCas w h low => Sys2Proof.Machine.execAtomCas w h low s
  | .atomInc w h low => Sys2Proof.Machine.execAtomInc w h low s
  | .atomDec w h low => Sys2Proof.Machine.execAtomDec w h low s
  | .atomFadd w h low => Sys2Proof.Machine.execAtomFadd w h low s
  | .atomFmin w h low => Sys2Proof.Machine.execAtomFmin w h low s
  | .atomFmax w h low => Sys2Proof.Machine.execAtomFmax w h low s
  | .alloc w h low => Sys2Proof.Machine.execAlloc w h low s
  | .free w h low => Sys2Proof.Machine.execFree w h low s
  | .iadd w h => Sys2Proof.Machine.execIadd w h s
  | .isub w h => Sys2Proof.Machine.execIsub w h s
  | .imin w h sgn => Sys2Proof.Machine.execImin w h sgn s
  | .imax w h sgn => Sys2Proof.Machine.execImax w h sgn s
  | .and w h => Sys2Proof.Machine.execAnd w h s
  | .or w h => Sys2Proof.Machine.execOr w h s
  | .xor w h => Sys2Proof.Machine.execXor w h s
  | .not w h => Sys2Proof.Machine.execNot w h s
  | .shl w h => Sys2Proof.Machine.execShl w h s
  | .shr w h => Sys2Proof.Machine.execShr w h s
  | .sar w h => Sys2Proof.Machine.execSar w h s
  | .popc w h => Sys2Proof.Machine.execPopc w h s
  | .clz w h => Sys2Proof.Machine.execClz w h s
  | .brev w h => Sys2Proof.Machine.execBrev w h s
  | .bfe w h src2 sgn => Sys2Proof.Machine.execBfe w h src2 sgn s
  | .bfi w h src2 src3 => Sys2Proof.Machine.execBfi w h src2 src3 s
  | .isetp w h cmp sgn pd => Sys2Proof.Machine.execIsetp w h cmp sgn pd s
  | .sel w h ps inv => Sys2Proof.Machine.execSel w h ps inv s
  | .mov w h src => Sys2Proof.Machine.execMov w h src s
  | .imad w h src2 => Sys2Proof.Machine.execImad w h src2 s
  | .imulHi w h sgn => Sys2Proof.Machine.execImulHi w h sgn s
  | .fadd w h => Sys2Proof.Machine.execFadd w h s
  | .fmul w h => Sys2Proof.Machine.execFmul w h s
  | .ffma w h src2 => Sys2Proof.Machine.execFfma w h src2 s
  | .fmin w h => Sys2Proof.Machine.execFmin w h s
  | .fmax w h => Sys2Proof.Machine.execFmax w h s
  | .fabs w h => Sys2Proof.Machine.execFabs w h s
  | .fneg w h => Sys2Proof.Machine.execFneg w h s
  | .fsetp w h cmp pd => Sys2Proof.Machine.execFsetp w h cmp pd s
  | .hadd2 w h => Sys2Proof.Machine.execHadd2 w h s
  | .hmul2 w h => Sys2Proof.Machine.execHmul2 w h s
  | .hfma2 w h src2 => Sys2Proof.Machine.execHfma2 w h src2 s
  | .rcp w h => Sys2Proof.Machine.execRcp w h s
  | .rsq w h => Sys2Proof.Machine.execRsq w h s
  | .sqrt w h => Sys2Proof.Machine.execSqrt w h s
  | .exp2 w h => Sys2Proof.Machine.execExp2 w h s
  | .log2 w h => Sys2Proof.Machine.execLog2 w h s
  | .sin w h => Sys2Proof.Machine.execSin w h s
  | .cos w h => Sys2Proof.Machine.execCos w h s
  | .uadd w h => Sys2Proof.Machine.execUadd w h s
  | .usub w h => Sys2Proof.Machine.execUsub w h s
  | .umul w h => Sys2Proof.Machine.execUmul w h s
  | .uand w h => Sys2Proof.Machine.execUand w h s
  | .uor w h => Sys2Proof.Machine.execUor w h s
  | .uxor w h => Sys2Proof.Machine.execUxor w h s
  | .ushl w h => Sys2Proof.Machine.execUshl w h s
  | .ushr w h => Sys2Proof.Machine.execUshr w h s
  | .umov w h src => Sys2Proof.Machine.execUmov w h src s
  | .usetp w h cmp sgn pd => Sys2Proof.Machine.execUsetp w h cmp sgn pd s
  | .cvt w h c => Sys2Proof.Machine.execCvt w h c s
  | .ld w h shared size sgn => Sys2Proof.Machine.execLd w h shared size sgn s
  | .st w h shared size => Sys2Proof.Machine.execSt w h shared size s
  | .tmma w h low => Sys2Proof.Machine.execTmma w h low s
  | .tfill w h low => Sys2Proof.Machine.execTfill w h low s
  | .tspill w h low => Sys2Proof.Machine.execTspill w h low s
  | .tcvt w h low => Sys2Proof.Machine.execTcvt w h low s
  | .twait w h low => Sys2Proof.Machine.execTwait w h low s
  | .tex w h t ext => Sys2Proof.Machine.execTex w h t ext s
  | .texb w h t ext => Sys2Proof.Machine.execTexb w h t ext s
  | .texl w h t ext => Sys2Proof.Machine.execTexl w h t ext s
  | .texg w h t ext => Sys2Proof.Machine.execTexg w h t ext s
  | .tld w h t ext => Sys2Proof.Machine.execTld w h t ext s
  | .tg4 w h t ext => Sys2Proof.Machine.execTg4 w h t ext s
  | .tq w h t ext => Sys2Proof.Machine.execTq w h t ext s
  | .rqInit w h => Sys2Proof.Machine.execRqInit w h s
  | .rqProceed w h ext => Sys2Proof.Machine.execRqProceed w h ext s
  | .rqConfirm w h => Sys2Proof.Machine.execRqConfirm w h s
  | .rqGenhit w h => Sys2Proof.Machine.execRqGenhit w h s
  | .rqTerminate w h => Sys2Proof.Machine.execRqTerminate w h s
  | .rqGet w h committed field ext => Sys2Proof.Machine.execRqGet w h committed field ext s
  | .pqKnn w h ext => Sys2Proof.Machine.execPqKnn w h ext s
  | .pqRadius w h ext => Sys2Proof.Machine.execPqRadius w h ext s
  | .tla w h att sample ordered => Sys2Proof.Machine.execTla w h att sample ordered s
  | .tsa w h att sample ordered => Sys2Proof.Machine.execTsa w h att sample ordered s
  | .tldr w h size => Sys2Proof.Machine.execTldr w h size s
  | .tstr w h size => Sys2Proof.Machine.execTstr w h size s
  | .stringPromotion w => Sys2Proof.Machine.execStringPromotion w s
  | .budgetExpiry w => Sys2Proof.Machine.execBudgetExpiry w s
  | .sleepExpiry w pc => Sys2Proof.Machine.execSleepExpiry w pc s
  | .workgroupLaunch engine launch ext => Sys2Proof.Machine.execWorkgroupLaunch engine launch ext s
  | .stringFree w => Sys2Proof.Machine.execStringFree w s
  | .tensorInstructionStart engine id => Sys2Proof.Machine.execTensorInstructionStart engine id s
  | .tensorInstructionComplete engine id host => Sys2Proof.Machine.execTensorInstructionComplete engine id host s
  | .gangArrive engine => Sys2Proof.Machine.execGangArrive engine s
  | .gangResume engine => Sys2Proof.Machine.execGangResume engine s
  | .granuleBoundaryMove engine => Sys2Proof.Machine.execGranuleBoundaryMove engine s
  | .doorbell offset data => Sys2Proof.Machine.execDoorbell offset data s
  | .commandAccept queue entries ext => Sys2Proof.Machine.execCommandAccept queue entries ext s
  | .commandRetire queue => Sys2Proof.Machine.execCommandRetire queue s
  | .queueNop queue => Sys2Proof.Machine.execQueueNop queue s
  | .dispatch queue => Sys2Proof.Machine.execDispatch queue s
  | .gangLayer queue => Sys2Proof.Machine.execGangLayer queue s
  | .eventAwait queue => Sys2Proof.Machine.execEventAwait queue s
  | .eventRecord queue => Sys2Proof.Machine.execEventRecord queue s
  | .copy queue host => Sys2Proof.Machine.execCopy queue host s
  | .fill queue host => Sys2Proof.Machine.execFill queue host s
  | .watchTimerExpiry unit => Sys2Proof.Machine.execWatchTimerExpiry unit s
  | .passBegin queue => Sys2Proof.Machine.execPassBegin queue s
  | .draw queue => Sys2Proof.Machine.execDraw queue s
  | .passEnd queue => Sys2Proof.Machine.execPassEnd queue s
  | .geometryPhaseStart pass => Sys2Proof.Machine.execGeometryPhaseStart pass s
  | .tilesPhaseStart pass => Sys2Proof.Machine.execTilesPhaseStart pass s
  | .passRetirement pass => Sys2Proof.Machine.execPassRetirement pass s
  | .growWaitExpiry pass => Sys2Proof.Machine.execGrowWaitExpiry pass s
  | .compress queue host => Sys2Proof.Machine.execCompress queue host s
  | .decompress queue host => Sys2Proof.Machine.execDecompress queue host s
  | .batchStart queue => Sys2Proof.Machine.execBatchStart queue s
  | .switchPoint queue => Sys2Proof.Machine.execSwitchPoint queue s
  | .tileHold queue => Sys2Proof.Machine.execTileHold queue s
  | .tileFree queue => Sys2Proof.Machine.execTileFree queue s
  | .batchEnd queue => Sys2Proof.Machine.execBatchEnd queue s
  | .sliceEnd partition => Sys2Proof.Machine.execSliceEnd partition s
  | .convoyUnreadyReschedule partition => Sys2Proof.Machine.execConvoyUnreadyReschedule partition s
  | .boundarySwitch partition => Sys2Proof.Machine.execBoundarySwitch partition s
  | .gracePeriodExpiry partition => Sys2Proof.Machine.execGracePeriodExpiry partition s
  | .parkLimitExpiry fault => Sys2Proof.Machine.execParkLimitExpiry fault s
  | .preemptionStopTimeout partition => Sys2Proof.Machine.execPreemptionStopTimeout partition s
  | .preemptionSaveComplete partition => Sys2Proof.Machine.execPreemptionSaveComplete partition s
  | .convoyRestore partition => Sys2Proof.Machine.execConvoyRestore partition s
  | .chargePointTick partition => Sys2Proof.Machine.execChargePointTick partition s
  | .translationWalk asid va => Sys2Proof.Machine.execTranslationWalk asid va s
  | .faultRecordWrite fault => Sys2Proof.Machine.execFaultRecordWrite fault s
  | .objectReclaim handle => Sys2Proof.Machine.execObjectReclaim handle s
  | .l2Atomic addr op wide operand compare => Sys2Proof.Machine.execL2Atomic addr op wide operand compare s
  | .l2Fill line => Sys2Proof.Machine.execL2Fill line s
  | .dramReadModifyWrite sector => Sys2Proof.Machine.execDramReadModifyWrite sector s
  | .wayCeLimitReached slice way => Sys2Proof.Machine.execWayCeLimitReached slice way s
  | .scrubRead scrubber => Sys2Proof.Machine.execScrubRead scrubber s
  | .scrubLapEnd scrubber => Sys2Proof.Machine.execScrubLapEnd scrubber s
  | .lapWarnExpiry scrubber => Sys2Proof.Machine.execLapWarnExpiry scrubber s
  | .phySamplerStep lane up => Sys2Proof.Machine.execPhySamplerStep lane up s
  | .dqsOscillatorRead dram value => Sys2Proof.Machine.execDqsOscillatorRead dram value s
  | .impedanceCalibration code => Sys2Proof.Machine.execImpedanceCalibration code s
  | .channelRetrain channel ok => Sys2Proof.Machine.execChannelRetrain channel ok s
  | .migrationGranuleCopy channel => Sys2Proof.Machine.execMigrationGranuleCopy channel s
  | .channelLost channel readable => Sys2Proof.Machine.execChannelLost channel readable s
  | .registerWrite offset data => Sys2Proof.Machine.execRegisterWrite offset data s
  | .registerLowWordRead offset len => Sys2Proof.Machine.execRegisterLowWordRead offset len s
  | .mbxPost pair => Sys2Proof.Machine.execMbxPost pair s
  | .mbxAck pair => Sys2Proof.Machine.execMbxAck pair s
  | .cookieRingEnable ring value => Sys2Proof.Machine.execCookieRingEnable ring value s
  | .cookieRingDisable ring value => Sys2Proof.Machine.execCookieRingDisable ring value s
  | .cookieRingHeadWrite ring value => Sys2Proof.Machine.execCookieRingHeadWrite ring value s
  | .cfgCrcCheck block => Sys2Proof.Machine.execCfgCrcCheck block s
  | .msixUnmask vector masked => Sys2Proof.Machine.execMsixUnmask vector masked s
  | .apertureRead offset len ext => Sys2Proof.Machine.execApertureRead offset len ext s
  | .apertureWrite offset data => Sys2Proof.Machine.execApertureWrite offset data s
  | .apertureAtomic offset op wide operand compare => Sys2Proof.Machine.execApertureAtomic offset op wide operand compare s
  | .functionLevelReset => Sys2Proof.Machine.execFunctionLevelReset s
  | .d3hotEntry => Sys2Proof.Machine.execD3hotEntry s
  | .d0Return => Sys2Proof.Machine.execD0Return s
  | .hostCompletion tag status data poison => Sys2Proof.Machine.execHostCompletion tag status data poison s
  | .hostCompletionTimeout tag => Sys2Proof.Machine.execHostCompletionTimeout tag s
  | .poisonedTlpRx offset data => Sys2Proof.Machine.execPoisonedTlpRx offset data s
  | .malformedTlpRx => Sys2Proof.Machine.execMalformedTlpRx s
  | .hostLinkDown => Sys2Proof.Machine.execHostLinkDown s
  | .sessionOpen pair => Sys2Proof.Machine.execSessionOpen pair s
  | .sessionAuth pair buf => Sys2Proof.Machine.execSessionAuth pair buf s
  | .sessionClose pair => Sys2Proof.Machine.execSessionClose pair s
  | .challengeExpiry session => Sys2Proof.Machine.execChallengeExpiry session s
  | .authLockoutEnd => Sys2Proof.Machine.execAuthLockoutEnd s
  | .ping pair => Sys2Proof.Machine.execPing pair s
  | .regRead pair => Sys2Proof.Machine.execRegRead pair s
  | .regWrite pair => Sys2Proof.Machine.execRegWrite pair s
  | .queueCreate pair => Sys2Proof.Machine.execQueueCreate pair s
  | .queueDestroy pair => Sys2Proof.Machine.execQueueDestroy pair s
  | .queueRestart pair => Sys2Proof.Machine.execQueueRestart pair s
  | .eventAlloc pair => Sys2Proof.Machine.execEventAlloc pair s
  | .eventFree pair => Sys2Proof.Machine.execEventFree pair s
  | .eventBind pair => Sys2Proof.Machine.execEventBind pair s
  | .partitionSet pair => Sys2Proof.Machine.execPartitionSet pair s
  | .convoyCreate pair => Sys2Proof.Machine.execConvoyCreate pair s
  | .convoyDestroy pair => Sys2Proof.Machine.execConvoyDestroy pair s
  | .convoySetShare pair => Sys2Proof.Machine.execConvoySetShare pair s
  | .convoySetTimed pair buf => Sys2Proof.Machine.execConvoySetTimed pair buf s
  | .contextRead pair => Sys2Proof.Machine.execContextRead pair s
  | .asidCreate pair => Sys2Proof.Machine.execAsidCreate pair s
  | .asidDestroy pair => Sys2Proof.Machine.execAsidDestroy pair s
  | .mmuSetFaultRingEnable pair => Sys2Proof.Machine.execMmuSetFaultRingEnable pair s
  | .mmuSetFaultRingDisable pair => Sys2Proof.Machine.execMmuSetFaultRingDisable pair s
  | .faultResolveRetry pair => Sys2Proof.Machine.execFaultResolveRetry pair s
  | .faultResolveDecline pair => Sys2Proof.Machine.execFaultResolveDecline pair s
  | .faultResolveAbort pair => Sys2Proof.Machine.execFaultResolveAbort pair s
  | .objCreate pair buf => Sys2Proof.Machine.execObjCreate pair buf s
  | .objAlias pair => Sys2Proof.Machine.execObjAlias pair s
  | .objFree pair => Sys2Proof.Machine.execObjFree pair s
  | .objQuery pair => Sys2Proof.Machine.execObjQuery pair s
  | .heapCreate pair => Sys2Proof.Machine.execHeapCreate pair s
  | .heapAdd pair => Sys2Proof.Machine.execHeapAdd pair s
  | .heapDestroy pair => Sys2Proof.Machine.execHeapDestroy pair s
  | .heapQuery pair => Sys2Proof.Machine.execHeapQuery pair s
  | .l2SetStrongroom pair => Sys2Proof.Machine.execL2SetStrongroom pair s
  | .drcConfigure pair => Sys2Proof.Machine.execDrcConfigure pair s
  | .drcRetrain pair => Sys2Proof.Machine.execDrcRetrain pair s
  | .eccLogRead pair => Sys2Proof.Machine.execEccLogRead pair s
  | .eccLogClear pair => Sys2Proof.Machine.execEccLogClear pair s
  | .dspPipeSet pair buf => Sys2Proof.Machine.execDspPipeSet pair buf s
  | .dspPipeEnableOn pair => Sys2Proof.Machine.execDspPipeEnableOn pair s
  | .dspPipeEnableOff pair => Sys2Proof.Machine.execDspPipeEnableOff pair s
  | .dspLayerSet pair buf => Sys2Proof.Machine.execDspLayerSet pair buf s
  | .dspScalerLoad pair buf => Sys2Proof.Machine.execDspScalerLoad pair buf s
  | .cvlRouteSet pair buf => Sys2Proof.Machine.execCvlRouteSet pair buf s
  | .cvlMemberAdmit pair => Sys2Proof.Machine.execCvlMemberAdmit pair s
  | .cvlMemberRemove pair => Sys2Proof.Machine.execCvlMemberRemove pair s
  | .sampleRingSetEnable pair buf => Sys2Proof.Machine.execSampleRingSetEnable pair buf s
  | .sampleRingSetDisable pair => Sys2Proof.Machine.execSampleRingSetDisable pair s
  | .fltRead pair => Sys2Proof.Machine.execFltRead pair s
  | .logbookRead pair => Sys2Proof.Machine.execLogbookRead pair s
  | .fltPolicySet pair => Sys2Proof.Machine.execFltPolicySet pair s
  | .unitFence pair => Sys2Proof.Machine.execUnitFence pair s
  | .unitReadmit pair selfTest => Sys2Proof.Machine.execUnitReadmit pair selfTest s
  | .errnSet pair => Sys2Proof.Machine.execErrnSet pair s
  | .pwrHalt pair => Sys2Proof.Machine.execPwrHalt pair s
  | .pwrLimitSet pair => Sys2Proof.Machine.execPwrLimitSet pair s
  | .settingGet pair => Sys2Proof.Machine.execSettingGet pair s
  | .settingSet pair => Sys2Proof.Machine.execSettingSet pair s
  | .storeSettings pair => Sys2Proof.Machine.execStoreSettings pair s
  | .fwStage pair buf => Sys2Proof.Machine.execFwStage pair buf s
  | .fwActivate pair => Sys2Proof.Machine.execFwActivate pair s
  | .ucodeUpdate pair buf => Sys2Proof.Machine.execUcodeUpdate pair buf s
  | .ucodeEngineUpdate engine selfTest => Sys2Proof.Machine.execUcodeEngineUpdate engine selfTest s
  | .recalibrate pair => Sys2Proof.Machine.execRecalibrate pair s
  | .keySet pair buf => Sys2Proof.Machine.execKeySet pair buf s
  | .diagOpen pair => Sys2Proof.Machine.execDiagOpen pair s
  | .debugUnlock pair => Sys2Proof.Machine.execDebugUnlock pair s
  | .calWrite pair buf => Sys2Proof.Machine.execCalWrite pair buf s
  | .fuseWrite pair => Sys2Proof.Machine.execFuseWrite pair s
  | .longOperationEnd opcode ok data => Sys2Proof.Machine.execLongOperationEnd opcode ok data s
  | .strongroomConversionEnd => Sys2Proof.Machine.execStrongroomConversionEnd s
  | .frameStart pipe late ext => Sys2Proof.Machine.execFrameStart pipe late ext s
  | .fsyncEdge input level => Sys2Proof.Machine.execFsyncEdge input level s
  | .fsyncLostExpiry pipe => Sys2Proof.Machine.execFsyncLostExpiry pipe s
  | .hpdEvent pipe high lost => Sys2Proof.Machine.execHpdEvent pipe high lost s
  | .flitReceive port flit => Sys2Proof.Machine.execFlitReceive port flit s
  | .link port nak seq => Sys2Proof.Machine.execLink port nak seq s
  | .linkAckTimeout port => Sys2Proof.Machine.execLinkAckTimeout port s
  | .portRetryBudgetExpiry port => Sys2Proof.Machine.execPortRetryBudgetExpiry port s
  | .portRetrainComplete port far => Sys2Proof.Machine.execPortRetrainComplete port far s
  | .rdReq port msg => Sys2Proof.Machine.execRdReq port msg s
  | .wr port msg => Sys2Proof.Machine.execWr port msg s
  | .wrPartial port msg => Sys2Proof.Machine.execWrPartial port msg s
  | .atomic port msg => Sys2Proof.Machine.execAtomic port msg s
  | .event port msg => Sys2Proof.Machine.execEvent port msg s
  | .mgmt port msg => Sys2Proof.Machine.execMgmt port msg s
  | .rdRsp port msg => Sys2Proof.Machine.execRdRsp port msg s
  | .wrAck port msg => Sys2Proof.Machine.execWrAck port msg s
  | .atomicRsp port msg => Sys2Proof.Machine.execAtomicRsp port msg s
  | .eventAck port msg => Sys2Proof.Machine.execEventAck port msg s
  | .cvlRequestTimeout tag => Sys2Proof.Machine.execCvlRequestTimeout tag s
  | .faultReport f => Sys2Proof.Machine.execFaultReport f s
  | .fenceQuietExpiry kind index selfTest => Sys2Proof.Machine.execFenceQuietExpiry kind index selfTest s
  | .errnPulseEnd => Sys2Proof.Machine.execErrnPulseEnd s
  | .lockstepDivergence => Sys2Proof.Machine.execLockstepDivergence s
  | .masterRestartComplete => Sys2Proof.Machine.execMasterRestartComplete s
  | .heartbeatTimeout => Sys2Proof.Machine.execHeartbeatTimeout s
  | .heartbeatTick => Sys2Proof.Machine.execHeartbeatTick s
  | .logbookWrite => Sys2Proof.Machine.execLogbookWrite s
  | .powerFailWarning => Sys2Proof.Machine.execPowerFailWarning s
  | .powerFailRelease => Sys2Proof.Machine.execPowerFailRelease s
  | .sampleSnapshot ring => Sys2Proof.Machine.execSampleSnapshot ring s
  | .sampleRecordWrite ring => Sys2Proof.Machine.execSampleRecordWrite ring s
  | .powerSample sixteenths => Sys2Proof.Machine.execPowerSample sixteenths s
  | .pmicCalibration reading => Sys2Proof.Machine.execPmicCalibration reading s
  | .cclkRaiseConfirmed => Sys2Proof.Machine.execCclkRaiseConfirmed s
  | .sensorSample temps => Sys2Proof.Machine.execSensorSample temps s
  | .thermalTrip => Sys2Proof.Machine.execThermalTrip s
  | .restEntry => Sys2Proof.Machine.execRestEntry s
  | .haltCommit => Sys2Proof.Machine.execHaltCommit s
  | .haltReached => Sys2Proof.Machine.execHaltReached s
  | .wakeSource source => Sys2Proof.Machine.execWakeSource source s
  | .wakeComplete => Sys2Proof.Machine.execWakeComplete s
  | .reset => Sys2Proof.Machine.execReset s
  | .powerGoodLoss => Sys2Proof.Machine.execPowerGoodLoss s
  | .bootStart results world => Sys2Proof.Machine.execBootStart results world s
  | .bootStepTimeout => Sys2Proof.Machine.execBootStepTimeout s
  | .masterAliveTimeout => Sys2Proof.Machine.execMasterAliveTimeout s
  | .progressCounterSample => Sys2Proof.Machine.execProgressCounterSample s
  | .hostLinkFlitReplay => Sys2Proof.Machine.execHostLinkFlitReplay s
  | .hostLinkRetrained modules lanes => Sys2Proof.Machine.execHostLinkRetrained modules lanes s
  | .pipeLinkTrainingEnd pipe rate => Sys2Proof.Machine.execPipeLinkTrainingEnd pipe rate s
  | .scoreboardRelease w reg => Sys2Proof.Machine.execScoreboardRelease w reg s
  | .boundaryScan tms tdi => Sys2Proof.Machine.execBoundaryScan tms tdi s

end Sys2Proof.Machine
end

