-- ==== Sys2Proof/Safety.lean ====
section
/-! DEFINITION. What a safe state of the block is, in the terms the statements use. -/

namespace Sys2Proof.Machine

/-- Keys of a table rise strictly. -/
def Map.sorted {α : Type} : Map α → Bool
  | [] => true
  | [_] => true
  | (k, _) :: (k', v) :: rest => k < k' && Map.sorted ((k', v) :: rest)

/-- Local memory has its canonical form (R8, R520). -/
def State.memOk (s : State) : Prop := Memory.wf s.mem.cells = true

/-- After a fatal fault ERR_N is held and HRW_STATE shows FATAL (R490, R495). -/
def State.fatalOk (s : State) : Prop := s.flt.fatal = true → s.flt.held = true

/-- The logbook writer's queue holds at most 16 records, one of them in the kept entry, and the collector at most four
more (R497). -/
def State.logOk (s : State) : Prop :=
  s.logbook.queue.length ≤ 16 ∧ (s.logbook.queue.filter (fun r => r.kept)).length ≤ 1 ∧ s.logbook.heldFatal.length ≤ 4

/-- CCLK runs at one of its three points, is raised to one of them, and at most four idle cycles are inserted (R508,
R539). -/
def State.powerOk (s : State) : Prop := s.power.point ≤ 2 ∧ (∀ p ∈ s.power.raising, p ≤ 2) ∧ s.power.idle ≤ 4

/-- ERR_N is asserted while it is held, during a pulse, and by software's level, and at no other time (R495, R496). -/
def State.errOk (s : State) : Prop := s.pins.errN = (s.flt.held || s.flt.pulse || s.flt.swLevel)

/-- BOOT_STEP shows a step of boot, none before it or its completion (R259). -/
def State.bootOk (s : State) : Prop := s.boot.step ≤ 24 ∨ s.boot.step = 255

/-- What every step keeps. -/
structure State.Inv (s : State) : Prop where
  mem : s.memOk
  fatal : s.fatalOk
  err : s.errOk
  log : s.logOk
  power : s.powerOk
  boot : s.bootOk
  records : Map.sorted s.flt.records = true

/-- A step that ends neither in a fault nor in a refusal. -/
def Answers (o : Host.Outcome State Fault Refusal) : Prop := ∃ t, o = .next t

end Sys2Proof.Machine
end

