-- ==== Sys2Proof/Safety/Issue.lean ====
section
/-! DEFINITION. When a string issues an instruction (R77 to R79, R97, R98), what such an instruction leaves alone, and what
the rules make of the results of the plain instructions (R105), as relations between the registers before and after. -/

namespace Sys2Proof.Machine

/-- The string at a site issues an instruction with these registers now: it is there, ready, chosen by its drover, its
active group is open with budget left, the instruction names registers that it has, and none of them is pending. -/
structure CanIssue (s : State) (w : Site) (h : Hdr) (u : Use) (st : Str) (g : Group) (rest : List Group) : Prop where
  working : s.working = true
  free : s.frozen w.engine.val = false
  resident : s.str? w.engine.val w.place.val = some st
  groups : st.groups = g :: rest
  ready : st.state = .ready
  eligible : g.block = .open
  budget : g.budget ≠ 0
  chosen : (s.eng w.engine.val).chosen w.place.val st = true
  encoded : u.legal st.regs = true
  settled : ∀ r ∈ (h.pred.toNat + 256) :: u.all, r ∉ st.busy

/-- The instruction as it issues. -/
def actOf (w : Site) (h : Hdr) (st : Str) (g : Group) : Act :=
  { e := w.engine.val, place := w.place.val, str := { st with promoted := none }, grp := g,
    lanes := g.mask &&& st.predLanes h, hdr := h }

/-- Lane i executes: it is a lane of the active group whose predicate holds (R79, R98). -/
abbrev Executes (st : Str) (g : Group) (h : Hdr) (i : Nat) : Prop := i ∈ lanesOf (g.mask &&& st.predLanes h)

/-- Lanes that execute. -/
def laneCount (st : Str) (g : Group) (h : Hdr) : Nat := (lanesOf (g.mask &&& st.predLanes h)).length

/-- The string after an instruction of its active group that goes on at the next word: nothing of it but its registers,
its predicates and its scoreboard may differ otherwise. -/
def Advanced (st st' : Str) (g : Group) (rest : List Group) : Prop :=
  { st' with vregs := st.vregs, preds := st.preds, uregs := st.uregs, busy := st.busy }
    = { st with promoted := none, groups := { g with pc := g.pc + 8, budget := g.budget - 1 } :: rest }

/-- Only the string at a site, event and progress counters and the number of free values drawn differ: every other
string, engine, register, queue and byte of memory is as before. -/
def OnlyString (s t : State) (w : Site) : Prop :=
  (∀ e p, (e, p) ≠ (w.engine.val, w.place.val) → t.str? e p = s.str? e p)
  ∧ (∀ e, { t.eng e with strs := [] } = { s.eng e with strs := [] })
  ∧ { t with engines := s.engines, counters := s.counters, flt := { t.flt with progress := s.flt.progress },
             clk := { t.clk with fresh := s.clk.fresh } } = s

/-- A counter has grown by n, modulo 2^56 (R542). -/
def Counted (s t : State) (block inst event n : Nat) : Prop :=
  t.ctr block inst event % 2 ^ 56 = (s.ctr block inst event + n) % 2 ^ 56

/-- The vector registers after: DST on the executing lanes has a value that the relation allows, every other register of
every lane is as before. -/
def VectorResult (st st' : Str) (g : Group) (h : Hdr) (result : Nat → Word → Prop) : Prop :=
  ∀ r i, i < 32 → (r = h.dst.toNat ∧ Executes st g h i → result i (st'.v r i))
    ∧ (¬ (r = h.dst.toNat ∧ Executes st g h i) → st'.v r i = st.v r i)

/-- The predicates after: a written predicate has on the executing lanes the stated bit, every other bit is as before;
p7 reads as true (R71). -/
def PredicateResult (st st' : Str) (g : Group) (h : Hdr) (pd : Nat) (result : Nat → Bool) : Prop :=
  ∀ p i, p < 8 → i < 32 → bit (st'.p p).toNat i
    = (if p = 7 then true else if p = pd ∧ Executes st g h i then result i else bit (st.p p).toNat i)

/-- Registers with a result on its way afterwards: those that had one, and those that the instruction writes (R78). -/
def Pends (st st' : Str) (u : Use) : Prop := ∀ r, r ∈ st'.busy ↔ r ∈ st.busy ∨ r ∈ u.writes

/-! ### Plain lane instructions -/

/-- An instruction that writes DST on each executing lane: its class and lane counter, elements counted per lane, the
registers it names, and the values its result may have. -/
structure LaneForm where
  site : Site
  hdr : Hdr
  cls : Nat
  ctr : Nat
  elements : Nat
  use : Use
  result : Str → Nat → Word → Prop

/-- Two vector sources. -/
def lane2 (w : Site) (h : Hdr) (cls ctr n : Nat) (f : Word → Word → Word → Prop) : Option LaneForm :=
  some ⟨w, h, cls, ctr, n, useV [h.src0, h.src1] h.dst, fun st i y => f (st.v h.src0.toNat i) (st.v h.src1.toNat i) y⟩

/-- One vector source. -/
def lane1 (w : Site) (h : Hdr) (cls ctr : Nat) (f : Word → Word → Prop) : Option LaneForm :=
  some ⟨w, h, cls, ctr, 1, useV [h.src0] h.dst, fun st i y => f (st.v h.src0.toNat i) y⟩

/-- Three vector sources. -/
def lane3 (w : Site) (h : Hdr) (cls ctr n : Nat) (r2 : BitVec 8) (f : Word → Word → Word → Word → Prop) :
    Option LaneForm :=
  some ⟨w, h, cls, ctr, n, useV [h.src0, h.src1, r2] h.dst,
    fun st i y => f (st.v h.src0.toNat i) (st.v h.src1.toNat i) (st.v r2.toNat i) y⟩

/-- A bit-field of n bits from bit o: only fields inside the word have a stated result (log entry 6). -/
def BfeResult (sgn : Bool) (x o n y : Word) : Prop :=
  o.toNat + n.toNat ≤ 32 → ∀ j, j < 32 → y.getLsbD j =
    (if j < n.toNat then x.getLsbD (o.toNat + j)
     else sgn && n.toNat ≠ 0 && x.getLsbD (o.toNat + n.toNat - 1))

/-- The low n bits of y0 replace the n bits of x from bit o. -/
def BfiResult (x y0 o n y : Word) : Prop :=
  o.toNat + n.toNat ≤ 32 → ∀ j, j < 32 → y.getLsbD j =
    (if o.toNat ≤ j && j < o.toNat + n.toNat then y0.getLsbD (j - o.toNat) else x.getLsbD j)

/-- The instructions of R105 that write one vector register per lane, and GMASK (R100). Every result is stated from
the operands, not from the meaning that computes it; the values of floating-point instructions are those of the
number formats (R50 to R52), the transcendental ones any value within the bound of R105. -/
def laneForm (i : Instr) : Option LaneForm :=
  match i with
  | .iadd w h => lane2 w h 0 0x012 1 (fun x z y => y.toNat = (x.toNat + z.toNat) % 2 ^ 32)
  | .isub w h => lane2 w h 0 0x012 1 (fun x z y => (y.toNat + z.toNat) % 2 ^ 32 = x.toNat)
  | .imin w h sgn => lane2 w h 0 0x012 1 (fun x z y =>
      if sgn then y.toInt = min x.toInt z.toInt else y.toNat = min x.toNat z.toNat)
  | .imax w h sgn => lane2 w h 0 0x012 1 (fun x z y =>
      if sgn then y.toInt = max x.toInt z.toInt else y.toNat = max x.toNat z.toNat)
  | .and w h => lane2 w h 0 0x012 1 (fun x z y => ∀ j, j < 32 → y.getLsbD j = (x.getLsbD j && z.getLsbD j))
  | .or w h => lane2 w h 0 0x012 1 (fun x z y => ∀ j, j < 32 → y.getLsbD j = (x.getLsbD j || z.getLsbD j))
  | .xor w h => lane2 w h 0 0x012 1 (fun x z y => ∀ j, j < 32 → y.getLsbD j = (x.getLsbD j != z.getLsbD j))
  | .not w h => lane1 w h 0 0x012 (fun x y => ∀ j, j < 32 → y.getLsbD j = !x.getLsbD j)
  | .shl w h => lane2 w h 0 0x012 1 (fun x z y => y.toNat = x.toNat * 2 ^ (z.toNat % 32) % 2 ^ 32)
  | .shr w h => lane2 w h 0 0x012 1 (fun x z y => y.toNat = x.toNat / 2 ^ (z.toNat % 32))
  | .sar w h => lane2 w h 0 0x012 1 (fun x z y => y.toInt = x.toInt / 2 ^ (z.toNat % 32))
  | .popc w h => lane1 w h 0 0x012 (fun x y => y.toNat = ((List.range 32).filter (fun j => x.getLsbD j)).length)
  | .clz w h => lane1 w h 0 0x012 (fun x y =>
      if x = 0 then y.toNat = 32 else y.toNat ≤ 31 ∧ x.toNat / 2 ^ (31 - y.toNat) = 1)
  | .brev w h => lane1 w h 0 0x012 (fun x y => ∀ j, j < 32 → y.getLsbD j = x.getLsbD (31 - j))
  | .bfe w h r2 sgn => lane3 w h 0 0x012 1 r2 (fun x o n y => BfeResult sgn x o n y)
  | .bfi w h r2 r3 => some ⟨w, h, 0, 0x012, 1, useV [h.src0, h.src1, r2, r3] h.dst, fun st i y =>
      BfiResult (st.v h.src0.toNat i) (st.v h.src1.toNat i) (st.v r2.toNat i) (st.v r3.toNat i) y⟩
  | .sel w h ps inv => some ⟨w, h, 0, 0x012, 1, { useV [h.src0, h.src1] h.dst with rp := [ps.toNat] }, fun st i y =>
      y = if bit (st.p ps.toNat).toNat i = !inv then st.v h.src0.toNat i else st.v h.src1.toNat i⟩
  | .mov w h (.reg r) => some ⟨w, h, 0, 0x012, 1, useV [r] h.dst, fun st i y => y = st.v r.toNat i⟩
  | .mov w h (.uni r) => some ⟨w, h, 0, 0x012, 1, { useV [] h.dst with ru := [r.val] }, fun st _ y =>
      y.toNat = (st.u r.val).toNat % 2 ^ 32⟩
  | .mov w h (.imm x) => some ⟨w, h, 0, 0x012, 1, useV [] h.dst, fun _ _ y => y = x⟩
  | .imad w h r2 => lane3 w h 0 0x012 1 r2 (fun x z c y => y.toNat = (x.toNat * z.toNat + c.toNat) % 2 ^ 32)
  | .imulHi w h sgn => lane2 w h 0 0x012 1 (fun x z y =>
      if sgn then y.toInt = x.toInt * z.toInt / 2 ^ 32 else y.toNat = x.toNat * z.toNat / 2 ^ 32)
  | .fadd w h => lane2 w h 1 0x010 1 (fun x z y => y = BitVec.ofNat 32 (fmtFP32.fadd x.toNat z.toNat))
  | .fmul w h => lane2 w h 1 0x010 1 (fun x z y => y = BitVec.ofNat 32 (fmtFP32.fmul x.toNat z.toNat))
  | .ffma w h r2 => lane3 w h 1 0x010 1 r2 (fun x z c y => y = BitVec.ofNat 32 (fmtFP32.ffma x.toNat z.toNat c.toNat))
  | .fmin w h => lane2 w h 1 0x010 1 (fun x z y => y = BitVec.ofNat 32 (fmtFP32.fmin x.toNat z.toNat))
  | .fmax w h => lane2 w h 1 0x010 1 (fun x z y => y = BitVec.ofNat 32 (fmtFP32.fmax x.toNat z.toNat))
  | .fabs w h => lane1 w h 1 0x010 (fun x y => y = BitVec.ofNat 32 (fmtFP32.fabs x.toNat))
  | .fneg w h => lane1 w h 1 0x010 (fun x y => y = BitVec.ofNat 32 (fmtFP32.fneg x.toNat))
  | .hadd2 w h => lane2 w h 1 0x011 2 (fun x z y => y = BitVec.ofNat 32 (packed fmtFP16.fadd x.toNat z.toNat))
  | .hmul2 w h => lane2 w h 1 0x011 2 (fun x z y => y = BitVec.ofNat 32 (packed fmtFP16.fmul x.toNat z.toNat))
  | .hfma2 w h r2 => lane3 w h 1 0x011 2 r2 (fun x z c y =>
      y = BitVec.ofNat 32 (packed3 fmtFP16.ffma x.toNat z.toNat c.toNat))
  | .rcp w h => lane1 w h 1 0x013 (fun x y => ∃ c, y = BitVec.ofNat 32 (fRcp x.toNat c))
  | .rsq w h => lane1 w h 1 0x013 (fun x y => ∃ c, y = BitVec.ofNat 32 (fRsq x.toNat c))
  | .sqrt w h => lane1 w h 1 0x013 (fun x y => ∃ c, y = BitVec.ofNat 32 (fSqrt x.toNat c))
  | .exp2 w h => lane1 w h 1 0x013 (fun x y => ∃ c, y = BitVec.ofNat 32 (fExp2 x.toNat c))
  | .log2 w h => lane1 w h 1 0x013 (fun x y => ∃ c, y = BitVec.ofNat 32 (fLog2 x.toNat c))
  | .sin w h => lane1 w h 1 0x013 (fun x y => ∃ c, y = BitVec.ofNat 32 (fTrig false x.toNat c))
  | .cos w h => lane1 w h 1 0x013 (fun x y => ∃ c, y = BitVec.ofNat 32 (fTrig true x.toNat c))
  | _ => none

/-! ### Compares -/

/-- A compare that writes a predicate of each executing lane: class, lane counter (none for a uniform compare), the
registers named, the predicate written, its bit. -/
structure CompareForm where
  site : Site
  hdr : Hdr
  cls : Nat
  ctr : Option Nat
  use : Use
  pd : Nat
  result : Str → Nat → Bool

def compareForm (i : Instr) : Option CompareForm :=
  match i with
  | .isetp w h c sgn pd => some ⟨w, h, 0, some 0x012, { use0 with rv := [h.src0.toNat, h.src1.toNat], wp := [pd.toNat] },
      pd.toNat, fun st i =>
        let x := st.v h.src0.toNat i
        let y := st.v h.src1.toNat i
        if sgn then cmpInt c x.toInt y.toInt else cmpInt c x.toNat y.toNat⟩
  | .fsetp w h c pd => some ⟨w, h, 1, some 0x010, { use0 with rv := [h.src0.toNat, h.src1.toNat], wp := [pd.toNat] },
      pd.toNat, fun st i =>
        cmpFlt c (fmtFP32.decode (st.v h.src0.toNat i).toNat) (fmtFP32.decode (st.v h.src1.toNat i).toNat)⟩
  | .usetp w h c sgn pd => some ⟨w, h, 2, none, { use0 with ru := [h.src0.toNat, h.src1.toNat], wp := [pd.toNat] },
      pd.toNat, fun st _ =>
        let x := st.u h.src0.toNat
        let y := st.u h.src1.toNat
        if sgn then cmpInt c x.toInt y.toInt else cmpInt c x.toNat y.toNat⟩
  | _ => none

/-! ### Uniform instructions -/

/-- An instruction that writes one uniform register: sources named, result. -/
structure UniformForm where
  site : Site
  hdr : Hdr
  reads : List Nat
  result : Str → Dword → Prop

def uni2 (w : Site) (h : Hdr) (f : Nat → Nat → Nat → Prop) : Option UniformForm :=
  some ⟨w, h, [h.src0.toNat, h.src1.toNat], fun st y => f (st.u h.src0.toNat).toNat (st.u h.src1.toNat).toNat y.toNat⟩

/-- The uniform ALU (R105). A shift by 64 or more has no stated result (log entry 6). -/
def uniformForm (i : Instr) : Option UniformForm :=
  match i with
  | .uadd w h => uni2 w h (fun x z y => y = (x + z) % 2 ^ 64)
  | .usub w h => uni2 w h (fun x z y => (y + z) % 2 ^ 64 = x)
  | .umul w h => uni2 w h (fun x z y => y = x * z % 2 ^ 64)
  | .uand w h => uni2 w h (fun x z y => ∀ j, bit y j = (bit x j && bit z j))
  | .uor w h => uni2 w h (fun x z y => ∀ j, bit y j = (bit x j || bit z j))
  | .uxor w h => uni2 w h (fun x z y => ∀ j, bit y j = (bit x j != bit z j))
  | .ushl w h => uni2 w h (fun x z y => z < 64 → y = x * 2 ^ z % 2 ^ 64)
  | .ushr w h => uni2 w h (fun x z y => z < 64 → y = x / 2 ^ z)
  | .umov w h (.uni r) => some ⟨w, h, [r.val], fun st y => y = st.u r.val⟩
  | .umov w h (.imm x) => some ⟨w, h, [], fun _ y => y = x⟩
  | _ => none

/-! ### Every string instruction -/

/-- The site that a string instruction issues from; none for every other command. -/
def issueSite (i : Instr) : Option Site :=
  match i with
  | .iadd w _ | .isub w _ | .and w _ | .or w _ | .xor w _ | .not w _ | .shl w _ | .shr w _ | .sar w _ | .popc w _
  | .clz w _ | .brev w _ | .fadd w _ | .fmul w _ | .fmin w _ | .fmax w _ | .fabs w _ | .fneg w _ | .hadd2 w _
  | .hmul2 w _ | .rcp w _ | .rsq w _ | .sqrt w _ | .exp2 w _ | .log2 w _ | .sin w _ | .cos w _ | .uadd w _
  | .usub w _ | .umul w _ | .uand w _ | .uor w _ | .uxor w _ | .ushl w _ | .ushr w _ | .rqInit w _
  | .rqConfirm w _ | .rqGenhit w _ | .rqTerminate w _ => some w
  | .bra w _ _ | .jmp w _ _ | .call w _ _ | .calli w _ _ | .exit w _ _ | .join w _ _ | .yield w _ _ | .sleep w _ _
  | .gmask w _ _ | .trap w _ _ | .nop w _ _ | .barSync w _ _ | .barArrive w _ _ | .barWait w _ _ | .shfl w _ _
  | .vote w _ _ | .fence w _ _ | .atomAdd w _ _ | .atomSmin w _ _ | .atomUmin w _ _ | .atomSmax w _ _
  | .atomUmax w _ _ | .atomAnd w _ _ | .atomOr w _ _ | .atomXor w _ _ | .atomExch w _ _ | .atomCas w _ _
  | .atomInc w _ _ | .atomDec w _ _ | .atomFadd w _ _ | .atomFmin w _ _ | .atomFmax w _ _ | .alloc w _ _
  | .free w _ _ | .imin w _ _ | .imax w _ _ | .mov w _ _ | .imad w _ _ | .imulHi w _ _ | .ffma w _ _
  | .hfma2 w _ _ | .umov w _ _ | .cvt w _ _ | .tmma w _ _ | .tfill w _ _ | .tspill w _ _ | .tcvt w _ _
  | .twait w _ _ | .rqProceed w _ _ | .pqKnn w _ _ | .pqRadius w _ _ | .tldr w _ _ | .tstr w _ _ => some w
  | .bfe w _ _ _ | .bfi w _ _ _ | .sel w _ _ _ | .fsetp w _ _ _ | .st w _ _ _ | .tex w _ _ _ | .texb w _ _ _
  | .texl w _ _ _ | .texg w _ _ _ | .tld w _ _ _ | .tg4 w _ _ _ | .tq w _ _ _ => some w
  | .isetp w _ _ _ _ | .usetp w _ _ _ _ | .ld w _ _ _ _ | .rqGet w _ _ _ _ | .tla w _ _ _ _ | .tsa w _ _ _ _ => some w
  | _ => none

/-- The string at a site issues nothing now (R75, R77, R79): there is none, it is not ready, its active group is blocked
or out of budget, another string of its slot comes first, or its engine does not run. -/
def CannotIssue (s : State) (w : Site) : Prop :=
  s.working = false ∨ s.frozen w.engine.val = true ∨
  ∀ st, s.str? w.engine.val w.place.val = some st →
    st.state ≠ .ready ∨ (s.eng w.engine.val).chosen w.place.val st = false
    ∨ ∀ g rest, st.groups = g :: rest → g.block ≠ .open ∨ g.budget = 0

/-! ### Control flow and barriers -/

/-- Lane i is in a group that stands at a program counter. -/
def LaneAt (st : Str) (i : Nat) (pc : Dword) : Prop := ∃ g ∈ st.groups, bit g.mask.toNat i = true ∧ g.pc = pc

/-- Every lane of the groups stands where it stood. -/
def LanesKept (gs : List Group) (st' : Str) : Prop :=
  ∀ g ∈ gs, ∀ i, bit g.mask.toNat i = true → LaneAt st' i g.pc

/-- The active group has given way (R81): the first open group of the round-robin order is active with a budget of 64
(the group itself where no other is open), and every lane keeps its program counter. -/
def GaveWay (st' : Str) (g : Group) (rest : List Group) : Prop :=
  st'.state = .ready ∧ LanesKept (g :: rest) st'
  ∧ ∃ hd tl, st'.groups = hd :: tl ∧ hd.budget = 64
    ∧ (∀ pre x post, rest = pre ++ x :: post → (∀ y ∈ pre, y.block ≠ .open) → x.block = .open → hd.pc = x.pc)
    ∧ ((∀ y ∈ rest, y.block ≠ .open) → hd.pc = g.pc)

/-- The command of a dispatch has stopped with an error (R97): its strings on the engine are gone, and its record, if it
had not ended, holds the error and its detail. -/
def Stopped (s t : State) (e q cmd err detail : Nat) : Prop :=
  (∀ p st, t.str? e p = some st → ¬ (st.queue = q ∧ st.cmd = cmd))
  ∧ ∀ c, s.cmd? q cmd = some c → (∀ x, c.st ≠ .ended x) →
      t.cmd? q cmd = some { c with st := .ended err, detail := BitVec.ofNat 64 detail }

/-- Local memory, host, queues but their commands, and every engine other than e are as before. -/
def MemoryKept (s t : State) : Prop := ∀ a, memGet t.mem.cells a = memGet s.mem.cells a

/-- Barrier b of a workgroup after n threads have arrived with an expected-count field (R84): its count, and the count
that completes it. -/
def Wg.arrived (g : Wg) (b n : Nat) : Nat := (mgetD g.bars b { count := 0, expected := none }).count + n
def Wg.awaited (g : Wg) (b field : Nat) : Nat :=
  let x := if field = 0 then g.threads else field
  (match (mgetD g.bars b { count := 0, expected := none }).expected with | some z => min z x | none => x)

/-- No barrier of the workgroup stands at its count. -/
def Wg.waiting (g : Wg) : Prop := ∀ b, g.reached b = false

/-! ### Memory instructions -/

/-- The state in which an instruction that has issued runs: counted, the string's promotion lost (R77, R545). -/
def State.issued (s : State) (w : Site) (cls : Nat) (st : Str) : State :=
  ((s.bump blkCE w.engine.val cls 1).progress w.engine.val 1).setStr w.engine.val w.place.val { st with promoted := none }

/-- The state in which a load or store translates its lanes, and the one in which an atomic does. -/
def State.accessing (s : State) (w : Site) (h : Hdr) (st : Str) (g : Group) : State :=
  (s.issued w 4 st).bump blkCE w.engine.val 0x015 (laneCount st g h)
def State.combining (s : State) (w : Site) (h : Hdr) (st : Str) (g : Group) : State :=
  ((s.issued w 7 st).bump blkCE w.engine.val 0x016 (laneCount st g h)).drew 32

/-- Every local line that the L1 of an engine holds agrees with memory. -/
def L1Agrees (s : State) (e : Nat) : Prop :=
  ∀ k l, mget (s.eng e).l1 k = some l → l.line < 2 ^ 33 → l.data = memRead s.mem.cells (128 * l.line) 128

/-- Every lane's bytes lie in unpoisoned local memory at a natural address. -/
def LanesLocal (s : State) (l : List LaneAddr) (n : Nat) : Prop :=
  ∀ x ∈ l, x.target = 0 → x.pa % n = 0 ∧ x.pa + n ≤ s.mem.capacity ∧ s.mem.poisoned x.pa n = false

/-- The operation of an atomic instruction. -/
def atomForm (i : Instr) : Option (AtomOp × Site × Hdr × BitVec 26) :=
  match i with
  | .atomAdd w h low => some (.add, w, h, low) | .atomSmin w h low => some (.smin, w, h, low)
  | .atomUmin w h low => some (.umin, w, h, low) | .atomSmax w h low => some (.smax, w, h, low)
  | .atomUmax w h low => some (.umax, w, h, low) | .atomAnd w h low => some (.and, w, h, low)
  | .atomOr w h low => some (.or, w, h, low) | .atomXor w h low => some (.xor, w, h, low)
  | .atomExch w h low => some (.exch, w, h, low) | .atomCas w h low => some (.cas, w, h, low)
  | .atomInc w h low => some (.inc, w, h, low) | .atomDec w h low => some (.dec, w, h, low)
  | .atomFadd w h low => some (.fadd, w, h, low) | .atomFmin w h low => some (.fmin, w, h, low)
  | .atomFmax w h low => some (.fmax, w, h, low)
  | _ => none

/-- The registers of an atomic of n bytes (R102). -/
def atomUse (op : AtomOp) (h : Hdr) (low : BitVec 26) (n : Nat) (shared : Bool) : Use :=
  let k := n / 4
  let ua := useAddr shared h.src0
  { ua with
    rv := ua.rv ++ regs h.src1.toNat k ++ (if op = .cas then regs (bits low.toNat 15 8) k else [])
    wv := if bit low.toNat 17 then regs h.dst.toNat k else []
    ok := ua.ok && (k = 1 || h.src1.toNat % 2 = 0) && (op ≠ .cas || k = 1 || bits low.toNat 15 8 % 2 = 0)
      && (!bit low.toNat 17 || k = 1 || h.dst.toNat % 2 = 0) }

/-- Source and compare operands of a lane. -/
def atomLane (st : Str) (h : Hdr) (low : BitVec 26) (n i : Nat) : Nat × Nat × Nat :=
  (i, st.vn h.src1.toNat i (n / 4), st.vn (bits low.toNat 15 8) i (n / 4))

/-- What the lanes of one address leave in memory and return: one after another in ascending lane order, or, where they
are combined, the same but for the sums of a floating-point add, whose order is free (R89 to R92). -/
def AtomOutcome (op : AtomOp) (low : BitVec 26) (old : Nat) (lanes : List (Nat × Nat × Nat)) (v : Nat)
    (rets : List (Nat × Nat)) : Prop :=
  ∃ free, (v, rets) = if bit low.toNat 16 then atomSerial op (bits low.toNat 25 24) old lanes
    else atomCombined op (bits low.toNat 25 24) old free lanes

/-! ### Texture, ray and point instructions -/

/-- A texture instruction: operands, registers of SRC1, whether it names a sampler, and what a lane fetches. -/
structure TexForm where
  site : Site
  hdr : Hdr
  ops : TexOps
  ext : Option (List Byte)
  extra : Nat
  sampler : Bool
  plan : Act → State → TexEnv → TexFmt → Nat → TexPlan

/-- The instructions of R405 but TQ. -/
def texForm (i : Instr) : Option TexForm :=
  match i with
  | .tex w h t x => some ⟨w, h, t, x, 0, true, fun a s v f i => texSample s a v f i (quadLod s a i) 0 true⟩
  | .texb w h t x => some ⟨w, h, t, x, 1, true, fun a s v f i =>
      texSample s a v f i (quadLod s a i) (lodOf (a.str.v h.src1.toNat i).toNat (s.peek (32 * i + 11))) true⟩
  | .texl w h t x => some ⟨w, h, t, x, 1, true, fun a s v f i =>
      texSample s a v f i (lodOf (a.str.v h.src1.toNat i).toNat (s.peek (32 * i + 11))) 0 false⟩
  | .texg w h t x => some ⟨w, h, t, x, 6, true, fun a s v f i =>
      let zero := (List.range 6).all (fun k => (a.str.v (h.src1.toNat + k) i).toNat % 2 ^ 31 = 0)
      texSample s a v f i (if zero then -(2 ^ 20) else (s.peek (32 * i + 10) : Int) % 2 ^ 20 - 2 ^ 19) 0 true⟩
  | .tld w h t x => some ⟨w, h, t, x, 1, false, fun a _ v f i =>
      let d := v.img
      let c := a.coords i
      let l := (a.str.v h.src1.toNat i).toNat
      let n := if d.type = 1 then 3 else if d.type = 3 then 1 else 2
      let x := c.getD 0 0
      let y := if n ≤ 1 then 0 else c.getD 1 0
      let z := if n ≤ 2 then 0 else c.getD 2 0
      let layer := if d.array || d.type = 2 then c.getD n 0 else 0
      if d.levels ≤ l || d.w l ≤ x || d.h l ≤ y || d.z l ≤ z || d.layers ≤ layer then TexPlan.open
      else match d.addr f x y z layer l with
        | some q => { texels := [some q], exact := true, gather := false, taps := 1 }
        | none => TexPlan.open⟩
  | .tg4 w h t x => some ⟨w, h, t, x, 0, true, fun a s v f i =>
      match texPoint v.img (a.coords i) with
      | some pt =>
        if v.img.type = 1 || v.img.type = 3 then TexPlan.open
        else { texels := v.img.gather f v.smp pt (fun k => s.peek (32 * i + k)), exact := false, gather := true, taps := 1 }
      | none => TexPlan.open⟩
  | _ => none

/-- What lane i of a texture instruction fetches from an environment: nothing where the image states no texels. -/
def TexForm.planAt (f : TexForm) (a : Act) (s : State) (v : TexEnv) (i : Nat) : TexPlan :=
  match v.fmt with
  | some x => if v.img.stated then f.plan a s v x i else TexPlan.open
  | none => TexPlan.open

/-- Addresses that the lanes fetch from. -/
def TexForm.fetches (f : TexForm) (a : Act) (s : State) (v : TexEnv) : List (Nat × Nat) :=
  ((lanesOf a.lanes).map (fun i => (f.planAt a s v i).texels.filterMap (fun x => x.map (fun y => (i, y.1))))).flatten

/-- What an instruction that reads memory on behalf of its lanes can leave behind: its results in the n registers from
DST with the group gone on; the string parked at the instruction with no result; the dispatch stopped; or, where a
walk of a structure does not end, nothing. -/
def ReadOutcome (s t : State) (w : Site) (h : Hdr) (st : Str) (g : Group) (rest : List Group) (n : Nat) : Prop :=
  (∃ st', t.str? w.engine.val w.place.val = some st' ∧ Advanced st st' g rest ∧ st'.preds = st.preds ∧ st'.uregs = st.uregs
    ∧ (∀ r i, i < 32 → (¬ Executes st g h i ∨ r < h.dst.toNat ∨ h.dst.toNat + n ≤ r) → st'.v r i = st.v r i))
  ∨ (∃ st' id, t.str? w.engine.val w.place.val = some st' ∧ st'.state = .parked id ∧ st'.groups = st.groups
    ∧ st'.vregs = st.vregs ∧ st'.preds = st.preds ∧ st'.uregs = st.uregs)
  ∨ (∃ err, (err = 0x0102 ∨ err = 0x0108) ∧ Stopped s t w.engine.val st.queue st.cmd err 0)
  ∨ t = s

/-- The record areas of the executing lanes lie inside the workgroup's shared memory and do not overlap. -/
def RecordsApart (v : Wg) (st : Str) (g : Group) (h : Hdr) : Prop :=
  (∀ i, Executes st g h i → (st.v h.src0.toNat i).toNat + 512 ≤ v.sharedSize)
  ∧ ∀ i j, Executes st g h i → Executes st g h j → i ≠ j →
      (st.v h.src0.toNat i).toNat + 512 ≤ (st.v h.src0.toNat j).toNat
      ∨ (st.v h.src0.toNat j).toNat + 512 ≤ (st.v h.src0.toNat i).toNat

/-- An instruction that changes the ray-query records of its lanes: registers, and the record after. -/
def recordForm (i : Instr) : Option (Site × Hdr × Use × (Act → Nat → Rq → Rq)) :=
  match i with
  | .rqInit w h => some (w, h, { use0 with rv := h.src0.toNat :: regs h.src1.toNat 12 }, fun a i _ =>
      let v := fun (k : Nat) => (a.str.v (h.src1.toNat + k) i).toNat
      { origin := (v 2, v 3, v 4), dir := (v 5, v 6, v 7), tmin := v 8, tmax := v 9, flags := v 10 % 1024 &&& 0x3F7
        committed := 0, candidate := 0, malformed := false, mask := v 11 % 256, stack := [v 0 + v 1 * 2 ^ 32], inst := 0
        comNode := 0, comInst := 0, canNode := 0, canT := 0 })
  | .rqConfirm w h => some (w, h, { use0 with rv := [h.src0.toNat] }, fun _ _ r =>
      if r.candidate = 1 then r.commit 1 r.canNode r.canT else r)
  | .rqGenhit w h => some (w, h, { use0 with rv := [h.src0.toNat, h.src1.toNat] }, fun a i r =>
      if r.candidate = 2 then r.commit 2 r.canNode (a.str.v h.src1.toNat i).toNat else r)
  | .rqTerminate w h => some (w, h, { use0 with rv := [h.src0.toNat] }, fun _ _ r =>
      { r with stack := [], candidate := 0, inst := 0 })
  | _ => none

end Sys2Proof.Machine
end

