-- ==== Sys2Proof/Safety/Served.lean ====
section
/-! DEFINITION. When a mailbox request reaches its command (R282, R293), what an answer to it changes (R261, R280, R282,
R291, R292), and how records, interrupts and faults show afterwards, as relations between the state before and after. -/

namespace Sys2Proof.Machine

/-- A mailbox command (R298): the pair, the opcode, and the parameter that tells two rows of one opcode apart. -/
structure MbxRow where
  pair : Fin 8
  op : Nat
  mine : List Byte → Bool

/-- The mailbox commands. -/
def mbxRow (i : Instr) : Option MbxRow :=
  match i with
  | .sessionOpen pair => some ⟨pair, 0x0001, fun _ => true⟩
  | .sessionAuth pair _ => some ⟨pair, 0x0002, fun _ => true⟩
  | .sessionClose pair => some ⟨pair, 0x0003, fun _ => true⟩
  | .ping pair => some ⟨pair, 0x0004, fun _ => true⟩
  | .regRead pair => some ⟨pair, 0x0010, fun _ => true⟩
  | .regWrite pair => some ⟨pair, 0x0011, fun _ => true⟩
  | .queueCreate pair => some ⟨pair, 0x0101, fun _ => true⟩
  | .queueDestroy pair => some ⟨pair, 0x0102, fun _ => true⟩
  | .queueRestart pair => some ⟨pair, 0x0103, fun _ => true⟩
  | .eventAlloc pair => some ⟨pair, 0x0110, fun _ => true⟩
  | .eventFree pair => some ⟨pair, 0x0111, fun _ => true⟩
  | .eventBind pair => some ⟨pair, 0x0112, fun _ => true⟩
  | .partitionSet pair => some ⟨pair, 0x0201, fun _ => true⟩
  | .convoyCreate pair => some ⟨pair, 0x0202, fun _ => true⟩
  | .convoyDestroy pair => some ⟨pair, 0x0203, fun _ => true⟩
  | .convoySetShare pair => some ⟨pair, 0x0204, fun _ => true⟩
  | .convoySetTimed pair _ => some ⟨pair, 0x0205, fun _ => true⟩
  | .contextRead pair => some ⟨pair, 0x0206, fun _ => true⟩
  | .asidCreate pair => some ⟨pair, 0x0301, fun _ => true⟩
  | .asidDestroy pair => some ⟨pair, 0x0302, fun _ => true⟩
  | .mmuSetFaultRingEnable pair => some ⟨pair, 0x0303, fun b => getLe b 0x11 1 ≠ 0⟩
  | .mmuSetFaultRingDisable pair => some ⟨pair, 0x0303, fun b => getLe b 0x11 1 = 0⟩
  | .faultResolveRetry pair => some ⟨pair, 0x0304, fun b => (getLe b 0x14 1 = 0 || 2 < getLe b 0x14 1)⟩
  | .faultResolveDecline pair => some ⟨pair, 0x0304, fun b => getLe b 0x14 1 = 1⟩
  | .faultResolveAbort pair => some ⟨pair, 0x0304, fun b => getLe b 0x14 1 = 2⟩
  | .objCreate pair _ => some ⟨pair, 0x0310, fun _ => true⟩
  | .objAlias pair => some ⟨pair, 0x0311, fun _ => true⟩
  | .objFree pair => some ⟨pair, 0x0312, fun _ => true⟩
  | .objQuery pair => some ⟨pair, 0x0313, fun _ => true⟩
  | .heapCreate pair => some ⟨pair, 0x0320, fun _ => true⟩
  | .heapAdd pair => some ⟨pair, 0x0321, fun _ => true⟩
  | .heapDestroy pair => some ⟨pair, 0x0322, fun _ => true⟩
  | .heapQuery pair => some ⟨pair, 0x0323, fun _ => true⟩
  | .l2SetStrongroom pair => some ⟨pair, 0x0330, fun _ => true⟩
  | .drcConfigure pair => some ⟨pair, 0x0401, fun _ => true⟩
  | .drcRetrain pair => some ⟨pair, 0x0402, fun _ => true⟩
  | .eccLogRead pair => some ⟨pair, 0x0403, fun _ => true⟩
  | .eccLogClear pair => some ⟨pair, 0x0404, fun _ => true⟩
  | .dspPipeSet pair _ => some ⟨pair, 0x0501, fun _ => true⟩
  | .dspPipeEnableOn pair => some ⟨pair, 0x0502, fun b => getLe b 0x11 1 ≠ 0⟩
  | .dspPipeEnableOff pair => some ⟨pair, 0x0502, fun b => getLe b 0x11 1 = 0⟩
  | .dspLayerSet pair _ => some ⟨pair, 0x0503, fun _ => true⟩
  | .dspScalerLoad pair _ => some ⟨pair, 0x0504, fun _ => true⟩
  | .cvlRouteSet pair _ => some ⟨pair, 0x0701, fun _ => true⟩
  | .cvlMemberAdmit pair => some ⟨pair, 0x0702, fun b => getLe b 0x11 1 ≠ 1⟩
  | .cvlMemberRemove pair => some ⟨pair, 0x0702, fun b => getLe b 0x11 1 = 1⟩
  | .sampleRingSetEnable pair _ => some ⟨pair, 0x0A01, fun b => getLe b 0x11 1 ≠ 0⟩
  | .sampleRingSetDisable pair => some ⟨pair, 0x0A01, fun b => getLe b 0x11 1 = 0⟩
  | .fltRead pair => some ⟨pair, 0x0801, fun _ => true⟩
  | .logbookRead pair => some ⟨pair, 0x0802, fun _ => true⟩
  | .fltPolicySet pair => some ⟨pair, 0x0803, fun _ => true⟩
  | .unitFence pair => some ⟨pair, 0x0804, fun _ => true⟩
  | .unitReadmit pair _ => some ⟨pair, 0x0805, fun _ => true⟩
  | .errnSet pair => some ⟨pair, 0x0806, fun _ => true⟩
  | .pwrHalt pair => some ⟨pair, 0x0901, fun _ => true⟩
  | .pwrLimitSet pair => some ⟨pair, 0x0902, fun _ => true⟩
  | .settingGet pair => some ⟨pair, 0x0903, fun _ => true⟩
  | .settingSet pair => some ⟨pair, 0x0904, fun _ => true⟩
  | .storeSettings pair => some ⟨pair, 0x0905, fun _ => true⟩
  | .fwStage pair _ => some ⟨pair, 0x0910, fun _ => true⟩
  | .fwActivate pair => some ⟨pair, 0x0911, fun _ => true⟩
  | .ucodeUpdate pair _ => some ⟨pair, 0x0912, fun _ => true⟩
  | .recalibrate pair => some ⟨pair, 0x0913, fun _ => true⟩
  | .keySet pair _ => some ⟨pair, 0x0920, fun _ => true⟩
  | .diagOpen pair => some ⟨pair, 0x0921, fun _ => true⟩
  | .debugUnlock pair => some ⟨pair, 0x0922, fun _ => true⟩
  | .calWrite pair _ => some ⟨pair, 0x0923, fun _ => true⟩
  | .fuseWrite pair => some ⟨pair, 0x0924, fun _ => true⟩
  | _ => none

/-- A request of this row waits on its pair and can be taken now: the firmware listens (R259, R536), and no earlier
response is held (R282). -/
structure Asked (s : State) (m : MbxRow) (r : Req) : Prop where
  listens : s.up = true ∧ s.fw.mbxReady = true ∧ s.fw.updating = false ∧ s.halted = false
  posted : (s.mbx m.pair.val).reqPending = true
  unheld : (s.mbx m.pair.val).held = none
  body : r.body = (s.mbx m.pair.val).req
  pair : r.pair = m.pair.val
  opcode : getLe r.body 0 2 = m.op ∧ r.op = m.op
  row : m.mine r.body = true
  tag : r.tag = getLe r.body 2 2
  session : r.session = getLe r.body 4 4
  proto : r.proto = getLe r.body 8 1

/-- The request passes checks 1 and 2 of R293. -/
structure WellFramed (s : State) (m : MbxRow) (r : Req) : Prop extends Asked s m r where
  revision : 1 ≤ r.proto ∧ r.proto ≤ 3
  check : 2 ≤ r.proto → getLe r.body 0x0C 4 = frameCrc r.body

/-- It belongs to an open session of its revision and is no repeat (checks 3 to 5). -/
structure InSession (s : State) (m : MbxRow) (r : Req) (x : Session) : Prop extends WellFramed s m r where
  opened : s.session? r.session = some x
  agreed : r.proto = x.rev
  role : r.role = x.role
  new : ∀ k ∈ x.kept, k.tag ≠ r.tag

/-- It reaches its command: authenticated, of the session's revision and role, not shut out by a fatal fault (R490), with
every reserved byte 0 (checks 6 to 9, but for the ranges of the parameters). -/
structure Served (s : State) (m : MbxRow) (r : Req) (x : Session) : Prop extends InSession s m r x where
  authed : x.authed = true ∨ m.op = 0x0002 ∨ m.op = 0x0003
  known : ∃ c, catalogue m.op = some c ∧ c.rev ≤ x.rev ∧ x.role ∈ c.roles ∧ c.reservedZero r.body = true
  alive : s.flt.fatal = false ∨ m.op ∈ fatalOpcodes

/-- The request waits for the command i and reaches it. -/
def Serves (i : Instr) (s : State) (r : Req) (x : Session) : Prop := ∃ m, mbxRow i = some m ∧ Served s m r x

/-- An interrupt of a vector: its message has left, waits in D3hot or Halt, or its pending bit is set (R271). -/
def Raised (s t : State) (v : Nat) : Prop :=
  if (s.msix v).masked || s.host.functionMask then v ∈ t.host.pendingBits
  else if s.host.d3hot || s.halted then OutMsg.msix v (s.msix v).addr (s.msix v).data ∈ t.host.waitOut
  else OutMsg.msix v (s.msix v).addr (s.msix v).data ∈ t.host.out

/-- A logbook record of a type with its arguments is in the writer's queue, where it had room (R497, R498). -/
def Recorded (s t : State) (type a0 a1 a2 : Nat) : Prop :=
  s.logbook.queue.length ≤ 12 → ∃ l ∈ t.logbook.queue, l.type = type ∧ l.arg0 = BitVec.ofNat 64 a0
    ∧ l.arg1 = BitVec.ofNat 64 a1 ∧ l.arg2 = BitVec.ofNat 64 a2 ∧ l.stamp = s.aclk

/-- A fault has a record of the collector: a new one, the next of its number, or one more count of a corrected fault of
less than 65,536 ACLK ago (R482 to R484). -/
def Reported (s t : State) (code kind index addr info : Nat) : Prop :=
  (∃ n r q, mget s.flt.records n = some r ∧ mget t.flt.records n = some q ∧ r.code = code ∧ r.unitKind = kind
      ∧ r.index = index ∧ r.cls = 0 ∧ s.aclk < r.stamp + 65536 ∧ q = { r with count := min (r.count + 1) (2 ^ 32 - 1) })
  ∨ (∃ r, mget t.flt.records s.flt.next.toNat = some r ∧ r.code = code ∧ r.unitKind = kind ∧ r.index = index
      ∧ r.addr = BitVec.ofNat 64 addr ∧ r.info = BitVec.ofNat 64 info ∧ r.count = 1 ∧ r.stamp = s.aclk)

/-- What the answer to a request changes beside the effect of its command, u being the state with that effect alone: the
response frame reaches the response buffer, or is held behind one that has not been acknowledged; the session keeps it;
nothing differs otherwise but messages toward the host, cookie rings and the logbook's queue. -/
structure Responds (u t : State) (r : Req) (keeps : Bool) (status flags err : Nat) (res : List Byte) : Prop where
  delivered : (u.mbx r.pair).rspReady = false → Raised u t r.pair
    ∧ t.mbx r.pair = { u.mbx r.pair with
        rsp := response r.op r.tag r.session r.proto status flags err res, rspReady := true, reqPending := false,
        held := none }
  waits : (u.mbx r.pair).rspReady = true → t.mbx r.pair =
    { u.mbx r.pair with held := some (response r.op r.tag r.session r.proto status flags err res) }
  pairs : ∀ n, n ≠ r.pair → t.mbx n = u.mbx n
  sessions : ∀ n, t.session? n = if keeps = true ∧ n = r.session then (u.session? n).map (fun y => y.keep
      { tag := r.tag, crc := BitVec.ofNat 32 (frameCrc r.body), rsp := response r.op r.tag r.session r.proto status flags err res,
        running := status = 2, fetched := status ≠ 2 }) else u.session? n
  host : { t.host with pairs := u.host.pairs, rings := u.host.rings, pendingBits := u.host.pendingBits,
                       out := u.host.out, waitOut := u.host.waitOut } = u.host
  fw : { t.fw with sessions := u.fw.sessions } = u.fw
  rest : { t with host := u.host, fw := u.fw, logbook := u.logbook } = u

/-- The command succeeds: S_OK, a result, and the effect u. -/
def Succeeds (i : Instr) (s u : State) (r : Req) (flags : Nat) (res : List Byte) : Prop :=
  ∃ t, exec i s = .next t ∧ Responds u t r true 0 flags 0 res

/-- The command fails with an error and has no other effect. -/
def FailsWith (i : Instr) (s : State) (r : Req) (err : Nat) : Prop :=
  ∃ t, exec i s = .next t ∧ Responds s t r true 1 0 err (zeros 48)

/-- The state in which a long operation of a request runs, with the data that it holds (R292). -/
def State.withLong (s : State) (r : Req) (data : List Byte) : State :=
  { s with fw := { s.fw with longOps := s.fw.longOps ++
      [{ opcode := r.op, pair := r.pair, session := r.session, tag := r.tag, rev := r.proto, role := r.role,
         params := r.body.drop 0x10, data := data }] } }

/-- The command starts a long operation: S_IN_PROGRESS, and the effect u with the operation in it (R292). -/
def StartsLong (i : Instr) (s u : State) (r : Req) : Prop :=
  ∃ t, exec i s = .next t ∧ Responds u t r true 2 0 0 (zeros 48)

/-- The error of a long operation that may not start (R292, R536). -/
def longErr (s : State) (r : Req) : Nat :=
  if 4 ≤ (s.fw.longOps.filter (fun l => l.session = r.session)).length then 0x0012 else 0x000D

/-- A session may start a long operation of this opcode now (R292, R536). -/
def MayStartLong (s : State) (r : Req) : Prop :=
  (s.fw.longOps.filter (fun l => l.session = r.session)).length < 4
  ∧ ∀ l ∈ s.fw.longOps, l.opcode ≠ r.op ∧ l.opcode ≠ 0x0911

/-- A request on the host link is performed at once and changes nothing of the power state: the window is open, the
device neither in Halt nor in Rest, and no drain is in progress (R253, R255, R511, R512). -/
structure HostOpen (s : State) : Prop where
  window : s.windowOpen = true
  awake : s.halted = false
  run : s.power.st = .run
  steady : s.power.drain = false

/-- A message leaves on the host link at once. -/
def State.sent (s : State) (m : OutMsg) : State := { s with host := { s.host with out := m :: s.host.out } }

/-- A write has been lost (R269): counted, its offset kept for BAR0, and announced on vector 9. -/
def WriteLost (s t : State) (off : Nat) : Prop :=
  t.host.writeLost = satInc s.host.writeLost ∧ t.host.lastLost = BitVec.ofNat 32 off ∧ { t with host := s.host } = s
  ∧ (s.flt.fatal = false → Raised s t 9)

/-- The device is in the fatal state (R490, R495): FATAL, ERR_N held, and every unit's work gone. -/
def IsFatal (t : State) : Prop :=
  t.flt.fatal = true ∧ t.flt.held = true ∧ t.pins.errN = true ∧ t.engines = [] ∧ t.jobs = [] ∧ t.passes = []

/-- Every fence that has been entered has taken effect. -/
def FencesApplied (s : State) : Prop := ∀ p ∈ s.flt.fences, p.2.applied = true

/-- The leaf entry, with its level, that the tables of local memory give for an address from a table of a level down
(R185, R187, R192). -/
def Mem.leafOf (m : Mem) (self va table : Nat) : Nat → Option (Nat × Nat)
  | 0 => none
  | n + 1 =>
    let a := table + 8 * (va / 2 ^ (12 + 9 * n) % 512)
    let pte := memLe m.cells a 8
    if m.whereIs a ≠ .dram || m.poisoned a 8 || pte % 2 = 0 || pteMalformed n pte self then none
    else if pte / 2 % 2 = 1 then some (n, pte)
    else m.leafOf self va (bits pte 39 12 * 4096) n

/-- The work of a command is over with an error, 0 for none; every other command of every queue is as it was. -/
def CmdEnds (s t : State) (q : Nat) (c : Cmd) (err : Nat) : Prop :=
  t.cmd? q c.index = some { c with st := .ended err, detail := 0 }
  ∧ ∀ k n, (k, n) ≠ (q, c.index) → t.cmd? k n = s.cmd? k n

/-- A command has started and is not over; every other command of every queue is as it was. -/
def CmdStarts (s t : State) (q : Nat) (c : Cmd) : Prop :=
  t.cmd? q c.index = some { c with st := .started } ∧ ∀ k n, (k, n) ≠ (q, c.index) → t.cmd? k n = s.cmd? k n

end Sys2Proof.Machine
end

