-- ==== Sys2Proof/WellFormed.lean ====
section
/-! DEFINITION. Which commands are of the form their row takes: the lengths and ranges of operands that the types leave
open. A command that is not well-formed could not have been sent. -/

namespace Sys2Proof

/-- A caravan message (R462): die numbers, tag, SIZE and hop count in their fields; as much data as its TYPE carries. -/
def CvlMsg.formed (m : CvlMsg) (lengths : List Nat) : Bool :=
  m.dst < 8 && m.src < 8 && m.tag < 4096 && m.addr < 2 ^ 40 && m.aux < 2 ^ 32 && m.size < 4 && m.hops < 4
  && lengths.contains m.data.length

/-- The world that boot meets (R242, R459). -/
def BootWorld.formed (w : BootWorld) : Bool :=
  w.modules ≤ 4 && [64, 32, 16, 8].contains w.lanes && [4, 8, 12, 16, 24, 32].contains w.rate
  && (w.ucieRev = 0x11 || w.ucieRev = 0x20) && w.ports.length = 4

/-- Readings of the 48 sensors, signed 16-bit in units of 1/16 °C (R565, R568). -/
def readingsFormed (l : List Int) : Bool := l.length = 48 && l.all (fun t => -32768 ≤ t && t ≤ 32767)

/-- An AtomicOp of PCIe: FetchAdd, Swap or CAS at a naturally aligned offset (R251). -/
def atomicFormed (offset : Nat) (op : AtomOp) (wide : Bool) : Bool :=
  (op = .add || op = .exch || op = .cas) && offset % (if wide then 8 else 4) = 0

/-- The commands whose operands the model itself must see formed: `exec` stops on the others, and on no other command. -/
def Instr.formed : Instr → Bool
  | .flitReceive _ flit => flit.length = 256
  | .sensorSample temps => readingsFormed temps
  | .bootStart results world => results.length ≤ 24 && world.formed
  | .apertureAtomic offset op wide _ _ => atomicFormed offset op wide
  | _ => true

/-- Operands in the fields that carry them: caravan messages (R462), completions (R247), fault reports (R483). -/
def Instr.inRange : Instr → Bool
  | .rdReq _ m => m.formed [0]
  | .event _ m => m.formed [16]
  | .wr _ m => m.formed [32, 64, 128]
  | .wrPartial _ m => m.formed [32]
  | .atomic _ m => m.formed [16]
  | .mgmt _ m => m.data.length % 16 = 0 && m.formed [m.data.length]
  | .rdRsp _ m => m.formed [32, 64, 128]
  | .wrAck _ m | .eventAck _ m => m.formed [0]
  | .atomicRsp _ m => m.formed [16]
  | .link _ _ seq => seq < 1024
  | .hostCompletion tag status _ _ => tag < 16384 && status < 8
  | .faultReport f => f.code < 65536 && f.kind < 256 && f.index < 65536
  | .registerWrite offset data => offset + data.length ≤ 2 ^ 24
  | .registerLowWordRead offset len => offset + len ≤ 2 ^ 24
  | .doorbell offset data => offset + data.length ≤ 2 ^ 18
  | _ => true

/-- A well-formed command. -/
def Instr.wellFormed (i : Instr) : Bool := i.formed && i.inRange

end Sys2Proof
end

