-- ==== Sys2Proof/Certificates/Slice0/Obligations.lean ====
section
/-! DEFINITION. The statements for the provers: what each command of the block does, by the rules of spec/. -/

open Sys2Proof Sys2Proof.Machine

/-! ### Strings: registers, predicates, uniform registers (chapter 03) -/

/-- R105 with R78, R79 and R69: a plain lane instruction writes DST on the executing lanes and changes nothing else. The
results that the rules leave open are free values (log entries 2, 6); counting is that of R545. -/
def Obligations.LaneInstructionsWriteTheirResults : Prop :=
  ∀ (i : Instr) (f : LaneForm), laneForm i = some f →
    ∀ (s : State) (st : Str) (g : Group) (rest : List Group), CanIssue s f.site f.hdr f.use st g rest →
      ∃ t st', exec i s = .next t ∧ t.str? f.site.engine.val f.site.place.val = some st'
        ∧ Advanced st st' g rest ∧ VectorResult st st' g f.hdr (f.result st)
        ∧ st'.preds = st.preds ∧ st'.uregs = st.uregs ∧ Pends st st' f.use ∧ OnlyString s t f.site
        ∧ Counted s t blkCE f.site.engine.val f.cls 1
        ∧ Counted s t blkCE f.site.engine.val f.ctr (f.elements * laneCount st g f.hdr)

/-- R105 and R71: a compare writes one predicate on the executing lanes; p7 reads as true whatever is written. -/
def Obligations.ComparesWriteTheirPredicate : Prop :=
  ∀ (i : Instr) (f : CompareForm), compareForm i = some f →
    ∀ (s : State) (st : Str) (g : Group) (rest : List Group), CanIssue s f.site f.hdr f.use st g rest →
      ∃ t st', exec i s = .next t ∧ t.str? f.site.engine.val f.site.place.val = some st'
        ∧ Advanced st st' g rest ∧ PredicateResult st st' g f.hdr f.pd (f.result st)
        ∧ st'.vregs = st.vregs ∧ st'.uregs = st.uregs ∧ Pends st st' f.use ∧ OnlyString s t f.site
        ∧ Counted s t blkCE f.site.engine.val f.cls 1
        ∧ (∀ c, f.ctr = some c → Counted s t blkCE f.site.engine.val c (laneCount st g f.hdr))

/-- R105: uniform instructions give one 64-bit result per string; with no executing lane they do nothing (R98). -/
def Obligations.UniformInstructionsWriteOneRegister : Prop :=
  ∀ (i : Instr) (f : UniformForm), uniformForm i = some f →
    ∀ (s : State) (st : Str) (g : Group) (rest : List Group),
      CanIssue s f.site f.hdr { use0 with ru := f.reads, wu := [f.hdr.dst.toNat] } st g rest →
      ∃ t st', exec i s = .next t ∧ t.str? f.site.engine.val f.site.place.val = some st'
        ∧ Advanced st st' g rest
        ∧ (0 < laneCount st g f.hdr → f.result st (st'.u f.hdr.dst.toNat))
        ∧ (∀ r, (r ≠ f.hdr.dst.toNat ∨ laneCount st g f.hdr = 0) → st'.u r = st.u r)
        ∧ st'.vregs = st.vregs ∧ st'.preds = st.preds ∧ OnlyString s t f.site
        ∧ Pends st st' { use0 with ru := f.reads, wu := [f.hdr.dst.toNat] }
        ∧ Counted s t blkCE f.site.engine.val 2 1

/-- R55, R56: a conversion writes the executing lanes of DST (and of DST + 1, the block's scale, into an MX format). The
lane layout of MX blocks is the model's (log entry 7). -/
def Obligations.ConversionWritesTheConvertedElement : Prop :=
  ∀ (w : Site) (h : Hdr) (c : CvtMode) (src dst : Code) (s : State) (st : Str) (g : Group) (rest : List Group),
    codeOf c.src.toNat = some src → codeOf c.dst.toNat = some dst →
    c.rm ≠ 3 → (src.isInt = true ∨ c.srcUns = false) → (dst.isInt = true ∨ c.dstUns = false) →
    CanIssue s w h { use0 with
      rv := h.src0.toNat :: (if src.isMx then [h.src1.toNat] else [])
      wv := h.dst.toNat :: (if dst.isMx then [h.dst.toNat + 1] else []) } st g rest →
    ∃ t st', exec (.cvt w h c) s = .next t ∧ t.str? w.engine.val w.place.val = some st'
      ∧ Advanced st st' g rest ∧ st'.preds = st.preds ∧ st'.uregs = st.uregs ∧ OnlyString s t w
      ∧ (dst.isMx = false → VectorResult st st' g h (fun i y => ∃ k,
          let x := src.read c.srcUns c.ieee (st.v h.src0.toNat i).toNat
          y = BitVec.ofNat 32 (dst.write c.dstUns c.ieee (rmodeOf c.rm.toNat k)
            (if src.isMx then x.scale ((st.v h.src1.toNat i).toNat % 256) else x))))
      ∧ (∀ r i, i < 32 → (¬ Executes st g h i ∨ (r ≠ h.dst.toNat ∧ (dst.isMx = false ∨ r ≠ h.dst.toNat + 1))) →
          st'.v r i = st.v r i)
      ∧ Counted s t blkCE w.engine.val 3 1 ∧ Counted s t blkCE w.engine.val 0x014 (laneCount st g h)

/-- R87 and R88. -/
def Obligations.ShuffleAndVoteCombineLanes : Prop :=
  (∀ (w : Site) (h : Hdr) (low : BitVec 26) (s : State) (st : Str) (g : Group) (rest : List Group),
    bits low.toNat 17 15 ≤ 5 → bits low.toNat 11 0 = 0 →
    CanIssue s w h { useV ([h.src0] ++ if bit low.toNat 23 then [] else [h.src1]) h.dst with
      wp := [bits low.toNat 14 12] } st g rest →
    ∃ t st', exec (.shfl w h low) s = .next t ∧ t.str? w.engine.val w.place.val = some st'
      ∧ Advanced st st' g rest ∧ st'.uregs = st.uregs ∧ OnlyString s t w
      ∧ (∀ (k seg j : Nat) (i : Nat), Executes st g h i → seg = 2 ^ bits low.toNat 17 15 →
          k = (if bit low.toNat 23 then bits low.toNat 22 18 else (st.v h.src1.toNat i).toNat) →
          (bits low.toNat 25 24 = 0 → j = i - i % seg + k % seg) →
          (bits low.toNat 25 24 = 1 → j + k = i) → (bits low.toNat 25 24 = 2 → j = i + k) →
          (bits low.toNat 25 24 = 3 → j = i ^^^ k) →
          (j / seg = i / seg ∧ bit g.mask.toNat j = true →
            st'.v h.dst.toNat i = st.v h.src0.toNat j
            ∧ (bits low.toNat 14 12 ≠ 7 → bit (st'.p (bits low.toNat 14 12)).toNat i = true))
          ∧ (¬ (j / seg = i / seg ∧ bit g.mask.toNat j = true) →
            st'.v h.dst.toNat i = st.v h.src0.toNat i
            ∧ (bits low.toNat 14 12 ≠ 7 → bit (st'.p (bits low.toNat 14 12)).toNat i = false)))
      ∧ (∀ i, Executes st g h i → bits low.toNat 25 24 = 1 →
          i < (if bit low.toNat 23 then bits low.toNat 22 18 else (st.v h.src1.toNat i).toNat) →
          st'.v h.dst.toNat i = st.v h.src0.toNat i
          ∧ (bits low.toNat 14 12 ≠ 7 → bit (st'.p (bits low.toNat 14 12)).toNat i = false))
      ∧ (∀ r i, i < 32 → ¬ (r = h.dst.toNat ∧ Executes st g h i) → st'.v r i = st.v r i)
      ∧ (∀ p i, p < 8 → i < 32 → ¬ (p = bits low.toNat 14 12 ∧ Executes st g h i) →
          bit (st'.p p).toNat i = bit (st.p p).toNat i))
  ∧ (∀ (w : Site) (h : Hdr) (low : BitVec 26) (s : State) (st : Str) (g : Group) (rest : List Group),
    bits low.toNat 19 18 = 0 → bits low.toNat 14 0 = 0 →
    CanIssue s w h { use0 with
      rv := if bits low.toNat 25 24 = 2 then [h.src0.toNat] else [], rp := [bits low.toNat 23 21]
      wv := if bits low.toNat 25 24 = 3 then [h.dst.toNat] else []
      wp := if bits low.toNat 25 24 = 3 then [] else [bits low.toNat 17 15] } st g rest →
    ∃ t st', exec (.vote w h low) s = .next t ∧ t.str? w.engine.val w.place.val = some st'
      ∧ Advanced st st' g rest ∧ st'.uregs = st.uregs ∧ OnlyString s t w
      ∧ (let holds := fun (i : Nat) => bit (st.p (bits low.toNat 23 21)).toNat i != bit low.toNat 20
         (bits low.toNat 25 24 = 0 → st'.vregs = st.vregs ∧ PredicateResult st st' g h (bits low.toNat 17 15)
            (fun _ => decide (∃ i ∈ lanesOf (g.mask &&& st.predLanes h), holds i = true)))
         ∧ (bits low.toNat 25 24 = 1 → st'.vregs = st.vregs ∧ PredicateResult st st' g h (bits low.toNat 17 15)
            (fun _ => decide (∀ i ∈ lanesOf (g.mask &&& st.predLanes h), holds i = true)))
         ∧ (bits low.toNat 25 24 = 2 → st'.vregs = st.vregs ∧ PredicateResult st st' g h (bits low.toNat 17 15)
            (fun _ => decide (∀ i ∈ lanesOf (g.mask &&& st.predLanes h), ∀ j ∈ lanesOf (g.mask &&& st.predLanes h),
              st.v h.src0.toNat i = st.v h.src0.toNat j)))
         ∧ (bits low.toNat 25 24 = 3 → st'.preds = st.preds ∧ VectorResult st st' g h (fun _ y =>
            ∀ j, j < 32 → y.getLsbD j = (decide (Executes st g h j) && holds j)))))

/-! ### Strings: control flow, groups, barriers (chapter 03) -/

/-- R75, R77, R79, R81: only the active group of a ready string that the drover chooses issues. An instruction offered to
any other string has no effect (the model's form of a command that could not have arisen, log entry 12). -/
def Obligations.NothingIssuesFromAStringThatCannot : Prop :=
  ∀ (i : Instr) (w : Site) (s : State), issueSite i = some w → CannotIssue s w → exec i s = .next s

/-- R71 and R97: a register outside the declared count raises E_ILLEGAL_INSTRUCTION and stops the dispatch. -/
def Obligations.IllegalRegistersStopTheDispatch : Prop :=
  ∀ (i : Instr) (w : Site) (h : Hdr) (u : Use),
    ((∃ f, laneForm i = some f ∧ f.site = w ∧ f.hdr = h ∧ f.use = u)
      ∨ (∃ f, compareForm i = some f ∧ f.site = w ∧ f.hdr = h ∧ f.use = u)) →
    ∀ (s : State) (st : Str) (g : Group) (rest : List Group), s.working = true → s.frozen w.engine.val = false →
      s.str? w.engine.val w.place.val = some st → st.groups = g :: rest → st.state = .ready → g.block = .open →
      g.budget ≠ 0 → (s.eng w.engine.val).chosen w.place.val st = true →
      (∃ r ∈ u.rv ++ u.wv, st.regs ≤ r) →
      ∃ t, exec i s = .next t ∧ Stopped s t w.engine.val st.queue st.cmd 0x0101 0 ∧ MemoryKept s t

/-- R78: register dependencies are enforced by the scoreboard: the group waits, no lane goes on. -/
def Obligations.PendingRegistersBlockTheGroup : Prop :=
  ∀ (i : Instr) (w : Site) (h : Hdr) (u : Use),
    ((∃ f, laneForm i = some f ∧ f.site = w ∧ f.hdr = h ∧ f.use = u)
      ∨ (∃ f, compareForm i = some f ∧ f.site = w ∧ f.hdr = h ∧ f.use = u)) →
    ∀ (s : State) (st : Str) (g : Group) (rest : List Group), s.working = true → s.frozen w.engine.val = false →
      s.str? w.engine.val w.place.val = some st → st.groups = g :: rest → st.state = .ready → g.block = .open →
      g.budget ≠ 0 → (s.eng w.engine.val).chosen w.place.val st = true → u.legal st.regs = true →
      (∃ r ∈ (h.pred.toNat + 256) :: u.all, r ∈ st.busy) →
      ∃ t st', exec i s = .next t ∧ t.str? w.engine.val w.place.val = some st' ∧ OnlyString s t w
        ∧ st'.vregs = st.vregs ∧ st'.preds = st.preds ∧ st'.uregs = st.uregs ∧ st'.busy = st.busy
        ∧ LanesKept st.groups st' ∧ (∃ x ∈ st'.groups, x.pc = g.pc ∧ x.mask = g.mask ∧ x.block = .scoreboard)

/-- R100 with R80. -/
def Obligations.JumpsSendEveryLaneToItsAddress : Prop :=
  let goes := fun (s : State) (w : Site) (h : Hdr) (st : Str) (g : Group) (rest : List Group) (i : Instr)
      (target : Nat → Dword) (links : Bool) =>
    ∃ t st', exec i s = .next t ∧ t.str? w.engine.val w.place.val = some st' ∧ OnlyString s t w
      ∧ (∀ l ∈ lanesOf g.mask, LaneAt st' l (if Executes st g h l then target l else g.pc + 8))
      ∧ LanesKept rest st'
      ∧ (g.mask ≠ 0 → ∃ hd tl, st'.groups = hd :: tl
          ∧ ∀ l ∈ lanesOf g.mask, hd.pc.toNat ≤ (if Executes st g h l then target l else g.pc + 8).toNat)
      ∧ (∀ r l, l < 32 → (links = true ∧ Executes st g h l ∧ (r = h.dst.toNat ∨ r = h.dst.toNat + 1) →
            st'.v h.dst.toNat l = (g.pc + 8).truncate 32 ∧ st'.v (h.dst.toNat + 1) l = ((g.pc + 8) >>> 32).truncate 32)
          ∧ (¬ (links = true ∧ Executes st g h l ∧ (r = h.dst.toNat ∨ r = h.dst.toNat + 1)) → st'.v r l = st.v r l))
      ∧ st'.preds = st.preds ∧ st'.uregs = st.uregs
  let offset := fun (g : Group) (low : BitVec 26) => g.pc + 8 + 8 * low.signExtend 64
  let pair := fun (st : Str) (h : Hdr) (l : Nat) => BitVec.ofNat 64 (st.v2 h.src0.toNat l)
  ∀ (w : Site) (h : Hdr) (low : BitVec 26) (s : State) (st : Str) (g : Group) (rest : List Group),
    (CanIssue s w h use0 st g rest → goes s w h st g rest (.bra w h low) (fun _ => offset g low) false)
    ∧ (CanIssue s w h { use0 with wv := regs h.dst.toNat 2, ok := h.dst.toNat % 2 = 0 } st g rest →
        goes s w h st g rest (.call w h low) (fun _ => offset g low) true)
    ∧ (CanIssue s w h (usePair h.src0) st g rest →
        ((∀ l, Executes st g h l → (pair st h l).toNat % 8 = 0) →
          goes s w h st g rest (.jmp w h 0) (pair st h) false)
        ∧ ((∃ l, Executes st g h l ∧ (pair st h l).toNat % 8 ≠ 0) →
          ∃ t, exec (.jmp w h 0) s = .next t ∧ Stopped s t w.engine.val st.queue st.cmd 0x0102 0))
    ∧ (CanIssue s w h { usePair h.src0 with
          wv := regs h.dst.toNat 2, ok := h.src0.toNat % 2 = 0 && h.dst.toNat % 2 = 0 } st g rest →
        ((∀ l, Executes st g h l → (pair st h l).toNat % 8 = 0) →
          goes s w h st g rest (.calli w h 0) (pair st h) true)
        ∧ ((∃ l, Executes st g h l ∧ (pair st h l).toNat % 8 ≠ 0) →
          ∃ t, exec (.calli w h 0) s = .next t ∧ Stopped s t w.engine.val st.queue st.cmd 0x0102 0))

/-- R80, R81, R97, R100. -/
def Obligations.ControlInstructionsActOnTheActiveGroup : Prop :=
  ∀ (w : Site) (h : Hdr) (s : State) (st : Str) (g : Group) (rest : List Group),
    let e := w.engine.val
    let p := w.place.val
    let next : Group := { g with pc := g.pc + 8, budget := g.budget - 1 }
    let same := fun (st' : Str) => st'.vregs = st.vregs ∧ st'.preds = st.preds ∧ st'.uregs = st.uregs ∧ st'.busy = st.busy
    (CanIssue s w h (useV [] h.dst) st g rest →
      ∃ t st', exec (.gmask w h 0) s = .next t ∧ t.str? e p = some st' ∧ Advanced st st' g rest
        ∧ VectorResult st st' g h (fun _ y => y = g.mask) ∧ st'.preds = st.preds ∧ st'.uregs = st.uregs ∧ OnlyString s t w)
    ∧ (CanIssue s w h use0 st g rest →
      (∃ t st', exec (.nop w h 0) s = .next t ∧ t.str? e p = some st' ∧ Advanced st st' g rest ∧ same st' ∧ OnlyString s t w)
      ∧ (∃ t st', exec (.yield w h 0) s = .next t ∧ t.str? e p = some st' ∧ same st' ∧ OnlyString s t w
          ∧ (0 < laneCount st g h → GaveWay st' next rest) ∧ (laneCount st g h = 0 → Advanced st st' g rest))
      ∧ (∃ t st', exec (.join w h 0) s = .next t ∧ t.str? e p = some st' ∧ same st' ∧ OnlyString s t w
          ∧ (0 < laneCount st g h ∧ (∃ x ∈ rest, x.pc.toNat < g.pc.toNat) → GaveWay st' next rest)
          ∧ (laneCount st g h = 0 ∨ (∀ x ∈ rest, g.pc.toNat ≤ x.pc.toNat) → Advanced st st' g rest))
      ∧ (∀ low : BitVec 26, bits low.toNat 25 16 = 0 →
          ∃ t st', exec (.sleep w h low) s = .next t ∧ t.str? e p = some st' ∧ same st' ∧ OnlyString s t w
            ∧ (laneCount st g h = 0 ∨ low = 0 → Advanced st st' g rest)
            ∧ (0 < laneCount st g h ∧ low ≠ 0 → LanesKept (next :: rest) st'
                ∧ (∃ x ∈ st'.groups, x.pc = g.pc + 8 ∧ x.mask = g.mask ∧ x.block = .sleep low.toNat)
                ∧ ((∀ x ∈ rest, x.block ≠ .open) → st'.state = .waiting)))
      ∧ (∀ low : BitVec 26, bits low.toNat 25 16 = 0 →
          ∃ t, exec (.trap w h low) s = .next t ∧ MemoryKept s t
            ∧ (0 < laneCount st g h → Stopped s t e st.queue st.cmd 0x0103 low.toNat)
            ∧ (laneCount st g h = 0 → ∃ st', t.str? e p = some st' ∧ Advanced st st' g rest ∧ same st'))
      ∧ (∃ t st', exec (.exit w h 0) s = .next t ∧ t.str? e p = some st' ∧ same st' ∧ MemoryKept s t
          ∧ st'.live = st.live &&& ~~~(g.mask &&& st.predLanes h)
          ∧ ((∀ x ∈ rest, x.mask ≠ 0) → ∀ x ∈ st'.groups, x.mask ≠ 0)
          ∧ LanesKept rest st'
          ∧ (∀ i ∈ lanesOf g.mask, ¬ Executes st g h i → LaneAt st' i (g.pc + 8))
          ∧ (laneCount st g h = (lanesOf g.mask).length ∧ rest = [] → st'.groups = [] ∧ st'.state = .draining)
          ∧ (∀ v, s.wg? e st.wg = some v → ∃ v', t.wg? e st.wg = some v' ∧ v'.exited = v.exited + laneCount st g h
              ∧ v'.shared = v.shared)))

/-- R84, R85: arrival, completion and waiting at a named barrier. BAR.WAIT waits for the next completion in both its
cases (log entry 11). -/
def Obligations.BarriersHoldGroupsUntilTheirCount : Prop :=
  ∀ (w : Site) (h : Hdr) (low : BitVec 26) (s : State) (st : Str) (g : Group) (rest : List Group) (v : Wg),
    let e := w.engine.val
    let p := w.place.val
    let b := bits low.toNat 25 22
    let field := bits low.toNat 21 11
    let n := laneCount st g h
    let next : Group := { g with pc := g.pc + 8, budget := g.budget - 1 }
    CanIssue s w h use0 st g rest → s.wg? e st.wg = some v → v.waiting → 0 < n →
    let arrives := fun (i : Instr) (blocks : Bool) =>
      ∃ t st' v', exec i s = .next t ∧ t.str? e p = some st' ∧ t.wg? e st.wg = some v' ∧ MemoryKept s t
        ∧ LanesKept (next :: rest) st' ∧ st'.vregs = st.vregs ∧ st'.preds = st.preds ∧ v'.exited = v.exited
        ∧ (v.arrived b n < v.awaited b field - v.exited →
            mget v'.bars b = some { count := v.arrived b n, expected := some (v.awaited b field) }
            ∧ (∀ b', b' ≠ b → mget v'.bars b' = mget v.bars b')
            ∧ (blocks = true → ∃ x ∈ st'.groups, x.pc = g.pc + 8 ∧ x.mask = g.mask ∧ x.block = .barrier b)
            ∧ (blocks = false → ∃ hd tl, st'.groups = hd :: tl ∧ hd.pc = g.pc + 8 ∧ hd.block = .open))
        ∧ (v.awaited b field - v.exited ≤ v.arrived b n →
            mget v'.bars b = none
            ∧ ∀ q x, t.str? e q = some x → x.wg = st.wg → ∀ y ∈ x.groups, y.block ≠ .barrier b)
    (field ≤ 1024 → bits low.toNat 10 0 = 0 →
      arrives (.barSync w h low) true ∧ arrives (.barArrive w h low) false)
    ∧ (bits low.toNat 21 0 = 0 →
        ∃ t st', exec (.barWait w h low) s = .next t ∧ t.str? e p = some st' ∧ OnlyString s t w
          ∧ LanesKept (next :: rest) st' ∧ st'.vregs = st.vregs
          ∧ ∃ x ∈ st'.groups, x.pc = g.pc + 8 ∧ x.mask = g.mask ∧ x.block = .barrier b)

/-- R179: acquire and release fences beyond engine scope. -/
def Obligations.FencesAcquireAndRelease : Prop :=
  ∀ (w : Site) (h : Hdr) (low : BitVec 26) (s : State) (st : Str) (g : Group) (rest : List Group),
    let e := w.engine.val
    let scope := bits low.toNat 25 24
    CanIssue s w h use0 st g rest → bits low.toNat 23 22 ≠ 0 → bits low.toNat 21 0 = 0 → 0 < laneCount st g h →
    ∃ t st', exec (.fence w h low) s = .next t ∧ t.str? e w.place.val = some st' ∧ MemoryKept s t
      ∧ st'.vregs = st.vregs ∧ st'.preds = st.preds ∧ st'.uregs = st.uregs
      ∧ ((scope ≠ 0 ∧ bit low.toNat 22 = true) →
          (t.eng e).l1 = (s.eng e).l1.filter (fun x => x.2.readOnly))
      ∧ ((scope = 0 ∨ bit low.toNat 22 = false) → (t.eng e).l1 = (s.eng e).l1)
      ∧ ((scope = 0 ∨ bit low.toNat 23 = false ∨ s.unacked e w.place.val = false) → Advanced st st' g rest)
      ∧ ((scope ≠ 0 ∧ bit low.toNat 23 = true ∧ s.unacked e w.place.val = true) →
          ∃ x ∈ st'.groups, x.pc = g.pc + 8 ∧ x.mask = g.mask ∧ x.block = .release)

/-! ### Strings: loads, stores, atomics, the allocator (chapters 03, 05, 06) -/

/-- R105, R106 and R97 in shared space (R72). Stores beyond the declared size are discarded (log entry 8), so the
statement takes addresses inside it. -/
def Obligations.SharedLoadsAndStoresMoveBytes : Prop :=
  ∀ (w : Site) (h : Hdr) (size : Fin 5) (sgn : Bool) (s : State) (st : Str) (g : Group) (rest : List Group) (v : Wg),
    let e := w.engine.val
    let p := w.place.val
    let n := 2 ^ size.val
    let k := regsFor size.val
    let addr := fun (i : Nat) => (st.v h.src0.toNat i).toNat
    s.wg? e st.wg = some v →
    (CanIssue s w h { use0 with rv := [h.src0.toNat], wv := regs h.dst.toNat k, ok := alignedReg size.val h.dst } st g rest →
      ((∀ i, Executes st g h i → addr i % n = 0) →
        ∃ t st', exec (.ld w h true size sgn) s = .next t ∧ t.str? e p = some st' ∧ Advanced st st' g rest
          ∧ OnlyString s t w ∧ st'.preds = st.preds ∧ st'.uregs = st.uregs
          ∧ (∀ i, Executes st g h i → ∀ j, j < k → (st'.v (h.dst.toNat + j) i).toNat
              = extendLoad size.val sgn (leNat (v.read (addr i) n)) / 2 ^ (32 * j) % 2 ^ 32)
          ∧ (∀ r i, i < 32 → (¬ Executes st g h i ∨ r < h.dst.toNat ∨ h.dst.toNat + k ≤ r) → st'.v r i = st.v r i))
      ∧ ((∃ i, Executes st g h i ∧ addr i % n ≠ 0) →
        ∃ t, exec (.ld w h true size sgn) s = .next t ∧ Stopped s t e st.queue st.cmd 0x0102 0))
    ∧ (CanIssue s w h { use0 with rv := h.src0.toNat :: regs h.src1.toNat k, ok := alignedReg size.val h.src1 } st g rest →
      st.helpers = [] →
      ((∀ i, Executes st g h i → addr i % n = 0 ∧ addr i + n ≤ v.sharedSize) →
        ∃ t st' v', exec (.st w h true size) s = .next t ∧ t.str? e p = some st' ∧ Advanced st st' g rest
          ∧ st'.vregs = st.vregs ∧ st'.preds = st.preds ∧ MemoryKept s t
          ∧ t.wg? e st.wg = some v' ∧ (∀ q, q ≠ st.wg → t.wg? e q = s.wg? e q)
          ∧ (∀ i, Executes st g h i → (∀ j, Executes st g h j → addr j = addr i → j ≤ i) →
              v'.read (addr i) n = leBytes n (st.vn h.src1.toNat i k))
          ∧ (∀ a, (∀ i, Executes st g h i → a < addr i ∨ addr i + n ≤ a) → v'.byte a = v.byte a))
      ∧ ((∃ i, Executes st g h i ∧ addr i % n ≠ 0) →
        ∃ t, exec (.st w h true size) s = .next t ∧ Stopped s t e st.queue st.cmd 0x0102 0))

/-- R93, R105: a load from global memory. Lanes of host and remote pages get their registers with the answers to the
requests that leave (SCOREBOARD_RELEASE waits for them). -/
def Obligations.LoadsReadLocalMemory : Prop :=
  ∀ (w : Site) (h : Hdr) (size : Fin 5) (sgn : Bool) (s : State) (st : Str) (g : Group) (rest : List Group),
    let e := w.engine.val
    let p := w.place.val
    let n := 2 ^ size.val
    let k := regsFor size.val
    let a := actOf w h st g
    let u : Use := { useAddr false h.src0 with
      wv := regs h.dst.toNat k, ok := (useAddr false h.src0).ok && alignedReg size.val h.dst }
    CanIssue s w h u st g rest → (∀ x ∈ a.addrs false, x.2 % n = 0) →
    (∀ l s1, (s.accessing w h st g).translateLanes a (a.addrs false) accRead = (.ok l, s1) →
      s1.hasTags l = true → L1Agrees s1 e →
      LanesLocal s1 l n →
      ∃ t st', exec (.ld w h false size sgn) s = .next t ∧ t.str? e p = some st' ∧ Advanced st st' g rest
        ∧ MemoryKept s t ∧ st'.preds = st.preds ∧ st'.uregs = st.uregs
        ∧ (∀ x ∈ l, x.target = 0 → ∀ j, j < k → (st'.v (h.dst.toNat + j) x.lane).toNat
            = extendLoad size.val sgn (memLe s.mem.cells x.pa n) / 2 ^ (32 * j) % 2 ^ 32)
        ∧ (∀ r i, i < 32 → (¬ Executes st g h i ∨ r < h.dst.toNat ∨ h.dst.toNat + k ≤ r) → st'.v r i = st.v r i)
        ∧ Pends st st' u)
    ∧ (∀ f s1, (s.accessing w h st g).translateLanes a (a.addrs false) accRead = (.error f, s1) →
      ∃ t st' id, exec (.ld w h false size sgn) s = .next t ∧ t.str? e p = some st' ∧ st'.state = .parked id
        ∧ st'.groups = st.groups ∧ st'.vregs = st.vregs ∧ st'.preds = st.preds ∧ st'.busy = st.busy ∧ MemoryKept s t)

/-- R93, R105, R106: a store to global memory. Bytes for host and other dies leave as requests. -/
def Obligations.StoresWriteLocalMemory : Prop :=
  ∀ (w : Site) (h : Hdr) (size : Fin 5) (s : State) (st : Str) (g : Group) (rest : List Group),
    let e := w.engine.val
    let p := w.place.val
    let n := 2 ^ size.val
    let k := regsFor size.val
    let a := actOf w h st g
    CanIssue s w h { useAddr false h.src0 with
      rv := (useAddr false h.src0).rv ++ regs h.src1.toNat k
      ok := (useAddr false h.src0).ok && alignedReg size.val h.src1 } st g rest →
    st.helpers = [] → Memory.wf s.mem.cells = true → (∀ x ∈ a.addrs false, x.2 % n = 0) →
    (∀ l s1, (s.accessing w h st g).translateLanes a (a.addrs false) accWrite = (.ok l, s1) → s1.hasTags l = true →
      (∀ x ∈ l, x.target = 0 → x.pa + n ≤ s1.mem.capacity) →
      ∃ t st', exec (.st w h false size) s = .next t ∧ t.str? e p = some st' ∧ Advanced st st' g rest
        ∧ st'.vregs = st.vregs ∧ st'.preds = st.preds ∧ st'.uregs = st.uregs ∧ Memory.wf t.mem.cells = true
        ∧ ∀ b, memGet t.mem.cells b =
            match l.reverse.find? (fun x => x.target = 0 && x.pa ≤ b && b < x.pa + n) with
            | some x => (leBytes n (st.vn h.src1.toNat x.lane k)).getD (b - x.pa) 0
            | none => memGet s.mem.cells b)
    ∧ (∀ f s1, (s.accessing w h st g).translateLanes a (a.addrs false) accWrite = (.error f, s1) →
      ∃ t st' id, exec (.st w h false size) s = .next t ∧ t.str? e p = some st' ∧ st'.state = .parked id
        ∧ st'.groups = st.groups ∧ st'.vregs = st.vregs ∧ st'.preds = st.preds ∧ MemoryKept s t)

/-- R89 to R92, R102, R172: atomics on local memory and on shared memory. -/
def Obligations.AtomicsUpdateMemoryOncePerLane : Prop :=
  ∀ (i : Instr) (op : AtomOp) (w : Site) (h : Hdr) (low : BitVec 26), atomForm i = some (op, w, h, low) →
  ∀ (n : Nat), atomWidth op (bits low.toNat 25 24) = some n → (op = .cas ∨ bits low.toNat 15 8 = 0) →
    bits low.toNat 7 0 = 0 →
  ∀ (s : State) (st : Str) (g : Group) (rest : List Group),
    let e := w.engine.val
    let p := w.place.val
    let a := actOf w h st g
    let ret := bit low.toNat 17
    let kept := fun (st' : Str) => st'.preds = st.preds ∧ st'.uregs = st.uregs ∧
      ∀ r j, j < 32 → (ret = false ∨ ¬ Executes st g h j ∨ r < h.dst.toNat ∨ h.dst.toNat + n / 4 ≤ r) →
        st'.v r j = st.v r j
    st.helpers = [] →
    (bits low.toNat 23 22 = 0 → CanIssue s w h (atomUse op h low n false) st g rest → Memory.wf s.mem.cells = true →
      (∀ x ∈ a.addrs false, x.2 % n = 0) →
      ∀ l s1, (s.combining w h st g).translateLanes a (a.addrs false) accAtomic = (.ok l, s1) → s1.hasTags l = true →
        (∀ x ∈ l, x.target = 0) → LanesLocal s1 l n →
        ¬ (bit low.toNat 19 = true ∧ bits low.toNat 21 20 ≠ 0 ∧ s1.unacked e p = true) →
        ∃ t st', exec i s = .next t ∧ t.str? e p = some st' ∧ Advanced st st' g rest ∧ kept st'
          ∧ (∀ x ∈ l, ∃ v rets,
              AtomOutcome op low (memLe s.mem.cells x.pa n)
                ((l.filter (fun y => y.pa = x.pa)).map (fun y => atomLane st h low n y.lane)) v rets
              ∧ memLe t.mem.cells x.pa n = v % 2 ^ (8 * n)
              ∧ (ret = true → ∀ q ∈ rets, st'.vn h.dst.toNat q.1 (n / 4) = q.2 % 2 ^ (8 * n)))
          ∧ (∀ b, (∀ x ∈ l, b < x.pa ∨ x.pa + n ≤ b) → memGet t.mem.cells b = memGet s.mem.cells b))
    ∧ (bits low.toNat 23 22 = 1 → bits low.toNat 21 20 = 0 → CanIssue s w h (atomUse op h low n true) st g rest →
      ∀ (v : Wg), s.wg? e st.wg = some v →
        let addr := fun (j : Nat) => (st.v h.src0.toNat j).toNat
        (∀ j, Executes st g h j → addr j % n = 0 ∧ addr j + n ≤ v.sharedSize) →
        ∃ t st' v', exec i s = .next t ∧ t.str? e p = some st' ∧ Advanced st st' g rest ∧ kept st' ∧ MemoryKept s t
          ∧ t.wg? e st.wg = some v'
          ∧ (∀ j, Executes st g h j → ∃ x rets,
              AtomOutcome op low (leNat (v.read (addr j) n))
                (((lanesOf (g.mask &&& st.predLanes h)).filter (fun q => addr q = addr j)).map (atomLane st h low n)) x rets
              ∧ leNat (v'.read (addr j) n) = x % 2 ^ (8 * n)
              ∧ (ret = true → ∀ q ∈ rets, st'.vn h.dst.toNat q.1 (n / 4) = q.2 % 2 ^ (8 * n)))
          ∧ (∀ b, (∀ j, Executes st g h j → b < addr j ∨ addr j + n ≤ b) → v'.byte b = v.byte b))

/-- R103, R209 to R213: the device allocator. Which free block a request takes is a free choice (log entry 10). -/
def Obligations.AllocAndFreeMoveHeapBlocks : Prop :=
  ∀ (w : Site) (h : Hdr) (low : BitVec 26) (s : State) (st : Str) (g : Group) (rest : List Group),
    let e := w.engine.val
    let p := w.place.val
    let key := heapKey (s.ctxOf st.queue st.cmd).1 (bits low.toNat 25 18)
    let pair := fun (st' : Str) (i : Nat) => st'.v2 h.dst.toNat i
    let size := fun (i : Nat) => (st.v h.src0.toNat i).toNat
    (bits low.toNat 16 0 = 0 →
      CanIssue s w h { use0 with rv := [h.src0.toNat], wv := regs h.dst.toNat 2, ok := h.dst.toNat % 2 = 0 } st g rest →
      (mget s.mmu.heaps key = none →
        ∃ t st', exec (.alloc w h low) s = .next t ∧ t.str? e p = some st' ∧ Advanced st st' g rest ∧ MemoryKept s t
          ∧ (∀ i, Executes st g h i → pair st' i = 0) ∧ t.mmu = s.mmu)
      ∧ (∀ hp, mget s.mmu.heaps key = some hp →
        let served := ((s.issued w 0xB st).heapServe hp ((lanesOf (g.mask &&& st.predLanes h)).map (fun i => (i, size i)))).2.1 = []
        (bit low.toNat 17 = false ∨ st.noGrow = true ∨ served →
          ∃ t st' hp', exec (.alloc w h low) s = .next t ∧ t.str? e p = some st' ∧ MemoryKept s t
            ∧ (st'.groups.head?.map (fun x => x.pc)) = some (g.pc + 8)
            ∧ mget t.mmu.heaps key = some hp' ∧ (∀ k, k ≠ key → mget t.mmu.heaps k = mget s.mmu.heaps k)
            ∧ (∀ b c, mget hp.blocks b = some c → ∃ c', mget hp'.blocks b = some c')
            ∧ (∀ i, Executes st g h i → (size i = 0 ∨ 64 * 2 ^ 20 < size i) → pair st' i = 0)
            ∧ (∀ i, Executes st g h i → pair st' i ≠ 0 → (∀ x ∈ s.heapChunks hp, x + 2 ^ 26 < 2 ^ 64) →
                ∃ c, mget hp'.blocks (pair st' i) = some c))
        ∧ (bit low.toNat 17 = true ∧ st.noGrow = false ∧ ¬ served →
          ∃ t st' id, exec (.alloc w h low) s = .next t ∧ t.str? e p = some st' ∧ st'.state = .parked id
            ∧ st'.groups = st.groups ∧ st'.vregs = st.vregs ∧ t.mmu.heaps = s.mmu.heaps)))
    ∧ (bits low.toNat 17 0 = 0 →
      CanIssue s w h { use0 with rv := regs h.src0.toNat 2, ok := h.src0.toNat % 2 = 0 } st g rest →
      let addr := fun (i : Nat) => st.v2 h.src0.toNat i
      ∀ hp, mget s.mmu.heaps key = some hp →
        ((∀ i, Executes st g h i → addr i = 0 ∨ (mhas hp.blocks (addr i) = true
            ∧ (∃ o ∈ hp.objs, ∃ x, mget s.mmu.objs o.1 = some x ∧ x.va ≤ addr i ∧ addr i < x.va + x.size)
            ∧ ∀ o ∈ hp.objs, ∀ x, mget s.mmu.objs o.1 = some x → x.va ≤ addr i → addr i < x.va + x.size → x.st = .live)) →
          (∀ i j, Executes st g h i → Executes st g h j → addr i = addr j → addr i ≠ 0 → i = j) →
          ∃ t st' hp', exec (.free w h low) s = .next t ∧ t.str? e p = some st' ∧ Advanced st st' g rest
            ∧ st'.vregs = st.vregs ∧ MemoryKept s t ∧ mget t.mmu.heaps key = some hp' ∧ hp'.badFrees = hp.badFrees
            ∧ ∀ b, mget hp'.blocks b = if b ≠ 0 ∧ ∃ i, Executes st g h i ∧ addr i = b then none else mget hp.blocks b)
        ∧ ((∀ i, Executes st g h i → addr i ≠ 0 ∧ ∀ o ∈ hp.objs, ∀ x, mget s.mmu.objs o.1 = some x →
              addr i < x.va ∨ x.va + x.size ≤ addr i) →
          ∃ t st' hp', exec (.free w h low) s = .next t ∧ t.str? e p = some st' ∧ Advanced st st' g rest
            ∧ MemoryKept s t ∧ mget t.mmu.heaps key = some hp' ∧ hp'.blocks = hp.blocks
            ∧ hp'.badFrees = hp.badFrees + BitVec.ofNat _ (laneCount st g h)))

/-! ### Strings: tensor, texture, ray and tile instructions (chapters 04 and 12) -/

/-- R129, R131, R132, R134. -/
def Obligations.TensorInstructionsEnterTheQueue : Prop :=
  ∀ (w : Site) (h : Hdr) (low : BitVec 26) (s : State) (st : Str) (g : Group) (rest : List Group),
    let e := w.engine.val
    let p := w.place.val
    let f := low.toNat
    let enters := fun (i : Instr) (x : TIns) =>
      (((s.eng e).tensors.length < 16 →
        ∃ t st', exec i s = .next t ∧ t.str? e p = some st' ∧ Advanced st st' g rest ∧ st'.uregs = st.uregs
          ∧ MemoryKept s t ∧ (t.eng e).tensors = (s.eng e).tensors ++ [x] ∧ (t.eng e).nextTensor = x.id + 1)
      ∧ (16 ≤ (s.eng e).tensors.length →
        ∃ t st', exec i s = .next t ∧ t.str? e p = some st' ∧ OnlyString s t w
          ∧ ∃ y ∈ st'.groups, y.pc = g.pc ∧ y.mask = g.mask ∧ y.block = .tensorFull))
    let stops := fun (i : Instr) (err : Nat) => (s.eng e).tensors.length < 16 →
      ∃ t, exec i s = .next t ∧ Stopped s t e st.queue st.cmd err 0
    let blank : TIns :=
      { id := (s.eng e).nextTensor, kind := .tmma, place := p, queue := st.queue, cmd := st.cmd
        low := low, descA := 0, descB := 0, descC := 0, addr := 0, scaleAddr := 0, pitch := 0, gangSeq := none
        started := false, faulted := false }
    tensorHdr h = true →
    (let ua := bits f 25 20
     let ub := bits f 19 14
     let uc := bits f 13 8
     let shape := bits f 7 5
     let mine := fun (d : Disp) => d.queue = st.queue ∧ d.cmd = st.cmd
     let roles := if shape = 4 then gangRoles e (bit f 4) else (true, true, true)
     let uses := (if roles.1 then [ua] else []) ++ (if roles.2.1 then [ub] else []) ++ (if roles.2.2 then [uc] else [])
     let x : TIns := { blank with
       descA := if roles.1 then st.pair ua else 0, descB := if roles.2.1 then st.pair ub else 0
       descC := if roles.2.2 then st.pair uc else 0
       gangSeq := if shape = 4 then ((s.eng e).disps.find? (fun d => decide (mine d))).map (fun d => d.gangOps) else none }
     CanIssue s w h { use0 with ru := (uses.map (fun r => [r, r + 1])).flatten, ok := uses.all (· % 2 = 0) } st g rest →
     shape ≤ 4 → bits f 3 2 = 0 → (shape = 4 → ∃ d ∈ (s.eng e).disps, d.gang = true ∧ mine d) →
     (roles.1 = true ∨ ua = 0) → (roles.2.1 = true ∨ ub = 0) → (roles.2.2 = true ∨ uc = 0) →
     (x.tmmaLegal e (s.eng e).tb = true → enters (.tmma w h low) x)
     ∧ (x.tmmaLegal e (s.eng e).tb = false → stops (.tmma w h low) 0x0104))
    ∧ (let ud := bits f 25 20
       let ua := bits f 19 14
       let up := bits f 13 8
       let x : TIns := { blank with descA := st.pair ud, addr := st.u ua, scaleAddr := st.u (ua + 1), pitch := st.u up }
       let d := x.a
       let bad := d.legal x.descA (s.eng e).tb = false ∨ (x.xpose = true ∧ d.row = true)
         ∨ 262144 < d.rows * d.sliceBytes + d.scaleShape.1 * d.scaleShape.2
       let mis := x.addr.toNat % 16 ≠ 0 ∨ bits x.pitch.toNat 31 0 % 16 ≠ 0
         ∨ (d.code.isMx = true ∧ (x.scaleAddr.toNat % 16 ≠ 0 ∨ bits x.pitch.toNat 63 32 % 16 ≠ 0))
       CanIssue s w h { use0 with
         ru := ([ud, ua].map (fun r => [r, r + 1])).flatten ++ [up], ok := [ud, ua].all (· % 2 = 0) } st g rest →
       bits f 6 0 = 0 →
       (¬ bad → ¬ mis → enters (.tfill w h low) { x with kind := .tfill } ∧ enters (.tspill w h low) { x with kind := .tspill })
       ∧ (bad → stops (.tfill w h low) 0x0104 ∧ stops (.tspill w h low) 0x0104)
       ∧ (¬ bad → mis → stops (.tfill w h low) 0x0102 ∧ stops (.tspill w h low) 0x0102))
    ∧ (let us := bits f 25 20
       let ud := bits f 19 14
       let x : TIns := { blank with kind := .tcvt, descB := st.pair us, descC := st.pair ud }
       let good := x.b.legal x.descB (s.eng e).tb = true ∧ x.c.legal x.descC (s.eng e).tb = true ∧ x.b.rows = x.c.rows
         ∧ x.b.cols = x.c.cols ∧ x.b.row = x.c.row
       CanIssue s w h { use0 with
         ru := ([us, ud].map (fun r => [r, r + 1])).flatten, ok := [us, ud].all (· % 2 = 0) } st g rest →
       bits f 13 4 = 0 → bits f 3 2 ≠ 3 → bits f 0 0 = 0 →
       (good → enters (.tcvt w h low) x) ∧ (¬ good → stops (.tcvt w h low) 0x0104))

/-- R135. That a string with a blocked active group issues nothing is log entry 12. -/
def Obligations.TwaitHoldsUntilFewRemain : Prop :=
  (∀ (w : Site) (h : Hdr) (low : BitVec 26) (s : State) (st : Str) (g : Group) (rest : List Group),
    let n := bits low.toNat 25 18
    let own := ((s.eng w.engine.val).tensors.filter (fun t =>
      t.place = w.place.val && t.queue = st.queue && t.cmd = st.cmd)).length
    CanIssue s w h use0 st g rest → tensorHdr h = true → bits low.toNat 17 0 = 0 →
    ∃ t st', exec (.twait w h low) s = .next t ∧ t.str? w.engine.val w.place.val = some st' ∧ OnlyString s t w
      ∧ st'.vregs = st.vregs ∧ st'.preds = st.preds ∧ st'.uregs = st.uregs
      ∧ (own ≤ n → Advanced st st' g rest)
      ∧ (n < own → ∃ y ∈ st'.groups, y.pc = g.pc + 8 ∧ y.mask = g.mask ∧ y.block = .tensor n))
  ∧ (∀ (w : Site) (h : Hdr) (low : BitVec 26) (s : State) (st : Str) (g : Group) (rest : List Group) (n : Nat),
    s.str? w.engine.val w.place.val = some st → st.groups = g :: rest → g.block = .tensor n →
    exec (.twait w h low) s = .next s ∧ exec (.nop w h low) s = .next s ∧ exec (.exit w h low) s = .next s)
  ∧ (∀ (engine : Fin 32) (id : Nat) (host : Option (List Byte)) (s : State) (x : TIns),
    let e := engine.val
    s.working = true → s.frozen e = false → (s.eng e).tensors.find? (fun y => y.id = id) = some x → x.kind = .tmma →
    x.started = true →
    ∃ t, exec (.tensorInstructionComplete engine id host) s = .next t ∧ ∀ p st, t.str? e p = some st →
      let own := ((t.eng e).tensors.filter (fun y => y.place = p && y.queue = st.queue && y.cmd = st.cmd)).length
      (∀ g ∈ st.groups, ∀ n, g.block = .tensor n → n < own)
      ∧ ∀ old, s.str? e p = some old → ∀ g ∈ old.groups, ∀ n, g.block = .tensor n → n < own →
          ∃ y ∈ st.groups, y.block = .tensor n ∧ y.pc = g.pc ∧ y.mask = g.mask)

/-- R405. -/
def Obligations.TextureInstructionsFillTheirRegisters : Prop :=
  (∀ (i : Instr) (f : TexForm), texForm i = some f →
    ∀ (s : State) (st : Str) (g : Group) (rest : List Group),
      let e := f.site.engine.val
      let p := f.site.place.val
      let a := actOf f.site f.hdr st g
      let n := if f.ops.packed then 2 else 4
      let u := texUse f.hdr f.ops f.extra f.sampler
      CanIssue s f.site f.hdr u st g rest →
      (∃ t, exec i s = .next t ∧ ReadOutcome s t f.site f.hdr st g rest n ∧ MemoryKept s t)
      ∧ ∀ v s1 l s2, (s.issued f.site 5 st).texEnv a f.ops f.sampler f.ext = (.ok v, s1) →
          s1.translateLanes a (f.fetches a s1 v) accRead = (.ok l, s2) → L1Agrees s2 e →
          LanesLocal s2 l (match v.fmt with | some x => x.bytes | none => 4) → (∀ x ∈ l, x.target = 0) →
          (∀ x ∈ l, x.pa % 128 + (match v.fmt with | some x => x.bytes | none => 4) ≤ 128) →
          ∃ t st', exec i s = .next t ∧ t.str? e p = some st' ∧ Advanced st st' g rest ∧ MemoryKept s t
            ∧ st'.preds = st.preds ∧ st'.uregs = st.uregs ∧ Pends st st' u
            ∧ (∀ r j, j < 32 → (¬ Executes st g f.hdr j ∨ r < f.hdr.dst.toNat ∨ f.hdr.dst.toNat + n ≤ r) →
                st'.v r j = st.v r j)
            ∧ ∀ j x y q, lanesOf a.lanes = [j] → v.fmt = some x →
                f.planAt a s1 v j = { texels := [some y], exact := true, gather := false, taps := 1 } → l = [q] →
                ∃ free, st'.vn f.hdr.dst.toNat j n
                  = texResult v f.ops { texels := [some y], exact := true, gather := false, taps := 1 }
                      (st.v f.ops.ref.toNat j).toNat [x.decode v.img.format (memRead s.mem.cells q.pa x.bytes) y.2] free
                    % 2 ^ (32 * n))
  ∧ (∀ (w : Site) (h : Hdr) (t : TexOps) (ext : Option (List Byte)) (s : State) (st : Str) (g : Group) (rest : List Group),
      let u : Use := { use0 with
        wv := regs h.dst.toNat 4, ru := [2 * t.image.val, 2 * t.image.val + 1], ok := h.dst.toNat % 4 = 0 }
      CanIssue s w h u st g rest →
      (∃ t', exec (.tq w h t ext) s = .next t' ∧ ReadOutcome s t' w h st g rest 4 ∧ MemoryKept s t')
      ∧ ∀ v s1, (s.issued w 5 st).texEnv (actOf w h st g) t false ext = (.ok v, s1) →
          ∃ t' st', exec (.tq w h t ext) s = .next t' ∧ t'.str? w.engine.val w.place.val = some st'
            ∧ Advanced st st' g rest ∧ MemoryKept s t'
            ∧ (∀ i, Executes st g h i →
                (st'.v h.dst.toNat i).toNat = v.img.width % 2 ^ 32
                ∧ (v.img.width < 2 ^ 32 → v.img.height < 2 ^ 32 → v.img.depth < 2 ^ 32 → v.img.levels < 2 ^ 32 →
                  (st'.v (h.dst.toNat + 1) i).toNat = v.img.height ∧ (st'.v (h.dst.toNat + 2) i).toNat = v.img.depth
                  ∧ (st'.v (h.dst.toNat + 3) i).toNat = v.img.levels))
            ∧ (∀ r i, i < 32 → (¬ Executes st g h i ∨ r < h.dst.toNat ∨ h.dst.toNat + 4 ≤ r) → st'.v r i = st.v r i))

/-- R411: instructions on query records. -/
def Obligations.RayQueryRecordsChangeAsNamed : Prop :=
  ∀ (i : Instr) (w : Site) (h : Hdr) (u : Use) (f : Act → Nat → Rq → Rq), recordForm i = some (w, h, u, f) →
    ∀ (s : State) (st : Str) (g : Group) (rest : List Group) (v : Wg),
      let a := actOf w h st g
      let addr := fun (j : Nat) => (st.v h.src0.toNat j).toNat
      let after := fun (j : Nat) => f a j (rqOf (v.read (addr j) 512))
      CanIssue s w h u st g rest → s.wg? w.engine.val st.wg = some v → RecordsApart v st g h →
      ∃ t st' v', exec i s = .next t ∧ t.str? w.engine.val w.place.val = some st' ∧ Advanced st st' g rest
        ∧ st'.vregs = st.vregs ∧ st'.preds = st.preds ∧ MemoryKept s t ∧ t.wg? w.engine.val st.wg = some v'
        ∧ (∀ j, Executes st g h j → v'.read (addr j) (after j).bytes.length = (after j).bytes)
        ∧ (∀ b, (∀ j, Executes st g h j → b < addr j ∨ addr j + 512 ≤ b) → v'.byte b = v.byte b)

/-- R411, R413, R414. -/
def Obligations.RayAndPointQueriesAnswerTheirStatus : Prop :=
  ∀ (w : Site) (h : Hdr) (ext : Option (List Byte)) (s : State) (st : Str) (g : Group) (rest : List Group) (v : Wg),
    let e := w.engine.val
    let p := w.place.val
    let a := actOf w h st g
    let lanes := lanesOf (g.mask &&& st.predLanes h)
    s.wg? e st.wg = some v →
    (CanIssue s w h (useV [h.src0] h.dst) st g rest →
      (∃ t, exec (.rqProceed w h ext) s = .next t ∧ ReadOutcome s t w h st g rest 1)
      ∧ (∀ j q x t1, lanes = [j] → (s.issued w 6 st).rqRun a { a.record v j with candidate := 0 } ext nodeFuel
            = (.ok (some q, x), t1) →
          ∃ t st' v', exec (.rqProceed w h ext) s = .next t ∧ t.str? e p = some st' ∧ Advanced st st' g rest
            ∧ (st'.v h.dst.toNat j).toNat = q.status ∧ t.wg? e st.wg = some v' ∧ v' = a.putRecord v j q)
      ∧ (RecordsApart v st g h → (∀ j ∈ lanes, (a.record v j).stack = []) →
          ∃ t st', exec (.rqProceed w h ext) s = .next t ∧ t.str? e p = some st' ∧ Advanced st st' g rest
            ∧ MemoryKept s t ∧ ∀ j ∈ lanes, (st'.v h.dst.toNat j).toNat
                = (if (a.record v j).malformed then 4 else if (a.record v j).committed ≠ 0 then 1 else 0)))
    ∧ (∀ (com : Bool) (f : RqField),
      CanIssue s w h { use0 with rv := [h.src0.toNat], wv := regs h.dst.toNat (rqSize f) } st g rest →
      (∃ t, exec (.rqGet w h com f ext) s = .next t)
      ∧ (∀ j b x t1, lanes = [j] → com = true → (a.record v j).committed ≠ 0 → (a.record v j).comInst = 0 →
          (s.issued w 6 st).qRead a (a.record v j).comNode 64 ext = (.ok (b, x), t1) →
          ∃ t st' free, exec (.rqGet w h com f ext) s = .next t ∧ t.str? e p = some st' ∧ Advanced st st' g rest
            ∧ ∀ k, k < ((a.record v j).field true f (a.record v j).committed b none free).length →
                st'.v (h.dst.toNat + k) j
                  = BitVec.ofNat 32 (((a.record v j).field true f (a.record v j).committed b none free).getD k 0))
      ∧ ((∀ j ∈ lanes, (if com then (a.record v j).committed else (a.record v j).candidate) = 0) →
          ∃ t st', exec (.rqGet w h com f ext) s = .next t ∧ t.str? e p = some st' ∧ Advanced st st' g rest
            ∧ st'.preds = st.preds ∧ MemoryKept s t))
    ∧ (CanIssue s w h { use0 with rv := h.src0.toNat :: regs h.src1.toNat 10, wv := regs h.dst.toNat 2 } st g rest →
      st.helpers = [] →
      (∃ t, exec (.pqKnn w h ext) s = .next t ∧ ReadOutcome s t w h st g rest 2)
      ∧ (∃ t, exec (.pqRadius w h ext) s = .next t ∧ ReadOutcome s t w h st g rest 2)
      ∧ (∀ j found x t1, lanes = [j] → (a.pq j).shared = true → (a.pq j).addr % 8 = 0 →
          ((s.issued w 6 st).drew 32).pqRun a (a.pq j) [(a.pq j).root] [] ext nodeFuel = (.ok (some (found, true), x), t1) →
          (1 ≤ (a.pq j).count → (a.pq j).count ≤ 64 →
            ∃ t st', exec (.pqKnn w h ext) s = .next t ∧ t.str? e p = some st' ∧ Advanced st st' g rest
              ∧ (st'.v h.dst.toNat j).toNat = min (a.pq j).count (sortFound found).length
              ∧ (st'.v (h.dst.toNat + 1) j).toNat = (if (sortFound found) = [] then 0 else 1))
          ∧ (∃ t st', exec (.pqRadius w h ext) s = .next t ∧ t.str? e p = some st' ∧ Advanced st st' g rest
              ∧ st'.v h.dst.toNat j = BitVec.ofNat 32 found.length
              ∧ (st'.v (h.dst.toNat + 1) j).toNat = (if found = [] then 0 else 1))))

/-- R404, R400, R157. -/
def Obligations.TileAccessReadsAndWritesTheTile : Prop :=
  ∀ (w : Site) (h : Hdr) (s : State) (st : Str) (g : Group) (rest : List Group),
    let e := w.engine.val
    let p := w.place.val
    let a := actOf w h st g
    let lanes := lanesOf (g.mask &&& st.predLanes h)
    (∀ (att : Fin 5) (sample : Fin 8) (ord : Bool),
      let n := if att.val = 4 then 2 else 4
      st.isFragment = true →
      ∀ id pass ts own, (s.issued w 0xC st).fragOf a.str = some (id, pass, ts, own) →
        (s.issued w 0xC st).passRuns pass = true →
        (CanIssue s w h { use0 with wv := regs h.dst.toNat n, ok := h.dst.toNat % n = 0 } st g rest →
          ∀ j l t1, lanes = [j] → (s.issued w 0xC st).tlaLane pass ts own (mgetD st.pixels j 0) att.val sample.val ord
              = (.value l, t1) →
            ∃ t st', exec (.tla w h att sample ord) s = .next t ∧ t.str? e p = some st' ∧ Advanced st st' g rest
              ∧ st'.vn h.dst.toNat j n = foldIdx l 0 (fun b k x => b + x * 2 ^ (32 * k)) % 2 ^ (32 * n)
              ∧ (∀ r i, i < 32 → (i ≠ j ∨ r < h.dst.toNat ∨ h.dst.toNat + n ≤ r) → st'.v r i = st.v r i))
        ∧ (CanIssue s w h { use0 with rv := regs h.src0.toNat n, ok := h.src0.toNat % n = 0 } st g rest →
          st.helpers = [] → (attOf pass.payload att.val).format ≠ 0 → sample.val < 2 ^ pass.logS →
          (ord = false ∨ ∀ j ∈ lanes, (s.issued w 0xC st).orderedReady pass ts own (mgetD st.pixels j 0) = true) →
          ∃ t st' pass', exec (.tsa w h att sample ord) s = .next t ∧ t.str? e p = some st' ∧ Advanced st st' g rest
            ∧ st'.vregs = st.vregs ∧ MemoryKept s t ∧ t.pass? id = some pass'
            ∧ pass'.writes.map (fun x => (x.order, x.prim, x.x, x.y, x.att, x.sample, x.ordered))
              = pass.writes.map (fun x => (x.order, x.prim, x.x, x.y, x.att, x.sample, x.ordered))
                ++ lanes.map (fun j => (own.order, own.prim, mgetD st.pixels j 0 % 65536, mgetD st.pixels j 0 / 65536,
                    att.val, sample.val, ord))))
    ∧ (∀ (size : Fin 3),
      let n := 2 ^ (size.val + 2)
      let off := fun (j : Nat) => (st.v h.src0.toNat j).toNat
      let held := (s.eng e).gfxHolds.foldl (fun m q => m + q.2) 0
      (CanIssue s w h { use0 with
          rv := [h.src0.toNat], wv := regs h.dst.toNat (n / 4), ok := h.dst.toNat % (n / 4) = 0 } st g rest →
        ((∀ j ∈ lanes, off j % n = 0 ∧ held ≤ off j / 262144 ∧ off j + n ≤ 2 ^ 22) →
          ∃ t st', exec (.tldr w h size) s = .next t ∧ t.str? e p = some st' ∧ Advanced st st' g rest ∧ OnlyString s t w
            ∧ (∀ j ∈ lanes, st'.vn h.dst.toNat j (n / 4)
                = leNat ((List.range n).map (fun k => (s.eng e).tileByte (off j + k))))
            ∧ (∀ r i, i < 32 → (¬ Executes st g h i ∨ r < h.dst.toNat ∨ h.dst.toNat + n / 4 ≤ r) → st'.v r i = st.v r i))
        ∧ ((∃ j ∈ lanes, off j % n ≠ 0) →
          ∃ t, exec (.tldr w h size) s = .next t ∧ Stopped s t e st.queue st.cmd 0x0102 0))
      ∧ (CanIssue s w h { use0 with
          rv := h.src0.toNat :: regs h.src1.toNat (n / 4), ok := h.src1.toNat % (n / 4) = 0 } st g rest →
        st.helpers = [] →
        ((∀ j ∈ lanes, off j % n = 0 ∧ off j + n ≤ 2 ^ 22) → (∀ x ∈ (s.eng e).tensors, x.started = false) →
          ∃ t st', exec (.tstr w h size) s = .next t ∧ t.str? e p = some st' ∧ Advanced st st' g rest
            ∧ st'.vregs = st.vregs ∧ MemoryKept s t
            ∧ (∀ j ∈ lanes, (∀ i ∈ lanes, off i = off j → i ≤ j) → ∀ k, k < n →
                (t.eng e).tileByte (off j + k) = (leBytes n (st.vn h.src1.toNat j (n / 4))).getD k 0)
            ∧ (∀ b, (∀ j ∈ lanes, b < off j ∨ off j + n ≤ b) → (t.eng e).tileByte b = (s.eng e).tileByte b))
        ∧ ((∃ j ∈ lanes, off j % n ≠ 0) →
          ∃ t, exec (.tstr w h size) s = .next t ∧ Stopped s t e st.queue st.cmd 0x0102 0)))

/-! ### Strings: events of the drover, the tensor bank and the launcher (chapters 03 and 04) -/

/-- R75, R77, R78, R81, R100. -/
def Obligations.DroverEventsChangeOneString : Prop :=
  ∀ (w : Site) (s : State) (st : Str), s.working = true → s.str? w.engine.val w.place.val = some st →
    let e := w.engine.val
    let p := w.place.val
    let same := fun (st' : Str) => st'.vregs = st.vregs ∧ st'.preds = st.preds ∧ st'.uregs = st.uregs
    (st.state = .ready → st.promoted = none →
      ∃ t, exec (.stringPromotion w) s = .next t ∧ t.str? e p = some { st with promoted := some (s.eng e).promotions }
        ∧ (t.eng e).promotions = (s.eng e).promotions + 1
        ∧ (∀ e' p', (e', p') ≠ (e, p) → t.str? e' p' = s.str? e' p') ∧ { t with engines := s.engines } = s)
    ∧ (∀ g rest, st.groups = g :: rest → st.state = .ready → g.block = .open → g.budget = 0 →
      ∃ t st', exec (.budgetExpiry w) s = .next t ∧ t.str? e p = some st' ∧ GaveWay st' g rest ∧ same st'
        ∧ OnlyString s t w ∧ Counted s t blkCE e 0x021 1)
    ∧ (∀ pc, (∀ id, st.state ≠ .parked id) →
      ∃ t st', exec (.sleepExpiry w pc) s = .next t ∧ t.str? e p = some st' ∧ OnlyString s t w ∧ same st'
        ∧ LanesKept st.groups st' ∧ (∀ g ∈ st'.groups, g.pc = pc → ∀ n, g.block ≠ .sleep n)
        ∧ ((∃ g ∈ st.groups, g.pc = pc ∧ ∃ n, g.block = .sleep n) → st'.state = .ready))
    ∧ (∀ reg : Fin 576, (s.owes e p reg.val = true → exec (.scoreboardRelease w reg) s = .next s)
      ∧ (s.owes e p reg.val = false →
        ∃ t st', exec (.scoreboardRelease w reg) s = .next t ∧ t.str? e p = some st' ∧ OnlyString s t w ∧ same st'
          ∧ LanesKept st.groups st' ∧ st'.busy = st.busy.filter (fun r => r ≠ reg.val)
          ∧ (∀ g ∈ st'.groups, g.block ≠ .scoreboard)))

/-- R72 to R74, R76. Launches of graphics strings follow R385. -/
def Obligations.WorkgroupsLaunchWholeAndLeaveWhole : Prop :=
  (∀ (engine : Fin 32) (i : Nat) (ext : Option (List Byte)) (s : State) (d : Disp),
    let e := engine.val
    let n := (d.threads + 31) / 32
    let key := (s.eng e).nextWg
    s.working = true → s.frozen e = false → s.fenced 0 e = false → (s.eng e).disps[i]? = some d →
    let build := fun (k : Nat) (stamp : Word) =>
      let lanes := min 32 (d.threads - 32 * k)
      Str.launch d.queue d.cmd key .compute d.regs stamp d.entry (lowLanes lanes)
        (loop lanes [] (fun m l => if 32 * k + l = 0 then m else mset m l (BitVec.ofNat 32 (32 * k + l))))
        (let u := mset (mset [] 0 (BitVec.ofNat 64 d.next)) 1 d.args
         if d.u2 = 0 then u else mset u 2 d.u2)
    let fits := ((s.eng e).launchAll ((List.range n).map (fun k => (d.regs, build k)))).isSome = true
    (d.next < d.total → (s.eng e).sharedBytes + d.shared ≤ 196608 → fits →
      ∃ t wg, exec (.workgroupLaunch engine (.compute i) ext) s = .next t ∧ MemoryKept s t
        ∧ t.wg? e key = some wg ∧ wg.threads = d.threads ∧ wg.sharedSize = d.shared ∧ wg.index = d.next ∧ wg.strings = n
        ∧ wg.exited = 0 ∧ wg.bars = [] ∧ wg.shared = []
        ∧ (t.eng e).disps[i]? = some { d with next := d.next + 1 } ∧ (t.eng e).nextWg = key + 1
        ∧ (∀ p st, s.str? e p = some st → t.str? e p = some st)
        ∧ ∀ k, k < n → ∃ p st, s.str? e p = none ∧ p < 64 ∧ t.str? e p = some st ∧ st.wg = key ∧ st.state = .ready
            ∧ st.queue = d.queue ∧ st.cmd = d.cmd ∧ st.regs = d.regs
            ∧ st.groups = [{ pc := d.entry, mask := lowLanes (d.threads - 32 * k), budget := 64, block := .open }]
            ∧ st.live = lowLanes (d.threads - 32 * k) ∧ st.u 0 = BitVec.ofNat 64 d.next ∧ st.u 1 = d.args
            ∧ (∀ l, l < 32 → 32 * k + l < d.threads → st.v 0 l = BitVec.ofNat 32 (32 * k + l))
            ∧ (∀ r l, 0 < r → l < 32 → st.v r l = 0) ∧ (∀ q, q < 7 → st.p q = 0) ∧ st.busy = [])
    ∧ ((d.total ≤ d.next ∨ 196608 < (s.eng e).sharedBytes + d.shared ∨ ¬ fits) →
      exec (.workgroupLaunch engine (.compute i) ext) s = .next s))
  ∧ (∀ (engine : Fin 32) (pass order prim : Nat) (l : List Nat) (ext : Option (List Byte)) (s : State),
      (∃ t, exec (.workgroupLaunch engine (.vertex pass order l) ext) s = .next t)
      ∧ (∃ t, exec (.workgroupLaunch engine (.fragment pass order prim l) ext) s = .next t ∧ MemoryKept s t
          ∧ ∀ p st, s.str? engine.val p = some st → t.str? engine.val p = some st))
  ∧ (∀ (w : Site) (s : State) (st : Str), s.working = true → s.frozen w.engine.val = false →
      s.str? w.engine.val w.place.val = some st → st.kind = .compute →
      (st.state = .draining → s.strOwed w.engine.val w.place.val = false →
        ∃ t, exec (.stringFree w) s = .next t ∧ t.str? w.engine.val w.place.val = none ∧ MemoryKept s t
          ∧ (∀ p, p ≠ w.place.val → t.str? w.engine.val p = s.str? w.engine.val p)
          ∧ (∀ v, s.wg? w.engine.val st.wg = some v →
              t.wg? w.engine.val st.wg = if v.strings ≤ 1 then none else some { v with strings := v.strings - 1 }))
      ∧ ((st.state ≠ .draining ∨ s.strOwed w.engine.val w.place.val = true) → exec (.stringFree w) s = .next s))

/-- R59, R62 to R66, R114, R115: with wrapping sums the order and the splitting of the products do not matter. -/
def Obligations.IntegerTmmaIsTheExactDotProduct : Prop :=
  ∀ (engine : Fin 32) (id : Nat) (s : State) (t : TIns),
    let e := engine.val
    let v := s.eng e
    let elem := fun (d : Desc) (k i : Nat) => match v.operand d true k i with | .int x => x | .flt _ => 0
    s.working = true → s.frozen e = false → v.tensors.find? (fun x => x.id = id) = some t → t.kind = .tmma →
    t.gangSeq = none → t.started = false → t.faulted = false → v.mayStart e t = true → t.ieee = true → t.shape ≤ 3 →
    t.tmmaLegal e v.tb = true → t.a.code.isInt = true → t.b.code.isInt = true →
    t.c.fmt = 0x03 → t.c.sliceBytes ≤ 64 * t.c.pitch →
    ∃ r, exec (.tensorInstructionStart engine id) s = .next r ∧ MemoryKept s r
      ∧ (∀ i j, i < t.c.rows → j < t.c.cols →
          (r.eng e).elemCode t.c i j = wrapInt 32 ((if t.acc then sext 32 (v.elemCode t.c i j) else 0)
            + ((List.range t.b.rows).map (fun k => elem t.a k i * elem t.b k j)).sum))
      ∧ (∀ x ∈ (r.eng e).tensors, x.id = id → x.started = true) ∧ (r.eng e).strs = v.strs ∧ r.queues = s.queues

/-- R129 to R135, R138. -/
def Obligations.TensorInstructionsStartAndComplete : Prop :=
  ∀ (engine : Fin 32) (id : Nat) (host : Option (List Byte)) (s : State) (t : TIns),
    let e := engine.val
    let v := s.eng e
    s.working = true → s.frozen e = false → v.tensors.find? (fun x => x.id = id) = some t →
    let started := fun (r : State) => ∀ x ∈ (r.eng e).tensors, x.id = id → x.started = true
    let left := fun (r : State) => (r.eng e).tensors = v.tensors.filter (fun x => x.id ≠ id)
    let freed := fun (r : State) => ∀ p st, r.str? e p = some st → ∀ g ∈ st.groups, g.block ≠ .tensorFull
      ∧ ∀ n, g.block = .tensor n →
        n < ((r.eng e).tensors.filter (fun x => x.place = p && x.queue = st.queue && x.cmd = st.cmd)).length
    (t.started = false → t.faulted = false → v.mayStart e t = true →
      (t.kind = .tcvt → ∃ r, exec (.tensorInstructionStart engine id) s = .next r ∧ started r ∧ MemoryKept s r)
      ∧ (t.kind = .tfill → ∀ ps s1, s.moverPieces e (s.ctxOf t.queue t.cmd).1 t.memRows accRead = (.ok ps, s1) →
          ∃ r, exec (.tensorInstructionStart engine id) s = .next r ∧ started r ∧ MemoryKept s r)
      ∧ (t.kind = .tspill → ∀ ps s1, s.moverPieces e (s.ctxOf t.queue t.cmd).1 t.memRows accWrite = (.ok ps, s1) →
          ∃ r, exec (.tensorInstructionStart engine id) s = .next r ∧ started r ∧ MemoryKept s r)
      ∧ (t.kind = .tmma → ∀ n ins, t.gangSeq = some n →
          ins = (quadOf e).filterMap (fun m =>
            ((s.eng m).tensors.find? (fun x => x.gangSeq = some n && !x.started)).map (fun x => (m, x))) →
          ins.length = 4 → (∀ m ∈ quadOf e, (s.eng m).gangParked = false) →
          (∀ x ∈ ins, (s.eng x.1).mayStart x.1 x.2 = true) → gangAgree ins = true →
          ∃ r, exec (.tensorInstructionStart engine id) s = .next r ∧ MemoryKept s r
            ∧ ∀ x ∈ ins, ∀ y ∈ (r.eng x.1).tensors, y.id = x.2.id → y.started = true))
    ∧ (t.started = true →
      (t.kind = .tmma → ∃ r, exec (.tensorInstructionComplete engine id host) s = .next r ∧ left r ∧ freed r
        ∧ MemoryKept s r ∧ (r.eng e).tile = v.tile)
      ∧ (t.kind = .tcvt → ∃ r, exec (.tensorInstructionComplete engine id host) s = .next r ∧ left r ∧ freed r
        ∧ MemoryKept s r ∧ (r.eng e).tile = ((s.runTcvt e t).eng e).tile)
      ∧ (t.kind = .tfill → ∀ ps s1 rows s2, s.moverPieces e (s.ctxOf t.queue t.cmd).1 t.memRows accRead = (.ok ps, s1) →
          s1.moverRead ps host = ((rows, false), s2) →
          ∃ r, exec (.tensorInstructionComplete engine id host) s = .next r ∧ left r ∧ freed r ∧ MemoryKept s r
            ∧ (r.eng e).tile = (v.fillRegion t rows).tile)
      ∧ (t.kind = .tspill → ∀ ps s1, s.moverPieces e (s.ctxOf t.queue t.cmd).1 t.memRows accWrite = (.ok ps, s1) →
          ∃ r, exec (.tensorInstructionComplete engine id host) s = .next r ∧ left r ∧ freed r ∧ (r.eng e).tile = v.tile))
    ∧ (t.started = false → exec (.tensorInstructionComplete engine id host) s = .next s)

/-- R137, R139, R146, R148. -/
def Obligations.GangsArriveStartAndResumeTogether : Prop :=
  (∀ (engine : Fin 32) (s : State) (q cmd : Nat) (a : Nat × Nat × Nat),
    let e := engine.val
    let at_ := fun (m : Nat) => (s.eng m).atGang
    let arrived := fun (m : Nat) => if m = e then some a else (s.eng m).arrive
    s.working = true → s.frozen e = false → (s.eng e).stopped = false → s.fenced 0 e = false → s.ucodeTurn ≠ some e →
    at_ e = some (q, cmd) → s.arriveOf q cmd = some a →
    ((∃ m ∈ quadOf e, arrived m = none) →
      ∃ t, exec (.gangArrive engine) s = .next t ∧ (t.eng e) = { s.eng e with arrive := some a }
        ∧ ∀ m, m ≠ e → t.eng m = s.eng m)
    ∧ ((∀ m ∈ quadOf e, arrived m = some a) →
      ∃ t, exec (.gangArrive engine) s = .next t ∧ MemoryKept s t
        ∧ (∀ m ∈ quadOf e, at_ m ≠ none → (t.eng m).atGang = none ∧ (t.eng m).arrive = none ∧ (t.eng m).gangParked = false)
        ∧ ((∀ m ∈ quadOf e, ∀ m' ∈ quadOf e, m ≠ m' → (at_ m).map (fun x => x.1) ≠ (at_ m').map (fun x => x.1)) →
            ∀ m ∈ quadOf e, ∀ q' v c, at_ m = some (q', c.index) → s.queue? q' = some v → s.cmd? q' c.index = some c →
              c.st = .accepted →
              (t.eng m).disps = (s.eng m).disps ++ [dispOf q' c (getLe c.payload 0 8) 0 true]))
    ∧ ((∀ m ∈ quadOf e, arrived m ≠ none) → (∃ m ∈ quadOf e, arrived m ≠ some a) →
      ∃ t, exec (.gangArrive engine) s = .next t
        ∧ ∀ m ∈ quadOf e, ∀ q' c, at_ m = some (q', c.index) → s.cmd? q' c.index = some c → (∀ x, c.st ≠ .ended x) →
            t.cmd? q' c.index = some { c with st := .ended 0x0105, detail := 0 }))
  ∧ (∀ (engine : Fin 32) (s : State), s.working = true →
      (∀ m ∈ quadOf engine.val, (s.eng m).gangHeld = false ∧ (s.eng m).atGang = none ∧ s.frozen m = false) →
      ∃ t, exec (.gangResume engine) s = .next t
        ∧ (∀ m ∈ quadOf engine.val, t.eng m = { s.eng m with gangParked := false })
        ∧ (∀ m, m ∉ quadOf engine.val → t.eng m = s.eng m) ∧ { t with engines := s.engines } = s)

/-- R141, R142, R145. -/
def Obligations.GranuleBoundaryMovesForTheWaiting : Prop :=
  ∀ (engine : Fin 32) (s : State) (k : Nat) (x : Partition),
    let e := engine.val
    let v := s.eng e
    let gfx := v.gfxHolds.foldl (fun a p => max a p.2) 0
    let tns := v.disps.foldl (fun a d => max a d.granules) 0
    s.working = true → s.frozen e = false → s.partOf e = some k → s.part? k = some x →
    (∀ n, v.waitTns = some n →
      (16 - n < v.tb → x.gfxMin ≤ 16 - n → gfx ≤ 16 - n →
        ∃ t, exec (.granuleBoundaryMove engine) s = .next t ∧ (t.eng e).tb = 16 - n ∧ (t.eng e).waitTns = none
          ∧ (t.eng e).strs = v.strs ∧ MemoryKept s t
          ∧ (∀ b, b / 262144 < 16 - n ∨ v.tb ≤ b / 262144 → (t.eng e).tileByte b = v.tileByte b)
          ∧ (∀ i, 16 - n ≤ i → i < v.tb → mhas (t.eng e).tileFree i = true
              ∧ ∀ b, b / 262144 = i → mget (t.eng e).tile b = none))
      ∧ ((v.tb ≤ 16 - n ∨ 16 - n < x.gfxMin ∨ 16 - n < gfx) → exec (.granuleBoundaryMove engine) s = .next s))
    ∧ (∀ n, v.waitTns = none → v.waitGfx = some n →
      (v.tb < n → x.tnsMin ≤ 16 - n → tns ≤ 16 - n →
        ∃ t, exec (.granuleBoundaryMove engine) s = .next t ∧ (t.eng e).tb = n ∧ (t.eng e).waitGfx = none
          ∧ (t.eng e).strs = v.strs ∧ MemoryKept s t
          ∧ (∀ b, b / 262144 < v.tb ∨ n ≤ b / 262144 → (t.eng e).tileByte b = v.tileByte b))
      ∧ ((n ≤ v.tb ∨ 16 - n < x.tnsMin ∨ 16 - n < tns) → exec (.granuleBoundaryMove engine) s = .next s))
    ∧ (v.waitTns = none → v.waitGfx = none → exec (.granuleBoundaryMove engine) s = .next s)

/-! ### Mailboxes: checks, answers, sessions (chapters 08 and 09) -/

/-- R293, with R291 for repeats. E_FLT_FATAL (R490) has no place in R293's list; the model's is after check 8 (log entry
62). A strongroom request whose increase is under way waits (log entry 63), so it is left out. -/
def Obligations.RequestsAreCheckedInOrder : Prop :=
  ∀ (i : Instr) (m : MbxRow) (s : State), mbxRow i = some m →
    let p := s.mbx m.pair.val
    let fails := fun (r : Req) (keeps : Bool) (err : Nat) =>
      ∃ t, exec i s = .next t ∧ Responds s t r keeps 1 0 err (zeros 48)
    ((s.up = false ∨ s.fw.mbxReady = false ∨ s.fw.updating = true ∨ s.halted = true ∨ p.reqPending = false
        ∨ p.held ≠ none ∨ getLe p.req 0 2 ≠ m.op ∨ m.mine p.req = false) → exec i s = .next s)
    ∧ ((m.op = 0x0330 → s.mem.srTarget = none) → ∀ r,
      (Asked s m r → (r.proto = 0 ∨ 3 < r.proto) → fails r false 0x0009)
      ∧ (Asked s m r → 2 ≤ r.proto → r.proto ≤ 3 → getLe r.body 0x0C 4 ≠ frameCrc r.body → fails r false 0x0001)
      ∧ (WellFramed s m r → s.session? r.session = none → (r.session ≠ 0 ∨ m.op ≠ 0x0001) → fails r false 0x0004)
      ∧ ∀ x, s.session? r.session = some x →
        (WellFramed s m r → r.proto ≠ x.rev → fails r false 0x0009)
        ∧ (WellFramed s m r → r.proto = x.rev → ∀ k, x.kept.find? (fun k => k.tag = r.tag) = some k →
          (k.crc.toNat ≠ frameCrc r.body → fails r false 0x000B)
          ∧ (k.crc.toNat = frameCrc r.body → ∃ t, exec i s = .next t ∧ { t with host := s.host, fw := s.fw } = s
              ∧ (p.rspReady = false → Raised s t m.pair.val
                ∧ t.mbx m.pair.val = { p with rsp := replayed r.proto k.rsp, rspReady := true, reqPending := false, held := none })
              ∧ (p.rspReady = true → t.mbx m.pair.val = { p with held := some (replayed r.proto k.rsp) })
              ∧ (∀ n, n ≠ r.session → t.session? n = s.session? n)
              ∧ ∃ y, t.session? r.session = some { x with kept := y }
                ∧ y.map (fun (j : Kept) => (j.tag, j.crc, j.rsp, j.running)) = x.kept.map (fun j => (j.tag, j.crc, j.rsp, j.running))))
        ∧ (InSession s m r x →
          (x.authed = false → m.op ≠ 0x0002 → m.op ≠ 0x0003 → fails r true 0x0005)
          ∧ ((x.authed = true ∨ m.op = 0x0002 ∨ m.op = 0x0003) → ∀ c, catalogue m.op = some c →
            (x.rev < c.rev → fails r true 0x0002)
            ∧ (c.rev ≤ x.rev → x.role ∉ c.roles → fails r true 0x0006)
            ∧ (c.rev ≤ x.rev → x.role ∈ c.roles → s.flt.fatal = true → m.op ∉ fatalOpcodes → fails r true 0x0901)
            ∧ (c.rev ≤ x.rev → x.role ∈ c.roles → (s.flt.fatal = false ∨ m.op ∈ fatalOpcodes) →
                c.reservedZero r.body = false → fails r true 0x0003))))

/-- R260, R261, R280 to R282, R291; PING (R298); the cookie of a response (R273, R277, R279). -/
def Obligations.AnswersReachTheirPair : Prop :=
  (∀ (op tag session proto status flags err : Nat) (res : List Byte), op < 65536 → tag < 65536 → session < 2 ^ 32 →
      status < 256 → flags < 256 → err < 65536 → res.length = 48 →
      let b := response op tag session proto status flags err res
      b.length = 64 ∧ getLe b 0 2 = op ∧ getLe b 2 2 = tag ∧ getLe b 4 4 = session ∧ getLe b 8 1 = status
      ∧ getLe b 9 1 = flags ∧ getLe b 0x0A 2 = err ∧ b.drop 16 = res
      ∧ getLe b 0x0C 4 = (if proto = 2 ∨ proto = 3 then frameCrc b else 0)
      ∧ (let c := replayed proto b
        c.length = 64 ∧ getLe c 9 1 = (if flags % 2 = 1 then flags else flags + 1) ∧ c.take 9 = b.take 9
        ∧ getLe c 0x0A 2 = err ∧ c.drop 16 = res ∧ getLe c 0x0C 4 = (if proto = 2 ∨ proto = 3 then frameCrc c else 0)))
  ∧ (∀ (pair : Fin 8) (s : State), s.windowOpen = true → s.halted = false → s.power.st = .run → s.power.drain = false →
      let n := pair.val
      let p := s.mbx n
      let u := s.setMbx n { p with reqPending := true }
      (p.reqPending = false → (catalogue (getLe p.req 0 2)).isSome = true → exec (.mbxPost pair) s = .next u)
      ∧ (p.reqPending = false → ∀ r x, InSession u ⟨pair, r.op, fun _ => true⟩ r x → x.authed = true →
          catalogue r.op = none → ∃ t, exec (.mbxPost pair) s = .next t ∧ Responds u t r true 1 0 0x0002 (zeros 48))
      ∧ (p.rspReady = true → p.held = none →
          exec (.mbxAck pair) s = .next (s.setMbx n { p with rspReady := false, haltAck := false }))
      ∧ (∀ b, p.rspReady = true → p.held = some b → ∃ t, exec (.mbxAck pair) s = .next t ∧ Raised s t n
          ∧ t.mbx n = { p with rsp := b, rspReady := true, reqPending := false, held := none }
          ∧ (∀ k, k ≠ n → t.mbx k = s.mbx k) ∧ { t with host := s.host } = s)
      ∧ (p.rspReady = false → exec (.mbxAck pair) s = .next s))
  ∧ (∀ (pair : Fin 8) (s : State) (r : Req) (x : Session), Serves (.ping pair) s r x →
      ∃ t, exec (.ping pair) s = .next t ∧ Responds s t r true 0 0 0 (result [(0x10, 8, r.n 0x10 8), (0x18, 8, s.stamp domM)])
        ∧ getLe (result [(0x10, 8, r.n 0x10 8), (0x18, 8, s.stamp domM)]) 0 8 = r.n 0x10 8
        ∧ (let c := s.ring 0
          (s.mbx pair.val).rspReady = false → s.host.d3hot = false →
          (c.enabled = true → c.fenced = false → (c.tail - c.head).toNat ≠ c.slots →
            (t.ring 0).tail = c.tail + 1 ∧ (t.ring 0).owed = false
            ∧ OutMsg.write (c.base.toNat + 16 * (c.tail.toNat % c.slots))
                (leBytes 2 (pair.val + (if c.tail.toNat / c.slots % 2 = 0 then 0x8000 else 0)) ++ leBytes 1 3
                  ++ leBytes 1 (if c.owed then 2 else 0) ++ leBytes 4 pair.val ++ leBytes 8 r.tag) ∈ t.host.out)
          ∧ ((c.fenced = true ∨ (c.enabled = true ∧ (c.tail - c.head).toNat = c.slots)) →
            t.ring 0 = { c with dropped := satInc c.dropped, owed := true })
          ∧ (c.enabled = false → c.fenced = false → t.ring 0 = c)))

/-- R285, R287 to R289, R298; DIAG_OPEN (R301) and DEBUG_UNLOCK (R530). The challenge is a free value (log entry 2). -/
def Obligations.SessionsOpenAuthenticateAndEnd : Prop :=
  (∀ (pair : Fin 8) (s : State) (r : Req), WellFramed s ⟨pair, 1, fun _ => true⟩ r → r.session = 0 → s.session? 0 = none →
    (∀ c, catalogue 1 = some c → c.reservedZero r.body = true) →
    let role := r.n 0x10 1
    let lo := r.n 0x11 1
    let hi := min (r.n 0x12 1) 3
    let fails := fun (e : Nat) =>
      ∃ t, exec (.sessionOpen pair) s = .next t ∧ Responds s t r false 1 0 e (zeros 48)
    ((role = 0 ∨ 3 < role) → fails 0x0003)
    ∧ (1 ≤ role → role ≤ 3 → (hi < 1 ∨ hi < lo ∨ (2 ≤ role ∧ hi < 2)) → fails 0x0009)
    ∧ (1 ≤ role → role ≤ 3 → 1 ≤ hi → lo ≤ hi → (role = 1 ∨ 2 ≤ hi) →
      ((64 ≤ s.fw.sessions.length ∨ (role = 2 ∧ 4 ≤ s.sessionsOf 2) ∨ (role = 3 ∧ 1 ≤ s.sessionsOf 3)) → fails 0x000A)
      ∧ ((s.fw.sessions.length < 64 ∧ (role = 2 → s.sessionsOf 2 < 4) ∧ (role = 3 → s.sessionsOf 3 < 1)) →
        ∃ n ch res t u, n ≠ 0 ∧ n < 2 ^ 32 ∧ s.session? n = none ∧ ch.length = 32 ∧ exec (.sessionOpen pair) s = .next t
          ∧ Responds u t { r with session := n } false 0 0 0 res
          ∧ getLe res 0 4 = n ∧ getLe res 4 1 = hi ∧ slice res 8 32 = ch
          ∧ (let y : Session := ⟨role, hi, false, ch, false, 0, [], false⟩
            u = { s with
              clk := { s.clk with fresh := s.clk.fresh + 1 }
              fw := { s.fw with sessions := mset s.fw.sessions n y, nextSession := BitVec.ofNat 32 (n + 1) } }))))
  ∧ (∀ (pair : Fin 8) (buf : Option (List Byte)) (s : State) (r : Req) (x : Session),
    Serves (.sessionAuth pair buf) s r x →
    let i := Instr.sessionAuth pair buf
    let set := fun (y : Session) => { s with fw := { s.fw with sessions := mset s.fw.sessions r.session y } }
    (s.fw.authLocked = true → ∃ t u n, exec i s = .next t ∧ Responds u t r true 1 0 0x0008 (zeros 48) ∧ Recorded s t 0x03 n 0 0
      ∧ (∀ n, n ≠ r.session → u.session? n = s.session? n)
      ∧ u.session? r.session = (if 3 ≤ x.fails + 1 then none else some { x with fails := x.fails + 1 })
      ∧ { u with fw := s.fw, logbook := s.logbook } = s ∧ { u.fw with sessions := s.fw.sessions } = s.fw)
    ∧ (s.fw.authLocked = false → (r.n 0x10 8 % 8 ≠ 0 ∨ r.n 0x18 4 ≠ 3389 ∨ buf = none) → FailsWith i s r 0x000C)
    ∧ (∀ b slot, s.fw.authLocked = false → r.n 0x10 8 % 8 = 0 → r.n 0x18 4 = 3389 → buf = some b → b.length = 3389 →
        slot = getLe b 0 1 → getLe b 1 15 = 0 →
        let good := slot ≤ 15 ∧ slotRole slot = x.role ∧ x.expired = false
          ∧ s.bothVerify slot (x.challenge ++ leBytes 8 Config.dieId.toNat ++ leBytes 4 r.session ++ leBytes 1 x.role
              ++ leBytes 1 x.rev ++ zeros 2) (slice b 0x10 64) (slice b 0x50 3309) = true
        (good → ∃ t, exec i s = .next t ∧ Responds (set { x with authed := true }) t r true 0 0 0 (zeros 48)
          ∧ Recorded s t 0x03 slot 0 0)
        ∧ (¬ good → ∃ t u, exec i s = .next t ∧ Responds u t r true 1 0 0x0007 (zeros 48) ∧ Recorded s t 0x03 slot 0 0
          ∧ (∀ n, n ≠ r.session → u.session? n = s.session? n)
          ∧ u.session? r.session =
              (if x.expired = true ∨ 3 ≤ x.fails + 1 then none else some { x with fails := x.fails + 1 })
          ∧ { u with fw := s.fw, logbook := s.logbook } = s)))
  ∧ (∀ (pair : Fin 8) (s : State) (r : Req) (x : Session),
    (Serves (.sessionClose pair) s r x → ∃ t, exec (.sessionClose pair) s = .next t ∧ t.session? r.session = none
      ∧ Responds { s with fw := { s.fw with sessions := merase s.fw.sessions r.session } } t r true 0 0 0 (zeros 48))
    ∧ (Serves (.diagOpen pair) s r x → ∃ t, exec (.diagOpen pair) s = .next t ∧ Recorded s t 0x25 1 0 0
      ∧ Responds { s with fw := { s.fw with sessions := mset s.fw.sessions r.session { x with diag := true } } } t r true 0 0 0
          (zeros 48))
    ∧ (Serves (.debugUnlock pair) s r x → ∃ t, exec (.debugUnlock pair) s = .next t ∧ Recorded s t 0x25 0 0 0
      ∧ Responds { s with fw := { s.fw with debugOpen := true } } t r true 0 0 0 (zeros 48)))
  ∧ (∀ (session : Word) (s : State), ∃ t, exec (.challengeExpiry session) s = .next t ∧ { t with fw := s.fw } = s
      ∧ { t.fw with sessions := s.fw.sessions } = s.fw
      ∧ ∀ n, t.session? n = (s.session? n).map (fun x =>
          if n = session.toNat ∧ x.authed = false then { x with expired := true } else x))
  ∧ (∀ s : State, exec .authLockoutEnd s = .next { s with fw := { s.fw with authLocked := false } })

/-! ### The host window and link (chapter 08) -/

/-- R256 to R258, R261, R263, R264, R269. -/
def Obligations.RegistersReadAndWriteByOffset : Prop :=
  ∀ (s : State), HostOpen s →
    let reads := fun (off n v : Nat) (u : State) =>
      exec (.registerLowWordRead off n) s = .next (u.sent (.completion 0 (leBytes n v) false))
    (∀ off k v, off + 8 ≤ 2 ^ 24 → off % 8 = 0 → s.bar64 off = some (k, v) →
      let u := { s with host := { s.host with shadows := mset s.host.shadows k (BitVec.ofNat 32 (v / 2 ^ 32)) } }
      reads off 4 (v % 2 ^ 32) u ∧ reads off 8 v u ∧ reads (off + 4) 4 (mgetD s.host.shadows k 0).toNat s)
    ∧ (∀ off, off + 4 ≤ 2 ^ 24 → off % 4 = 0 → s.bar64 (off / 8 * 8) = none → reads off 4 (s.bar32 off) s)
    ∧ (∀ off, ((0x000500 ≤ off ∧ off < 0x010000) ∨ (0x022000 ≤ off ∧ off < 0x030000)
        ∨ (0x030400 ≤ off ∧ off < 0x040000) ∨ 0x064000 ≤ off) → s.bar32 off = 0)
    ∧ (∀ off n, off + n ≤ 2 ^ 24 → ¬ (n = 4 ∧ off % 4 = 0) → ¬ (n = 8 ∧ off % 8 = 0) → burstOk off n = false →
      exec (.registerLowWordRead off n) s = .next (s.sent (.completion 1 [] false)))
    ∧ (∃ v, s.bar64 0x010000 = some (0, v) ∧ v % 65536 = 0x3290) ∧ s.bar64 0x010008 = some (8, Config.dieId.toNat)
    ∧ s.bar64 0x010010 = some (0x10, 0x0001_0000_0000_0000)
    ∧ s.bar64 0x010020 = some (0x20, 3 * 2 ^ 56 + mgetD s.clk.counts 3 0 % 2 ^ 56)
    ∧ s.bar64 0x010028 = some (0x28, 2 ^ 56 + mgetD s.clk.counts 1 0 % 2 ^ 56)
    ∧ s.bar32 0x010018 = s.hrwState ∧ s.bar32 0x01001C = s.host.heartbeat.toNat
    ∧ s.bar32 0x010030 = s.host.writeLost.toNat ∧ s.bar32 0x010038 = s.host.apertureMiss.toNat
    ∧ (∀ i, i < 4 →
      let off := 0x010040 + 8 * i
      let old := mgetD s.host.scratch i 0
      s.bar64 off = some (0x40 + 8 * i, old.toNat)
      ∧ (∀ l : List Byte, l.length = 8 → exec (.registerWrite off l) s = .next { s with host := { s.host with
            scratch := mset s.host.scratch i (BitVec.ofNat 64 (leNat l)) } })
      ∧ (∀ l : List Byte, l.length = 4 →
        exec (.registerWrite off l) s = .next { s with host := { s.host with
            staged := mset s.host.staged off (BitVec.ofNat 32 (leNat l)) } }
        ∧ (let low := match mget s.host.staged off with | some w => w.toNat | none => old.toNat % 2 ^ 32
          exec (.registerWrite (off + 4) l) s = .next { s with host := { s.host with
            staged := merase s.host.staged off
            scratch := mset s.host.scratch i (BitVec.ofNat 64 (low + leNat l * 2 ^ 32)) } })))
    ∧ (∀ off (l : List Byte), l.length = 4 → off % 4 = 0 →
      (off < 0x010040 ∨ (0x010060 ≤ off ∧ off < 0x020000) ∨ (0x022000 ≤ off ∧ off < 0x030000)
        ∨ (0x030400 ≤ off ∧ off < 0x040000) ∨ (0x048000 ≤ off ∧ off + 4 ≤ 2 ^ 24)) →
      exec (.registerWrite off l) s = .next s)
    ∧ (∀ off (l : List Byte), l ≠ [] → off + l.length ≤ 2 ^ 24 → ¬ (l.length = 4 ∧ off % 4 = 0) →
      ¬ (l.length = 8 ∧ off % 8 = 0) → burstOk off l.length = false →
      ∃ t, exec (.registerWrite off l) s = .next t ∧ WriteLost s t off)
    ∧ (∀ (n : Fin 8) (o : Nat) (l : List Byte), (l.length = 4 ∨ l.length = 8) → o % l.length = 0 → o + l.length ≤ 0x40 →
      let p := s.mbx n.val
      let off := 0x020000 + 0x400 * n.val + o
      (p.reqPending = false →
        exec (.registerWrite off l) s = .next (s.setMbx n.val { p with req := putBytes p.req o l }))
      ∧ (p.reqPending = true → ∃ t, exec (.registerWrite off l) s = .next t ∧ WriteLost s t off))

/-- R300 and R301, R266, with registers of each block of R300. -/
def Obligations.RegistersAreReadAndWrittenByKey : Prop :=
  (∀ (pair : Fin 8) (s : State) (r : Req) (x : Session), Serves (.regRead pair) s r x →
    let i := Instr.regRead pair
    let key := r.n 0x10 4
    ((r.n 0x20 1 = 0 ∨ 4 < r.n 0x20 1) → FailsWith i s r 0x0003)
    ∧ (r.n 0x20 1 = 1 → 0x8000 ≤ key % 2 ^ 16 → x.diag = false → FailsWith i s r 0x0006)
    ∧ (r.n 0x20 1 = 1 → (key % 2 ^ 16 < 0x8000 ∨ x.diag = true) →
      (∀ v u, s.readKey key = some (v, u) → Succeeds i s u r 0 (result [(0x10, 8, v), (0x30, 1, 0)]))
      ∧ (s.readKey key = none → Succeeds i s s r 0 (result [(0x30, 1, 1)]))))
  ∧ (∀ (pair : Fin 8) (s : State) (r : Req) (x : Session), Serves (.regWrite pair) s r x →
    let i := Instr.regWrite pair
    let key := r.n 0x10 4
    let mask := r.n 0x20 8
    (0x8000 ≤ key % 2 ^ 16 → x.diag = false → FailsWith i s r 0x0006)
    ∧ (key % 2 ^ 16 < 0x8000 → s.readKey key = none → FailsWith i s r 0x000E)
    ∧ (∀ b off v, off < 0x4000 → off % 4 = 0 → key = b * 2 ^ 24 + off → (b = 3 ∨ b = 5 ∨ b = 0x0A ∨ b = 0x11 ∨ b = 0x12) →
        s.readKey key = some v → mask ≠ 0 → ∃ t u, exec i s = .next t ∧ Responds u t r true 1 0 0x0003 (zeros 48)
          ∧ { u with host := { u.host with shadows := s.host.shadows } } = s)
    ∧ (∀ n, n < 4 → key = 0x40 + 8 * n →
        let old := (mgetD s.host.scratch n 0).toNat
        let new := (old &&& (2 ^ 64 - 1 - mask)) ||| (r.n 0x18 8 &&& mask)
        ∃ t u, exec i s = .next t ∧ Responds u t r true 0 0 0 (result [(0x10, 8, new)])
          ∧ (mgetD u.host.scratch n 0).toNat = new ∧ (∀ m, m ≠ n → mgetD u.host.scratch m 0 = mgetD s.host.scratch m 0)
          ∧ { u with host := { u.host with scratch := s.host.scratch, shadows := s.host.shadows } } = s))
  ∧ ∀ (s : State),
    let shows := fun (key v : Nat) => (s.readKey key).map (fun x => x.1) = some v
    shows 0x00000018 s.hrwState ∧ shows 0x00000030 s.host.writeLost.toNat ∧ shows 0x0000003C s.host.doorbellDrop.toNat
    ∧ (∀ n, n < 8 → shows (0x01000084 + n * 65536)
        (b2n (s.mbx n).rspReady * 4 + b2n (s.mbx n).reqPending * 2 + b2n (s.mbx n).busy))
    ∧ (∀ e, e < 32 → shows (0x03000004 + e * 65536) (mgetD s.dups e 0).toNat)
    ∧ (∀ p, p < 8 → shows (0x05000004 + p * 65536) (s.schRegs p).switches.toNat
        ∧ shows (0x05000010 + p * 65536) (s.schRegs p).forced.toNat
        ∧ shows (0x05000014 + p * 65536) (s.schRegs p).overruns.toNat)
    ∧ (∀ i, i < 4 → shows (0x09000000 + i * 65536) (b2n (s.sync i).level)
        ∧ shows (0x09000004 + i * 65536) (s.sync i).edges.toNat)
    ∧ (∀ i v, i < 16 → (s.readKey (0x0A000000 + i * 65536)).map (fun x => x.1) = some v →
        v % 65536 = (s.mem.slice i).off.toNat)
    ∧ (∀ c v, c < 24 → (s.readKey (0x0D000000 + c * 65536)).map (fun x => x.1) = some v →
        v % 2 ^ 32 = (s.mem.chan c).corrected.toNat)
    ∧ (∀ p, p < 4 → shows (0x0E000004 + p * 65536) (s.caravan.port p).replays.toNat
        ∧ shows (0x0E00000C + p * 65536) (s.caravan.port p).discards.toNat
        ∧ shows (0x0F000004 + p * 65536) (s.pipe p).frames.toNat ∧ shows (0x0F000008 + p * 65536) (s.pipe p).underruns.toNat)
    ∧ (∀ z, z < 2 → shows (0x10000004 + z * 65536) (mgetD s.cmpJobs z 0).toNat)
    ∧ shows 0x11000004 s.flt.next.toNat ∧ shows 0x11000008 s.logbook.next.toNat ∧ shows 0x1100000C s.logbook.dropped.toNat
    ∧ shows 0x12000004 s.power.stepsDown.toNat ∧ shows 0x12000010 s.power.halts.toNat
    ∧ shows 0x12000014 s.power.haltCancels.toNat
    ∧ (∀ k, k < 16 → shows (0x13000004 + 16 * k) (s.sring k).widx.toNat ∧ shows (0x13000008 + 16 * k) (s.sring k).dropped.toNat)

/-- R266 to R268, R271 to R273, R276, R279. -/
def Obligations.CookieRingsFollowTheirRegisters : Prop :=
  (∀ (ring : Fin 16) (v : Word) (s : State), HostOpen s →
    let k := ring.val
    let c := s.ring k
    let size := BitVec.ofNat 4 (v.toNat / 2 % 16)
    let agrees := crc32c (leBytes 8 (c.base.toNat / 4096 * 4096) ++ leBytes 4 (size.toNat * 2)) = c.crcRef.toNat
    (c.enabled = false → c.fenced = false → size.toNat ≤ 8 → agrees →
      exec (.cookieRingEnable ring v) s = .next (s.setRing k { c with
        size := size, enabled := true, head := 0, tail := 0, crcMismatch := false, ignoredWrite := false }))
    ∧ (c.enabled = false → c.fenced = false → size.toNat ≤ 8 → ¬ agrees →
      exec (.cookieRingEnable ring v) s = .next (s.setRing k { c with size := size, crcMismatch := true }))
    ∧ (c.enabled = false → (c.fenced = true ∨ 8 < size.toNat) →
      ∃ x, exec (.cookieRingEnable ring v) s = .next (s.setRing k x) ∧ x.enabled = false ∧ x.fenced = c.fenced
        ∧ x.head = c.head ∧ x.tail = c.tail ∧ x.owed = c.owed ∧ x.dropped = c.dropped)
    ∧ (c.enabled = true →
      exec (.cookieRingEnable ring v) s = .next (s.setRing k { c with ignoredWrite := c.ignoredWrite || size ≠ c.size })
      ∧ exec (.cookieRingDisable ring v) s = .next (s.setRing k { c with enabled := false, ignoredWrite := false }))
    ∧ (c.enabled = false → ∃ x, exec (.cookieRingDisable ring v) s = .next (s.setRing k x) ∧ x.enabled = false
        ∧ x.size = size ∧ x.head = c.head ∧ x.tail = c.tail ∧ x.owed = c.owed ∧ x.dropped = c.dropped)
    ∧ ((v - c.head).toNat ≤ (c.tail - c.head).toNat →
      exec (.cookieRingHeadWrite ring v) s = .next (s.setRing k { c with head := v }))
    ∧ ((c.tail - c.head).toNat < (v - c.head).toNat →
      ∃ t, exec (.cookieRingHeadWrite ring v) s = .next t ∧ WriteLost s t (0x030010 + 64 * k) ∧ (t.ring k).head = c.head))
  ∧ (∀ (vector : Fin 2048) (masked : Bool) (s : State), HostOpen s →
    let v := vector.val
    let e := s.msix v
    ∃ t, exec (.msixUnmask (some vector) masked) s = .next t ∧ t.msix v = { e with masked := masked }
      ∧ (∀ w, w ≠ v → t.msix w = s.msix w) ∧ { t with host := s.host } = s
      ∧ ((masked = true ∨ s.host.functionMask = true ∨ v ∉ s.host.pendingBits) →
          t.host.out = s.host.out ∧ t.host.pendingBits = s.host.pendingBits)
      ∧ (masked = false → s.host.functionMask = false → v ∈ s.host.pendingBits →
          t.host.out = .msix v e.addr e.data :: s.host.out ∧ v ∉ t.host.pendingBits
          ∧ ∀ w, w ≠ v → (w ∈ t.host.pendingBits ↔ w ∈ s.host.pendingBits)))
  ∧ (∀ (s : State), HostOpen s →
    (exec (.msixUnmask none true) s = .next { s with host := { s.host with functionMask := true } })
    ∧ ∃ t, exec (.msixUnmask none false) s = .next t ∧ t.host.functionMask = false ∧ { t with host := s.host } = s
      ∧ ∀ v, v ∈ s.host.pendingBits →
        ((s.msix v).masked = false → OutMsg.msix v (s.msix v).addr (s.msix v).data ∈ t.host.out ∧ v ∉ t.host.pendingBits)
        ∧ ((s.msix v).masked = true → v ∈ t.host.pendingBits))
  ∧ (∀ (k : Nat) (s : State), s.live = true → FencesApplied s →
    let changed := fun (kind index : Nat) (f : State → Bool) => ∃ t, exec (.cfgCrcCheck k) s = .next t
      ∧ Reported s t 0x1002 kind index 0 0
      ∧ (bit (s.policy 0x1002).action 0 = true → s.fence? kind index = none → t.fenced kind index = true ∧ f t = true)
    (k < 16 →
      let c := s.ring k
      let bad := crc32c (leBytes 8 (c.base.toNat / 4096 * 4096) ++ leBytes 4 (c.size.toNat * 2)) ≠ c.crcRef.toNat
      (c.enabled = true → bad → changed 9 k (fun t => (t.ring k).fenced && !(t.ring k).enabled))
      ∧ ((c.enabled = false ∨ ¬ bad) → exec (.cfgCrcCheck k) s = .next s))
    ∧ (16 ≤ k → k < 20 →
      let v := s.pipe (k - 16)
      (v.on = true → crc32c v.cfg ≠ v.crcRef.toNat → changed 5 (k - 16) (fun t => (t.pipe (k - 16)).fenced))
      ∧ ((v.on = false ∨ crc32c v.cfg = v.crcRef.toNat) → exec (.cfgCrcCheck k) s = .next s)))

/-- R250, R251, R226. The fault of R248 for a miss is reported on module 0 with the offset as its address (log entry 64). -/
def Obligations.ApertureReachesMemory : Prop :=
  ∀ (s : State) (off : Nat), HostOpen s →
    let local_ := fun (n : Nat) (acc : Acc) (pa pol : Nat) (s1 : State) => ∃ die ro,
      s.pieces 255 0xFFFF off n acc = (.ok [(0, pa, n, pol, die, ro)], s1) ∧ pa + n ≤ s.mem.capacity
    (∀ n ext pa pol s1, 0 < n → off + n ≤ 2 ^ s.host.bar4Log → local_ n accRead pa pol s1 →
      ∃ t, exec (.apertureRead off n ext) s = .next t ∧ MemoryKept s t
        ∧ OutMsg.completion 0 (memRead s.mem.cells pa n) (s.mem.poisoned pa n) ∈ t.host.out)
    ∧ (∀ (l : List Byte) pa pol s1, l ≠ [] → off + l.length ≤ 2 ^ s.host.bar4Log → local_ l.length accWrite pa pol s1 →
      Memory.wf s.mem.cells = true →
      ∃ t, exec (.apertureWrite off l) s = .next t
        ∧ ∀ a, memGet t.mem.cells a = if pa ≤ a ∧ a < pa + l.length then l.getD (a - pa) 0 else memGet s.mem.cells a)
    ∧ (∀ (op : AtomOp) (wide : Bool) (x y : Dword) pa pol ro die s1,
      let n := if wide then 8 else 4
      (op = .add ∨ op = .exch ∨ op = .cas) → off % n = 0 → off + n ≤ 2 ^ s.host.bar4Log → Memory.wf s.mem.cells = true →
      s.translate 255 0xFFFF off accAtomic = (.ok 0 pa pol ro die, s1) → pa + n ≤ s.mem.capacity →
      ∃ t, exec (.apertureAtomic off op wide x y) s = .next t
        ∧ OutMsg.completion 0 (memRead s.mem.cells pa n) (s.mem.poisoned pa n) ∈ t.host.out
        ∧ (s.mem.poisoned pa n = true → MemoryKept s t)
        ∧ (s.mem.poisoned pa n = false →
          let old := memLe s.mem.cells pa n
          let b := x.toNat % 2 ^ (8 * n)
          memLe t.mem.cells pa n = (match op with
            | .add => (old + b) % 2 ^ (8 * n)
            | .exch => b
            | _ => if old = y.toNat % 2 ^ (8 * n) then b else old)
          ∧ ∀ a, (a < pa ∨ pa + n ≤ a) → memGet t.mem.cells a = memGet s.mem.cells a))
    ∧ (∀ e s1 acc n, 0 < n → off + n ≤ 2 ^ s.host.bar4Log → s.pieces 255 0xFFFF off n acc = (.error e, s1) →
      let missed := fun (i : Instr) (ur : Bool) => ∃ t, exec i s = .next t ∧ MemoryKept s t
        ∧ t.host.apertureMiss = satInc s.host.apertureMiss ∧ Recorded s1 t 0x07 off 0 0 ∧ Reported s1 t 0x0405 10 0 off 0
        ∧ (ur = true → OutMsg.completion 1 [] false ∈ t.host.out)
      (acc = accRead → ∀ ext, missed (.apertureRead off n ext) true)
      ∧ (acc = accWrite → ∀ l : List Byte, l.length = n → missed (.apertureWrite off l) false))
    ∧ (∀ (op : AtomOp) (wide : Bool) (x y : Dword), ¬ ((op = .add ∨ op = .exch ∨ op = .cas) ∧ off % (if wide then 8 else 4) = 0) →
      exec (.apertureAtomic off op wide x y) s = .fault .illFormed)

/-- R243, R247, R248, R254, R255. What the reset does beside the removals of R254 is in log entry 65. -/
def Obligations.HostLinkEventsReachTheDevice : Prop :=
  (∀ (s : State), HostOpen s →
    (∃ t, exec .functionLevelReset s = .next t ∧ t.queues = [] ∧ t.convoys = [] ∧ t.events = [] ∧ t.jobs = [] ∧ t.passes = []
      ∧ t.fw.sessions = [] ∧ t.mmu.objs = [] ∧ t.mmu.heaps = [] ∧ t.mmu.faults = [] ∧ t.mmu.rings = []
      ∧ (∀ k, mget t.mmu.asids k = if k = 0xFFFF then mget s.mmu.asids k else none)
      ∧ t.host.msix = [] ∧ t.host.functionMask = false ∧ t.host.pendingBits = [] ∧ t.host.scratch = []
      ∧ t.host.bar4Log = 28 ∧ t.host.d3hot = false ∧ t.host.np = []
      ∧ (∀ k, (t.ring k).enabled = false) ∧ (∀ k, (t.sring k).enabled = false)
      ∧ t.host.writeLost = s.host.writeLost ∧ t.fw.longOps = s.fw.longOps ∧ t.mram = s.mram
      ∧ (t.logbook.lost ≠ 0 ∨ ∃ l ∈ t.logbook.queue, l.type = 0x08 ∧ l.stamp = s.aclk))
    ∧ exec .d3hotEntry s = .next { s with host := { s.host with d3hot := true } })
  ∧ (∀ (s : State), s.up = true → s.host.linkUp = true → s.halted = false → s.power.st = .run → s.power.drain = false →
    exec .d0Return s = .next { s with host := { s.host with
      d3hot := false, out := s.host.waitOut.reverse ++ s.host.out, waitOut := [] } })
  ∧ (∀ (tag status : Nat) (data : List Byte) (poison : Bool) (s : State), s.up = true →
    let i := Instr.hostCompletion tag status data poison
    (mget s.host.np tag = none → exec i s = .next s ∧ exec (.hostCompletionTimeout tag) s = .next s)
    ∧ ∀ q, mget s.host.np tag = some q →
      let ended := fun (t : State) => mget t.host.np tag = none
      (status = 0 → poison = false → data.length ≠ q.len → exec i s = .next s)
      ∧ (status = 0 → poison = false → data.length = q.len →
        (∀ e p dst lane w sgn st, q.dest = .load e p dst lane w sgn → s.str? e p = some st → (w = 1 ∨ w = 2 ∨ w = 4 ∨ w = 8 ∨ w = 16) →
          ∃ t st', exec i s = .next t ∧ ended t ∧ t.str? e p = some st' ∧ MemoryKept s t
            ∧ (∀ j, j < (w + 3) / 4 → (st'.v (dst + j) lane).toNat
                = extendLoad (Nat.log2 w) sgn (leNat (slice data 0 w)) / 2 ^ (32 * j) % 2 ^ 32)
            ∧ (∀ r l, l < 32 → (l ≠ lane ∨ r < dst ∨ dst + (w + 3) / 4 ≤ r) → lane < 32 → st'.v r l = st.v r l)
            ∧ { t with engines := s.engines, host := s.host } = s)
        ∧ (∀ n, q.dest = .aperture n → s.host.d3hot = false → s.halted = false →
          ∃ t, exec i s = .next t ∧ ended t ∧ OutMsg.completion 0 (slice data 0 n) false ∈ t.host.out))
      ∧ (q.dest = .other → (status ≠ 0 ∨ poison = true) →
        ∃ t, exec i s = .next t ∧ ended t ∧ Reported s t (if status ≠ 0 then 0x0404 else 0x0403) 10 0 q.addr 0)
      ∧ ((∃ a l o x y, OutMsg.request tag a l o x y ∈ s.host.waitOut) → exec (.hostCompletionTimeout tag) s = .next s)
      ∧ (q.dest = .other → (∀ a l o x y, OutMsg.request tag a l o x y ∉ s.host.waitOut) →
        ∃ t, exec (.hostCompletionTimeout tag) s = .next t ∧ ended t ∧ Reported s t 0x0404 10 0 q.addr 0))
  ∧ (∀ (off : Nat) (l : List Byte) (s : State), HostOpen s → l ≠ [] → off + l.length ≤ 2 ^ s.host.bar4Log →
    ∀ pa pol die ro s1, (s.report 0x0403 10 0 off 0).pieces 255 0xFFFF off l.length accWrite = (.ok [(0, pa, l.length, pol, die, ro)], s1) →
      pa + l.length ≤ s.mem.capacity → Memory.wf s.mem.cells = true →
      ∃ t, exec (.poisonedTlpRx off l) s = .next t ∧ Reported s t 0x0403 10 0 off 0 ∧ t.mem.poisoned pa l.length = true
        ∧ ∀ a, memGet t.mem.cells a = if pa ≤ a ∧ a < pa + l.length then l.getD (a - pa) 0 else memGet s.mem.cells a)
  ∧ (∀ (s : State), s.up = true → s.host.linkUp = true →
    (∃ t, exec .malformedTlpRx s = .next t ∧ IsFatal t ∧ Reported s t 0x0407 10 0 0 0)
    ∧ (∃ t, exec .hostLinkDown s = .next t ∧ IsFatal t ∧ t.host.linkUp = false ∧ Reported s t 0x0406 10 0 0 0)
    ∧ (∀ lanes, ∃ t, exec (.hostLinkRetrained 0 lanes) s = .next t ∧ IsFatal t ∧ Reported s t 0x0408 10 0 0 0)
    ∧ (Map.sorted s.flt.records = true →
      ∃ t, exec .hostLinkFlitReplay s = .next t ∧ t.host.retry = true ∧ Reported s t 0x0401 10 0 0 0)
    ∧ (∀ m lanes, 1 ≤ m → m ≤ 4 →
      let half := lanes = 32 ∨ lanes = 8
      ∃ t, exec (.hostLinkRetrained m lanes) s = .next t ∧ t.host.modules = m ∧ t.host.lanes = lanes
        ∧ t.host.retry = false ∧ t.host.recovery = false
        ∧ Recorded s t 0x09 (if half ∨ m < s.host.modules then 65536 else 0) (s.host.rate * 1000) lanes
        ∧ (¬ half → s.host.modules ≤ m → Map.sorted s.flt.records = true → Reported s t 0x0401 10 0 0 0)
        ∧ ((half ∨ m < s.host.modules) → ∃ n q, mget t.flt.records n = some q ∧ q.code = 0x0402 ∧ q.unitKind = 10)))

/-! ### Events, queues, partitions, address spaces, objects (chapters 06, 10, 11) -/

/-- R298, R304, R305, R325, R329, R341, R342. The device's choice of a free number is a free value (log entry 2). -/
def Obligations.EventsAndQueuesAreManaged : Prop :=
  (∀ (pair : Fin 8) (s : State) (r : Req) (x : Session),
    let drawn := { s.clk with fresh := s.clk.fresh + 1 }
    (Serves (.eventAlloc pair) s r x →
      let v := r.n 0x18 2
      (vectorOk v = false → FailsWith (.eventAlloc pair) s r 0x0003)
      ∧ (vectorOk v = true → (∀ k, k < 131072 → mhas s.events k = true) → FailsWith (.eventAlloc pair) s r 0x000F)
      ∧ (vectorOk v = true → (∃ k, k < 131072 ∧ mhas s.events k = false) →
        ∃ k, k < 131072 ∧ mget s.events k = none ∧ Succeeds (.eventAlloc pair) s
          { s with clk := drawn, events := mset s.events k { count := BitVec.ofNat 64 (r.n 0x10 8), vector := v } } r 0
          (result [(0x10, 4, k)])))
    ∧ (Serves (.eventFree pair) s r x →
      let k := r.n 0x10 4
      (131071 < k → FailsWith (.eventFree pair) s r 0x0003)
      ∧ (k ≤ 131071 → mget s.events k = none → FailsWith (.eventFree pair) s r 0x000E)
      ∧ (k ≤ 131071 → mhas s.events k = true →
        ((∃ p ∈ s.queues, ∃ c ∈ p.2.cmds, c.names s.caravan.die k = true) → FailsWith (.eventFree pair) s r 0x0404)
        ∧ ((∀ p ∈ s.queues, ∀ c ∈ p.2.cmds, c.names s.caravan.die k = false) →
          Succeeds (.eventFree pair) s { s with events := merase s.events k } r 0 (zeros 48))))
    ∧ (Serves (.eventBind pair) s r x →
      let k := r.n 0x10 4
      let v := r.n 0x14 2
      ((131071 < k ∨ vectorOk v = false) → FailsWith (.eventBind pair) s r 0x0003)
      ∧ (k ≤ 131071 → vectorOk v = true → mget s.events k = none → FailsWith (.eventBind pair) s r 0x000E)
      ∧ (∀ e, k ≤ 131071 → vectorOk v = true → mget s.events k = some e →
        Succeeds (.eventBind pair) s { s with events := mset s.events k { e with vector := v } } r 0 (zeros 48)))
    ∧ (Serves (.queueCreate pair) s r x →
      let i := Instr.queueCreate pair
      let k := r.n 0x10 2
      let asid := r.n 0x12 2
      let size := r.n 0x14 1
      let kind := r.n 0x15 1
      let conv := r.n 0x20 4
      let unit := r.n 0x24 1
      let q := Queue.new asid size kind (r.n 0x16 2) (BitVec.ofNat 64 (r.n 0x18 8)) (if kind = 0 then some conv else none) unit
      let formed := (k = 0xFFFF ∨ k ≤ 4095) ∧ asid ≠ 0xFFFF ∧ 6 ≤ size ∧ size ≤ 20 ∧ kind ≤ 2 ∧ vectorOk (r.n 0x16 2) = true
        ∧ r.n 0x18 8 % 4096 = 0 ∧ r.n 0x18 8 + 96 * 2 ^ size ≤ 2 ^ 48
        ∧ unit < (if kind = 0 then 32 else if kind = 1 then 4 else 2) ∧ (kind = 0 → conv ≤ 511)
      q.head = 0 ∧ q.tail = 0 ∧ q.last = 0 ∧ q.cmds = [] ∧ q.stopped = false
      ∧ (¬ formed → FailsWith i s r 0x0003)
      ∧ (formed → k ≠ 0xFFFF → mhas s.queues k = true → FailsWith i s r 0x000D)
      ∧ (formed → (k = 0xFFFF ∨ mhas s.queues k = false) →
        ((mget s.mmu.asids asid = none ∨ (kind = 0 ∧ mget s.convoys conv = none)) → FailsWith i s r 0x000E)
        ∧ (mhas s.mmu.asids asid = true →
          let made := (k ≠ 0xFFFF → Succeeds i s { s with queues := mset s.queues k q } r 0 (result [(0x10, 2, k)]))
            ∧ (k = 0xFFFF → (∃ j, j < 4096 ∧ mhas s.queues j = false) → ∃ j, j < 4096 ∧ mget s.queues j = none
              ∧ Succeeds i s { s with clk := drawn, queues := mset s.queues j q } r 0 (result [(0x10, 2, j)]))
            ∧ (k = 0xFFFF → (∀ j, j < 4096 → mhas s.queues j = true) → FailsWith i s r 0x000F)
          (kind ≠ 0 → made)
          ∧ ∀ v, kind = 0 → mget s.convoys conv = some v →
            let inPart := ∃ p, mget s.parts v.partition = some p ∧ unit ∈ p.engines
            let alone := ∀ p ∈ s.queues, p.2.convoy = some conv → p.2.unit ≠ unit
            let same := ∀ p ∈ s.queues, p.2.convoy = some conv → p.2.asid = asid
            (¬ (inPart ∧ alone) → FailsWith i s r 0x0504)
            ∧ (inPart → alone → ¬ same → FailsWith i s r 0x0503)
            ∧ (inPart → alone → same → made))))
    ∧ (Serves (.queueDestroy pair) s r x →
      let i := Instr.queueDestroy pair
      let k := r.n 0x10 2
      (4095 < k → FailsWith i s r 0x0003) ∧ (k ≤ 4095 → s.queue? k = none → FailsWith i s r 0x000E)
      ∧ ∀ v, k ≤ 4095 → s.queue? k = some v →
        let busy := (∃ c, v.convoy = some c ∧ s.holdsSlot c = true) ∨ v.cmds ≠ [] ∨ (v.stopped = false ∧ v.head ≠ v.tail)
        (busy → FailsWith i s r 0x0401)
        ∧ (¬ busy → ∃ u, Succeeds i s u r 0 (zeros 48) ∧ u.queues = merase s.queues k
            ∧ { u with queues := s.queues, mmu := { u.mmu with objs := s.mmu.objs } } = s))
    ∧ (Serves (.queueRestart pair) s r x →
      let i := Instr.queueRestart pair
      let k := r.n 0x10 2
      let h := BitVec.ofNat 32 (r.n 0x14 4)
      (4095 < k → FailsWith i s r 0x0003) ∧ (k ≤ 4095 → s.queue? k = none → FailsWith i s r 0x000E)
      ∧ ∀ v, k ≤ 4095 → s.queue? k = some v →
        (v.stopped = false → FailsWith i s r 0x0406)
        ∧ (v.stopped = true → 2 ^ v.sizeLog < (v.tail - h).toNat → FailsWith i s r 0x0003)
        ∧ (v.stopped = true → (v.tail - h).toNat ≤ 2 ^ v.sizeLog → ∃ u, Succeeds i s u r 0 (zeros 48)
            ∧ u.queue? k = some { v with head := h, stopped := false, passOpen := false, lastOrder := none }
            ∧ (∀ j, j ≠ k → u.queue? j = s.queue? j)
            ∧ { u with queues := s.queues, mmu := { u.mmu with objs := s.mmu.objs } } = s)))

/-- R337 to R339, R341, R342, R345, R360, R362, R363. A stored layer history goes on in new settings (log entry 66). -/
def Obligations.PartitionsAndConvoysAreManaged : Prop :=
  ∀ (pair : Fin 8) (buf : Option (List Byte)) (s : State) (r : Req) (x : Session),
    let drawn := { s.clk with fresh := s.clk.fresh + 1 }
    (Serves (.partitionSet pair) s r x →
      let i := Instr.partitionSet pair
      let p := r.n 0x10 1
      let quads := r.n 0x11 1
      let gfx := r.n 0x12 1
      let tns := r.n 0x13 1
      let slice := r.n 0x14 4
      let park := r.n 0x18 4
      let share := if r.n 0x1C 2 = 0 then 65535 else r.n 0x1C 2
      let size := popCount quads 8 * (72 * 2 ^ 20)
      let formed := p ≤ 7 ∧ gfx + tns ≤ 16 ∧ 60000 ≤ slice ∧ slice ≤ 60000000 ∧ 12000 ≤ park ∧ park ≤ 60000000
        ∧ ∀ y ∈ s.parts, y.1 ≠ p → y.2.quads.toNat &&& quads = 0
      let empty := ∀ v ∈ s.convoys, v.2.partition ≠ p
      let forms := fun (free : State) => quads ≠ 0 →
        (free.reserve size 4096 = none → FailsWith i s r 0x0505)
        ∧ (∀ base f1, free.reserve size 4096 = some (base, f1) → ∃ u y, Succeeds i s u r 0 (zeros 48)
          ∧ mget u.parts p = some y ∧ y.quads = BitVec.ofNat 8 quads ∧ y.gfxMin = gfx ∧ y.tnsMin = tns ∧ y.slice = slice
          ∧ y.parkLimit = park ∧ y.shareMax = share ∧ y.saveBase = base ∧ y.saveBytes = size ∧ y.resident = none ∧ y.slots = []
          ∧ base % 4096 = 0 ∧ base + size ≤ min s.mmu.ptBase s.mem.capacity
          ∧ (∀ z ∈ free.mmu.reserved, base + size ≤ z.1 ∨ z.1 + z.2 ≤ base) ∧ (base, size) ∈ u.mmu.reserved
          ∧ (u.schRegs p).epoch = ((s.schRegs p).epoch + 1) % 16 ∧ (∀ e ∈ y.engines, (u.eng e).tb = 16 - tns)
          ∧ (∀ n, n ≠ p → mget u.parts n = mget s.parts n) ∧ u.queues = s.queues ∧ u.mem = s.mem)
      (¬ formed → FailsWith i s r 0x0003)
      ∧ (formed → mget s.parts p = none → (quads = 0 → Succeeds i s s r 0 (zeros 48)) ∧ forms s)
      ∧ (∀ y, formed → mget s.parts p = some y →
        let limited : Partition := { y with gfxMin := gfx, tnsMin := tns, slice := slice, parkLimit := park, shareMax := share }
        (y.quads.toNat = quads → Succeeds i s { s with parts := mset s.parts p limited } r 0 (zeros 48))
        ∧ (y.quads.toNat ≠ quads →
          (¬ empty → FailsWith i s r 0x0501)
          ∧ (empty → quads = 0 → ∃ u, Succeeds i s u r 0 (zeros 48) ∧ u.parts = merase s.parts p
              ∧ (u.schRegs p).epoch = ((s.schRegs p).epoch + 1) % 16
              ∧ { u with parts := s.parts, sch := s.sch, mmu := { u.mmu with reserved := s.mmu.reserved } } = s)
          ∧ (empty → forms (s.unreserve y.saveBase)))))
    ∧ (Serves (.convoyCreate pair) s r x →
      let i := Instr.convoyCreate pair
      let p := r.n 0x10 1
      let share := r.n 0x12 2
      ((7 < p ∨ share = 0) → FailsWith i s r 0x0003)
      ∧ (p ≤ 7 → share ≠ 0 → mget s.parts p = none → FailsWith i s r 0x000E)
      ∧ ∀ y, p ≤ 7 → share ≠ 0 → mget s.parts p = some y →
        (y.shareMax < share → FailsWith i s r 0x0011)
        ∧ (share ≤ y.shareMax → (∀ c, c < 512 → mhas s.convoys c = true) → FailsWith i s r 0x000F)
        ∧ (share ≤ y.shareMax → (∃ c, c < 512 ∧ mhas s.convoys c = false) →
          let fresh : Convoy := ⟨p, share, none, none, none, none, none, [], 0⟩
          ∃ c, c < 512 ∧ mget s.convoys c = none
            ∧ Succeeds i s { s with clk := drawn, convoys := mset s.convoys c fresh } r 0 (result [(0x10, 4, c)])))
    ∧ (Serves (.convoyDestroy pair) s r x →
      let i := Instr.convoyDestroy pair
      let c := r.n 0x10 4
      (511 < c → FailsWith i s r 0x0003) ∧ (c ≤ 511 → mget s.convoys c = none → FailsWith i s r 0x000E)
      ∧ ∀ v, c ≤ 511 → mget s.convoys c = some v →
        ((∃ q ∈ s.queues, q.2.convoy = some c) → FailsWith i s r 0x0502)
        ∧ ((∀ q ∈ s.queues, q.2.convoy ≠ some c) → ∃ u, Succeeds i s u r 0 (zeros 48) ∧ u.convoys = merase s.convoys c
            ∧ (∀ y, mget s.parts v.partition = some y → ∃ z, mget u.parts v.partition = some z ∧ z.resident ≠ some c
              ∧ z.switching ≠ some c ∧ z.quads = y.quads ∧ (y.resident ≠ some c → z.resident = y.resident))
            ∧ { u with convoys := s.convoys, parts := s.parts } = s))
    ∧ (Serves (.convoySetShare pair) s r x →
      let i := Instr.convoySetShare pair
      let c := r.n 0x10 4
      let share := r.n 0x14 2
      ((511 < c ∨ share = 0) → FailsWith i s r 0x0003)
      ∧ (c ≤ 511 → share ≠ 0 → mget s.convoys c = none → FailsWith i s r 0x000E)
      ∧ ∀ v, c ≤ 511 → share ≠ 0 → mget s.convoys c = some v →
        let exceeds := ∃ y, mget s.parts v.partition = some y ∧ y.shareMax < share
        (exceeds → FailsWith i s r 0x0011)
        ∧ (¬ exceeds → s.isResident c = false →
            Succeeds i s { s with convoys := mset s.convoys c { v with share := share } } r 0 (zeros 48))
        ∧ (¬ exceeds → s.isResident c = true → ∃ u, Succeeds i s u r 0 (zeros 48)
            ∧ u.convoys = mset s.convoys c { v with share := share } ∧ u.queues = s.queues ∧ u.parts = s.parts))
    ∧ (Serves (.convoySetTimed pair buf) s r x →
      let i := Instr.convoySetTimed pair buf
      let c := r.n 0x10 4
      let rel := r.n 0x14 1
      let deadline := r.n 0x18 4
      let margin := r.n 0x1C 4
      ((511 < c ∨ (4 < rel ∧ rel ≠ 0xFF) ∨ 1 < r.n 0x15 1) → FailsWith i s r 0x0003)
      ∧ ∀ v, c ≤ 511 → (rel ≤ 4 ∨ rel = 0xFF) → r.n 0x15 1 ≤ 1 → mget s.convoys c = some v →
        (rel = 0xFF → v.timed = none → Succeeds i s s r 0 (zeros 48))
        ∧ (rel = 0xFF → v.timed ≠ none → v.batch ≠ none →
            Succeeds i s { s with convoys := mset s.convoys c { v with timedNext := some none } } r 0 (zeros 48))
        ∧ (rel = 0xFF → v.timed ≠ none → v.batch = none → ∃ u w, Succeeds i s u r 0 (zeros 48)
            ∧ mget u.convoys c = some w ∧ w.timed = none ∧ w.share = v.share ∧ w.partition = v.partition)
        ∧ (rel ≤ 4 → (deadline < 300000 ∨ deadline ≤ margin) → FailsWith i s r 0x0003)
        ∧ (rel ≤ 4 → 300000 ≤ deadline → margin < deadline →
          (v.timed = none → 256 ≤ (s.convoys.filter (fun y => y.2.timed.isSome)).length → FailsWith i s r 0x0506)
          ∧ ((v.timed ≠ none ∨ (s.convoys.filter (fun y => y.2.timed.isSome)).length < 256) →
            (∀ s1, s.fallbackTable c (r.n 0x20 8) buf = (none, s1) →
              ∃ t, exec i s = .next t ∧ Responds s1 t r true 1 0 0x0507 (zeros 48))
            ∧ ∀ layers points s1, s.fallbackTable c (r.n 0x20 8) buf = (some (layers, points), s1) →
              ∃ u w n, Succeeds i s u r 0 (zeros 48) ∧ mget u.convoys c = some w
                ∧ (if v.batch = none then w.timed else w.timedNext.getD none) = some n
                ∧ n.release = rel ∧ (n.falling = true ↔ r.n 0x15 1 = 1) ∧ n.deadline = deadline ∧ n.margin = margin
                ∧ n.points = points ∧ n.layers.map (fun l => (l.layer, l.worst)) = layers.map (fun l => (l.layer, l.worst)))))
    ∧ (Serves (.contextRead pair) s r x →
      let i := Instr.contextRead pair
      let first := r.n 0x10 4
      let n := r.n 0x14 4
      let a := r.n 0x18 8
      let len := r.n 0x20 4
      ((n = 0 ∨ 4096 < n ∨ 2 ^ 18 < first + n) → FailsWith i s r 0x0003)
      ∧ (1 ≤ n → n ≤ 4096 → first + n ≤ 2 ^ 18 → (len < 32 * n ∨ a % 8 ≠ 0) → FailsWith i s r 0x000C)
      ∧ (1 ≤ n → n ≤ 4096 → first + n ≤ 2 ^ 18 → 32 * n ≤ len → a % 8 = 0 → s.host.d3hot = false →
        ∃ t u b, exec i s = .next t ∧ Responds u t r true 0 0 0 (zeros 48) ∧ OutMsg.write a b ∈ t.host.out
          ∧ b = ((List.range n).map (fun k => (s.chargeAll.account (first + k)).bytes)).flatten
          ∧ u.accounts = s.chargeAll.accounts ∧ u.queues = s.queues))

/-- R183, R201, R202, R206 to R208, R212. What the outside answers for host and remote backings is the command's operand
(log entry 67). -/
def Obligations.ObjectsAndHeapsAreManaged : Prop :=
  ∀ (pair : Fin 8) (buf : Option (List Byte)) (s : State) (r : Req) (x : Session),
    (Serves (.asidCreate pair) s r x →
      let i := Instr.asidCreate pair
      (15 < r.n 0x10 1 → FailsWith i s r 0x0003)
      ∧ (r.n 0x10 1 ≤ 15 → (∀ k, k < 65535 → mhas s.mmu.asids k = true) → FailsWith i s r 0x000F)
      ∧ (r.n 0x10 1 ≤ 15 → (∃ k, k < 65535 ∧ mhas s.mmu.asids k = false) →
        (s.freeTable = none → FailsWith i s r 0x0204)
        ∧ (∀ root, s.freeTable = some root → ∃ k u, k < 65535 ∧ mget s.mmu.asids k = none
          ∧ Succeeds i s u r 0 (result [(0x10, 2, k)]) ∧ mget u.mmu.asids k = some { ring := r.n 0x10 1, root := root }
          ∧ (∀ j, j ≠ k → mget u.mmu.asids j = mget s.mmu.asids j) ∧ root ∈ u.mmu.tables
          ∧ (∀ a, root ≤ a → a < root + 4096 → memGet u.mem.cells a = 0) ∧ u.mmu.objs = s.mmu.objs ∧ u.queues = s.queues)))
    ∧ (Serves (.asidDestroy pair) s r x →
      let i := Instr.asidDestroy pair
      let k := r.n 0x10 2
      let busy := (∃ q ∈ s.queues, q.2.asid = k) ∨ ∃ o ∈ s.mmu.objs, o.2.asid = k
      (k = 0xFFFF → FailsWith i s r 0x0003) ∧ (k ≠ 0xFFFF → mget s.mmu.asids k = none → FailsWith i s r 0x000E)
      ∧ (k ≠ 0xFFFF → mhas s.mmu.asids k = true →
        (busy → FailsWith i s r 0x0207)
        ∧ (¬ busy → ∃ u, Succeeds i s u r 0 (zeros 48) ∧ mget u.mmu.asids k = none
          ∧ (∀ j, j ≠ k → mget u.mmu.asids j = mget s.mmu.asids j) ∧ (∀ t ∈ u.mmu.tables, t ∈ s.mmu.tables)
          ∧ (∀ agent, ∀ e ∈ mgetD u.mmu.utlbs agent [], e.va < 2 ^ 48 → 0 < e.bytes → e.asid ≠ k)
          ∧ (∀ bank, ∀ e ∈ mgetD u.mmu.stlb bank [], e.va < 2 ^ 48 → 0 < e.bytes → e.asid ≠ k)
          ∧ { u with mmu := s.mmu } = s)))
    ∧ (Serves (.objCreate pair buf) s r x →
      let i := Instr.objCreate pair buf
      let asid := r.n 0x10 2
      let placement := r.n 0x12 1
      let die := r.n 0x13 1
      let page := r.n 0x14 1
      let access := r.n 0x15 1
      let cpol := r.n 0x16 1
      let va := r.n 0x18 8
      let size := r.n 0x20 8
      let formed := placement ≤ 3 ∧ page ≤ 3 ∧ access ≤ 3 ∧ cpol ≤ 2 ∧ s.rangeOk asid va size page = true
        ∧ (placement = 3 → die ≠ s.caravan.die ∧ ∃ d, mget s.caravan.topo die = some d ∧ d.st = 1)
      (mget s.mmu.asids asid = none → FailsWith i s r 0x000E)
      ∧ (mhas s.mmu.asids asid = true → ¬ formed → FailsWith i s r 0x0003)
      ∧ (mhas s.mmu.asids asid = true → formed →
        (s.freeHandle = none → FailsWith i s r 0x000F)
        ∧ ∀ h, s.freeHandle = some h → mget s.mmu.objs h = none
          ∧ (∀ e, s.newBacking placement die size page buf = .error e → FailsWith i s r e)
          ∧ ∀ b s1, s.newBacking placement die size page buf = .ok (b, s1) →
            let key := s1.mmu.nextBacking
            let s2 := { s1 with mmu := { s1.mmu with backings := mset s1.mmu.backings key b, nextBacking := key + 1 } }
            let o : Obj := ⟨asid, va, size, page, access, cpol, key, .live, 0, [], none⟩
            (s2.mapObj o h b = none → FailsWith i s r 0x0204)
            ∧ ∀ u, s2.mapObj o h b = some u → Succeeds i s u r 0 (result [(0x10, 4, h)]) ∧ u.obj? h = some o
              ∧ (∀ k, k ≠ h → u.obj? k = s.obj? k) ∧ mget u.mmu.backings key = some b ∧ b.placement = placement
              ∧ u.mmu.nextHandle = (h + 1) % 2 ^ 20 ∧ u.queues = s.queues ∧ u.engines = s.engines ∧ u.events = s.events
              ∧ (placement = 0 → b.size = size ∧ b.base + size ≤ min s.mmu.ptBase s.mem.capacity
                ∧ ∀ z ∈ s.mmu.reserved, b.base + size ≤ z.1 ∨ z.1 + z.2 ≤ b.base)))
    ∧ (Serves (.objAlias pair) s r x →
      let i := Instr.objAlias pair
      let asid := r.n 0x14 2
      let access := r.n 0x16 1
      let va := r.n 0x18 8
      (mget s.mmu.asids asid = none → FailsWith i s r 0x000E)
      ∧ (mhas s.mmu.asids asid = true → s.obj? (r.n 0x10 4) = none → FailsWith i s r 0x000E)
      ∧ ∀ o, mhas s.mmu.asids asid = true → s.obj? (r.n 0x10 4) = some o →
        (o.st ≠ .live → FailsWith i s r 0x0201)
        ∧ (o.st = .live → (3 < access ∨ s.rangeOk asid va o.size o.page = false) → FailsWith i s r 0x0003)
        ∧ (∀ h b, o.st = .live → access ≤ 3 → s.rangeOk asid va o.size o.page = true → s.freeHandle = some h →
          mget s.mmu.backings o.backing = some b →
          let o' := { o with asid := asid, va := va, access := access, uses := 0, horizons := [], event := none }
          (s.mapObj o' h b = none → FailsWith i s r 0x0204)
          ∧ ∀ u, s.mapObj o' h b = some u → Succeeds i s u r 0 (result [(0x10, 4, h)]) ∧ u.obj? h = some o'
            ∧ o'.backing = o.backing ∧ ∀ k, k ≠ h → u.obj? k = s.obj? k))
    ∧ (Serves (.objFree pair) s r x →
      let i := Instr.objFree pair
      let h := r.n 0x10 4
      let ev := r.n 0x14 4
      ((2 ^ 20 ≤ h ∨ (ev ≠ 0xFFFFFFFF ∧ 131071 < ev)) → FailsWith i s r 0x0003)
      ∧ (h < 2 ^ 20 → (ev = 0xFFFFFFFF ∨ ev ≤ 131071) →
        (s.obj? h = none → FailsWith i s r 0x0201)
        ∧ ∀ o, s.obj? h = some o →
          (o.st ≠ .live → FailsWith i s r 0x0201)
          ∧ (o.st = .live → ev ≠ 0xFFFFFFFF → mget s.events ev = none → FailsWith i s r 0x000E)
          ∧ (o.st = .live → (ev = 0xFFFFFFFF ∨ mhas s.events ev = true) → ∃ u o', Succeeds i s u r 0 (zeros 48)
            ∧ u.obj? h = some o' ∧ { o' with st := o.st, horizons := o.horizons, event := o.event } = o
            ∧ o'.st = (if ∀ q ∈ s.queues, q.2.asid = o.asid → s.pastHorizon (q.1, q.2.tail) = true then .doomed else .dooming)
            ∧ o'.event = (if ev = 0xFFFFFFFF then none else some (ev, BitVec.ofNat 64 (r.n 0x18 8)))
            ∧ { u with mmu := { u.mmu with objs := s.mmu.objs } } = s)))
    ∧ (Serves (.objQuery pair) s r x →
      let i := Instr.objQuery pair
      let h := r.n 0x10 4
      (2 ^ 20 ≤ h → FailsWith i s r 0x0003)
      ∧ (h < 2 ^ 20 → s.obj? h = none → Succeeds i s s r 0 (zeros 48))
      ∧ (∀ o, h < 2 ^ 20 → s.obj? h = some o → Succeeds i s s r 0 (result
          [(0x10, 1, match o.st with | .live => 1 | .dooming => 2 | .doomed => 3), (0x14, 4, o.uses), (0x18, 8, o.va),
           (0x20, 8, o.size), (0x28, 2, o.asid)])))
    ∧ (Serves (.heapCreate pair) s r x →
      let i := Instr.heapCreate pair
      let k := heapKey (r.n 0x10 2) (r.n 0x12 1)
      (mget s.mmu.asids (r.n 0x10 2) = none → FailsWith i s r 0x000E)
      ∧ (mhas s.mmu.asids (r.n 0x10 2) = true → mget s.mmu.heaps k = none →
        Succeeds i s { s with mmu := { s.mmu with heaps := mset s.mmu.heaps k ⟨[], [], [], 0⟩ } } r 0 (zeros 48)))
    ∧ (Serves (.heapAdd pair) s r x →
      let i := Instr.heapAdd pair
      let asid := r.n 0x10 2
      let k := heapKey asid (r.n 0x12 1)
      let h := r.n 0x14 4
      (mget s.mmu.heaps k = none → FailsWith i s r 0x000E)
      ∧ ∀ hp, mget s.mmu.heaps k = some hp →
        (s.obj? h = none → FailsWith i s r 0x0203)
        ∧ ∀ o, s.obj? h = some o →
          let fit := o.st = .live ∧ o.asid = asid ∧ o.va % 2 ^ 21 = 0 ∧ o.size % 2 ^ 21 = 0
            ∧ ∀ p ∈ s.mmu.heaps, ∀ y ∈ p.2.objs, y.1 ≠ h
          (¬ fit → FailsWith i s r 0x0203)
          ∧ (fit → s.reserve (o.size / 2 ^ 21 * 4096) 4096 = none → FailsWith i s r 0x000F)
          ∧ (∀ a s1, fit → s.reserve (o.size / 2 ^ 21 * 4096) 4096 = some (a, s1) → 
            let grown : Heap := { hp with objs := hp.objs ++ [(h, a)] }
            Succeeds i s { s1 with mmu := { s1.mmu with heaps := mset s.mmu.heaps k grown } } r 0 (zeros 48)))
    ∧ (Serves (.heapDestroy pair) s r x →
      let i := Instr.heapDestroy pair
      let k := heapKey (r.n 0x10 2) (r.n 0x12 1)
      (mget s.mmu.heaps k = none → FailsWith i s r 0x000E)
      ∧ ∀ hp, mget s.mmu.heaps k = some hp → ∃ u, Succeeds i s u r 0 (zeros 48) ∧ u.mmu.heaps = merase s.mmu.heaps k
        ∧ (∀ y ∈ hp.objs, ∀ o, u.obj? y.1 = some o → o.st ≠ .live) ∧ (∀ h, (u.obj? h).isSome = (s.obj? h).isSome)
        ∧ { u with mmu := s.mmu } = s)
    ∧ (Serves (.heapQuery pair) s r x →
      let i := Instr.heapQuery pair
      let k := heapKey (r.n 0x10 2) (r.n 0x12 1)
      (mget s.mmu.heaps k = none → FailsWith i s r 0x000E)
      ∧ ∀ hp, mget s.mmu.heaps k = some hp → ∃ res, Succeeds i s s r 0 res
        ∧ getLe res 0 4 = (hp.objs.map (fun y => match s.obj? y.1 with | some o => o.size / 2 ^ 21 | none => 0)).sum % 2 ^ 32
        ∧ getLe res 8 8 = (hp.blocks.map (fun b => 64 * 2 ^ b.2)).sum % 2 ^ 64
        ∧ getLe res 0x10 4 = hp.badFrees.toNat ∧ getLe res 0x14 1 = hp.objs.length % 256)
    ∧ (∀ h o, s.obj? h = some o →
      ((s.live = false ∨ o.st ≠ .doomed ∨ o.uses ≠ 0) → exec (.objectReclaim h) s = .next s)
      ∧ (s.live = true → o.st = .doomed → o.uses = 0 → ∃ t, exec (.objectReclaim h) s = .next t ∧ t.obj? h = none
        ∧ (∀ k, k ≠ h → t.obj? k = s.obj? k)
        ∧ (∀ b, (∀ p ∈ s.mmu.objs, p.1 ≠ h → p.2.backing ≠ o.backing) → mget s.mmu.backings o.backing = some b → b.placement ≤ 1 →
            ∀ a, b.base ≤ a → a < b.base + b.size → memGet t.mem.cells a = 0)
        ∧ (∀ ev v e, o.event = some (ev, v) → mget s.events ev = some e → e.count.toNat < v.toNat →
            ∃ f, mget t.events ev = some f ∧ f.count = v)))
    ∧ (∀ h, s.obj? h = none → exec (.objectReclaim h) s = .next s)

/-! ### Translation, fault rings and answers; memory, display, caravan and collector commands (chapters 06, 07, 12, 15, 16) -/

/-- R185, R189, R192, R194 to R198, R211. -/
def Obligations.FaultsReachRingsAndAreAnswered : Prop :=
  (∀ (asid : Half) (va : Dword) (s : State) (a : Asid) (n pte : Nat),
    s.working = true → va.toNat < 2 ^ 48 → mget s.mmu.asids asid.toNat = some a → s.walkHit asid.toNat va.toNat = none →
    s.mem.leafOf s.caravan.die va.toNat a.root 4 = some (n, pte) →
    let bytes := if n = 0 then (if bit pte 4 then 65536 else 4096) else if n = 1 then 2 ^ 21 else 2 ^ 30
    let bank := bits va.toNat 24 21 ^^^ bits va.toNat 15 12
    ∃ t, exec (.translationWalk asid va) s = .next t ∧ MemoryKept s t ∧ t.queues = s.queues ∧ t.engines = s.engines
      ∧ (mgetD t.mmu.stlb bank []).head? = some ⟨asid.toNat, va.toNat / bytes * bytes, bytes, BitVec.ofNat 64 pte⟩)
  ∧ (∀ (pair : Fin 8) (s : State) (r : Req) (x : Session),
    let bad := 16 ≤ r.n 0x10 1 ∨ 16 < r.n 0x11 1 ∨ (1 ≤ r.n 0x11 1 ∧ r.n 0x11 1 < 6) ∨ vectorOk (r.n 0x12 2) = false ∨ 1 < r.n 0x14 1
    (Serves (.mmuSetFaultRingEnable pair) s r x →
      let i := Instr.mmuSetFaultRingEnable pair
      let lost := r.n 0x14 1 = 1 ∧ mget s.mmu.asids (r.n 0x16 2) = none
      let g : FaultRing := ⟨r.n 0x11 1, r.n 0x12 2, r.n 0x14 1 = 1, r.n 0x16 2, BitVec.ofNat 64 (r.n 0x18 8), 0, []⟩
      (bad → FailsWith i s r 0x0003) ∧ (¬ bad → lost → FailsWith i s r 0x000E)
      ∧ (¬ bad → ¬ lost →
        Succeeds i s { s with mmu := { s.mmu with rings := mset s.mmu.rings (r.n 0x10 1) g } } r 0 (zeros 48)))
    ∧ (Serves (.mmuSetFaultRingDisable pair) s r x →
      let i := Instr.mmuSetFaultRingDisable pair
      (bad → FailsWith i s r 0x0003)
      ∧ (¬ bad → Succeeds i s { s with mmu := { s.mmu with rings := merase s.mmu.rings (r.n 0x10 1) } } r 0 (zeros 48))))
  ∧ (∀ (fault : Nat) (s : State),
    (mget s.mmu.faults fault = none → exec (.faultRecordWrite fault) s = .next s)
    ∧ ∀ r, mget s.mmu.faults fault = some r →
      let k := s.ringOf r
      (mget s.mmu.rings k = none → exec (.faultRecordWrite fault) s = .next s)
      ∧ ∀ g, mget s.mmu.rings k = some g →
        let slot := g.widx % 2 ^ g.sizeLog
        let at_ := g.addr.toNat + 64 * slot
        let rec_ := faultBytes fault r (g.widx / 2 ^ g.sizeLog % 2 = 0)
        let first := ∀ p ∈ s.mmu.faults, p.2.slot = none → s.ringOf p.2 = k →
          (fault + 2 ^ 32 - s.mmu.nextFault) % 2 ^ 32 ≤ (p.1 + 2 ^ 32 - s.mmu.nextFault) % 2 ^ 32
        let taken := ∃ id, mget g.slots slot = some id ∧ mhas s.mmu.faults id = true
        let placed := fun (t : State) => mget t.mmu.faults fault = some { r with slot := some (k, slot) }
          ∧ mget t.mmu.rings k = some { g with widx := g.widx + 1, slots := mset g.slots slot fault }
          ∧ (s.flt.fatal = false → g.vector ≠ 0 → Raised s t g.vector)
        (((s.working = false ∨ r.slot ≠ none ∨ taken) ∨ ¬ first) → exec (.faultRecordWrite fault) s = .next s)
        ∧ (s.working = true → r.slot = none → ¬ taken → first →
          (g.device = false → ∃ t, exec (.faultRecordWrite fault) s = .next t ∧ placed t ∧ MemoryKept s t
              ∧ (s.flt.fatal = false → s.host.d3hot = false → OutMsg.write at_ rec_ ∈ t.host.out))
          ∧ (∀ s1, g.device = true → s.writeVa 255 g.asid at_ rec_ false = (.ok (), s1) →
              ∃ t, exec (.faultRecordWrite fault) s = .next t ∧ placed t ∧ t.mem = s1.mem)
          ∧ (∀ e s1, g.device = true → s.writeVa 255 g.asid at_ rec_ false = (.error e, s1) →
              ∃ t, exec (.faultRecordWrite fault) s = .next t ∧ mget t.mmu.rings k = none ∧ mget t.mmu.faults fault = some r
                ∧ Recorded s1 t 0x12 k at_ g.asid)))
  ∧ (∀ (pair : Fin 8) (s : State) (r : Req) (x : Session),
    let id := r.n 0x10 4
    let resumed := fun (u : State) (refused : Bool) =>
      u.mmu.faults = merase s.mmu.faults id ∧ MemoryKept s u ∧ u.events = s.events ∧ u.convoys = s.convoys
      ∧ (∀ e p st, s.str? e p = some st → (st.state = .parked (some id) → ∃ st', u.str? e p = some st'
            ∧ (∀ y, st'.state ≠ .parked y) ∧ st'.vregs = st.vregs ∧ st'.preds = st.preds ∧ st'.uregs = st.uregs
            ∧ LanesKept st.groups st' ∧ st'.noGrow = (st.noGrow || refused))
          ∧ ((∀ y, st.state ≠ .parked y) → u.str? e p = some st))
      ∧ (∀ q v, s.queue? q = some v → v.stalled = some (some id) →
          u.queue? q = some { v with stalled := none, stallHdr := [] })
      ∧ (∀ n j, mget s.jobs n = some j → j.fault = some (some id) → mget u.jobs n = some { j with fault := none })
    let aborted := fun (u : State) =>
      mget u.mmu.faults id = none ∧ u.events = s.events
      ∧ (∀ e p st, s.str? e p = some st → st.state = .parked (some id) →
          (∀ p' st', u.str? e p' = some st' → ¬ (st'.queue = st.queue ∧ st'.cmd = st.cmd))
          ∧ ∀ y, s.cmd? st.queue st.cmd = some y → (∀ z, y.st ≠ .ended z) →
            u.cmd? st.queue st.cmd = some { y with st := .ended 0x0107, detail := BitVec.ofNat 64 id })
      ∧ (∀ n j v y, mget s.jobs n = some j → j.fault = some (some id) → s.queue? j.queue = some v → v.jobUnit = n →
          s.cmd? j.queue j.cmd = some y → (∀ z, y.st ≠ .ended z) → mget u.jobs n = none
          ∧ u.cmd? j.queue j.cmd = some { y with st := .ended 0x0107, detail := BitVec.ofNat 64 id })
      ∧ (∀ q v, s.queue? q = some v → v.stalled = some (some id) → v.stream = none →
          ∃ v', u.queue? q = some v' ∧ v'.stopped = true ∧ v'.stalled = none ∧ v'.head = v.head)
    (Serves (.faultResolveRetry pair) s r x →
      let i := Instr.faultResolveRetry pair
      (2 < r.n 0x14 1 → FailsWith i s r 0x0003)
      ∧ (r.n 0x14 1 = 0 → (mget s.mmu.faults id = none → Succeeds i s s r 0 (zeros 48))
        ∧ (∃ u, Succeeds i s u r 0 (zeros 48))
        ∧ ∀ f, mget s.mmu.faults id = some f → f.kind ≠ 0x11 → s.passes = [] →
            ∃ u, Succeeds i s u r 0 (zeros 48) ∧ resumed u false))
    ∧ (Serves (.faultResolveDecline pair) s r x →
      let i := Instr.faultResolveDecline pair
      (mget s.mmu.faults id = none → Succeeds i s s r 0 (zeros 48)) ∧ (∃ u, Succeeds i s u r 0 (zeros 48))
      ∧ ∀ f, mget s.mmu.faults id = some f → s.passes = [] →
        (f.kind = 0x10 → ∃ u, Succeeds i s u r 0 (zeros 48) ∧ resumed u true)
        ∧ (f.kind ≠ 0x10 → f.kind ≠ 0x11 → ∃ u, Succeeds i s u r 0 (zeros 48) ∧ aborted u))
    ∧ (Serves (.faultResolveAbort pair) s r x →
      let i := Instr.faultResolveAbort pair
      (mget s.mmu.faults id = none → Succeeds i s s r 0 (zeros 48)) ∧ (∃ u, Succeeds i s u r 0 (zeros 48))
      ∧ ∀ f, mget s.mmu.faults id = some f → s.passes = [] →
        ∃ u, Succeeds i s u r 0 (zeros 48) ∧ aborted u))

/-- R166, R168, R169, R215, R216, R228, R232, R237. That a request waits while an increase runs is log entry 63; whether
the board's population is mixed is an opaque constant. -/
def Obligations.StrongroomAndMemoryCommandsAct : Prop :=
  (∀ (pair : Fin 8) (s : State) (r : Req) (x : Session),
    (Serves (.l2SetStrongroom pair) s r x →
      let i := Instr.l2SetStrongroom pair
      let w := r.n 0x10 1
      let old := s.mem.srWays
      let top := 0xFE_0000_0000 + w * 2 ^ 22
      let spares := ∀ k, k < 16 → (s.mem.slice k).fenced = true
        ∨ (4 ≤ ((List.range (16 - w)).filter (fun y => !bit (s.mem.slice k).off.toNat y)).length
          ∧ ∀ y, 16 - w ≤ y → y < 16 - old → bit (s.mem.slice k).off.toNat y = false)
      (s.mem.srTarget ≠ none → exec i s = .next s)
      ∧ (s.mem.srTarget = none →
        (8 < w → FailsWith i s r 0x0205)
        ∧ (w ≤ 8 → old < w → ¬ spares → FailsWith i s r 0x0205)
        ∧ (w ≤ 8 → old < w → spares → ∃ t, exec i s = .next t ∧ t.mem.srTarget = some w ∧ t.mem.srWays = old
            ∧ t.host = s.host ∧ t.fw = s.fw ∧ t.mmu = s.mmu ∧ t.queues = s.queues ∧ t.mem.cells = s.mem.cells
            ∧ ∀ k, k < 16 → (t.mem.slice k).converting = true
              ∧ (∀ y, y < 16 → (bit (t.mem.slice k).leaving.toNat y = true ↔ 16 - w ≤ y ∧ y < 16 - old))
              ∧ ∀ set y, set < 2048 → 16 - w ≤ y → y < 16 - old → mget t.mem.lines (lineKey k set y) = none)
        ∧ (w < old → w ≤ 8 → (∃ b ∈ s.mmu.backings, b.2.placement = 1 ∧ top < b.2.base + b.2.size) → FailsWith i s r 0x0206)
        ∧ (w < old → w ≤ 8 → (∀ b ∈ s.mmu.backings, b.2.placement = 1 → b.2.base + b.2.size ≤ top) → s.memOk →
            ∃ u, Succeeds i s u r 0 (result [(0x10, 1, w)]) ∧ u.mem.srWays = w ∧ u.mmu = s.mmu ∧ u.queues = s.queues
              ∧ ∀ a, memGet u.mem.cells a = if top ≤ a ∧ a < 0xFE_0200_0000 then 0 else memGet s.mem.cells a)
        ∧ (w = old → w ≤ 8 → Succeeds i s s r 0 (result [(0x10, 1, w)]))))
    ∧ (Serves (.drcConfigure pair) s r x →
      let i := Instr.drcConfigure pair
      let mode := r.n 0x10 1
      let good := mode ≤ 1 ∧ (r.n 0x11 1 = 1 ∧ mode = 1 ∨ r.n 0x11 1 = 2 ∨ r.n 0x11 1 = 4 ∨ r.n 0x11 1 = 8 ∧ mode = 0)
        ∧ 1 ≤ r.n 0x12 1 ∧ r.n 0x12 1 ≤ 2 ∧ r.n 0x13 1 ≤ 1 ∧ r.n 0x14 1 ≤ 2 ∧ 16 ≤ r.n 0x18 4 ∧ r.n 0x18 4 ≤ 4096
      (¬ good → FailsWith i s r 0x0003) ∧ (good → Config.mixedPopulation = true → FailsWith i s r 0x0301)
      ∧ (good → Config.mixedPopulation = false → ∃ u, Succeeds i s u r 0 (zeros 48) ∧ u.setting 0x40 = r.n 0x10 8
          ∧ u.setting 0x46 = r.n 0x18 4 ∧ (∀ k, k ≠ 0x40 → k ≠ 0x46 → u.setting k = s.setting k)
          ∧ { u with mram := { u.mram with working := s.mram.working } } = s))
    ∧ (Serves (.drcRetrain pair) s r x →
      let i := Instr.drcRetrain pair
      let c := r.n 0x10 1
      let n := if s.mem.mode = 0 then 16 else 24
      let out := fun (k : Nat) => (s.mem.chan k).excluded = true ∨ (s.mem.chan k).migrating = true
      (n ≤ c → FailsWith i s r 0x0003) ∧ (c < n → s.mem.spill = 0 → FailsWith i s r 0x0302)
      ∧ (c < n → s.mem.spill ≠ 0 → (∃ k, k < n ∧ out k) → FailsWith i s r 0x0303)
      ∧ (c < n → s.mem.spill ≠ 0 → (∀ k, k < n → ¬ out k) →
        (¬ MayStartLong s r → FailsWith i s r (longErr s r))
        ∧ (MayStartLong s r → ∃ u, StartsLong i s u r ∧ u.fw = (s.withLong r []).fw ∧ u.mem.cells = s.mem.cells
          ∧ u.mem.chan c = { s.mem.chan c with migrating := true, back := false, pointer := 0, retrainWanted := false }
          ∧ (∀ k, k ≠ c → u.mem.chan k = s.mem.chan k)
          ∧ { u with fw := s.fw, mem := { u.mem with channels := s.mem.channels } } = s)))
    ∧ (Serves (.eccLogRead pair) s r x →
      let i := Instr.eccLogRead pair
      let a := r.n 0x10 8
      let bytes := (s.mem.eccLog.map (fun e => leBytes 8 e.addr ++ leBytes 1 e.source ++ leBytes 1 e.unit
        ++ leBytes 1 e.sub ++ leBytes 1 e.position ++ leBytes 4 e.syndrome.toNat ++ leBytes 4 e.repeats.toNat ++ zeros 4
        ++ leBytes 8 e.stamp.toNat)).flatten
      ((r.n 0x18 4 < 1024 ∨ a % 8 ≠ 0) → FailsWith i s r 0x000C)
      ∧ (1024 ≤ r.n 0x18 4 → a % 8 = 0 → s.host.d3hot = false → ∃ t u, exec i s = .next t
          ∧ Responds u t r true 0 0 0 (result [(0x10, 1, s.mem.eccLog.length), (0x14, 4, s.mem.logOverwritten.toNat)])
          ∧ { u with host := { u.host with out := s.host.out } } = s
          ∧ (s.mem.eccLog ≠ [] → OutMsg.write a bytes ∈ t.host.out)))
    ∧ (Serves (.eccLogClear pair) s r x → Succeeds (.eccLogClear pair) s
        { s with mem := { s.mem with eccLog := [], logOverwritten := 0 } } r 0 (zeros 48)))
  ∧ (∀ s : State,
    ((s.mem.srTarget = none ∨ s.working = false) → exec .strongroomConversionEnd s = .next s)
    ∧ ∀ w, s.mem.srTarget = some w → w ≤ 8 → s.working = true →
      ∃ t u, exec .strongroomConversionEnd s = .next t ∧ t.mem.srTarget = none ∧ t.mem.srWays = w
        ∧ t.mem.cells = s.mem.cells ∧ (∀ k, k < 16 → (t.mem.slice k).converting = false ∧ (t.mem.slice k).leaving = 0)
        ∧ t.setting 0x45 = w
        ∧ ((∀ n, n < 8 → (s.mbx n).reqPending = false) → t = u)
        ∧ ∀ pair r x, (∀ k, k < 16 → (s.mem.slice k).fenced = false) → Serves (.l2SetStrongroom pair) s r x →
            r.n 0x10 1 = w → (∀ n, n ≠ pair.val → (s.mbx n).reqPending = false) →
            Responds u t r true 0 0 0 (result [(0x10, 1, w)]))

/-- R365, R417, R418, R420, R425, R426, R428, R430, R431, R433, R437, R438, R440. -/
def Obligations.DisplayPipesFollowTheirCommands : Prop :=
  (∀ (pair : Fin 8) (buf : Option (List Byte)) (s : State) (r : Req) (x : Session),
    let p := r.n 0x10 1
    let v := s.pipe p
    let inUse := v.enabled = true ∨ v.starting = true
    let given := fun (n : Nat) (b : List Byte) => r.n 0x20 4 = n ∧ r.n 0x18 8 % 8 = 0 ∧ buf = some b ∧ b.length = n
    let only := fun (u : State) => (∀ q, q ≠ p → u.pipe q = s.pipe q) ∧ { u with pipes := s.pipes } = s
    let staged := fun (u : State) => (∀ q, q ≠ p → u.layersOf q = s.layersOf q) ∧ { u with layers := s.layers } = s
    (Serves (.dspPipeSet pair buf) s r x →
      let i := Instr.dspPipeSet pair buf
      (3 < p → FailsWith i s r 0x0003) ∧ (p ≤ 3 → (∀ b, ¬ given 64 b) → FailsWith i s r 0x000C)
      ∧ ∀ b, p ≤ 3 → given 64 b →
        (inUse → FailsWith i s r 0x0611)
        ∧ (¬ inUse → dspModeOk p b = false → FailsWith i s r 0x0612)
        ∧ (dspModeOk p b = true → 64 ≤ getLe b 0 2 ∧ getLe b 0 2 ≤ 8192 ∧ getLe b 0 2 % 4 = 0 ∧ 1 ≤ getLe b 8 2
            ∧ getLe b 8 2 ≤ 8192 ∧ getLe b 0x10 4 ≤ 2800000
            ∧ (getLe b 0x15 1 = 1 ∨ getLe b 0x15 1 = 2 ∨ getLe b 0x15 1 = 4))
        ∧ (¬ inUse → dspModeOk p b = true → ∃ u, Succeeds i s u r 0 (zeros 48) ∧ (u.pipe p).cfg = b
            ∧ (u.pipe p).crcRef = BitVec.ofNat 32 (crc32c b) ∧ (u.pipe p).enabled = false ∧ (u.pipe p).flatOff = false
            ∧ (u.pipe p).vtotal = getLe b 8 2 + getLe b 0xA 2 + getLe b 0xC 2 + getLe b 0xE 2
            ∧ mget u.clk.khz (0x20 + p) = some (getLe b 0x10 4 / 4) ∧ (∀ q, q ≠ p → u.pipe q = s.pipe q)
            ∧ u.mem = s.mem ∧ u.queues = s.queues))
    ∧ (Serves (.dspPipeEnableOn pair) s r x →
      let i := Instr.dspPipeEnableOn pair
      let set := v.cfg.length = 64 ∧ v.crcRef.toNat = crc32c v.cfg
      ((3 < p ∨ 1 < r.n 0x11 1) → FailsWith i s r 0x0003)
      ∧ (p ≤ 3 → r.n 0x11 1 = 1 → ¬ set → FailsWith i s r 0x0612)
      ∧ (p ≤ 3 → r.n 0x11 1 = 1 → set → ∃ u, Succeeds i s u r 0 (zeros 48) ∧ only u
          ∧ (inUse → u.pipe p = { v with stopping := false })
          ∧ (¬ inUse → u.pipe p = { v with
              starting := true, stopping := false, link := 1, failedRetrains := 0, underrunLogged := false })))
    ∧ (Serves (.dspPipeEnableOff pair) s r x →
      let i := Instr.dspPipeEnableOff pair
      (3 < p → FailsWith i s r 0x0003)
      ∧ (p ≤ 3 → ∃ u, Succeeds i s u r 0 (zeros 48) ∧ only u
          ∧ u.pipe p = { v with starting := false, stopping := v.enabled }))
    ∧ (Serves (.dspLayerSet pair buf) s r x →
      let i := Instr.dspLayerSet pair buf
      let l := r.n 0x11 1
      let y := s.layersOf p
      ((3 < p ∨ 6 < l) → FailsWith i s r 0x0003) ∧ (p ≤ 3 → l ≤ 6 → (∀ b, ¬ given 64 b) → FailsWith i s r 0x000C)
      ∧ ∀ b, p ≤ 3 → l ≤ 6 → given 64 b →
        ((¬ inUse ∨ layerOk l b = false) → FailsWith i s r 0x0613)
        ∧ (inUse → layerOk l b = true → ∃ u, Succeeds i s u r 0 (zeros 48) ∧ staged u
            ∧ u.layersOf p = { y with staged := mset y.staged l b, superseded := y.superseded ++ (mget y.staged l).toList,
                                      apply := y.apply || bit (getLe b 0x13 1) 5 }))
    ∧ (Serves (.dspScalerLoad pair buf) s r x →
      let i := Instr.dspScalerLoad pair buf
      let l := r.n 0x11 1
      ((3 < p ∨ 5 < l) → FailsWith i s r 0x0003) ∧ (p ≤ 3 → l ≤ 5 → (∀ b, ¬ given 1792 b) → FailsWith i s r 0x000C)
      ∧ ∀ b, p ≤ 3 → l ≤ 5 → given 1792 b →
        let fits := ∀ k, k < 896 → -512 ≤ sext 16 (getLe b (2 * k) 2) ∧ sext 16 (getLe b (2 * k) 2) ≤ 511
        (¬ fits → FailsWith i s r 0x0614)
        ∧ (fits → ∃ u, Succeeds i s u r 0 (zeros 48) ∧ staged u
            ∧ u.layersOf p = { s.layersOf p with coeffStaged := mset (s.layersOf p).coeffStaged l b })))
  ∧ (∀ (pipe : Fin 4) (s : State),
    let p := pipe.val
    let v := s.pipe p
    let ready := s.live = true ∧ s.halted = false ∧ v.fenced = false ∧ v.cfg.length = 64
    let kept := fun (t : State) => (∀ q, q ≠ p → t.pipe q = s.pipe q) ∧ t.mem = s.mem ∧ t.queues = s.queues
    (ready → (v.link = 1 ∨ v.link = 3) →
      (∀ r : Fin 16, r.val = getLe v.cfg 0x16 1 → (dspRate r.val).isSome = true →
        ∃ t, exec (.pipeLinkTrainingEnd pipe (some r)) s = .next t ∧ kept t
          ∧ t.pipe p = { v with link := 2, lanes := getLe v.cfg 0x15 1, rate := r.val, dscOn := bit (getLe v.cfg 0x18 4) 0,
                                failedRetrains := 0 }
          ∧ Recorded s t 0x09 (2 + p * 256) ((dspRate r.val).getD 0) (getLe v.cfg 0x15 1))
      ∧ (∃ t, exec (.pipeLinkTrainingEnd pipe none) s = .next t ∧ kept t ∧ Recorded s t 0x09 (2 + p * 256 + 2 * 65536) 0 0
          ∧ t.pipe p = { v with link := if v.link = 1 ∨ 2 ≤ v.failedRetrains then 4 else 3,
                                failedRetrains := v.failedRetrains + 1 }))
    ∧ ((¬ ready ∨ (v.link ≠ 1 ∧ v.link ≠ 3)) → ∀ r, exec (.pipeLinkTrainingEnd pipe r) s = .next s)
    ∧ (∀ high lost, s.live = true → s.halted = false → ∃ t, exec (.hpdEvent pipe high lost) s = .next t ∧ kept t
        ∧ (∀ k, k < 4 → bit t.pins.hpd.toNat k = if k = p then high else bit s.pins.hpd.toNat k)
        ∧ t.pipe p = if v.link = 2 ∧ (lost = true ∨ (bit s.pins.hpd.toNat p = true ∧ high = false))
            then { v with link := 3, failedRetrains := 0, dscOn := false } else v)
    ∧ (ready → v.enabled = true → bits (getLe v.cfg 0x1C 4) 1 0 = 2 → ∃ t, exec (.fsyncLostExpiry pipe) s = .next t ∧ kept t
        ∧ t.pipe p = { v with fsyncLost := true, locked := false })
    ∧ (∀ late ext,
      (¬ ready → exec (.frameStart pipe late ext) s = .next s)
      ∧ (ready → v.stopping = true → ∃ t, exec (.frameStart pipe late ext) s = .next t ∧ kept t
          ∧ t.pipe p = { v with enabled := false, stopping := false, locked := false }
          ∧ OutMsg.display p false ∈ t.host.out)
      ∧ (ready → v.stopping = false → v.enabled = false → (v.starting = false ∨ v.link ≠ 2) →
          exec (.frameStart pipe late ext) s = .next s)
      ∧ (ready → v.stopping = false → (v.enabled = true ∨ (v.starting = true ∧ v.link = 2)) →
        let y := s.layersOf p
        let live := if y.apply then y.staged.foldl (fun m d => mset m d.1 d.2) y.live else y.live
        ∃ t, exec (.frameStart pipe late ext) s = .next t ∧ (t.pipe p).enabled = true ∧ (t.pipe p).starting = false
          ∧ (t.pipe p).frames = v.frames + 1 ∧ (t.pipe p).cfg = v.cfg ∧ (∀ q, q ≠ p → t.pipe q = s.pipe q)
          ∧ (t.layersOf p).live = live ∧ (t.layersOf p).apply = false
          ∧ (t.layersOf p).coeff = y.coeffStaged.foldl (fun m d => mset m d.1 d.2) y.coeff
          ∧ (v.link = 2 → live = [] → late = [] → bit (getLe v.cfg 0x14 1) 3 = false →
              let w := fun (k : Nat) => to12 1023 (bits (getLe v.cfg 0x20 4) (10 * k + 9) (10 * k)) / 2 ^ (12 - dBpc v.cfg)
              (t.layersOf p).frame = List.replicate (getLe v.cfg 8 2 * getLe v.cfg 0 2)
                (BitVec.ofNat 36 (w 0 + w 1 * 4096 + w 2 * 2 ^ 24))))))
  ∧ (∀ (input : Fin 4) (level : Bool) (s : State),
    let k := input.val
    let y := s.sync k
    ((s.live = false ∨ s.halted = true ∨ y.level = level) → exec (.fsyncEdge input level) s = .next s)
    ∧ (s.live = true → s.halted = false → y.level ≠ level →
      (∀ c ∈ s.convoys, ∀ n, c.2.timed = some n → n.release ≠ k + 1 ∨ n.falling = level) →
      ∃ t, exec (.fsyncEdge input level) s = .next t ∧ (t.sync k).level = level ∧ (t.sync k).edges = y.edges + 1
        ∧ (∀ q, q ≠ k → t.sync q = s.sync q) ∧ t.queues = s.queues ∧ t.convoys = s.convoys ∧ t.mem = s.mem
        ∧ (level = true → (t.sync k).lastRise = some s.aclk
            ∧ ∀ a, y.lastRise = some a → (t.sync k).period = (s.aclk + 2 ^ 56 - a) % 2 ^ 56)
        ∧ ∀ p, p < 4 → (s.pipe p).enabled = true → (s.pipe p).fenced = false → (s.pipe p).cfg.length = 64 →
            bits (getLe (s.pipe p).cfg 0x1C 4) 1 0 = 2 → bits (getLe (s.pipe p).cfg 0x1C 4) 3 2 = k →
            bit (getLe (s.pipe p).cfg 0x1C 4) 4 = !level →
            (t.pipe p).fsyncLost = false ∧ (t.layersOf p).lastEdge = some (s.count (0x20 + p))))

/-- R463, R466, R474, R475, R533, R546 to R549, R551, R552. The layout of management messages is the model's (log entry
50); event counts that the model does not follow are free values (log entry 53). -/
def Obligations.CaravanAndSampleRingsAreConfigured : Prop :=
  (∀ (pair : Fin 8) (buf : Option (List Byte)) (s : State) (r : Req) (x : Session),
    let given := fun (off n : Nat) (b : List Byte) => r.n (off + 8) 4 = n ∧ r.n off 8 % 8 = 0 ∧ buf = some b ∧ b.length = n
    (Serves (.cvlRouteSet pair buf) s r x →
      let i := Instr.cvlRouteSet pair buf
      let die := r.n 0x10 1
      let entry := fun (b : List Byte) (d : Nat) => slice b (8 * d) 8
      (8 ≤ die → FailsWith i s r 0x0003) ∧ (die < 8 → (∀ b, ¬ given 0x18 64 b) → FailsWith i s r 0x000C)
      ∧ ∀ b, die < 8 → given 0x18 64 b →
        let formed := ∀ d, d < 8 → entryOk (d = die) (entry b d) = true
        (¬ formed → FailsWith i s r 0x0003) ∧ (formed → s.tableOk die b = false → FailsWith i s r 0x0801)
        ∧ (formed → s.tableOk die b = true → die = s.caravan.die → ∃ u, Succeeds i s u r 0 (zeros 48)
            ∧ (∀ d, d < 8 → mget u.caravan.routes d =
                if (routeOf (entry b d)).ports = 0 ∧ (routeOf (entry b d)).alt = 0 then none else some (routeOf (entry b d)))
            ∧ (∀ d y, d < 8 → mget s.caravan.topo d = some y → ∃ z, mget u.caravan.topo d = some z ∧ z.st = y.st
                ∧ z.hops = if (routeOf (entry b d)).ports ≠ 0 then (routeOf (entry b d)).hops
                    else if (routeOf (entry b d)).alt ≠ 0 then (routeOf (entry b d)).altHops else 0)
            ∧ (∀ d, d < 8 → u.setting (0x18 + d) = (routeOf (entry b d)).code) ∧ u.mem = s.mem ∧ u.queues = s.queues)
        ∧ (formed → s.tableOk die b = true → die ≠ s.caravan.die →
            ((s.dieState die ≠ 1 ∨ s.reachable die = false) → FailsWith i s r 0x0801)
            ∧ (s.dieState die = 1 → s.reachable die = true → ∃ u port hops, Succeeds i s u r 0 (zeros 48)
                ∧ u.caravan.routes = s.caravan.routes
                ∧ OutMsg.caravan port 6 s.caravan.die die 0 0 0 (sizeCode 80) hops (mgmtBytes mgmtTable 0 b) false ∈ u.host.out)))
    ∧ (Serves (.cvlMemberAdmit pair) s r x →
      let i := Instr.cvlMemberAdmit pair
      let die := r.n 0x10 1
      let seen := s.inSight die = true ∧ ∃ y, mget s.caravan.topo die = some y ∧ y.dieId ≠ 0
        ∧ ∃ k, k < 8 ∧ s.setting (0x10 + k) = y.dieId.toNat
      ((8 ≤ die ∨ r.n 0x11 1 ≠ 0) → FailsWith i s r 0x0003)
      ∧ (die < 8 → r.n 0x11 1 = 0 → (die = s.caravan.die ∨ s.dieState die ≠ 0) → FailsWith i s r 0x0806)
      ∧ (die < 8 → r.n 0x11 1 = 0 → die ≠ s.caravan.die → s.dieState die = 0 →
        (¬ seen → FailsWith i s r 0x0804)
        ∧ (seen → ¬ MayStartLong s r → FailsWith i s r (longErr s r))
        ∧ (seen → MayStartLong s r → ∃ u, StartsLong i s u r ∧ u.dieState die = 2 ∧ u.fw = (s.withLong r []).fw
          ∧ (∀ d, d ≠ die → u.dieState d = s.dieState d) ∧ u.mem = s.mem ∧ u.queues = s.queues)))
    ∧ (Serves (.cvlMemberRemove pair) s r x →
      let i := Instr.cvlMemberRemove pair
      let die := r.n 0x10 1
      let placed := ∃ p ∈ s.mmu.backings, (p.2.placement = 3 ∧ p.2.die = die) ∨ p.2.heldFor = some die
      (8 ≤ die → FailsWith i s r 0x0003)
      ∧ (die < 8 → (s.dieState die ≠ 1 ∨ die = s.caravan.die) → FailsWith i s r 0x000E)
      ∧ (die < 8 → s.dieState die = 1 → die ≠ s.caravan.die →
        (placed → FailsWith i s r 0x0802)
        ∧ (¬ placed → s.holdsTogether die = false → FailsWith i s r 0x0803)
        ∧ (¬ placed → s.holdsTogether die = true → ¬ MayStartLong s r → FailsWith i s r (longErr s r))
        ∧ (¬ placed → s.holdsTogether die = true → MayStartLong s r → ∃ u, StartsLong i s u r ∧ u.dieState die = 3
          ∧ u.fw = (s.withLong r []).fw ∧ (∀ d, d ≠ die → u.dieState d = s.dieState d) ∧ u.mem = s.mem)))
    ∧ (Serves (.sampleRingSetEnable pair buf) s r x →
      let i := Instr.sampleRingSetEnable pair buf
      let k := r.n 0x10 1
      let size := r.n 0x11 1
      let bad := 15 < k ∨ size < 6 ∨ 16 < size ∨ vectorOk (r.n 0x12 2) = false ∨ r.n 0x18 8 % 4096 ≠ 0
      (bad → FailsWith i s r 0x0003) ∧ (¬ bad → (∀ b, ¬ given 0x20 112 b) → FailsWith i s r 0x000C)
      ∧ ∀ b, ¬ bad → given 0x20 112 b →
        (s.selectionOk b = false → FailsWith i s r 0x0003)
        ∧ (s.selectionOk b = true → mget s.mmu.asids (r.n 0x14 2) = none → FailsWith i s r 0x000E)
        ∧ (s.selectionOk b = true → mhas s.mmu.asids (r.n 0x14 2) = true →
          ((s.sring k).enabled = true → FailsWith i s r 0x000D)
          ∧ ((s.sring k).enabled = false → ∃ u, Succeeds i s u r 0 (zeros 48) ∧ (∀ n, n ≠ k → u.sring n = s.sring n)
            ∧ { u with sampleRings := s.sampleRings } = s
            ∧ u.sring k = ⟨true, false, size, r.n 0x12 2, r.n 0x14 2, BitVec.ofNat 64 (r.n 0x18 8),
                if getLe b 0 1 = 0 then 16 else getLe b 0 1, getLe b 3 1,
                (List.range (getLe b 1 1)).map (fun e => getLe b (0x10 + 2 * e) 2),
                (List.range (getLe b 2 1)).map (fun e => getLe b (0x30 + 2 * e) 2), 0, 0, [], (s.sring k).dropped, false⟩)))
    ∧ (Serves (.sampleRingSetDisable pair) s r x →
      let i := Instr.sampleRingSetDisable pair
      let k := r.n 0x10 1
      let bad := 15 < k ∨ vectorOk (r.n 0x12 2) = false
      (bad → FailsWith i s r 0x0003)
      ∧ (¬ bad → (s.sring k).enabled = false → Succeeds i s s r 0 (zeros 48))
      ∧ (¬ bad → (s.sring k).enabled = true → ∃ u, Succeeds i s u r 0 (zeros 48) ∧ (u.sring k).enabled = false
          ∧ (∀ n, n ≠ k → u.sring n = s.sring n)
          ∧ ((s.sring k).latched = [] → (u.sring k).widx = (s.sring k).widx))))
  ∧ (∀ (ring : Fin 16) (s : State),
    let k := ring.val
    let v := s.sring k
    let on := s.live = true ∧ s.halted = false ∧ v.enabled = true
    (¬ on → exec (.sampleSnapshot ring) s = .next s ∧ exec (.sampleRecordWrite ring) s = .next s)
    ∧ (on → 64 < v.latched.length + v.units.length → exec (.sampleSnapshot ring) s = .next (s.setSring k
        { v with sample := (v.sample + 1) % 2 ^ 32, dropped := satInc v.dropped, dropOwed := true }))
    ∧ (on → v.latched.length + v.units.length ≤ 64 → ∃ t new, exec (.sampleSnapshot ring) s = .next t
        ∧ t.sring k = { v with sample := (v.sample + 1) % 2 ^ 32, latched := v.latched ++ new }
        ∧ new.map (fun y => y.block * 256 + y.inst) = v.units ∧ (∀ y ∈ new, y.sample = v.sample
            ∧ y.stamp = BitVec.ofNat 64 (v.domain * 2 ^ 56 + s.count v.domain / 2 ^ v.interval * 2 ^ v.interval)
            ∧ y.values.length = v.events.length)
        ∧ (∀ y ∈ new, ∀ (n e : Nat), v.events[n]? = some e → eventFree y.block e = false →
            y.values[n]? = some (BitVec.ofNat 64 (s.blockDomain y.block y.inst * 2 ^ 56 + s.ctr y.block y.inst e)))
        ∧ { t with sampleRings := s.sampleRings, clk := { t.clk with fresh := s.clk.fresh } } = s)
    ∧ (on → v.latched = [] → exec (.sampleRecordWrite ring) s = .next s)
    ∧ ∀ y rest, on → v.latched = y :: rest →
      let at_ := v.va.toNat + 128 * (v.widx.toNat % 2 ^ v.sizeLog)
      let b := y.bytes (v.widx.toNat / 2 ^ v.sizeLog % 2 = 0) v.dropOwed
      (∀ s1, s.writeVa 255 v.asid at_ b true = (.ok (), s1) → ∃ t, exec (.sampleRecordWrite ring) s = .next t
        ∧ t.sring k = { v with latched := rest, widx := v.widx + 1, dropOwed := false } ∧ t.mem = s1.mem
        ∧ ((v.widx.toNat + 1) % 2 ^ (v.sizeLog - 2) = 0 → v.vector ≠ 0 → s.flt.fatal = false → Raised s1 t v.vector))
      ∧ (∀ e s1, s.writeVa 255 v.asid at_ b true = (.error e, s1) → ∃ t, exec (.sampleRecordWrite ring) s = .next t
        ∧ t.sring k = { v with enabled := false, faulted := true, latched := [] } ∧ Recorded s1 t 0x30 k at_ v.asid))

/-- R484 to R488, R491, R492, R494, R495, R497, R500, R501. -/
def Obligations.FaultsFencesAndLogbookAreManaged : Prop :=
  (∀ (pair : Fin 8) (selfTest : Bool) (s : State) (r : Req) (x : Session),
    let read := fun (i : Instr) (next held : Nat) (bytes : Nat → Option (List Byte)) =>
      let count := r.n 0x14 2
      let a := r.n 0x18 8
      let d := (next + 2 ^ 32 - r.n 0x10 4) % 2 ^ 32
      let n := if d = 0 ∨ 2 ^ 31 ≤ d then 0 else min d held
      let l := ((List.range (min n count)).map (fun k => (next + 2 ^ 32 - n + k) % 2 ^ 32)).filterMap bytes
      ((r.n 0x20 4 < 64 * count ∨ a % 8 ≠ 0) → FailsWith i s r 0x000C)
      ∧ (64 * count ≤ r.n 0x20 4 → a % 8 = 0 → s.host.d3hot = false → ∃ t u, exec i s = .next t
          ∧ Responds u t r true 0 0 0 (result [(0x10, 4, l.length)])
          ∧ { u with host := { u.host with out := s.host.out } } = s
          ∧ (l.flatten ≠ [] → OutMsg.write a l.flatten ∈ t.host.out))
    (Serves (.fltRead pair) s r x →
      read (.fltRead pair) s.flt.next.toNat s.flt.records.length (fun n => (mget s.flt.records n).map (FltRecord.bytes n)))
    ∧ (Serves (.logbookRead pair) s r x →
      read (.logbookRead pair) s.logbook.next.toNat s.logbook.records.length
        (fun n => (mget s.logbook.records n).map (LogRec.bytes n)))
    ∧ (Serves (.fltPolicySet pair) s r x →
      let i := Instr.fltPolicySet pair
      let code := r.n 0x10 2
      let action := r.n 0x12 1
      let good := code ∈ faultCodes ∧ code ≠ 0x1007 ∧ faultClass code ≠ 2 ∧ action < 16
        ∧ bit action 0 = bit (s.policy code).action 0 ∧ 3840000 ≤ r.n 0x14 4 ∧ r.n 0x14 4 ≤ r.n 0x18 4
      (¬ good → FailsWith i s r 0x0003)
      ∧ (good → ∃ u, Succeeds i s u r 0 (zeros 48) ∧ u.policy code = ⟨action, r.n 0x14 4, r.n 0x18 4⟩
          ∧ (∀ k, k ≠ 0x10000 + code → k ≠ 0x20000 + code → u.setting k = s.setting k)
          ∧ { u with mram := { u.mram with working := s.mram.working } } = s))
    ∧ (Serves (.errnSet pair) s r x →
      let i := Instr.errnSet pair
      (1 < r.n 0x10 1 → FailsWith i s r 0x0003)
      ∧ (r.n 0x10 1 ≤ 1 → ∃ u, Succeeds i s u r 0 (zeros 48) ∧ u.flt = { s.flt with swLevel := r.n 0x10 1 = 1 }
          ∧ u.pins = { s.pins with errN := s.flt.held || s.flt.pulse || r.n 0x10 1 = 1 }
          ∧ { u with flt := s.flt, pins := s.pins } = s))
    ∧ (Serves (.unitFence pair) s r x →
      let i := Instr.unitFence pair
      let kind := r.n 0x10 1
      let index := r.n 0x11 1
      let ok := (kind ≤ 7 ∨ kind = 9) ∧ index < kindCount kind
      (¬ ok → FailsWith i s r 0x0003)
      ∧ (∀ f, ok → s.fence? kind index = some f →
        (f.software = true → Succeeds i s s r 0 (zeros 48))
        ∧ (f.software = false → ∃ u y, Succeeds i s u r 0 (zeros 48)
          ∧ u.fence? kind index = some { f with software := true, code := 0x1007, cls := 3 }
          ∧ mget u.flt.records s.flt.next.toNat = some y ∧ y.code = 0x1007 ∧ y.unitKind = kind ∧ y.index = index
          ∧ u.engines = s.engines ∧ u.queues = s.queues))
      ∧ (ok → s.fence? kind index = none → FencesApplied s → s.flt.fatal = false → ∃ u f y,
          Succeeds i s u r 0 (zeros 48) ∧ u.fence? kind index = some f ∧ f.software = true ∧ f.code = 0x1007 ∧ f.applied = true
          ∧ mget u.flt.records s.flt.next.toNat = some y ∧ y.code = 0x1007 ∧ y.unitKind = kind ∧ y.index = index
          ∧ (kind = 0 → (u.eng index).strs = [] ∧ (u.eng index).disps = [] ∧ (u.eng index).tensors = []
              ∧ (s.passes = [] → (∀ p ∈ s.parts, p.2.slots = []) →
                  ∀ d ∈ (s.eng index).disps, (∀ m, m ≠ index → ∀ d' ∈ (s.eng m).disps, d'.queue ≠ d.queue) →
                    ∀ c, s.cmd? d.queue d.cmd = some c → (∀ z, c.st ≠ .ended z) →
                      u.cmd? d.queue d.cmd = some { c with st := .ended 0x0903, detail := 0 }))
          ∧ (kind = 2 → bit (u.mem.slice (index / 16)).off.toNat (index % 16) = true)
          ∧ (kind = 3 → (u.mem.slice index).fenced = true ∧ ∀ p ∈ u.mem.lines, p.1 / 32768 ≠ index)
          ∧ (kind = 4 → (u.caravan.port index).fenced = true) ∧ (kind = 5 → (u.pipe index).fenced = true)
          ∧ (kind = 9 → (u.ring index).fenced = true ∧ (u.ring index).enabled = false)))
    ∧ (Serves (.unitReadmit pair selfTest) s r x →
      let i := Instr.unitReadmit pair selfTest
      let kind := r.n 0x10 1
      let index := r.n 0x11 1
      let out := (s.fence? kind index).isSome = true ∨ (kind = 2 ∧ bit (s.mem.slice (index / 16)).off.toNat (index % 16) = true)
        ∨ (kind = 8 ∧ (s.mem.chan index).failed = true)
      let maker := (∃ f, s.fence? kind index = some f ∧ f.permanent = true) ∨ kind = 2 ∨ kind = 8
      (kindCount kind ≤ index → FailsWith i s r 0x0003)
      ∧ (index < kindCount kind → ¬ out → FailsWith i s r 0x0902)
      ∧ (index < kindCount kind → out → maker → r.role ≠ 3 → FailsWith i s r 0x0006)
      ∧ (index < kindCount kind → out → (maker → r.role = 3) → FencesApplied s →
        ∃ u, Succeeds i s u r 0 (zeros 48)
          ∧ mgetD u.flt.recoveries (unitKey kind index) 0 = mgetD s.flt.recoveries (unitKey kind index) 0 + 1
          ∧ (selfTest = true → kind ≠ 3 → u.fence? kind index = none)
          ∧ (selfTest = true → kind = 0 → (u.eng index).strs = [] ∧ (u.eng index).disps = [])
          ∧ (selfTest = true → kind = 2 → bit (u.mem.slice (index / 16)).off.toNat (index % 16) = false)
          ∧ (selfTest = true → kind = 4 → (u.caravan.port index).fenced = false ∧ (u.caravan.port index).link = 1)
          ∧ (selfTest = true → kind = 5 → (u.pipe index).fenced = false ∧ (u.pipe index).link = 1)
          ∧ (kind = 8 → (u.mem.chan index).failed = false ∧ (u.mem.chan index).training = true)
          ∧ (selfTest = true → kind = 9 → (u.ring index).fenced = false)
          ∧ (selfTest = false → kind ≠ 8 → s.flt.fatal = false →
              bit (s.policy (if kind = 3 then 0x0205 else 0x1004)).action 0 = true → (u.fence? kind index).isSome = true))))
  ∧ (∀ (kind index : Nat) (selfTest : Bool) (s : State),
    let i := Instr.fenceQuietExpiry kind index selfTest
    (s.fence? kind index = none → exec i s = .next s)
    ∧ ∀ f, s.fence? kind index = some f →
      ((s.live = false ∨ f.software = true ∨ f.permanent = true ∨ kind = 2 ∨ s.fw.masterAlive = false) → exec i s = .next s)
      ∧ (s.live = true → f.software = false → f.permanent = false → kind ≠ 2 → kind ≠ 3 → s.fw.masterAlive = true →
        FencesApplied s → ∃ t, exec i s = .next t
          ∧ mgetD t.flt.recoveries (unitKey kind index) 0 = mgetD s.flt.recoveries (unitKey kind index) 0 + 1
          ∧ (selfTest = true → kind < 256 → index < 256 → t.fence? kind index = none)
          ∧ (kind = 5 → index < 4 → selfTest = true → (t.pipe index).fenced = false)))
  ∧ (∀ s : State,
    (s.flt.pulse = false → exec .errnPulseEnd s = .next s)
    ∧ (s.flt.pulse = true → exec .errnPulseEnd s = .next { s with
        flt := { s.flt with pulse := false }, pins := { s.pins with errN := s.flt.held || s.flt.swLevel } })
    ∧ ((s.logbook.queue = [] ∨ s.aon = false ∨ s.logbook.warnAt ≠ none) → exec .logbookWrite s = .next s)
    ∧ (∀ l rest, s.logbook.queue = l :: rest → s.aon = true → s.logbook.warnAt = none → s.logbook.lost = 0 →
        s.logbook.heldFatal = [] → ∃ t, exec .logbookWrite s = .next t ∧ t.logbook.queue = rest
          ∧ t.logbook.next = s.logbook.next + 1 ∧ mget t.logbook.records s.logbook.next.toNat = some l
          ∧ { t with logbook := s.logbook } = s)
    ∧ ((s.pins.pwrFailN = false ∨ s.power.st = .off) → exec .powerFailWarning s = .next s)
    ∧ (s.pins.pwrFailN = true → s.power.st ≠ .off → ∃ t, exec .powerFailWarning s = .next t ∧ t.pins.pwrFailN = false
        ∧ t.logbook.warnAt = some s.aclk ∧ (∀ l ∈ t.fw.longOps, l.opcode ≠ 0x0905)
        ∧ ((∀ l ∈ s.fw.longOps, l.opcode ≠ 0x0905) →
            { t with pins := s.pins, logbook := { t.logbook with warnAt := s.logbook.warnAt } } = s))
    ∧ (s.logbook.warnAt = none → exec .powerFailRelease s = .next { s with pins := { s.pins with pwrFailN := true } })
    ∧ (∀ a, s.logbook.warnAt = some a → s.aon = true → ∃ t l, exec .powerFailRelease s = .next t ∧ t.pins.pwrFailN = true
        ∧ t.logbook.warnAt = none ∧ mget t.logbook.records s.logbook.next.toNat = some l ∧ l.type = 0x11
        ∧ l.arg0 = BitVec.ofNat 64 a ∧ t.logbook.queue = s.logbook.queue))

/-! ### Power, temperatures, settings, images and keys (chapters 17 and 19) -/

/-- R421, R508, R509, R511 to R514, R516, R517, R565 to R567. The PMIC's calibration is an opaque function (log entry 60);
what is held down and who may raise it in the zones above is the model's reading (log entry 12 where nothing happens). -/
def Obligations.PowerAndTemperatureAreManaged : Prop :=
  (∀ (pair : Fin 8) (s : State) (r : Req) (x : Session),
    (Serves (.pwrLimitSet pair) s r x →
      let i := Instr.pwrLimitSet pair
      let good := r.n 0x10 2 ≤ 230 ∧ r.n 0x12 2 ≤ 280 ∧ r.n 0x10 2 ≤ r.n 0x12 2
      (¬ good → FailsWith i s r 0x0003)
      ∧ (good → ∃ u, Succeeds i s u r 0 (zeros 48) ∧ u.setting 0x50 = r.n 0x10 2 + r.n 0x12 2 * 65536
          ∧ (∀ k, k ≠ 0x50 → u.setting k = s.setting k)
          ∧ { u with mram := { u.mram with working := s.mram.working } } = s))
    ∧ (Serves (.pwrHalt pair) s r x → ∃ u, Succeeds (.pwrHalt pair) s u r 0 (zeros 48) ∧ u.power.drain = true
        ∧ (∀ n, n < 8 → (u.mbx n).haltAck = decide (n = pair.val)) ∧ u.mem = s.mem ∧ u.queues = s.queues ∧ u.engines = s.engines
        ∧ (s.power.drain = true → u.pipes = s.pipes ∧ u.power = s.power)
        ∧ (s.power.drain = false → ∀ p, p < 4 → u.pipe p = if (s.pipe p).enabled || (s.pipe p).starting
            then { s.pipe p with stopping := (s.pipe p).enabled, starting := false } else s.pipe p)))
  ∧ (∀ (w : Nat) (s : State), s.up = true → s.halted = false →
    let p := s.power
    let l := (w :: p.samples).take 100000
    let sus := 16 * bits (s.setting 0x50) 15 0
    let peak := 16 * bits (s.setting 0x50) 31 16
    let exceeds := peak * (l.take 1000).length < (l.take 1000).sum ∨ sus * l.length < l.sum
    (∃ t, exec (.powerSample w) s = .next t ∧ t.power.samples = l ∧ t.mem = s.mem ∧ t.queues = s.queues)
    ∧ (exceeds → 1 ≤ p.point → p.point ≤ 2 → ∃ t, exec (.powerSample w) s = .next t ∧ t.power.point = p.point - 1
        ∧ t.power.raising = none ∧ t.power.stepsDown = p.stepsDown + 1 ∧ t.power.idle = p.idle
        ∧ mget t.clk.khz 0x04 = some (if p.point = 1 then 450000 else 675000))
    ∧ (exceeds → p.point = 0 → p.idle = 0 → ∃ t, exec (.powerSample w) s = .next t ∧ t.power.point = 0 ∧ t.power.idle = 1)
    ∧ (¬ exceeds → p.under < 9999 → ∃ t, exec (.powerSample w) s = .next t ∧ t.power.point = p.point ∧ t.power.idle = p.idle
        ∧ t.power.raising = p.raising ∧ { t with power := s.power } = s)
    ∧ exec (.pmicCalibration w) s = .next { s with power := { s.power with calibration := Config.calibrate w } }
    ∧ (p.raising = none → exec .cclkRaiseConfirmed s = .next s)
    ∧ (∀ n, p.raising = some n → n ≤ 2 → ∃ t, exec .cclkRaiseConfirmed s = .next t ∧ t.power = { p with point := n, raising := none }
        ∧ mget t.clk.khz 0x04 = some (450000 + 225000 * n) ∧ t.mem = s.mem))
  ∧ (∀ (temps : List Int) (s : State),
    let good := temps.length = 48 ∧ ∀ c ∈ temps, -32768 ≤ c ∧ c ≤ 32767
    (¬ good → exec (.sensorSample temps) s = .fault .illFormed)
    ∧ (good → s.up = true → s.halted = false → ∃ t, exec (.sensorSample temps) s = .next t ∧ t.mem = s.mem ∧ t.queues = s.queues
      ∧ (∀ k, k < 48 → mget t.thermal.temps k = temps[k]?) ∧ (∀ c ∈ temps, c ≤ t.thermal.tmax)
      ∧ temps[t.thermal.sensor]? = some t.thermal.tmax ∧ t.thermal.tripped = s.thermal.tripped
      ∧ t.thermal.tripRun = (if 2000 < t.thermal.tmax then s.thermal.tripRun + 1 else 0)
      ∧ (s.thermal.zone ≤ 1 → (1760 < t.thermal.tmax ↔ 2 ≤ t.thermal.zone)
          ∧ (t.thermal.tmax ≤ 1680 ↔ t.thermal.zone = 0))
      ∧ (2 ≤ s.thermal.zone → s.thermal.cool < 9999 → 2 ≤ t.thermal.zone)
      ∧ (2 ≤ s.thermal.zone → 9999 ≤ s.thermal.cool → t.thermal.tmax ≤ 1712 → t.thermal.zone ≤ 1)))
  ∧ (∀ s : State,
    ((s.up = false ∨ s.thermal.tripRun < 3) → exec .thermalTrip s = .next s)
    ∧ (s.up = true → 3 ≤ s.thermal.tripRun → ∃ t, exec .thermalTrip s = .next t ∧ IsFatal t ∧ t.thermal.tripped = true
        ∧ t.pins.thermTrip = true ∧ t.host.linkUp = false ∧ t.up = false ∧ t.mem = s.mem)
    ∧ (let rests := s.live = true ∧ s.power.st = .run ∧ s.power.drain = false ∧ s.boot.step = 0xFF ∧ s.busyNow = false
      (¬ rests → exec .restEntry s = .next s)
      ∧ (rests → ∃ t, exec .restEntry s = .next t ∧ t.power = { s.power with st := .rest } ∧ { t with power := s.power, host := s.host } = s))
    ∧ (let commits := s.live = true ∧ s.power.drain = true ∧ (s.power.st = .run ∨ s.power.st = .rest) ∧ s.drained = true
      (¬ commits → exec .haltCommit s = .next s)
      ∧ (commits → ∃ t, exec .haltCommit s = .next t ∧ { t with power := s.power, host := s.host } = s
          ∧ t.power = { s.power with
              st := .haltEntry, drain := false, halts := s.power.halts + 1, since := s.aclk, wakePending := none }))
    ∧ (s.power.st ≠ .haltEntry → exec .haltReached s = .next s)
    ∧ (s.power.st = .haltEntry → s.pins.resetN = true → s.pins.pwrGood = true → ∃ t, exec .haltReached s = .next t
        ∧ Recorded s t 0x21 0 ((s.aclk + 2 ^ 56 - s.power.since) % 2 ^ 56) 0 ∧ t.mem = s.mem
        ∧ t.power.st = (if s.power.wakePending = none then .halt else .waking))
    ∧ (∀ k, 1 ≤ k → k ≤ 6 → s.up = true →
        (s.power.st = .halt → ∃ t, exec (.wakeSource k) s = .next t ∧ t.power.st = .waking ∧ t.power.wakeSrc = k
          ∧ t.power.lastWake = s.aclk ∧ t.mem = s.mem)
        ∧ (s.power.st = .haltEntry → s.power.wakePending = none → exec (.wakeSource k) s = .next { s with
            power := { s.power with lastWake := s.aclk, wakeSrc := k, wakePending := some k } })
        ∧ (s.power.st ≠ .halt → s.power.st ≠ .haltEntry → exec (.wakeSource k) s = .next s))
    ∧ ((s.power.st ≠ .waking ∨ s.up = false) → exec .wakeComplete s = .next s)
    ∧ (s.power.st = .waking → s.up = true → (∃ t, exec .wakeComplete s = .next t)
        ∧ (s.host.heldWrites = [] → s.host.d3hot = false → ∃ t, exec .wakeComplete s = .next t ∧ t.power.st = .run
          ∧ (∀ m ∈ s.host.waitOut, m ∈ t.host.out) ∧ t.host.waitOut = [] ∧ t.mem = s.mem ∧ t.queues = s.queues
          ∧ Recorded s t 0x21 (1 + s.power.wakeSrc * 256) ((s.aclk + 2 ^ 56 - s.power.lastWake) % 2 ^ 56) 0)))

/-- R292, R525 to R529, R532, R533, R535 to R538. Signature checks and SHA-384 are opaque functions (log entry 3). -/
def Obligations.SettingsImagesAndKeysAreManaged : Prop :=
  (∀ (pair : Fin 8) (buf : Option (List Byte)) (s : State) (r : Req) (x : Session),
    let given := fun (off lo hi : Nat) (b : List Byte) => lo ≤ b.length ∧ b.length ≤ hi ∧ r.n (off + 8) 4 = b.length
      ∧ r.n off 8 % 8 = 0 ∧ buf = some b
    let long := fun (i : Instr) (P : State → Prop) => (¬ MayStartLong s r → FailsWith i s r (longErr s r))
      ∧ (MayStartLong s r → ∃ u, StartsLong i s u r ∧ u.mem = s.mem ∧ u.queues = s.queues ∧ u.engines = s.engines ∧ P u)
    (Serves (.settingGet pair) s r x →
      let i := Instr.settingGet pair
      let key := r.n 0x10 4
      key < 0xB0000000 →
        ((settingRange key = none → ownedDefault key = none → FailsWith i s r 0x000E)
        ∧ (((settingRange key).isSome = true ∨ (ownedDefault key).isSome = true) →
            Succeeds i s s r 0 (result [(0x10, 8, s.setting key)]))))
    ∧ (Serves (.settingSet pair) s r x →
      let i := Instr.settingSet pair
      let key := r.n 0x10 4
      let v := r.n 0x18 8
      (key < 0xB0000000 →
        (settingRange key = none → ownedDefault key = none → FailsWith i s r 0x000E)
        ∧ (settingRange key = none → (ownedDefault key).isSome = true → FailsWith i s r 0x0003)
        ∧ ∀ lo hi d, settingRange key = some (lo, hi, d) →
          let takes := lo ≤ v ∧ v ≤ hi ∧ ¬ (key = 0x21 ∧ v = 3)
          (¬ takes → FailsWith i s r 0x0003)
          ∧ (takes → ∃ u, Succeeds i s u r 0 (zeros 48) ∧ u.setting key = v ∧ (∀ k, k ≠ key → u.setting k = s.setting k)
              ∧ { u with mram := { u.mram with working := s.mram.working } } = s))
      ∧ (∀ n, 1 ≤ n → n ≤ 24 → key = 0xB0000000 + n →
        (v ≠ 0 → FailsWith i s r 0x0003)
        ∧ (v = 0 → ∃ u, Succeeds i s u r 0 (zeros 48) ∧ (u.mram.ledger.step n) = { s.mram.ledger.step n with mode := 0 }
            ∧ (∀ k, k ≠ n → u.mram.ledger.step k = s.mram.ledger.step k) ∧ { u with mram := s.mram } = s)))
    ∧ (Serves (.storeSettings pair) s r x → long (.storeSettings pair)
        (fun u => u = s.withLong r (packSettings s.mram.working)))
    ∧ (Serves (.fwStage pair buf) s r x →
      let i := Instr.fwStage pair buf
      ((∀ b, ¬ given 0x10 0x1000 0x201000 b) → FailsWith i s r 0x000C)
      ∧ ∀ b, given 0x10 0x1000 0x201000 b → long i (fun u => u.fw = (s.withLong r b).fw
          ∧ u.mram = s.mram.setOtherFw ImageSlot.reset ∧ u.mram.otherFw.valid = false ∧ u.mram.activeFw = s.mram.activeFw))
    ∧ (Serves (.fwActivate pair) s r x →
      let i := Instr.fwActivate pair
      (s.mram.otherFw.valid = false → FailsWith i s r 0x0916)
      ∧ (s.mram.otherFw.valid = true → long i (fun u => u.mram = s.mram
          ∧ u.fw.longOps.map (fun l => l.opcode) = s.fw.longOps.map (fun l => l.opcode) ++ [0x0911]
          ∧ (u.fw.updating = true ↔ s.fw.longOps = [] ∧ s.slotError 1 s.mram.otherFw = 0))))
    ∧ (Serves (.ucodeUpdate pair buf) s r x →
      let i := Instr.ucodeUpdate pair buf
      ((∀ b, ¬ given 0x10 0x1000 0x101000 b) → FailsWith i s r 0x000C)
      ∧ ∀ b, given 0x10 0x1000 0x101000 b → long i (fun u => (u.ucodeOp).isSome = true
          ∧ (s.imageError 2 b = 0 → (∀ p ∈ s.parts, p.2.slots = []) → u.mram = s.mram.setOtherUcode (imageSlot b))
          ∧ (s.imageError 2 b ≠ 0 → u.mram = s.mram)))
    ∧ (Serves (.recalibrate pair) s r x →
      let i := Instr.recalibrate pair
      let k := r.n 0x11 1
      let known := (r.n 0x10 1 ≤ 1 ∧ k < 4) ∨ (r.n 0x10 1 = 2 ∧ k < if s.mem.mode = 0 then 16 else 24)
      let down := (r.n 0x10 1 = 0 ∧ (s.host.linkUp = false ∨ s.host.modules ≤ k))
        ∨ (r.n 0x10 1 = 1 ∧ s.caravan.inService k = false) ∨ (r.n 0x10 1 = 2 ∧ (s.mem.chan k).failed = true)
      (¬ known → FailsWith i s r 0x0003) ∧ (known → down → FailsWith i s r 0x000D)
      ∧ (known → ¬ down → long i (fun u => u = s.withLong r [])))
    ∧ (Serves (.keySet pair buf) s r x →
      let i := Instr.keySet pair buf
      ((∀ b, ¬ given 0x18 5365 5365 b) → FailsWith i s r 0x000C)
      ∧ ∀ b, given 0x18 5365 5365 b →
        let slot := getLe b 0 1
        let signer := getLe b 1 1
        let serial := getLe b 4 4
        let formed := slot ≤ 15 ∧ r.n 0x10 1 = slot ∧ getLe b 2 2 = 0
        let signed := s.bothVerify signer (slice b 0 0x7C8) (slice b 0x7C8 64) (slice b 0x808 3309) = true
        let entitled := (if slot ≤ 3 then r.role = 3 ∧ signer ≤ 1
            else (r.role = 2 ∨ r.role = 3) ∧ (signer ≤ 1 ∨ (4 ≤ signer ∧ signer ≤ 7)))
          ∧ (∀ k, mget s.mram.keys slot = some k → k.serial.toNat < serial) ∧ 0 < serial
          ∧ (slot ≤ 1 → Config.sha384 (slice b 8 1984) = Config.makerDigest slot)
        (¬ formed → FailsWith i s r 0x0003) ∧ (formed → ¬ signed → FailsWith i s r 0x0010)
        ∧ (formed → signed → ¬ entitled → FailsWith i s r 0x0914)
        ∧ (formed → signed → entitled → ∃ u, Succeeds i s u r 0 (zeros 48)
            ∧ mget u.mram.keys slot = some ⟨slice b 8 32, slice b 0x28 1952, BitVec.ofNat 32 serial⟩
            ∧ (∀ k, k ≠ slot → mget u.mram.keys k = mget s.mram.keys k)
            ∧ { u with mram := s.mram, logbook := s.logbook } = s))
    ∧ (Serves (.calWrite pair buf) s r x →
      let i := Instr.calWrite pair buf
      ((∀ b, ¬ given 0x10 0 (2 ^ 32 - 1) b) → FailsWith i s r 0x000C)
      ∧ ∀ b, given 0x10 0 (2 ^ 32 - 1) b → Succeeds i s
          { s with mram := { s.mram with calibration := s.mram.calibration ++ [b] } } r 0 (zeros 48))
    ∧ (Serves (.fuseWrite pair) s r x →
      let w := r.n 0x10 2
      let v := mgetD s.mram.fuses w 0 ||| BitVec.ofNat 64 (r.n 0x18 8)
      Succeeds (.fuseWrite pair) s { s with mram := { s.mram with fuses := mset s.mram.fuses w v } } r 0
        (result [(0x10, 8, v.toNat)])))
  ∧ (∀ (engine : Fin 32) (selfTest : Bool) (s : State) (l : LongOp), s.ucodeOp = some l →
    let e := engine.val
    let turn := s.working = true ∧ s.ucodeTurn = some e ∧ s.engineClear e = true
    (¬ turn → exec (.ucodeEngineUpdate engine selfTest) s = .next s)
    ∧ (turn → ∃ t l', exec (.ucodeEngineUpdate engine selfTest) s = .next t ∧ t.ucodeOp = some l'
        ∧ (t.eng e).strs = [] ∧ (t.eng e).disps = [] ∧ (∀ m, m ≠ e → t.eng m = s.eng m) ∧ t.mem = s.mem ∧ t.queues = s.queues
        ∧ (t.eng e).ucode = (if l.undoing = false ∧ selfTest = true then BitVec.ofNat 32 l.newVersion else s.activeUcode)
        ∧ (l.newVersion < 2 ^ 32 → l'.newVersion = l.newVersion ∧ (l'.undoing = true ↔ l.undoing = true ∨ selfTest = false)
            ∧ (l.updated < 2 ^ 32 → bit l'.updated e = (!l.undoing && selfTest)))))

/-- R237, R292, R295, R474, R532, R535 to R538. -/
def Obligations.LongOperationsEndAsStarted : Prop :=
  ∀ (opcode : Nat) (ok : Bool) (data : List Byte) (s : State),
    let i := Instr.longOperationEnd opcode ok data
    ((∀ l ∈ s.fw.longOps, l.opcode ≠ opcode) → exec i s = .next s)
    ∧ ∀ l, s.fw.longOps.find? (fun y => y.opcode = opcode) = some l →
      let ends := fun (t : State) (status err : Nat) (res : List Byte) =>
        l ∉ t.fw.longOps ∧ t.queues = s.queues ∧ t.mem.cells = s.mem.cells
        ∧ ∀ x, s.session? l.session = some x → Raised s t l.pair ∧ ∃ y, t.session? l.session = some y
          ∧ ∀ k ∈ x.kept, k.tag = l.tag → k.running = true →
              { k with rsp := response l.opcode l.tag l.session l.rev status 0 err res, running := false } ∈ y.kept
      ((s.up = false ∨ s.halted = true) → exec i s = .next s)
      ∧ (s.up = true → s.halted = false → (∃ t, exec i s = .next t)
        ∧ (opcode = 0x0905 → s.logbook.warnAt = none →
          let a := s.mram.settingsA
          let b := s.mram.settingsB
          let aNew := a.valid = true ∧ (b.valid = false ∨ b.generation.toNat ≤ a.generation.toNat)
          (ok = true → ∃ t c, exec i s = .next t ∧ ends t 0 0 (zeros 48) ∧ t.mram.settingsA = c ∧ t.mram.settingsB = c
              ∧ c.valid = true ∧ c.entries = unpackSettings l.data
              ∧ (aNew → c.generation = a.generation + 1) ∧ (¬ aNew → c.generation = b.generation + 1))
          ∧ (ok = false → ∃ t, exec i s = .next t ∧ ends t 1 0x0915 (zeros 48)
              ∧ (aNew → t.mram.settingsA = a ∧ t.mram.settingsB = { b with valid := false })
              ∧ (¬ aNew → t.mram.settingsB = b ∧ t.mram.settingsA = { a with valid := false })))
        ∧ (opcode = 0x0910 →
          (s.imageError 1 l.data = 0 → ∃ t, exec i s = .next t ∧ ends t 0 0 (result [(0x10, 4, getLe l.data 8 4)])
              ∧ t.mram = s.mram.setOtherFw (imageSlot l.data))
          ∧ (s.imageError 1 l.data ≠ 0 → ∃ t, exec i s = .next t ∧ ends t 1 (s.imageError 1 l.data) (zeros 48)
              ∧ t.mram = s.mram))
        ∧ (opcode = 0x0911 →
          (l.refused ≠ 0 → ∃ t, exec i s = .next t ∧ ends t 1 l.refused (zeros 48) ∧ t.mram = s.mram)
          ∧ (l.refused = 0 → s.fw.updating = false → exec i s = .next s)
          ∧ (l.refused = 0 → s.fw.updating = true → s.fw.longOps = [l] →
            (ok = true → ∃ t, exec i s = .next t ∧ ends t 0 0 (result [(0x10, 4, s.mram.otherFw.version.toNat)])
                ∧ t.fw.updating = false ∧ t.mram.activeSlot = 1 - s.mram.activeSlot
                ∧ t.mram.floorFw = (if s.mram.otherFw.raiseFloor then max s.mram.floorFw s.mram.otherFw.svn else s.mram.floorFw))
            ∧ (ok = false → ∃ t, exec i s = .next t ∧ ends t 1 0x0912 (zeros 48) ∧ t.fw.updating = false ∧ t.mram = s.mram)))
        ∧ (opcode = 0x0912 → l.refused = 0 →
          (s.ucodeTurn ≠ none → exec i s = .next s)
          ∧ (s.ucodeTurn = none → l.undoing = false → ∃ t, exec i s = .next t ∧ ends t 0 0 (zeros 48)
              ∧ t.mram.ucodeSlot = 1 - s.mram.ucodeSlot)
          ∧ (s.ucodeTurn = none → l.undoing = true → ∃ t, exec i s = .next t ∧ ends t 1 0x0912 (zeros 48) ∧ t.mram = s.mram))
        ∧ (opcode = 0x0913 → l.data = [] → ok = true → ∃ t, exec i s = .next t ∧ ends t 0 0 (zeros 48) ∧ t.mram = s.mram)
        ∧ (opcode = 0x0402 →
          let v := s.mem.chan (getLe l.params 0 1)
          (v.failed = false → (v.migrating = true ∨ v.training = true ∨ v.excluded = true) → exec i s = .next s)
          ∧ (v.failed = false → v.migrating = false → v.training = false → v.excluded = false →
              ∃ t, exec i s = .next t ∧ ends t 0 0 (zeros 48) ∧ t.mem = s.mem)
          ∧ (v.failed = true → ∃ t err, exec i s = .next t ∧ ends t 1 err (zeros 48)))
        ∧ (opcode = 0x0702 → getLe l.params 1 1 = 0 → ok = false → ∃ t, exec i s = .next t ∧ ends t 1 0x0804 (zeros 48)
            ∧ t.dieState (getLe l.params 0 1) = 0))

/-! ### Queues and their commands (chapters 10 to 12, 14) -/

/-- R203, R306, R311, R319 to R322, R326 to R329, R367. A queue that cannot fetch, and a command that is not over, is
left as it is (log entry 12). -/
def Obligations.QueuesTakeFetchAndRetireInOrder : Prop :=
  (∀ (q : Half) (data : List Byte) (s : State), HostOpen s → 64 * q.toNat + data.length ≤ 2 ^ 18 → data ≠ [] →
    let i := Instr.doorbell (64 * q.toNat) data
    let value := BitVec.ofNat 32 (getLe data 0 4)
    let dropped := { s with host := { s.host with doorbellDrop := satInc s.host.doorbellDrop } }
    (data.length < 4 → ∃ t, exec i s = .next t ∧ t.host.writeLost = satInc s.host.writeLost
      ∧ t.host.lastLost = s.host.lastLost ∧ { t with host := s.host } = s)
    ∧ (4 ≤ data.length → s.queue? q.toNat = none → exec i s = .next dropped)
    ∧ (4 ≤ data.length → ∀ v, s.queue? q.toNat = some v →
      (2 ^ v.sizeLog < (value - v.head).toNat → exec i s = .next dropped)
      ∧ ((value - v.head).toNat ≤ 2 ^ v.sizeLog → (value - v.head).toNat < (v.tail - v.head).toNat → exec i s = .next s)
      ∧ ((value - v.head).toNat ≤ 2 ^ v.sizeLog → (v.tail - v.head).toNat ≤ (value - v.head).toNat →
        (∃ t w, exec i s = .next t ∧ t.queue? q.toNat = some w ∧ w.tail = value ∧ w.head = v.head ∧ w.last = v.last
          ∧ t.mem = s.mem ∧ t.host = s.host)
        ∧ ((∀ c x, v.convoy = some c → s.convoy? c = some x → x.timed = none) →
          exec i s = .next { s with queues := mset s.queues q.toNat { v with
            tail := value, rung := v.rung ++ [(value, s.fclk)] } }))))
  ∧ (∀ (queue : Half) (entries ext : Option (List Byte)) (s : State) (v : Queue),
    let q := queue.toNat
    let i := Instr.commandAccept queue entries ext
    s.queue? q = some v →
    ((s.mayFetch v = false ∨ v.covered = 0) → exec i s = .next s)
    ∧ (s.mayFetch v = true → v.covered ≠ 0 → v.stream = none →
      (∀ k l pte va s1, s.fetchBytes v (v.entryAt 0) 64 entries = (.error (.fault k l pte va), s1) → s1.queue? q = some v →
        ∃ t id, exec i s = .next t ∧ t.queue? q = some { v with stalled := some id, stallHdr := [] } ∧ t.mem = s1.mem
          ∧ ∀ n, id = some n → mhas t.mmu.faults n = true)
      ∧ (∀ s1, s.fetchBytes v (v.entryAt 0) 64 entries = (.error .poison, s1) → s1.queue? q = some v →
        ∃ t, exec i s = .next t ∧ t.queue? q = some { v with
          stopped := true, cmds := v.cmds ++ [{ Cmd.unread v with st := .ended 0x0108 }] })
      ∧ (∀ b rest s1, s.fetchBytes v (v.entryAt 0) 64 entries = (.ok (b, rest), s1) → s1.queue? q = some v →
        let h := headerOf b
        (v.covered < 1 + h.length → exec i s = .next s1)
        ∧ (1 + h.length ≤ v.covered → ∀ p s2, s1.fetchEntries v rest 1 h.length = (.ok p, s2) → s2.queue? q = some v →
          let d := (BitVec.ofNat 32 h.seq - v.last).toNat
          let err := s2.formError h p v
          (err ≠ 0 → ∃ t, exec i s = .next t ∧ { t with queues := s2.queues } = s2 ∧ t.queue? q = some { v with
            stopped := true, cmds := v.cmds ++ [{ Cmd.of h (stopKey v.head.toNat) [] [] false with
              stops := true, st := .ended err }] })
          ∧ (err = 0 → (d = 0 ∨ 2 ^ 31 ≤ d) → ∃ t, exec i s = .next t ∧ t.queue? q = some (v.advance (1 + h.length))
            ∧ t.mem = s2.mem ∧ t.events = s2.events ∧ t.host = s2.host)
          ∧ (err = 0 → 1 ≤ d → d < 2 ^ 31 → h.ext = 0 → h.opcode ≠ 0x30 →
            let bad := s2.residency q v h.handles
            ∃ t w, exec i s = .next t ∧ t.queue? q = some w ∧ w.head = v.head + BitVec.ofNat 32 (1 + h.length)
              ∧ w.tail = v.tail ∧ w.last = BitVec.ofNat 32 h.seq ∧ t.mem = s2.mem ∧ t.events = s2.events ∧ t.host = s2.host
              ∧ (bad = 0 → w.cmds = v.cmds ++ [Cmd.of h v.head.toNat h.handles p false])
              ∧ (bad ≠ 0 → w.cmds = v.cmds ++ [{ Cmd.of h v.head.toNat [] p false with st := .ended bad }])
              ∧ ∀ n o, s2.obj? n = some o → ∃ o', t.obj? n = some o'
                  ∧ o'.uses = o.uses + if bad = 0 then h.handles.count n else 0)))))
  ∧ (∀ (queue : Half) (s : State) (v : Queue) (c : Cmd) (cs : List Cmd),
    let q := queue.toNat
    let i := Instr.commandRetire queue
    let at_ := v.ringVa.toNat + 64 * 2 ^ v.sizeLog + 32 * (c.index % 2 ^ v.sizeLog)
    s.queue? q = some v → v.cmds = c :: cs → (∀ p ∈ s.passes, s.passFailed p.2 = false) →
    ((s.working = false ∨ (∀ e, c.st ≠ .ended e) ∨ c.signalled = true ∨ s.writesOwed v = true) → exec i s = .next s)
    ∧ (∀ e g, s.working = true → c.st = .ended e → c.signalled = false → s.writesOwed v = false →
      signalOf c.opcode c.payload = g → (∀ x, g = some x → x.enable = true → x.remote = false ∨ x.die = s.caravan.die) →
      (c.opcode ≠ 0x34 ∨ v.inBatch = false) →
      let record := c.inStream = false ∧ (c.crec = true ∨ (e ≠ 0 ∧ e ≠ 0x0509))
      ∃ t w, exec i s = .next t ∧ t.queue? q = some w
        ∧ w.cmds.map (fun d => d.index) = (cs.map (fun d => d.index)).filter (fun n => n ≠ c.index)
        ∧ (∀ x ev, g = some x → mget s.events x.event = some ev → x.enable = true → c.stops = false →
            mget t.events x.event = some { ev with
              count := if ev.count.toNat < x.value then BitVec.ofNat 64 x.value else ev.count })
        ∧ ((∀ x, g = some x → x.enable = false ∨ c.stops = true) → t.events = s.events)
        ∧ (¬ record → t.mem = s.mem)
        ∧ (record → (∀ s1, s.writeVa v.agent v.asid at_ (recordBytes v c e false s.fclk) false = (.ok (), s1) → t.mem = s1.mem)
          ∧ (∀ f s1, s.writeVa v.agent v.asid at_ (recordBytes v c e false s.fclk) false = (.error f, s1) →
              t.mem = s1.mem ∧ Recorded s1 t 0x05 at_ c.waybill.toNat (e + q * 2 ^ 16)))
        ∧ (c.stops = true → v.vector ≠ 0 → Raised s t v.vector)
        ∧ (∀ n o, s.obj? n = some o → ∃ o', t.obj? n = some o' ∧ o'.uses = o.uses - c.handles.count n)
        ∧ (t.account (ctxOfWaybill c.waybill)).commands = (s.account (ctxOfWaybill c.waybill)).commands + 1)
    ∧ (∀ e k x b tm, s.working = true → c.st = .ended e → c.signalled = false → s.writesOwed v = false → c.opcode = 0x34 →
      c.inStream = false → c.stops = false → (∀ g, signalOf c.opcode c.payload = some g → g.enable = false) →
      s.batchOf q = some (k, x, b) → x.timed = some tm → x.pendingEdge = none → s.endsBatch q = true →
      ∃ t y, exec i s = .next t ∧ t.convoy? k = some y ∧ y.lastEnd = s.fclk ∧ (∀ b', y.batch = some b' → b'.tR = s.fclk)
        ∧ (t.account (ctxOfWaybill c.waybill)).misses =
            if b.tR + tm.deadline < s.fclk then min ((s.account (ctxOfWaybill c.waybill)).misses + 1) 255
            else (s.account (ctxOfWaybill c.waybill)).misses))

/-- R141, R144, R150, R180, R314 to R317, R320, R348, R365, R370. A command that may not start is left (log entry 12). -/
def Obligations.CommandsOfQueuesStart : Prop :=
  ∀ (queue : Half) (s : State),
    let q := queue.toNat
    (∀ (i : Instr) (op : Nat), (i, op) ∈ [(Instr.queueNop queue, 0x00), (.dispatch queue, 0x01), (.gangLayer queue, 0x02),
        (.eventAwait queue, 0x03), (.eventRecord queue, 0x04), (.batchStart queue, 0x30), (.switchPoint queue, 0x31),
        (.tileHold queue, 0x32), (.tileFree queue, 0x33), (.batchEnd queue, 0x34)] →
      s.startable q op = none → exec i s = .next s)
    ∧ ∀ (op : Nat) (v : Queue) (c : Cmd), s.startable q op = some (v, c) → s.cmd? q c.index = some c →
      let e := v.unit
      let kept := fun (t : State) => { t with queues := s.queues, convoys := s.convoys, engines := s.engines } = s
      let part := (s.partOf e).bind s.part?
      (∀ i, (i, op) ∈ [(Instr.queueNop queue, 0x00), (.eventRecord queue, 0x04), (.batchEnd queue, 0x34)] →
        ∃ t, exec i s = .next t ∧ CmdEnds s t q c 0 ∧ kept t ∧ t.engines = s.engines)
      ∧ (∀ i b, (i, op, b) ∈ [(Instr.tileHold queue, 0x32, true), (.tileFree queue, 0x33, false)] →
        ∃ t, exec i s = .next t ∧ CmdEnds s t q c 0 ∧ kept t ∧ t.eng e = { s.eng e with tileHold := b }
          ∧ ∀ n, n ≠ e → t.eng n = s.eng n)
      ∧ (op = 0x03 →
        (s.awaitHolds c.payload = true → ∃ t, exec (.eventAwait queue) s = .next t ∧ CmdEnds s t q c 0 ∧ kept t
          ∧ (v.kind = 0 → ∀ l ∈ (t.eng e).l1, l.2.readOnly = true))
        ∧ (s.awaitHolds c.payload = false → ∃ t, exec (.eventAwait queue) s = .next t ∧ CmdStarts s t q c ∧ kept t))
      ∧ (op = 0x30 →
        ((c.inStream = true ∨ ∀ k x, v.convoy = some k → s.convoy? k = some x → x.timed = none) →
          ∃ t, exec (.batchStart queue) s = .next t ∧ CmdEnds s t q c 0 ∧ { t with queues := s.queues } = s)
        ∧ (∀ k x tm, c.inStream = false → v.convoy = some k → s.convoy? k = some x → x.timed = some tm →
          let passes := x.batch.isSome = true ∧ v.batchDone = false ∧ v.inBatch = false
          (passes → v.cmds.find? (fun d => d.opcode = 0x30 && d.st ≠ .ended 0) = some c →
            ∃ t w, exec (.batchStart queue) s = .next t ∧ CmdEnds s t q c 0 ∧ { t with queues := s.queues } = s
              ∧ t.queue? q = some w ∧ w.inBatch = true ∧ w.atBatchStart = false)
          ∧ (¬ passes → ∃ t, exec (.batchStart queue) s = .next t ∧ { t with queues := s.queues } = s
              ∧ t.queue? q = some { v with atBatchStart := true })))
      ∧ (op = 0x31 →
        let p := getLe c.payload 0 2
        ((s.batchOf q = none ∨ c.inStream = true ∨ v.stream ≠ none) →
          ∃ t, exec (.switchPoint queue) s = .next t ∧ CmdEnds s t q c 0 ∧ { t with queues := s.queues } = s)
        ∧ (∀ k x b tm pt, s.batchOf q = some (k, x, b) → c.inStream = false → v.stream = none → v.diverted = none →
          x.timed = some tm → tm.points[p]? = some pt →
          let rest := ((tm.layers.drop pt.before).map (fun l => l.prediction)).sum
          let fresh := p ∉ b.decided ∧ b.diverted = none
          let late := tm.deadline - tm.margin < s.fclk - b.tR + rest
          let goes := b.diverted = some p ∨ (fresh ∧ late)
          ∃ t w, exec (.switchPoint queue) s = .next t ∧ CmdEnds s t q c 0 ∧ kept t ∧ t.queue? q = some w
            ∧ (fresh → t.convoy? k = some { x with batch := some { b with
                decided := p :: b.decided, diverted := if late then some p else none } })
            ∧ (¬ fresh → t.convoys = s.convoys) ∧ (¬ goes → w.diverted = none ∧ w.stream = none)
            ∧ (goes → w.diverted = some p ∧ ∀ a, pt.streams.find? (fun y => y.1 = e) = some (e, a) →
                w.stream = some { next := a, ended := false, err := 0, detail := 0 })))
      ∧ (s.frozen e = false →
        let starts := fun (i : Instr) (entry : Nat) (u2 : Dword) (c' : Cmd) =>
          let d := dispOf q c entry u2 false
          let never := ∃ y, part = some y ∧ 16 - y.gfxMin < d.granules
          let fits := d.granules = 0 ∨ (d.granules ≤ 16 - (s.eng e).tb ∧ (s.eng e).waitGfx = none)
          (d.launchable = false → ∃ t, exec i s = .next t ∧ CmdEnds s t q c' 0x010A ∧ (t.eng e).disps = (s.eng e).disps)
          ∧ (d.launchable = true → never → ∃ t, exec i s = .next t ∧ CmdEnds s t q c' 0x0106
              ∧ (t.eng e).disps = (s.eng e).disps)
          ∧ (d.launchable = true → ¬ never → part ≠ none → fits → ∃ t, exec i s = .next t ∧ CmdStarts s t q c' ∧ kept t
              ∧ (t.eng e).disps = (s.eng e).disps ++ [d] ∧ (t.eng e).waitTns = none)
          ∧ (d.launchable = true → ¬ never → part ≠ none → ¬ fits → (s.eng e).waitGfx = none →
              ∃ t, exec i s = .next t ∧ (∀ k n, (k, n) ≠ (q, c.index) → t.cmd? k n = s.cmd? k n) ∧ kept t
                ∧ t.cmd? q c.index = some c' ∧ (t.eng e).waitTns = some d.granules ∧ (t.eng e).disps = (s.eng e).disps)
        (op = 0x01 → starts (.dispatch queue) (getLe c.payload 0 8) 0 c)
        ∧ (op = 0x02 →
          let i := Instr.gangLayer queue
          let out := fun (p : Nat) => s.fenced 0 (4 * (e / 4) + p) = true ∨ s.ucodeTurn = some (4 * (e / 4) + p)
          (∀ p, p < 4 → out p → (∀ m, m < p → ¬ out m) →
            let entry := getLe c.payload (0x48 + 8 * p) 8
            (entry = 0 → ∃ t, exec i s = .next t ∧ CmdEnds s t q c 0x010B ∧ (t.eng e).disps = (s.eng e).disps)
            ∧ (entry ≠ 0 → starts i entry (BitVec.ofNat 64 (s.gangMask (e / 4))) { c with fallback := true }))
          ∧ ((∀ p, p < 4 → ¬ out p) → ((s.eng e).atGang ≠ none → exec i s = .next s)
            ∧ ((s.eng e).atGang = none → (∀ m ∈ quadOf e, (s.eng m).ucode = (s.eng e).ucode) →
              ((s.eng e).tensors ≠ [] → exec i s = .next s)
              ∧ (let d := dispOf q c (getLe c.payload 0 8) 0 true
                 (s.eng e).tensors = [] → d.launchable = true → (∀ y, part = some y → d.granules ≤ 16 - y.gfxMin) →
                 part ≠ none → (d.granules = 0 ∨ (d.granules ≤ 16 - (s.eng e).tb ∧ (s.eng e).waitGfx = none)) →
                 ∃ t, exec i s = .next t ∧ { t with engines := s.engines } = s ∧ (∀ n, n ≠ e → t.eng n = s.eng n)
                   ∧ t.eng e = { s.eng e with atGang := some (q, c.index), waitTns := none })))))

/-- R194, R226, R318, R328, R443, R444, R446, R448, R451, R453, R454. What a failed job leaves in its output, and what an
overlapping one writes, is open (log entry 2). -/
def Obligations.JobsMoveAndCompressBytes : Prop :=
  (∀ (queue : Half) (host : Option (List Byte)) (s : State),
    (s.jobRun queue.toNat 0x05 = none → exec (.copy queue host) s = .next s)
    ∧ (s.jobRun queue.toNat 0x06 = none → exec (.fill queue host) s = .next s)
    ∧ (s.jobRun queue.toNat 0x20 = none → exec (.compress queue host) s = .next s)
    ∧ (s.jobRun queue.toNat 0x21 = none → exec (.decompress queue host) s = .next s))
  ∧ (∀ (i : Instr) (op : Nat) (queue : Half) (host : Option (List Byte)) (s s1 : State) (v : Queue) (c : Cmd) (j : Job),
    let q := queue.toNat
    (i, op) ∈ [(Instr.copy queue host, 0x05), (.fill queue host, 0x06)] → s.jobRun q op = some (v, c, j, s1) →
    s1.cmd? q c.index = some { c with st := .started } →
    let src := if op = 0x05 then some (getLe c.payload 0 8) else none
    let dst := getLe c.payload (if op = 0x05 then 8 else 0) 8
    let n := getLe c.payload (if op = 0x05 then 0x10 else 8) 8
    let pattern := if op = 0x05 then 0 else getLe c.payload 0x10 8
    let run := s1.moveBytes v src dst n pattern host j.done (n / 1024 + 8)
    (∀ s2, run = (.done, s2) → ∃ t, exec i s = .next t ∧ CmdEnds s1 t q { c with st := .started } 0
      ∧ mget t.jobs v.jobUnit = none ∧ t.mem = s2.mem ∧ t.events = s.events)
    ∧ (∀ s2, run = (.poison, s2) → ∃ t, exec i s = .next t ∧ CmdEnds s1 t q { c with st := .started } 0x0108
      ∧ mget t.jobs v.jobUnit = none)
    ∧ (∀ acc f m s2, run = (.fault acc f m, s2) → ∃ t id, exec i s = .next t ∧ t.mem = s2.mem
      ∧ mget t.jobs v.jobUnit = some { j with done := m, fault := some id } ∧ t.cmd? q c.index = s1.cmd? q c.index)
    ∧ (∀ pa pol ro die s2 s3 (b : List Byte) ext, Memory.wf s.mem.cells = true → j.done = 0 → 1 ≤ n → dst % 4096 + n ≤ 4096 →
      (op = 0x06 → s2 = s1) →
      (op = 0x05 → s1.readVaX v.agent v.asid (getLe c.payload 0 8) n true host = (.ok ((b, false), ext), s2)
        ∧ getLe c.payload 0 8 % 4096 + n ≤ 4096 ∧ rangesMeet (getLe c.payload 0 8) n dst n = false) →
      s2.translate v.agent v.asid dst accWrite = (.ok 0 pa pol ro die, s3) → pa + n ≤ s.mem.capacity →
      ∃ t, exec i s = .next t ∧ CmdEnds s1 t q { c with st := .started } 0
        ∧ (∀ a, ¬ (pa ≤ a ∧ a < pa + n) → memGet t.mem.cells a = memGet s.mem.cells a)
        ∧ (op = 0x06 → ∀ k, k < n → memGet t.mem.cells (pa + k) = BitVec.ofNat 8 (pattern / 256 ^ ((dst + k) % 8)))
        ∧ (op = 0x05 → ∀ k, k < n → memGet t.mem.cells (pa + k) = b.getD k 0)
        ∧ (∀ ps pol ro die s', op = 0x05 → s1.translate v.agent v.asid (getLe c.payload 0 8) accRead = (.ok 0 ps pol ro die, s') →
            ps + n ≤ s.mem.capacity → ∀ k, k < n → memGet t.mem.cells (pa + k) = memGet s.mem.cells (ps + k))))
  ∧ (∀ (i : Instr) (op : Nat) (queue : Half) (host : Option (List Byte)) (s s1 : State) (v : Queue) (c : Cmd) (j : Job),
    let q := queue.toNat
    (i, op) ∈ [(Instr.compress queue host, 0x20), (.decompress queue host, 0x21)] → s.jobRun q op = some (v, c, j, s1) →
    s1.cmd? q c.index = some { c with st := .started } →
    let x := cmpJob c.payload
    let dict := s1.cmpRead v x.dict x.dictBytes host
    let ends := fun (t : State) (err : Nat) => CmdEnds s1 t q { c with st := .started } err ∧ mget t.jobs v.jobUnit = none
    let stops := fun (t : State) => (∃ id, mget t.jobs v.jobUnit = some { j with fault := some id })
      ∧ t.cmd? q c.index = s1.cmd? q c.index
    (∀ f s2, dict = (.error f, s2) → ∃ t, exec i s = .next t ∧ stops t ∧ t.mem = s2.mem)
    ∧ (∀ d ext s2, dict = (.ok (d, true, ext), s2) → x.result = 0 → ∃ t, exec i s = .next t ∧ ends t 0x0108)
    ∧ (∀ d ext s2, dict = (.ok (d, false, ext), s2) →
      (op = 0x20 →
        (∀ f s3, s2.cmpRead v x.src x.srcBytes ext = (.error f, s3) → ∃ t, exec i s = .next t ∧ stops t ∧ t.mem = s3.mem)
        ∧ (∀ b rest s3, s2.cmpRead v x.src x.srcBytes ext = (.ok (b, true, rest), s3) → x.result = 0 →
            ∃ t, exec i s = .next t ∧ ends t 0x0108)
        ∧ (∀ b rest s3, s2.cmpRead v x.src x.srcBytes ext = (.ok (b, false, rest), s3) →
          let out := (compressAll x.framing x.level d b).1
          let st := (compressAll x.framing x.level d b).2
          let r : CmpResult :=
            { out := out, status := 0, dictUsed := !d.isEmpty, check := frameCheck x.framing b, used := x.srcBytes
              blocks := st.blocks, stored := st.stored }
          (x.dstBytes < out.length → x.result = 0 → ∃ t, exec i s = .next t ∧ ends t 0x0701)
          ∧ (out.length ≤ x.dstBytes → x.overlap = false → ∀ s4,
            (s3.drew 1).writeVa v.agent v.asid x.dst out true = (.ok (), s4) →
            (x.result = 0 → ∃ t, exec i s = .next t ∧ ends t 0 ∧ t.mem = s4.mem)
            ∧ (x.result ≠ 0 → ∀ s5, (s4.drew 32).writeVa v.agent v.asid x.result r.bytes true = (.ok (), s5) →
              ∃ t, exec i s = .next t ∧ ends t 0 ∧ t.mem = s5.mem))))
      ∧ (op = 0x21 → ∀ r s3, s2.inflateFrom v x d [] ext (x.srcBytes / 64 + 3) = (.ok r, s3) →
        (r.status ≠ 0 → x.result = 0 → ∃ t, exec i s = .next t ∧ ends t r.status)
        ∧ (r.status = 0 → x.overlap = false → r.out.length ≤ x.dstBytes
            ∧ (∃ b y, inflate x.framing d b x.dstBytes = .ok y ∧ b.length ≤ x.srcBytes ∧ r.out = y.inf.out.reverse)
            ∧ ∀ s4, s3.writeVa v.agent v.asid x.dst r.out true = (.ok (), s4) →
              (x.result = 0 → ∃ t, exec i s = .next t ∧ ends t 0 ∧ t.mem = s4.mem)
              ∧ (x.result ≠ 0 → ∀ s5, (s4.drew 32).writeVa v.agent v.asid x.result r.bytes true = (.ok (), s5) →
                ∃ t, exec i s = .next t ∧ ends t 0 ∧ t.mem = s5.mem)))))

/-- R142, R143, R375, R376, R378, R379, R381, R384, R389, R393, R395. Where a command may not go on it is left (log entry
12). -/
def Obligations.PassesOpenBinRenderAndRetire : Prop :=
  (∀ (queue : Half) (s : State),
    let q := queue.toNat
    (s.startable q 0x10 = none → exec (.passBegin queue) s = .next s)
    ∧ (s.startable q 0x11 = none → exec (.draw queue) s = .next s)
    ∧ (s.startable q 0x12 = none → exec (.passEnd queue) s = .next s)
    ∧ (∀ (v : Queue) (c : Cmd) (k : Nat) (x : Convoy), s.startable q 0x10 = some (v, c) → s.cmd? q c.index = some c →
      v.convoy = some k → s.convoy? k = some x → s.frozen v.unit = false → v.pass = none →
      let i := Instr.passBegin queue
      let m : Member := { queue := q, cmd := c.index, granted := false, ended := none }
      let part := s.part? x.partition
      let named := v.unit ∈ passEngines c.payload ∧ (v.unit, crc32c c.payload) ∉ x.absent
      let front := part.bind (fun y => s.frontOf y (v.unit / 4))
      let fits := (s.gfxFit v.unit (passGranules c.payload (mainTile c.payload))).isSome = true
      (¬ named → ∃ t, exec i s = .next t ∧ CmdEnds s t q c 0x0602 ∧ t.passes = s.passes)
      ∧ (named → s.joinable k v.unit = none →
        (front = none → ∃ t, exec i s = .next t ∧ CmdEnds s t q c 0x0603 ∧ t.passes = s.passes)
        ∧ (front ≠ none → ¬ fits → ∃ t, exec i s = .next t ∧ CmdEnds s t q c 0x0106 ∧ t.passes = s.passes)
        ∧ (front ≠ none → fits → ∃ t p w, exec i s = .next t ∧ CmdStarts s t q c ∧ t.mem = s.mem
          ∧ t.pass? s.nextPass = some p ∧ p.phase = .opening ∧ p.convoy = k ∧ p.asid = v.asid ∧ p.payload = c.payload
          ∧ p.members = [(v.unit, m)] ∧ p.draws = [] ∧ t.nextPass = s.nextPass + 1
          ∧ t.queue? q = some w ∧ w.pass = some s.nextPass))
      ∧ (∀ id p, named → s.joinable k v.unit = some (id, p) → s.pass? id = some p →
        (crc32c p.payload ≠ crc32c c.payload → ∃ t, exec i s = .next t ∧ t.pass? id = none
          ∧ t.cmd? q c.index = some { c with st := .ended 0x0601, detail := 0 })
        ∧ (crc32c p.payload = crc32c c.payload → front ≠ none → fits →
          ∃ t w, exec i s = .next t ∧ CmdStarts s t q c ∧ t.mem = s.mem ∧ t.queue? q = some w ∧ w.pass = some id
            ∧ t.pass? id = some { p with members := mset p.members v.unit m })))
    ∧ (∀ (op : Nat) (v : Queue) (c : Cmd), s.startable q op = some (v, c) → s.cmd? q c.index = some c →
      (∀ id, v.pass = some id → s.pass? id = none) →
      (op = 0x11 → ∃ t, exec (.draw queue) s = .next t ∧ CmdEnds s t q c 0x0602)
      ∧ (op = 0x12 → ∃ t, exec (.passEnd queue) s = .next t ∧ CmdEnds s t q c 0x0602))
    ∧ (∀ (v : Queue) (c : Cmd) (id : Nat) (p : Pass), s.cmd? q c.index = some c → v.pass = some id → s.pass? id = some p →
      let key := fun (d : DrawRec) => (d.engine, d.queue, d.cmd, d.payload, d.state)
      let block := s.readVa v.unit v.asid (getLe c.payload 0x28 8) 96 false none
      (s.startable q 0x11 = some (v, c) →
        (s.passRuns p = false → exec (.draw queue) s = .next s)
        ∧ (∀ b s1, s.passRuns p = true → block = (.ok (b, false), s1) → ∃ t p', exec (.draw queue) s = .next t
            ∧ t.cmd? q c.index = some { c with st := .started } ∧ t.pass? id = some p'
            ∧ p'.draws.map key = p.draws.map key ++ [(v.unit, q, c.index, c.payload, b)] ∧ p'.members = p.members)
        ∧ (∀ b s1, s.passRuns p = true → block = (.ok (b, true), s1) → ∃ t, exec (.draw queue) s = .next t
            ∧ t.pass? id = none ∧ t.cmd? q c.index = some { c with st := .ended 0x0108, detail := 0 })
        ∧ (∀ f s1, s.passRuns p = true → block = (.error f, s1) → ∃ t n, exec (.draw queue) s = .next t
            ∧ t.pass? id = some { p with stall := some (n, q, c.index) } ∧ t.cmd? q c.index = some c))
      ∧ (s.startable q 0x12 = some (v, c) → ∃ t p', exec (.passEnd queue) s = .next t
          ∧ t.cmd? q c.index = some { c with st := .started } ∧ t.pass? id = some p'
          ∧ p'.draws.map key = p.draws.map key
          ∧ p'.members = mmod p.members v.unit (fun m => { m with ended := some c.index }))))
  ∧ (∀ (n : Nat) (s : State), s.pass? n = none → exec (.geometryPhaseStart n) s = .next s
      ∧ exec (.tilesPhaseStart n) s = .next s ∧ exec (.passRetirement n) s = .next s ∧ exec (.growWaitExpiry n) s = .next s)
  ∧ (∀ (n : Nat) (s : State) (p : Pass), s.pass? n = some p →
    (∀ x, (s.convoy? p.convoy).bind (fun c => s.part? c.partition) = some x →
      let i := Instr.geometryPhaseStart n
      let quads := s.frontsFor x p.engines
      let starts := p.phase = .opening ∧ s.passRuns p = true
        ∧ (∀ e ∈ passEngines p.payload, s.fenced 0 e = true ∨ mhas p.members e = true)
        ∧ ∀ o ∈ s.passes, o.1 ≠ n → o.2.phase ≠ .opening → ∀ f ∈ o.2.fronts, f.quad ∉ quads
      let need := passGranules p.payload (mainTile p.payload)
      (¬ starts → exec i s = .next s)
      ∧ (starts → s.tileNow p = none → ∃ t, exec i s = .next t ∧ { t with engines := s.engines } = s
          ∧ ∀ e ∈ p.engines, (s.eng e).tb < need → (s.eng e).waitTns = none → (t.eng e).waitGfx = some need)
      ∧ (∀ tile s1, starts → s.tileNow p = some tile →
          s.writeVa p.agent p.asid p.heapVa (zeros (controlBytes p.payload tile quads.length)) false = (.ok (), s1) →
          ∃ t p', exec i s = .next t ∧ t.pass? n = some p' ∧ p'.phase = .geometry ∧ p'.tile = tile
            ∧ p'.members = mmap p.members (fun _ m => { m with granted := true }) ∧ p'.fronts.map (fun f => f.quad) = quads
            ∧ p'.mapped = getLe p.payload 0x18 4 * 2 ^ 20
            ∧ ∀ e ∈ p.engines, mget (t.eng e).gfxHolds n = some (passGranules p.payload tile)))
    ∧ (let i := Instr.tilesPhaseStart n
       let done := p.phase = .geometry ∧ s.passRuns p = true ∧ (∀ m ∈ p.members, m.2.ended ≠ none)
         ∧ (∀ d ∈ p.draws, d.prims ≤ d.assembled) ∧ p.growth = none
       (¬ done → exec i s = .next s)
       ∧ (done → exec i s = .next { s with passes := mset s.passes n { p with phase := .tiles } }))
    ∧ (let i := Instr.passRetirement n
       let runs := p.phase = .tiles ∧ s.passRuns p = true
       let render := s.renderTiles p false ((p.engines.map p.tilesOf).flatten)
       (¬ runs → exec i s = .next s)
       ∧ (∀ s1, runs → render = (.error .wait, s1) → exec i s = .next s)
       ∧ (∀ acc f s1, runs → render = (.error (.fault acc f), s1) → ∃ t p', exec i s = .next t ∧ t.pass? n = some p'
            ∧ p'.phase = .tiles ∧ p'.stall ≠ none ∧ t.mem = s.mem)
       ∧ (∀ s1, runs → render = (.ok (), s1) → ∃ t, exec i s = .next t ∧ t.pass? n = none ∧ t.mem = s1.mem
            ∧ ∀ e m v c, (e, m) ∈ p.members → s.queue? m.queue = some v → c ∈ passCmds v m → s.cmd? m.queue c.index = some c →
                (∀ x, c.st ≠ .ended x) → t.cmd? m.queue c.index = some { c with st := .ended 0, detail := 0 }))
    ∧ (let i := Instr.growWaitExpiry n
       ((p.growth = none ∨ s.working = false ∨ getLe p.payload 0x0C 4 = 0) → exec i s = .next s)
       ∧ (∀ g, p.growth = some g → s.working = true → getLe p.payload 0x0C 4 ≠ 0 → p.phase = .geometry →
          ∃ t p', exec i s = .next t ∧ Recorded s t 0x0D g (getLe p.payload 0 2) 0 ∧ t.pass? n = some p'
            ∧ (p'.phase = .increment ∨ p.increments < p'.increments))))

/-- R199, R332 to R335, R345, R347, R349, R351, R353, R355, R361. Which engine missed the bound of a pre-emption is a free
value (log entry 2). -/
def Obligations.SchedulerSwitchesAndWatchdogActs : Prop :=
  (∀ (p : Fin 8) (s : State), s.part? p.val = none → ∀ i ∈ [Instr.sliceEnd p, .convoyUnreadyReschedule p, .boundarySwitch p,
      .gracePeriodExpiry p, .preemptionSaveComplete p, .convoyRestore p, .chargePointTick p, .preemptionStopTimeout p],
    exec i s = .next s)
  ∧ (∀ (p : Fin 8) (s : State) (x : Partition), s.part? p.val = some x →
    let es := s.enginesIn p.val
    let chooses := fun (i : Instr) (next : Option Nat) => ∃ t y, exec i s = .next t ∧ t.part? p.val = some y
      ∧ t.mem = s.mem ∧ t.queues = s.queues ∧ y.resident = x.resident ∧ y.slots = x.slots
      ∧ (next = none → y.sliceOn = (x.sliceOn && decide (i ≠ .sliceEnd p)) ∧ y.switching = x.switching)
      ∧ (next ≠ none → next = x.resident → x.switching = none → y.sliceOn = true ∧ y.switching = none)
      ∧ (next ≠ none → next ≠ x.resident → y.sliceOn = false ∧ y.switching = next
          ∧ ∀ e ∈ es, (t.eng e).stopped = true ∧ (t.eng e).arrive = none)
    let forces := fun (i : Instr) (victim next : Nat) =>
      ((x.forcing ≠ none ∨ 4 ≤ x.slots.length) → exec i s = .next s)
      ∧ (x.forcing = none → x.slots.length < 4 → ∃ t, exec i s = .next t ∧ t.mem = s.mem ∧ t.queues = s.queues
          ∧ (let f : Forcing := { victim := victim, next := some next, restore := false, since := s.count domC }
             t.part? p.val = some { x with switching := none, sliceOn := false, forcing := some f })
          ∧ (t.schRegs p.val).forced = (s.schRegs p.val).forced + 1
          ∧ ∀ e ∈ es, (t.eng e).stopped = true ∧ (t.eng e).arrive = none)
    (let ends := s.working = true ∧ x.resident ≠ none ∧ x.sliceOn = true ∧ x.forcing = none
     (¬ ends → exec (.sliceEnd p) s = .next s) ∧ (ends → chooses (.sliceEnd p) ((s.chargePoint p.val).choose p.val)))
    ∧ (let idle := s.working = true ∧ x.switching = none ∧ x.forcing = none ∧ (x.sliceOn = false ∨ ∀ c, x.resident = some c →
         s.ready c = false ∧ ∀ e ∈ es, (s.eng e).loaded = false)
       (¬ idle → exec (.convoyUnreadyReschedule p) s = .next s)
       ∧ (idle → chooses (.convoyUnreadyReschedule p) (s.choose p.val)))
    ∧ (∀ c, x.switching = some c →
      let clear := s.working = true ∧ x.forcing = none ∧ ∀ r, x.resident = some r → ∀ e ∈ es, s.atBoundary r e = true
      let slot := x.slots.any (fun y => y.convoy = c)
      (¬ clear → exec (.boundarySwitch p) s = .next s)
      ∧ (clear → ∃ t y, exec (.boundarySwitch p) s = .next t ∧ t.part? p.val = some y ∧ y.resident = some c ∧ y.sliceOn = true
          ∧ y.switching = none ∧ (t.schRegs p.val).switches = (s.schRegs p.val).switches + 1 ∧ t.mem = s.mem
          ∧ (slot = true → ∃ f, y.forcing = some f ∧ f.victim = c ∧ f.restore = true)
          ∧ (slot = false → y.forcing = none ∧ ∀ e ∈ es, (t.eng e).stopped = false)))
    ∧ (x.switching = none → exec (.boundarySwitch p) s = .next s ∧ exec (.gracePeriodExpiry p) s = .next s)
    ∧ (∀ c r, x.switching = some c → x.resident = some r →
      let waits := s.working = false ∨ c = r ∨ (s.isTimed r = true ∧ s.isTimed c = true
        ∧ ∃ v, s.convoy? c = some v ∧ v.released ≠ none)
      (waits → exec (.gracePeriodExpiry p) s = .next s) ∧ (¬ waits → forces (.gracePeriodExpiry p) r c))
    ∧ (∀ n r c v, mget s.mmu.faults n = some r → r.convoy = some c → s.convoy? c = some v → v.partition = p.val →
      (s.chooseBut p.val (some c) = none → exec (.parkLimitExpiry n) s = .next s)
      ∧ (∀ k, s.chooseBut p.val (some c) = some k →
        ((s.working = false ∨ x.resident ≠ some c) → exec (.parkLimitExpiry n) s = .next s)
        ∧ (s.working = true → x.resident = some c → forces (.parkLimitExpiry n) c k)))
    ∧ (∀ f, x.forcing = some f →
      let i := Instr.preemptionSaveComplete p
      let saves := s.working = true ∧ f.restore = false ∧ ∀ e ∈ es, ∀ q ∈ (s.eng e).strs, s.strOwed e q.1 = false
      (¬ saves → exec i s = .next s)
      ∧ (saves → ∃ t y slot, exec i s = .next t ∧ t.part? p.val = some y ∧ y.slots = x.slots ++ [slot]
          ∧ slot.convoy = f.victim ∧ y.resident = f.next ∧ t.mem = s.mem
          ∧ ∀ e ∈ es, (t.eng e).strs = [] ∧ (t.eng e).disps = [] ∧ ∃ w, mget slot.engines e = some w
            ∧ ∀ n, (mget w.strs n).map (fun st => (st.vregs, st.preds, st.uregs, st.state))
                = (s.str? e n).map (fun st => (st.vregs, st.preds, st.uregs, st.state)))
      ∧ (∀ slot, x.slots.find? (fun y => y.convoy = f.victim) = some slot →
        ((s.working = false ∨ f.restore = false) → exec (.convoyRestore p) s = .next s)
        ∧ (s.working = true → f.restore = true → ∃ t, exec (.convoyRestore p) s = .next t ∧ t.mem = s.mem
          ∧ t.part? p.val = some { x with slots := x.slots.filter (fun y => y.convoy ≠ f.victim), forcing := none }
          ∧ ∀ e ∈ es, (t.eng e).stopped = false ∧ ∀ w, mget slot.engines e = some w →
              (t.eng e).strs = w.strs ∧ (t.eng e).disps = w.disps ∧ (t.eng e).tile = w.tile))
      ∧ ((s.working = false ∨ f.restore = true ∨ es = []) → exec (.preemptionStopTimeout p) s = .next s)
      ∧ (s.working = true → f.restore = false → es ≠ [] → ∃ t e, exec (.preemptionStopTimeout p) s = .next t ∧ e ∈ es
          ∧ Reported s t 0x1006 0 e 0 0 ∧ (bit (s.policy 0x1006).action 0 = true → t.fenced 0 e = true)))
    ∧ (x.forcing = none → exec (.preemptionSaveComplete p) s = .next s ∧ exec (.convoyRestore p) s = .next s
        ∧ exec (.preemptionStopTimeout p) s = .next s)
    ∧ ((s.working = false ∨ x.resident = none) → exec (.chargePointTick p) s = .next s)
    ∧ (∀ r v ctx, s.working = true → x.resident = some r → s.convoy? r = some v → (∀ e ∈ x.engines, s.partOf e = some p.val) →
      let mine := x.engines.filter (fun e => (s.eng e).charge.map (fun c => c.1) = some ctx)
      ∃ t, exec (.chargePointTick p) s = .next t ∧ t.mem = s.mem ∧ t.queues = s.queues
        ∧ (∀ e ∈ x.engines, (t.eng e).loadedC = 0 ∧ (t.eng e).loadedF = 0 ∧ (t.eng e).strs = (s.eng e).strs)
        ∧ (t.account ctx).engineTime % 2 ^ 56
            = ((s.account ctx).engineTime + (mine.map (fun e => (s.eng e).loadedC)).sum) % 2 ^ 56
        ∧ (t.account ctx).vtime % 2 ^ 56
            = ((s.account ctx).vtime + (mine.map (fun e => (s.eng e).loadedF * (65536 / v.share))).sum) % 2 ^ 56))
  ∧ (∀ s : State, (s.live = false → exec .progressCounterSample s = .next s)
    ∧ (s.live = true → ∃ t, exec .progressCounterSample s = .next t ∧ { t with flt := s.flt } = s ∧ t.flt.records = s.flt.records
        ∧ ∀ u ∈ watchUnits,
          let w := s.watch u
          let n := mgetD s.flt.progress u 0
          let restarts := n ≠ w.last ∨ (s.unitLoaded u = true ∧ w.loaded = false) ∨ (w.exempt = true ∧ s.unitExempt u = false)
          (t.watch u).last = n ∧ (t.watch u).loaded = s.unitLoaded u ∧ (t.watch u).exempt = s.unitExempt u
          ∧ (restarts → (t.watch u).timer = 0 ∧ (t.watch u).later = 0)
          ∧ (¬ restarts → (t.watch u).timer =
              if s.unitLoaded u = true ∧ s.unitExempt u = false then w.timer + 1024 else w.timer)))
  ∧ (∀ (u : Nat) (s : State),
    let i := Instr.watchTimerExpiry u
    let w := s.watch u
    let path := s.stalledPath u
    let slow := (path.1 = true ∧ (s.host.retry = true ∨ s.host.recovery = true))
      ∨ ∃ k ∈ path.2, (s.caravan.port k).link = 3 ∨ (s.caravan.port k).link = 4
    let downs := ∃ k ∈ path.2, ∃ a ∈ (s.caravan.port k).downs, w.since ≤ a
    let expired := s.live = true ∧ u ∈ watchUnits ∧ w.loaded = true ∧ w.exempt = false ∧ s.unitLoaded u = true
      ∧ s.unitExempt u = false ∧ 2 ^ s.setting 0x30 + w.later ≤ w.timer
    let plain := FencesApplied s ∧ bit (s.policy 0x1003).action 0 = false
    let hangs := fun (t : State) (q n : Nat) => (∃ c', t.cmd? q n = some c' ∧ c'.st = .ended 0x0405 ∧ c'.stops = true)
      ∧ ∃ v, t.queue? q = some v ∧ v.stopped = true
    (¬ expired → exec i s = .next s)
    ∧ (expired → slow → ∃ n, exec i s = .next (s.setWatch u { w with later := w.later + n }))
    ∧ (expired → ¬ slow → downs → exec i s = .next (s.setWatch u { w with timer := 0, later := 0, since := s.aclk }))
    ∧ (expired → ¬ slow → ¬ downs → ∃ t, exec i s = .next t
      ∧ Reported s t 0x1003 (if u < 32 then 0 else if u < 36 then 7 else if u < 38 then 6 else 1)
          (if u < 32 then u else if u < 36 then u - 32 else if u < 38 then u - 36 else u - 40) 0 (mgetD s.flt.progress u 0)
      ∧ (u < 32 → (t.eng u).strs = [] ∧ ∀ d ∈ (s.eng u).disps, ∀ c, plain → (s.eng u).inGang = false → s.cmd? d.queue d.cmd = some c →
          (∀ e, c.st ≠ .ended e) → hangs t d.queue d.cmd)
      ∧ (32 ≤ u → u < 38 → plain → ∀ j v c, mget s.jobs (u - 32) = some j → s.queue? j.queue = some v → v.jobUnit = u - 32 →
          s.cmd? j.queue j.cmd = some c → (∀ e, c.st ≠ .ended e) → mget t.jobs (u - 32) = none ∧ hangs t j.queue j.cmd)))

/-! ### Memory, links, boot and the master (chapters 05, 07, 15 to 18) -/

/-- R161, R163, R172, R229, R231, R233 to R238. Whether a report of a corrected error counts once more or is a new record
needs records in the order of their numbers; lines have an age of 0 to 3 (R161). A step that cannot happen is left (log
entry 12). -/
def Obligations.MemorySystemKeepsItself : Prop :=
  (∀ (addr n : Nat) (op : AtomOp) (wide : Bool) (operand compare : Dword) (s : State),
    let i := Instr.l2Atomic addr op wide operand compare
    (atomWidth op (b2n wide) = none → exec i s = .next s)
    ∧ (atomWidth op (b2n wide) = some n →
      ((s.working = false ∨ addr % n ≠ 0) → exec i s = .next s)
      ∧ (s.working = true → addr % n = 0 → addr + n ≤ s.mem.capacity → s.mem.poisoned addr n = true →
        ∃ t, exec i s = .next t ∧ t.mem.cells = s.mem.cells)
      ∧ (s.working = true → addr % n = 0 → addr + n ≤ s.mem.capacity → s.mem.poisoned addr n = false →
        Memory.wf s.mem.cells = true → ∃ t v rets, exec i s = .next t ∧ t.engines = s.engines
          ∧ AtomOutcome op (BitVec.ofNat 26 (2 ^ 16 + b2n wide * 2 ^ 24)) (memLe s.mem.cells addr n)
              [(0, operand.toNat % 2 ^ (8 * n), compare.toNat % 2 ^ (8 * n))] v rets
          ∧ memLe t.mem.cells addr n = v % 2 ^ (8 * n)
          ∧ ∀ b, (b < addr ∨ addr + n ≤ b) → memGet t.mem.cells b = memGet s.mem.cells b)))
  ∧ (∀ (line : Nat) (s : State),
    let pa := 128 * line
    let present := fun (m : Mem) => (m.findWay (m.remap (sliceOf pa)) (setOf pa) line none).isSome = true
    let fills := s.working = true ∧ s.mem.whereIs pa = .dram ∧ ¬ present s.mem ∧ s.mem.ways (s.mem.remap (sliceOf pa)) ≠ []
    (¬ fills → exec (.l2Fill line) s = .next s)
    ∧ (fills → (∀ l ∈ s.mem.lines, l.2.age ≤ 3) → ∃ t, exec (.l2Fill line) s = .next t ∧ present t.mem
        ∧ t.mem.cells = s.mem.cells))
  ∧ (∀ (sector : Nat) (s : State),
    let waits := s.working = true ∧ ∃ p ∈ s.mem.partials, p.sector = sector
    (¬ waits → exec (.dramReadModifyWrite sector) s = .next s)
    ∧ (waits → ∃ t, exec (.dramReadModifyWrite sector) s = .next t ∧ t.mem.cells = s.mem.cells
        ∧ t.mem.partials = s.mem.partials.filter (fun p => p.sector ≠ sector)))
  ∧ (∀ (slice way : Fin 16) (s : State),
    let i := Instr.wayCeLimitReached slice way
    let v := s.mem.slice slice.val
    let reached := s.working = true ∧ s.setting 0x41 ≠ 0 ∧ s.setting 0x41 ≤ mgetD v.wayCe way.val 0
      ∧ bit v.off.toNat way.val = false
    let strong := 16 - s.mem.srWays ≤ way.val
    (¬ reached → exec i s = .next s) ∧ (strong → way.val ∈ v.weak → exec i s = .next s)
    ∧ (reached → Map.sorted s.flt.records = true →
      (strong → way.val ∉ v.weak → ∃ t, exec i s = .next t ∧ Reported s t 0x0302 2 (16 * slice.val + way.val) 0 0
        ∧ way.val ∈ (t.mem.slice slice.val).weak ∧ t.mem.cells = s.mem.cells)
      ∧ (¬ strong → FencesApplied s → ∃ t, exec i s = .next t ∧ Reported s t 0x0204 2 (16 * slice.val + way.val) 0 0
        ∧ bit (t.mem.slice slice.val).off.toNat way.val = true ∧ t.mem.cells = s.mem.cells
        ∧ ∀ set, set < 2048 → mget t.mem.lines (lineKey slice.val set way.val) = none)))
  ∧ (∀ (k : Nat) (s : State),
    let covered := (List.range s.mem.nch).filter (fun c => c / s.mem.perCtl = k && !(s.mem.chan c).excluded
      && !(s.mem.chan c).migrating && !(s.mem.chan c).training)
    let left := covered.filter (fun c => (s.mem.chan c).scrubPos < s.mem.allGranules)
    let i := k - 16
    let enabled := fun (p : Nat) => (s.mem.slice i).scrubPos ≤ p ∧ p < 32768 ∧ bit (s.mem.slice i).off.toNat (p % 16) = false
    let dur := fun (d : Nat) => (s.count d + 2 ^ 56 - mgetD s.mem.lapStart k 0) % 2 ^ 56
    ((s.working = false ∨ (4 ≤ k ∧ k < 16) ∨ 32 ≤ k) → exec (.scrubRead k) s = .next s ∧ exec (.scrubLapEnd k) s = .next s)
    ∧ (s.working = true → k < 4 →
      (left = [] → exec (.scrubRead k) s = .next s) ∧ (left ≠ [] → exec (.scrubLapEnd k) s = .next s)
      ∧ (left ≠ [] → ∃ t c, exec (.scrubRead k) s = .next t ∧ c ∈ left
          ∧ (∀ d ∈ left, (s.mem.chan c).scrubPos ≤ (s.mem.chan d).scrubPos)
          ∧ (let chans := mset s.mem.channels c { s.mem.chan c with scrubPos := (s.mem.chan c).scrubPos + 1 }
             t = { s with mem := { s.mem with channels := chans } }))
      ∧ (left = [] → ∃ t, exec (.scrubLapEnd k) s = .next t ∧ mget t.mem.laps k = some (dur (0x10 + k))
          ∧ mget t.mem.lapStart k = some (s.count (0x10 + k)) ∧ k ∉ t.mem.lapWarned ∧ t.mem.cells = s.mem.cells
          ∧ (∀ c, c < s.mem.nch → c / s.mem.perCtl = k → (t.mem.chan c).scrubPos = 0 ∧ (t.mem.chan c).lapCe = 0)
          ∧ ∀ c, c < s.mem.nch → c / s.mem.perCtl ≠ k → t.mem.chan c = s.mem.chan c))
    ∧ (s.working = true → 16 ≤ k → k < 32 →
      ((∀ p, ¬ enabled p) → exec (.scrubRead k) s = .next s ∧ ∃ t, exec (.scrubLapEnd k) s = .next t
          ∧ t.mem.slice i = { s.mem.slice i with scrubPos := 0, lap := dur 0x03, wayCe := [] } ∧ t.mem.cells = s.mem.cells)
      ∧ (∀ p, enabled p → (∀ q, enabled q → p ≤ q) → exec (.scrubLapEnd k) s = .next s
          ∧ ∃ t, exec (.scrubRead k) s = .next t ∧ t.mem.slice i = { s.mem.slice i with scrubPos := p + 1 }
            ∧ (∀ j, j ≠ i → t.mem.slice j = s.mem.slice j) ∧ t.mem.cells = s.mem.cells))
    ∧ (let warns := s.working = true ∧ k < 4 ∧ k ∉ s.mem.lapWarned
       (¬ warns → exec (.lapWarnExpiry k) s = .next s)
       ∧ (warns → ∃ t, exec (.lapWarnExpiry k) s = .next t ∧ Recorded s t 0x0A (1 + k * s.mem.perCtl * 256) (dur (0x10 + k)) 0
          ∧ t.mem = { s.mem with lapWarned := s.mem.lapWarned ++ [k] })))
  ∧ (∀ (n m : Nat) (up : Bool) (s : State),
    (s.working = false → exec (.phySamplerStep n up) s = .next s ∧ exec (.dqsOscillatorRead n m) s = .next s
      ∧ exec (.impedanceCalibration m) s = .next s)
    ∧ (s.working = true →
      (∃ t, exec (.phySamplerStep n up) s = .next t ∧ mget t.mem.taps n = some (mgetD s.mem.taps n 0 + if up then 1 else -1)
        ∧ { t with mem := { t.mem with taps := s.mem.taps } } = s)
      ∧ exec (.dqsOscillatorRead n m) s = .next { s with mem := { s.mem with dqs := mset s.mem.dqs n m } }
      ∧ exec (.impedanceCalibration m) s = .next { s with mem := { s.mem with impedance := mset s.mem.impedance 0 m } }))
  ∧ (∀ (ch : Fin 24) (ok : Bool) (s : State),
    let c := ch.val
    let v := s.mem.chan c
    let free := ∀ d, d < s.mem.nch → d ≠ c → (s.mem.chan d).excluded = false ∧ (s.mem.chan d).migrating = false
    let loses := fun (t : State) (readable : Bool) =>
      ((s.mem.spill ≠ 0 ∧ free ∧ (readable = true ∨ v.excluded = true)) → Reported s t 0x0105 8 c 0 0
        ∧ t.mem.chan c = { v with failed := true, training := false, back := false, migrating := !v.excluded, pointer := 0 })
      ∧ (¬ (s.mem.spill ≠ 0 ∧ free ∧ (readable = true ∨ v.excluded = true)) → IsFatal t ∧ Reported s t 0x0104 8 c 0 0)
      ∧ t.mem.cells = s.mem.cells
    ((s.live = false ∨ s.mem.nch ≤ c ∨ v.failed = true) → exec (.channelLost ch ok) s = .next s)
    ∧ (s.live = true → c < s.mem.nch → v.failed = false → ∃ t, exec (.channelLost ch ok) s = .next t ∧ loses t ok)
    ∧ (let waits := v.retrainWanted = true ∧ s.mem.spill ≠ 0 ∧ free ∧ v.excluded = false ∧ v.migrating = false
       ((s.working = false ∨ (v.training = false ∧ ¬ waits)) → exec (.channelRetrain ch ok) s = .next s)
       ∧ (s.working = true → v.training = false → waits → ∃ t, exec (.channelRetrain ch ok) s = .next t
          ∧ t.mem.chan c = { v with migrating := true, back := false, pointer := 0, retrainWanted := false }
          ∧ t.mem.cells = s.mem.cells)
       ∧ (s.working = true → v.training = true → ∃ t, exec (.channelRetrain ch ok) s = .next t
          ∧ Recorded s t 0x09 (3 + c * 256 + if ok then 0 else 2 * 65536) (rateMts v.rate) (if s.mem.mode = 0 then 24 else 16)
          ∧ (ok = true → t.mem.chan c = { v with training := false, migrating := true, back := true, pointer := 0 }
              ∧ t.mem.cells = s.mem.cells)
          ∧ (ok = false → loses t true)))
    ∧ (let moves := s.working = true ∧ v.migrating = true
       (¬ moves → exec (.migrationGranuleCopy ch) s = .next s)
       ∧ (moves → ∃ t, exec (.migrationGranuleCopy ch) s = .next t ∧ (∀ d, d ≠ c → t.mem.chan d = s.mem.chan d)
          ∧ { t with mem := s.mem } = s ∧ t.mem.cells = s.mem.cells
          ∧ t.mem.chan c = if v.pointer + 1 < s.mem.granules then { v with pointer := v.pointer + 1 }
            else if v.back then { v with migrating := false, back := false, excluded := false, pointer := 0 }
            else { v with migrating := false, excluded := true, pointer := 0, training := !v.failed })))

/-- R226, R322, R459, R462, R464 to R466, R468, R470, R472, R473, R476. The layout of MGMT is the model's (log entry 50),
the FEC is opaque (log entry 51); a port that takes nothing now is left (log entry 12). -/
def Obligations.PortsCarryFlitsAndMessages : Prop :=
  (∀ (port : Fin 4) (m : CvlMsg) (nak : Bool) (seq : Nat) (s : State),
    s.portOpen port.val = false → s.power.st = .run →
    (∀ i ∈ [Instr.rdReq port m, .wr port m, .wrPartial port m, .atomic port m, .event port m, .mgmt port m, .rdRsp port m,
        .wrAck port m, .atomicRsp port m, .eventAck port m, .link port nak seq, .linkAckTimeout port], exec i s = .next s)
    ∧ ∀ b : List Byte, b.length = 256 → exec (.flitReceive port b) s = .next s)
  ∧ (∀ (port : Fin 4) (m : CvlMsg) (s : State), s.up = true → s.power.st = .halt →
    ∃ t, exec (.rdReq port m) s = .next t ∧ t.power.st = .waking ∧ t.power.wakeSrc = 3 + port.val ∧ t.mem = s.mem)
  ∧ (∀ (port : Fin 4) (m : CvlMsg) (s : State), s.portOpen port.val = true → s.power.st = .run →
    let p := port.val
    let n := m.data.length
    let answers := fun (t : State) (type aux size : Nat) (data : List Byte) (back : Nat × Nat × Bool) (addr : Nat) =>
      OutMsg.caravan back.1 type s.caravan.die m.src m.tag addr aux size back.2.1 data false ∈ t.host.out
    let member := s.dieState m.src = 1
    let requests := [Instr.rdReq port m, .wr port m, .wrPartial port m, .atomic port m]
    let all := [(Instr.rdReq port m, 1), (.wr port m, 2), (.wrPartial port m, 3), (.atomic port m, 4), (.event port m, 5),
      (.mgmt port m, 6), (.rdRsp port m, 8), (.wrAck port m, 9), (.atomicRsp port m, 0xA), (.eventAck port m, 0xB)]
    (m.dst ≠ s.caravan.die → ∀ i ty, (i, ty) ∈ all →
      ((m.hops = 0 ∨ s.forwardPort p m.dst m.addr (ty ≠ 5 && ty ≠ 6 && ty ≠ 0xB) = none) →
        ∃ t, exec i s = .next t ∧ Reported s t 0x0505 4 p m.addr 0)
      ∧ (∀ q, 0 < m.hops → s.forwardPort p m.dst m.addr (ty ≠ 5 && ty ≠ 6 && ty ≠ 0xB) = some q →
        ∃ t, exec i s = .next t ∧ t.mem = s.mem
          ∧ OutMsg.caravan q ty m.src m.dst m.tag m.addr m.aux m.size (m.hops - 1) m.data m.poison ∈ t.host.out))
    ∧ (m.dst = s.caravan.die → m.poison = false →
      (¬ member → ∀ i ∈ requests, ∃ t, exec i s = .next t ∧ t.mem = s.mem ∧ t.host = s.host
        ∧ (t.caravan.port p).discards = satInc (s.caravan.port p).discards)
      ∧ (∀ back, member → s.route m.src m.addr true = some back → m.size ≤ 2 → m.addr % (32 * 2 ^ m.size) = 0 →
        m.addr + 32 * 2 ^ m.size ≤ s.mem.capacity → s.mem.poisoned m.addr (32 * 2 ^ m.size) = false →
        ∃ t, exec (.rdReq port m) s = .next t ∧ t.mem.cells = s.mem.cells
          ∧ answers t 8 0 m.size (memRead s.mem.cells m.addr (32 * 2 ^ m.size)) back m.addr)
      ∧ (∀ back, member → s.route m.src m.addr true = some back → m.addr % 32 = 0 → m.addr + n ≤ s.mem.capacity →
        Memory.wf s.mem.cells = true →
        (n = 32 ∨ n = 64 ∨ n = 128 → ∃ t, exec (.wr port m) s = .next t ∧ answers t 9 0 0 [] back m.addr
          ∧ ∀ a, memGet t.mem.cells a =
              if m.addr ≤ a ∧ a < m.addr + n then m.data.getD (a - m.addr) 0 else memGet s.mem.cells a)
        ∧ (n = 32 → ∃ t, exec (.wrPartial port m) s = .next t ∧ answers t 9 0 0 [] back m.addr
          ∧ ∀ a, memGet t.mem.cells a =
              if m.addr ≤ a ∧ a < m.addr + 32 ∧ bit m.aux (a - m.addr) = true then m.data.getD (a - m.addr) 0
              else memGet s.mem.cells a))
      ∧ (∀ back op k, member → s.route m.src m.addr true = some back → atomOfCode (bits m.aux 4 0) = some op →
        atomWidth op (bits m.aux 6 5) = some k → n = 16 → m.addr % k = 0 → m.addr + k ≤ s.mem.capacity →
        s.mem.poisoned m.addr k = false → Memory.wf s.mem.cells = true →
        ∃ t v rets, exec (.atomic port m) s = .next t
          ∧ answers t 0xA 0 0 (leBytes 16 (memLe s.mem.cells m.addr k)) back m.addr
          ∧ AtomOutcome op (BitVec.ofNat 26 (2 ^ 16 + bits m.aux 6 5 * 2 ^ 24)) (memLe s.mem.cells m.addr k)
              [(0, getLe m.data 0 8 % 2 ^ (8 * k), getLe m.data 8 8 % 2 ^ (8 * k))] v rets
          ∧ memLe t.mem.cells m.addr k = v % 2 ^ (8 * k)
          ∧ ∀ a, (a < m.addr ∨ m.addr + k ≤ a) → memGet t.mem.cells a = memGet s.mem.cells a)
      ∧ (∀ back e, s.route m.src 0 false = some back → n = 16 → mget s.events (m.addr % 131072) = some e →
        ∃ t, exec (.event port m) s = .next t ∧ answers t 0xB 0 0 [] back m.addr ∧ t.mem = s.mem
          ∧ mget t.events (m.addr % 131072) = some { e with
              count := if e.count.toNat < getLe m.data 0 8 then BitVec.ofNat 64 (getLe m.data 0 8) else e.count })
      ∧ (let kind := getLe m.data 0 1
         let arg := getLe m.data 1 1
         (s.fw.restarting = true ∨ 4 < kind ∨ kind = 0 → ∃ t, exec (.mgmt port m) s = .next t ∧ t.caravan = s.caravan
            ∧ t.mem = s.mem ∧ t.host = s.host)
         ∧ (s.fw.restarting = false → kind = 3 → member → ∃ t, exec (.mgmt port m) s = .next t ∧ t.mem = s.mem
            ∧ t.caravan.routes = ((List.range 8).map (fun d => (d, routeOf (slice (slice (m.data.drop 16) 0 64) (8 * d) 8)))).filter
                (fun r => r.2.ports ≠ 0 || r.2.alt ≠ 0))
         ∧ (s.fw.restarting = false → kind = 4 → arg < 8 → arg ≠ s.caravan.die → ∃ t, exec (.mgmt port m) s = .next t
            ∧ t.dieState arg = getLe (m.data.drop 16) 0 1 % 4 ∧ ∀ d, d ≠ arg → t.dieState d = s.dieState d))
      ∧ (∀ i ty, (i, ty) ∈ [(Instr.rdRsp port m, [1]), (.wrAck port m, [2, 3]), (.atomicRsp port m, [4]), (.eventAck port m, [5])] →
        s.matching m ty = none → ∃ t, exec i s = .next t ∧ t.caravan = s.caravan ∧ t.mem = s.mem ∧ t.host = s.host)
      ∧ (∀ r e place dst lane w sgn st, s.matching m [1] = some r → n = (if r.fill then 128 else 32) → r.signal = none →
        r.dest = .load e place dst lane w sgn → s.str? e place = some st →
        let x := leNat (slice (m.data.drop r.off) 0 w)
        (m.aux % 16 = 0 → bit m.aux (r.off / 32) = false → ∃ t, exec (.rdRsp port m) s = .next t
          ∧ mget t.caravan.reqs m.tag = none
          ∧ t.str? e place = some (st.setVn dst lane ((w + 3) / 4) (if sgn && w < 4 then wrapInt 32 (sext (8 * w) x) else x)))
        ∧ (bit m.aux (r.off / 32) = true → ∀ c, s.cmd? st.queue st.cmd = some c → (∀ y, c.st ≠ .ended y) →
          ∃ t, exec (.rdRsp port m) s = .next t ∧ mget t.caravan.reqs m.tag = none
            ∧ t.cmd? st.queue st.cmd = some { c with st := .ended 0x0108, detail := 0 }))
      ∧ (∀ r, s.matching m [2, 3] = some r → r.signal = none → ∃ t, exec (.wrAck port m) s = .next t
        ∧ mget t.caravan.reqs m.tag = none ∧ ∀ k, k ≠ m.tag → mget t.caravan.reqs k = mget s.caravan.reqs k)
      ∧ (∀ r e place dst lane w ret st, s.matching m [4] = some r → n = 16 → r.signal = none →
        r.dest = .atomic e place dst lane w ret → s.str? e place = some st → ∃ t st', exec (.atomicRsp port m) s = .next t
          ∧ mget t.caravan.reqs m.tag = none ∧ t.str? e place = some st'
          ∧ st'.vregs = if ret then (st.setVn dst lane ((w + 3) / 4) (leNat (slice (m.data.drop 0) 0 w))).vregs else st.vregs)
      ∧ (∀ r q cmd v c, s.matching m [5] = some r → r.signal = some (q, cmd) → s.queue? q = some v → s.cmd? q cmd = some c →
        c.signalled = true → ∃ t w, exec (.eventAck port m) s = .next t ∧ mget t.caravan.reqs m.tag = none
          ∧ t.queue? q = some w ∧ ∀ d ∈ w.cmds, d.index ≠ cmd)))
  ∧ (∀ (tag : Nat) (s : State),
    let i := Instr.cvlRequestTimeout tag
    (mget s.caravan.reqs tag = none → exec i s = .next s)
    ∧ (∀ r, mget s.caravan.reqs tag = some r →
      let slow := ∃ p ∈ s.routePorts r.dst, (s.caravan.port p).link = 3 ∨ (s.caravan.port p).link = 4
      ((s.live = false ∨ s.halted = true ∨ slow) → exec i s = .next s)
      ∧ (s.live = true → s.halted = false → ¬ slow → ∃ t, exec i s = .next t ∧ Reported s t 0x0504 4 r.port r.addr 0
        ∧ (FencesApplied s → bit (s.policy 0x0504).action 0 = false → r.signal = none → mget t.caravan.reqs tag = none))))
  ∧ (∀ (port : Fin 4) (s : State),
    let p := port.val
    let v := s.caravan.port p
    let replays := fun (i : Instr) (l : List (Nat × List Byte)) (link inRow : Nat) => l ≠ [] → Map.sorted s.flt.records = true →
      ∃ t, exec i s = .next t ∧ (∀ f ∈ l, OutMsg.replay p f.1 ∈ t.host.out) ∧ (t.caravan.port p).replay = l ∧ t.mem = s.mem
        ∧ (t.caravan.port p).replaysInRow = inRow + 1 ∧ Reported s t 0x0501 4 p 0 0
        ∧ (t.caravan.port p).link = if 8 < inRow + 1 then 4 else if link = 2 then 3 else link
    (s.portOpen p = true → s.power.st = .run →
      (v.replay = [] → exec (.linkAckTimeout port) s = .next s) ∧ replays (.linkAckTimeout port) v.replay v.link v.replaysInRow
      ∧ (∀ seq, (∀ f ∈ v.replay, f.1 ≠ seq) → exec (.link port false seq) s = .next s
          ∧ replays (.link port true seq) v.replay v.link v.replaysInRow)
      ∧ (∀ pre f post, v.replay = pre ++ f :: post → (∀ g ∈ pre, g.1 ≠ f.1) →
          let link := if v.link = 3 && post.isEmpty then 2 else v.link
          (∃ t, exec (.link port false f.1) s = .next t
            ∧ t.caravan.port p = { v with replay := post, replaysInRow := 0, link := link } ∧ t.mem = s.mem ∧ t.host = s.host)
          ∧ replays (.link port true f.1) post link 0))
    ∧ ((s.live = false ∨ (v.link ≠ 3 ∧ v.link ≠ 4)) → exec (.portRetryBudgetExpiry port) s = .next s)
    ∧ (s.live = true → (v.link = 3 ∨ v.link = 4) → (∀ r ∈ s.caravan.reqs, r.2.port = p → r.2.signal = none) → FencesApplied s →
        ∃ t, exec (.portRetryBudgetExpiry port) s = .next t ∧ (t.caravan.port p).link = 1 ∧ (t.caravan.port p).replay = []
          ∧ s.aclk ∈ (t.caravan.port p).downs ∧ Reported s t 0x0503 4 p 0 0
          ∧ ∀ k r, mget s.caravan.reqs k = some r → r.port = p → mget t.caravan.reqs k = none)
    ∧ (∀ far : PortTrain,
        let trains := s.live = true ∧ s.halted = false ∧ (v.link = 1 ∨ v.link = 4) ∧ v.fenced = false
        (¬ trains → exec (.portRetrainComplete port far) s = .next s)
        ∧ (trains → ∃ t, exec (.portRetrainComplete port far) s = .next t ∧ t.mem = s.mem
          ∧ (t.caravan.port p).link = (if v.replay = [] then 2 else 3) ∧ (t.caravan.port p).width = (if far.wide then 2 else 1)
          ∧ (t.caravan.port p).rate64 = far.rate64 ∧ (t.caravan.port p).peer = some far.peer.val
          ∧ (v.link = 4 → ∀ f ∈ v.replay, OutMsg.replay p f.1 ∈ t.host.out)
          ∧ Recorded s t 0x09 (1 + p * 256 + if far.wide && far.rate64 then 0 else 65536)
              (if far.rate64 then 64000 else 32000) (if far.wide then 8 else 4)))
    ∧ (∀ (flit b : List Byte) (fixed : Nat), flit.length = 256 → s.portOpen p = true → s.power.st = .run →
        Config.fecDecode flit = (b, fixed) →
        let h := getLe b 0 2
        let good := crc64 (b.take 242) = getLe b 0xF2 8 ∧ bits h 11 10 ≤ 1
        let ahead := (bits h 9 0 + 1024 - v.rxSeq) % 1024
        let acks := fun (t : State) (seq : Nat) (nak : Bool) => exec (.flitReceive port flit) s = .next t
          ∧ OutMsg.linkAck p seq nak ∈ t.host.out
        let refused := ∃ t, acks t ((v.rxSeq + 1023) % 1024) true ∧ (t.caravan.port p).rxSeq = v.rxSeq ∧ t.mem = s.mem
        (¬ good → refused)
        ∧ (good → bits h 11 10 = 0 → 0 < ahead → ahead < 512 → refused)
        ∧ (good → bits h 11 10 = 0 → 512 ≤ ahead → ∃ t, acks t ((v.rxSeq + 1023) % 1024) false
            ∧ (t.caravan.port p).rxSeq = v.rxSeq ∧ t.mem = s.mem)
        ∧ (good → bits h 11 10 = 0 → ahead = 0 → parseSlots 32 (v.rxPartial ++ flitSlots b) = none → refused)
        ∧ (∀ ms rest, good → bits h 11 10 = 0 → ahead = 0 → parseSlots 32 (v.rxPartial ++ flitSlots b) = some (ms, rest) →
            ∃ t, acks t v.rxSeq false ∧ (t.caravan.port p).rxSeq = (v.rxSeq + 1) % 1024
              ∧ (ms = [] → (t.caravan.port p).rxPartial = rest ∧ t.mem = s.mem))))
  ∧ (∀ (port : Fin 4) (flit : List Byte) (s : State), flit.length ≠ 256 → exec (.flitReceive port flit) s = .fault .illFormed)

/-- R258, R259, R480 to R484, R489, R519 to R524, R530, R559. What each step finds is the operand of BOOT_START, and the
meaning of a row before its moment is log entry 12; which commands count as unit self-tests is not at issue here. -/
def Obligations.FaultsMasterAndBootFollowTheirRules : Prop :=
  (∀ (f : FaultIn) (s : State),
    let known := s.up = true ∧ f.code ∈ faultCodes ∧ f.code ≠ 0x1007 ∧ unitKnown f.kind f.index = true
    let cls := if faultClass f.code = 3 && !fenceable f.kind then 2 else faultClass f.code
    let fences := bit (s.policy f.code).action 0 = true ∧ fenceable f.kind = true ∧ cls ≠ 2 ∧ s.flt.fatal = false
      ∧ s.fence? f.kind f.index = none
    (¬ known → exec (.faultReport f) s = .next s)
    ∧ (known → f.code ∉ [0x0101, 0x0105, 0x0201, 0x0204, 0x0301, 0x0503, 0x0602, 0x1001, 0x1003] → FencesApplied s →
      (¬ fences → Map.sorted s.flt.records = true → ∃ t, exec (.faultReport f) s = .next t
        ∧ Reported s t f.code f.kind f.index f.addr.toNat f.info.toNat ∧ t.mem.cells = s.mem.cells
        ∧ (f.code ∈ [0x0102, 0x0202] → t.mem.poisoned f.addr.toNat 1 = true)
        ∧ (cls = 2 → IsFatal t) ∧ (cls ≠ 2 → t.engines = s.engines ∧ t.flt.fatal = s.flt.fatal))
      ∧ (fences → f.kind = 9 → 0 < cls → ∃ t x, exec (.faultReport f) s = .next t ∧ t.fence? 9 f.index = some x
        ∧ x.code = f.code ∧ x.software = false ∧ x.applied = true ∧ (t.ring f.index).fenced = true
        ∧ (t.ring f.index).enabled = false ∧ Reported s t f.code 9 f.index f.addr.toNat f.info.toNat)))
  ∧ (∀ s : State,
    let recent := (s.fw.restarts.filter (fun x => s.aclk ≤ x + (s.policy 0x0602).window)).length
    ((s.live = false ∨ s.fw.restarting = true) → exec .lockstepDivergence s = .next s)
    ∧ (s.live = true → s.fw.restarting = false → recent < 8 → ∃ t, exec .lockstepDivergence s = .next t
      ∧ Reported s t 0x0602 11 0 0 0 ∧ t.fw.mbxReady = false ∧ t.fw.masterAlive = false ∧ t.fw.restarting = true
      ∧ t.fw.sessions = [] ∧ t.fw.longOps = [] ∧ t.flt.fatal = false
      ∧ t.engines = s.engines ∧ t.queues = s.queues ∧ t.jobs = s.jobs ∧ t.passes = s.passes ∧ t.mem = s.mem)
    ∧ (s.live = true → s.fw.restarting = false → 8 ≤ recent → ∃ t n r, exec .lockstepDivergence s = .next t
      ∧ Reported s t 0x0602 11 0 0 0 ∧ IsFatal t ∧ mget t.flt.records n = some r ∧ r.code = 0x0603 ∧ r.unitKind = 11)
    ∧ ((s.up = false ∨ s.flt.fatal = true ∨ s.fw.restarting = false ∨ s.halted = true) →
      exec .masterRestartComplete s = .next s)
    ∧ (s.up = true → s.flt.fatal = false → s.fw.restarting = true → s.halted = false → ∃ t,
      exec .masterRestartComplete s = .next t ∧ t.host.heartbeat = s.host.heartbeat + 1 ∧ t.fw = { s.fw with
        mbxReady := true, masterAlive := true, restarting := false, restarts := s.fw.restarts ++ [s.aclk] }
      ∧ t.mem = s.mem ∧ t.engines = s.engines ∧ t.queues = s.queues)
    ∧ ((s.live = false ∨ s.fw.restarting = false) → exec .heartbeatTimeout s = .next s)
    ∧ (s.live = true → s.fw.restarting = true → ∃ t, exec .heartbeatTimeout s = .next t ∧ Reported s t 0x0603 11 0 0 0
      ∧ IsFatal t)
    ∧ ((s.up = false ∨ s.halted = true ∨ s.boot.step ≤ 8) → exec .heartbeatTick s = .next s)
    ∧ (s.live = true → s.halted = false → 8 < s.boot.step → ∃ t, exec .heartbeatTick s = .next t
      ∧ t.host.heartbeat = s.host.heartbeat + 1 ∧ t.fw = { s.fw with masterAlive := true } ∧ t.mem = s.mem
      ∧ (s.fw.masterAlive = true → t = { s with host := { s.host with heartbeat := s.host.heartbeat + 1 } }))
    ∧ ((s.up = false ∨ s.fw.masterAlive = false) → exec .masterAliveTimeout s = .next s)
    ∧ (s.up = true → s.fw.masterAlive = true → ∃ t, exec .masterAliveTimeout s = .next t
      ∧ t.fw = { s.fw with masterAlive := false } ∧ t.mem = s.mem ∧ t.host.heartbeat = s.host.heartbeat))
  ∧ (∀ s : State,
    let cleared := fun (t : State) => t.engines = [] ∧ t.queues = [] ∧ t.jobs = [] ∧ t.passes = [] ∧ t.convoys = []
      ∧ t.events = [] ∧ t.mmu = State.reset.mmu ∧ t.mem.cells = [] ∧ t.mem.lines = [] ∧ t.fw = State.reset.fw
      ∧ t.caravan = State.reset.caravan ∧ t.flt.records = [] ∧ t.flt.fences = [] ∧ t.boot.step = 0
      ∧ t.logbook.records = s.logbook.records ∧ t.logbook.next = s.logbook.next ∧ t.pending = s.pending
      ∧ t.mram.working = [] ∧ t.mram.bootA = s.mram.bootA ∧ t.mram.bootB = s.mram.bootB ∧ t.mram.fwA = s.mram.fwA
      ∧ t.mram.fwB = s.mram.fwB ∧ t.mram.keys = s.mram.keys ∧ t.mram.fuses = s.mram.fuses
      ∧ (∀ i, (t.mem.slice i).off = (s.mem.slice i).off ∧ (t.mem.chan i).failed = (s.mem.chan i).failed)
      ∧ ((∀ l ∈ s.fw.longOps, l.opcode ≠ 0x0905) →
          t.mram.settingsA = s.mram.settingsA ∧ t.mram.settingsB = s.mram.settingsB)
    (s.power.st = .off → exec .reset s = .next s ∧ exec .powerGoodLoss s = .next s)
    ∧ (s.power.st ≠ .off → (∃ t, exec .reset s = .next t ∧ cleared t ∧ t.clk.counts = s.clk.counts
        ∧ t.counters = s.counters ∧ t.host.writeLost = s.host.writeLost ∧ t.flt.recoveries = s.flt.recoveries
        ∧ (∀ i, (t.mem.slice i).corrected = (s.mem.slice i).corrected)
        ∧ (s.thermal.tripped = false → t.hrwState = 0 ∧ t.pins.errN = false))
      ∧ ∃ t, exec .powerGoodLoss s = .next t ∧ cleared t ∧ t.clk.counts = [] ∧ t.counters = [] ∧ t.host.writeLost = 0
        ∧ t.flt.recoveries = [] ∧ t.thermal.tripped = false ∧ t.pins.pwrGood = false ∧ t.power.st = .off))
  ∧ (∀ (world : BootWorld) (s : State),
    let n := s.boot.step
    let x := s.mram.ledger.step n
    let alt := decide (s.bootMode n = 2)
    let w := if n = 24 then 255 else n + 1
    let failed := fun (d : Nat) (t : State) =>
      let e := t.mram.ledger.step n
      let entry := e.result = (if alt then 6 else 3) ∧ e.fails = min (x.fails + 1) 255 ∧ e.detail = BitVec.ofNat 32 d
        ∧ e.mode = (if bootOptional n then 1 else if bootAlternate n then 2 else 0)
      (s.pins.pwrFailN = false → t.boot.step = 0 ∧ t.flt.fatal = false ∧ t.mram.bootA = s.mram.bootA
        ∧ t.mram.bootB = s.mram.bootB)
      ∧ (s.pins.pwrFailN = true → 5 ≤ n →
        (bootOptional n = true → entry ∧ t.boot.step = n + 1)
        ∧ (bootOptional n = false → bootAlternate n = true → alt = false → entry ∧ t.boot.step = 0
            ∧ t.mram.ledger.outcome = 1 ∧ t.flt.fatal = false)
        ∧ (bootOptional n = false → (bootAlternate n = false ∨ alt = true) → entry ∧ t.mram.ledger.outcome = 2
            ∧ IsFatal t))
    ((s.live = false ∨ n = 0 ∨ 24 < n) → exec .bootStepTimeout s = .next s)
    ∧ (s.live = true → n ≠ 0 → n ≤ 24 → ∃ t, exec .bootStepTimeout s = .next t ∧ failed 0 t)
    ∧ (∀ results, (24 < results.length ∨ world.formed = false) → exec (.bootStart results world) s = .fault .illFormed)
    ∧ (∀ results, results.length ≤ 24 → world.formed = true → (s.thermal.tripped = true ∨ s.flt.fatal = true ∨ n = 255) →
        exec (.bootStart results world) s = .next s)
    ∧ (world.formed = true → s.thermal.tripped = false → s.flt.fatal = false →
      (n = 0 → ∃ t, exec (.bootStart [] world) s = .next t ∧ t.boot.step = 1 ∧ t.pins.resetN = true
        ∧ t.pins.pwrGood = true ∧ (s.power.st = .off → t.power.st = .run) ∧ t.mem = s.mem ∧ t.mram = s.mram)
      ∧ (5 ≤ n → n ≤ 24 → ∀ r,
        let skipped := s.bootMode n = 1 ∧ x.sinceTry < 7
        let err := s.bootError n alt world
        (skipped → ∃ t, exec (.bootStart [r] world) s = .next t ∧ t.boot.step = w ∧ t.mem = s.mem
          ∧ t.mram.ledger.step n = { x with result := 4, sinceTry := x.sinceTry + 1 })
        ∧ (¬ skipped → err ≠ 0 → ∃ t, exec (.bootStart [r] world) s = .next t ∧ failed err t)
        ∧ (¬ skipped → err = 0 → 2 ≤ r → ∃ t, exec (.bootStart [r] world) s = .next t ∧ failed (if r = 2 then 0 else r) t)
        ∧ (¬ skipped → err = 0 → r < 2 → ∃ t, exec (.bootStart [r] world) s = .next t ∧ t.boot.step = w
          ∧ (t.mram.ledger.step n).result = (if alt then 5 else 1 + r)
          ∧ (t.mram.ledger.step n).mode = (if alt then 2 else 0) ∧ (t.mram.ledger.step n).fails = 0
          ∧ (n = 5 → t.caravan.die = t.setting 1)
          ∧ (n = 13 → t.host.linkUp = true ∧ t.host.modules = min world.modules (s.setting 0x21))
          ∧ (n = 17 → t.mem.cells = [] ∧ t.mem.poison = [])
          ∧ (n = 20 → ∀ e, e < 32 → (t.eng e).ucode = t.activeUcode)
          ∧ (n = 24 → t.fw.mbxReady = true ∧ t.mram.ledger.outcome = 0)))))
  ∧ (∀ (tms tdi : Bool) (s : State),
    ((s.power.st = .off ∨ s.power.st = .halt) → exec (.boundaryScan tms tdi) s = .next s)
    ∧ (s.power.st ≠ .off → s.power.st ≠ .halt → ∃ t, exec (.boundaryScan tms tdi) s = .next t
      ∧ t.pins.tap = s.pins.tap.next tms ∧ (t.pins.tdo.isSome = true ↔ t.pins.tap = .shiftDr ∨ t.pins.tap = .shiftIr)
      ∧ (s.pins.tap.shifts = true → t.pins.tapShift = tdi :: s.pins.tapShift)
      ∧ { t with clk := s.clk, pins := s.pins } = s
      ∧ { t.pins with tap := s.pins.tap, tdo := s.pins.tdo, tapShift := s.pins.tapShift } = s.pins))
  ∧ (∀ p : Tap, ((((p.next true).next true).next true).next true).next true = .testLogicReset)

/-! ### The block as a whole -/

/-- The queue of commands, first in, first out. The tick of an empty queue is the model's choice (log entry 13). -/
def Obligations.StepRunsTheFrontCommand : Prop :=
  (∀ (c : Instr) (rest : List Instr) (s : State),
    step { s with pending := c :: rest } = exec c { s with pending := rest })
  ∧ (∀ s : State, s.pending = [] → ∃ t, step s = .next t ∧ { t with clk := s.clk, engines := s.engines } = s
    ∧ t.clk.khz = s.clk.khz ∧ t.clk.fresh = s.clk.fresh
    ∧ (∀ k, mgetD s.clk.khz domA 0 = 38400 → (s.clk.khz.filter (fun p => p.1 = domA)).length = 1 →
        mgetD s.clk.phase domA 0 < 38400 → s.domainRuns domA = true → mgetD s.clk.counts domA 0 = k →
        mgetD t.clk.counts domA 0 = (k + 1) % 2 ^ 56))

/-- R258, R259, R272, R477, R482, R495, R497, R519, R533. That memory nothing has written reads 0 is log entry 4; that
reset leaves boot not started is R519. -/
def Obligations.ResetLeavesTheStatedValues : Prop :=
  let s := State.reset
  s.Inv ∧ s.hrwState = 0 ∧ s.host.heartbeat = 0 ∧ s.host.writeLost = 0 ∧ s.host.lastLost = 0 ∧ s.host.apertureMiss = 0
  ∧ s.host.doorbellDrop = 0 ∧ s.host.scratch = [] ∧ s.pending = []
  ∧ (∀ r, (s.ring r).enabled = false ∧ (s.ring r).tail = 0 ∧ (s.ring r).head = 0 ∧ (s.ring r).base = 0
      ∧ (s.ring r).dropped = 0)
  ∧ (∀ v, (s.msix v).masked = true) ∧ (∀ n, (s.mbx n).reqPending = false ∧ (s.mbx n).rspReady = false
      ∧ (s.mbx n).held = none)
  ∧ (∀ p, (s.caravan.port p).link = 0 ∧ (s.caravan.port p).fenced = false) ∧ s.flt.records = [] ∧ s.flt.next = 0
  ∧ (∀ k i, s.fence? k i = none) ∧ s.pins.errN = false ∧ (∀ q, s.queue? q = none) ∧ (∀ e p, s.str? e p = none)
  ∧ s.jobs = [] ∧ s.passes = [] ∧ s.convoys = [] ∧ s.events = [] ∧ s.fw.sessions = [] ∧ s.windowOpen = false
  ∧ s.setting 0x03 = 15 ∧ s.setting 0x32 = 384 ∧ s.setting 0x50 = 230 + 280 * 65536
  ∧ ((s.policy 0x1001).action = 0x0F ∧ (s.policy 0x0102).action = 0x0E ∧ (s.policy 0x0101).action = 0)
  ∧ (∀ a n, memRead s.mem.cells a n = List.replicate n 0)

/-- No command is refused and none stops on ordinary data (log entry 12 for rows whose condition does not hold). -/
def Obligations.FormedCommandsAlwaysAnswer : Prop :=
  ∀ (i : Instr) (s : State), (i.formed = true → Answers (exec i s)) ∧ (i.formed = false → exec i s = .fault .illFormed)

/-- The invariant is kept by all 316 commands and by the tick of an empty queue; the canonical form of memory is the
model's own (R8 gives its byte order). -/
def Obligations.EveryStepKeepsTheInvariant : Prop :=
  ∀ (s t : State), s.Inv → step s = .next t → t.Inv ∧ t.pending = s.pending.tail
end

