-- ==== Sys2Proof/Laws/Store.lean ====
section
/-! SUPPORT. Laws of the sparse tables, of byte lists and of local memory: read after write, frames, canonical form. -/

namespace Sys2Proof.Machine

/-! ### Tables -/

@[simp] theorem mget_nil {α : Type} (k : Nat) : mget ([] : Map α) k = none := rfl

@[simp] theorem mget_mset_self {α : Type} (m : Map α) (k : Nat) (v : α) : mget (mset m k v) k = some v := by
  induction m with
  | nil => simp [mset, mget]
  | cons p m ih =>
    obtain ⟨k', v'⟩ := p
    by_cases h : k' = k
    · simp [mset, mget, h]
    · by_cases h' : k < k' <;> simp [mset, mget, h, h', ih]

theorem mget_mset_ne {α : Type} (m : Map α) {k j : Nat} (v : α) (h : j ≠ k) : mget (mset m k v) j = mget m j := by
  induction m with
  | nil => simp [mset, mget, h.symm]
  | cons p m ih =>
    obtain ⟨k', v'⟩ := p
    by_cases e : k' = k
    · subst e; simp [mset, mget, h.symm]
    · by_cases l : k < k'
      · simp [mset, mget, e, l, h.symm]
      · simp only [mset, e, l, if_false, mget, ih]

theorem mget_mset {α : Type} (m : Map α) (k j : Nat) (v : α) :
    mget (mset m k v) j = if j = k then some v else mget m j := by
  by_cases h : j = k
  · subst h; simp
  · simp [h, mget_mset_ne m v h]

@[simp] theorem mgetD_mset_self {α : Type} (m : Map α) (k : Nat) (v d : α) : mgetD (mset m k v) k d = v := by
  simp [mgetD]

theorem mgetD_mset_ne {α : Type} (m : Map α) {k j : Nat} (v d : α) (h : j ≠ k) :
    mgetD (mset m k v) j d = mgetD m j d := by
  simp [mgetD, mget_mset_ne m v h]

theorem mget_merase {α : Type} (m : Map α) (k j : Nat) : mget (merase m k) j = if j = k then none else mget m j := by
  induction m with
  | nil => simp [merase, mget]
  | cons p m ih =>
    obtain ⟨k', v'⟩ := p
    simp only [merase] at ih ⊢
    by_cases e : k' = k
    · subst e
      rw [List.filter_cons_of_neg (by simp), ih]
      by_cases h : j = k'
      · simp [h]
      · simp [h, mget, Ne.symm h]
    · rw [List.filter_cons_of_pos (by simpa using e)]
      by_cases h : k' = j
      · subst h; simp [mget, e]
      · simp only [mget, h, if_false, ih]

theorem mget_mmod {α : Type} (m : Map α) (k j : Nat) (f : α → α) :
    mget (mmod m k f) j = if j = k then (mget m k).map f else mget m j := by
  unfold mmod
  cases h : mget m k with
  | none => by_cases e : j = k <;> simp [e, h]
  | some v => simp only [mget_mset, Option.map_some]

/-- A table rises strictly when its keys do. -/
theorem sorted_iff {α : Type} (m : Map α) : Map.sorted m = true ↔ (m.map Prod.fst).Pairwise (· < ·) := by
  induction m with
  | nil => simp [Map.sorted]
  | cons p m ih =>
    cases m with
    | nil => simp [Map.sorted]
    | cons q m =>
      obtain ⟨k, v⟩ := p
      obtain ⟨k', v'⟩ := q
      simp only [Map.sorted, Bool.and_eq_true, decide_eq_true_eq, ih, List.map_cons, List.pairwise_cons, List.mem_cons,
        List.mem_map, forall_eq_or_imp]
      constructor
      · rintro ⟨h, h1, h2⟩
        exact ⟨⟨h, fun a ha => lt_trans h (h1 a ha)⟩, h1, h2⟩
      · rintro ⟨⟨h, -⟩, h1, h2⟩
        exact ⟨h, h1, h2⟩

theorem keys_mset {α : Type} (m : Map α) (k : Nat) (v : α) (j : Nat) (h : j ∈ (mset m k v).map Prod.fst) :
    j = k ∨ j ∈ m.map Prod.fst := by
  induction m with
  | nil => simpa [mset] using h
  | cons p m ih =>
    obtain ⟨k', v'⟩ := p
    by_cases e : k' = k
    · subst e; simp only [mset, if_true, List.map_cons, List.mem_cons] at h ⊢; tauto
    · by_cases l : k < k'
      · simp only [mset, e, l, if_false, if_true, List.map_cons, List.mem_cons] at h ⊢; tauto
      · simp only [mset, e, l, if_false, List.map_cons, List.mem_cons] at h ⊢
        rcases h with h | h
        · tauto
        · rcases ih h with h | h <;> tauto

theorem sorted_mset {α : Type} (m : Map α) (k : Nat) (v : α) (h : Map.sorted m = true) :
    Map.sorted (mset m k v) = true := by
  rw [sorted_iff] at h ⊢
  induction m with
  | nil => simp [mset]
  | cons p m ih =>
    obtain ⟨k', v'⟩ := p
    simp only [List.map_cons, List.pairwise_cons] at h
    by_cases e : k' = k
    · subst e; simpa [mset] using h
    · by_cases l : k < k'
      · simp only [mset, e, l, if_false, if_true, List.map_cons, List.pairwise_cons, List.mem_cons, forall_eq_or_imp,
          true_and]
        exact ⟨fun a ha => lt_trans l (h.1 a ha), h.1, h.2⟩
      · simp only [mset, e, l, if_false, List.map_cons, List.pairwise_cons]
        refine ⟨fun a ha => ?_, ih h.2⟩
        rcases keys_mset m k v a ha with rfl | ha
        · omega
        · exact h.1 a ha

theorem sorted_filter {α : Type} (m : Map α) (p : Nat × α → Bool) (h : Map.sorted m = true) :
    Map.sorted (m.filter p) = true := by
  rw [sorted_iff] at h ⊢
  exact h.sublist (List.filter_sublist.map _)

theorem sorted_merase {α : Type} (m : Map α) (k : Nat) (h : Map.sorted m = true) : Map.sorted (merase m k) = true :=
  sorted_filter m _ h

/-! ### Bytes -/

@[simp] theorem length_leBytes (n w : Nat) : (leBytes n w).length = n := by
  induction n generalizing w with
  | zero => rfl
  | succ n ih => simp [leBytes, ih]

/-- A number survives the way through as many little-endian bytes as it needs (R8). -/
theorem leNat_leBytes (n w : Nat) : leNat (leBytes n w) = w % 2 ^ (8 * n) := by
  induction n generalizing w with
  | zero => simp [leBytes, leNat, Nat.mod_one]
  | succ n ih =>
    simp only [leBytes, leNat, ih, BitVec.toNat_ofNat]
    rw [show 8 * (n + 1) = 8 + 8 * n by ring, pow_add, Nat.mod_mul]
    norm_num

theorem leNat_lt (l : List Byte) : leNat l < 2 ^ (8 * l.length) := by
  induction l with
  | nil => simp [leNat]
  | cons b l ih =>
    have hb := b.isLt
    simp only [leNat, List.length_cons]
    rw [show 8 * (l.length + 1) = 8 + 8 * l.length by ring, pow_add]
    omega

theorem leBytes_leNat (l : List Byte) : leBytes l.length (leNat l) = l := by
  induction l with
  | nil => rfl
  | cons b l ih =>
    have hb := b.isLt
    simp only [leNat, List.length_cons, leBytes]
    congr 1
    · apply BitVec.eq_of_toNat_eq; simp [BitVec.toNat_ofNat]; omega
    · rw [show (b.toNat + 256 * leNat l) / 256 = leNat l by omega, ih]

@[simp] theorem length_zeros (n : Nat) : (zeros n).length = n := by simp [zeros]

/-! ### Local memory -/

theorem wf_cons {k : Nat} {b : Byte} {m : List Host.Cell} :
    Memory.wf ((k, b) :: m) = true ↔ b ≠ memDefault ∧ (∀ c ∈ m, k < c.1) ∧ Memory.wf m = true := by
  induction m generalizing k b with
  | nil => simp [Memory.wf]
  | cons p m ih =>
    obtain ⟨k', b'⟩ := p
    rw [Memory.wf, Bool.and_eq_true, Bool.and_eq_true, ih]
    simp only [decide_eq_true_eq, List.mem_cons, forall_eq_or_imp, ne_eq]
    constructor
    · rintro ⟨⟨h1, h2⟩, h3, h4, h5⟩
      exact ⟨by simpa using h1, ⟨h2, fun c hc => lt_trans h2 (h4 c hc)⟩, h3, h4, h5⟩
    · rintro ⟨h1, ⟨h2, -⟩, h3, h4, h5⟩
      exact ⟨⟨by simpa using h1, h2⟩, h3, h4, h5⟩

theorem memGet_below {m : List Host.Cell} {a : Nat} (h : ∀ c ∈ m, a < c.1) : memGet m a = memDefault := by
  cases m with
  | nil => rfl
  | cons p m =>
    obtain ⟨k, b⟩ := p
    have : a < k := h (k, b) (by simp)
    simp [memGet, this, Nat.ne_of_gt this]

/-- One byte written, every other byte as before. -/
theorem memGet_memPut (m : List Host.Cell) (a x : Nat) (b : Byte) (h : Memory.wf m = true) :
    memGet (memPut m a b) x = if x = a then b else memGet m x := by
  induction m with
  | nil =>
    by_cases e : b = memDefault
    · simp [memPut, e, memGet]
    · by_cases hx : x = a
      · simp [memPut, e, memGet, hx]
      · by_cases l : x < a <;> simp [memPut, e, memGet, hx, Ne.symm hx, l]
  | cons p m ih =>
    obtain ⟨k, c⟩ := p
    obtain ⟨h1, h2, h3⟩ := wf_cons.1 h
    by_cases e : k = a
    · subst e
      by_cases d : b = memDefault
      · by_cases hx : x = k
        · subst hx; simp [memPut, d, memGet_below h2]
        · simp only [memPut, d, if_true, hx, if_false, memGet, Ne.symm hx]
          by_cases l : x < k
          · simp only [l, if_true]; exact memGet_below (fun c hc => lt_trans l (h2 c hc))
          · simp [l]
      · by_cases hx : x = k
        · subst hx; simp [memPut, d, memGet]
        · simp [memPut, d, memGet, hx, Ne.symm hx]
    · by_cases l : a < k
      · by_cases d : b = memDefault
        · by_cases hx : x = a
          · subst hx; simp [memPut, e, l, d, memGet]
          · simp [memPut, e, l, d, hx]
        · by_cases hx : x = a
          · subst hx; simp [memPut, e, l, d, memGet]
          · by_cases lx : x < a
            · have : x < k := lt_trans lx l
              simp [memPut, e, l, d, memGet, hx, Ne.symm hx, lx, this, Nat.ne_of_gt this]
            · simp [memPut, e, l, d, memGet, hx, Ne.symm hx, lx]
      · simp only [memPut, e, l, if_false, memGet, ih h3]
        by_cases hx : x = a
        · subst hx; simp [e, l]
        · simp [hx]

theorem memPut_keys {m : List Host.Cell} {a : Nat} {b : Byte} {c : Host.Cell} (h : c ∈ memPut m a b) :
    c.1 = a ∨ c ∈ m := by
  induction m with
  | nil => unfold memPut at h; split at h <;> simp_all
  | cons p m ih =>
    obtain ⟨k, d⟩ := p
    unfold memPut at h
    split at h
    · split at h <;> simp_all
      rcases h with h | h
      · left; rw [h]
      · tauto
    · split at h
      · split at h <;> simp_all
        rcases h with h | h | h
        · left; rw [h]
        · tauto
        · tauto
      · simp only [List.mem_cons] at h ⊢
        rcases h with h | h
        · tauto
        · rcases ih h with h | h <;> tauto

/-- Writing a byte keeps the canonical form. -/
theorem wf_memPut (m : List Host.Cell) (a : Nat) (b : Byte) (h : Memory.wf m = true) : Memory.wf (memPut m a b) = true := by
  induction m with
  | nil =>
    unfold memPut; split
    · rfl
    · exact wf_cons.2 ⟨by assumption, by simp, rfl⟩
  | cons p m ih =>
    obtain ⟨k, c⟩ := p
    obtain ⟨h1, h2, h3⟩ := wf_cons.1 h
    unfold memPut
    split
    · rename_i e; subst e; split
      · exact h3
      · exact wf_cons.2 ⟨by assumption, h2, h3⟩
    · split
      · rename_i l; split
        · exact h
        · refine wf_cons.2 ⟨by assumption, ?_, h⟩
          intro c hc
          rcases List.mem_cons.1 hc with rfl | hc
          · exact l
          · exact lt_trans l (h2 c hc)
      · refine wf_cons.2 ⟨h1, ?_, ih h3⟩
        intro c hc
        rcases memPut_keys hc with e | hc
        · omega
        · exact h2 c hc

theorem wf_memWrite (l : List Byte) (m : List Host.Cell) (a : Nat) (h : Memory.wf m = true) :
    Memory.wf (memWrite m a l) = true := by
  induction l generalizing m a with
  | nil => exact h
  | cons b l ih => exact ih _ _ (wf_memPut m a b h)

/-- What a write leaves: its bytes from the address upward, every other byte as before. -/
theorem memGet_memWrite (l : List Byte) (m : List Host.Cell) (a x : Nat) (h : Memory.wf m = true) :
    memGet (memWrite m a l) x = if a ≤ x ∧ x < a + l.length then l.getD (x - a) 0 else memGet m x := by
  induction l generalizing m a with
  | nil => have : ¬ (a ≤ x ∧ x < a) := by omega
           simp [memWrite, this]
  | cons b l ih =>
    rw [memWrite, ih _ _ (wf_memPut m a b h), memGet_memPut m a x b h]
    by_cases e : x = a
    · subst e; simp
    · by_cases i : a + 1 ≤ x ∧ x < a + 1 + l.length
      · have j : a ≤ x ∧ x < a + (b :: l).length := by simp only [List.length_cons]; omega
        have k : x - a = (x - (a + 1)) + 1 := by omega
        rw [if_pos i, if_pos j, k]; rfl
      · have j : ¬ (a ≤ x ∧ x < a + (b :: l).length) := by simp only [List.length_cons]; omega
        rw [if_neg i, if_neg j, if_neg e]

theorem wf_filter (m : List Host.Cell) (p : Host.Cell → Bool) (h : Memory.wf m = true) : Memory.wf (m.filter p) = true := by
  induction m with
  | nil => rfl
  | cons c m ih =>
    obtain ⟨k, b⟩ := c
    obtain ⟨h1, h2, h3⟩ := wf_cons.1 h
    by_cases e : p (k, b) = true
    · rw [List.filter_cons_of_pos e]
      exact wf_cons.2 ⟨h1, fun c hc => h2 c (List.mem_of_mem_filter hc), ih h3⟩
    · rw [List.filter_cons_of_neg e]; exact ih h3

theorem wf_memZero (m : List Host.Cell) (a n : Nat) (h : Memory.wf m = true) : Memory.wf (memZero m a n) = true :=
  wf_filter m _ h

theorem memGet_filter (m : List Host.Cell) (p : Nat → Bool) (x : Nat) (h : Memory.wf m = true) :
    memGet (m.filter (fun c => p c.1)) x = if p x then memGet m x else memDefault := by
  induction m with
  | nil => simp [memGet]
  | cons c m ih =>
    obtain ⟨k, b⟩ := c
    obtain ⟨-, h2, h3⟩ := wf_cons.1 h
    by_cases e : p k = true
    · rw [List.filter_cons_of_pos (by simpa using e)]
      by_cases hx : k = x
      · subst hx; simp [memGet, e]
      · by_cases l : x < k
        · simp [memGet, hx, l]
        · simp [memGet, hx, l, ih h3]
    · rw [List.filter_cons_of_neg (by simpa using e), ih h3]
      by_cases hx : k = x
      · subst hx; simp [e]
      · by_cases l : x < k
        · simp [memGet, hx, l, memGet_below (fun c hc => lt_trans l (h2 c hc))]
        · simp [memGet, hx, l]

/-- Zeroing a range leaves zeros there and every other byte as before. -/
theorem memGet_memZero (m : List Host.Cell) (a n x : Nat) (h : Memory.wf m = true) :
    memGet (memZero m a n) x = if a ≤ x ∧ x < a + n then 0 else memGet m x := by
  have := memGet_filter m (fun k => k < a || a + n ≤ k) x h
  rw [show memZero m a n = m.filter (fun c => (fun k => k < a || a + n ≤ k) c.1) from rfl, this]
  by_cases e : a ≤ x ∧ x < a + n
  · have : ¬ (x < a ∨ a + n ≤ x) := by omega
    simp [e, this, memDefault]
  · have : x < a ∨ a + n ≤ x := by omega
    simp [e, this]

end Sys2Proof.Machine
end

