-- ==== Sys2Proof/Laws/State.lean ====
section
/-! SUPPORT. What each update of one part of the state leaves as it was, field by field, and what a reader sees in the part
that it updates. -/

namespace Sys2Proof.Machine

/-! ### drew -/

@[simp] theorem State.drew_pins (s : State) (n : Nat) : (s.drew n).pins = s.pins := rfl
@[simp] theorem State.drew_engines (s : State) (n : Nat) : (s.drew n).engines = s.engines := rfl
@[simp] theorem State.drew_queues (s : State) (n : Nat) : (s.drew n).queues = s.queues := rfl
@[simp] theorem State.drew_dups (s : State) (n : Nat) : (s.drew n).dups = s.dups := rfl
@[simp] theorem State.drew_events (s : State) (n : Nat) : (s.drew n).events = s.events := rfl
@[simp] theorem State.drew_cmpJobs (s : State) (n : Nat) : (s.drew n).cmpJobs = s.cmpJobs := rfl
@[simp] theorem State.drew_jobs (s : State) (n : Nat) : (s.drew n).jobs = s.jobs := rfl
@[simp] theorem State.drew_turns (s : State) (n : Nat) : (s.drew n).turns = s.turns := rfl
@[simp] theorem State.drew_passes (s : State) (n : Nat) : (s.drew n).passes = s.passes := rfl
@[simp] theorem State.drew_nextPass (s : State) (n : Nat) : (s.drew n).nextPass = s.nextPass := rfl
@[simp] theorem State.drew_parts (s : State) (n : Nat) : (s.drew n).parts = s.parts := rfl
@[simp] theorem State.drew_sch (s : State) (n : Nat) : (s.drew n).sch = s.sch := rfl
@[simp] theorem State.drew_convoys (s : State) (n : Nat) : (s.drew n).convoys = s.convoys := rfl
@[simp] theorem State.drew_accounts (s : State) (n : Nat) : (s.drew n).accounts = s.accounts := rfl
@[simp] theorem State.drew_mmu (s : State) (n : Nat) : (s.drew n).mmu = s.mmu := rfl
@[simp] theorem State.drew_mem (s : State) (n : Nat) : (s.drew n).mem = s.mem := rfl
@[simp] theorem State.drew_host (s : State) (n : Nat) : (s.drew n).host = s.host := rfl
@[simp] theorem State.drew_fw (s : State) (n : Nat) : (s.drew n).fw = s.fw := rfl
@[simp] theorem State.drew_pipes (s : State) (n : Nat) : (s.drew n).pipes = s.pipes := rfl
@[simp] theorem State.drew_layers (s : State) (n : Nat) : (s.drew n).layers = s.layers := rfl
@[simp] theorem State.drew_syncs (s : State) (n : Nat) : (s.drew n).syncs = s.syncs := rfl
@[simp] theorem State.drew_caravan (s : State) (n : Nat) : (s.drew n).caravan = s.caravan := rfl
@[simp] theorem State.drew_flt (s : State) (n : Nat) : (s.drew n).flt = s.flt := rfl
@[simp] theorem State.drew_logbook (s : State) (n : Nat) : (s.drew n).logbook = s.logbook := rfl
@[simp] theorem State.drew_power (s : State) (n : Nat) : (s.drew n).power = s.power := rfl
@[simp] theorem State.drew_thermal (s : State) (n : Nat) : (s.drew n).thermal = s.thermal := rfl
@[simp] theorem State.drew_mram (s : State) (n : Nat) : (s.drew n).mram = s.mram := rfl
@[simp] theorem State.drew_boot (s : State) (n : Nat) : (s.drew n).boot = s.boot := rfl
@[simp] theorem State.drew_sampleRings (s : State) (n : Nat) : (s.drew n).sampleRings = s.sampleRings := rfl
@[simp] theorem State.drew_counters (s : State) (n : Nat) : (s.drew n).counters = s.counters := rfl
@[simp] theorem State.drew_pending (s : State) (n : Nat) : (s.drew n).pending = s.pending := rfl

/-! ### progress -/

@[simp] theorem State.progress_clk (s : State) (unit n : Nat) : (s.progress unit n).clk = s.clk := rfl
@[simp] theorem State.progress_pins (s : State) (unit n : Nat) : (s.progress unit n).pins = s.pins := rfl
@[simp] theorem State.progress_engines (s : State) (unit n : Nat) : (s.progress unit n).engines = s.engines := rfl
@[simp] theorem State.progress_queues (s : State) (unit n : Nat) : (s.progress unit n).queues = s.queues := rfl
@[simp] theorem State.progress_dups (s : State) (unit n : Nat) : (s.progress unit n).dups = s.dups := rfl
@[simp] theorem State.progress_events (s : State) (unit n : Nat) : (s.progress unit n).events = s.events := rfl
@[simp] theorem State.progress_cmpJobs (s : State) (unit n : Nat) : (s.progress unit n).cmpJobs = s.cmpJobs := rfl
@[simp] theorem State.progress_jobs (s : State) (unit n : Nat) : (s.progress unit n).jobs = s.jobs := rfl
@[simp] theorem State.progress_turns (s : State) (unit n : Nat) : (s.progress unit n).turns = s.turns := rfl
@[simp] theorem State.progress_passes (s : State) (unit n : Nat) : (s.progress unit n).passes = s.passes := rfl
@[simp] theorem State.progress_nextPass (s : State) (unit n : Nat) : (s.progress unit n).nextPass = s.nextPass := rfl
@[simp] theorem State.progress_parts (s : State) (unit n : Nat) : (s.progress unit n).parts = s.parts := rfl
@[simp] theorem State.progress_sch (s : State) (unit n : Nat) : (s.progress unit n).sch = s.sch := rfl
@[simp] theorem State.progress_convoys (s : State) (unit n : Nat) : (s.progress unit n).convoys = s.convoys := rfl
@[simp] theorem State.progress_accounts (s : State) (unit n : Nat) : (s.progress unit n).accounts = s.accounts := rfl
@[simp] theorem State.progress_mmu (s : State) (unit n : Nat) : (s.progress unit n).mmu = s.mmu := rfl
@[simp] theorem State.progress_mem (s : State) (unit n : Nat) : (s.progress unit n).mem = s.mem := rfl
@[simp] theorem State.progress_host (s : State) (unit n : Nat) : (s.progress unit n).host = s.host := rfl
@[simp] theorem State.progress_fw (s : State) (unit n : Nat) : (s.progress unit n).fw = s.fw := rfl
@[simp] theorem State.progress_pipes (s : State) (unit n : Nat) : (s.progress unit n).pipes = s.pipes := rfl
@[simp] theorem State.progress_layers (s : State) (unit n : Nat) : (s.progress unit n).layers = s.layers := rfl
@[simp] theorem State.progress_syncs (s : State) (unit n : Nat) : (s.progress unit n).syncs = s.syncs := rfl
@[simp] theorem State.progress_caravan (s : State) (unit n : Nat) : (s.progress unit n).caravan = s.caravan := rfl
@[simp] theorem State.progress_logbook (s : State) (unit n : Nat) : (s.progress unit n).logbook = s.logbook := rfl
@[simp] theorem State.progress_power (s : State) (unit n : Nat) : (s.progress unit n).power = s.power := rfl
@[simp] theorem State.progress_thermal (s : State) (unit n : Nat) : (s.progress unit n).thermal = s.thermal := rfl
@[simp] theorem State.progress_mram (s : State) (unit n : Nat) : (s.progress unit n).mram = s.mram := rfl
@[simp] theorem State.progress_boot (s : State) (unit n : Nat) : (s.progress unit n).boot = s.boot := rfl
@[simp] theorem State.progress_sampleRings (s : State) (unit n : Nat) :
    (s.progress unit n).sampleRings = s.sampleRings := rfl
@[simp] theorem State.progress_counters (s : State) (unit n : Nat) : (s.progress unit n).counters = s.counters := rfl
@[simp] theorem State.progress_pending (s : State) (unit n : Nat) : (s.progress unit n).pending = s.pending := rfl

/-! ### setSetting -/

@[simp] theorem State.setSetting_clk (s : State) (key v : Nat) : (s.setSetting key v).clk = s.clk := rfl
@[simp] theorem State.setSetting_pins (s : State) (key v : Nat) : (s.setSetting key v).pins = s.pins := rfl
@[simp] theorem State.setSetting_engines (s : State) (key v : Nat) : (s.setSetting key v).engines = s.engines := rfl
@[simp] theorem State.setSetting_queues (s : State) (key v : Nat) : (s.setSetting key v).queues = s.queues := rfl
@[simp] theorem State.setSetting_dups (s : State) (key v : Nat) : (s.setSetting key v).dups = s.dups := rfl
@[simp] theorem State.setSetting_events (s : State) (key v : Nat) : (s.setSetting key v).events = s.events := rfl
@[simp] theorem State.setSetting_cmpJobs (s : State) (key v : Nat) : (s.setSetting key v).cmpJobs = s.cmpJobs := rfl
@[simp] theorem State.setSetting_jobs (s : State) (key v : Nat) : (s.setSetting key v).jobs = s.jobs := rfl
@[simp] theorem State.setSetting_turns (s : State) (key v : Nat) : (s.setSetting key v).turns = s.turns := rfl
@[simp] theorem State.setSetting_passes (s : State) (key v : Nat) : (s.setSetting key v).passes = s.passes := rfl
@[simp] theorem State.setSetting_nextPass (s : State) (key v : Nat) : (s.setSetting key v).nextPass = s.nextPass := rfl
@[simp] theorem State.setSetting_parts (s : State) (key v : Nat) : (s.setSetting key v).parts = s.parts := rfl
@[simp] theorem State.setSetting_sch (s : State) (key v : Nat) : (s.setSetting key v).sch = s.sch := rfl
@[simp] theorem State.setSetting_convoys (s : State) (key v : Nat) : (s.setSetting key v).convoys = s.convoys := rfl
@[simp] theorem State.setSetting_accounts (s : State) (key v : Nat) : (s.setSetting key v).accounts = s.accounts := rfl
@[simp] theorem State.setSetting_mmu (s : State) (key v : Nat) : (s.setSetting key v).mmu = s.mmu := rfl
@[simp] theorem State.setSetting_mem (s : State) (key v : Nat) : (s.setSetting key v).mem = s.mem := rfl
@[simp] theorem State.setSetting_host (s : State) (key v : Nat) : (s.setSetting key v).host = s.host := rfl
@[simp] theorem State.setSetting_fw (s : State) (key v : Nat) : (s.setSetting key v).fw = s.fw := rfl
@[simp] theorem State.setSetting_pipes (s : State) (key v : Nat) : (s.setSetting key v).pipes = s.pipes := rfl
@[simp] theorem State.setSetting_layers (s : State) (key v : Nat) : (s.setSetting key v).layers = s.layers := rfl
@[simp] theorem State.setSetting_syncs (s : State) (key v : Nat) : (s.setSetting key v).syncs = s.syncs := rfl
@[simp] theorem State.setSetting_caravan (s : State) (key v : Nat) : (s.setSetting key v).caravan = s.caravan := rfl
@[simp] theorem State.setSetting_flt (s : State) (key v : Nat) : (s.setSetting key v).flt = s.flt := rfl
@[simp] theorem State.setSetting_logbook (s : State) (key v : Nat) : (s.setSetting key v).logbook = s.logbook := rfl
@[simp] theorem State.setSetting_power (s : State) (key v : Nat) : (s.setSetting key v).power = s.power := rfl
@[simp] theorem State.setSetting_thermal (s : State) (key v : Nat) : (s.setSetting key v).thermal = s.thermal := rfl
@[simp] theorem State.setSetting_boot (s : State) (key v : Nat) : (s.setSetting key v).boot = s.boot := rfl
@[simp] theorem State.setSetting_sampleRings (s : State) (key v : Nat) :
    (s.setSetting key v).sampleRings = s.sampleRings := rfl
@[simp] theorem State.setSetting_counters (s : State) (key v : Nat) : (s.setSetting key v).counters = s.counters := rfl
@[simp] theorem State.setSetting_pending (s : State) (key v : Nat) : (s.setSetting key v).pending = s.pending := rfl

/-! ### emit -/

@[simp] theorem State.emit_clk (s : State) (m : OutMsg) : (s.emit m).clk = s.clk := rfl
@[simp] theorem State.emit_pins (s : State) (m : OutMsg) : (s.emit m).pins = s.pins := rfl
@[simp] theorem State.emit_engines (s : State) (m : OutMsg) : (s.emit m).engines = s.engines := rfl
@[simp] theorem State.emit_queues (s : State) (m : OutMsg) : (s.emit m).queues = s.queues := rfl
@[simp] theorem State.emit_dups (s : State) (m : OutMsg) : (s.emit m).dups = s.dups := rfl
@[simp] theorem State.emit_events (s : State) (m : OutMsg) : (s.emit m).events = s.events := rfl
@[simp] theorem State.emit_cmpJobs (s : State) (m : OutMsg) : (s.emit m).cmpJobs = s.cmpJobs := rfl
@[simp] theorem State.emit_jobs (s : State) (m : OutMsg) : (s.emit m).jobs = s.jobs := rfl
@[simp] theorem State.emit_turns (s : State) (m : OutMsg) : (s.emit m).turns = s.turns := rfl
@[simp] theorem State.emit_passes (s : State) (m : OutMsg) : (s.emit m).passes = s.passes := rfl
@[simp] theorem State.emit_nextPass (s : State) (m : OutMsg) : (s.emit m).nextPass = s.nextPass := rfl
@[simp] theorem State.emit_parts (s : State) (m : OutMsg) : (s.emit m).parts = s.parts := rfl
@[simp] theorem State.emit_sch (s : State) (m : OutMsg) : (s.emit m).sch = s.sch := rfl
@[simp] theorem State.emit_convoys (s : State) (m : OutMsg) : (s.emit m).convoys = s.convoys := rfl
@[simp] theorem State.emit_accounts (s : State) (m : OutMsg) : (s.emit m).accounts = s.accounts := rfl
@[simp] theorem State.emit_mmu (s : State) (m : OutMsg) : (s.emit m).mmu = s.mmu := rfl
@[simp] theorem State.emit_mem (s : State) (m : OutMsg) : (s.emit m).mem = s.mem := rfl
@[simp] theorem State.emit_fw (s : State) (m : OutMsg) : (s.emit m).fw = s.fw := rfl
@[simp] theorem State.emit_pipes (s : State) (m : OutMsg) : (s.emit m).pipes = s.pipes := rfl
@[simp] theorem State.emit_layers (s : State) (m : OutMsg) : (s.emit m).layers = s.layers := rfl
@[simp] theorem State.emit_syncs (s : State) (m : OutMsg) : (s.emit m).syncs = s.syncs := rfl
@[simp] theorem State.emit_caravan (s : State) (m : OutMsg) : (s.emit m).caravan = s.caravan := rfl
@[simp] theorem State.emit_flt (s : State) (m : OutMsg) : (s.emit m).flt = s.flt := rfl
@[simp] theorem State.emit_logbook (s : State) (m : OutMsg) : (s.emit m).logbook = s.logbook := rfl
@[simp] theorem State.emit_power (s : State) (m : OutMsg) : (s.emit m).power = s.power := rfl
@[simp] theorem State.emit_thermal (s : State) (m : OutMsg) : (s.emit m).thermal = s.thermal := rfl
@[simp] theorem State.emit_mram (s : State) (m : OutMsg) : (s.emit m).mram = s.mram := rfl
@[simp] theorem State.emit_boot (s : State) (m : OutMsg) : (s.emit m).boot = s.boot := rfl
@[simp] theorem State.emit_sampleRings (s : State) (m : OutMsg) : (s.emit m).sampleRings = s.sampleRings := rfl
@[simp] theorem State.emit_counters (s : State) (m : OutMsg) : (s.emit m).counters = s.counters := rfl
@[simp] theorem State.emit_pending (s : State) (m : OutMsg) : (s.emit m).pending = s.pending := rfl

/-! ### setRing -/

@[simp] theorem State.setRing_clk (s : State) (r : Nat) (c : CookieRing) : (s.setRing r c).clk = s.clk := rfl
@[simp] theorem State.setRing_pins (s : State) (r : Nat) (c : CookieRing) : (s.setRing r c).pins = s.pins := rfl
@[simp] theorem State.setRing_engines (s : State) (r : Nat) (c : CookieRing) :
    (s.setRing r c).engines = s.engines := rfl
@[simp] theorem State.setRing_queues (s : State) (r : Nat) (c : CookieRing) : (s.setRing r c).queues = s.queues := rfl
@[simp] theorem State.setRing_dups (s : State) (r : Nat) (c : CookieRing) : (s.setRing r c).dups = s.dups := rfl
@[simp] theorem State.setRing_events (s : State) (r : Nat) (c : CookieRing) : (s.setRing r c).events = s.events := rfl
@[simp] theorem State.setRing_cmpJobs (s : State) (r : Nat) (c : CookieRing) :
    (s.setRing r c).cmpJobs = s.cmpJobs := rfl
@[simp] theorem State.setRing_jobs (s : State) (r : Nat) (c : CookieRing) : (s.setRing r c).jobs = s.jobs := rfl
@[simp] theorem State.setRing_turns (s : State) (r : Nat) (c : CookieRing) : (s.setRing r c).turns = s.turns := rfl
@[simp] theorem State.setRing_passes (s : State) (r : Nat) (c : CookieRing) : (s.setRing r c).passes = s.passes := rfl
@[simp] theorem State.setRing_nextPass (s : State) (r : Nat) (c : CookieRing) :
    (s.setRing r c).nextPass = s.nextPass := rfl
@[simp] theorem State.setRing_parts (s : State) (r : Nat) (c : CookieRing) : (s.setRing r c).parts = s.parts := rfl
@[simp] theorem State.setRing_sch (s : State) (r : Nat) (c : CookieRing) : (s.setRing r c).sch = s.sch := rfl
@[simp] theorem State.setRing_convoys (s : State) (r : Nat) (c : CookieRing) :
    (s.setRing r c).convoys = s.convoys := rfl
@[simp] theorem State.setRing_accounts (s : State) (r : Nat) (c : CookieRing) :
    (s.setRing r c).accounts = s.accounts := rfl
@[simp] theorem State.setRing_mmu (s : State) (r : Nat) (c : CookieRing) : (s.setRing r c).mmu = s.mmu := rfl
@[simp] theorem State.setRing_mem (s : State) (r : Nat) (c : CookieRing) : (s.setRing r c).mem = s.mem := rfl
@[simp] theorem State.setRing_fw (s : State) (r : Nat) (c : CookieRing) : (s.setRing r c).fw = s.fw := rfl
@[simp] theorem State.setRing_pipes (s : State) (r : Nat) (c : CookieRing) : (s.setRing r c).pipes = s.pipes := rfl
@[simp] theorem State.setRing_layers (s : State) (r : Nat) (c : CookieRing) : (s.setRing r c).layers = s.layers := rfl
@[simp] theorem State.setRing_syncs (s : State) (r : Nat) (c : CookieRing) : (s.setRing r c).syncs = s.syncs := rfl
@[simp] theorem State.setRing_caravan (s : State) (r : Nat) (c : CookieRing) :
    (s.setRing r c).caravan = s.caravan := rfl
@[simp] theorem State.setRing_flt (s : State) (r : Nat) (c : CookieRing) : (s.setRing r c).flt = s.flt := rfl
@[simp] theorem State.setRing_logbook (s : State) (r : Nat) (c : CookieRing) :
    (s.setRing r c).logbook = s.logbook := rfl
@[simp] theorem State.setRing_power (s : State) (r : Nat) (c : CookieRing) : (s.setRing r c).power = s.power := rfl
@[simp] theorem State.setRing_thermal (s : State) (r : Nat) (c : CookieRing) :
    (s.setRing r c).thermal = s.thermal := rfl
@[simp] theorem State.setRing_mram (s : State) (r : Nat) (c : CookieRing) : (s.setRing r c).mram = s.mram := rfl
@[simp] theorem State.setRing_boot (s : State) (r : Nat) (c : CookieRing) : (s.setRing r c).boot = s.boot := rfl
@[simp] theorem State.setRing_sampleRings (s : State) (r : Nat) (c : CookieRing) :
    (s.setRing r c).sampleRings = s.sampleRings := rfl
@[simp] theorem State.setRing_counters (s : State) (r : Nat) (c : CookieRing) :
    (s.setRing r c).counters = s.counters := rfl
@[simp] theorem State.setRing_pending (s : State) (r : Nat) (c : CookieRing) :
    (s.setRing r c).pending = s.pending := rfl

/-! ### capChanged -/

@[simp] theorem State.capChanged_clk (s : State) : (s.capChanged).clk = s.clk := rfl
@[simp] theorem State.capChanged_pins (s : State) : (s.capChanged).pins = s.pins := rfl
@[simp] theorem State.capChanged_engines (s : State) : (s.capChanged).engines = s.engines := rfl
@[simp] theorem State.capChanged_queues (s : State) : (s.capChanged).queues = s.queues := rfl
@[simp] theorem State.capChanged_dups (s : State) : (s.capChanged).dups = s.dups := rfl
@[simp] theorem State.capChanged_events (s : State) : (s.capChanged).events = s.events := rfl
@[simp] theorem State.capChanged_cmpJobs (s : State) : (s.capChanged).cmpJobs = s.cmpJobs := rfl
@[simp] theorem State.capChanged_jobs (s : State) : (s.capChanged).jobs = s.jobs := rfl
@[simp] theorem State.capChanged_turns (s : State) : (s.capChanged).turns = s.turns := rfl
@[simp] theorem State.capChanged_passes (s : State) : (s.capChanged).passes = s.passes := rfl
@[simp] theorem State.capChanged_nextPass (s : State) : (s.capChanged).nextPass = s.nextPass := rfl
@[simp] theorem State.capChanged_parts (s : State) : (s.capChanged).parts = s.parts := rfl
@[simp] theorem State.capChanged_sch (s : State) : (s.capChanged).sch = s.sch := rfl
@[simp] theorem State.capChanged_convoys (s : State) : (s.capChanged).convoys = s.convoys := rfl
@[simp] theorem State.capChanged_accounts (s : State) : (s.capChanged).accounts = s.accounts := rfl
@[simp] theorem State.capChanged_mmu (s : State) : (s.capChanged).mmu = s.mmu := rfl
@[simp] theorem State.capChanged_mem (s : State) : (s.capChanged).mem = s.mem := rfl
@[simp] theorem State.capChanged_fw (s : State) : (s.capChanged).fw = s.fw := rfl
@[simp] theorem State.capChanged_pipes (s : State) : (s.capChanged).pipes = s.pipes := rfl
@[simp] theorem State.capChanged_layers (s : State) : (s.capChanged).layers = s.layers := rfl
@[simp] theorem State.capChanged_syncs (s : State) : (s.capChanged).syncs = s.syncs := rfl
@[simp] theorem State.capChanged_caravan (s : State) : (s.capChanged).caravan = s.caravan := rfl
@[simp] theorem State.capChanged_flt (s : State) : (s.capChanged).flt = s.flt := rfl
@[simp] theorem State.capChanged_logbook (s : State) : (s.capChanged).logbook = s.logbook := rfl
@[simp] theorem State.capChanged_power (s : State) : (s.capChanged).power = s.power := rfl
@[simp] theorem State.capChanged_thermal (s : State) : (s.capChanged).thermal = s.thermal := rfl
@[simp] theorem State.capChanged_mram (s : State) : (s.capChanged).mram = s.mram := rfl
@[simp] theorem State.capChanged_boot (s : State) : (s.capChanged).boot = s.boot := rfl
@[simp] theorem State.capChanged_sampleRings (s : State) : (s.capChanged).sampleRings = s.sampleRings := rfl
@[simp] theorem State.capChanged_counters (s : State) : (s.capChanged).counters = s.counters := rfl
@[simp] theorem State.capChanged_pending (s : State) : (s.capChanged).pending = s.pending := rfl

/-! ### refreshErrN -/

@[simp] theorem State.refreshErrN_clk (s : State) : (s.refreshErrN).clk = s.clk := rfl
@[simp] theorem State.refreshErrN_engines (s : State) : (s.refreshErrN).engines = s.engines := rfl
@[simp] theorem State.refreshErrN_queues (s : State) : (s.refreshErrN).queues = s.queues := rfl
@[simp] theorem State.refreshErrN_dups (s : State) : (s.refreshErrN).dups = s.dups := rfl
@[simp] theorem State.refreshErrN_events (s : State) : (s.refreshErrN).events = s.events := rfl
@[simp] theorem State.refreshErrN_cmpJobs (s : State) : (s.refreshErrN).cmpJobs = s.cmpJobs := rfl
@[simp] theorem State.refreshErrN_jobs (s : State) : (s.refreshErrN).jobs = s.jobs := rfl
@[simp] theorem State.refreshErrN_turns (s : State) : (s.refreshErrN).turns = s.turns := rfl
@[simp] theorem State.refreshErrN_passes (s : State) : (s.refreshErrN).passes = s.passes := rfl
@[simp] theorem State.refreshErrN_nextPass (s : State) : (s.refreshErrN).nextPass = s.nextPass := rfl
@[simp] theorem State.refreshErrN_parts (s : State) : (s.refreshErrN).parts = s.parts := rfl
@[simp] theorem State.refreshErrN_sch (s : State) : (s.refreshErrN).sch = s.sch := rfl
@[simp] theorem State.refreshErrN_convoys (s : State) : (s.refreshErrN).convoys = s.convoys := rfl
@[simp] theorem State.refreshErrN_accounts (s : State) : (s.refreshErrN).accounts = s.accounts := rfl
@[simp] theorem State.refreshErrN_mmu (s : State) : (s.refreshErrN).mmu = s.mmu := rfl
@[simp] theorem State.refreshErrN_mem (s : State) : (s.refreshErrN).mem = s.mem := rfl
@[simp] theorem State.refreshErrN_host (s : State) : (s.refreshErrN).host = s.host := rfl
@[simp] theorem State.refreshErrN_fw (s : State) : (s.refreshErrN).fw = s.fw := rfl
@[simp] theorem State.refreshErrN_pipes (s : State) : (s.refreshErrN).pipes = s.pipes := rfl
@[simp] theorem State.refreshErrN_layers (s : State) : (s.refreshErrN).layers = s.layers := rfl
@[simp] theorem State.refreshErrN_syncs (s : State) : (s.refreshErrN).syncs = s.syncs := rfl
@[simp] theorem State.refreshErrN_caravan (s : State) : (s.refreshErrN).caravan = s.caravan := rfl
@[simp] theorem State.refreshErrN_flt (s : State) : (s.refreshErrN).flt = s.flt := rfl
@[simp] theorem State.refreshErrN_logbook (s : State) : (s.refreshErrN).logbook = s.logbook := rfl
@[simp] theorem State.refreshErrN_power (s : State) : (s.refreshErrN).power = s.power := rfl
@[simp] theorem State.refreshErrN_thermal (s : State) : (s.refreshErrN).thermal = s.thermal := rfl
@[simp] theorem State.refreshErrN_mram (s : State) : (s.refreshErrN).mram = s.mram := rfl
@[simp] theorem State.refreshErrN_boot (s : State) : (s.refreshErrN).boot = s.boot := rfl
@[simp] theorem State.refreshErrN_sampleRings (s : State) : (s.refreshErrN).sampleRings = s.sampleRings := rfl
@[simp] theorem State.refreshErrN_counters (s : State) : (s.refreshErrN).counters = s.counters := rfl
@[simp] theorem State.refreshErrN_pending (s : State) : (s.refreshErrN).pending = s.pending := rfl

/-! ### startPulse -/

@[simp] theorem State.startPulse_clk (s : State) : (s.startPulse).clk = s.clk := rfl
@[simp] theorem State.startPulse_engines (s : State) : (s.startPulse).engines = s.engines := rfl
@[simp] theorem State.startPulse_queues (s : State) : (s.startPulse).queues = s.queues := rfl
@[simp] theorem State.startPulse_dups (s : State) : (s.startPulse).dups = s.dups := rfl
@[simp] theorem State.startPulse_events (s : State) : (s.startPulse).events = s.events := rfl
@[simp] theorem State.startPulse_cmpJobs (s : State) : (s.startPulse).cmpJobs = s.cmpJobs := rfl
@[simp] theorem State.startPulse_jobs (s : State) : (s.startPulse).jobs = s.jobs := rfl
@[simp] theorem State.startPulse_turns (s : State) : (s.startPulse).turns = s.turns := rfl
@[simp] theorem State.startPulse_passes (s : State) : (s.startPulse).passes = s.passes := rfl
@[simp] theorem State.startPulse_nextPass (s : State) : (s.startPulse).nextPass = s.nextPass := rfl
@[simp] theorem State.startPulse_parts (s : State) : (s.startPulse).parts = s.parts := rfl
@[simp] theorem State.startPulse_sch (s : State) : (s.startPulse).sch = s.sch := rfl
@[simp] theorem State.startPulse_convoys (s : State) : (s.startPulse).convoys = s.convoys := rfl
@[simp] theorem State.startPulse_accounts (s : State) : (s.startPulse).accounts = s.accounts := rfl
@[simp] theorem State.startPulse_mmu (s : State) : (s.startPulse).mmu = s.mmu := rfl
@[simp] theorem State.startPulse_mem (s : State) : (s.startPulse).mem = s.mem := rfl
@[simp] theorem State.startPulse_host (s : State) : (s.startPulse).host = s.host := rfl
@[simp] theorem State.startPulse_fw (s : State) : (s.startPulse).fw = s.fw := rfl
@[simp] theorem State.startPulse_pipes (s : State) : (s.startPulse).pipes = s.pipes := rfl
@[simp] theorem State.startPulse_layers (s : State) : (s.startPulse).layers = s.layers := rfl
@[simp] theorem State.startPulse_syncs (s : State) : (s.startPulse).syncs = s.syncs := rfl
@[simp] theorem State.startPulse_caravan (s : State) : (s.startPulse).caravan = s.caravan := rfl
@[simp] theorem State.startPulse_logbook (s : State) : (s.startPulse).logbook = s.logbook := rfl
@[simp] theorem State.startPulse_power (s : State) : (s.startPulse).power = s.power := rfl
@[simp] theorem State.startPulse_thermal (s : State) : (s.startPulse).thermal = s.thermal := rfl
@[simp] theorem State.startPulse_mram (s : State) : (s.startPulse).mram = s.mram := rfl
@[simp] theorem State.startPulse_boot (s : State) : (s.startPulse).boot = s.boot := rfl
@[simp] theorem State.startPulse_sampleRings (s : State) : (s.startPulse).sampleRings = s.sampleRings := rfl
@[simp] theorem State.startPulse_counters (s : State) : (s.startPulse).counters = s.counters := rfl
@[simp] theorem State.startPulse_pending (s : State) : (s.startPulse).pending = s.pending := rfl

/-! ### setEng -/

@[simp] theorem State.setEng_clk (s : State) (e : Nat) (v : Eng) : (s.setEng e v).clk = s.clk := rfl
@[simp] theorem State.setEng_pins (s : State) (e : Nat) (v : Eng) : (s.setEng e v).pins = s.pins := rfl
@[simp] theorem State.setEng_queues (s : State) (e : Nat) (v : Eng) : (s.setEng e v).queues = s.queues := rfl
@[simp] theorem State.setEng_dups (s : State) (e : Nat) (v : Eng) : (s.setEng e v).dups = s.dups := rfl
@[simp] theorem State.setEng_events (s : State) (e : Nat) (v : Eng) : (s.setEng e v).events = s.events := rfl
@[simp] theorem State.setEng_cmpJobs (s : State) (e : Nat) (v : Eng) : (s.setEng e v).cmpJobs = s.cmpJobs := rfl
@[simp] theorem State.setEng_jobs (s : State) (e : Nat) (v : Eng) : (s.setEng e v).jobs = s.jobs := rfl
@[simp] theorem State.setEng_turns (s : State) (e : Nat) (v : Eng) : (s.setEng e v).turns = s.turns := rfl
@[simp] theorem State.setEng_passes (s : State) (e : Nat) (v : Eng) : (s.setEng e v).passes = s.passes := rfl
@[simp] theorem State.setEng_nextPass (s : State) (e : Nat) (v : Eng) : (s.setEng e v).nextPass = s.nextPass := rfl
@[simp] theorem State.setEng_parts (s : State) (e : Nat) (v : Eng) : (s.setEng e v).parts = s.parts := rfl
@[simp] theorem State.setEng_sch (s : State) (e : Nat) (v : Eng) : (s.setEng e v).sch = s.sch := rfl
@[simp] theorem State.setEng_convoys (s : State) (e : Nat) (v : Eng) : (s.setEng e v).convoys = s.convoys := rfl
@[simp] theorem State.setEng_accounts (s : State) (e : Nat) (v : Eng) : (s.setEng e v).accounts = s.accounts := rfl
@[simp] theorem State.setEng_mmu (s : State) (e : Nat) (v : Eng) : (s.setEng e v).mmu = s.mmu := rfl
@[simp] theorem State.setEng_mem (s : State) (e : Nat) (v : Eng) : (s.setEng e v).mem = s.mem := rfl
@[simp] theorem State.setEng_host (s : State) (e : Nat) (v : Eng) : (s.setEng e v).host = s.host := rfl
@[simp] theorem State.setEng_fw (s : State) (e : Nat) (v : Eng) : (s.setEng e v).fw = s.fw := rfl
@[simp] theorem State.setEng_pipes (s : State) (e : Nat) (v : Eng) : (s.setEng e v).pipes = s.pipes := rfl
@[simp] theorem State.setEng_layers (s : State) (e : Nat) (v : Eng) : (s.setEng e v).layers = s.layers := rfl
@[simp] theorem State.setEng_syncs (s : State) (e : Nat) (v : Eng) : (s.setEng e v).syncs = s.syncs := rfl
@[simp] theorem State.setEng_caravan (s : State) (e : Nat) (v : Eng) : (s.setEng e v).caravan = s.caravan := rfl
@[simp] theorem State.setEng_flt (s : State) (e : Nat) (v : Eng) : (s.setEng e v).flt = s.flt := rfl
@[simp] theorem State.setEng_logbook (s : State) (e : Nat) (v : Eng) : (s.setEng e v).logbook = s.logbook := rfl
@[simp] theorem State.setEng_power (s : State) (e : Nat) (v : Eng) : (s.setEng e v).power = s.power := rfl
@[simp] theorem State.setEng_thermal (s : State) (e : Nat) (v : Eng) : (s.setEng e v).thermal = s.thermal := rfl
@[simp] theorem State.setEng_mram (s : State) (e : Nat) (v : Eng) : (s.setEng e v).mram = s.mram := rfl
@[simp] theorem State.setEng_boot (s : State) (e : Nat) (v : Eng) : (s.setEng e v).boot = s.boot := rfl
@[simp] theorem State.setEng_sampleRings (s : State) (e : Nat) (v : Eng) :
    (s.setEng e v).sampleRings = s.sampleRings := rfl
@[simp] theorem State.setEng_counters (s : State) (e : Nat) (v : Eng) : (s.setEng e v).counters = s.counters := rfl
@[simp] theorem State.setEng_pending (s : State) (e : Nat) (v : Eng) : (s.setEng e v).pending = s.pending := rfl

/-! ### modEng -/

@[simp] theorem State.modEng_clk (s : State) (e : Nat) (f : Eng → Eng) : (s.modEng e f).clk = s.clk := rfl
@[simp] theorem State.modEng_pins (s : State) (e : Nat) (f : Eng → Eng) : (s.modEng e f).pins = s.pins := rfl
@[simp] theorem State.modEng_queues (s : State) (e : Nat) (f : Eng → Eng) : (s.modEng e f).queues = s.queues := rfl
@[simp] theorem State.modEng_dups (s : State) (e : Nat) (f : Eng → Eng) : (s.modEng e f).dups = s.dups := rfl
@[simp] theorem State.modEng_events (s : State) (e : Nat) (f : Eng → Eng) : (s.modEng e f).events = s.events := rfl
@[simp] theorem State.modEng_cmpJobs (s : State) (e : Nat) (f : Eng → Eng) : (s.modEng e f).cmpJobs = s.cmpJobs := rfl
@[simp] theorem State.modEng_jobs (s : State) (e : Nat) (f : Eng → Eng) : (s.modEng e f).jobs = s.jobs := rfl
@[simp] theorem State.modEng_turns (s : State) (e : Nat) (f : Eng → Eng) : (s.modEng e f).turns = s.turns := rfl
@[simp] theorem State.modEng_passes (s : State) (e : Nat) (f : Eng → Eng) : (s.modEng e f).passes = s.passes := rfl
@[simp] theorem State.modEng_nextPass (s : State) (e : Nat) (f : Eng → Eng) :
    (s.modEng e f).nextPass = s.nextPass := rfl
@[simp] theorem State.modEng_parts (s : State) (e : Nat) (f : Eng → Eng) : (s.modEng e f).parts = s.parts := rfl
@[simp] theorem State.modEng_sch (s : State) (e : Nat) (f : Eng → Eng) : (s.modEng e f).sch = s.sch := rfl
@[simp] theorem State.modEng_convoys (s : State) (e : Nat) (f : Eng → Eng) : (s.modEng e f).convoys = s.convoys := rfl
@[simp] theorem State.modEng_accounts (s : State) (e : Nat) (f : Eng → Eng) :
    (s.modEng e f).accounts = s.accounts := rfl
@[simp] theorem State.modEng_mmu (s : State) (e : Nat) (f : Eng → Eng) : (s.modEng e f).mmu = s.mmu := rfl
@[simp] theorem State.modEng_mem (s : State) (e : Nat) (f : Eng → Eng) : (s.modEng e f).mem = s.mem := rfl
@[simp] theorem State.modEng_host (s : State) (e : Nat) (f : Eng → Eng) : (s.modEng e f).host = s.host := rfl
@[simp] theorem State.modEng_fw (s : State) (e : Nat) (f : Eng → Eng) : (s.modEng e f).fw = s.fw := rfl
@[simp] theorem State.modEng_pipes (s : State) (e : Nat) (f : Eng → Eng) : (s.modEng e f).pipes = s.pipes := rfl
@[simp] theorem State.modEng_layers (s : State) (e : Nat) (f : Eng → Eng) : (s.modEng e f).layers = s.layers := rfl
@[simp] theorem State.modEng_syncs (s : State) (e : Nat) (f : Eng → Eng) : (s.modEng e f).syncs = s.syncs := rfl
@[simp] theorem State.modEng_caravan (s : State) (e : Nat) (f : Eng → Eng) : (s.modEng e f).caravan = s.caravan := rfl
@[simp] theorem State.modEng_flt (s : State) (e : Nat) (f : Eng → Eng) : (s.modEng e f).flt = s.flt := rfl
@[simp] theorem State.modEng_logbook (s : State) (e : Nat) (f : Eng → Eng) : (s.modEng e f).logbook = s.logbook := rfl
@[simp] theorem State.modEng_power (s : State) (e : Nat) (f : Eng → Eng) : (s.modEng e f).power = s.power := rfl
@[simp] theorem State.modEng_thermal (s : State) (e : Nat) (f : Eng → Eng) : (s.modEng e f).thermal = s.thermal := rfl
@[simp] theorem State.modEng_mram (s : State) (e : Nat) (f : Eng → Eng) : (s.modEng e f).mram = s.mram := rfl
@[simp] theorem State.modEng_boot (s : State) (e : Nat) (f : Eng → Eng) : (s.modEng e f).boot = s.boot := rfl
@[simp] theorem State.modEng_sampleRings (s : State) (e : Nat) (f : Eng → Eng) :
    (s.modEng e f).sampleRings = s.sampleRings := rfl
@[simp] theorem State.modEng_counters (s : State) (e : Nat) (f : Eng → Eng) :
    (s.modEng e f).counters = s.counters := rfl
@[simp] theorem State.modEng_pending (s : State) (e : Nat) (f : Eng → Eng) : (s.modEng e f).pending = s.pending := rfl

/-! ### setQueue -/

@[simp] theorem State.setQueue_clk (s : State) (q : Nat) (v : Queue) : (s.setQueue q v).clk = s.clk := rfl
@[simp] theorem State.setQueue_pins (s : State) (q : Nat) (v : Queue) : (s.setQueue q v).pins = s.pins := rfl
@[simp] theorem State.setQueue_engines (s : State) (q : Nat) (v : Queue) : (s.setQueue q v).engines = s.engines := rfl
@[simp] theorem State.setQueue_dups (s : State) (q : Nat) (v : Queue) : (s.setQueue q v).dups = s.dups := rfl
@[simp] theorem State.setQueue_events (s : State) (q : Nat) (v : Queue) : (s.setQueue q v).events = s.events := rfl
@[simp] theorem State.setQueue_cmpJobs (s : State) (q : Nat) (v : Queue) : (s.setQueue q v).cmpJobs = s.cmpJobs := rfl
@[simp] theorem State.setQueue_jobs (s : State) (q : Nat) (v : Queue) : (s.setQueue q v).jobs = s.jobs := rfl
@[simp] theorem State.setQueue_turns (s : State) (q : Nat) (v : Queue) : (s.setQueue q v).turns = s.turns := rfl
@[simp] theorem State.setQueue_passes (s : State) (q : Nat) (v : Queue) : (s.setQueue q v).passes = s.passes := rfl
@[simp] theorem State.setQueue_nextPass (s : State) (q : Nat) (v : Queue) :
    (s.setQueue q v).nextPass = s.nextPass := rfl
@[simp] theorem State.setQueue_parts (s : State) (q : Nat) (v : Queue) : (s.setQueue q v).parts = s.parts := rfl
@[simp] theorem State.setQueue_sch (s : State) (q : Nat) (v : Queue) : (s.setQueue q v).sch = s.sch := rfl
@[simp] theorem State.setQueue_convoys (s : State) (q : Nat) (v : Queue) : (s.setQueue q v).convoys = s.convoys := rfl
@[simp] theorem State.setQueue_accounts (s : State) (q : Nat) (v : Queue) :
    (s.setQueue q v).accounts = s.accounts := rfl
@[simp] theorem State.setQueue_mmu (s : State) (q : Nat) (v : Queue) : (s.setQueue q v).mmu = s.mmu := rfl
@[simp] theorem State.setQueue_mem (s : State) (q : Nat) (v : Queue) : (s.setQueue q v).mem = s.mem := rfl
@[simp] theorem State.setQueue_host (s : State) (q : Nat) (v : Queue) : (s.setQueue q v).host = s.host := rfl
@[simp] theorem State.setQueue_fw (s : State) (q : Nat) (v : Queue) : (s.setQueue q v).fw = s.fw := rfl
@[simp] theorem State.setQueue_pipes (s : State) (q : Nat) (v : Queue) : (s.setQueue q v).pipes = s.pipes := rfl
@[simp] theorem State.setQueue_layers (s : State) (q : Nat) (v : Queue) : (s.setQueue q v).layers = s.layers := rfl
@[simp] theorem State.setQueue_syncs (s : State) (q : Nat) (v : Queue) : (s.setQueue q v).syncs = s.syncs := rfl
@[simp] theorem State.setQueue_caravan (s : State) (q : Nat) (v : Queue) : (s.setQueue q v).caravan = s.caravan := rfl
@[simp] theorem State.setQueue_flt (s : State) (q : Nat) (v : Queue) : (s.setQueue q v).flt = s.flt := rfl
@[simp] theorem State.setQueue_logbook (s : State) (q : Nat) (v : Queue) : (s.setQueue q v).logbook = s.logbook := rfl
@[simp] theorem State.setQueue_power (s : State) (q : Nat) (v : Queue) : (s.setQueue q v).power = s.power := rfl
@[simp] theorem State.setQueue_thermal (s : State) (q : Nat) (v : Queue) : (s.setQueue q v).thermal = s.thermal := rfl
@[simp] theorem State.setQueue_mram (s : State) (q : Nat) (v : Queue) : (s.setQueue q v).mram = s.mram := rfl
@[simp] theorem State.setQueue_boot (s : State) (q : Nat) (v : Queue) : (s.setQueue q v).boot = s.boot := rfl
@[simp] theorem State.setQueue_sampleRings (s : State) (q : Nat) (v : Queue) :
    (s.setQueue q v).sampleRings = s.sampleRings := rfl
@[simp] theorem State.setQueue_counters (s : State) (q : Nat) (v : Queue) :
    (s.setQueue q v).counters = s.counters := rfl
@[simp] theorem State.setQueue_pending (s : State) (q : Nat) (v : Queue) : (s.setQueue q v).pending = s.pending := rfl

/-! ### modQueue -/

@[simp] theorem State.modQueue_clk (s : State) (q : Nat) (f : Queue → Queue) : (s.modQueue q f).clk = s.clk := rfl
@[simp] theorem State.modQueue_pins (s : State) (q : Nat) (f : Queue → Queue) : (s.modQueue q f).pins = s.pins := rfl
@[simp] theorem State.modQueue_engines (s : State) (q : Nat) (f : Queue → Queue) :
    (s.modQueue q f).engines = s.engines := rfl
@[simp] theorem State.modQueue_dups (s : State) (q : Nat) (f : Queue → Queue) : (s.modQueue q f).dups = s.dups := rfl
@[simp] theorem State.modQueue_events (s : State) (q : Nat) (f : Queue → Queue) :
    (s.modQueue q f).events = s.events := rfl
@[simp] theorem State.modQueue_cmpJobs (s : State) (q : Nat) (f : Queue → Queue) :
    (s.modQueue q f).cmpJobs = s.cmpJobs := rfl
@[simp] theorem State.modQueue_jobs (s : State) (q : Nat) (f : Queue → Queue) : (s.modQueue q f).jobs = s.jobs := rfl
@[simp] theorem State.modQueue_turns (s : State) (q : Nat) (f : Queue → Queue) : (s.modQueue q f).turns = s.turns := rfl
@[simp] theorem State.modQueue_passes (s : State) (q : Nat) (f : Queue → Queue) :
    (s.modQueue q f).passes = s.passes := rfl
@[simp] theorem State.modQueue_nextPass (s : State) (q : Nat) (f : Queue → Queue) :
    (s.modQueue q f).nextPass = s.nextPass := rfl
@[simp] theorem State.modQueue_parts (s : State) (q : Nat) (f : Queue → Queue) : (s.modQueue q f).parts = s.parts := rfl
@[simp] theorem State.modQueue_sch (s : State) (q : Nat) (f : Queue → Queue) : (s.modQueue q f).sch = s.sch := rfl
@[simp] theorem State.modQueue_convoys (s : State) (q : Nat) (f : Queue → Queue) :
    (s.modQueue q f).convoys = s.convoys := rfl
@[simp] theorem State.modQueue_accounts (s : State) (q : Nat) (f : Queue → Queue) :
    (s.modQueue q f).accounts = s.accounts := rfl
@[simp] theorem State.modQueue_mmu (s : State) (q : Nat) (f : Queue → Queue) : (s.modQueue q f).mmu = s.mmu := rfl
@[simp] theorem State.modQueue_mem (s : State) (q : Nat) (f : Queue → Queue) : (s.modQueue q f).mem = s.mem := rfl
@[simp] theorem State.modQueue_host (s : State) (q : Nat) (f : Queue → Queue) : (s.modQueue q f).host = s.host := rfl
@[simp] theorem State.modQueue_fw (s : State) (q : Nat) (f : Queue → Queue) : (s.modQueue q f).fw = s.fw := rfl
@[simp] theorem State.modQueue_pipes (s : State) (q : Nat) (f : Queue → Queue) : (s.modQueue q f).pipes = s.pipes := rfl
@[simp] theorem State.modQueue_layers (s : State) (q : Nat) (f : Queue → Queue) :
    (s.modQueue q f).layers = s.layers := rfl
@[simp] theorem State.modQueue_syncs (s : State) (q : Nat) (f : Queue → Queue) : (s.modQueue q f).syncs = s.syncs := rfl
@[simp] theorem State.modQueue_caravan (s : State) (q : Nat) (f : Queue → Queue) :
    (s.modQueue q f).caravan = s.caravan := rfl
@[simp] theorem State.modQueue_flt (s : State) (q : Nat) (f : Queue → Queue) : (s.modQueue q f).flt = s.flt := rfl
@[simp] theorem State.modQueue_logbook (s : State) (q : Nat) (f : Queue → Queue) :
    (s.modQueue q f).logbook = s.logbook := rfl
@[simp] theorem State.modQueue_power (s : State) (q : Nat) (f : Queue → Queue) : (s.modQueue q f).power = s.power := rfl
@[simp] theorem State.modQueue_thermal (s : State) (q : Nat) (f : Queue → Queue) :
    (s.modQueue q f).thermal = s.thermal := rfl
@[simp] theorem State.modQueue_mram (s : State) (q : Nat) (f : Queue → Queue) : (s.modQueue q f).mram = s.mram := rfl
@[simp] theorem State.modQueue_boot (s : State) (q : Nat) (f : Queue → Queue) : (s.modQueue q f).boot = s.boot := rfl
@[simp] theorem State.modQueue_sampleRings (s : State) (q : Nat) (f : Queue → Queue) :
    (s.modQueue q f).sampleRings = s.sampleRings := rfl
@[simp] theorem State.modQueue_counters (s : State) (q : Nat) (f : Queue → Queue) :
    (s.modQueue q f).counters = s.counters := rfl
@[simp] theorem State.modQueue_pending (s : State) (q : Nat) (f : Queue → Queue) :
    (s.modQueue q f).pending = s.pending := rfl

/-! ### setStr -/

@[simp] theorem State.setStr_clk (s : State) (e place : Nat) (st : Str) : (s.setStr e place st).clk = s.clk := rfl
@[simp] theorem State.setStr_pins (s : State) (e place : Nat) (st : Str) : (s.setStr e place st).pins = s.pins := rfl
@[simp] theorem State.setStr_queues (s : State) (e place : Nat) (st : Str) :
    (s.setStr e place st).queues = s.queues := rfl
@[simp] theorem State.setStr_dups (s : State) (e place : Nat) (st : Str) : (s.setStr e place st).dups = s.dups := rfl
@[simp] theorem State.setStr_events (s : State) (e place : Nat) (st : Str) :
    (s.setStr e place st).events = s.events := rfl
@[simp] theorem State.setStr_cmpJobs (s : State) (e place : Nat) (st : Str) :
    (s.setStr e place st).cmpJobs = s.cmpJobs := rfl
@[simp] theorem State.setStr_jobs (s : State) (e place : Nat) (st : Str) : (s.setStr e place st).jobs = s.jobs := rfl
@[simp] theorem State.setStr_turns (s : State) (e place : Nat) (st : Str) : (s.setStr e place st).turns = s.turns := rfl
@[simp] theorem State.setStr_passes (s : State) (e place : Nat) (st : Str) :
    (s.setStr e place st).passes = s.passes := rfl
@[simp] theorem State.setStr_nextPass (s : State) (e place : Nat) (st : Str) :
    (s.setStr e place st).nextPass = s.nextPass := rfl
@[simp] theorem State.setStr_parts (s : State) (e place : Nat) (st : Str) : (s.setStr e place st).parts = s.parts := rfl
@[simp] theorem State.setStr_sch (s : State) (e place : Nat) (st : Str) : (s.setStr e place st).sch = s.sch := rfl
@[simp] theorem State.setStr_convoys (s : State) (e place : Nat) (st : Str) :
    (s.setStr e place st).convoys = s.convoys := rfl
@[simp] theorem State.setStr_accounts (s : State) (e place : Nat) (st : Str) :
    (s.setStr e place st).accounts = s.accounts := rfl
@[simp] theorem State.setStr_mmu (s : State) (e place : Nat) (st : Str) : (s.setStr e place st).mmu = s.mmu := rfl
@[simp] theorem State.setStr_mem (s : State) (e place : Nat) (st : Str) : (s.setStr e place st).mem = s.mem := rfl
@[simp] theorem State.setStr_host (s : State) (e place : Nat) (st : Str) : (s.setStr e place st).host = s.host := rfl
@[simp] theorem State.setStr_fw (s : State) (e place : Nat) (st : Str) : (s.setStr e place st).fw = s.fw := rfl
@[simp] theorem State.setStr_pipes (s : State) (e place : Nat) (st : Str) : (s.setStr e place st).pipes = s.pipes := rfl
@[simp] theorem State.setStr_layers (s : State) (e place : Nat) (st : Str) :
    (s.setStr e place st).layers = s.layers := rfl
@[simp] theorem State.setStr_syncs (s : State) (e place : Nat) (st : Str) : (s.setStr e place st).syncs = s.syncs := rfl
@[simp] theorem State.setStr_caravan (s : State) (e place : Nat) (st : Str) :
    (s.setStr e place st).caravan = s.caravan := rfl
@[simp] theorem State.setStr_flt (s : State) (e place : Nat) (st : Str) : (s.setStr e place st).flt = s.flt := rfl
@[simp] theorem State.setStr_logbook (s : State) (e place : Nat) (st : Str) :
    (s.setStr e place st).logbook = s.logbook := rfl
@[simp] theorem State.setStr_power (s : State) (e place : Nat) (st : Str) : (s.setStr e place st).power = s.power := rfl
@[simp] theorem State.setStr_thermal (s : State) (e place : Nat) (st : Str) :
    (s.setStr e place st).thermal = s.thermal := rfl
@[simp] theorem State.setStr_mram (s : State) (e place : Nat) (st : Str) : (s.setStr e place st).mram = s.mram := rfl
@[simp] theorem State.setStr_boot (s : State) (e place : Nat) (st : Str) : (s.setStr e place st).boot = s.boot := rfl
@[simp] theorem State.setStr_sampleRings (s : State) (e place : Nat) (st : Str) :
    (s.setStr e place st).sampleRings = s.sampleRings := rfl
@[simp] theorem State.setStr_counters (s : State) (e place : Nat) (st : Str) :
    (s.setStr e place st).counters = s.counters := rfl
@[simp] theorem State.setStr_pending (s : State) (e place : Nat) (st : Str) :
    (s.setStr e place st).pending = s.pending := rfl

/-! ### modStr -/

@[simp] theorem State.modStr_clk (s : State) (e place : Nat) (f : Str → Str) : (s.modStr e place f).clk = s.clk := rfl
@[simp] theorem State.modStr_pins (s : State) (e place : Nat) (f : Str → Str) :
    (s.modStr e place f).pins = s.pins := rfl
@[simp] theorem State.modStr_queues (s : State) (e place : Nat) (f : Str → Str) :
    (s.modStr e place f).queues = s.queues := rfl
@[simp] theorem State.modStr_dups (s : State) (e place : Nat) (f : Str → Str) :
    (s.modStr e place f).dups = s.dups := rfl
@[simp] theorem State.modStr_events (s : State) (e place : Nat) (f : Str → Str) :
    (s.modStr e place f).events = s.events := rfl
@[simp] theorem State.modStr_cmpJobs (s : State) (e place : Nat) (f : Str → Str) :
    (s.modStr e place f).cmpJobs = s.cmpJobs := rfl
@[simp] theorem State.modStr_jobs (s : State) (e place : Nat) (f : Str → Str) :
    (s.modStr e place f).jobs = s.jobs := rfl
@[simp] theorem State.modStr_turns (s : State) (e place : Nat) (f : Str → Str) :
    (s.modStr e place f).turns = s.turns := rfl
@[simp] theorem State.modStr_passes (s : State) (e place : Nat) (f : Str → Str) :
    (s.modStr e place f).passes = s.passes := rfl
@[simp] theorem State.modStr_nextPass (s : State) (e place : Nat) (f : Str → Str) :
    (s.modStr e place f).nextPass = s.nextPass := rfl
@[simp] theorem State.modStr_parts (s : State) (e place : Nat) (f : Str → Str) :
    (s.modStr e place f).parts = s.parts := rfl
@[simp] theorem State.modStr_sch (s : State) (e place : Nat) (f : Str → Str) : (s.modStr e place f).sch = s.sch := rfl
@[simp] theorem State.modStr_convoys (s : State) (e place : Nat) (f : Str → Str) :
    (s.modStr e place f).convoys = s.convoys := rfl
@[simp] theorem State.modStr_accounts (s : State) (e place : Nat) (f : Str → Str) :
    (s.modStr e place f).accounts = s.accounts := rfl
@[simp] theorem State.modStr_mmu (s : State) (e place : Nat) (f : Str → Str) : (s.modStr e place f).mmu = s.mmu := rfl
@[simp] theorem State.modStr_mem (s : State) (e place : Nat) (f : Str → Str) : (s.modStr e place f).mem = s.mem := rfl
@[simp] theorem State.modStr_host (s : State) (e place : Nat) (f : Str → Str) :
    (s.modStr e place f).host = s.host := rfl
@[simp] theorem State.modStr_fw (s : State) (e place : Nat) (f : Str → Str) : (s.modStr e place f).fw = s.fw := rfl
@[simp] theorem State.modStr_pipes (s : State) (e place : Nat) (f : Str → Str) :
    (s.modStr e place f).pipes = s.pipes := rfl
@[simp] theorem State.modStr_layers (s : State) (e place : Nat) (f : Str → Str) :
    (s.modStr e place f).layers = s.layers := rfl
@[simp] theorem State.modStr_syncs (s : State) (e place : Nat) (f : Str → Str) :
    (s.modStr e place f).syncs = s.syncs := rfl
@[simp] theorem State.modStr_caravan (s : State) (e place : Nat) (f : Str → Str) :
    (s.modStr e place f).caravan = s.caravan := rfl
@[simp] theorem State.modStr_flt (s : State) (e place : Nat) (f : Str → Str) : (s.modStr e place f).flt = s.flt := rfl
@[simp] theorem State.modStr_logbook (s : State) (e place : Nat) (f : Str → Str) :
    (s.modStr e place f).logbook = s.logbook := rfl
@[simp] theorem State.modStr_power (s : State) (e place : Nat) (f : Str → Str) :
    (s.modStr e place f).power = s.power := rfl
@[simp] theorem State.modStr_thermal (s : State) (e place : Nat) (f : Str → Str) :
    (s.modStr e place f).thermal = s.thermal := rfl
@[simp] theorem State.modStr_mram (s : State) (e place : Nat) (f : Str → Str) :
    (s.modStr e place f).mram = s.mram := rfl
@[simp] theorem State.modStr_boot (s : State) (e place : Nat) (f : Str → Str) :
    (s.modStr e place f).boot = s.boot := rfl
@[simp] theorem State.modStr_sampleRings (s : State) (e place : Nat) (f : Str → Str) :
    (s.modStr e place f).sampleRings = s.sampleRings := rfl
@[simp] theorem State.modStr_counters (s : State) (e place : Nat) (f : Str → Str) :
    (s.modStr e place f).counters = s.counters := rfl
@[simp] theorem State.modStr_pending (s : State) (e place : Nat) (f : Str → Str) :
    (s.modStr e place f).pending = s.pending := rfl

/-! ### setWg -/

@[simp] theorem State.setWg_clk (s : State) (e wg : Nat) (g : Wg) : (s.setWg e wg g).clk = s.clk := rfl
@[simp] theorem State.setWg_pins (s : State) (e wg : Nat) (g : Wg) : (s.setWg e wg g).pins = s.pins := rfl
@[simp] theorem State.setWg_queues (s : State) (e wg : Nat) (g : Wg) : (s.setWg e wg g).queues = s.queues := rfl
@[simp] theorem State.setWg_dups (s : State) (e wg : Nat) (g : Wg) : (s.setWg e wg g).dups = s.dups := rfl
@[simp] theorem State.setWg_events (s : State) (e wg : Nat) (g : Wg) : (s.setWg e wg g).events = s.events := rfl
@[simp] theorem State.setWg_cmpJobs (s : State) (e wg : Nat) (g : Wg) : (s.setWg e wg g).cmpJobs = s.cmpJobs := rfl
@[simp] theorem State.setWg_jobs (s : State) (e wg : Nat) (g : Wg) : (s.setWg e wg g).jobs = s.jobs := rfl
@[simp] theorem State.setWg_turns (s : State) (e wg : Nat) (g : Wg) : (s.setWg e wg g).turns = s.turns := rfl
@[simp] theorem State.setWg_passes (s : State) (e wg : Nat) (g : Wg) : (s.setWg e wg g).passes = s.passes := rfl
@[simp] theorem State.setWg_nextPass (s : State) (e wg : Nat) (g : Wg) : (s.setWg e wg g).nextPass = s.nextPass := rfl
@[simp] theorem State.setWg_parts (s : State) (e wg : Nat) (g : Wg) : (s.setWg e wg g).parts = s.parts := rfl
@[simp] theorem State.setWg_sch (s : State) (e wg : Nat) (g : Wg) : (s.setWg e wg g).sch = s.sch := rfl
@[simp] theorem State.setWg_convoys (s : State) (e wg : Nat) (g : Wg) : (s.setWg e wg g).convoys = s.convoys := rfl
@[simp] theorem State.setWg_accounts (s : State) (e wg : Nat) (g : Wg) : (s.setWg e wg g).accounts = s.accounts := rfl
@[simp] theorem State.setWg_mmu (s : State) (e wg : Nat) (g : Wg) : (s.setWg e wg g).mmu = s.mmu := rfl
@[simp] theorem State.setWg_mem (s : State) (e wg : Nat) (g : Wg) : (s.setWg e wg g).mem = s.mem := rfl
@[simp] theorem State.setWg_host (s : State) (e wg : Nat) (g : Wg) : (s.setWg e wg g).host = s.host := rfl
@[simp] theorem State.setWg_fw (s : State) (e wg : Nat) (g : Wg) : (s.setWg e wg g).fw = s.fw := rfl
@[simp] theorem State.setWg_pipes (s : State) (e wg : Nat) (g : Wg) : (s.setWg e wg g).pipes = s.pipes := rfl
@[simp] theorem State.setWg_layers (s : State) (e wg : Nat) (g : Wg) : (s.setWg e wg g).layers = s.layers := rfl
@[simp] theorem State.setWg_syncs (s : State) (e wg : Nat) (g : Wg) : (s.setWg e wg g).syncs = s.syncs := rfl
@[simp] theorem State.setWg_caravan (s : State) (e wg : Nat) (g : Wg) : (s.setWg e wg g).caravan = s.caravan := rfl
@[simp] theorem State.setWg_flt (s : State) (e wg : Nat) (g : Wg) : (s.setWg e wg g).flt = s.flt := rfl
@[simp] theorem State.setWg_logbook (s : State) (e wg : Nat) (g : Wg) : (s.setWg e wg g).logbook = s.logbook := rfl
@[simp] theorem State.setWg_power (s : State) (e wg : Nat) (g : Wg) : (s.setWg e wg g).power = s.power := rfl
@[simp] theorem State.setWg_thermal (s : State) (e wg : Nat) (g : Wg) : (s.setWg e wg g).thermal = s.thermal := rfl
@[simp] theorem State.setWg_mram (s : State) (e wg : Nat) (g : Wg) : (s.setWg e wg g).mram = s.mram := rfl
@[simp] theorem State.setWg_boot (s : State) (e wg : Nat) (g : Wg) : (s.setWg e wg g).boot = s.boot := rfl
@[simp] theorem State.setWg_sampleRings (s : State) (e wg : Nat) (g : Wg) :
    (s.setWg e wg g).sampleRings = s.sampleRings := rfl
@[simp] theorem State.setWg_counters (s : State) (e wg : Nat) (g : Wg) : (s.setWg e wg g).counters = s.counters := rfl
@[simp] theorem State.setWg_pending (s : State) (e wg : Nat) (g : Wg) : (s.setWg e wg g).pending = s.pending := rfl

/-! ### modCmd -/

@[simp] theorem State.modCmd_clk (s : State) (q cmd : Nat) (f : Cmd → Cmd) : (s.modCmd q cmd f).clk = s.clk := rfl
@[simp] theorem State.modCmd_pins (s : State) (q cmd : Nat) (f : Cmd → Cmd) : (s.modCmd q cmd f).pins = s.pins := rfl
@[simp] theorem State.modCmd_engines (s : State) (q cmd : Nat) (f : Cmd → Cmd) :
    (s.modCmd q cmd f).engines = s.engines := rfl
@[simp] theorem State.modCmd_dups (s : State) (q cmd : Nat) (f : Cmd → Cmd) : (s.modCmd q cmd f).dups = s.dups := rfl
@[simp] theorem State.modCmd_events (s : State) (q cmd : Nat) (f : Cmd → Cmd) :
    (s.modCmd q cmd f).events = s.events := rfl
@[simp] theorem State.modCmd_cmpJobs (s : State) (q cmd : Nat) (f : Cmd → Cmd) :
    (s.modCmd q cmd f).cmpJobs = s.cmpJobs := rfl
@[simp] theorem State.modCmd_jobs (s : State) (q cmd : Nat) (f : Cmd → Cmd) : (s.modCmd q cmd f).jobs = s.jobs := rfl
@[simp] theorem State.modCmd_turns (s : State) (q cmd : Nat) (f : Cmd → Cmd) : (s.modCmd q cmd f).turns = s.turns := rfl
@[simp] theorem State.modCmd_passes (s : State) (q cmd : Nat) (f : Cmd → Cmd) :
    (s.modCmd q cmd f).passes = s.passes := rfl
@[simp] theorem State.modCmd_nextPass (s : State) (q cmd : Nat) (f : Cmd → Cmd) :
    (s.modCmd q cmd f).nextPass = s.nextPass := rfl
@[simp] theorem State.modCmd_parts (s : State) (q cmd : Nat) (f : Cmd → Cmd) : (s.modCmd q cmd f).parts = s.parts := rfl
@[simp] theorem State.modCmd_sch (s : State) (q cmd : Nat) (f : Cmd → Cmd) : (s.modCmd q cmd f).sch = s.sch := rfl
@[simp] theorem State.modCmd_convoys (s : State) (q cmd : Nat) (f : Cmd → Cmd) :
    (s.modCmd q cmd f).convoys = s.convoys := rfl
@[simp] theorem State.modCmd_accounts (s : State) (q cmd : Nat) (f : Cmd → Cmd) :
    (s.modCmd q cmd f).accounts = s.accounts := rfl
@[simp] theorem State.modCmd_mmu (s : State) (q cmd : Nat) (f : Cmd → Cmd) : (s.modCmd q cmd f).mmu = s.mmu := rfl
@[simp] theorem State.modCmd_mem (s : State) (q cmd : Nat) (f : Cmd → Cmd) : (s.modCmd q cmd f).mem = s.mem := rfl
@[simp] theorem State.modCmd_host (s : State) (q cmd : Nat) (f : Cmd → Cmd) : (s.modCmd q cmd f).host = s.host := rfl
@[simp] theorem State.modCmd_fw (s : State) (q cmd : Nat) (f : Cmd → Cmd) : (s.modCmd q cmd f).fw = s.fw := rfl
@[simp] theorem State.modCmd_pipes (s : State) (q cmd : Nat) (f : Cmd → Cmd) : (s.modCmd q cmd f).pipes = s.pipes := rfl
@[simp] theorem State.modCmd_layers (s : State) (q cmd : Nat) (f : Cmd → Cmd) :
    (s.modCmd q cmd f).layers = s.layers := rfl
@[simp] theorem State.modCmd_syncs (s : State) (q cmd : Nat) (f : Cmd → Cmd) : (s.modCmd q cmd f).syncs = s.syncs := rfl
@[simp] theorem State.modCmd_caravan (s : State) (q cmd : Nat) (f : Cmd → Cmd) :
    (s.modCmd q cmd f).caravan = s.caravan := rfl
@[simp] theorem State.modCmd_flt (s : State) (q cmd : Nat) (f : Cmd → Cmd) : (s.modCmd q cmd f).flt = s.flt := rfl
@[simp] theorem State.modCmd_logbook (s : State) (q cmd : Nat) (f : Cmd → Cmd) :
    (s.modCmd q cmd f).logbook = s.logbook := rfl
@[simp] theorem State.modCmd_power (s : State) (q cmd : Nat) (f : Cmd → Cmd) : (s.modCmd q cmd f).power = s.power := rfl
@[simp] theorem State.modCmd_thermal (s : State) (q cmd : Nat) (f : Cmd → Cmd) :
    (s.modCmd q cmd f).thermal = s.thermal := rfl
@[simp] theorem State.modCmd_mram (s : State) (q cmd : Nat) (f : Cmd → Cmd) : (s.modCmd q cmd f).mram = s.mram := rfl
@[simp] theorem State.modCmd_boot (s : State) (q cmd : Nat) (f : Cmd → Cmd) : (s.modCmd q cmd f).boot = s.boot := rfl
@[simp] theorem State.modCmd_sampleRings (s : State) (q cmd : Nat) (f : Cmd → Cmd) :
    (s.modCmd q cmd f).sampleRings = s.sampleRings := rfl
@[simp] theorem State.modCmd_counters (s : State) (q cmd : Nat) (f : Cmd → Cmd) :
    (s.modCmd q cmd f).counters = s.counters := rfl
@[simp] theorem State.modCmd_pending (s : State) (q cmd : Nat) (f : Cmd → Cmd) :
    (s.modCmd q cmd f).pending = s.pending := rfl

/-! ### setMbx -/

@[simp] theorem State.setMbx_clk (s : State) (n : Nat) (p : MbxPair) : (s.setMbx n p).clk = s.clk := rfl
@[simp] theorem State.setMbx_pins (s : State) (n : Nat) (p : MbxPair) : (s.setMbx n p).pins = s.pins := rfl
@[simp] theorem State.setMbx_engines (s : State) (n : Nat) (p : MbxPair) : (s.setMbx n p).engines = s.engines := rfl
@[simp] theorem State.setMbx_queues (s : State) (n : Nat) (p : MbxPair) : (s.setMbx n p).queues = s.queues := rfl
@[simp] theorem State.setMbx_dups (s : State) (n : Nat) (p : MbxPair) : (s.setMbx n p).dups = s.dups := rfl
@[simp] theorem State.setMbx_events (s : State) (n : Nat) (p : MbxPair) : (s.setMbx n p).events = s.events := rfl
@[simp] theorem State.setMbx_cmpJobs (s : State) (n : Nat) (p : MbxPair) : (s.setMbx n p).cmpJobs = s.cmpJobs := rfl
@[simp] theorem State.setMbx_jobs (s : State) (n : Nat) (p : MbxPair) : (s.setMbx n p).jobs = s.jobs := rfl
@[simp] theorem State.setMbx_turns (s : State) (n : Nat) (p : MbxPair) : (s.setMbx n p).turns = s.turns := rfl
@[simp] theorem State.setMbx_passes (s : State) (n : Nat) (p : MbxPair) : (s.setMbx n p).passes = s.passes := rfl
@[simp] theorem State.setMbx_nextPass (s : State) (n : Nat) (p : MbxPair) : (s.setMbx n p).nextPass = s.nextPass := rfl
@[simp] theorem State.setMbx_parts (s : State) (n : Nat) (p : MbxPair) : (s.setMbx n p).parts = s.parts := rfl
@[simp] theorem State.setMbx_sch (s : State) (n : Nat) (p : MbxPair) : (s.setMbx n p).sch = s.sch := rfl
@[simp] theorem State.setMbx_convoys (s : State) (n : Nat) (p : MbxPair) : (s.setMbx n p).convoys = s.convoys := rfl
@[simp] theorem State.setMbx_accounts (s : State) (n : Nat) (p : MbxPair) : (s.setMbx n p).accounts = s.accounts := rfl
@[simp] theorem State.setMbx_mmu (s : State) (n : Nat) (p : MbxPair) : (s.setMbx n p).mmu = s.mmu := rfl
@[simp] theorem State.setMbx_mem (s : State) (n : Nat) (p : MbxPair) : (s.setMbx n p).mem = s.mem := rfl
@[simp] theorem State.setMbx_fw (s : State) (n : Nat) (p : MbxPair) : (s.setMbx n p).fw = s.fw := rfl
@[simp] theorem State.setMbx_pipes (s : State) (n : Nat) (p : MbxPair) : (s.setMbx n p).pipes = s.pipes := rfl
@[simp] theorem State.setMbx_layers (s : State) (n : Nat) (p : MbxPair) : (s.setMbx n p).layers = s.layers := rfl
@[simp] theorem State.setMbx_syncs (s : State) (n : Nat) (p : MbxPair) : (s.setMbx n p).syncs = s.syncs := rfl
@[simp] theorem State.setMbx_caravan (s : State) (n : Nat) (p : MbxPair) : (s.setMbx n p).caravan = s.caravan := rfl
@[simp] theorem State.setMbx_flt (s : State) (n : Nat) (p : MbxPair) : (s.setMbx n p).flt = s.flt := rfl
@[simp] theorem State.setMbx_logbook (s : State) (n : Nat) (p : MbxPair) : (s.setMbx n p).logbook = s.logbook := rfl
@[simp] theorem State.setMbx_power (s : State) (n : Nat) (p : MbxPair) : (s.setMbx n p).power = s.power := rfl
@[simp] theorem State.setMbx_thermal (s : State) (n : Nat) (p : MbxPair) : (s.setMbx n p).thermal = s.thermal := rfl
@[simp] theorem State.setMbx_mram (s : State) (n : Nat) (p : MbxPair) : (s.setMbx n p).mram = s.mram := rfl
@[simp] theorem State.setMbx_boot (s : State) (n : Nat) (p : MbxPair) : (s.setMbx n p).boot = s.boot := rfl
@[simp] theorem State.setMbx_sampleRings (s : State) (n : Nat) (p : MbxPair) :
    (s.setMbx n p).sampleRings = s.sampleRings := rfl
@[simp] theorem State.setMbx_counters (s : State) (n : Nat) (p : MbxPair) : (s.setMbx n p).counters = s.counters := rfl
@[simp] theorem State.setMbx_pending (s : State) (n : Nat) (p : MbxPair) : (s.setMbx n p).pending = s.pending := rfl

/-! ### modSession -/

@[simp] theorem State.modSession_clk (s : State) (n : Nat) (f : Session → Session) :
    (s.modSession n f).clk = s.clk := rfl
@[simp] theorem State.modSession_pins (s : State) (n : Nat) (f : Session → Session) :
    (s.modSession n f).pins = s.pins := rfl
@[simp] theorem State.modSession_engines (s : State) (n : Nat) (f : Session → Session) :
    (s.modSession n f).engines = s.engines := rfl
@[simp] theorem State.modSession_queues (s : State) (n : Nat) (f : Session → Session) :
    (s.modSession n f).queues = s.queues := rfl
@[simp] theorem State.modSession_dups (s : State) (n : Nat) (f : Session → Session) :
    (s.modSession n f).dups = s.dups := rfl
@[simp] theorem State.modSession_events (s : State) (n : Nat) (f : Session → Session) :
    (s.modSession n f).events = s.events := rfl
@[simp] theorem State.modSession_cmpJobs (s : State) (n : Nat) (f : Session → Session) :
    (s.modSession n f).cmpJobs = s.cmpJobs := rfl
@[simp] theorem State.modSession_jobs (s : State) (n : Nat) (f : Session → Session) :
    (s.modSession n f).jobs = s.jobs := rfl
@[simp] theorem State.modSession_turns (s : State) (n : Nat) (f : Session → Session) :
    (s.modSession n f).turns = s.turns := rfl
@[simp] theorem State.modSession_passes (s : State) (n : Nat) (f : Session → Session) :
    (s.modSession n f).passes = s.passes := rfl
@[simp] theorem State.modSession_nextPass (s : State) (n : Nat) (f : Session → Session) :
    (s.modSession n f).nextPass = s.nextPass := rfl
@[simp] theorem State.modSession_parts (s : State) (n : Nat) (f : Session → Session) :
    (s.modSession n f).parts = s.parts := rfl
@[simp] theorem State.modSession_sch (s : State) (n : Nat) (f : Session → Session) :
    (s.modSession n f).sch = s.sch := rfl
@[simp] theorem State.modSession_convoys (s : State) (n : Nat) (f : Session → Session) :
    (s.modSession n f).convoys = s.convoys := rfl
@[simp] theorem State.modSession_accounts (s : State) (n : Nat) (f : Session → Session) :
    (s.modSession n f).accounts = s.accounts := rfl
@[simp] theorem State.modSession_mmu (s : State) (n : Nat) (f : Session → Session) :
    (s.modSession n f).mmu = s.mmu := rfl
@[simp] theorem State.modSession_mem (s : State) (n : Nat) (f : Session → Session) :
    (s.modSession n f).mem = s.mem := rfl
@[simp] theorem State.modSession_host (s : State) (n : Nat) (f : Session → Session) :
    (s.modSession n f).host = s.host := rfl
@[simp] theorem State.modSession_pipes (s : State) (n : Nat) (f : Session → Session) :
    (s.modSession n f).pipes = s.pipes := rfl
@[simp] theorem State.modSession_layers (s : State) (n : Nat) (f : Session → Session) :
    (s.modSession n f).layers = s.layers := rfl
@[simp] theorem State.modSession_syncs (s : State) (n : Nat) (f : Session → Session) :
    (s.modSession n f).syncs = s.syncs := rfl
@[simp] theorem State.modSession_caravan (s : State) (n : Nat) (f : Session → Session) :
    (s.modSession n f).caravan = s.caravan := rfl
@[simp] theorem State.modSession_flt (s : State) (n : Nat) (f : Session → Session) :
    (s.modSession n f).flt = s.flt := rfl
@[simp] theorem State.modSession_logbook (s : State) (n : Nat) (f : Session → Session) :
    (s.modSession n f).logbook = s.logbook := rfl
@[simp] theorem State.modSession_power (s : State) (n : Nat) (f : Session → Session) :
    (s.modSession n f).power = s.power := rfl
@[simp] theorem State.modSession_thermal (s : State) (n : Nat) (f : Session → Session) :
    (s.modSession n f).thermal = s.thermal := rfl
@[simp] theorem State.modSession_mram (s : State) (n : Nat) (f : Session → Session) :
    (s.modSession n f).mram = s.mram := rfl
@[simp] theorem State.modSession_boot (s : State) (n : Nat) (f : Session → Session) :
    (s.modSession n f).boot = s.boot := rfl
@[simp] theorem State.modSession_sampleRings (s : State) (n : Nat) (f : Session → Session) :
    (s.modSession n f).sampleRings = s.sampleRings := rfl
@[simp] theorem State.modSession_counters (s : State) (n : Nat) (f : Session → Session) :
    (s.modSession n f).counters = s.counters := rfl
@[simp] theorem State.modSession_pending (s : State) (n : Nat) (f : Session → Session) :
    (s.modSession n f).pending = s.pending := rfl

/-! ### modPipe -/

@[simp] theorem State.modPipe_clk (s : State) (p : Nat) (f : Pipe → Pipe) : (s.modPipe p f).clk = s.clk := rfl
@[simp] theorem State.modPipe_pins (s : State) (p : Nat) (f : Pipe → Pipe) : (s.modPipe p f).pins = s.pins := rfl
@[simp] theorem State.modPipe_engines (s : State) (p : Nat) (f : Pipe → Pipe) :
    (s.modPipe p f).engines = s.engines := rfl
@[simp] theorem State.modPipe_queues (s : State) (p : Nat) (f : Pipe → Pipe) : (s.modPipe p f).queues = s.queues := rfl
@[simp] theorem State.modPipe_dups (s : State) (p : Nat) (f : Pipe → Pipe) : (s.modPipe p f).dups = s.dups := rfl
@[simp] theorem State.modPipe_events (s : State) (p : Nat) (f : Pipe → Pipe) : (s.modPipe p f).events = s.events := rfl
@[simp] theorem State.modPipe_cmpJobs (s : State) (p : Nat) (f : Pipe → Pipe) :
    (s.modPipe p f).cmpJobs = s.cmpJobs := rfl
@[simp] theorem State.modPipe_jobs (s : State) (p : Nat) (f : Pipe → Pipe) : (s.modPipe p f).jobs = s.jobs := rfl
@[simp] theorem State.modPipe_turns (s : State) (p : Nat) (f : Pipe → Pipe) : (s.modPipe p f).turns = s.turns := rfl
@[simp] theorem State.modPipe_passes (s : State) (p : Nat) (f : Pipe → Pipe) : (s.modPipe p f).passes = s.passes := rfl
@[simp] theorem State.modPipe_nextPass (s : State) (p : Nat) (f : Pipe → Pipe) :
    (s.modPipe p f).nextPass = s.nextPass := rfl
@[simp] theorem State.modPipe_parts (s : State) (p : Nat) (f : Pipe → Pipe) : (s.modPipe p f).parts = s.parts := rfl
@[simp] theorem State.modPipe_sch (s : State) (p : Nat) (f : Pipe → Pipe) : (s.modPipe p f).sch = s.sch := rfl
@[simp] theorem State.modPipe_convoys (s : State) (p : Nat) (f : Pipe → Pipe) :
    (s.modPipe p f).convoys = s.convoys := rfl
@[simp] theorem State.modPipe_accounts (s : State) (p : Nat) (f : Pipe → Pipe) :
    (s.modPipe p f).accounts = s.accounts := rfl
@[simp] theorem State.modPipe_mmu (s : State) (p : Nat) (f : Pipe → Pipe) : (s.modPipe p f).mmu = s.mmu := rfl
@[simp] theorem State.modPipe_mem (s : State) (p : Nat) (f : Pipe → Pipe) : (s.modPipe p f).mem = s.mem := rfl
@[simp] theorem State.modPipe_host (s : State) (p : Nat) (f : Pipe → Pipe) : (s.modPipe p f).host = s.host := rfl
@[simp] theorem State.modPipe_fw (s : State) (p : Nat) (f : Pipe → Pipe) : (s.modPipe p f).fw = s.fw := rfl
@[simp] theorem State.modPipe_layers (s : State) (p : Nat) (f : Pipe → Pipe) : (s.modPipe p f).layers = s.layers := rfl
@[simp] theorem State.modPipe_syncs (s : State) (p : Nat) (f : Pipe → Pipe) : (s.modPipe p f).syncs = s.syncs := rfl
@[simp] theorem State.modPipe_caravan (s : State) (p : Nat) (f : Pipe → Pipe) :
    (s.modPipe p f).caravan = s.caravan := rfl
@[simp] theorem State.modPipe_flt (s : State) (p : Nat) (f : Pipe → Pipe) : (s.modPipe p f).flt = s.flt := rfl
@[simp] theorem State.modPipe_logbook (s : State) (p : Nat) (f : Pipe → Pipe) :
    (s.modPipe p f).logbook = s.logbook := rfl
@[simp] theorem State.modPipe_power (s : State) (p : Nat) (f : Pipe → Pipe) : (s.modPipe p f).power = s.power := rfl
@[simp] theorem State.modPipe_thermal (s : State) (p : Nat) (f : Pipe → Pipe) :
    (s.modPipe p f).thermal = s.thermal := rfl
@[simp] theorem State.modPipe_mram (s : State) (p : Nat) (f : Pipe → Pipe) : (s.modPipe p f).mram = s.mram := rfl
@[simp] theorem State.modPipe_boot (s : State) (p : Nat) (f : Pipe → Pipe) : (s.modPipe p f).boot = s.boot := rfl
@[simp] theorem State.modPipe_sampleRings (s : State) (p : Nat) (f : Pipe → Pipe) :
    (s.modPipe p f).sampleRings = s.sampleRings := rfl
@[simp] theorem State.modPipe_counters (s : State) (p : Nat) (f : Pipe → Pipe) :
    (s.modPipe p f).counters = s.counters := rfl
@[simp] theorem State.modPipe_pending (s : State) (p : Nat) (f : Pipe → Pipe) :
    (s.modPipe p f).pending = s.pending := rfl

/-! ### modSlice -/

@[simp] theorem State.modSlice_clk (s : State) (i : Nat) (f : Slice → Slice) : (s.modSlice i f).clk = s.clk := rfl
@[simp] theorem State.modSlice_pins (s : State) (i : Nat) (f : Slice → Slice) : (s.modSlice i f).pins = s.pins := rfl
@[simp] theorem State.modSlice_engines (s : State) (i : Nat) (f : Slice → Slice) :
    (s.modSlice i f).engines = s.engines := rfl
@[simp] theorem State.modSlice_queues (s : State) (i : Nat) (f : Slice → Slice) :
    (s.modSlice i f).queues = s.queues := rfl
@[simp] theorem State.modSlice_dups (s : State) (i : Nat) (f : Slice → Slice) : (s.modSlice i f).dups = s.dups := rfl
@[simp] theorem State.modSlice_events (s : State) (i : Nat) (f : Slice → Slice) :
    (s.modSlice i f).events = s.events := rfl
@[simp] theorem State.modSlice_cmpJobs (s : State) (i : Nat) (f : Slice → Slice) :
    (s.modSlice i f).cmpJobs = s.cmpJobs := rfl
@[simp] theorem State.modSlice_jobs (s : State) (i : Nat) (f : Slice → Slice) : (s.modSlice i f).jobs = s.jobs := rfl
@[simp] theorem State.modSlice_turns (s : State) (i : Nat) (f : Slice → Slice) : (s.modSlice i f).turns = s.turns := rfl
@[simp] theorem State.modSlice_passes (s : State) (i : Nat) (f : Slice → Slice) :
    (s.modSlice i f).passes = s.passes := rfl
@[simp] theorem State.modSlice_nextPass (s : State) (i : Nat) (f : Slice → Slice) :
    (s.modSlice i f).nextPass = s.nextPass := rfl
@[simp] theorem State.modSlice_parts (s : State) (i : Nat) (f : Slice → Slice) : (s.modSlice i f).parts = s.parts := rfl
@[simp] theorem State.modSlice_sch (s : State) (i : Nat) (f : Slice → Slice) : (s.modSlice i f).sch = s.sch := rfl
@[simp] theorem State.modSlice_convoys (s : State) (i : Nat) (f : Slice → Slice) :
    (s.modSlice i f).convoys = s.convoys := rfl
@[simp] theorem State.modSlice_accounts (s : State) (i : Nat) (f : Slice → Slice) :
    (s.modSlice i f).accounts = s.accounts := rfl
@[simp] theorem State.modSlice_mmu (s : State) (i : Nat) (f : Slice → Slice) : (s.modSlice i f).mmu = s.mmu := rfl
@[simp] theorem State.modSlice_host (s : State) (i : Nat) (f : Slice → Slice) : (s.modSlice i f).host = s.host := rfl
@[simp] theorem State.modSlice_fw (s : State) (i : Nat) (f : Slice → Slice) : (s.modSlice i f).fw = s.fw := rfl
@[simp] theorem State.modSlice_pipes (s : State) (i : Nat) (f : Slice → Slice) : (s.modSlice i f).pipes = s.pipes := rfl
@[simp] theorem State.modSlice_layers (s : State) (i : Nat) (f : Slice → Slice) :
    (s.modSlice i f).layers = s.layers := rfl
@[simp] theorem State.modSlice_syncs (s : State) (i : Nat) (f : Slice → Slice) : (s.modSlice i f).syncs = s.syncs := rfl
@[simp] theorem State.modSlice_caravan (s : State) (i : Nat) (f : Slice → Slice) :
    (s.modSlice i f).caravan = s.caravan := rfl
@[simp] theorem State.modSlice_flt (s : State) (i : Nat) (f : Slice → Slice) : (s.modSlice i f).flt = s.flt := rfl
@[simp] theorem State.modSlice_logbook (s : State) (i : Nat) (f : Slice → Slice) :
    (s.modSlice i f).logbook = s.logbook := rfl
@[simp] theorem State.modSlice_power (s : State) (i : Nat) (f : Slice → Slice) : (s.modSlice i f).power = s.power := rfl
@[simp] theorem State.modSlice_thermal (s : State) (i : Nat) (f : Slice → Slice) :
    (s.modSlice i f).thermal = s.thermal := rfl
@[simp] theorem State.modSlice_mram (s : State) (i : Nat) (f : Slice → Slice) : (s.modSlice i f).mram = s.mram := rfl
@[simp] theorem State.modSlice_boot (s : State) (i : Nat) (f : Slice → Slice) : (s.modSlice i f).boot = s.boot := rfl
@[simp] theorem State.modSlice_sampleRings (s : State) (i : Nat) (f : Slice → Slice) :
    (s.modSlice i f).sampleRings = s.sampleRings := rfl
@[simp] theorem State.modSlice_counters (s : State) (i : Nat) (f : Slice → Slice) :
    (s.modSlice i f).counters = s.counters := rfl
@[simp] theorem State.modSlice_pending (s : State) (i : Nat) (f : Slice → Slice) :
    (s.modSlice i f).pending = s.pending := rfl

/-! ### modChan -/

@[simp] theorem State.modChan_clk (s : State) (c : Nat) (f : Channel → Channel) : (s.modChan c f).clk = s.clk := rfl
@[simp] theorem State.modChan_pins (s : State) (c : Nat) (f : Channel → Channel) : (s.modChan c f).pins = s.pins := rfl
@[simp] theorem State.modChan_engines (s : State) (c : Nat) (f : Channel → Channel) :
    (s.modChan c f).engines = s.engines := rfl
@[simp] theorem State.modChan_queues (s : State) (c : Nat) (f : Channel → Channel) :
    (s.modChan c f).queues = s.queues := rfl
@[simp] theorem State.modChan_dups (s : State) (c : Nat) (f : Channel → Channel) : (s.modChan c f).dups = s.dups := rfl
@[simp] theorem State.modChan_events (s : State) (c : Nat) (f : Channel → Channel) :
    (s.modChan c f).events = s.events := rfl
@[simp] theorem State.modChan_cmpJobs (s : State) (c : Nat) (f : Channel → Channel) :
    (s.modChan c f).cmpJobs = s.cmpJobs := rfl
@[simp] theorem State.modChan_jobs (s : State) (c : Nat) (f : Channel → Channel) : (s.modChan c f).jobs = s.jobs := rfl
@[simp] theorem State.modChan_turns (s : State) (c : Nat) (f : Channel → Channel) :
    (s.modChan c f).turns = s.turns := rfl
@[simp] theorem State.modChan_passes (s : State) (c : Nat) (f : Channel → Channel) :
    (s.modChan c f).passes = s.passes := rfl
@[simp] theorem State.modChan_nextPass (s : State) (c : Nat) (f : Channel → Channel) :
    (s.modChan c f).nextPass = s.nextPass := rfl
@[simp] theorem State.modChan_parts (s : State) (c : Nat) (f : Channel → Channel) :
    (s.modChan c f).parts = s.parts := rfl
@[simp] theorem State.modChan_sch (s : State) (c : Nat) (f : Channel → Channel) : (s.modChan c f).sch = s.sch := rfl
@[simp] theorem State.modChan_convoys (s : State) (c : Nat) (f : Channel → Channel) :
    (s.modChan c f).convoys = s.convoys := rfl
@[simp] theorem State.modChan_accounts (s : State) (c : Nat) (f : Channel → Channel) :
    (s.modChan c f).accounts = s.accounts := rfl
@[simp] theorem State.modChan_mmu (s : State) (c : Nat) (f : Channel → Channel) : (s.modChan c f).mmu = s.mmu := rfl
@[simp] theorem State.modChan_host (s : State) (c : Nat) (f : Channel → Channel) : (s.modChan c f).host = s.host := rfl
@[simp] theorem State.modChan_fw (s : State) (c : Nat) (f : Channel → Channel) : (s.modChan c f).fw = s.fw := rfl
@[simp] theorem State.modChan_pipes (s : State) (c : Nat) (f : Channel → Channel) :
    (s.modChan c f).pipes = s.pipes := rfl
@[simp] theorem State.modChan_layers (s : State) (c : Nat) (f : Channel → Channel) :
    (s.modChan c f).layers = s.layers := rfl
@[simp] theorem State.modChan_syncs (s : State) (c : Nat) (f : Channel → Channel) :
    (s.modChan c f).syncs = s.syncs := rfl
@[simp] theorem State.modChan_caravan (s : State) (c : Nat) (f : Channel → Channel) :
    (s.modChan c f).caravan = s.caravan := rfl
@[simp] theorem State.modChan_flt (s : State) (c : Nat) (f : Channel → Channel) : (s.modChan c f).flt = s.flt := rfl
@[simp] theorem State.modChan_logbook (s : State) (c : Nat) (f : Channel → Channel) :
    (s.modChan c f).logbook = s.logbook := rfl
@[simp] theorem State.modChan_power (s : State) (c : Nat) (f : Channel → Channel) :
    (s.modChan c f).power = s.power := rfl
@[simp] theorem State.modChan_thermal (s : State) (c : Nat) (f : Channel → Channel) :
    (s.modChan c f).thermal = s.thermal := rfl
@[simp] theorem State.modChan_mram (s : State) (c : Nat) (f : Channel → Channel) : (s.modChan c f).mram = s.mram := rfl
@[simp] theorem State.modChan_boot (s : State) (c : Nat) (f : Channel → Channel) : (s.modChan c f).boot = s.boot := rfl
@[simp] theorem State.modChan_sampleRings (s : State) (c : Nat) (f : Channel → Channel) :
    (s.modChan c f).sampleRings = s.sampleRings := rfl
@[simp] theorem State.modChan_counters (s : State) (c : Nat) (f : Channel → Channel) :
    (s.modChan c f).counters = s.counters := rfl
@[simp] theorem State.modChan_pending (s : State) (c : Nat) (f : Channel → Channel) :
    (s.modChan c f).pending = s.pending := rfl

/-! ### setPort -/

@[simp] theorem State.setPort_clk (s : State) (p : Nat) (v : Port) : (s.setPort p v).clk = s.clk := rfl
@[simp] theorem State.setPort_pins (s : State) (p : Nat) (v : Port) : (s.setPort p v).pins = s.pins := rfl
@[simp] theorem State.setPort_engines (s : State) (p : Nat) (v : Port) : (s.setPort p v).engines = s.engines := rfl
@[simp] theorem State.setPort_queues (s : State) (p : Nat) (v : Port) : (s.setPort p v).queues = s.queues := rfl
@[simp] theorem State.setPort_dups (s : State) (p : Nat) (v : Port) : (s.setPort p v).dups = s.dups := rfl
@[simp] theorem State.setPort_events (s : State) (p : Nat) (v : Port) : (s.setPort p v).events = s.events := rfl
@[simp] theorem State.setPort_cmpJobs (s : State) (p : Nat) (v : Port) : (s.setPort p v).cmpJobs = s.cmpJobs := rfl
@[simp] theorem State.setPort_jobs (s : State) (p : Nat) (v : Port) : (s.setPort p v).jobs = s.jobs := rfl
@[simp] theorem State.setPort_turns (s : State) (p : Nat) (v : Port) : (s.setPort p v).turns = s.turns := rfl
@[simp] theorem State.setPort_passes (s : State) (p : Nat) (v : Port) : (s.setPort p v).passes = s.passes := rfl
@[simp] theorem State.setPort_nextPass (s : State) (p : Nat) (v : Port) : (s.setPort p v).nextPass = s.nextPass := rfl
@[simp] theorem State.setPort_parts (s : State) (p : Nat) (v : Port) : (s.setPort p v).parts = s.parts := rfl
@[simp] theorem State.setPort_sch (s : State) (p : Nat) (v : Port) : (s.setPort p v).sch = s.sch := rfl
@[simp] theorem State.setPort_convoys (s : State) (p : Nat) (v : Port) : (s.setPort p v).convoys = s.convoys := rfl
@[simp] theorem State.setPort_accounts (s : State) (p : Nat) (v : Port) : (s.setPort p v).accounts = s.accounts := rfl
@[simp] theorem State.setPort_mmu (s : State) (p : Nat) (v : Port) : (s.setPort p v).mmu = s.mmu := rfl
@[simp] theorem State.setPort_mem (s : State) (p : Nat) (v : Port) : (s.setPort p v).mem = s.mem := rfl
@[simp] theorem State.setPort_host (s : State) (p : Nat) (v : Port) : (s.setPort p v).host = s.host := rfl
@[simp] theorem State.setPort_fw (s : State) (p : Nat) (v : Port) : (s.setPort p v).fw = s.fw := rfl
@[simp] theorem State.setPort_pipes (s : State) (p : Nat) (v : Port) : (s.setPort p v).pipes = s.pipes := rfl
@[simp] theorem State.setPort_layers (s : State) (p : Nat) (v : Port) : (s.setPort p v).layers = s.layers := rfl
@[simp] theorem State.setPort_syncs (s : State) (p : Nat) (v : Port) : (s.setPort p v).syncs = s.syncs := rfl
@[simp] theorem State.setPort_flt (s : State) (p : Nat) (v : Port) : (s.setPort p v).flt = s.flt := rfl
@[simp] theorem State.setPort_logbook (s : State) (p : Nat) (v : Port) : (s.setPort p v).logbook = s.logbook := rfl
@[simp] theorem State.setPort_power (s : State) (p : Nat) (v : Port) : (s.setPort p v).power = s.power := rfl
@[simp] theorem State.setPort_thermal (s : State) (p : Nat) (v : Port) : (s.setPort p v).thermal = s.thermal := rfl
@[simp] theorem State.setPort_mram (s : State) (p : Nat) (v : Port) : (s.setPort p v).mram = s.mram := rfl
@[simp] theorem State.setPort_boot (s : State) (p : Nat) (v : Port) : (s.setPort p v).boot = s.boot := rfl
@[simp] theorem State.setPort_sampleRings (s : State) (p : Nat) (v : Port) :
    (s.setPort p v).sampleRings = s.sampleRings := rfl
@[simp] theorem State.setPort_counters (s : State) (p : Nat) (v : Port) : (s.setPort p v).counters = s.counters := rfl
@[simp] theorem State.setPort_pending (s : State) (p : Nat) (v : Port) : (s.setPort p v).pending = s.pending := rfl

/-! ### modPort -/

@[simp] theorem State.modPort_clk (s : State) (p : Nat) (f : Port → Port) : (s.modPort p f).clk = s.clk := rfl
@[simp] theorem State.modPort_pins (s : State) (p : Nat) (f : Port → Port) : (s.modPort p f).pins = s.pins := rfl
@[simp] theorem State.modPort_engines (s : State) (p : Nat) (f : Port → Port) :
    (s.modPort p f).engines = s.engines := rfl
@[simp] theorem State.modPort_queues (s : State) (p : Nat) (f : Port → Port) : (s.modPort p f).queues = s.queues := rfl
@[simp] theorem State.modPort_dups (s : State) (p : Nat) (f : Port → Port) : (s.modPort p f).dups = s.dups := rfl
@[simp] theorem State.modPort_events (s : State) (p : Nat) (f : Port → Port) : (s.modPort p f).events = s.events := rfl
@[simp] theorem State.modPort_cmpJobs (s : State) (p : Nat) (f : Port → Port) :
    (s.modPort p f).cmpJobs = s.cmpJobs := rfl
@[simp] theorem State.modPort_jobs (s : State) (p : Nat) (f : Port → Port) : (s.modPort p f).jobs = s.jobs := rfl
@[simp] theorem State.modPort_turns (s : State) (p : Nat) (f : Port → Port) : (s.modPort p f).turns = s.turns := rfl
@[simp] theorem State.modPort_passes (s : State) (p : Nat) (f : Port → Port) : (s.modPort p f).passes = s.passes := rfl
@[simp] theorem State.modPort_nextPass (s : State) (p : Nat) (f : Port → Port) :
    (s.modPort p f).nextPass = s.nextPass := rfl
@[simp] theorem State.modPort_parts (s : State) (p : Nat) (f : Port → Port) : (s.modPort p f).parts = s.parts := rfl
@[simp] theorem State.modPort_sch (s : State) (p : Nat) (f : Port → Port) : (s.modPort p f).sch = s.sch := rfl
@[simp] theorem State.modPort_convoys (s : State) (p : Nat) (f : Port → Port) :
    (s.modPort p f).convoys = s.convoys := rfl
@[simp] theorem State.modPort_accounts (s : State) (p : Nat) (f : Port → Port) :
    (s.modPort p f).accounts = s.accounts := rfl
@[simp] theorem State.modPort_mmu (s : State) (p : Nat) (f : Port → Port) : (s.modPort p f).mmu = s.mmu := rfl
@[simp] theorem State.modPort_mem (s : State) (p : Nat) (f : Port → Port) : (s.modPort p f).mem = s.mem := rfl
@[simp] theorem State.modPort_host (s : State) (p : Nat) (f : Port → Port) : (s.modPort p f).host = s.host := rfl
@[simp] theorem State.modPort_fw (s : State) (p : Nat) (f : Port → Port) : (s.modPort p f).fw = s.fw := rfl
@[simp] theorem State.modPort_pipes (s : State) (p : Nat) (f : Port → Port) : (s.modPort p f).pipes = s.pipes := rfl
@[simp] theorem State.modPort_layers (s : State) (p : Nat) (f : Port → Port) : (s.modPort p f).layers = s.layers := rfl
@[simp] theorem State.modPort_syncs (s : State) (p : Nat) (f : Port → Port) : (s.modPort p f).syncs = s.syncs := rfl
@[simp] theorem State.modPort_flt (s : State) (p : Nat) (f : Port → Port) : (s.modPort p f).flt = s.flt := rfl
@[simp] theorem State.modPort_logbook (s : State) (p : Nat) (f : Port → Port) :
    (s.modPort p f).logbook = s.logbook := rfl
@[simp] theorem State.modPort_power (s : State) (p : Nat) (f : Port → Port) : (s.modPort p f).power = s.power := rfl
@[simp] theorem State.modPort_thermal (s : State) (p : Nat) (f : Port → Port) :
    (s.modPort p f).thermal = s.thermal := rfl
@[simp] theorem State.modPort_mram (s : State) (p : Nat) (f : Port → Port) : (s.modPort p f).mram = s.mram := rfl
@[simp] theorem State.modPort_boot (s : State) (p : Nat) (f : Port → Port) : (s.modPort p f).boot = s.boot := rfl
@[simp] theorem State.modPort_sampleRings (s : State) (p : Nat) (f : Port → Port) :
    (s.modPort p f).sampleRings = s.sampleRings := rfl
@[simp] theorem State.modPort_counters (s : State) (p : Nat) (f : Port → Port) :
    (s.modPort p f).counters = s.counters := rfl
@[simp] theorem State.modPort_pending (s : State) (p : Nat) (f : Port → Port) :
    (s.modPort p f).pending = s.pending := rfl

/-! ### modPart -/

@[simp] theorem State.modPart_clk (s : State) (p : Nat) (f : Partition → Partition) : (s.modPart p f).clk = s.clk := rfl
@[simp] theorem State.modPart_pins (s : State) (p : Nat) (f : Partition → Partition) :
    (s.modPart p f).pins = s.pins := rfl
@[simp] theorem State.modPart_engines (s : State) (p : Nat) (f : Partition → Partition) :
    (s.modPart p f).engines = s.engines := rfl
@[simp] theorem State.modPart_queues (s : State) (p : Nat) (f : Partition → Partition) :
    (s.modPart p f).queues = s.queues := rfl
@[simp] theorem State.modPart_dups (s : State) (p : Nat) (f : Partition → Partition) :
    (s.modPart p f).dups = s.dups := rfl
@[simp] theorem State.modPart_events (s : State) (p : Nat) (f : Partition → Partition) :
    (s.modPart p f).events = s.events := rfl
@[simp] theorem State.modPart_cmpJobs (s : State) (p : Nat) (f : Partition → Partition) :
    (s.modPart p f).cmpJobs = s.cmpJobs := rfl
@[simp] theorem State.modPart_jobs (s : State) (p : Nat) (f : Partition → Partition) :
    (s.modPart p f).jobs = s.jobs := rfl
@[simp] theorem State.modPart_turns (s : State) (p : Nat) (f : Partition → Partition) :
    (s.modPart p f).turns = s.turns := rfl
@[simp] theorem State.modPart_passes (s : State) (p : Nat) (f : Partition → Partition) :
    (s.modPart p f).passes = s.passes := rfl
@[simp] theorem State.modPart_nextPass (s : State) (p : Nat) (f : Partition → Partition) :
    (s.modPart p f).nextPass = s.nextPass := rfl
@[simp] theorem State.modPart_sch (s : State) (p : Nat) (f : Partition → Partition) : (s.modPart p f).sch = s.sch := rfl
@[simp] theorem State.modPart_convoys (s : State) (p : Nat) (f : Partition → Partition) :
    (s.modPart p f).convoys = s.convoys := rfl
@[simp] theorem State.modPart_accounts (s : State) (p : Nat) (f : Partition → Partition) :
    (s.modPart p f).accounts = s.accounts := rfl
@[simp] theorem State.modPart_mmu (s : State) (p : Nat) (f : Partition → Partition) : (s.modPart p f).mmu = s.mmu := rfl
@[simp] theorem State.modPart_mem (s : State) (p : Nat) (f : Partition → Partition) : (s.modPart p f).mem = s.mem := rfl
@[simp] theorem State.modPart_host (s : State) (p : Nat) (f : Partition → Partition) :
    (s.modPart p f).host = s.host := rfl
@[simp] theorem State.modPart_fw (s : State) (p : Nat) (f : Partition → Partition) : (s.modPart p f).fw = s.fw := rfl
@[simp] theorem State.modPart_pipes (s : State) (p : Nat) (f : Partition → Partition) :
    (s.modPart p f).pipes = s.pipes := rfl
@[simp] theorem State.modPart_layers (s : State) (p : Nat) (f : Partition → Partition) :
    (s.modPart p f).layers = s.layers := rfl
@[simp] theorem State.modPart_syncs (s : State) (p : Nat) (f : Partition → Partition) :
    (s.modPart p f).syncs = s.syncs := rfl
@[simp] theorem State.modPart_caravan (s : State) (p : Nat) (f : Partition → Partition) :
    (s.modPart p f).caravan = s.caravan := rfl
@[simp] theorem State.modPart_flt (s : State) (p : Nat) (f : Partition → Partition) : (s.modPart p f).flt = s.flt := rfl
@[simp] theorem State.modPart_logbook (s : State) (p : Nat) (f : Partition → Partition) :
    (s.modPart p f).logbook = s.logbook := rfl
@[simp] theorem State.modPart_power (s : State) (p : Nat) (f : Partition → Partition) :
    (s.modPart p f).power = s.power := rfl
@[simp] theorem State.modPart_thermal (s : State) (p : Nat) (f : Partition → Partition) :
    (s.modPart p f).thermal = s.thermal := rfl
@[simp] theorem State.modPart_mram (s : State) (p : Nat) (f : Partition → Partition) :
    (s.modPart p f).mram = s.mram := rfl
@[simp] theorem State.modPart_boot (s : State) (p : Nat) (f : Partition → Partition) :
    (s.modPart p f).boot = s.boot := rfl
@[simp] theorem State.modPart_sampleRings (s : State) (p : Nat) (f : Partition → Partition) :
    (s.modPart p f).sampleRings = s.sampleRings := rfl
@[simp] theorem State.modPart_counters (s : State) (p : Nat) (f : Partition → Partition) :
    (s.modPart p f).counters = s.counters := rfl
@[simp] theorem State.modPart_pending (s : State) (p : Nat) (f : Partition → Partition) :
    (s.modPart p f).pending = s.pending := rfl

/-! ### modConvoy -/

@[simp] theorem State.modConvoy_clk (s : State) (c : Nat) (f : Convoy → Convoy) : (s.modConvoy c f).clk = s.clk := rfl
@[simp] theorem State.modConvoy_pins (s : State) (c : Nat) (f : Convoy → Convoy) :
    (s.modConvoy c f).pins = s.pins := rfl
@[simp] theorem State.modConvoy_engines (s : State) (c : Nat) (f : Convoy → Convoy) :
    (s.modConvoy c f).engines = s.engines := rfl
@[simp] theorem State.modConvoy_queues (s : State) (c : Nat) (f : Convoy → Convoy) :
    (s.modConvoy c f).queues = s.queues := rfl
@[simp] theorem State.modConvoy_dups (s : State) (c : Nat) (f : Convoy → Convoy) :
    (s.modConvoy c f).dups = s.dups := rfl
@[simp] theorem State.modConvoy_events (s : State) (c : Nat) (f : Convoy → Convoy) :
    (s.modConvoy c f).events = s.events := rfl
@[simp] theorem State.modConvoy_cmpJobs (s : State) (c : Nat) (f : Convoy → Convoy) :
    (s.modConvoy c f).cmpJobs = s.cmpJobs := rfl
@[simp] theorem State.modConvoy_jobs (s : State) (c : Nat) (f : Convoy → Convoy) :
    (s.modConvoy c f).jobs = s.jobs := rfl
@[simp] theorem State.modConvoy_turns (s : State) (c : Nat) (f : Convoy → Convoy) :
    (s.modConvoy c f).turns = s.turns := rfl
@[simp] theorem State.modConvoy_passes (s : State) (c : Nat) (f : Convoy → Convoy) :
    (s.modConvoy c f).passes = s.passes := rfl
@[simp] theorem State.modConvoy_nextPass (s : State) (c : Nat) (f : Convoy → Convoy) :
    (s.modConvoy c f).nextPass = s.nextPass := rfl
@[simp] theorem State.modConvoy_parts (s : State) (c : Nat) (f : Convoy → Convoy) :
    (s.modConvoy c f).parts = s.parts := rfl
@[simp] theorem State.modConvoy_sch (s : State) (c : Nat) (f : Convoy → Convoy) : (s.modConvoy c f).sch = s.sch := rfl
@[simp] theorem State.modConvoy_accounts (s : State) (c : Nat) (f : Convoy → Convoy) :
    (s.modConvoy c f).accounts = s.accounts := rfl
@[simp] theorem State.modConvoy_mmu (s : State) (c : Nat) (f : Convoy → Convoy) : (s.modConvoy c f).mmu = s.mmu := rfl
@[simp] theorem State.modConvoy_mem (s : State) (c : Nat) (f : Convoy → Convoy) : (s.modConvoy c f).mem = s.mem := rfl
@[simp] theorem State.modConvoy_host (s : State) (c : Nat) (f : Convoy → Convoy) :
    (s.modConvoy c f).host = s.host := rfl
@[simp] theorem State.modConvoy_fw (s : State) (c : Nat) (f : Convoy → Convoy) : (s.modConvoy c f).fw = s.fw := rfl
@[simp] theorem State.modConvoy_pipes (s : State) (c : Nat) (f : Convoy → Convoy) :
    (s.modConvoy c f).pipes = s.pipes := rfl
@[simp] theorem State.modConvoy_layers (s : State) (c : Nat) (f : Convoy → Convoy) :
    (s.modConvoy c f).layers = s.layers := rfl
@[simp] theorem State.modConvoy_syncs (s : State) (c : Nat) (f : Convoy → Convoy) :
    (s.modConvoy c f).syncs = s.syncs := rfl
@[simp] theorem State.modConvoy_caravan (s : State) (c : Nat) (f : Convoy → Convoy) :
    (s.modConvoy c f).caravan = s.caravan := rfl
@[simp] theorem State.modConvoy_flt (s : State) (c : Nat) (f : Convoy → Convoy) : (s.modConvoy c f).flt = s.flt := rfl
@[simp] theorem State.modConvoy_logbook (s : State) (c : Nat) (f : Convoy → Convoy) :
    (s.modConvoy c f).logbook = s.logbook := rfl
@[simp] theorem State.modConvoy_power (s : State) (c : Nat) (f : Convoy → Convoy) :
    (s.modConvoy c f).power = s.power := rfl
@[simp] theorem State.modConvoy_thermal (s : State) (c : Nat) (f : Convoy → Convoy) :
    (s.modConvoy c f).thermal = s.thermal := rfl
@[simp] theorem State.modConvoy_mram (s : State) (c : Nat) (f : Convoy → Convoy) :
    (s.modConvoy c f).mram = s.mram := rfl
@[simp] theorem State.modConvoy_boot (s : State) (c : Nat) (f : Convoy → Convoy) :
    (s.modConvoy c f).boot = s.boot := rfl
@[simp] theorem State.modConvoy_sampleRings (s : State) (c : Nat) (f : Convoy → Convoy) :
    (s.modConvoy c f).sampleRings = s.sampleRings := rfl
@[simp] theorem State.modConvoy_counters (s : State) (c : Nat) (f : Convoy → Convoy) :
    (s.modConvoy c f).counters = s.counters := rfl
@[simp] theorem State.modConvoy_pending (s : State) (c : Nat) (f : Convoy → Convoy) :
    (s.modConvoy c f).pending = s.pending := rfl

/-! ### modAccount -/

@[simp] theorem State.modAccount_clk (s : State) (ctx : Nat) (f : Account → Account) :
    (s.modAccount ctx f).clk = s.clk := rfl
@[simp] theorem State.modAccount_pins (s : State) (ctx : Nat) (f : Account → Account) :
    (s.modAccount ctx f).pins = s.pins := rfl
@[simp] theorem State.modAccount_engines (s : State) (ctx : Nat) (f : Account → Account) :
    (s.modAccount ctx f).engines = s.engines := rfl
@[simp] theorem State.modAccount_queues (s : State) (ctx : Nat) (f : Account → Account) :
    (s.modAccount ctx f).queues = s.queues := rfl
@[simp] theorem State.modAccount_dups (s : State) (ctx : Nat) (f : Account → Account) :
    (s.modAccount ctx f).dups = s.dups := rfl
@[simp] theorem State.modAccount_events (s : State) (ctx : Nat) (f : Account → Account) :
    (s.modAccount ctx f).events = s.events := rfl
@[simp] theorem State.modAccount_cmpJobs (s : State) (ctx : Nat) (f : Account → Account) :
    (s.modAccount ctx f).cmpJobs = s.cmpJobs := rfl
@[simp] theorem State.modAccount_jobs (s : State) (ctx : Nat) (f : Account → Account) :
    (s.modAccount ctx f).jobs = s.jobs := rfl
@[simp] theorem State.modAccount_turns (s : State) (ctx : Nat) (f : Account → Account) :
    (s.modAccount ctx f).turns = s.turns := rfl
@[simp] theorem State.modAccount_passes (s : State) (ctx : Nat) (f : Account → Account) :
    (s.modAccount ctx f).passes = s.passes := rfl
@[simp] theorem State.modAccount_nextPass (s : State) (ctx : Nat) (f : Account → Account) :
    (s.modAccount ctx f).nextPass = s.nextPass := rfl
@[simp] theorem State.modAccount_parts (s : State) (ctx : Nat) (f : Account → Account) :
    (s.modAccount ctx f).parts = s.parts := rfl
@[simp] theorem State.modAccount_sch (s : State) (ctx : Nat) (f : Account → Account) :
    (s.modAccount ctx f).sch = s.sch := rfl
@[simp] theorem State.modAccount_convoys (s : State) (ctx : Nat) (f : Account → Account) :
    (s.modAccount ctx f).convoys = s.convoys := rfl
@[simp] theorem State.modAccount_mmu (s : State) (ctx : Nat) (f : Account → Account) :
    (s.modAccount ctx f).mmu = s.mmu := rfl
@[simp] theorem State.modAccount_mem (s : State) (ctx : Nat) (f : Account → Account) :
    (s.modAccount ctx f).mem = s.mem := rfl
@[simp] theorem State.modAccount_host (s : State) (ctx : Nat) (f : Account → Account) :
    (s.modAccount ctx f).host = s.host := rfl
@[simp] theorem State.modAccount_fw (s : State) (ctx : Nat) (f : Account → Account) :
    (s.modAccount ctx f).fw = s.fw := rfl
@[simp] theorem State.modAccount_pipes (s : State) (ctx : Nat) (f : Account → Account) :
    (s.modAccount ctx f).pipes = s.pipes := rfl
@[simp] theorem State.modAccount_layers (s : State) (ctx : Nat) (f : Account → Account) :
    (s.modAccount ctx f).layers = s.layers := rfl
@[simp] theorem State.modAccount_syncs (s : State) (ctx : Nat) (f : Account → Account) :
    (s.modAccount ctx f).syncs = s.syncs := rfl
@[simp] theorem State.modAccount_caravan (s : State) (ctx : Nat) (f : Account → Account) :
    (s.modAccount ctx f).caravan = s.caravan := rfl
@[simp] theorem State.modAccount_flt (s : State) (ctx : Nat) (f : Account → Account) :
    (s.modAccount ctx f).flt = s.flt := rfl
@[simp] theorem State.modAccount_logbook (s : State) (ctx : Nat) (f : Account → Account) :
    (s.modAccount ctx f).logbook = s.logbook := rfl
@[simp] theorem State.modAccount_power (s : State) (ctx : Nat) (f : Account → Account) :
    (s.modAccount ctx f).power = s.power := rfl
@[simp] theorem State.modAccount_thermal (s : State) (ctx : Nat) (f : Account → Account) :
    (s.modAccount ctx f).thermal = s.thermal := rfl
@[simp] theorem State.modAccount_mram (s : State) (ctx : Nat) (f : Account → Account) :
    (s.modAccount ctx f).mram = s.mram := rfl
@[simp] theorem State.modAccount_boot (s : State) (ctx : Nat) (f : Account → Account) :
    (s.modAccount ctx f).boot = s.boot := rfl
@[simp] theorem State.modAccount_sampleRings (s : State) (ctx : Nat) (f : Account → Account) :
    (s.modAccount ctx f).sampleRings = s.sampleRings := rfl
@[simp] theorem State.modAccount_counters (s : State) (ctx : Nat) (f : Account → Account) :
    (s.modAccount ctx f).counters = s.counters := rfl
@[simp] theorem State.modAccount_pending (s : State) (ctx : Nat) (f : Account → Account) :
    (s.modAccount ctx f).pending = s.pending := rfl

/-! ### modObj -/

@[simp] theorem State.modObj_clk (s : State) (h : Nat) (f : Obj → Obj) : (s.modObj h f).clk = s.clk := rfl
@[simp] theorem State.modObj_pins (s : State) (h : Nat) (f : Obj → Obj) : (s.modObj h f).pins = s.pins := rfl
@[simp] theorem State.modObj_engines (s : State) (h : Nat) (f : Obj → Obj) : (s.modObj h f).engines = s.engines := rfl
@[simp] theorem State.modObj_queues (s : State) (h : Nat) (f : Obj → Obj) : (s.modObj h f).queues = s.queues := rfl
@[simp] theorem State.modObj_dups (s : State) (h : Nat) (f : Obj → Obj) : (s.modObj h f).dups = s.dups := rfl
@[simp] theorem State.modObj_events (s : State) (h : Nat) (f : Obj → Obj) : (s.modObj h f).events = s.events := rfl
@[simp] theorem State.modObj_cmpJobs (s : State) (h : Nat) (f : Obj → Obj) : (s.modObj h f).cmpJobs = s.cmpJobs := rfl
@[simp] theorem State.modObj_jobs (s : State) (h : Nat) (f : Obj → Obj) : (s.modObj h f).jobs = s.jobs := rfl
@[simp] theorem State.modObj_turns (s : State) (h : Nat) (f : Obj → Obj) : (s.modObj h f).turns = s.turns := rfl
@[simp] theorem State.modObj_passes (s : State) (h : Nat) (f : Obj → Obj) : (s.modObj h f).passes = s.passes := rfl
@[simp] theorem State.modObj_nextPass (s : State) (h : Nat) (f : Obj → Obj) :
    (s.modObj h f).nextPass = s.nextPass := rfl
@[simp] theorem State.modObj_parts (s : State) (h : Nat) (f : Obj → Obj) : (s.modObj h f).parts = s.parts := rfl
@[simp] theorem State.modObj_sch (s : State) (h : Nat) (f : Obj → Obj) : (s.modObj h f).sch = s.sch := rfl
@[simp] theorem State.modObj_convoys (s : State) (h : Nat) (f : Obj → Obj) : (s.modObj h f).convoys = s.convoys := rfl
@[simp] theorem State.modObj_accounts (s : State) (h : Nat) (f : Obj → Obj) :
    (s.modObj h f).accounts = s.accounts := rfl
@[simp] theorem State.modObj_mem (s : State) (h : Nat) (f : Obj → Obj) : (s.modObj h f).mem = s.mem := rfl
@[simp] theorem State.modObj_host (s : State) (h : Nat) (f : Obj → Obj) : (s.modObj h f).host = s.host := rfl
@[simp] theorem State.modObj_fw (s : State) (h : Nat) (f : Obj → Obj) : (s.modObj h f).fw = s.fw := rfl
@[simp] theorem State.modObj_pipes (s : State) (h : Nat) (f : Obj → Obj) : (s.modObj h f).pipes = s.pipes := rfl
@[simp] theorem State.modObj_layers (s : State) (h : Nat) (f : Obj → Obj) : (s.modObj h f).layers = s.layers := rfl
@[simp] theorem State.modObj_syncs (s : State) (h : Nat) (f : Obj → Obj) : (s.modObj h f).syncs = s.syncs := rfl
@[simp] theorem State.modObj_caravan (s : State) (h : Nat) (f : Obj → Obj) : (s.modObj h f).caravan = s.caravan := rfl
@[simp] theorem State.modObj_flt (s : State) (h : Nat) (f : Obj → Obj) : (s.modObj h f).flt = s.flt := rfl
@[simp] theorem State.modObj_logbook (s : State) (h : Nat) (f : Obj → Obj) : (s.modObj h f).logbook = s.logbook := rfl
@[simp] theorem State.modObj_power (s : State) (h : Nat) (f : Obj → Obj) : (s.modObj h f).power = s.power := rfl
@[simp] theorem State.modObj_thermal (s : State) (h : Nat) (f : Obj → Obj) : (s.modObj h f).thermal = s.thermal := rfl
@[simp] theorem State.modObj_mram (s : State) (h : Nat) (f : Obj → Obj) : (s.modObj h f).mram = s.mram := rfl
@[simp] theorem State.modObj_boot (s : State) (h : Nat) (f : Obj → Obj) : (s.modObj h f).boot = s.boot := rfl
@[simp] theorem State.modObj_sampleRings (s : State) (h : Nat) (f : Obj → Obj) :
    (s.modObj h f).sampleRings = s.sampleRings := rfl
@[simp] theorem State.modObj_counters (s : State) (h : Nat) (f : Obj → Obj) :
    (s.modObj h f).counters = s.counters := rfl
@[simp] theorem State.modObj_pending (s : State) (h : Nat) (f : Obj → Obj) : (s.modObj h f).pending = s.pending := rfl

/-! ### setWatch -/

@[simp] theorem State.setWatch_clk (s : State) (u : Nat) (w : Watch) : (s.setWatch u w).clk = s.clk := rfl
@[simp] theorem State.setWatch_pins (s : State) (u : Nat) (w : Watch) : (s.setWatch u w).pins = s.pins := rfl
@[simp] theorem State.setWatch_engines (s : State) (u : Nat) (w : Watch) : (s.setWatch u w).engines = s.engines := rfl
@[simp] theorem State.setWatch_queues (s : State) (u : Nat) (w : Watch) : (s.setWatch u w).queues = s.queues := rfl
@[simp] theorem State.setWatch_dups (s : State) (u : Nat) (w : Watch) : (s.setWatch u w).dups = s.dups := rfl
@[simp] theorem State.setWatch_events (s : State) (u : Nat) (w : Watch) : (s.setWatch u w).events = s.events := rfl
@[simp] theorem State.setWatch_cmpJobs (s : State) (u : Nat) (w : Watch) : (s.setWatch u w).cmpJobs = s.cmpJobs := rfl
@[simp] theorem State.setWatch_jobs (s : State) (u : Nat) (w : Watch) : (s.setWatch u w).jobs = s.jobs := rfl
@[simp] theorem State.setWatch_turns (s : State) (u : Nat) (w : Watch) : (s.setWatch u w).turns = s.turns := rfl
@[simp] theorem State.setWatch_passes (s : State) (u : Nat) (w : Watch) : (s.setWatch u w).passes = s.passes := rfl
@[simp] theorem State.setWatch_nextPass (s : State) (u : Nat) (w : Watch) :
    (s.setWatch u w).nextPass = s.nextPass := rfl
@[simp] theorem State.setWatch_parts (s : State) (u : Nat) (w : Watch) : (s.setWatch u w).parts = s.parts := rfl
@[simp] theorem State.setWatch_sch (s : State) (u : Nat) (w : Watch) : (s.setWatch u w).sch = s.sch := rfl
@[simp] theorem State.setWatch_convoys (s : State) (u : Nat) (w : Watch) : (s.setWatch u w).convoys = s.convoys := rfl
@[simp] theorem State.setWatch_accounts (s : State) (u : Nat) (w : Watch) :
    (s.setWatch u w).accounts = s.accounts := rfl
@[simp] theorem State.setWatch_mmu (s : State) (u : Nat) (w : Watch) : (s.setWatch u w).mmu = s.mmu := rfl
@[simp] theorem State.setWatch_mem (s : State) (u : Nat) (w : Watch) : (s.setWatch u w).mem = s.mem := rfl
@[simp] theorem State.setWatch_host (s : State) (u : Nat) (w : Watch) : (s.setWatch u w).host = s.host := rfl
@[simp] theorem State.setWatch_fw (s : State) (u : Nat) (w : Watch) : (s.setWatch u w).fw = s.fw := rfl
@[simp] theorem State.setWatch_pipes (s : State) (u : Nat) (w : Watch) : (s.setWatch u w).pipes = s.pipes := rfl
@[simp] theorem State.setWatch_layers (s : State) (u : Nat) (w : Watch) : (s.setWatch u w).layers = s.layers := rfl
@[simp] theorem State.setWatch_syncs (s : State) (u : Nat) (w : Watch) : (s.setWatch u w).syncs = s.syncs := rfl
@[simp] theorem State.setWatch_caravan (s : State) (u : Nat) (w : Watch) : (s.setWatch u w).caravan = s.caravan := rfl
@[simp] theorem State.setWatch_logbook (s : State) (u : Nat) (w : Watch) : (s.setWatch u w).logbook = s.logbook := rfl
@[simp] theorem State.setWatch_power (s : State) (u : Nat) (w : Watch) : (s.setWatch u w).power = s.power := rfl
@[simp] theorem State.setWatch_thermal (s : State) (u : Nat) (w : Watch) : (s.setWatch u w).thermal = s.thermal := rfl
@[simp] theorem State.setWatch_mram (s : State) (u : Nat) (w : Watch) : (s.setWatch u w).mram = s.mram := rfl
@[simp] theorem State.setWatch_boot (s : State) (u : Nat) (w : Watch) : (s.setWatch u w).boot = s.boot := rfl
@[simp] theorem State.setWatch_sampleRings (s : State) (u : Nat) (w : Watch) :
    (s.setWatch u w).sampleRings = s.sampleRings := rfl
@[simp] theorem State.setWatch_counters (s : State) (u : Nat) (w : Watch) :
    (s.setWatch u w).counters = s.counters := rfl
@[simp] theorem State.setWatch_pending (s : State) (u : Nat) (w : Watch) : (s.setWatch u w).pending = s.pending := rfl

/-! ### putLog -/

@[simp] theorem State.putLog_clk (s : State) (r : LogRec) : (s.putLog r).clk = s.clk := rfl
@[simp] theorem State.putLog_pins (s : State) (r : LogRec) : (s.putLog r).pins = s.pins := rfl
@[simp] theorem State.putLog_engines (s : State) (r : LogRec) : (s.putLog r).engines = s.engines := rfl
@[simp] theorem State.putLog_queues (s : State) (r : LogRec) : (s.putLog r).queues = s.queues := rfl
@[simp] theorem State.putLog_dups (s : State) (r : LogRec) : (s.putLog r).dups = s.dups := rfl
@[simp] theorem State.putLog_events (s : State) (r : LogRec) : (s.putLog r).events = s.events := rfl
@[simp] theorem State.putLog_cmpJobs (s : State) (r : LogRec) : (s.putLog r).cmpJobs = s.cmpJobs := rfl
@[simp] theorem State.putLog_jobs (s : State) (r : LogRec) : (s.putLog r).jobs = s.jobs := rfl
@[simp] theorem State.putLog_turns (s : State) (r : LogRec) : (s.putLog r).turns = s.turns := rfl
@[simp] theorem State.putLog_passes (s : State) (r : LogRec) : (s.putLog r).passes = s.passes := rfl
@[simp] theorem State.putLog_nextPass (s : State) (r : LogRec) : (s.putLog r).nextPass = s.nextPass := rfl
@[simp] theorem State.putLog_parts (s : State) (r : LogRec) : (s.putLog r).parts = s.parts := rfl
@[simp] theorem State.putLog_sch (s : State) (r : LogRec) : (s.putLog r).sch = s.sch := rfl
@[simp] theorem State.putLog_convoys (s : State) (r : LogRec) : (s.putLog r).convoys = s.convoys := rfl
@[simp] theorem State.putLog_accounts (s : State) (r : LogRec) : (s.putLog r).accounts = s.accounts := rfl
@[simp] theorem State.putLog_mmu (s : State) (r : LogRec) : (s.putLog r).mmu = s.mmu := rfl
@[simp] theorem State.putLog_mem (s : State) (r : LogRec) : (s.putLog r).mem = s.mem := rfl
@[simp] theorem State.putLog_host (s : State) (r : LogRec) : (s.putLog r).host = s.host := rfl
@[simp] theorem State.putLog_fw (s : State) (r : LogRec) : (s.putLog r).fw = s.fw := rfl
@[simp] theorem State.putLog_pipes (s : State) (r : LogRec) : (s.putLog r).pipes = s.pipes := rfl
@[simp] theorem State.putLog_layers (s : State) (r : LogRec) : (s.putLog r).layers = s.layers := rfl
@[simp] theorem State.putLog_syncs (s : State) (r : LogRec) : (s.putLog r).syncs = s.syncs := rfl
@[simp] theorem State.putLog_caravan (s : State) (r : LogRec) : (s.putLog r).caravan = s.caravan := rfl
@[simp] theorem State.putLog_flt (s : State) (r : LogRec) : (s.putLog r).flt = s.flt := rfl
@[simp] theorem State.putLog_power (s : State) (r : LogRec) : (s.putLog r).power = s.power := rfl
@[simp] theorem State.putLog_thermal (s : State) (r : LogRec) : (s.putLog r).thermal = s.thermal := rfl
@[simp] theorem State.putLog_mram (s : State) (r : LogRec) : (s.putLog r).mram = s.mram := rfl
@[simp] theorem State.putLog_boot (s : State) (r : LogRec) : (s.putLog r).boot = s.boot := rfl
@[simp] theorem State.putLog_sampleRings (s : State) (r : LogRec) : (s.putLog r).sampleRings = s.sampleRings := rfl
@[simp] theorem State.putLog_counters (s : State) (r : LogRec) : (s.putLog r).counters = s.counters := rfl
@[simp] theorem State.putLog_pending (s : State) (r : LogRec) : (s.putLog r).pending = s.pending := rfl

/-! ### Reading what was written -/

@[simp] theorem State.eng_setEng (s : State) (e : Nat) (v : Eng) : (s.setEng e v).eng e = v := by
  simp [State.eng, State.setEng]
theorem State.eng_setEng_ne (s : State) {e k : Nat} (v : Eng) (h : k ≠ e) : (s.setEng e v).eng k = s.eng k := by
  simp [State.eng, State.setEng, mgetD_mset_ne _ _ _ h]
@[simp] theorem State.eng_modEng (s : State) (e : Nat) (f : Eng → Eng) : (s.modEng e f).eng e = f (s.eng e) :=
  s.eng_setEng e _
theorem State.eng_modEng_ne (s : State) {e k : Nat} (f : Eng → Eng) (h : k ≠ e) : (s.modEng e f).eng k = s.eng k :=
  s.eng_setEng_ne _ h
@[simp] theorem State.str?_setStr (s : State) (e p : Nat) (st : Str) : (s.setStr e p st).str? e p = some st := by
  simp [State.str?, State.setStr]
theorem State.str?_setStr_ne (s : State) {e p e' p' : Nat} (st : Str) (h : (e', p') ≠ (e, p)) :
    (s.setStr e p st).str? e' p' = s.str? e' p' := by
  by_cases he : e' = e
  · subst he
    have hp : p' ≠ p := fun hp => h (by rw [hp])
    simp [State.str?, State.setStr, mget_mset_ne _ _ hp]
  · simp [State.str?, State.setStr, State.eng_modEng_ne _ _ he]
@[simp] theorem State.wg?_setStr (s : State) (e p k n : Nat) (st : Str) : (s.setStr e p st).wg? k n = s.wg? k n := by
  by_cases h : k = e
  · subst h; simp [State.wg?, State.setStr]
  · simp [State.wg?, State.setStr, State.eng_modEng_ne _ _ h]
@[simp] theorem State.wg?_setWg (s : State) (e n : Nat) (g : Wg) : (s.setWg e n g).wg? e n = some g := by
  simp [State.wg?, State.setWg]
theorem State.wg?_setWg_ne (s : State) {e n k j : Nat} (g : Wg) (h : (k, j) ≠ (e, n)) :
    (s.setWg e n g).wg? k j = s.wg? k j := by
  by_cases he : k = e
  · subst he
    have hn : j ≠ n := fun hn => h (by rw [hn])
    simp [State.wg?, State.setWg, mget_mset_ne _ _ hn]
  · simp [State.wg?, State.setWg, State.eng_modEng_ne _ _ he]
@[simp] theorem State.str?_setWg (s : State) (e n k p : Nat) (g : Wg) : (s.setWg e n g).str? k p = s.str? k p := by
  by_cases h : k = e
  · subst h; simp [State.str?, State.setWg]
  · simp [State.str?, State.setWg, State.eng_modEng_ne _ _ h]
@[simp] theorem State.queue?_setQueue (s : State) (q : Nat) (v : Queue) : (s.setQueue q v).queue? q = some v := by
  simp [State.queue?, State.setQueue]
theorem State.queue?_setQueue_ne (s : State) {q k : Nat} (v : Queue) (h : k ≠ q) :
    (s.setQueue q v).queue? k = s.queue? k := by
  simp [State.queue?, State.setQueue, mget_mset_ne _ _ h]
theorem State.queue?_modQueue (s : State) (q k : Nat) (f : Queue → Queue) :
    (s.modQueue q f).queue? k = if k = q then (s.queue? q).map f else s.queue? k := by
  simp [State.queue?, State.modQueue, mget_mmod]
@[simp] theorem State.ring_setRing (s : State) (r : Nat) (c : CookieRing) : (s.setRing r c).ring r = c := by
  simp [State.ring, State.setRing]
theorem State.ring_setRing_ne (s : State) {r k : Nat} (c : CookieRing) (h : k ≠ r) : (s.setRing r c).ring k = s.ring k := by
  simp [State.ring, State.setRing, mgetD_mset_ne _ _ _ h]
@[simp] theorem State.mbx_setMbx (s : State) (n : Nat) (p : MbxPair) : (s.setMbx n p).mbx n = p := by
  simp [State.mbx, State.setMbx]
theorem State.mbx_setMbx_ne (s : State) {n k : Nat} (p : MbxPair) (h : k ≠ n) : (s.setMbx n p).mbx k = s.mbx k := by
  simp [State.mbx, State.setMbx, mgetD_mset_ne _ _ _ h]
@[simp] theorem State.port_setPort (s : State) (p : Nat) (v : Port) : (s.setPort p v).caravan.port p = v := by
  simp [State.setPort, Caravan.port]
theorem State.port_setPort_ne (s : State) {p k : Nat} (v : Port) (h : k ≠ p) :
    (s.setPort p v).caravan.port k = s.caravan.port k := by
  simp [State.setPort, Caravan.port, mgetD_mset_ne _ _ _ h]


end Sys2Proof.Machine
end

