-- ==== Sys2Proof/Laws/Ops.lean ====
section
/-! SUPPORT. The shared operations of Machine/Ops.lean, each with one law that says everything it can change, and what the
invariant of Safety.lean makes of it. -/

namespace Sys2Proof.Machine

/-! ### Free values and counters -/

theorem State.draw_eq (s : State) : s.draw = (s.peek 0, s.drew 1) := rfl

/-- Counting changes the counters only. -/
theorem State.bump_rest (s : State) (b i e n : Nat) : { (s.bump b i e n) with counters := s.counters } = s := by
  unfold State.bump; split <;> rfl

theorem State.ctr_bump (s : State) (b i e n : Nat) (h : s.ctr b i e < 2 ^ 56) :
    (s.bump b i e n).ctr b i e = (s.ctr b i e + n) % 2 ^ 56 := by
  unfold State.bump; split
  · rename_i e; subst e; rw [Nat.add_zero, Nat.mod_eq_of_lt h]
  · simp [State.ctr]

theorem State.ctr_bump_ne (s : State) (b i e n b' i' e' : Nat) (h : ctrKey b' i' e' ≠ ctrKey b i e) :
    (s.bump b i e n).ctr b' i' e' = s.ctr b' i' e' := by
  unfold State.bump; split
  · rfl
  · simp [State.ctr, mgetD_mset_ne _ _ _ h]

@[simp] theorem State.bump_engines (s : State) (b i e n : Nat) : (s.bump b i e n).engines = s.engines := by
  unfold State.bump; split <;> rfl
@[simp] theorem State.bump_queues (s : State) (b i e n : Nat) : (s.bump b i e n).queues = s.queues := by
  unfold State.bump; split <;> rfl
@[simp] theorem State.bump_mem (s : State) (b i e n : Nat) : (s.bump b i e n).mem = s.mem := by
  unfold State.bump; split <;> rfl
@[simp] theorem State.bump_flt (s : State) (b i e n : Nat) : (s.bump b i e n).flt = s.flt := by
  unfold State.bump; split <;> rfl
@[simp] theorem State.bump_host (s : State) (b i e n : Nat) : (s.bump b i e n).host = s.host := by
  unfold State.bump; split <;> rfl
@[simp] theorem State.bump_clk (s : State) (b i e n : Nat) : (s.bump b i e n).clk = s.clk := by
  unfold State.bump; split <;> rfl
@[simp] theorem State.bump_pending (s : State) (b i e n : Nat) : (s.bump b i e n).pending = s.pending := by
  unfold State.bump; split <;> rfl

/-! ### Toward the host: only the host side differs -/

/-- Two states that differ at most in the host side. -/
def HostOnly (s t : State) : Prop := ∃ h, t = { s with host := h }

theorem HostOnly.refl (s : State) : HostOnly s s := ⟨s.host, rfl⟩
theorem HostOnly.trans {s t u : State} (a : HostOnly s t) (b : HostOnly t u) : HostOnly s u := by
  obtain ⟨h, rfl⟩ := a
  obtain ⟨k, rfl⟩ := b
  exact ⟨k, rfl⟩
theorem HostOnly.rest {s t : State} (a : HostOnly s t) : { t with host := s.host } = s := by
  obtain ⟨h, rfl⟩ := a
  rfl

theorem State.send_hostOnly (s : State) (m : OutMsg) : HostOnly s (s.send m) := by
  unfold State.send; split <;> exact ⟨_, rfl⟩
theorem State.hostWrite_hostOnly (s : State) (a : Nat) (l : List Byte) : HostOnly s (s.hostWrite a l) := by
  unfold State.hostWrite; split
  · exact .refl s
  · exact s.send_hostOnly _
theorem State.sendMsix_hostOnly (s : State) (v : Nat) : HostOnly s (s.sendMsix v) := by
  unfold State.sendMsix; dsimp only; split
  · exact ⟨_, rfl⟩
  · exact s.send_hostOnly _
theorem State.setRing_hostOnly (s : State) (r : Nat) (c : CookieRing) : HostOnly s (s.setRing r c) := ⟨_, rfl⟩
theorem State.cookie_hostOnly (s : State) (v k f src x : Nat) : HostOnly s (s.cookie v k f src x) := by
  unfold State.cookie; dsimp only; split
  · exact s.setRing_hostOnly _ _
  · split
    · exact .refl s
    · exact (s.setRing_hostOnly _ _).trans (State.send_hostOnly _ _)
theorem State.interrupt_hostOnly (s : State) (v k f src x : Nat) : HostOnly s (s.interrupt v k f src x) :=
  (s.cookie_hostOnly v k f src x).trans (State.sendMsix_hostOnly _ _)
theorem State.interruptOpt_hostOnly (s : State) (v k f src x : Nat) : HostOnly s (s.interruptOpt v k f src x) := by
  unfold State.interruptOpt; split
  · exact .refl s
  · exact s.interrupt_hostOnly v k f src x
theorem State.noting_hostOnly (s : State) (f : State → State) : HostOnly (f s) (s.noting f) := by
  unfold State.noting
  generalize f s = t
  dsimp only
  generalize t.hrwState = x
  generalize s.hrwState = y
  split
  · exact .refl t
  · exact t.interrupt_hostOnly 9 0x6 0 x 0
theorem State.lostWrite_hostOnly (s : State) (b : Bool) (off : Nat) (d : List Byte) : HostOnly s (s.lostWrite b off d) := by
  unfold State.lostWrite; dsimp only; split
  · exact ⟨_, rfl⟩
  · exact HostOnly.trans ⟨_, rfl⟩ (State.interrupt_hostOnly _ _ _ _ _ _)
theorem State.output_hostOnly (s : State) (a : Nat) (l : List Byte) : HostOnly s (s.output a l) := by
  unfold State.output; split
  · exact .refl s
  · exact s.send_hostOnly _

/-- A message is on the host link, or waits in D3hot and in Halt (R253, R255). -/
theorem State.send_sent (s : State) (m : OutMsg) :
    if s.host.d3hot || s.halted then m ∈ (s.send m).host.waitOut else m ∈ (s.send m).host.out := by
  unfold State.send; split <;> simp

/-! ### The logbook queue: only the logbook differs -/

theorem State.submit_rest (s : State) (r : LogRec) (u : Bool) : { (s.submit r u) with logbook := s.logbook } = s := by
  unfold State.submit; dsimp only; repeat' split
  all_goals rfl
theorem State.log_rest (s : State) (ty a b c : Nat) : { (s.log ty a b c) with logbook := s.logbook } = s :=
  s.submit_rest _ _

/-- The queue never holds more than 16 records, one of them in the kept entry (R497). -/
theorem State.submit_logOk (s : State) (r : LogRec) (u : Bool) (h : s.logOk) : (s.submit r u).logOk := by
  obtain ⟨h1, h2, h3⟩ := h
  unfold State.submit
  dsimp only
  split
  · split
    · rename_i l
      refine ⟨by simpa using l, ?_, h3⟩
      by_cases k : (s.logbook.queue.filter (fun q => q.kept)).length = 0
      · simp [List.filter_append, k]
      · simpa [List.filter_append, k] using h2
    · split
      · exact ⟨h1, h2, by simpa using by assumption⟩
      · exact ⟨h1, h2, h3⟩
  · split
    · rename_i l
      have := List.length_filter_le (fun q : LogRec => q.kept) s.logbook.queue
      refine ⟨?_, by simpa [List.filter_append] using h2, h3⟩
      simp only [List.length_append, List.length_singleton]
      omega
    · exact ⟨h1, h2, h3⟩

/-! ### Faults (R480 to R496) -/

/-- Two states that differ at most in the fault collector, the host side, the board signals, the logbook and, after a
fatal fault, in the work of engines, jobs and passes. -/
def FaultOnly (s t : State) : Prop := ∃ f h p l e j q,
  t = { s with flt := f, host := h, pins := p, logbook := l, engines := e, jobs := j, passes := q }

theorem FaultOnly.refl (s : State) : FaultOnly s s := ⟨_, _, _, _, _, _, _, rfl⟩
theorem FaultOnly.trans {s t u : State} (a : FaultOnly s t) (b : FaultOnly t u) : FaultOnly s u := by
  obtain ⟨_, _, _, _, _, _, _, rfl⟩ := a
  obtain ⟨_, _, _, _, _, _, _, rfl⟩ := b
  exact ⟨_, _, _, _, _, _, _, rfl⟩
theorem HostOnly.fault {s t : State} (a : HostOnly s t) : FaultOnly s t := by
  obtain ⟨h, rfl⟩ := a
  exact ⟨_, h, _, _, _, _, _, rfl⟩
theorem State.submit_faultOnly (s : State) (r : LogRec) (u : Bool) : FaultOnly s (s.submit r u) := by
  unfold State.submit; dsimp only; repeat' split
  all_goals first | exact .refl s | exact ⟨_, _, _, _, _, _, _, rfl⟩

/-- The change that makes a fault fatal. -/
theorem State.goFatal_eq (s : State) : ∃ t, HostOnly t s.goFatal ∧
    t = { s with flt := { s.flt with fatal := true, held := true }, engines := [], jobs := [], passes := []
                 pins := { s.pins with errN := true } } :=
  ⟨_, s.noting_hostOnly _, rfl⟩

theorem State.goFatal_faultOnly (s : State) : FaultOnly s s.goFatal := by
  obtain ⟨t, h, e⟩ := s.goFatal_eq
  exact FaultOnly.trans ⟨_, _, _, _, _, _, _, e⟩ h.fault

/-- After a fatal fault: FATAL shows, ERR_N is held and asserted, and every unit's work is gone (R490, R496). -/
theorem State.goFatal_fatal (s : State) : s.goFatal.flt.fatal = true ∧ s.goFatal.flt.held = true
    ∧ s.goFatal.pins.errN = true ∧ s.goFatal.engines = [] ∧ s.goFatal.jobs = [] ∧ s.goFatal.passes = [] := by
  obtain ⟨t, ⟨h, e⟩, rfl⟩ := s.goFatal_eq
  rw [e]
  exact ⟨rfl, rfl, rfl, rfl, rfl, rfl⟩

theorem FaultOnly.ite {s a b : State} {p : Prop} [Decidable p] (ha : FaultOnly s a) (hb : FaultOnly s b) :
    FaultOnly s (if p then a else b) := by
  split <;> assumption
theorem State.startPulse_faultOnly (s : State) : FaultOnly s s.startPulse := ⟨_, _, _, _, _, _, _, rfl⟩
theorem FaultOnly.ofFlt (s : State) (f : Flt) : FaultOnly s { s with flt := f } := ⟨f, _, _, _, _, _, _, rfl⟩
theorem State.capChanged_hostOnly (s : State) : HostOnly s s.capChanged := ⟨_, rfl⟩

theorem State.addRecord_faultOnly (s : State) (r : FltRecord) (l n u : Bool) : FaultOnly s (s.addRecord r l n u) := by
  unfold State.addRecord
  have h : ∀ x, FaultOnly s (if l = true then { s with flt := x }.submit
      { LogRec.blank 0x01 (if s.fw.masterAlive then 0 else 1) with
        arg0 := BitVec.ofNat 64 (s.flt.next.toNat + r.code * 2 ^ 32 + r.cls * 2 ^ 48 + r.flags * 2 ^ 56)
        arg1 := BitVec.ofNat 64 (r.unitKind % 256 + r.index % 256 * 256 + r.count * 65536)
        arg2 := r.addr } u else { s with flt := x }) := fun x =>
    .ite ((FaultOnly.ofFlt s x).trans (State.submit_faultOnly _ _ _)) (.ofFlt s x)
  exact .ite ((h _).trans (State.interrupt_hostOnly _ _ _ _ _ _).fault) (h _)

/-- Recording a fault changes nothing but what `FaultOnly` names: no queue, no byte of memory, no clock. -/
theorem State.recordFaultBy_faultOnly (s : State) (f : FaultIn) (third : Bool) : FaultOnly s (s.recordFaultBy f third) := by
  unfold State.recordFaultBy
  refine .ite (.refl s) ?_
  dsimp only
  split
  · exact .ofFlt s _
  · refine .ite (.trans ?_ (State.goFatal_faultOnly _)) ?_ <;> refine .trans ?_ (State.addRecord_faultOnly _ _ _ _ _) <;>
      refine .ite (.trans ?_ (State.startPulse_faultOnly _)) ?_ <;> refine .ite ?_ ?_
    all_goals first
      | exact .trans (.trans (.ofFlt s _) (State.noting_hostOnly s _).fault) (State.capChanged_hostOnly _).fault
      | (split; exacts [.ofFlt s _, .refl s])

theorem State.recordFault_faultOnly (s : State) (f : FaultIn) : FaultOnly s (s.recordFault f) :=
  s.recordFaultBy_faultOnly f false
theorem State.report_faultOnly (s : State) (c k i a x : Nat) : FaultOnly s (s.report c k i a x) := s.recordFault_faultOnly _

@[simp] theorem State.report_mem (s : State) (c k i a x : Nat) : (s.report c k i a x).mem = s.mem := by
  obtain ⟨_, _, _, _, _, _, _, e⟩ := s.report_faultOnly c k i a x; rw [e]
@[simp] theorem State.report_queues (s : State) (c k i a x : Nat) : (s.report c k i a x).queues = s.queues := by
  obtain ⟨_, _, _, _, _, _, _, e⟩ := s.report_faultOnly c k i a x; rw [e]
@[simp] theorem State.report_fw (s : State) (c k i a x : Nat) : (s.report c k i a x).fw = s.fw := by
  obtain ⟨_, _, _, _, _, _, _, e⟩ := s.report_faultOnly c k i a x; rw [e]
@[simp] theorem State.report_pending (s : State) (c k i a x : Nat) : (s.report c k i a x).pending = s.pending := by
  obtain ⟨_, _, _, _, _, _, _, e⟩ := s.report_faultOnly c k i a x; rw [e]

/-! ### The parts of the invariant that an update leaves alone -/

/-- What only changes the host side keeps the invariant. -/
theorem HostOnly.inv {s t : State} (a : HostOnly s t) (h : s.Inv) : t.Inv := by
  obtain ⟨_, rfl⟩ := a
  exact ⟨h.mem, h.fatal, h.err, h.log, h.power, h.boot, h.records⟩

theorem State.submit_inv (s : State) (r : LogRec) (u : Bool) (h : s.Inv) : (s.submit r u).Inv := by
  have e := s.submit_rest r u
  have k := s.submit_logOk r u h.log
  generalize s.submit r u = t at e k
  rw [← e] at h
  exact ⟨h.mem, h.fatal, h.err, k, h.power, h.boot, h.records⟩

theorem State.goFatal_inv (s : State) (h : s.Inv) : s.goFatal.Inv := by
  obtain ⟨t, e, rfl⟩ := s.goFatal_eq
  exact e.inv ⟨h.mem, fun _ => rfl, rfl, h.log, h.power, h.boot, h.records⟩

/-- A change of the collector that keeps its records in order and leaves ERR_N and FATAL alone. -/
theorem State.Inv.ofFlt {s : State} (h : s.Inv) (f : Flt) (r : Map.sorted f.records = true) (e1 : f.fatal = s.flt.fatal)
    (e2 : f.held = s.flt.held) (e3 : f.pulse = s.flt.pulse) (e4 : f.swLevel = s.flt.swLevel) :
    ({ s with flt := f } : State).Inv :=
  ⟨h.mem, fun k => e2 ▸ h.fatal (e1 ▸ k), by rw [State.errOk, e2, e3, e4]; exact h.err, h.log, h.power, h.boot, r⟩

theorem State.Inv.ite {a b : State} {p : Prop} [Decidable p] (ha : a.Inv) (hb : b.Inv) : (if p then a else b).Inv := by
  split <;> assumption

theorem State.startPulse_inv (s : State) (h : s.Inv) : s.startPulse.Inv :=
  ⟨h.mem, h.fatal, rfl, h.log, h.power, h.boot, h.records⟩

theorem State.addRecord_inv (s : State) (r : FltRecord) (l n u : Bool) (h : s.Inv) : (s.addRecord r l n u).Inv := by
  unfold State.addRecord
  have k : ∀ x, State.Inv { s with flt := x } → State.Inv (if l = true then { s with flt := x }.submit
      { LogRec.blank 0x01 (if s.fw.masterAlive then 0 else 1) with
        arg0 := BitVec.ofNat 64 (s.flt.next.toNat + r.code * 2 ^ 32 + r.cls * 2 ^ 48 + r.flags * 2 ^ 56)
        arg1 := BitVec.ofNat 64 (r.unitKind % 256 + r.index % 256 * 256 + r.count * 65536)
        arg2 := r.addr } u else { s with flt := x }) := fun x hx => .ite (State.submit_inv _ _ _ hx) hx
  have hx := h.ofFlt { s.flt with
    records := (mset s.flt.records s.flt.next.toNat r).filter (fun p => (s.flt.next.toNat + 2 ^ 32 - p.1) % 2 ^ 32 < 1024)
    next := s.flt.next + 1 } (sorted_filter _ _ (sorted_mset _ _ _ h.records)) rfl rfl rfl rfl
  exact .ite ((State.interrupt_hostOnly _ _ _ _ _ _).inv (k _ hx)) (k _ hx)

/-- Recording a fault keeps the invariant. -/
theorem State.recordFaultBy_inv (s : State) (f : FaultIn) (third : Bool) (h : s.Inv) : (s.recordFaultBy f third).Inv := by
  unfold State.recordFaultBy
  refine .ite h ?_
  dsimp only
  split
  · exact h.ofFlt _ (sorted_mset _ _ _ h.records) rfl rfl rfl rfl
  · refine .ite (State.goFatal_inv _ ?_) ?_ <;> refine State.addRecord_inv _ _ _ _ _ ?_ <;>
      refine .ite (State.startPulse_inv _ ?_) ?_ <;> refine .ite ?_ ?_
    all_goals first
      | (refine (State.capChanged_hostOnly _).inv ((State.noting_hostOnly s _).inv ?_)
         exact h.ofFlt _ h.records rfl rfl rfl rfl)
      | (split; exacts [h.ofFlt _ h.records rfl rfl rfl rfl, h])

theorem State.report_inv (s : State) (c k i a x : Nat) (h : s.Inv) : (s.report c k i a x).Inv := s.recordFaultBy_inv _ _ h

end Sys2Proof.Machine
end

