-- ==== Sys2Proof/Laws/Issue.lean ====
section
/-! SUPPORT. The issue of an instruction (R77 to R79, R97), in the four ways it can go, and the registers of a string. -/

namespace Sys2Proof.Machine

/-! ### Registers -/

@[simp] theorem Str.v_setV (st : Str) (r lane : Nat) (w : Word) : (st.setV r lane w).v r lane = w := by
  simp [Str.v, Str.setV]

/-- Registers of the 32 lanes have numbers of their own. -/
theorem Str.v_setV_ne (st : Str) {r lane r' lane' : Nat} (w : Word) (hl : lane < 32) (hl' : lane' < 32)
    (h : (r', lane') ≠ (r, lane)) : (st.setV r lane w).v r' lane' = st.v r' lane' := by
  have k : 32 * r' + lane' ≠ 32 * r + lane := by
    intro e
    exact h (by rw [Prod.mk.injEq]; omega)
  simp [Str.v, Str.setV, mgetD_mset_ne _ _ _ k]

@[simp] theorem Str.u_setU (st : Str) (r : Nat) (w : Dword) : (st.setU r w).u r = w := by simp [Str.u, Str.setU]
theorem Str.u_setU_ne (st : Str) {r k : Nat} (w : Dword) (h : k ≠ r) : (st.setU r w).u k = st.u k := by
  simp [Str.u, Str.setU, mgetD_mset_ne _ _ _ h]
/-- p7 reads as true (R71). -/
@[simp] theorem Str.p_seven (st : Str) : st.p 7 = 0xFFFFFFFF#32 := rfl
/-- A write to p7 is discarded (R71). -/
@[simp] theorem Str.setP_seven (st : Str) (l : Nat) (b : Bool) : st.setP 7 l b = st := rfl

theorem mem_lanesOf (m : Word) (i : Nat) : i ∈ lanesOf m ↔ i < 32 ∧ bit m.toNat i = true := by
  simp [lanesOf, bitList]

/-- What a fold of register writes leaves: the value of each lane that the list names once, the rest as before. -/
theorem mapLanes_v (a : Act) (st : Str) (f : Nat → Word) (r i : Nat) (hi : i < 32) :
    (mapLanes a st f).v r i = if r = a.hdr.dst.toNat ∧ i ∈ lanesOf a.lanes then f i else st.v r i := by
  unfold mapLanes
  have hl : ∀ j ∈ lanesOf a.lanes, j < 32 := fun j hj => ((mem_lanesOf _ j).1 hj).1
  generalize lanesOf a.lanes = l at hl ⊢
  induction l using List.reverseRecOn with
  | nil => simp
  | append_singleton l j ih =>
    have hj : j < 32 := hl j (by simp)
    have ih := ih (fun k hk => hl k (by simp [hk]))
    rw [List.foldl_append, List.foldl_cons, List.foldl_nil]
    by_cases e : (r, i) = (a.hdr.dst.toNat, j)
    · obtain ⟨rfl, rfl⟩ := Prod.mk.injEq .. ▸ e
      simp
    · rw [Str.v_setV_ne _ _ hj hi e, ih]
      by_cases hr : r = a.hdr.dst.toNat
      · have : i ≠ j := fun h => e (by rw [hr, h])
        simp [hr, this]
      · simp [hr]

theorem mapLanes_rest (a : Act) (st : Str) (f : Nat → Word) : { (mapLanes a st f) with vregs := st.vregs } = st := by
  unfold mapLanes
  induction lanesOf a.lanes generalizing st with
  | nil => rfl
  | cons j l ih =>
    rw [List.foldl_cons]
    have := ih (st.setV a.hdr.dst.toNat j (f j))
    generalize List.foldl _ _ l = x at this ⊢
    exact congrArg (fun y : Str => { y with vregs := st.vregs }) this

/-! ### Issue -/

/-- An instruction that can issue runs on the state in which its issue has been counted. -/
theorem State.issue_runs {s : State} {w : Site} {h : Hdr} {u : Use} {st : Str} {g : Group} {rest : List Group}
    (c : CanIssue s w h u st g rest) (cls : Nat) (body : Act → State → State) :
    s.issue w h cls true u body = .next (body (actOf w h st g) (s.issued w cls st)) := by
  have hb : ((h.pred.toNat + 256) :: u.all).any (fun r => st.busy.contains r) = false := by
    simpa [List.any_eq_false] using c.settled
  unfold State.issue
  dsimp only
  split
  · rename_i e; rw [c.resident] at e; cases e
  · rename_i st' e
    rw [c.resident] at e
    cases e
    split
    · rename_i k; rw [c.groups] at k; cases k
    · rename_i g' rest' k
      rw [c.groups] at k
      cases k
      rw [if_neg (by simp [c.working, c.free, c.ready, c.eligible, c.budget, c.chosen]), if_neg (by simp [c.encoded]),
        if_neg (by rw [hb]; simp)]
      rfl

/-- A string that cannot issue: the command changes nothing (log entry 12). -/
theorem State.issue_stays {s : State} {w : Site} (c : CannotIssue s w) (h : Hdr) (cls : Nat) (legal : Bool) (u : Use)
    (body : Act → State → State) : s.issue w h cls legal u body = .next s := by
  unfold State.issue
  dsimp only
  split
  · rfl
  · rename_i st hs
    split
    · rfl
    · rename_i g rest hg
      rw [if_pos]
      rcases c with c | c | c
      · simp [c]
      · simp [c]
      · rcases c st hs with k | k | k
        · simp [k]
        · simp [k]
        · rcases k g rest hg with k | k <;> simp [k]

/-- Issue always answers a next state. -/
theorem State.issue_next (s : State) (w : Site) (h : Hdr) (cls : Nat) (legal : Bool) (u : Use) (body : Act → State → State) :
    ∃ t, s.issue w h cls legal u body = .next t := by
  unfold State.issue
  dsimp only
  repeat' split
  all_goals exact ⟨_, rfl⟩

/-- An encoding that the rules forbid stops the dispatch with E_ILLEGAL_INSTRUCTION (R71, R97). -/
theorem State.issue_illegal {s : State} {w : Site} {st : Str} {g : Group} {rest : List Group} (h : Hdr) (cls : Nat)
    (legal : Bool) (u : Use) (body : Act → State → State)
    (working : s.working = true) (free : s.frozen w.engine.val = false)
    (resident : s.str? w.engine.val w.place.val = some st) (groups : st.groups = g :: rest) (ready : st.state = .ready)
    (eligible : g.block = .open) (budget : g.budget ≠ 0) (chosen : (s.eng w.engine.val).chosen w.place.val st = true)
    (bad : (legal && u.legal st.regs) = false) :
    s.issue w h cls legal u body = .next (s.trap w.engine.val st.queue st.cmd eIllegal 0) := by
  unfold State.issue
  simp only [resident, groups]
  rw [if_neg (by simp [working, free, ready, eligible, budget, chosen]), if_pos]
  revert bad; cases legal <;> cases u.legal st.regs <;> simp

/-- A pending register blocks the active group (R78). -/
theorem State.issue_blocks {s : State} {w : Site} {st : Str} {g : Group} {rest : List Group} {h : Hdr} {u : Use} (cls : Nat)
    (body : Act → State → State) (working : s.working = true) (free : s.frozen w.engine.val = false)
    (resident : s.str? w.engine.val w.place.val = some st) (groups : st.groups = g :: rest) (ready : st.state = .ready)
    (eligible : g.block = .open) (budget : g.budget ≠ 0) (chosen : (s.eng w.engine.val).chosen w.place.val st = true)
    (encoded : u.legal st.regs = true) (pending : ∃ r ∈ (h.pred.toNat + 256) :: u.all, r ∈ st.busy) :
    s.issue w h cls true u body = .next (s.setStr w.engine.val w.place.val (st.blockHead .scoreboard)) := by
  have hb : ((h.pred.toNat + 256) :: u.all).any (fun r => st.busy.contains r) = true := by
    simpa [List.any_eq_true] using pending
  unfold State.issue
  simp only [resident, groups]
  rw [if_neg (by simp [working, free, ready, eligible, budget, chosen]), if_neg (by simp [encoded]), if_pos hb]

/-- What the issue of a lane instruction leaves. -/
theorem State.issueLane_runs {s : State} {w : Site} {h : Hdr} {u : Use} {st : Str} {g : Group} {rest : List Group}
    (c : CanIssue s w h u st g rest) (cls ctr : Nat) (f : Act → Nat → Word) :
    let a := actOf w h st g
    s.issueLane w h cls ctr u f = .next (((s.issued w cls st).bump blkCE a.e ctr (laneCount st g h)).setStr a.e a.place
      ((mapLanes a a.str.step (f a)).pend u.writes)) :=
  State.issue_runs c cls _

/-- What the issue of an instruction that only changes its own string leaves. -/
theorem State.issueStr_runs {s : State} {w : Site} {h : Hdr} {u : Use} {st : Str} {g : Group} {rest : List Group}
    (c : CanIssue s w h u st g rest) (cls : Nat) (f : Act → Str → Str) :
    let a := actOf w h st g
    s.issueStr w h cls true u f = .next ((s.issued w cls st).setStr a.e a.place ((f a a.str.step).pend u.writes)) :=
  State.issue_runs c cls _

/-- A compare likewise. -/
theorem State.issueSetp_runs {s : State} {w : Site} {h : Hdr} {u : Use} {st : Str} {g : Group} {rest : List Group}
    (c : CanIssue s w h u st g rest) (cls ctr pd : Nat) (f : Act → Nat → Bool) :
    let a := actOf w h st g
    s.issueSetp w h cls ctr u pd f = .next (((s.issued w cls st).bump blkCE a.e ctr (laneCount st g h)).setStr a.e a.place
      (((lanesOf a.lanes).foldl (fun st i => st.setP pd i (f a i)) a.str.step).pend u.writes)) :=
  State.issue_runs c cls _

/-- Two states that differ at most in one string, in counters and in progress. -/
theorem State.issued_str (s : State) (w : Site) (cls : Nat) (st : Str) :
    (s.issued w cls st).str? w.engine.val w.place.val = some { st with promoted := none } :=
  State.str?_setStr _ _ _ _

theorem State.issued_str_ne (s : State) (w : Site) (cls : Nat) (st : Str) {e p : Nat}
    (h : (e, p) ≠ (w.engine.val, w.place.val)) : (s.issued w cls st).str? e p = s.str? e p := by
  unfold State.issued
  rw [State.str?_setStr_ne _ _ h]
  simp [State.str?, State.eng]

/-- Killing a command leaves none of its strings (R97). -/
theorem Eng.kill_strs (v : Eng) (q cmd p : Nat) (st : Str) (h : mget (v.kill q cmd).strs p = some st) :
    ¬ (st.queue = q ∧ st.cmd = cmd) := by
  have key : ∀ m : Map Str, mget (m.filter (fun p => !(p.2.queue = q && p.2.cmd = cmd))) p = some st →
      ¬ (st.queue = q ∧ st.cmd = cmd) := by
    intro m
    induction m with
    | nil => simp
    | cons x m ih =>
      obtain ⟨k, y⟩ := x
      by_cases hy : y.queue = q ∧ y.cmd = cmd
      · rw [List.filter_cons_of_neg (by simp [hy])]; exact ih
      · rw [List.filter_cons_of_pos (by simpa [← not_and_or] using hy)]
        simp only [mget]
        split
        · intro e; cases e; exact hy
        · exact ih
  exact key v.strs h

end Sys2Proof.Machine
end

