-- ==== Sys2Proof/Laws/L2.lean ====
section
/-! SUPPORT. Reads and writes of local physical addresses: what the caches and the DRAM channels do on the way never
touches a byte, and a write leaves exactly its bytes. -/

namespace Sys2Proof.Machine

/-- Two states that differ at most in cache lines, queued partial writes, event counters and free values drawn. -/
def CacheOnly (s t : State) : Prop := ∃ l p c n,
  t = { s with mem := { s.mem with lines := l, partials := p }, counters := c, clk := { s.clk with fresh := n } }

theorem CacheOnly.refl (s : State) : CacheOnly s s := ⟨_, _, _, _, rfl⟩
theorem CacheOnly.trans {s t u : State} (a : CacheOnly s t) (b : CacheOnly t u) : CacheOnly s u := by
  obtain ⟨_, _, _, _, rfl⟩ := a
  obtain ⟨_, _, _, _, rfl⟩ := b
  exact ⟨_, _, _, _, rfl⟩
theorem CacheOnly.ite {s a b : State} {p : Prop} [Decidable p] (ha : CacheOnly s a) (hb : CacheOnly s b) :
    CacheOnly s (if p then a else b) := by
  split <;> assumption
theorem CacheOnly.foldl {α : Type} {f : State → α → State} (h : ∀ s a, CacheOnly s (f s a)) (l : List α) (s : State) :
    CacheOnly s (l.foldl f s) := by
  induction l generalizing s with
  | nil => exact .refl s
  | cons a l ih => exact (h s a).trans (ih _)
theorem CacheOnly.loop {f : State → Nat → State} (h : ∀ s a, CacheOnly s (f s a)) (n : Nat) (s : State) :
    CacheOnly s (loop n s f) := .foldl h _ s
theorem CacheOnly.cells {s t : State} (a : CacheOnly s t) : t.mem.cells = s.mem.cells := by
  obtain ⟨_, _, _, _, rfl⟩ := a; rfl
theorem CacheOnly.poison {s t : State} (a : CacheOnly s t) : t.mem.poison = s.mem.poison := by
  obtain ⟨_, _, _, _, rfl⟩ := a; rfl
theorem CacheOnly.inv {s t : State} (a : CacheOnly s t) (h : s.Inv) : t.Inv := by
  obtain ⟨_, _, _, _, rfl⟩ := a
  exact ⟨h.mem, h.fatal, h.err, h.log, h.power, h.boot, h.records⟩

theorem State.bump_cacheOnly (s : State) (b i e n : Nat) : CacheOnly s (s.bump b i e n) := by
  unfold State.bump; split
  · exact .refl s
  · exact ⟨_, _, _, _, rfl⟩
theorem State.draw_cacheOnly (s : State) : CacheOnly s s.draw.2 := ⟨_, _, _, _, rfl⟩
theorem CacheOnly.lines (s : State) (l : Map L2Line) : CacheOnly s { s with mem := { s.mem with lines := l } } :=
  ⟨_, _, _, _, rfl⟩
theorem CacheOnly.partials (s : State) (p : List Partial) : CacheOnly s { s with mem := { s.mem with partials := p } } :=
  ⟨_, _, _, _, rfl⟩

theorem State.dramTouch_cacheOnly (s : State) (pa n : Nat) (w : Bool) : CacheOnly s (s.dramTouch pa n w) :=
  .ite ((State.bump_cacheOnly _ _ _ _ _).trans ((State.draw_cacheOnly _).trans (State.bump_cacheOnly _ _ _ _ _)))
    (State.bump_cacheOnly _ _ _ _ _)

theorem State.partialWrite_cacheOnly (s : State) (a m : Nat) : CacheOnly s (s.partialWrite a m) := by
  unfold State.partialWrite
  dsimp only
  split <;> exact (State.bump_cacheOnly s _ _ _ _).trans (.partials _ _)

theorem State.evict_cacheOnly (s : State) (k : Nat) : CacheOnly s (s.evict k) := by
  unfold State.evict
  split
  · exact .refl s
  · refine .trans (.lines s _) (.ite (.refl _) (.loop (fun s k => ?_) 4 _))
    exact .ite (.ite ((State.bump_cacheOnly _ _ _ _ _).trans (State.dramTouch_cacheOnly _ _ _ _))
      ((State.bump_cacheOnly _ _ _ _ _).trans (State.partialWrite_cacheOnly _ _ _))) (.refl s)

/-- Choosing a victim changes ages of lines only (R161). -/
theorem Mem.victim_lines (m : Mem) (sl set w : Nat) (m' : Mem) (h : m.victim sl set = some (w, m')) :
    ∃ l, m' = { m with lines := l } := by
  unfold Mem.victim at h
  dsimp only at h
  split at h
  · cases h; exact ⟨_, rfl⟩
  · obtain ⟨x, -, hx⟩ := Option.map_eq_some_iff.1 h
    cases hx; exact ⟨_, rfl⟩

theorem State.fillLine_cacheOnly (s : State) (pa : Nat) (die : Option Nat) (age : Nat) (v : BitVec 128) (d : BitVec 4)
    (x : List Byte) : CacheOnly s (s.fillLine pa die age v d x) := by
  unfold State.fillLine
  dsimp only
  split
  · exact .refl s
  · rename_i w m h
    obtain ⟨l, rfl⟩ := s.mem.victim_lines _ _ _ _ h
    exact (CacheOnly.lines s l).trans ((State.evict_cacheOnly _ _).trans (.lines _ _))

theorem State.lineRead_cacheOnly (s : State) (pa pol : Nat) : CacheOnly s (s.lineRead pa pol) := by
  unfold State.lineRead
  dsimp only
  split
  · exact (State.bump_cacheOnly s _ _ _ _).trans (.lines _ _)
  · refine CacheOnly.trans (t := ((s.bump _ _ _ _).dramTouch _ _ _)) ?_
      (.ite (.refl _) (State.fillLine_cacheOnly _ _ _ _ _ _ _))
    exact (State.bump_cacheOnly _ _ _ _ _).trans (State.dramTouch_cacheOnly _ _ _ _)

theorem State.lineWrite_cacheOnly (s : State) (pa n pol : Nat) : CacheOnly s (s.lineWrite pa n pol) := by
  unfold State.lineWrite
  dsimp only
  split
  · exact (State.bump_cacheOnly s _ _ _ _).trans (.lines _ _)
  · refine .ite (.loop (fun s k => ?_) 4 s)
      ((State.bump_cacheOnly _ _ _ _ _).trans (State.fillLine_cacheOnly _ _ _ _ _ _ _))
    exact .ite (.refl s) (.ite (State.dramTouch_cacheOnly _ _ _ _) (State.partialWrite_cacheOnly _ _ _))

/-- A read changes no byte and no poison. -/
theorem State.readPhys_cells (s : State) (pa n pol : Nat) : (s.readPhys pa n pol).2.mem.cells = s.mem.cells
    ∧ (s.readPhys pa n pol).2.mem.poison = s.mem.poison := by
  have h := CacheOnly.foldl (f := fun (s : State) (p : Nat × Nat) => s.lineRead p.1 (polCode pol))
    (fun s p => s.lineRead_cacheOnly _ _) (linePieces pa n) s
  unfold State.readPhys
  split
  · exact ⟨h.cells, h.poison⟩
  · dsimp only; split <;> exact ⟨by simp, by simp⟩
  · exact ⟨by simp, by simp⟩
  · exact ⟨by simp, by simp⟩

/-- A read of local DRAM answers the bytes there, and whether any is poisoned (R225). -/
theorem State.readPhys_dram (s : State) (pa n pol : Nat) (h : s.mem.whereIs pa = .dram) :
    (s.readPhys pa n pol).1 = (memRead s.mem.cells pa n, s.mem.poisoned pa n) := by
  unfold State.readPhys; rw [h]

/-- A write of local DRAM leaves its bytes and no other. -/
theorem State.writePhys_dram (s : State) (pa : Nat) (l : List Byte) (pol x : Nat) (h : s.mem.whereIs pa = .dram)
    (w : Memory.wf s.mem.cells = true) : memGet (s.writePhys pa l pol).mem.cells x
      = if pa ≤ x ∧ x < pa + l.length then l.getD (x - pa) 0 else memGet s.mem.cells x := by
  have e := CacheOnly.foldl (f := fun (s : State) (p : Nat × Nat) => s.lineWrite p.1 p.2 (polCode pol))
    (fun s p => s.lineWrite_cacheOnly _ _ _) (linePieces pa l.length) s
  unfold State.writePhys
  rw [h]
  show memGet (memWrite _ _ _) _ = _
  rw [e.cells]
  exact memGet_memWrite l s.mem.cells pa x w

/-- A write keeps the canonical form of memory. -/
theorem State.writePhys_wf (s : State) (pa : Nat) (l : List Byte) (pol : Nat) (w : s.memOk) : (s.writePhys pa l pol).memOk := by
  have e := CacheOnly.foldl (f := fun (s : State) (p : Nat × Nat) => s.lineWrite p.1 p.2 (polCode pol))
    (fun s p => s.lineWrite_cacheOnly _ _ _) (linePieces pa l.length) s
  unfold State.writePhys
  split
  · show Memory.wf (memWrite _ _ _) = true
    rw [e.cells]
    exact wf_memWrite l _ pa w
  · dsimp only; split
    · show Memory.wf _ = true
      rw [State.bump_mem]; exact w
    · show Memory.wf (memWrite _ _ _) = true
      rw [State.bump_mem]; exact wf_memWrite l _ pa w
  · show Memory.wf _ = true
    rw [State.report_mem]; exact w
  · show Memory.wf _ = true
    rw [State.report_mem]; exact w

theorem State.zeroPhys_wf (s : State) (a n : Nat) (w : s.memOk) : (s.zeroPhys a n).memOk := wf_memZero _ a n w

/-- Zeroed bytes read 0, every other byte is as before (R207). -/
theorem State.zeroPhys_bytes (s : State) (a n x : Nat) (w : s.memOk) :
    memGet (s.zeroPhys a n).mem.cells x = if a ≤ x ∧ x < a + n then 0 else memGet s.mem.cells x :=
  memGet_memZero s.mem.cells a n x w

end Sys2Proof.Machine
end

