-- ==== Sys2Proof/Laws/Mailbox.lean ====
section
/-! SUPPORT. The mailbox (R282, R291 to R293): what an answer changes, and that serving a request always answers. -/

namespace Sys2Proof.Machine

theorem State.deliver_hostOnly (s : State) (n : Nat) (b : List Byte) : HostOnly s (s.deliver n b) :=
  HostOnly.trans ⟨_, rfl⟩ (State.interrupt_hostOnly _ _ _ _ _ _)

theorem State.answer_hostOnly (s : State) (n : Nat) (b : List Byte) : HostOnly s (s.answer n b) := by
  unfold State.answer
  dsimp only
  split
  · exact ⟨_, rfl⟩
  · exact s.deliver_hostOnly n b

/-- What an interrupt leaves of the mailbox pairs. -/
@[simp] theorem State.mbx_send (s : State) (m : OutMsg) (n : Nat) : (s.send m).mbx n = s.mbx n := by
  unfold State.send; split <;> rfl
@[simp] theorem State.mbx_sendMsix (s : State) (v n : Nat) : (s.sendMsix v).mbx n = s.mbx n := by
  unfold State.sendMsix; dsimp only; split
  · rfl
  · simp
@[simp] theorem State.mbx_cookie (s : State) (v k f src x n : Nat) : (s.cookie v k f src x).mbx n = s.mbx n := by
  unfold State.cookie; dsimp only; split
  · rfl
  · split
    · rfl
    · rw [State.mbx_send]; rfl
@[simp] theorem State.mbx_interrupt (s : State) (v k f src x n : Nat) : (s.interrupt v k f src x).mbx n = s.mbx n := by
  simp [State.interrupt]

/-- A delivered response: RSP_READY, the frame, the request gone; the other pairs as before (R261, R282). -/
theorem State.deliver_mbx (s : State) (n : Nat) (b : List Byte) :
    (s.deliver n b).mbx n = { s.mbx n with rsp := b, rspReady := true, reqPending := false, held := none } := by
  simp [State.deliver]
theorem State.deliver_mbx_ne (s : State) {n k : Nat} (b : List Byte) (h : k ≠ n) : (s.deliver n b).mbx k = s.mbx k := by
  simp [State.deliver, State.mbx_setMbx_ne _ _ h]

/-- An answer is delivered, or held while the last response has not been acknowledged (R282). -/
theorem State.answer_mbx (s : State) (n : Nat) (b : List Byte) : (s.answer n b).mbx n
    = if (s.mbx n).rspReady then { s.mbx n with held := some b }
      else { s.mbx n with rsp := b, rspReady := true, reqPending := false, held := none } := by
  unfold State.answer
  dsimp only
  split
  · simp
  · exact s.deliver_mbx n b
theorem State.answer_mbx_ne (s : State) {n k : Nat} (b : List Byte) (h : k ≠ n) : (s.answer n b).mbx k = s.mbx k := by
  unfold State.answer
  dsimp only
  split
  · exact State.mbx_setMbx_ne _ _ h
  · exact s.deliver_mbx_ne b h

/-- Two states that differ at most in the host side, the sessions, and the logbook's queue. -/
def AnswerOnly (s t : State) : Prop := ∃ h x l,
  t = { s with host := h, fw := { s.fw with sessions := x }, logbook := l }

theorem AnswerOnly.refl (s : State) : AnswerOnly s s := ⟨_, _, _, rfl⟩
theorem AnswerOnly.trans {s t u : State} (a : AnswerOnly s t) (b : AnswerOnly t u) : AnswerOnly s u := by
  obtain ⟨_, _, _, rfl⟩ := a
  obtain ⟨_, _, _, rfl⟩ := b
  exact ⟨_, _, _, rfl⟩
theorem AnswerOnly.ite {s a b : State} {p : Prop} [Decidable p] (ha : AnswerOnly s a) (hb : AnswerOnly s b) :
    AnswerOnly s (if p then a else b) := by
  split <;> assumption
theorem HostOnly.answers {s t : State} (a : HostOnly s t) : AnswerOnly s t := by
  obtain ⟨h, rfl⟩ := a
  exact ⟨h, _, _, rfl⟩
theorem State.submit_answerOnly (s : State) (r : LogRec) (u : Bool) : AnswerOnly s (s.submit r u) := by
  unfold State.submit; dsimp only; repeat' split
  all_goals first | exact .refl s | exact ⟨_, _, _, rfl⟩
theorem State.modSession_answerOnly (s : State) (n : Nat) (f : Session → Session) : AnswerOnly s (s.modSession n f) :=
  ⟨_, _, _, rfl⟩

theorem State.logCommand_answerOnly (s : State) (role session op tag status error : Nat) :
    AnswerOnly s (s.logCommand role session op tag status error) := by
  unfold State.logCommand
  split
  · exact .refl s
  · exact .ite (.refl s) (s.submit_answerOnly _ _)

/-- The answer to a request changes nothing else. -/
theorem State.finish_answerOnly (s : State) (r : Req) (keep log : Bool) (a : Ans) : AnswerOnly s (s.finish r keep log a) := by
  unfold State.finish
  dsimp only
  refine .trans ?_ (State.answer_hostOnly _ _ _).answers
  refine AnswerOnly.ite (.trans ?_ (State.logCommand_answerOnly _ _ _ _ _ _ _)) ?_ <;>
    exact .ite (s.modSession_answerOnly _ _) (.refl s)

/-- An answer leaves the other pairs as they were. -/
theorem State.finish_mbx_ne (s : State) (r : Req) (keep log : Bool) (a : Ans) {n : Nat} (h : n ≠ r.pair) :
    (s.finish r keep log a).mbx n = s.mbx n := by
  have sub : ∀ (t : State) (x : LogRec) (u : Bool), (t.submit x u).mbx n = t.mbx n := fun t x u => by
    have e := t.submit_rest x u
    generalize t.submit x u = v at e
    rw [← e]; rfl
  have lc : ∀ (t : State) (a b c d e f : Nat), (t.logCommand a b c d e f).mbx n = t.mbx n := fun t a b c d e f => by
    unfold State.logCommand
    split
    · rfl
    · split
      · rfl
      · exact sub _ _ _
  unfold State.finish
  dsimp only
  rw [State.answer_mbx_ne _ _ h]
  have ite : ∀ (p : Bool) (x y : State), (if p = true then x else y).mbx n = if p = true then x.mbx n else y.mbx n :=
    fun p x y => by cases p <;> rfl
  rw [ite, lc, ite_self, ite]
  exact ite_self _

/-- Serving a request always answers a next state. -/
theorem State.mbxServe_next (s : State) (pair : Nat) (mine : List Byte → Bool) (act : Req → State → Ans × State) :
    ∃ t, s.mbxServe pair mine act = .next t := by
  unfold State.mbxServe
  dsimp only
  repeat' split
  all_goals exact ⟨_, rfl⟩

theorem State.mbxCmd_next (s : State) (pair : Fin 8) (op : Nat) (act : Req → State → Ans × State) :
    ∃ t, s.mbxCmd pair op act = .next t := s.mbxServe_next _ _ _

/-- No request that this command may take waits now: nothing happens (log entry 12). -/
theorem State.mbxServe_idle (s : State) (pair : Nat) (mine : List Byte → Bool) (act : Req → State → Ans × State)
    (h : s.mbxOpen = false ∨ (s.mbx pair).reqPending = false ∨ (s.mbx pair).held.isSome = true
      ∨ mine (s.mbx pair).req = false) : s.mbxServe pair mine act = .next s := by
  unfold State.mbxServe
  dsimp only
  rw [if_pos]
  rcases h with h | h | h | h <;> simp [h]

/-- A request that reaches its command: the command acts, and its answer is given, kept and logged (R293). -/
theorem State.mbxServe_served {s : State} {m : MbxRow} {r : Req} {x : Session} (h : Served s m r x)
    (act : Req → State → Ans × State) :
    s.mbxServe m.pair.val m.mine act
      = .next ((act r s).2.finish r (r.op ≠ 0x0001) true (act r s).1) := by
  obtain ⟨l1, l2, l3, l4⟩ := h.listens
  have open_ : s.mbxOpen = true := by simp [State.mbxOpen, l1, l2, l3, l4]
  have hb := h.body
  have hp := h.revision
  have hs := h.opened
  have ag := h.agreed
  have hr : ({ pair := m.pair.val, op := frameOp r.body, tag := getLe r.body 2 2, session := getLe r.body 4 4
               proto := getLe r.body 8 1, role := x.role, body := r.body } : Req) = r := by
    rw [← h.pair, ← h.tag, ← h.session, ← h.proto, ← h.role, frameOp, h.opcode.1, ← h.opcode.2]
  have find : x.kept.find? (fun k => k.tag = getLe r.body 2 2) = none := by
    rw [List.find?_eq_none, ← h.tag]; simpa using h.new
  obtain ⟨c, hc, hrev, hrole, hzero⟩ := h.known
  rw [← h.opcode.2] at hc
  unfold State.mbxServe
  dsimp only
  rw [← hb, if_neg (by simp [open_, h.posted, h.unheld, h.row])]
  rw [if_neg (by rw [← h.proto]; simp; omega), if_neg]
  · rw [← h.session, hs]
    dsimp only
    rw [h.session, if_neg (by rw [← h.proto]; simpa using ag), find]
    dsimp only
    rw [hr]
    unfold State.mbxExecute
    rw [if_neg, hc]
    · dsimp only
      rw [if_neg (by omega), if_neg (by simpa using hrole), if_neg, if_neg (by simp [hzero])]
      rcases h.alive with k | k
      · simp [k]
      · rw [← h.opcode.2] at k; simp [k]
    · rcases h.authed with k | k | k
      · simp [k]
      · simp [h.opcode.2, k]
      · simp [h.opcode.2, k]
  · rw [← h.proto]
    intro k
    simp only [Bool.and_eq_true, decide_eq_true_eq] at k
    exact k.2 (h.check k.1)

end Sys2Proof.Machine
end

