-- ==== Sys2Proof/Tests/Base.lean ====
section
/-! SUPPORT. Small states that the tests and the witnesses of the statements' hypotheses start from, and Boolean forms of
those hypotheses that come in bundles. -/

namespace Sys2Proof.Tests

set_option Elab.async false

open Sys2Proof.Machine

/-! ### One string of one dispatch on engine 0 -/

def w0 : Site := { engine := 0, place := 0 }
/-- Unpredicated; DST r4, SRC0 r8, SRC1 r12. -/
def h0 : Hdr := { pred := 7, pneg := false, dst := 4, src0 := 8, src1 := 12 }
def g0 : Group := { pc := 0x1000, mask := 3, budget := 64, block := .open }
def st0 : Str :=
  { queue := 0, cmd := 1, wg := 0, kind := .compute, regs := 64, stamp := 0, state := .ready, promoted := none, live := 3
    groups := [g0], vregs := [], preds := [], uregs := [], busy := [], noGrow := false, pixels := [], coverage := [] }
def wg0 : Wg :=
  { queue := 0, cmd := 1, index := 0, threads := 32, exited := 0, strings := 1, sharedSize := 1024, shared := []
    sharedSeed := 0, bars := [] }
def disp0 : Disp :=
  { queue := 0, cmd := 1, entry := 0x1000, total := 1, threads := 32, regs := 64, shared := 1024, args := 0, u2 := 0
    next := 1, gang := false, badFree := false, gangOps := 0, granules := 0 }
def cmd0 : Cmd :=
  { index := 1, opcode := 0x01, crec := true, serial := false, seq := 1, waybill := 0x77, handles := [], payload := []
    st := .started, detail := 0, preempted := false, fallback := false, stops := false, inStream := false
    headerRead := false, signalled := false }
def q0 : Queue :=
  { asid := 1, sizeLog := 8, kind := 0, vector := 32, ringVa := 0, convoy := none, unit := 0, head := 2, tail := 2, last := 1
    rung := [], stopped := false, stalled := none, stallHdr := [], cmds := [cmd0], stream := none, diverted := none
    atBatchStart := false, inBatch := false, batchDone := false, passOpen := false, pass := none, lastOrder := none }
def eng0 (st : Str) : Eng := { Eng.reset with strs := [(0, st)], wgs := [(0, wg0)], disps := [disp0] }

/-- After boot, nothing in flight. -/
def up0 : State :=
  { State.reset with
    boot := { step := 255 }, host := { HostSide.reset with linkUp := true }
    fw := { Fw.reset with mbxReady := true, masterAlive := true } }
/-- Engine 0 runs one string. -/
def run0 (st : Str) : State := { up0 with engines := [(0, eng0 st)], queues := [(0, q0)] }

/-- A Boolean form of CanIssue. -/
def canIssueB (s : State) (w : Site) (h : Hdr) (u : Use) (st : Str) (g : Group) (rest : List Group) : Bool :=
  s.working && !s.frozen w.engine.val && s.str? w.engine.val w.place.val = some st && st.groups = g :: rest
  && st.state = .ready && g.block = .open && g.budget ≠ 0 && (s.eng w.engine.val).chosen w.place.val st
  && u.legal st.regs && ((h.pred.toNat + 256) :: u.all).all (fun r => !st.busy.contains r)

theorem canIssue_of {s : State} {w : Site} {h : Hdr} {u : Use} {st : Str} {g : Group} {rest : List Group}
    (b : canIssueB s w h u st g rest = true) : CanIssue s w h u st g rest := by
  simp only [canIssueB, Bool.and_eq_true, decide_eq_true_eq, Bool.not_eq_true', List.all_eq_true,
    List.contains_eq_mem, decide_eq_false_iff_not] at b
  obtain ⟨⟨⟨⟨⟨⟨⟨⟨⟨b1, b2⟩, b3⟩, b4⟩, b5⟩, b6⟩, b7⟩, b8⟩, b9⟩, b10⟩ := b
  exact ⟨b1, b2, b3, b4, b5, b6, b7, b8, b9, b10⟩

/-- The sample string issues any legal instruction. -/
theorem issues0 (u : Use) (legal : u.legal 64 = true) : CanIssue (run0 st0) w0 h0 u st0 g0 [] :=
  { working := by decide, free := by decide, resident := by decide, groups := rfl, ready := rfl, eligible := rfl
    budget := by decide, chosen := by decide, encoded := legal, settled := by simp [st0] }

end Sys2Proof.Tests
end

