-- ==== Sys2Proof/Tests/WStrings.lean ====
section
/-! SUPPORT. Witnesses: concrete states and operands that meet the hypotheses of the statements about strings, one
theorem for each statement, a conjunct for each of its clauses. -/

namespace Sys2Proof.Tests

set_option Elab.async false

open Sys2Proof.Machine

/-- The sample string with one executing lane, with registers set, and with eight registers only. -/
def one0 : Group := { g0 with mask := 1 }
def st1 : Str := { st0 with groups := [one0], live := 1 }
def withV (st : Str) (l : Map Word) : Str := { st with vregs := l }
def few0 : Str := { st0 with regs := 8 }
theorem issues1 (u : Use) (legal : u.legal 64 = true) : CanIssue (run0 st1) w0 h0 u st1 one0 [] :=
  { working := by decide, free := by decide, resident := by decide, groups := rfl, ready := rfl, eligible := rfl
    budget := by decide, chosen := by decide, encoded := legal, settled := by simp [st1, st0] }

theorem witness_LaneInstructionsWriteTheirResults :
    (∃ f, laneForm (.iadd w0 h0) = some f ∧ CanIssue (run0 st0) f.site f.hdr f.use st0 g0 [])
    ∧ (∃ f, laneForm (.bfe w0 h0 63 true) = some f ∧ CanIssue (run0 st0) f.site f.hdr f.use st0 g0 [])
    ∧ (∃ f, laneForm (.mov w0 h0 (.imm 5)) = some f ∧ CanIssue (run0 st0) f.site f.hdr f.use st0 g0 []) :=
  ⟨⟨_, rfl, issues0 _ (by decide)⟩, ⟨_, rfl, issues0 _ (by decide)⟩, ⟨_, rfl, issues0 _ (by decide)⟩⟩

theorem witness_ComparesWriteTheirPredicate :
    (∃ f, compareForm (.isetp w0 h0 .lt true 6) = some f ∧ CanIssue (run0 st0) f.site f.hdr f.use st0 g0 [])
    ∧ (∃ f, compareForm (.usetp w0 h0 .eq false 7) = some f ∧ CanIssue (run0 st0) f.site f.hdr f.use st0 g0 []) :=
  ⟨⟨_, rfl, issues0 _ (by decide)⟩, ⟨_, rfl, issues0 _ (by decide)⟩⟩

theorem witness_UniformInstructionsWriteOneRegister :
    (∃ f, uniformForm (.uadd w0 h0) = some f
      ∧ CanIssue (run0 st0) f.site f.hdr { use0 with ru := f.reads, wu := [f.hdr.dst.toNat] } st0 g0 [])
    ∧ 0 < laneCount st0 g0 h0 :=
  ⟨⟨_, rfl, issues0 _ (by decide)⟩, by decide⟩

/-- FP32 to MXFP8, and a signed 8-bit integer to FP32. -/
def cvtMx : CvtMode := { src := 0x0B, dst := 0x13, rm := 0, ieee := false, srcUns := false, dstUns := false, block16 := false }
def cvtInt : CvtMode := { src := 0x01, dst := 0x0B, rm := 2, ieee := true, srcUns := true, dstUns := false, block16 := false }
theorem witness_ConversionWritesTheConvertedElement :
    (∃ src dst, codeOf cvtMx.src.toNat = some src ∧ codeOf cvtMx.dst.toNat = some dst ∧ cvtMx.rm ≠ 3 ∧ dst.isMx = true
      ∧ (src.isInt = true ∨ cvtMx.srcUns = false) ∧ (dst.isInt = true ∨ cvtMx.dstUns = false)
      ∧ CanIssue (run0 st0) w0 h0 { use0 with
          rv := h0.src0.toNat :: (if src.isMx then [h0.src1.toNat] else [])
          wv := h0.dst.toNat :: (if dst.isMx then [h0.dst.toNat + 1] else []) } st0 g0 [])
    ∧ (∃ src dst, codeOf cvtInt.src.toNat = some src ∧ codeOf cvtInt.dst.toNat = some dst ∧ cvtInt.rm ≠ 3 ∧ dst.isMx = false
      ∧ (src.isInt = true ∨ cvtInt.srcUns = false) ∧ (dst.isInt = true ∨ cvtInt.dstUns = false)
      ∧ CanIssue (run0 st0) w0 h0 { use0 with
          rv := h0.src0.toNat :: (if src.isMx then [h0.src1.toNat] else [])
          wv := h0.dst.toNat :: (if dst.isMx then [h0.dst.toNat + 1] else []) } st0 g0 []) :=
  ⟨⟨_, _, rfl, rfl, by decide, rfl, .inr rfl, .inr rfl, issues0 _ (by decide)⟩,
   ⟨_, _, rfl, rfl, by decide, rfl, .inl rfl, .inr rfl, issues0 _ (by decide)⟩⟩

/-- SHFL with segments of 32 lanes, an immediate k of 1 and predicate p0, in each mode; VOTE on p7 in each mode. -/
def shflLow (mode : Nat) : BitVec 26 := BitVec.ofNat 26 (mode * 2 ^ 24 + 2 ^ 23 + 2 ^ 18 + 5 * 2 ^ 15)
def voteLow (mode : Nat) : BitVec 26 := BitVec.ofNat 26 (mode * 2 ^ 24 + 7 * 2 ^ 21)
theorem witness_ShuffleAndVoteCombineLanes :
    (∀ m, m < 4 → bits (shflLow m).toNat 17 15 ≤ 5 ∧ bits (shflLow m).toNat 11 0 = 0 ∧ bits (shflLow m).toNat 25 24 = m)
    ∧ (∀ m, m < 4 → CanIssue (run0 st0) w0 h0
        { useV ([h0.src0] ++ if bit (shflLow m).toNat 23 then [] else [h0.src1]) h0.dst with
          wp := [bits (shflLow m).toNat 14 12] } st0 g0 [])
    ∧ Executes st0 g0 h0 1
    ∧ (∀ m, m < 4 → bits (voteLow m).toNat 19 18 = 0 ∧ bits (voteLow m).toNat 14 0 = 0 ∧ bits (voteLow m).toNat 25 24 = m)
    ∧ (∀ m, m < 4 → CanIssue (run0 st0) w0 h0 { use0 with
        rv := if bits (voteLow m).toNat 25 24 = 2 then [h0.src0.toNat] else [], rp := [bits (voteLow m).toNat 23 21]
        wv := if bits (voteLow m).toNat 25 24 = 3 then [h0.dst.toNat] else []
        wp := if bits (voteLow m).toNat 25 24 = 3 then [] else [bits (voteLow m).toNat 17 15] } st0 g0 []) := by
  refine ⟨by decide, fun m hm => issues0 _ ?_, by decide, by decide, fun m hm => issues0 _ ?_⟩ <;>
    (revert m; decide)

/-- A string that is not there, one that waits, one whose group has no budget, one that another string precedes. -/
theorem witness_NothingIssuesFromAStringThatCannot :
    CannotIssue up0 w0 ∧ CannotIssue (run0 { st0 with state := .waiting }) w0
    ∧ CannotIssue (run0 { st0 with groups := [{ g0 with budget := 0 }] }) w0
    ∧ CannotIssue { run0 st0 with flt := { Flt.reset with fatal := true } } w0 := by
  refine ⟨.inr (.inr ?_), .inr (.inr ?_), .inr (.inr ?_), .inl (by decide)⟩
  · intro st h; cases h
  · intro st h; cases h; exact .inl (by decide)
  · intro st h; cases h; refine .inr (.inr fun g rest h => ?_); cases h; exact .inr rfl

theorem witness_IllegalRegistersStopTheDispatch :
    ∃ f, laneForm (.iadd w0 h0) = some f ∧ (run0 few0).working = true ∧ (run0 few0).frozen 0 = false
      ∧ (run0 few0).str? 0 0 = some few0 ∧ few0.groups = [g0] ∧ few0.state = .ready ∧ g0.block = .open ∧ g0.budget ≠ 0
      ∧ ((run0 few0).eng 0).chosen 0 few0 = true ∧ ∃ r ∈ f.use.rv ++ f.use.wv, few0.regs ≤ r :=
  ⟨_, rfl, by decide, by decide, by decide, rfl, rfl, rfl, by decide, by decide, 8, by decide, by decide⟩

theorem witness_PendingRegistersBlockTheGroup :
    let st : Str := { st0 with busy := [8] }
    ∃ f, laneForm (.iadd w0 h0) = some f ∧ (run0 st).working = true ∧ (run0 st).str? 0 0 = some st
      ∧ ((run0 st).eng 0).chosen 0 st = true ∧ f.use.legal st.regs = true
      ∧ ∃ r ∈ (f.hdr.pred.toNat + 256) :: f.use.all, r ∈ st.busy :=
  ⟨_, rfl, by decide, by decide, by decide, by decide, 8, by decide, by decide⟩

/-- JMP and CALLI to an aligned address, and to 4. -/
def away : Str := withV st0 [(32 * 8, 4)]
theorem witness_JumpsSendEveryLaneToItsAddress :
    CanIssue (run0 st0) w0 h0 use0 st0 g0 []
    ∧ CanIssue (run0 st0) w0 h0 { use0 with wv := regs h0.dst.toNat 2, ok := h0.dst.toNat % 2 = 0 } st0 g0 []
    ∧ CanIssue (run0 st0) w0 h0 (usePair h0.src0) st0 g0 []
    ∧ (∀ l ∈ lanesOf (g0.mask &&& st0.predLanes h0), (BitVec.ofNat 64 (st0.v2 h0.src0.toNat l)).toNat % 8 = 0)
    ∧ CanIssue (run0 st0) w0 h0 { usePair h0.src0 with
        wv := regs h0.dst.toNat 2, ok := h0.src0.toNat % 2 = 0 && h0.dst.toNat % 2 = 0 } st0 g0 []
    ∧ canIssueB (run0 away) w0 h0 (usePair h0.src0) away g0 [] = true
    ∧ (∃ l, Executes away g0 h0 l ∧ (BitVec.ofNat 64 (away.v2 h0.src0.toNat l)).toNat % 8 ≠ 0) :=
  ⟨issues0 _ (by decide), issues0 _ (by decide), issues0 _ (by decide), by decide, issues0 _ (by decide), by decide,
   0, by decide, by decide⟩

/-- Two groups: one at 0x1000, one behind it. -/
def two0 : Str := { st0 with groups := [one0, { g0 with mask := 2, pc := 0x800 }] }
theorem witness_ControlInstructionsActOnTheActiveGroup :
    CanIssue (run0 st0) w0 h0 (useV [] h0.dst) st0 g0 [] ∧ CanIssue (run0 st0) w0 h0 use0 st0 g0 []
    ∧ canIssueB (run0 two0) w0 h0 use0 two0 one0 [{ g0 with mask := 2, pc := 0x800 }] = true
    ∧ 0 < laneCount two0 one0 h0 ∧ bits (BitVec.ofNat 26 65535).toNat 25 16 = 0
    ∧ laneCount st0 g0 h0 = (lanesOf g0.mask).length ∧ (run0 st0).wg? 0 st0.wg = some wg0 :=
  ⟨issues0 _ (by decide), issues0 _ (by decide), by decide, by decide, by decide, by decide, by decide⟩

theorem witness_BarriersHoldGroupsUntilTheirCount :
    CanIssue (run0 st0) w0 h0 use0 st0 g0 [] ∧ (run0 st0).wg? 0 st0.wg = some wg0 ∧ wg0.waiting
    ∧ 0 < laneCount st0 g0 h0
    ∧ (let low : BitVec 26 := BitVec.ofNat 26 (15 * 2 ^ 22 + 1024 * 2 ^ 11)
       bits low.toNat 21 11 ≤ 1024 ∧ bits low.toNat 10 0 = 0
       ∧ wg0.arrived 15 2 < wg0.awaited 15 (bits low.toNat 21 11) - wg0.exited)
    ∧ (let low : BitVec 26 := BitVec.ofNat 26 (2 * 2 ^ 11)
       bits low.toNat 10 0 = 0 ∧ wg0.awaited 0 (bits low.toNat 21 11) - wg0.exited ≤ wg0.arrived 0 2)
    ∧ bits (0 : BitVec 26).toNat 21 0 = 0 :=
  ⟨issues0 _ (by decide), by decide, fun _ => rfl, by decide, by decide, by decide, by decide⟩

theorem witness_FencesAcquireAndRelease :
    CanIssue (run0 st0) w0 h0 use0 st0 g0 []
    ∧ (∀ scope, scope < 4 → ∀ order, order < 4 → order ≠ 0 →
        let low : BitVec 26 := BitVec.ofNat 26 (scope * 2 ^ 24 + order * 2 ^ 22)
        bits low.toNat 23 22 ≠ 0 ∧ bits low.toNat 21 0 = 0 ∧ bits low.toNat 25 24 = scope)
    ∧ 0 < laneCount st0 g0 h0 ∧ (run0 st0).unacked 0 0 = false :=
  ⟨issues0 _ (by decide), by decide, by decide, by decide⟩

/-- Shared loads and stores at the last bytes of the carve-out, and at address 1. -/
def shEnd : Str := withV st1 [(32 * 8, 1008)]
def shOdd : Str := withV st1 [(32 * 8, 1)]
theorem witness_SharedLoadsAndStoresMoveBytes :
    (run0 shEnd).wg? 0 shEnd.wg = some wg0
    ∧ (∀ size : Fin 5, canIssueB (run0 shEnd) w0 h0 { use0 with
        rv := [h0.src0.toNat], wv := regs h0.dst.toNat (regsFor size.val), ok := alignedReg size.val h0.dst } shEnd one0 []
          = true)
    ∧ (∀ size : Fin 5, canIssueB (run0 shEnd) w0 h0 { use0 with
        rv := h0.src0.toNat :: regs h0.src1.toNat (regsFor size.val), ok := alignedReg size.val h0.src1 } shEnd one0 [] = true)
    ∧ shEnd.helpers = []
    ∧ (∀ i ∈ lanesOf (one0.mask &&& shEnd.predLanes h0), (shEnd.v h0.src0.toNat i).toNat % 2 ^ 4 = 0
        ∧ (shEnd.v h0.src0.toNat i).toNat + 2 ^ 4 ≤ wg0.sharedSize)
    ∧ canIssueB (run0 shOdd) w0 h0 { use0 with rv := [h0.src0.toNat], wv := regs h0.dst.toNat 1 } shOdd one0 [] = true
    ∧ (∃ i, Executes shOdd one0 h0 i ∧ (shOdd.v h0.src0.toNat i).toNat % 4 ≠ 0) := by
  refine ⟨by decide, by decide, by decide, by decide, by decide, by decide, 0, by decide, by decide⟩

/-- The first GiB of virtual addresses translates to the same addresses of local memory (engine 0's TLB holds it). -/
def tlb0 : TlbEnt := { asid := 1, va := 0, bytes := 2 ^ 30, pte := 0xF }
def mapped (st : Str) (cells : List Host.Cell) : State :=
  { run0 st with
    mmu := { Mmu.reset with asids := [(1, { ring := 0, root := 0x2000 })], utlbs := [(0, [tlb0])] }
    mem := { Mem.reset with density := 2, cells := cells } }
/-- A translation answers what a check asks. -/
def okWith {α ε : Type} (x : Except ε α × State) (c : α → State → Bool) : Bool :=
  match x.1 with
  | .ok a => c a x.2
  | .error _ => false
theorem ok_of {α ε : Type} {x : Except ε α × State} {c : α → State → Bool} (h : okWith x c = true) :
    ∃ a s, x = (.ok a, s) ∧ c a s = true := by
  obtain ⟨x, s⟩ := x
  cases x with
  | ok a => exact ⟨a, s, rfl, h⟩
  | error e => cases h
def failWith {α ε : Type} (x : Except ε α × State) : Bool :=
  match x.1 with
  | .ok _ => false
  | .error _ => true
theorem fail_of {α ε : Type} {x : Except ε α × State} (h : failWith x = true) : ∃ e s, x = (.error e, s) := by
  obtain ⟨x, s⟩ := x
  cases x with
  | ok a => cases h
  | error e => exact ⟨e, s, rfl⟩
/-- Lanes' bytes in plain local memory. -/
def lanesLocalB (s : State) (l : List LaneAddr) (n : Nat) : Bool :=
  l.all (fun x => x.target = 0 && x.pa % n = 0 && x.pa + n ≤ s.mem.capacity && !s.mem.poisoned x.pa n)
theorem lanesLocal_of {s : State} {l : List LaneAddr} {n : Nat} (h : lanesLocalB s l n = true) :
    LanesLocal s l n ∧ ∀ x ∈ l, x.target = 0 := by
  simp only [lanesLocalB, List.all_eq_true, Bool.and_eq_true, decide_eq_true_eq, Bool.not_eq_true'] at h
  exact ⟨fun x hx _ => ⟨(h x hx).1.1.2, (h x hx).1.2, (h x hx).2⟩, fun x hx => (h x hx).1.1.1⟩
/-- An empty L1 agrees with memory. -/
theorem agrees_empty {s : State} {e : Nat} (h : (s.eng e).l1 = []) : L1Agrees s e := by
  intro k l hk; rw [h] at hk; cases hk

/-- Two lanes at 64 and 128. -/
def atG : Str := withV st0 [(32 * 8, 64), (32 * 8 + 1, 128)]
/-- An address that no page maps. -/
def lost : Str := withV st1 [(32 * 9, 1)]
theorem witness_LoadsReadLocalMemory :
    (∀ size : Fin 5, canIssueB (mapped atG []) w0 h0 { useAddr false h0.src0 with
        wv := regs h0.dst.toNat (regsFor size.val)
        ok := (useAddr false h0.src0).ok && alignedReg size.val h0.dst } atG g0 [] = true)
    ∧ (∀ x ∈ (actOf w0 h0 atG g0).addrs false, x.2 % 2 ^ 4 = 0)
    ∧ (∃ l s1, ((mapped atG []).accessing w0 h0 atG g0).translateLanes (actOf w0 h0 atG g0)
          ((actOf w0 h0 atG g0).addrs false) accRead = (.ok l, s1)
        ∧ (s1.hasTags l && lanesLocalB s1 l 16 && (s1.eng 0).l1.isEmpty && l.length = 2) = true)
    ∧ (∃ f s1, ((mapped lost []).accessing w0 h0 lost one0).translateLanes (actOf w0 h0 lost one0)
          ((actOf w0 h0 lost one0).addrs false) accRead = (.error f, s1)) :=
  ⟨by decide, by decide, ok_of (by decide +kernel), fail_of (by decide +kernel)⟩

theorem witness_StoresWriteLocalMemory :
    (∀ size : Fin 5, canIssueB (mapped atG []) w0 h0 { useAddr false h0.src0 with
        rv := (useAddr false h0.src0).rv ++ regs h0.src1.toNat (regsFor size.val)
        ok := (useAddr false h0.src0).ok && alignedReg size.val h0.src1 } atG g0 [] = true)
    ∧ atG.helpers = [] ∧ Memory.wf (mapped atG [(64, 7)]).mem.cells = true
    ∧ (∃ l s1, ((mapped atG []).accessing w0 h0 atG g0).translateLanes (actOf w0 h0 atG g0)
          ((actOf w0 h0 atG g0).addrs false) accWrite = (.ok l, s1)
        ∧ (s1.hasTags l && l.all (fun x => x.target = 0 && x.pa + 16 ≤ s1.mem.capacity) && l.length = 2) = true)
    ∧ (∃ f s1, ((mapped lost []).accessing w0 h0 lost one0).translateLanes (actOf w0 h0 lost one0)
          ((actOf w0 h0 lost one0).addrs false) accWrite = (.error f, s1)) :=
  ⟨by decide, by decide, by decide, ok_of (by decide +kernel), fail_of (by decide +kernel)⟩

/-- ATOM.CAS on 64 bits with a returned value, and ATOM.ADD on 32 bits of shared memory. -/
def casLow : BitVec 26 := BitVec.ofNat 26 (2 ^ 24 + 2 ^ 17 + 16 * 2 ^ 8)
def addSh : BitVec 26 := BitVec.ofNat 26 (2 ^ 22)
theorem witness_AtomicsUpdateMemoryOncePerLane :
    atomForm (.atomCas w0 h0 casLow) = some (.cas, w0, h0, casLow)
    ∧ (∃ n, atomWidth .cas (bits casLow.toNat 25 24) = some n ∧ bits casLow.toNat 7 0 = 0 ∧ bits casLow.toNat 23 22 = 0
      ∧ canIssueB (mapped atG []) w0 h0 (atomUse .cas h0 casLow n false) atG g0 [] = true ∧ atG.helpers = []
      ∧ (∀ x ∈ (actOf w0 h0 atG g0).addrs false, x.2 % n = 0)
      ∧ (∃ l s1, ((mapped atG []).combining w0 h0 atG g0).translateLanes (actOf w0 h0 atG g0)
            ((actOf w0 h0 atG g0).addrs false) accAtomic = (.ok l, s1)
          ∧ (s1.hasTags l && lanesLocalB s1 l n && !s1.unacked 0 0) = true))
    ∧ atomForm (.atomAdd w0 h0 addSh) = some (.add, w0, h0, addSh)
    ∧ (∃ n, atomWidth .add (bits addSh.toNat 25 24) = some n ∧ bits addSh.toNat 15 8 = 0 ∧ bits addSh.toNat 7 0 = 0
      ∧ bits addSh.toNat 23 22 = 1 ∧ bits addSh.toNat 21 20 = 0
      ∧ canIssueB (run0 shEnd) w0 h0 (atomUse .add h0 addSh n true) shEnd one0 [] = true
      ∧ (run0 shEnd).wg? 0 shEnd.wg = some wg0
      ∧ ∀ j ∈ lanesOf (one0.mask &&& shEnd.predLanes h0), (shEnd.v h0.src0.toNat j).toNat % n = 0
          ∧ (shEnd.v h0.src0.toNat j).toNat + n ≤ wg0.sharedSize) :=
  ⟨rfl, ⟨_, rfl, by decide, by decide, by decide, by decide, by decide, ok_of (by decide +kernel)⟩, rfl,
   ⟨_, rfl, by decide, by decide, by decide, by decide, by decide, by decide, by decide⟩⟩

end Sys2Proof.Tests
end

