-- ==== Sys2Proof/Tests/WTensor.lean ====
section
/-! SUPPORT. Witnesses for the statements about the allocator, tensor, texture, ray and tile instructions, and about the
drover, the launcher and gangs. -/

namespace Sys2Proof.Tests

set_option Elab.async false

open Sys2Proof.Machine

/-- A key that is there, with a check of its value. -/
def someWith {α : Type} (x : Option α) (c : α → Bool) : Bool :=
  match x with
  | some a => c a
  | none => false
theorem some_of {α : Type} {x : Option α} {c : α → Bool} (h : someWith x c = true) : ∃ a, x = some a ∧ c a = true := by
  cases x with
  | some a => exact ⟨a, rfl, h⟩
  | none => cases h

/-- Heap 0 of address space 1: no heap object, one block of 64 bytes in an object of 2 MiB. -/
def heap0 : Heap := { objs := [(0, 0)], blocks := [(0x200000, 0)], chunks := [(0x200000, 0)], badFrees := 0 }
def obj0 : Obj :=
  { asid := 1, va := 0x200000, size := 0x200000, page := 2, access := 3, cpol := 0, backing := 0, st := .live, uses := 0
    horizons := [], event := none }
def heaped (st : Str) (h : Heap) : State :=
  { run0 st with mmu := { Mmu.reset with heaps := [(256, h)], objs := [(0, obj0)] } }
def freeStr : Str := withV st1 [(32 * 8, 0x200000)]
def askStr : Str := withV st1 [(32 * 8, 64)]
theorem witness_AllocAndFreeMoveHeapBlocks :
    heapKey ((run0 st0).ctxOf 0 1).1 (bits (0 : BitVec 26).toNat 25 18) = 256
    ∧ CanIssue (run0 st0) w0 h0 { use0 with
        rv := [h0.src0.toNat], wv := regs h0.dst.toNat 2, ok := h0.dst.toNat % 2 = 0 } st0 g0 []
    ∧ mget (run0 st0).mmu.heaps 256 = none
    ∧ canIssueB (heaped st0 heap0) w0 h0 { use0 with
        rv := [h0.src0.toNat], wv := regs h0.dst.toNat 2, ok := h0.dst.toNat % 2 = 0 } st0 g0 [] = true
    ∧ mget (heaped st0 heap0).mmu.heaps 256 = some heap0 ∧ bit (0 : BitVec 26).toNat 17 = false
    ∧ canIssueB (heaped askStr { heap0 with objs := [] }) w0 h0 { use0 with
        rv := [h0.src0.toNat], wv := regs h0.dst.toNat 2, ok := h0.dst.toNat % 2 = 0 } askStr one0 [] = true
    ∧ bit (BitVec.ofNat 26 (2 ^ 17)).toNat 17 = true ∧ askStr.noGrow = false
    ∧ (((heaped askStr { heap0 with objs := [] }).issued w0 0xB askStr).heapServe { heap0 with objs := [] }
        ((lanesOf (one0.mask &&& askStr.predLanes h0)).map (fun i => (i, (askStr.v h0.src0.toNat i).toNat)))).2.1 ≠ []
    ∧ canIssueB (heaped freeStr heap0) w0 h0 { use0 with
        rv := regs h0.src0.toNat 2, ok := h0.src0.toNat % 2 = 0 } freeStr one0 [] = true
    ∧ (∀ i ∈ lanesOf (one0.mask &&& freeStr.predLanes h0), mhas heap0.blocks (freeStr.v2 h0.src0.toNat i) = true
        ∧ ∃ x, mget (heaped freeStr heap0).mmu.objs 0 = some x ∧ x.va ≤ freeStr.v2 h0.src0.toNat i
          ∧ freeStr.v2 h0.src0.toNat i < x.va + x.size ∧ x.st = .live)
    ∧ (∀ i ∈ lanesOf (one0.mask &&& askStr.predLanes h0), askStr.v2 h0.src0.toNat i ≠ 0
        ∧ askStr.v2 h0.src0.toNat i < obj0.va) := by
  refine ⟨by decide, issues0 _ (by decide), by decide, by decide, by decide, by decide, by decide, by decide, by decide,
    by decide, by decide, ?_, by decide⟩
  intro i hi
  have : i = 0 := by revert hi; simp [lanesOf, bitList, one0, Str.predLanes, freeStr, withV, st1, st0, h0]; decide +revert
  subst this
  exact ⟨by decide, obj0, by decide, by decide, by decide, by decide⟩

/-! ### Tensor instructions -/

def hT : Hdr := { pred := 7, pneg := false, dst := 0, src0 := 0, src1 := 0 }
/-- Descriptor words of a region: format, rows, columns, row-major, offset; a pitch of one line. -/
def descLo (fmt off : Nat) (row : Bool) : Dword := BitVec.ofNat 64 (2 ^ 32 + b2n row * 2 ^ 29 + fmt * 2 ^ 22 + off)
def descHi (rows cols : Nat) : Dword := BitVec.ofNat 64 (cols * 2 ^ 16 + rows)
/-- A and B of INT8, 4 × 4, C of INT32; a memory address, a scale address and a pitch of 64. -/
def stT : Str := { st1 with uregs :=
  [(0, descLo 1 0 false), (1, descHi 4 4), (2, descLo 1 0x1000 false), (3, descHi 4 4), (4, descLo 3 0x2000 true), (5, descHi 4 4),
   (6, 0x100), (7, 0), (8, 64)] }
def tmmaLow : BitVec 26 := BitVec.ofNat 26 (2 * 2 ^ 14 + 4 * 2 ^ 8 + 2)
def moveLow : BitVec 26 := BitVec.ofNat 26 (6 * 2 ^ 14 + 8 * 2 ^ 8)
def cvtLow : BitVec 26 := BitVec.ofNat 26 (2 * 2 ^ 14)
def tins0 : TIns :=
  { id := 0, kind := .tmma, place := 0, queue := 0, cmd := 1, low := tmmaLow, descA := stT.pair 0, descB := stT.pair 2
    descC := stT.pair 4, addr := 0, scaleAddr := 0, pitch := 0, gangSeq := none, started := false, faulted := false }
def mover0 (kind : TKind) : TIns :=
  { tins0 with kind := kind, low := moveLow, descB := 0, descC := 0, addr := 0x100, pitch := 64 }
/-- The string of `mapped`, with the tile memory on the tensor side and these tensor instructions outstanding. -/
def tens (st : Str) (l : List TIns) : State :=
  { mapped st [] with engines := [(0, { eng0 st with tb := 0, tensors := l, nextTensor := l.length })] }

theorem witness_TensorInstructionsEnterTheQueue :
    tensorHdr hT = true
    ∧ canIssueB (tens stT []) w0 hT { use0 with ru := (([0, 2, 4] : List Nat).map (fun r => [r, r + 1])).flatten } stT one0 [] = true
    ∧ bits tmmaLow.toNat 7 5 ≤ 4 ∧ bits tmmaLow.toNat 3 2 = 0
    ∧ tins0.tmmaLegal 0 ((tens stT []).eng 0).tb = true
    ∧ { tins0 with descA := 0 }.tmmaLegal 0 0 = false
    ∧ canIssueB (tens stT []) w0 hT { use0 with
        ru := (([0, 6] : List Nat).map (fun r => [r, r + 1])).flatten ++ [8] } stT one0 [] = true
    ∧ bits moveLow.toNat 6 0 = 0
    ∧ ((mover0 .tfill).a.legal (mover0 .tfill).descA 0 = true ∧ (mover0 .tfill).xpose = false
        ∧ (mover0 .tfill).addr.toNat % 16 = 0 ∧ bits (mover0 .tfill).pitch.toNat 31 0 % 16 = 0)
    ∧ { mover0 .tfill with addr := 0x108 }.addr.toNat % 16 ≠ 0
    ∧ canIssueB (tens stT []) w0 hT { use0 with
        ru := (([0, 2] : List Nat).map (fun r => [r, r + 1])).flatten } stT one0 [] = true
    ∧ (bits cvtLow.toNat 13 4 = 0 ∧ bits cvtLow.toNat 3 2 ≠ 3 ∧ bits cvtLow.toNat 0 0 = 0)
    ∧ (tins0.b.legal tins0.descB 0 = true ∧ tins0.a.rows = tins0.b.rows ∧ tins0.a.cols = tins0.b.cols
        ∧ tins0.a.row = tins0.b.row)
    ∧ 16 ≤ ((tens stT (List.replicate 16 tins0)).eng 0).tensors.length
    ∧ canIssueB (tens stT (List.replicate 16 tins0)) w0 hT { use0 with
        ru := (([0, 2, 4] : List Nat).map (fun r => [r, r + 1])).flatten } stT one0 [] = true := by decide

def waitT : Str := { st1 with groups := [{ one0 with block := .tensor 0 }], state := .waiting }
theorem witness_TwaitHoldsUntilFewRemain :
    canIssueB (tens stT []) w0 hT use0 stT one0 [] = true ∧ tensorHdr hT = true
    ∧ bits (BitVec.ofNat 26 (255 * 2 ^ 18)).toNat 17 0 = 0
    ∧ (tens waitT [tins0]).str? 0 0 = some waitT ∧ waitT.groups = [{ one0 with block := .tensor 0 }]
    ∧ (let s := tens waitT [{ tins0 with started := true }, { tins0 with id := 1 }]
       s.working = true ∧ s.frozen 0 = false
       ∧ (s.eng 0).tensors.find? (fun y => y.id = 0) = some { tins0 with started := true }
       ∧ ∃ g ∈ waitT.groups, g.block = .tensor 0) := by
  refine ⟨by decide, by decide, by decide, by decide, by decide, by decide, by decide, by decide, ?_⟩
  exact ⟨{ one0 with block := .tensor 0 }, by decide, rfl⟩

theorem witness_IntegerTmmaIsTheExactDotProduct :
    let s := tens stT [tins0]
    s.working = true ∧ s.frozen 0 = false ∧ (s.eng 0).tensors.find? (fun x => x.id = 0) = some tins0 ∧ tins0.kind = .tmma
    ∧ tins0.gangSeq = none ∧ tins0.started = false ∧ (s.eng 0).mayStart 0 tins0 = true ∧ tins0.ieee = true
    ∧ tins0.shape ≤ 3 ∧ tins0.tmmaLegal 0 (s.eng 0).tb = true ∧ tins0.a.code.isInt = true ∧ tins0.b.code.isInt = true
    ∧ tins0.c.fmt = 0x03 ∧ tins0.c.sliceBytes ≤ 64 * tins0.c.pitch := by decide

/-- A gang TMMA on the four engines of Quad 0. -/
def gangT : TIns := { tins0 with low := BitVec.ofNat 26 (4 * 2 ^ 5), descA := 0, descB := 0, descC := 0, gangSeq := some 3 }
def gangS : State := { run0 st1 with engines := (List.range 4).map (fun e => (e, { eng0 st1 with tb := 0, tensors := [gangT] })) }
theorem witness_TensorInstructionsStartAndComplete :
    (let t : TIns := { tins0 with kind := .tcvt, low := cvtLow, descA := 0, descB := tins0.descA, descC := tins0.descB }
     (tens st1 [t]).working = true ∧ (tens st1 [t]).frozen 0 = false
     ∧ ((tens st1 [t]).eng 0).tensors.find? (fun x => x.id = 0) = some t ∧ t.started = false
     ∧ ((tens st1 [t]).eng 0).mayStart 0 t = true)
    ∧ ((tens st1 [mover0 .tfill]).eng 0).tensors.find? (fun x => x.id = 0) = some (mover0 .tfill)
    ∧ ((tens st1 [mover0 .tfill]).eng 0).mayStart 0 (mover0 .tfill) = true
    ∧ (∃ ps s1, (tens st1 [mover0 .tfill]).moverPieces 0 ((tens st1 []).ctxOf 0 1).1 (mover0 .tfill).memRows accRead
          = (.ok ps, s1) ∧ (!(s1.moverRead ps none).1.2 && ps.length = 4) = true)
    ∧ ((tens st1 [mover0 .tspill]).eng 0).mayStart 0 (mover0 .tspill) = true
    ∧ (∃ ps s1, (tens st1 [mover0 .tspill]).moverPieces 0 ((tens st1 []).ctxOf 0 1).1 (mover0 .tspill).memRows accWrite
          = (.ok ps, s1) ∧ (ps.length = 4 : Bool) = true)
    ∧ (let ins := (quadOf 0).filterMap (fun m =>
        ((gangS.eng m).tensors.find? (fun x => x.gangSeq = some 3 && !x.started)).map (fun x => (m, x)))
       ins.length = 4 ∧ (∀ m ∈ quadOf 0, (gangS.eng m).gangParked = false)
       ∧ (∀ x ∈ ins, (gangS.eng x.1).mayStart x.1 x.2 = true) ∧ gangAgree ins = true)
    ∧ ((tens st1 [{ tins0 with started := true }]).eng 0).tensors.find? (fun x => x.id = 0)
        = some { tins0 with started := true } := by
  refine ⟨by decide, by decide, by decide, ok_of (by decide +kernel), by decide, ok_of (by decide +kernel), by decide, by decide⟩

/-! ### Textures, rays, tiles -/

/-- An image of 4 × 4 texels R8G8B8A8_UINT at 0x1000, its descriptor at 64; a sampler's at 96. -/
def imgBytes : List Byte :=
  leBytes 8 0x1000 ++ leBytes 2 3 ++ leBytes 2 3 ++ leBytes 2 0 ++ leBytes 1 0 ++ leBytes 1 0 ++ leBytes 4 41 ++ leBytes 4 0
  ++ leBytes 4 64 ++ leBytes 4 0
def texCells : List Host.Cell := memWrite [] 64 imgBytes
def stX : Str := { st1 with uregs := [(0, 64), (2, 96)] }
def texOps0 : TexOps := { image := 0, sampler := 1, packed := false, comp := 0, ref := 20 }
theorem witness_TextureInstructionsFillTheirRegisters :
    (∃ f, texForm (.tld w0 h0 texOps0 none) = some f
      ∧ canIssueB (mapped stX texCells) f.site f.hdr (texUse f.hdr f.ops f.extra f.sampler) stX one0 [] = true
      ∧ ∃ v s1, ((mapped stX texCells).issued f.site 5 stX).texEnv (actOf f.site f.hdr stX one0) f.ops f.sampler f.ext
            = (.ok v, s1)
          ∧ (v.img.stated && v.fmt.isSome && okWith
              (s1.translateLanes (actOf f.site f.hdr stX one0) (f.fetches (actOf f.site f.hdr stX one0) s1 v) accRead)
              (fun l s2 => lanesLocalB s2 l 4 && (s2.eng 0).l1.isEmpty && l.length = 1
                && l.all (fun x => x.pa = 0x1000))) = true)
    ∧ (∃ f, texForm (.tex w0 h0 texOps0 none) = some f
      ∧ canIssueB (mapped stX texCells) f.site f.hdr (texUse f.hdr f.ops f.extra f.sampler) stX one0 [] = true)
    ∧ canIssueB (mapped stX texCells) w0 h0 { use0 with wv := regs h0.dst.toNat 4, ru := [0, 1] } stX one0 [] = true
    ∧ (∃ v s1, ((mapped stX texCells).issued w0 5 stX).texEnv (actOf w0 h0 stX one0) texOps0 false none = (.ok v, s1)
        ∧ (v.img.width = 4 && v.img.height = 4 && v.img.depth = 1 && v.img.levels = 1) = true) :=
  ⟨⟨_, rfl, by decide, ok_of (by decide +kernel)⟩, ⟨_, rfl, by decide⟩, by decide, ok_of (by decide +kernel)⟩

/-- A query record of zero bytes at shared address 0. -/
def wgQ : Wg := { wg0 with shared := (List.range 512).map (fun a => (a, 0)) }
def query : State := { run0 st1 with engines := [(0, { eng0 st1 with wgs := [(0, wgQ)] })] }
theorem lanes_one (i : Nat) (h : Executes st1 one0 h0 i) : i = 0 := by
  have : lanesOf (one0.mask &&& st1.predLanes h0) = [0] := by decide
  unfold Executes at h; rw [this] at h; simpa using h
theorem apart_one : RecordsApart wgQ st1 one0 h0 :=
  ⟨fun i h => by rw [lanes_one i h]; decide, fun i j hi hj ne => absurd ((lanes_one i hi).trans (lanes_one j hj).symm) ne⟩

theorem witness_RayQueryRecordsChangeAsNamed :
    (∃ u f, recordForm (.rqInit w0 h0) = some (w0, h0, u, f) ∧ canIssueB query w0 h0 u st1 one0 [] = true)
    ∧ (∃ u f, recordForm (.rqTerminate w0 h0) = some (w0, h0, u, f) ∧ canIssueB query w0 h0 u st1 one0 [] = true)
    ∧ query.wg? 0 st1.wg = some wgQ ∧ RecordsApart wgQ st1 one0 h0 :=
  ⟨⟨_, _, rfl, by decide +kernel⟩, ⟨_, _, rfl, by decide +kernel⟩, by decide +kernel, apart_one⟩

/-- A point query at root 0 with a count of 64. -/
def stPq : Str := withV st1 [(32 * 18, 64)]
theorem witness_RayAndPointQueriesAnswerTheirStatus :
    query.wg? 0 st1.wg = some wgQ ∧ canIssueB query w0 h0 (useV [h0.src0] h0.dst) st1 one0 [] = true
    ∧ lanesOf (one0.mask &&& st1.predLanes h0) = [0]
    ∧ (okWith ((query.issued w0 6 st1).rqRun (actOf w0 h0 st1 one0)
        { (actOf w0 h0 st1 one0).record wgQ 0 with candidate := 0 } none nodeFuel) (fun r _ => r.1.isSome) = true)
    ∧ RecordsApart wgQ st1 one0 h0 ∧ ((actOf w0 h0 st1 one0).record wgQ 0).stack = []
    ∧ canIssueB query w0 h0 { use0 with rv := [h0.src0.toNat], wv := regs h0.dst.toNat (rqSize .toWorld) } st1 one0 [] = true
    ∧ ((actOf w0 h0 st1 one0).record wgQ 0).committed = 0
    ∧ canIssueB query w0 h0 { use0 with rv := h0.src0.toNat :: regs h0.src1.toNat 10, wv := regs h0.dst.toNat 2 } st1 one0 []
        = true ∧ st1.helpers = [] :=
  ⟨by decide +kernel, by decide +kernel, by decide, by decide +kernel, apart_one, by decide +kernel, by decide +kernel,
   by decide +kernel, by decide +kernel, by decide⟩

/-- A fragment string of primitive 0 in a pass whose colour attachment 0 has format 1. -/
def stF : Str := { st1 with kind := .fragment 0 0 0, coverage := [(0, 1)] , pixels := [(0, 0)] }
def fullF : Str := { stF with coverage := (List.range 32).map (fun i => (i, 1)) }
def drawF : DrawRec :=
  { engine := 0, queue := 0, cmd := 1, payload := zeros 64, state := zeros 96, fetched := [], outs := [], assembled := 1 }
def frontF : Front :=
  { quad := 0, members := [0], binned := [{ order := 0, prim := 0, verts := [], draw := 0 }], chunk := none, used := 0
    stalled := none, drawsWritten := [], tails := [] }
def passF : Pass :=
  { convoy := 0, asid := 1, payload := zeros 0x34 ++ [1] ++ zeros 139, phase := .tiles, tile := 16
    members := [(0, { queue := 0, cmd := 1, granted := true, ended := some 2 })], draws := [drawF], fronts := [frontF]
    mapped := 0, increments := 0, chunks := [], rendered := [], growth := none, frags := [], writes := [], seed := 0
    stall := none }
def part0 : Partition :=
  { quads := 1, gfxMin := 0, tnsMin := 0, slice := 1200000, parkLimit := 0, shareMax := 0, vmin := 0, resident := some 0
    sliceOn := true, switching := none, forcing := none, slots := [], saveBase := 0, saveBytes := 0 }
def frag0 (st : Str) : State := { mapped st [] with passes := [(0, passF)], parts := [(0, part0)] }

theorem witness_TileAccessReadsAndWritesTheTile :
    stF.isFragment = true
    ∧ (∃ x, ((frag0 stF).issued w0 0xC stF).fragOf (actOf w0 h0 stF one0).str = some x
        ∧ (((frag0 stF).issued w0 0xC stF).passRuns x.2.1
          && (match (((frag0 stF).issued w0 0xC stF).tlaLane x.2.1 x.2.2.1 x.2.2.2 0 0 0 false).1 with
            | .value _ => true | _ => false)
          && (attOf x.2.1.payload 0).format ≠ 0) = true)
    ∧ canIssueB (frag0 stF) w0 h0 { use0 with wv := regs h0.dst.toNat 4, ok := h0.dst.toNat % 4 = 0 } stF one0 [] = true
    ∧ canIssueB (frag0 fullF) w0 h0 { use0 with rv := regs h0.src0.toNat 4, ok := h0.src0.toNat % 4 = 0 } fullF one0 [] = true
    ∧ fullF.helpers = []
    ∧ (∀ size : Fin 3, canIssueB (run0 st1) w0 h0 { use0 with
        rv := [h0.src0.toNat], wv := regs h0.dst.toNat (2 ^ (size.val + 2) / 4)
        ok := h0.dst.toNat % (2 ^ (size.val + 2) / 4) = 0 } st1 one0 [] = true)
    ∧ (∀ j ∈ lanesOf (one0.mask &&& st1.predLanes h0), (st1.v h0.src0.toNat j).toNat % 16 = 0
        ∧ (st1.v h0.src0.toNat j).toNat + 16 ≤ 2 ^ 22)
    ∧ canIssueB (run0 shOdd) w0 h0 { use0 with rv := [h0.src0.toNat], wv := regs h0.dst.toNat 1 } shOdd one0 [] = true
    ∧ (∃ j ∈ lanesOf (one0.mask &&& shOdd.predLanes h0), (shOdd.v h0.src0.toNat j).toNat % 4 ≠ 0)
    ∧ (∀ size : Fin 3, canIssueB (run0 st1) w0 h0 { use0 with
        rv := h0.src0.toNat :: regs h0.src1.toNat (2 ^ (size.val + 2) / 4)
        ok := h0.src1.toNat % (2 ^ (size.val + 2) / 4) = 0 } st1 one0 [] = true) := by
  refine ⟨rfl, some_of (by decide +kernel), by decide, by decide, by decide, by decide, by decide, by decide,
    ⟨0, by decide, by decide⟩, by decide⟩

/-! ### Drover, launcher, gangs -/

theorem witness_DroverEventsChangeOneString :
    (run0 st0).working = true ∧ (run0 st0).str? 0 0 = some st0 ∧ st0.state = .ready ∧ st0.promoted = none
    ∧ (run0 { st0 with groups := [{ g0 with budget := 0 }] }).str? 0 0 = some { st0 with groups := [{ g0 with budget := 0 }] }
    ∧ (run0 { st0 with groups := [{ g0 with block := .sleep 100 }], state := .waiting }).str? 0 0
        = some { st0 with groups := [{ g0 with block := .sleep 100 }], state := .waiting }
    ∧ (run0 st0).owes 0 0 4 = false
    ∧ ({ run0 st0 with host := { HostSide.reset with np := [(0, { addr := 0, len := 4, dest := .load 0 0 4 0 4 false })] } } : State).owes 0 0 4 = true := by
  decide

def spare : State := { up0 with engines := [(0, { Eng.reset with disps := [{ disp0 with total := 2 }] })], queues := [(0, q0)] }
theorem witness_WorkgroupsLaunchWholeAndLeaveWhole :
    spare.working = true ∧ spare.frozen 0 = false ∧ spare.fenced 0 0 = false
    ∧ (spare.eng 0).disps[0]? = some { disp0 with total := 2 } ∧ disp0.next < 2
    ∧ (spare.eng 0).sharedBytes + disp0.shared ≤ 196608
    ∧ (((spare.eng 0).launchAll [(64, fun _ => st0)]).isSome = true)
    ∧ ((run0 st0).eng 0).disps[0]? = some disp0 ∧ disp0.total ≤ disp0.next
    ∧ (let st : Str := { st0 with state := .draining, groups := [] }
       (run0 st).str? 0 0 = some st ∧ st.kind = .compute ∧ (run0 st).strOwed 0 0 = false ∧ (run0 st).wg? 0 st.wg = some wg0)
    ∧ (run0 st0).str? 0 0 = some st0 ∧ st0.state ≠ .draining := by decide

/-- Four queues of one convoy stand at the same gang layer; engines `l` have arrived. -/
def gangCmd : Cmd := { cmd0 with opcode := 0x02, st := .accepted, payload := zeros 128 }
def gangQ (e : Nat) : Queue := { q0 with unit := e, convoy := some 5, cmds := [gangCmd] }
def gangE (e : Nat) (a : Option (Nat × Nat × Nat)) : Eng := { Eng.reset with atGang := some (e, 1), arrive := a }
def gangs (a : Nat → Option (Nat × Nat × Nat)) : State :=
  { up0 with engines := (List.range 4).map (fun e => (e, gangE e (a e))), queues := (List.range 4).map (fun e => (e, gangQ e)) }
def arr0 : Nat × Nat × Nat := (5, 0, layerOf 0x77)
theorem witness_GangsArriveStartAndResumeTogether :
    (let s := gangs (fun _ => none)
     s.working = true ∧ s.frozen 0 = false ∧ (s.eng 0).stopped = false ∧ s.fenced 0 0 = false ∧ s.ucodeTurn ≠ some 0
     ∧ (s.eng 0).atGang = some (0, 1) ∧ s.arriveOf 0 1 = some arr0 ∧ ∃ m ∈ quadOf 0, (s.eng m).arrive = none)
    ∧ (let s := gangs (fun e => if e = 0 then none else some arr0)
       s.arriveOf 0 1 = some arr0 ∧ ∀ m ∈ quadOf 0, (if m = 0 then some arr0 else (s.eng m).arrive) = some arr0)
    ∧ (let s := gangs (fun e => if e = 0 then none else some (5, 1, 0))
       s.arriveOf 0 1 = some arr0 ∧ (∀ m ∈ quadOf 0, (if m = 0 then some arr0 else (s.eng m).arrive) ≠ none)
       ∧ ∃ m ∈ quadOf 0, (if m = 0 then some arr0 else (s.eng m).arrive) ≠ some arr0)
    ∧ (∀ m ∈ quadOf 0, (up0.eng m).gangHeld = false ∧ (up0.eng m).atGang = none ∧ up0.frozen m = false) := by
  refine ⟨by decide, by decide, by decide, by decide⟩

def bound (v : Eng) : State := { up0 with engines := [(0, v)], parts := [(0, part0)] }
theorem witness_GranuleBoundaryMovesForTheWaiting :
    (bound { Eng.reset with waitTns := some 16 }).working = true
    ∧ (bound { Eng.reset with waitTns := some 16 }).partOf 0 = some 0
    ∧ (bound { Eng.reset with waitTns := some 16 }).part? 0 = some part0
    ∧ 16 - 16 < ({ Eng.reset with waitTns := some 16 } : Eng).tb ∧ part0.gfxMin ≤ 16 - 16
    ∧ ({ Eng.reset with waitTns := some 4, tb := 12 } : Eng).tb ≤ 16 - 4
    ∧ (({ Eng.reset with waitGfx := some 16, tb := 0 } : Eng).tb < 16 ∧ part0.tnsMin ≤ 16 - 16)
    ∧ 0 ≤ ({ Eng.reset with waitGfx := some 0, tb := 0 } : Eng).tb
    ∧ (bound Eng.reset).eng 0 = Eng.reset ∧ Eng.reset.waitTns = none ∧ Eng.reset.waitGfx = none := by decide

end Sys2Proof.Tests
end

