-- ==== Sys2Proof/Tests/WMailbox.lean ====
section
/-! SUPPORT. Requests that reach their mailbox commands, with the conditions of a clause and the answer that the clause
states; witnesses for the statements about mailboxes and sessions. -/

namespace Sys2Proof.Tests

set_option Elab.async false

open Sys2Proof.Machine

/-- A request frame of revision 3 with tag 1 and its CHECK; parameters as offset, size, value. -/
def frame (op session : Nat) (params : List (Nat × Nat × Nat)) : List Byte :=
  let b := params.foldl (fun b f => putLe b f.1 f.2.1 f.2.2)
    (leBytes 2 op ++ leBytes 2 1 ++ leBytes 4 session ++ leBytes 1 3 ++ zeros 55)
  putLe b 0x0C 4 (crc32c b)
def sess (role : Nat) : Session :=
  { role := role, rev := 3, authed := true, challenge := zeros 32, expired := false, fails := 0, kept := [], diag := false }
/-- A command with the parameters of its request, the state but for mailbox and session, and the session; a check that a
clause's conditions hold, and the status and error that the clause states, where it states them. -/
structure Ask where
  i : Instr
  want : Option (Nat × Nat)
  ps : List (Nat × Nat × Nat)
  s : State
  x : Session
  c : State → Req → Bool
def Ask.row (a : Ask) : MbxRow := (mbxRow a.i).getD ⟨0, 0, fun _ => false⟩
def Ask.body (a : Ask) : List Byte := frame a.row.op 7 a.ps
def Ask.req (a : Ask) : Req :=
  { pair := 0, op := a.row.op, tag := 1, session := 7, proto := 3, role := a.x.role, body := a.body }
/-- The request waits on pair 0 in session 7. -/
def Ask.state (a : Ask) : State :=
  { a.s with
    fw := { a.s.fw with sessions := mset a.s.fw.sessions 7 a.x }
    host := { a.s.host with pairs := mset a.s.host.pairs 0 { MbxPair.reset with req := a.body, reqPending := true } } }

def servedB (s : State) (m : MbxRow) (r : Req) (x : Session) : Bool :=
  s.up && s.fw.mbxReady && !s.fw.updating && !s.halted && (s.mbx m.pair.val).reqPending && (s.mbx m.pair.val).held.isNone
  && r.body = (s.mbx m.pair.val).req && r.pair = m.pair.val && getLe r.body 0 2 = m.op && r.op = m.op && m.mine r.body
  && r.tag = getLe r.body 2 2 && r.session = getLe r.body 4 4 && r.proto = getLe r.body 8 1 && 1 ≤ r.proto && r.proto ≤ 3
  && getLe r.body 0x0C 4 = frameCrc r.body && s.session? r.session = some x && r.proto = x.rev && r.role = x.role
  && x.kept.isEmpty && x.authed && !s.flt.fatal
  && someWith (catalogue m.op) (fun c => c.rev ≤ x.rev && x.role ∈ c.roles && c.reservedZero r.body)

theorem served_of {s : State} {m : MbxRow} {r : Req} {x : Session} (h : servedB s m r x = true) : Served s m r x := by
  simp only [servedB, Bool.and_eq_true, decide_eq_true_eq, Bool.not_eq_true', Option.isNone_iff_eq_none,
    List.isEmpty_iff] at h
  obtain ⟨⟨⟨⟨⟨⟨⟨⟨⟨⟨⟨⟨⟨⟨⟨⟨⟨⟨⟨⟨⟨⟨⟨a1, a2⟩, a3⟩, a4⟩, a5⟩, a6⟩, a7⟩, a8⟩, a9⟩, a10⟩, a11⟩, a12⟩, a13⟩, a14⟩, a15⟩, a16⟩, a17⟩,
    a18⟩, a19⟩, a20⟩, a21⟩, a22⟩, a23⟩, a24⟩ := h
  obtain ⟨c, hc, k⟩ := some_of a24
  simp only [Bool.and_eq_true, decide_eq_true_eq] at k
  exact
    { listens := ⟨a1, a2, a3, a4⟩, posted := a5, unheld := a6, body := a7, pair := a8, opcode := ⟨a9, a10⟩, row := a11
      tag := a12, session := a13, proto := a14, revision := ⟨a15, a16⟩, check := fun _ => a17, opened := a18, agreed := a19
      role := a20, new := by simp [a21], authed := .inl a22, known := ⟨c, hc, k.1.1, k.1.2, k.2⟩, alive := .inl a23 }

/-- The request reaches its command under the clause's conditions. -/
def Ask.ok (a : Ask) : Bool :=
  (mbxRow a.i).isSome && servedB a.state a.row a.req a.x && a.c a.state a.req
/-- The answer has the stated status and error. -/
def Ask.answered (a : Ask) : Bool :=
  match a.want, exec a.i a.state with
  | none, _ => true
  | some w, .next t => (t.mbx 0).rspReady && getLe (t.mbx 0).rsp 8 1 = w.1 && getLe (t.mbx 0).rsp 0xA 2 = w.2
  | _, _ => false
def Meets (l : List Ask) : Prop := ∀ a ∈ l, Serves a.i a.state a.req a.x ∧ a.c a.state a.req = true
theorem meets_of {l : List Ask} (h : l.all Ask.ok = true) : Meets l := by
  intro a ha
  have k := List.all_eq_true.mp h a ha
  simp only [Ask.ok, Bool.and_eq_true] at k
  obtain ⟨⟨k1, k2⟩, k3⟩ := k
  obtain ⟨m, hm⟩ := Option.isSome_iff_exists.mp k1
  refine ⟨⟨m, hm, ?_⟩, k3⟩
  have : a.row = m := by simp [Ask.row, hm]
  exact this ▸ served_of k2

/-- The first role that may send the command. -/
def firstRole (i : Instr) : Nat :=
  (((mbxRow i).bind (fun m => catalogue m.op)).bind (fun c => c.roles.head?)).getD 1
def ask (i : Instr) (want : Option (Nat × Nat)) (ps : List (Nat × Nat × Nat)) (s : State)
    (c : State → Req → Bool := fun _ _ => true) : Ask := ⟨i, want, ps, s, sess (firstRole i), c⟩
def askAs (x : Session) (i : Instr) (want : Option (Nat × Nat)) (ps : List (Nat × Nat × Nat)) (s : State)
    (c : State → Req → Bool := fun _ _ => true) : Ask := ⟨i, want, ps, s, x, c⟩
def well : Option (Nat × Nat) := some (0, 0)
def runs : Option (Nat × Nat) := some (2, 0)
def bad (e : Nat) : Option (Nat × Nat) := some (1, e)

/-! ### The checks of a request, its answer, sessions -/

/-- A request of PING from which one check takes something away. -/
def pingOf (body : List Byte) (x : Session) (s : State) : State :=
  { s with
    fw := { s.fw with sessions := mset s.fw.sessions 7 x }
    host := { s.host with pairs := mset s.host.pairs 0 { MbxPair.reset with req := body, reqPending := true } } }
def pingRow : MbxRow := ⟨0, 4, fun _ => true⟩
def reqIn (body : List Byte) (role : Nat) : Req :=
  { pair := 0, op := getLe body 0 2, tag := getLe body 2 2, session := getLe body 4 4, proto := getLe body 8 1, role := role
    body := body }
def pingBody : List Byte := frame 4 7 [(0x10, 8, 99)]
/-- What the checks of a request need, as far as check 2. -/
def framedB (s : State) (m : MbxRow) (r : Req) (n : Nat) : Bool :=
  s.up && s.fw.mbxReady && !s.fw.updating && !s.halted && (s.mbx m.pair.val).reqPending && (s.mbx m.pair.val).held.isNone
  && r.body = (s.mbx m.pair.val).req && r.pair = m.pair.val && getLe r.body 0 2 = m.op && r.op = m.op && m.mine r.body
  && r.tag = getLe r.body 2 2 && r.session = getLe r.body 4 4 && r.proto = getLe r.body 8 1
  && (n < 1 || 1 ≤ r.proto && r.proto ≤ 3 && (r.proto = 1 || getLe r.body 0x0C 4 = frameCrc r.body))
theorem asked_of {s : State} {m : MbxRow} {r : Req} {n : Nat} (h : framedB s m r n = true) : Asked s m r := by
  simp only [framedB, Bool.and_eq_true, decide_eq_true_eq, Bool.not_eq_true', Option.isNone_iff_eq_none] at h
  obtain ⟨⟨⟨⟨⟨⟨⟨⟨⟨⟨⟨⟨⟨⟨a1, a2⟩, a3⟩, a4⟩, a5⟩, a6⟩, a7⟩, a8⟩, a9⟩, a10⟩, a11⟩, a12⟩, a13⟩, a14⟩, _⟩ := h
  exact { listens := ⟨a1, a2, a3, a4⟩, posted := a5, unheld := a6, body := a7, pair := a8, opcode := ⟨a9, a10⟩, row := a11
          tag := a12, session := a13, proto := a14 }
theorem framed_of {s : State} {m : MbxRow} {r : Req} (h : framedB s m r 1 = true) : WellFramed s m r := by
  have k := h
  simp only [framedB, Bool.and_eq_true, Bool.or_eq_true, decide_eq_true_eq] at k
  obtain ⟨_, k⟩ := k
  rcases k with k | ⟨⟨k1, k2⟩, k3⟩
  · omega
  · exact { toAsked := asked_of h, revision := ⟨k1, k2⟩, check := fun hp => by rcases k3 with e | e <;> omega }
theorem inSession_of {s : State} {m : MbxRow} {r : Req} {x : Session} (h : framedB s m r 1 = true)
    (k : (s.session? r.session = some x && r.proto = x.rev && r.role = x.role && x.kept.all (fun y => y.tag ≠ r.tag)) = true) :
    InSession s m r x := by
  simp only [Bool.and_eq_true, decide_eq_true_eq, List.all_eq_true] at k
  obtain ⟨⟨⟨k1, k2⟩, k3⟩, k4⟩ := k
  exact { toWellFramed := framed_of h, opened := k1, agreed := k2, role := k3, new := k4 }

def kept1 : Kept := { tag := 1, crc := BitVec.ofNat 32 (frameCrc pingBody), rsp := zeros 64, running := false, fetched := true }
theorem witness_RequestsAreCheckedInOrder :
    (State.reset.up = true ∧ State.reset.fw.mbxReady = false)
    ∧ (let b := putLe pingBody 8 1 0
       Asked (pingOf b (sess 1) up0) pingRow (reqIn b 1) ∧ (reqIn b 1).proto = 0)
    ∧ (let b := putLe pingBody 0x0C 4 1
       Asked (pingOf b (sess 1) up0) pingRow (reqIn b 1) ∧ (reqIn b 1).proto = 3 ∧ getLe b 0x0C 4 ≠ frameCrc b)
    ∧ (let b := frame 4 6 []
       WellFramed (pingOf b (sess 1) up0) pingRow (reqIn b 1) ∧ (pingOf b (sess 1) up0).session? 6 = none)
    ∧ (WellFramed (pingOf pingBody { sess 1 with rev := 2 } up0) pingRow (reqIn pingBody 1)
       ∧ (pingOf pingBody { sess 1 with rev := 2 } up0).session? 7 = some { sess 1 with rev := 2 })
    ∧ (let x := { sess 1 with kept := [{ kept1 with crc := 0 }] }
       WellFramed (pingOf pingBody x up0) pingRow (reqIn pingBody 1) ∧ x.kept.find? (fun k => k.tag = 1) = some { kept1 with crc := 0 }
       ∧ ({ kept1 with crc := 0 } : Kept).crc.toNat ≠ frameCrc pingBody)
    ∧ (let x := { sess 1 with kept := [kept1] }
       WellFramed (pingOf pingBody x up0) pingRow (reqIn pingBody 1) ∧ x.kept.find? (fun k => k.tag = 1) = some kept1
       ∧ kept1.crc.toNat = frameCrc pingBody)
    ∧ (let x := { sess 1 with authed := false }
       InSession (pingOf pingBody x up0) pingRow (reqIn pingBody 1) x ∧ x.authed = false)
    ∧ (let b := putLe (putLe (frame 0x0206 7 []) 8 1 1) 0x0C 4 0
       let x := { sess 1 with rev := 1 }
       InSession (pingOf b x up0) ⟨0, 0x0206, fun _ => true⟩ (reqIn b 1) x ∧ ∃ c, catalogue 0x0206 = some c ∧ x.rev < c.rev)
    ∧ (let b := frame 0x0201 7 []
       InSession (pingOf b (sess 1) up0) ⟨0, 0x0201, fun _ => true⟩ (reqIn b 1) (sess 1)
       ∧ ∃ c, catalogue 0x0201 = some c ∧ (sess 1).role ∉ c.roles)
    ∧ (let b := frame 0x0111 7 []
       let s := { up0 with flt := { Flt.reset with fatal := true } }
       InSession (pingOf b (sess 1) s) ⟨0, 0x0111, fun _ => true⟩ (reqIn b 1) (sess 1)
       ∧ (pingOf b (sess 1) s).flt.fatal = true ∧ 0x0111 ∉ fatalOpcodes)
    ∧ (let b := frame 4 7 [(0x18, 1, 1)]
       InSession (pingOf b (sess 1) up0) pingRow (reqIn b 1) (sess 1) ∧ ∃ c, catalogue 4 = some c ∧ c.reservedZero b = false) := by
  refine ⟨by decide, ⟨asked_of (n := 0) (by decide +kernel), by decide +kernel⟩,
    ⟨asked_of (n := 0) (by decide +kernel), by decide +kernel, by decide +kernel⟩,
    ⟨framed_of (by decide +kernel), by decide +kernel⟩, ⟨framed_of (by decide +kernel), by decide +kernel⟩,
    ⟨framed_of (by decide +kernel), by decide +kernel, by decide +kernel⟩,
    ⟨framed_of (by decide +kernel), by decide +kernel, by decide +kernel⟩,
    ⟨inSession_of (by decide +kernel) (by decide +kernel), rfl⟩,
    ⟨inSession_of (by decide +kernel) (by decide +kernel), _, rfl, by decide⟩,
    ⟨inSession_of (by decide +kernel) (by decide +kernel), _, rfl, by decide⟩,
    ⟨inSession_of (by decide +kernel) (by decide +kernel), rfl, by decide⟩,
    ⟨inSession_of (by decide +kernel) (by decide +kernel), _, rfl, by decide +kernel⟩⟩

/-- A ring that is enabled, one that is full, one that is fenced. -/
def ringOn : CookieRing := { CookieRing.reset with enabled := true, base := 0x10000 }
noncomputable def pingAsks : List Ask :=
  [ask (.ping 0) well [(0x10, 8, 2 ^ 64 - 1)] up0 (fun s _ => !(s.ring 0).enabled && !(s.ring 0).fenced)
   , ask (.ping 0) well [] (up0.setRing 0 ringOn) (fun s _ => (s.ring 0).enabled && !s.host.d3hot
       && (s.ring 0).tail - (s.ring 0).head ≠ BitVec.ofNat 32 (s.ring 0).slots)
   , ask (.ping 0) well [] (up0.setRing 0 { ringOn with tail := 256 })
       (fun s _ => ((s.ring 0).tail - (s.ring 0).head).toNat = (s.ring 0).slots)
   , ask (.ping 0) well [] (up0.setRing 0 { CookieRing.reset with fenced := true }) (fun s _ => (s.ring 0).fenced)]
theorem witness_AnswersReachTheirPair :
    (up0.windowOpen = true ∧ up0.halted = false ∧ up0.power.st = .run ∧ up0.power.drain = false)
    ∧ (catalogue (getLe pingBody 0 2)).isSome = true
    ∧ (let b := frame 0x05 7 []
       InSession (pingOf b (sess 1) up0) ⟨0, 5, fun _ => true⟩ (reqIn b 1) (sess 1) ∧ (sess 1).authed = true
       ∧ catalogue (reqIn b 1).op = none)
    ∧ (let p : MbxPair := { MbxPair.reset with rspReady := true, held := some (zeros 64) }
       ((up0.setMbx 0 p).mbx 0).rspReady = true ∧ ((up0.setMbx 0 p).mbx 0).held = some (zeros 64))
    ∧ Meets pingAsks := by
  refine ⟨by decide, by decide +kernel, ⟨inSession_of (by decide +kernel) (by decide +kernel), rfl, by decide +kernel⟩,
    by decide, meets_of (by decide +kernel)⟩

theorem test_ping_answers : pingAsks.all Ask.answered = true := by decide +kernel

/-- SESSION_OPEN of revision 3 in session 0, with ROLE and the revision range. -/
def openBody (role lo hi : Nat) : List Byte := frame 1 0 [(0x10, 1, role), (0x11, 1, lo), (0x12, 1, hi)]
def opens (s : State) (role lo hi : Nat) : State :=
  { s with host := { s.host with pairs := mset s.host.pairs 0 { MbxPair.reset with req := openBody role lo hi, reqPending := true } } }
def openOk (s : State) (role lo hi : Nat) : Bool :=
  framedB (opens s role lo hi) ⟨0, 1, fun _ => true⟩ (reqIn (openBody role lo hi) 0) 1
  && getLe (openBody role lo hi) 4 4 = 0 && (s.session? 0).isNone
  && someWith (catalogue 1) (fun c => c.reservedZero (openBody role lo hi))
def fullSessions : State :=
  { up0 with fw := { up0.fw with sessions := (List.range 64).map (fun n => (n + 1, sess 1)) } }
def makerIn : State := { up0 with fw := { up0.fw with sessions := [(9, sess 3)] } }
def unproved : Session := { sess 2 with authed := false }
def proof (slot : Nat) : List Byte := leBytes 1 slot ++ zeros 3388
def authPs : List (Nat × Nat × Nat) := [(0x10, 8, 0x1000), (0x18, 4, 3389)]
def lockedOut : State := { up0 with fw := { up0.fw with authLocked := true } }
noncomputable def sessionAsks : List Ask :=
  [ask (.sessionAuth 0 none) (bad 8) authPs lockedOut (fun s _ => s.fw.authLocked)
   , askAs { sess 2 with fails := 2 } (.sessionAuth 0 (some (proof 4))) (bad 8) authPs lockedOut (fun s _ => s.fw.authLocked)
   , ask (.sessionAuth 0 (some (proof 4))) (bad 0xC) [(0x10, 8, 0x1004), (0x18, 4, 3389)] up0 (fun _ r => r.n 0x10 8 % 8 ≠ 0)
   , ask (.sessionAuth 0 (some (proof 4))) (bad 0xC) [(0x10, 8, 0x1000), (0x18, 4, 3388)] up0 (fun _ r => r.n 0x18 4 ≠ 3389)
   , ask (.sessionAuth 0 none) (bad 0xC) authPs up0
   , askAs (sess 2) (.sessionAuth 0 (some (proof 4))) none authPs up0 (fun _ r => slotRole 4 = r.role)
   , askAs (sess 2) (.sessionAuth 0 (some (proof 15))) (bad 7) authPs up0 (fun _ r => slotRole 15 ≠ r.role)
   , askAs { sess 2 with expired := true } (.sessionAuth 0 (some (proof 4))) (bad 7) authPs up0
   , askAs { sess 2 with fails := 2 } (.sessionAuth 0 (some (proof 15))) (bad 7) authPs up0
   , ask (.sessionClose 0) well [] up0, ask (.diagOpen 0) well [] up0, ask (.debugUnlock 0) well [] up0]
theorem witness_SessionsOpenAuthenticateAndEnd :
    (openOk up0 0 1 3 && openOk up0 4 1 3 && openOk up0 1 1 0 && openOk up0 1 4 9 && openOk up0 2 1 1
      && openOk up0 1 1 1 && openOk up0 3 2 255 && openOk fullSessions 1 1 3 && fullSessions.fw.sessions.length = 64
      && openOk makerIn 3 2 3 && makerIn.sessionsOf 3 = 1) = true
    ∧ (∀ role lo hi s, openOk s role lo hi = true →
        WellFramed (opens s role lo hi) ⟨0, 1, fun _ => true⟩ (reqIn (openBody role lo hi) 0))
    ∧ Meets sessionAsks
    ∧ (proof 4).length = 3389 ∧ getLe (proof 15) 1 15 = 0 := by
  refine ⟨by decide +kernel, fun role lo hi s h => framed_of ?_, meets_of (by decide +kernel), by decide +kernel,
    by decide +kernel⟩
  simp only [openOk, Bool.and_eq_true] at h
  exact h.1.1.1
theorem test_session_answers : sessionAsks.all Ask.answered = true := by decide +kernel

end Sys2Proof.Tests
end

