-- ==== Sys2Proof/Tests/WManage.lean ====
section
/-! SUPPORT. Witnesses for the statements about registers by key, events, queues, partitions, convoys, objects, heaps and
fault rings: requests that meet the conditions of each clause. -/

namespace Sys2Proof.Tests

set_option Elab.async false

open Sys2Proof.Machine

/-! ### Registers by key -/

def maker : Session := sess 3
def window : Session := { sess 3 with diag := true }
noncomputable def regAsks : List Ask :=
  [ask (.regRead 0) (bad 3) [(0x10, 4, 0x18), (0x20, 1, 0)] up0 (fun _ r => r.n 0x20 1 = 0)
   , ask (.regRead 0) (bad 3) [(0x10, 4, 0x18), (0x20, 1, 5)] up0 (fun _ r => 4 < r.n 0x20 1)
   , ask (.regRead 0) (bad 6) [(0x10, 4, 0x8000), (0x20, 1, 1)] up0 (fun _ r => 0x8000 ≤ r.n 0x10 4 % 2 ^ 16)
   , ask (.regRead 0) well [(0x10, 4, 0x18), (0x20, 1, 1)] up0 (fun s r => (s.readKey (r.n 0x10 4)).isSome)
   , ask (.regRead 0) well [(0x10, 4, 0x7FFC), (0x20, 1, 1)] up0 (fun s r => (s.readKey (r.n 0x10 4)).isNone)
   , ask (.regWrite 0) (bad 6) [(0x10, 4, 0x8000)] up0
   , ask (.regWrite 0) (bad 0xE) [(0x10, 4, 0x7FFC)] up0 (fun s r => (s.readKey (r.n 0x10 4)).isNone)
   , ask (.regWrite 0) (bad 3) [(0x10, 4, 0x11000004), (0x18, 8, 5), (0x20, 8, 1)] up0
       (fun s r => (s.readKey (r.n 0x10 4)).isSome && r.n 0x20 8 ≠ 0)]
   ++ [askAs window (.regWrite 0) well [(0x10, 4, 0x40), (0x18, 8, 2 ^ 64 - 1), (0x20, 8, 0xFF00)] up0
   , askAs maker (.regWrite 0) well [(0x10, 4, 0x58), (0x18, 8, 1), (0x20, 8, 1)] up0]
theorem witness_RegistersAreReadAndWrittenByKey : Meets regAsks := meets_of (by decide +kernel)
theorem test_register_answers : regAsks.all Ask.answered = true := by decide +kernel

/-! ### Events, queues, partitions, convoys -/

def conv0 : Convoy :=
  { partition := 0, share := 4, keyCtx := none, timed := none, timedNext := none, batch := none, pendingEdge := none
    absent := [], lastEnd := 0 }
def timed0 : Timed := { release := 0, falling := false, deadline := 300000, margin := 1000, layers := [], points := [] }
def batch0 : Batch := { tR := 0, diverted := none, decided := [], samples := [] }
/-- Partition 0 of Quad 0 with room to share, convoy 0, ASID 1 with one object and a heap, event 5. -/
def back0 : Backing :=
  { placement := 0, die := 0, heldFor := none, base := 0x200000, size := 0x200000, pages := [] }
def free0 : Partition := { part0 with resident := none, sliceOn := false, shareMax := 8 }
def idleQ : Queue := { q0 with convoy := some 0, cmds := [] }
def pool : State :=
  { up0 with
    events := [(5, { count := 7, vector := 32 })], parts := [(0, free0)], convoys := [(0, conv0)]
    mem := { Mem.reset with density := 2, spill := 1 }
    mmu := { Mmu.reset with
      asids := [(1, { ring := 0, root := 0x10000000 })], objs := [(0, obj0)], backings := [(0, back0)], nextBacking := 1
      nextHandle := 1, ptBase := 0x10000000, ptBytes := 0x100000, tables := [0x10000000], reserved := [(0x200000, 0x200000)] } }
def queued (q : Queue) : State := { pool with queues := [(0, q)] }
/-- Tables with every number in use. -/
def fullMap {α : Type} (n : Nat) (a : α) : Map α := (List.range n).map (fun k => (k, a))
theorem mget_map {α : Type} (a : α) (k : Nat) : ∀ l : List Nat, k ∈ l → mget (l.map (fun j => (j, a))) k = some a
  | [], h => by cases h
  | j :: l, h => by
    simp only [List.map_cons, mget]
    by_cases e : j = k
    · simp [e]
    · have : k ∈ l := by rcases List.mem_cons.mp h with h | h; exact absurd h.symm e; exact h
      simp [e, mget_map a k l this]
theorem fullMap_has {α : Type} (n : Nat) (a : α) (k : Nat) (h : k < n) : mhas (fullMap n a) k = true := by
  simp [mhas, fullMap, mget_map a k (List.range n) (List.mem_range.mpr h)]

def withEvents (m : Map Event) : State := { pool with events := m }
def withQueues (m : Map Queue) : State := { pool with queues := m }
def withConvoys (m : Map Convoy) : State := { pool with convoys := m }
def noEvents : State := withEvents (fullMap 131072 { count := 0, vector := 0 })
def noQueues : State := withQueues (fullMap 4096 { idleQ with convoy := none, kind := 1 })
def crowded : State := withConvoys (fullMap 512 conv0)
theorem withEvents_has {m : Map Event} {n : Nat} (h : ∀ k, k < n → mhas m k = true) : ∀ k, k < n → mhas (withEvents m).events k = true := h
theorem withQueues_has {m : Map Queue} {n : Nat} (h : ∀ k, k < n → mhas m k = true) : ∀ k, k < n → mhas (withQueues m).queues k = true := h
theorem withConvoys_has {m : Map Convoy} {n : Nat} (h : ∀ k, k < n → mhas m k = true) : ∀ k, k < n → mhas (withConvoys m).convoys k = true := h
def queuePs (k asid size kind va conv unit : Nat) : List (Nat × Nat × Nat) :=
  [(0x10, 2, k), (0x12, 2, asid), (0x14, 1, size), (0x15, 1, kind), (0x16, 2, 32), (0x18, 8, va), (0x20, 4, conv), (0x24, 1, unit)]
noncomputable def eventAsks : List Ask :=
  [ask (.eventAlloc 0) (bad 3) [(0x18, 2, 15)] pool (fun _ r => !vectorOk (r.n 0x18 2))
   , ask (.eventAlloc 0) none [(0x10, 8, 9), (0x18, 2, 2047)] pool (fun s r => vectorOk (r.n 0x18 2) && !mhas s.events 0)
   , ask (.eventAlloc 0) none [(0x18, 2, 16)] noEvents (fun _ r => vectorOk (r.n 0x18 2))
   , ask (.eventFree 0) (bad 3) [(0x10, 4, 131072)] pool
   , ask (.eventFree 0) (bad 0xE) [(0x10, 4, 131071)] pool (fun s r => (mget s.events (r.n 0x10 4)).isNone)
   , ask (.eventFree 0) (bad 0x404) [(0x10, 4, 5)]
       (queued { idleQ with cmds := [{ cmd0 with payload := zeros 48 ++ leBytes 4 (2 ^ 31 + 5) ++ zeros 12 }] })
       (fun s r => s.queues.any (fun p => p.2.cmds.any (fun c => c.names s.caravan.die (r.n 0x10 4))))
   , ask (.eventFree 0) well [(0x10, 4, 5)] pool (fun s r => mhas s.events (r.n 0x10 4) && s.queues.isEmpty)
   , ask (.eventBind 0) (bad 3) [(0x10, 4, 5), (0x14, 2, 2048)] pool]
   ++ [ask (.eventBind 0) (bad 0xE) [(0x10, 4, 131071), (0x14, 2, 0)] pool
   , ask (.eventBind 0) well [(0x10, 4, 5), (0x14, 2, 16)] pool
   , ask (.queueCreate 0) (bad 3) (queuePs 4096 1 6 0 0 0 0) pool, ask (.queueCreate 0) (bad 3) (queuePs 0 1 5 0 0 0 0) pool
   , ask (.queueCreate 0) (bad 3) (queuePs 0 1 20 0 (2 ^ 48 - 4096) 0 0) pool
   , ask (.queueCreate 0) (bad 3) (queuePs 0 1 6 1 0 0 4) pool
   , ask (.queueCreate 0) (bad 0xD) (queuePs 0 1 6 0 0 0 1) (queued idleQ)
   , ask (.queueCreate 0) (bad 0xE) (queuePs 1 2 6 1 0 0 0) pool]
   ++ [ask (.queueCreate 0) (bad 0xE) (queuePs 1 1 6 0 0 511 0) pool
   , ask (.queueCreate 0) well (queuePs 4095 1 20 2 0 0 1) pool, ask (.queueCreate 0) none (queuePs 0xFFFF 1 6 1 0 0 3) noQueues
   , ask (.queueCreate 0) well (queuePs 0xFFFF 1 6 1 0 0 3) pool
   , ask (.queueCreate 0) (bad 0x504) (queuePs 1 1 6 0 0 0 31) pool
   , ask (.queueCreate 0) (bad 0x504) (queuePs 1 1 6 0 0 0 0) (queued idleQ)
   , ask (.queueCreate 0) (bad 0x503) (queuePs 1 1 6 0 0 0 1) (queued { idleQ with asid := 2 })
   , ask (.queueCreate 0) well (queuePs 1 1 6 0 0 0 3) (queued idleQ)]
   ++ [ask (.queueDestroy 0) (bad 3) [(0x10, 2, 4096)] pool, ask (.queueDestroy 0) (bad 0xE) [(0x10, 2, 4095)] pool
   , ask (.queueDestroy 0) (bad 0x401) [] (queued { idleQ with tail := 3 })
   , ask (.queueDestroy 0) (bad 0x401) [] (queued { idleQ with cmds := [cmd0] })
   , ask (.queueDestroy 0) well [] (queued { idleQ with tail := 3, stopped := true })
   , ask (.queueRestart 0) (bad 3) [(0x10, 2, 4096)] pool, ask (.queueRestart 0) (bad 0xE) [(0x10, 2, 4095)] pool
   , ask (.queueRestart 0) (bad 0x406) [] (queued idleQ)]
   ++ [ask (.queueRestart 0) (bad 3) [(0x14, 4, 3)] (queued { idleQ with stopped := true })
   , ask (.queueRestart 0) well [(0x14, 4, 2 ^ 32 - 254)] (queued { idleQ with stopped := true })]
theorem witness_EventsAndQueuesAreManaged :
    Meets eventAsks ∧ (∀ k, k < 131072 → mhas noEvents.events k = true) ∧ (∀ k, k < 4096 → mhas noQueues.queues k = true) :=
  ⟨meets_of (by decide +kernel), withEvents_has (fullMap_has _ _), withQueues_has (fullMap_has _ _)⟩

theorem test_event_and_queue_answers : eventAsks.all Ask.answered = true := by decide +kernel

/-- A fallback table of one layer and one point for the queue of engine 0, whose stream is 64 bytes at 0. -/
def tableBytes0 : List Byte := leBytes 2 1 ++ leBytes 2 0 ++ zeros 12 ++ leBytes 4 7 ++ leBytes 4 100 ++ zeros 8
def timedPs (c rel edge deadline margin : Nat) : List (Nat × Nat × Nat) :=
  [(0x10, 4, c), (0x14, 1, rel), (0x15, 1, edge), (0x18, 4, deadline), (0x1C, 4, margin)]
def partPs (p quads gfx tns slice park : Nat) : List (Nat × Nat × Nat) :=
  [(0x10, 1, p), (0x11, 1, quads), (0x12, 1, gfx), (0x13, 1, tns), (0x14, 4, slice), (0x18, 4, park)]
def withConv (x : Convoy) : State := { pool with convoys := [(0, x)] }
def lone : State := { pool with convoys := [], mmu := { pool.mmu with reserved := [] } }
def small : State := { lone with mem := { lone.mem with density := 0 } }
def allTimed : State :=
  { pool with convoys := (0, conv0) :: (List.range 256).map (fun k => (k + 1, { conv0 with timed := some timed0 })) }
def timedQ : State := { queued idleQ with convoys := [(0, conv0)] }
noncomputable def partitionAsks : List Ask :=
  [ask (.partitionSet 0) (bad 3) (partPs 8 1 0 0 60000 12000) pool, ask (.partitionSet 0) (bad 3) (partPs 0 1 9 8 60000 12000) pool
   , ask (.partitionSet 0) (bad 3) (partPs 0 1 0 0 59999 12000) pool
   , ask (.partitionSet 0) (bad 3) (partPs 0 1 0 0 60000000 11999) pool
   , ask (.partitionSet 0) (bad 3) (partPs 1 3 0 0 60000 12000) pool
   , ask (.partitionSet 0) well (partPs 7 0 0 16 60000 60000000) pool
   , ask (.partitionSet 0) none (partPs 1 2 0 0 60000 12000) small
   , ask (.partitionSet 0) none (partPs 1 2 0 0 60000 12000) lone]
   ++ [ask (.partitionSet 0) well (partPs 0 1 16 0 60000000 12000) pool (fun s _ => (mget s.parts 0).isSome)
   , ask (.partitionSet 0) (bad 0x501) (partPs 0 2 0 0 60000 12000) pool
   , ask (.partitionSet 0) well (partPs 0 0 0 0 60000 12000) lone
   , ask (.partitionSet 0) none (partPs 0 0x80 0 0 60000 12000) small
   , ask (.convoyCreate 0) (bad 3) [(0x10, 1, 8), (0x12, 2, 1)] pool, ask (.convoyCreate 0) (bad 3) [] pool
   , ask (.convoyCreate 0) (bad 0xE) [(0x10, 1, 7), (0x12, 2, 1)] pool]
   ++ [ask (.convoyCreate 0) (bad 0x11) [(0x12, 2, 9)] pool, ask (.convoyCreate 0) none [(0x12, 2, 8)] crowded
   , ask (.convoyCreate 0) none [(0x12, 2, 8)] pool
   , ask (.convoyDestroy 0) (bad 3) [(0x10, 4, 512)] pool, ask (.convoyDestroy 0) (bad 0xE) [(0x10, 4, 511)] pool
   , ask (.convoyDestroy 0) (bad 0x502) [] (queued idleQ), ask (.convoyDestroy 0) well [] pool]
   ++ [ask (.convoySetShare 0) (bad 3) [(0x10, 4, 512), (0x14, 2, 1)] pool, ask (.convoySetShare 0) (bad 3) [] pool
   , ask (.convoySetShare 0) (bad 0xE) [(0x10, 4, 511), (0x14, 2, 1)] pool
   , ask (.convoySetShare 0) (bad 0x11) [(0x14, 2, 9)] pool
   , ask (.convoySetShare 0) well [(0x14, 2, 8)] pool (fun s _ => !s.isResident 0)
   , ask (.convoySetShare 0) well [(0x14, 2, 1)] { pool with parts := [(0, { free0 with resident := some 0 })] }
       (fun s _ => s.isResident 0)
   , ask (.convoySetTimed 0 none) (bad 3) (timedPs 512 0 0 300000 0) pool
   , ask (.convoySetTimed 0 none) (bad 3) (timedPs 0 5 0 300000 0) pool]
   ++ [ask (.convoySetTimed 0 none) (bad 3) (timedPs 0 4 2 300000 0) pool
   , ask (.convoySetTimed 0 none) well (timedPs 0 0xFF 0 0 0) pool
   , ask (.convoySetTimed 0 none) well (timedPs 0 0xFF 0 0 0) (withConv { conv0 with timed := some timed0, batch := some batch0 })
   , ask (.convoySetTimed 0 none) well (timedPs 0 0xFF 1 0 0) (withConv { conv0 with timed := some timed0 })
   , ask (.convoySetTimed 0 none) (bad 3) (timedPs 0 4 0 299999 0) pool
   , ask (.convoySetTimed 0 none) (bad 3) (timedPs 0 4 0 300000 300000) pool
   , ask (.convoySetTimed 0 none) (bad 0x506) (timedPs 0 4 0 300000 0) allTimed
       (fun s _ => (s.convoys.filter (fun y => y.2.timed.isSome)).length = 256)
   , ask (.convoySetTimed 0 none) (bad 0x507) (timedPs 0 4 0 300000 299999) pool
       (fun s r => (s.fallbackTable 0 (r.n 0x20 8) none).1.isNone)]
   ++ [ask (.contextRead 0) (bad 3) [(0x20, 4, 32)] pool, ask (.contextRead 0) (bad 3) [(0x10, 4, 2 ^ 18 - 1), (0x14, 4, 2)] pool
   , ask (.contextRead 0) (bad 3) [(0x14, 4, 4097)] pool, ask (.contextRead 0) (bad 0xC) [(0x14, 4, 1), (0x20, 4, 31)] pool
   , ask (.contextRead 0) (bad 0xC) [(0x14, 4, 1), (0x18, 8, 4), (0x20, 4, 32)] pool
   , ask (.contextRead 0) well [(0x10, 4, 2 ^ 18 - 1), (0x14, 4, 1), (0x18, 8, 0x1000), (0x20, 4, 32)] pool
       (fun s _ => !s.host.d3hot)]
theorem reserve_none {s : State} {n align : Nat} (h : min s.mmu.ptBase s.mem.capacity < n) : s.reserve n align = none := by
  have f : ∀ a, ¬ a + n ≤ min s.mmu.ptBase s.mem.capacity := fun a => by omega
  simp [State.reserve, State.findRange, f]
theorem reserve_some {s : State} {n align : Nat} (h : n ≤ min s.mmu.ptBase s.mem.capacity) (k : s.mmu.reserved = []) :
    (s.reserve n align).isSome = true := by
  simp only [State.reserve, State.findRange, Option.isSome_map]
  split
  · rfl
  · simp [State.rangeFree, k, (Nat.le_min.mp h).1, (Nat.le_min.mp h).2]
theorem witness_PartitionsAndConvoysAreManaged :
    small.reserve (72 * 2 ^ 20) 4096 = none ∧ (lone.reserve (72 * 2 ^ 20) 4096).isSome = true ∧ Meets partitionAsks ∧ (∀ k, k < 512 → mhas crowded.convoys k = true) :=
  ⟨reserve_none (by decide), reserve_some (by decide) rfl, meets_of (by decide +kernel), withConvoys_has (fullMap_has _ _)⟩
theorem test_partition_answers : partitionAsks.all Ask.answered = true := by decide +kernel

end Sys2Proof.Tests
end

