-- ==== Sys2Proof/Tests/WObjects.lean ====
section
/-! SUPPORT. Witnesses for the statements about address spaces, objects, heaps, fault rings, the strongroom and the
memory's commands. -/

namespace Sys2Proof.Tests

set_option Elab.async false

open Sys2Proof.Machine

def objPs (asid placement die page access va size : Nat) : List (Nat × Nat × Nat) :=
  [(0x10, 2, asid), (0x12, 1, placement), (0x13, 1, die), (0x14, 1, page), (0x15, 1, access), (0x18, 8, va), (0x20, 8, size)]
def pool' (f : Mmu → Mmu) : State := { pool with mmu := f pool.mmu }
def objSt (st : ObjState) : State := pool' (fun m => { m with objs := [(0, { obj0 with st := st })] })
def noObjs : State := pool' (fun m => { m with objs := [], backings := [], reserved := [] })
def onePage : State := pool' (fun m => { m with ptBytes := 4096 })
def heap1 : Heap := { objs := [(0, 0)], blocks := [(0x200000, 0)], chunks := [(0x200000, 0)], badFrees := 2 }
def heapPool (h : Heap) : State := pool' (fun m => { m with heaps := [(256, h)] })
def withAsids (m : Map Asid) : State := pool' (fun u => { u with asids := m })
def noAsids : State := withAsids (fullMap 65535 { ring := 0, root := 0 })
theorem withAsids_has {m : Map Asid} {n : Nat} (h : ∀ k, k < n → mhas m k = true) :
    ∀ k, k < n → mhas (withAsids m).mmu.asids k = true := h
noncomputable def objAsks : List Ask :=
  [ask (.asidCreate 0) (bad 3) [(0x10, 1, 16)] pool, ask (.asidCreate 0) none [(0x10, 1, 15)] noAsids
   , ask (.asidCreate 0) none [(0x10, 1, 15)] { onePage with mmu := { onePage.mmu with tables := [0x10000000] } }
       (fun s _ => s.freeTable.isNone)
   , ask (.asidCreate 0) none [(0x10, 1, 15)] pool (fun s _ => s.freeTable = some 0x10001000)
   , ask (.asidDestroy 0) (bad 3) [(0x10, 2, 0xFFFF)] pool, ask (.asidDestroy 0) (bad 0xE) [(0x10, 2, 2)] pool
   , ask (.asidDestroy 0) (bad 0x207) [(0x10, 2, 1)] pool (fun s _ => s.mmu.objs.any (fun o => o.2.asid = 1))
   , ask (.asidDestroy 0) well [(0x10, 2, 1)] noObjs]
   ++ [ask (.objCreate 0 none) (bad 0xE) (objPs 2 0 0 0 3 0x400000 4096) pool
   , ask (.objCreate 0 none) (bad 3) (objPs 1 4 0 0 3 0x400000 4096) pool
   , ask (.objCreate 0 none) (bad 3) (objPs 1 0 0 1 3 0x401000 65536) pool
   , ask (.objCreate 0 none) (bad 3) (objPs 1 0 0 0 3 0 4096) pool
   , ask (.objCreate 0 none) (bad 3) (objPs 1 0 0 0 3 0x1FF000 8192) pool
   , ask (.objCreate 0 none) (bad 3) (objPs 1 3 0 0 3 0x400000 4096) pool
   , ask (.objCreate 0 none) (bad 0xC) (objPs 1 2 0 0 3 0x400000 4096) pool
   , ask (.objCreate 0 (some (leBytes 8 0x5001))) (bad 3) (objPs 1 2 0 0 3 0x400000 4096) pool]
   ++ [ask (.objCreate 0 (some (leBytes 8 0x5000))) (bad 0x204) (objPs 1 2 0 0 3 0x400000 4096) onePage
   , ask (.objCreate 0 (some (leBytes 8 0x5000))) well (objPs 1 2 0 0 3 (2 ^ 48 - 4096) 4096) pool
       (fun s _ => s.freeHandle = some 1)
   , ask (.objCreate 0 none) none (objPs 1 0 0 3 3 (2 ^ 30) (2 ^ 30)) lone (fun s _ => s.mmu.reserved.isEmpty)
   , ask (.objAlias 0) (bad 0xE) [(0x14, 2, 2)] pool, ask (.objAlias 0) (bad 0xE) [(0x10, 4, 1), (0x14, 2, 1)] pool
   , ask (.objAlias 0) (bad 0x201) [(0x14, 2, 1), (0x18, 8, 0x600000)] (objSt .dooming)
   , ask (.objAlias 0) (bad 3) [(0x14, 2, 1), (0x16, 1, 4), (0x18, 8, 0x600000)] pool
   , ask (.objAlias 0) (bad 3) [(0x14, 2, 1), (0x16, 1, 1), (0x18, 8, 0x300000)] pool]
   ++ [ask (.objAlias 0) (bad 0x204) [(0x14, 2, 1), (0x16, 1, 1), (0x18, 8, 0x600000)] onePage
   , ask (.objAlias 0) well [(0x14, 2, 1), (0x16, 1, 1), (0x18, 8, 2 ^ 48 - 2 ^ 21)] pool
   , ask (.objFree 0) (bad 3) [(0x10, 4, 2 ^ 20), (0x14, 4, 2 ^ 32 - 1)] pool
   , ask (.objFree 0) (bad 3) [(0x14, 4, 131072)] pool
   , ask (.objFree 0) (bad 0x201) [(0x10, 4, 2 ^ 20 - 1), (0x14, 4, 2 ^ 32 - 1)] pool
   , ask (.objFree 0) (bad 0x201) [(0x14, 4, 2 ^ 32 - 1)] (objSt .doomed)
   , ask (.objFree 0) (bad 0xE) [(0x14, 4, 131071)] pool]
   ++ [ask (.objFree 0) well [(0x14, 4, 2 ^ 32 - 1)] pool, ask (.objFree 0) well [(0x14, 4, 5), (0x18, 8, 9)] pool
   , ask (.objQuery 0) (bad 3) [(0x10, 4, 2 ^ 20)] pool, ask (.objQuery 0) well [(0x10, 4, 2 ^ 20 - 1)] pool
   , ask (.objQuery 0) well [] pool
   , ask (.heapCreate 0) (bad 0xE) [(0x10, 2, 2)] pool, ask (.heapCreate 0) well [(0x10, 2, 1), (0x12, 1, 255)] pool
   , ask (.heapAdd 0) (bad 0xE) [(0x10, 2, 1)] pool]
   ++ [ask (.heapAdd 0) (bad 0x203) [(0x10, 2, 1), (0x14, 4, 1)] (heapPool { heap1 with objs := [] })
   , ask (.heapAdd 0) (bad 0x203) [(0x10, 2, 1)] (heapPool heap1)
   , ask (.heapAdd 0) none [(0x10, 2, 1)] (heapPool { heap1 with objs := [] })
   , ask (.heapDestroy 0) (bad 0xE) [(0x10, 2, 1)] pool, ask (.heapDestroy 0) well [(0x10, 2, 1)] (heapPool heap1)
   , ask (.heapQuery 0) (bad 0xE) [(0x10, 2, 1)] pool, ask (.heapQuery 0) well [(0x10, 2, 1)] (heapPool heap1)]
theorem witness_ObjectsAndHeapsAreManaged :
    Meets objAsks ∧ (∀ k, k < 65535 → mhas noAsids.mmu.asids k = true)
    ∧ (pool.obj? 0 = some obj0 ∧ obj0.st ≠ .doomed) ∧ pool.obj? 1 = none
    ∧ (let s := objSt .doomed
       s.live = true ∧ s.obj? 0 = some { obj0 with st := .doomed } ∧ obj0.uses = 0
       ∧ mget s.mmu.backings obj0.backing = some back0 ∧ back0.placement ≤ 1)
    ∧ (lone.reserve (2 ^ 21) 4096).isSome = true :=
  ⟨meets_of (by decide +kernel), withAsids_has (fullMap_has _ _), by decide, by decide, by decide, reserve_some (by decide) rfl⟩
theorem test_object_answers : objAsks.all Ask.answered = true := by decide +kernel

/-! ### Fault rings and answers -/

/-- A table of level 3 whose first entry leads to a leaf of 1 GiB. -/
def leafCells : List Host.Cell :=
  memWrite (memWrite [] 0x10000000 (leBytes 8 0x10001001)) 0x10001000 (leBytes 8 0x4000000F)
def walked : State := { pool with mem := { pool.mem with cells := leafCells } }
def frec (kind : Nat) : FaultRec :=
  { asid := 1, kind := kind, write := false, fetch := false, atomic := false, va := 0, waybill := 0x77, seq := 1, agent := 0
    unit := 0, queue := 0, level := 0, heap := 0, detail := 0, stamp := 0, slot := none, waiters := 1, growKey := 0
    convoy := some 0 }
def fring (device : Bool) (asid : Nat) : FaultRing :=
  { sizeLog := 6, vector := 32, device := device, asid := asid, addr := 0x1000, widx := 63, slots := [] }
/-- A string parked on fault 3 and a copy job stopped on it. -/
def parkedOn (kind : Nat) (g : FaultRing) : State :=
  { mapped { st1 with state := .parked (some 3) } [] with
    mmu := { pool.mmu with faults := [(3, frec kind)], nextFault := 3, rings := [(0, g)], utlbs := [(255, [tlb0])] }
    jobs := [(0, { queue := 2, cmd := 1, done := 0, fault := some (some 3), decompressing := false })]
    queues := [(0, q0), (2, { q0 with kind := 1, unit := 0 })] }
def atRing (g : FaultRing) : State := parkedOn 1 g
def ringPs (k size vector place asid : Nat) : List (Nat × Nat × Nat) :=
  [(0x10, 1, k), (0x11, 1, size), (0x12, 2, vector), (0x14, 1, place), (0x16, 2, asid)]
noncomputable def faultAsks : List Ask :=
  [ask (.mmuSetFaultRingEnable 0) (bad 3) (ringPs 16 6 0 0 0) pool, ask (.mmuSetFaultRingEnable 0) (bad 3) (ringPs 0 17 0 0 0) pool
   , ask (.mmuSetFaultRingEnable 0) (bad 3) (ringPs 0 5 0 0 0) pool, ask (.mmuSetFaultRingEnable 0) (bad 3) (ringPs 0 6 15 0 0) pool
   , ask (.mmuSetFaultRingEnable 0) (bad 3) (ringPs 0 6 0 2 0) pool
   , ask (.mmuSetFaultRingEnable 0) (bad 0xE) (ringPs 15 16 2047 1 2) pool
   , ask (.mmuSetFaultRingEnable 0) well (ringPs 15 16 2047 1 1) pool
   , ask (.mmuSetFaultRingEnable 0) well (ringPs 0 6 0 0 0) pool]
   ++ [ask (.mmuSetFaultRingDisable 0) (bad 3) (ringPs 16 0 0 0 0) pool, ask (.mmuSetFaultRingDisable 0) well (ringPs 15 0 0 0 0) pool
   , ask (.faultResolveRetry 0) (bad 3) [(0x10, 4, 3), (0x14, 1, 3)] (atRing (fring false 1))
   , ask (.faultResolveRetry 0) well [(0x10, 4, 4)] (atRing (fring false 1)) (fun s _ => (mget s.mmu.faults 4).isNone)
   , ask (.faultResolveRetry 0) well [(0x10, 4, 3)] (atRing (fring false 1))
       (fun s _ => (mget s.mmu.faults 3).any (fun f => f.kind ≠ 0x11) && s.passes.isEmpty
         && (s.str? 0 0).any (fun st => st.state = .parked (some 3)))
   , ask (.faultResolveDecline 0) well [(0x10, 4, 4), (0x14, 1, 1)] (atRing (fring false 1))
   , ask (.faultResolveDecline 0) well [(0x10, 4, 3), (0x14, 1, 1)] (parkedOn 0x10 (fring false 1))
   , ask (.faultResolveDecline 0) well [(0x10, 4, 3), (0x14, 1, 1)] (atRing (fring false 1))]
   ++ [ask (.faultResolveAbort 0) well [(0x10, 4, 4), (0x14, 1, 2)] (atRing (fring false 1))
   , ask (.faultResolveAbort 0) well [(0x10, 4, 3), (0x14, 1, 2)] (atRing (fring false 1))]
theorem witness_FaultsReachRingsAndAreAnswered :
    (walked.working = true ∧ mget walked.mmu.asids 1 = some ⟨0, 0x10000000⟩ ∧ walked.walkHit 1 0 = none
      ∧ walked.mem.leafOf walked.caravan.die 0 0x10000000 4 = some (2, 0x4000000F))
    ∧ Meets faultAsks ∧ mget pool.mmu.faults 3 = none
    ∧ (let s := atRing (fring false 1)
       mget s.mmu.faults 3 = some (frec 1) ∧ s.ringOf (frec 1) = 0 ∧ mget s.mmu.rings 0 = some (fring false 1)
       ∧ s.working = true ∧ mget (fring false 1).slots (63 % 2 ^ 6) = none ∧ s.flt.fatal = false
       ∧ ∀ p ∈ s.mmu.faults, (3 + 2 ^ 32 - s.mmu.nextFault) % 2 ^ 32 ≤ (p.1 + 2 ^ 32 - s.mmu.nextFault) % 2 ^ 32)
    ∧ (∃ a s1, (atRing (fring true 1)).writeVa 255 1 (0x1000 + 64 * (63 % 2 ^ 6)) (faultBytes 3 (frec 1) true) false = (.ok a, s1)
        ∧ (fun _ _ => true) a s1 = true)
    ∧ (∃ e s1, (atRing (fring true 2)).writeVa 255 2 (0x1000 + 64 * (63 % 2 ^ 6)) (faultBytes 3 (frec 1) true) false = (.error e, s1))
    ∧ (let s := parkedOn 1 { fring false 1 with slots := [(63, 3)] }
       ∃ id, mget { fring false 1 with slots := [(63, 3)] }.slots (63 % 2 ^ 6) = some id ∧ mhas s.mmu.faults id = true)
    ∧ ((atRing (fring false 1)).str? 0 0 = some { st1 with state := .parked (some 3) }
        ∧ mget (atRing (fring false 1)).jobs 0 = some ⟨2, 1, 0, some (some 3), false⟩) := by
  refine ⟨by decide +kernel, meets_of (by decide +kernel), by decide, by decide +kernel, ok_of (by decide +kernel),
    fail_of (by decide +kernel), ⟨3, by decide, by decide⟩, by decide⟩
theorem test_fault_answers : faultAsks.all Ask.answered = true := by decide +kernel

/-! ### The strongroom and the memory's commands -/

def pool'' (f : Mem → Mem) : State := { pool with mem := f pool.mem }
def srBack : State :=
  { pool'' (fun m => { m with srWays := 2 }) with
    mmu := { pool.mmu with backings := [(0, { back0 with placement := 1, base := 0xFE_0040_0000, size := 4096 })] } }
def longs (n : Nat) (op : Nat) : List LongOp :=
  List.replicate n { opcode := op, pair := 0, session := 7, tag := 9, rev := 3, role := 2, params := zeros 48, data := [] }
def withLongs (s : State) (n op : Nat) : State := { s with fw := { s.fw with longOps := longs n op } }
def oneEcc : EccEnt := { addr := 64, source := 0, unit := 1, sub := 0, position := 0, syndrome := 1, repeats := 1, stamp := 0 }
noncomputable def memAsks : List Ask :=
  [ask (.l2SetStrongroom 0) (bad 0x205) [(0x10, 1, 9)] pool
   , ask (.l2SetStrongroom 0) (bad 0x205) [(0x10, 1, 8)] (pool'' (fun m => { m with slices := [(15, { Slice.reset with off := 0x00FF })] }))
   , ask (.l2SetStrongroom 0) (bad 0x205) [(0x10, 1, 1)] (pool'' (fun m => { m with slices := [(0, { Slice.reset with off := 0x8000 })] }))
   , ask (.l2SetStrongroom 0) none [(0x10, 1, 8)] pool (fun s _ => s.mem.srTarget = none)
   , ask (.l2SetStrongroom 0) none [(0x10, 1, 8)] (pool'' (fun m => { m with srTarget := some 1 }))
   , ask (.l2SetStrongroom 0) (bad 0x206) [(0x10, 1, 1)] srBack
   , ask (.l2SetStrongroom 0) well [(0x10, 1, 1)] (pool'' (fun m => { m with srWays := 2 }))
       (fun s _ => Memory.wf s.mem.cells)
   , ask (.l2SetStrongroom 0) well [] pool]
   ++ [ask (.drcConfigure 0) (bad 3) [(0x10, 1, 2), (0x11, 1, 2), (0x12, 1, 1), (0x18, 4, 16)] pool
   , ask (.drcConfigure 0) (bad 3) [(0x11, 1, 2), (0x12, 1, 1), (0x18, 4, 4097)] pool
   , ask (.drcConfigure 0) (bad 3) [(0x10, 1, 1), (0x11, 1, 8), (0x12, 1, 1), (0x18, 4, 16)] pool
   , ask (.drcConfigure 0) none [(0x11, 1, 8), (0x12, 1, 2), (0x13, 1, 1), (0x14, 1, 2), (0x18, 4, 4096)] pool
   , ask (.drcRetrain 0) (bad 3) [(0x10, 1, 16)] pool
   , ask (.drcRetrain 0) (bad 0x302) [(0x10, 1, 15)] (pool'' (fun m => { m with spill := 0 }))
   , ask (.drcRetrain 0) (bad 0x303) [(0x10, 1, 15)] (pool'' (fun m => { m with channels := [(0, { Channel.reset with excluded := true })] }))
   , ask (.drcRetrain 0) (bad 0x12) [(0x10, 1, 15)] (withLongs pool 4 0x0913)
       (fun s r => (s.fw.longOps.filter (fun l => l.session = r.session)).length = 4)]
   ++ [ask (.drcRetrain 0) (bad 0xD) [(0x10, 1, 15)] (withLongs pool 1 0x0402)
   , ask (.drcRetrain 0) runs [(0x10, 1, 15)] (withLongs pool 3 0x0913)
   , ask (.eccLogRead 0) (bad 0xC) [(0x18, 4, 1023)] pool, ask (.eccLogRead 0) (bad 0xC) [(0x10, 8, 4), (0x18, 4, 1024)] pool
   , ask (.eccLogRead 0) well [(0x10, 8, 0x1000), (0x18, 4, 1024)] (pool'' (fun m => { m with eccLog := [oneEcc] }))
   , ask (.eccLogClear 0) well [] (pool'' (fun m => { m with eccLog := [oneEcc] }))]
theorem witness_StrongroomAndMemoryCommandsAct :
    Meets memAsks
    ∧ (let spares := fun (m : Mem) (w : Nat) => ∀ k, k < 16 → (m.slice k).fenced = true
         ∨ (4 ≤ ((List.range (16 - w)).filter (fun y => !bit (m.slice k).off.toNat y)).length
           ∧ ∀ y, 16 - w ≤ y → y < 16 - m.srWays → bit (m.slice k).off.toNat y = false)
       spares pool.mem 8 ∧ ¬ spares { pool.mem with slices := [(0, { Slice.reset with off := 0x8000 })] } 1)
    ∧ MayStartLong (withLongs pool 3 0x0913) (ask (.drcRetrain 0) runs [(0x10, 1, 15)] pool).req
    ∧ ¬ MayStartLong (withLongs pool 1 0x0402) (ask (.drcRetrain 0) runs [(0x10, 1, 15)] pool).req
    ∧ pool.mem.srTarget = none
    ∧ (let s := pool'' (fun m => { m with srTarget := some 8 })
       s.mem.srTarget = some 8 ∧ s.working = true ∧ (∀ n, n < 8 → (s.mbx n).reqPending = false)
       ∧ ∀ k, k < 16 → (s.mem.slice k).fenced = false) := by
  refine ⟨meets_of (by decide +kernel), ⟨by decide +kernel, by decide +kernel⟩, ?_, ?_, by decide, by decide⟩
  · exact ⟨by decide +kernel, by decide +kernel⟩
  · intro h; exact absurd h.2 (by decide +kernel)
theorem test_memory_answers : memAsks.all Ask.answered = true := by decide +kernel

end Sys2Proof.Tests
end

