-- ==== Sys2Proof/Tests/WCare.lean ====
section
/-! SUPPORT. Witnesses for the statements about the display, the caravan, sample rings, faults, power, settings, images
and keys. -/

namespace Sys2Proof.Tests

set_option Elab.async false

open Sys2Proof.Machine

/-! ### Display -/

/-- 64 × 1 pixels, 22.68 Mpixel/s at most, one lane of 1.62 Gb/s, a border; the frame lock mode is the argument. -/
def cfgD (fs : Nat) : List Byte :=
  leBytes 2 64 ++ leBytes 2 4 ++ leBytes 2 4 ++ leBytes 2 4 ++ leBytes 2 1 ++ leBytes 2 4 ++ leBytes 2 1 ++ leBytes 2 1
  ++ leBytes 4 1000 ++ leBytes 1 0 ++ leBytes 1 1 ++ leBytes 1 0 ++ leBytes 1 4 ++ zeros 4 ++ leBytes 4 fs ++ leBytes 4 1023
  ++ zeros 28
/-- A layer of 16 × 1 pixels of format 3 at (0, 0). -/
def layerD : List Byte :=
  zeros 16 ++ leBytes 2 1 ++ leBytes 1 3 ++ leBytes 1 32 ++ leBytes 4 64 ++ zeros 4 ++ zeros 4 ++ leBytes 2 16 ++ leBytes 2 1
  ++ zeros 4 ++ leBytes 2 16 ++ leBytes 2 1 ++ zeros 20
def pipeD (fs : Nat) : Pipe := { Pipe.reset with cfg := cfgD fs, crcRef := BitVec.ofNat 32 (crc32c (cfgD fs)) }
def shows (v : Pipe) : State := { pool with pipes := [(3, v)] }
def bufPs (p l n : Nat) : List (Nat × Nat × Nat) := [(0x10, 1, p), (0x11, 1, l), (0x18, 8, 0x1000), (0x20, 4, n)]
noncomputable def displayAsks : List Ask :=
  [ask (.dspPipeSet 0 (some (cfgD 0))) (bad 3) (bufPs 4 0 64) pool, ask (.dspPipeSet 0 none) (bad 0xC) (bufPs 3 0 64) pool
   , ask (.dspPipeSet 0 (some (cfgD 0))) (bad 0xC) (bufPs 3 0 63) pool
   , ask (.dspPipeSet 0 (some (cfgD 0))) (bad 0x611) (bufPs 3 0 64) (shows { Pipe.reset with starting := true })
   , ask (.dspPipeSet 0 (some (cfgD 3))) (bad 0x612) (bufPs 3 0 64) pool
   , ask (.dspPipeSet 0 (some (cfgD 0))) well (bufPs 3 0 64) pool
   , ask (.dspPipeEnableOn 0) (bad 3) [(0x10, 1, 4), (0x11, 1, 1)] pool
   , ask (.dspPipeEnableOn 0) (bad 3) [(0x10, 1, 3), (0x11, 1, 2)] pool]
   ++ [ask (.dspPipeEnableOn 0) (bad 0x612) [(0x10, 1, 3), (0x11, 1, 1)] pool
   , ask (.dspPipeEnableOn 0) (bad 0x612) [(0x10, 1, 3), (0x11, 1, 1)] (shows { pipeD 0 with crcRef := 0 })
   , ask (.dspPipeEnableOn 0) well [(0x10, 1, 3), (0x11, 1, 1)] (shows (pipeD 0))
   , ask (.dspPipeEnableOn 0) well [(0x10, 1, 3), (0x11, 1, 1)] (shows { pipeD 0 with enabled := true, stopping := true })
   , ask (.dspPipeEnableOff 0) (bad 3) [(0x10, 1, 4)] pool
   , ask (.dspPipeEnableOff 0) well [(0x10, 1, 3)] (shows { pipeD 0 with enabled := true })
   , ask (.dspLayerSet 0 (some layerD)) (bad 3) (bufPs 3 7 64) pool, ask (.dspLayerSet 0 none) (bad 0xC) (bufPs 3 6 64) pool]
   ++ [ask (.dspLayerSet 0 (some layerD)) (bad 0x613) (bufPs 3 6 64) pool
   , ask (.dspLayerSet 0 (some (zeros 64))) (bad 0x613) (bufPs 3 6 64) (shows { pipeD 0 with enabled := true })
   , ask (.dspLayerSet 0 (some layerD)) well (bufPs 3 6 64) (shows { pipeD 0 with enabled := true })
   , ask (.dspScalerLoad 0 none) (bad 3) (bufPs 3 6 1792) pool, ask (.dspScalerLoad 0 none) (bad 0xC) (bufPs 3 5 1792) pool
   , ask (.dspScalerLoad 0 (some (zeros 1790 ++ leBytes 2 512))) none (bufPs 3 5 1792) pool
   , ask (.dspScalerLoad 0 (some (zeros 1790 ++ leBytes 2 0xFE00))) none (bufPs 3 5 1792) pool]
theorem witness_DisplayPipesFollowTheirCommands :
    Meets displayAsks
    ∧ (let s := shows { pipeD 0 with link := 3, enabled := true }
       s.live = true ∧ s.halted = false ∧ (s.pipe 3).fenced = false ∧ (s.pipe 3).cfg.length = 64 ∧ (s.pipe 3).link = 3
       ∧ getLe (s.pipe 3).cfg 0x16 1 = 0 ∧ (dspRate 0).isSome = true)
    ∧ (let s := shows { pipeD 0 with link := 2 }
       (s.pipe 3).link ≠ 1 ∧ (s.pipe 3).link ≠ 3)
    ∧ (let s := shows { pipeD 2 with enabled := true }
       s.live = true ∧ s.halted = false ∧ (s.pipe 3).enabled = true ∧ bits (getLe (s.pipe 3).cfg 0x1C 4) 1 0 = 2)
    ∧ ((shows { pipeD 0 with stopping := true, enabled := true }).pipe 3).stopping = true
    ∧ (let v := (shows { pipeD 0 with starting := true, link := 1 }).pipe 3
       v.stopping = false ∧ v.enabled = false ∧ v.link ≠ 2)
    ∧ (let s := shows { pipeD 0 with starting := true, link := 2 }
       (s.pipe 3).stopping = false ∧ (s.pipe 3).starting = true ∧ (s.pipe 3).link = 2 ∧ (s.layersOf 3).live = []
       ∧ bit (getLe (s.pipe 3).cfg 0x14 1) 3 = false)
    ∧ (let s := shows { pipeD (2 + 3 * 4) with enabled := true }
       (s.sync 3).level = false ∧ bits (getLe (s.pipe 3).cfg 0x1C 4) 1 0 = 2 ∧ bits (getLe (s.pipe 3).cfg 0x1C 4) 3 2 = 3
       ∧ bit (getLe (s.pipe 3).cfg 0x1C 4) 4 = !true ∧ ∀ c ∈ s.convoys, c.2.timed = none) := by
  refine ⟨meets_of (by decide +kernel), by decide +kernel, by decide +kernel, by decide +kernel, by decide +kernel,
    by decide +kernel, by decide +kernel, by decide +kernel⟩
theorem test_display_answers : displayAsks.all Ask.answered = true := by decide +kernel

/-! ### Caravan and sample rings -/

def topo0 (st : Nat) (id : Dword) (peers : List Nat) : Topo :=
  { st := st, hops := 1, dieId := id, peers := peers, rates := [0, 0, 0, 0], capacity := 0 }
def portUp (peer : Nat) : Port := { Port.reset with link := 2, width := 2, rate64 := true, peer := some peer }
/-- Die 0 with member 1 on port 0 and die 2, not a member, on port 1. -/
def twoDies : State :=
  { pool with
    mram := { pool.mram with working := [(0x17, 0x99)] }
    caravan := { Caravan.reset with
      size := 2, topo := [(0, topo0 1 0x11 [1, 2]), (1, topo0 1 0x22 [0, 0xFF, 0xFF, 0xFF]), (2, topo0 0 0x99 [0, 0xFF, 0xFF, 0xFF])]
      routes := [(1, { ports := 1, alt := 0, hops := 1, altHops := 0 })], ports := [(0, portUp 1), (1, portUp 2)] } }
/-- A routing table whose entry for a die has these ports and hops. -/
def routeTable (die ports hops : Nat) : List Byte :=
  zeros (8 * die) ++ leBytes 1 ports ++ leBytes 1 0 ++ leBytes 1 hops ++ zeros (61 - 8 * die)
def inUse : State :=
  { twoDies with mmu := { twoDies.mmu with backings := [(0, { back0 with placement := 3, die := 1 })] } }
/-- A member 3 behind member 1. -/
def chain : State :=
  { twoDies with caravan := { twoDies.caravan with
      topo := [(0, topo0 1 0x11 [1]), (1, topo0 1 0x22 [0, 3, 0xFF, 0xFF]), (3, topo0 1 0x33 [1, 0xFF, 0xFF, 0xFF])] } }
/-- Interval 10, three events of outriders on unit 0, domain FCLK. -/
def selD : List Byte :=
  leBytes 1 10 ++ leBytes 1 3 ++ leBytes 1 1 ++ leBytes 1 domF ++ zeros 12 ++ leBytes 2 0 ++ leBytes 2 1 ++ leBytes 2 2 ++ zeros 18
  ++ zeros 8 ++ leBytes 2 0x300 ++ zeros 62
def ringD : SampleRing :=
  { SampleRing.reset with enabled := true, sizeLog := 6, vector := 32, asid := 1, va := 0x1000, interval := 10, domain := domF
                          events := [0, 1, 2], units := [0x300] }
def sampled (v : SampleRing) : State :=
  { pool with sampleRings := [(15, v)], mmu := { pool.mmu with utlbs := [(255, [tlb0])] } }
def srec : SampleRec :=
  { sample := 0, block := 3, inst := 0, fenced := false, stamp := 0, waybill := none, values := [0, 0, 0] }
def samplePs (k size vector asid va n : Nat) : List (Nat × Nat × Nat) :=
  [(0x10, 1, k), (0x11, 1, size), (0x12, 2, vector), (0x14, 2, asid), (0x18, 8, va), (0x20, 8, 0x2000), (0x28, 4, n)]
noncomputable def caravanAsks : List Ask :=
  [ask (.cvlRouteSet 0 none) (bad 3) (bufPs 8 0 64) twoDies, ask (.cvlRouteSet 0 none) (bad 0xC) (bufPs 0 0 64) twoDies
   , ask (.cvlRouteSet 0 (some (routeTable 1 16 1))) (bad 3) (bufPs 0 0 64) twoDies
   , ask (.cvlRouteSet 0 (some (routeTable 1 1 4))) (bad 3) (bufPs 0 0 64) twoDies
   , ask (.cvlRouteSet 0 (some (routeTable 1 8 1))) (bad 0x801) (bufPs 0 0 64) twoDies
   , ask (.cvlRouteSet 0 (some (routeTable 1 1 1))) well (bufPs 0 0 64) twoDies
   , ask (.cvlRouteSet 0 (some (routeTable 0 1 1))) well (bufPs 1 0 64) twoDies
   , ask (.cvlRouteSet 0 (some (zeros 64))) (bad 0x801) (bufPs 7 0 64) twoDies]
   ++ [ask (.cvlMemberAdmit 0) (bad 3) [(0x10, 1, 8)] twoDies, ask (.cvlMemberAdmit 0) (bad 3) [(0x11, 1, 2)] twoDies
   , ask (.cvlMemberAdmit 0) (bad 0x806) [(0x10, 1, 1)] twoDies, ask (.cvlMemberAdmit 0) (bad 0x804) [(0x10, 1, 7)] twoDies
   , ask (.cvlMemberAdmit 0) (bad 0x12) [(0x10, 1, 2)] (withLongs twoDies 4 0x0913)
   , ask (.cvlMemberAdmit 0) runs [(0x10, 1, 2)] twoDies
   , ask (.cvlMemberRemove 0) (bad 3) [(0x10, 1, 8), (0x11, 1, 1)] twoDies
   , ask (.cvlMemberRemove 0) (bad 0xE) [(0x10, 1, 2), (0x11, 1, 1)] twoDies]
   ++ [ask (.cvlMemberRemove 0) (bad 0xE) [(0x11, 1, 1)] twoDies
   , ask (.cvlMemberRemove 0) (bad 0x802) [(0x10, 1, 1), (0x11, 1, 1)] inUse
   , ask (.cvlMemberRemove 0) (bad 0x803) [(0x10, 1, 1), (0x11, 1, 1)] chain
   , ask (.cvlMemberRemove 0) (bad 0xD) [(0x10, 1, 1), (0x11, 1, 1)] (withLongs twoDies 1 0x0702)
   , ask (.cvlMemberRemove 0) runs [(0x10, 1, 1), (0x11, 1, 1)] twoDies
   , ask (.sampleRingSetEnable 0 none) (bad 3) (samplePs 16 6 0 1 0 112) pool
   , ask (.sampleRingSetEnable 0 none) (bad 3) (samplePs 0 17 0 1 0 112) pool
   , ask (.sampleRingSetEnable 0 none) (bad 3) (samplePs 0 6 0 1 2048 112) pool]
   ++ [ask (.sampleRingSetEnable 0 none) (bad 0xC) (samplePs 15 6 0 1 0 112) pool
   , ask (.sampleRingSetEnable 0 (some (zeros 112))) (bad 3) (samplePs 15 6 0 1 0 112) pool
   , ask (.sampleRingSetEnable 0 (some selD)) (bad 0xE) (samplePs 15 6 0 2 0 112) pool
   , ask (.sampleRingSetEnable 0 (some selD)) (bad 0xD) (samplePs 15 16 2047 1 0 112) (sampled ringD)
   , ask (.sampleRingSetEnable 0 (some selD)) well (samplePs 15 16 2047 1 0x1000 112) pool
   , ask (.sampleRingSetDisable 0) (bad 3) (samplePs 16 0 0 0 0 0) pool
   , ask (.sampleRingSetDisable 0) well (samplePs 15 0 0 0 0 0) pool
   , ask (.sampleRingSetDisable 0) well (samplePs 15 0 0 0 0 0) (sampled ringD)]
theorem witness_CaravanAndSampleRingsAreConfigured :
    Meets caravanAsks
    ∧ (pool.sring 15).enabled = false
    ∧ (let s := sampled { ringD with latched := List.replicate 64 srec }
       s.live = true ∧ s.halted = false ∧ (s.sring 15).enabled = true ∧ 64 < (s.sring 15).latched.length + (s.sring 15).units.length)
    ∧ (let s := sampled { ringD with latched := List.replicate 63 srec }
       s.live = true ∧ (s.sring 15).latched.length + (s.sring 15).units.length = 64 ∧ eventFree 3 2 = false)
    ∧ (sampled ringD).sring 15 = ringD ∧ ringD.latched = []
    ∧ (∃ a s1, (sampled { ringD with latched := [srec], widx := 15 }).writeVa 255 1 (0x1000 + 128 * 15) (srec.bytes true false) true
          = (.ok a, s1) ∧ (fun _ _ => true) a s1 = true)
    ∧ (15 + 1) % 2 ^ (ringD.sizeLog - 2) = 0
    ∧ (∃ e s1, (sampled { ringD with latched := [srec], asid := 2 }).writeVa 255 2 0x1000 (srec.bytes true false) true
          = (.error e, s1)) := by
  refine ⟨meets_of (by decide +kernel), by decide +kernel, by decide +kernel, by decide +kernel, by decide +kernel, by decide +kernel, ok_of (by decide +kernel),
    by decide +kernel, fail_of (by decide +kernel)⟩
theorem test_caravan_answers : caravanAsks.all Ask.answered = true := by decide +kernel

/-! ### Faults, fences, the logbook -/

def fence0 (software permanent : Bool) : Fence :=
  { software := software, code := 0x1003, cls := 3, permanent := permanent, since := 0, applied := true }
def fenced (kind index : Nat) (f : Fence) : State :=
  { pool with flt := { Flt.reset with fences := [(unitKey kind index, f)] } }
def frec0 : FltRecord :=
  { code := 0x0401, cls := 0, flags := 0, unitKind := 10, index := 0, recoveries := 0, count := 1, addr := 0, info := 0
    waybill := 0, seq := 0, stamp := 0, detect := 0 }
def lrec : LogRec :=
  { type := 8, writer := 0, status := 0, stamp := 0, boot := 0, session := 0, role := 0, opcode := 0, tag := 0, error := 0
    arg0 := 0, arg1 := 0, arg2 := 0, kept := false }
def recorded : State :=
  { pool with
    flt := { Flt.reset with records := [(0, frec0), (1, frec0)], next := 2 }
    logbook := { Logbook.reset with records := [(0, lrec)], next := 1 } }
def readPs (from_ count addr len : Nat) : List (Nat × Nat × Nat) :=
  [(0x10, 4, from_), (0x14, 2, count), (0x18, 8, addr), (0x20, 4, len)]
def policyPs (code action quiet window : Nat) : List (Nat × Nat × Nat) :=
  [(0x10, 2, code), (0x12, 1, action), (0x14, 4, quiet), (0x18, 4, window)]
def unitPs (kind index : Nat) : List (Nat × Nat × Nat) := [(0x10, 1, kind), (0x11, 1, index)]
def busyUnit : State := { run0 st1 with parts := [] }
noncomputable def faultUnitAsks : List Ask :=
  [ask (.fltRead 0) (bad 0xC) (readPs 0 2 0 127) recorded, ask (.fltRead 0) (bad 0xC) (readPs 0 2 4 128) recorded
   , ask (.fltRead 0) well (readPs 0 2 0x1000 128) recorded, ask (.fltRead 0) well (readPs 2 0xFFFF 0 (64 * 65535)) recorded
   , ask (.logbookRead 0) (bad 0xC) (readPs 0 1 0 63) recorded, ask (.logbookRead 0) well (readPs 0 1 0x1000 64) recorded
   , ask (.fltPolicySet 0) (bad 3) (policyPs 0x1007 0 3840000 3840000) pool
   , ask (.fltPolicySet 0) (bad 3) (policyPs 0x0401 16 3840000 3840000) pool]
   ++ [ask (.fltPolicySet 0) (bad 3) (policyPs 0x0401 1 3840000 3840000) pool
   , ask (.fltPolicySet 0) (bad 3) (policyPs 0x0401 14 3839999 3840000) pool
   , ask (.fltPolicySet 0) (bad 3) (policyPs 0x0401 14 3840001 3840000) pool
   , ask (.fltPolicySet 0) well (policyPs 0x0401 14 3840000 3840000) pool
   , ask (.errnSet 0) (bad 3) [(0x10, 1, 2)] pool, ask (.errnSet 0) well [(0x10, 1, 1)] pool
   , ask (.unitFence 0) (bad 3) (unitPs 8 0) pool, ask (.unitFence 0) (bad 3) (unitPs 0 32) pool]
   ++ [ask (.unitFence 0) well (unitPs 4 3) (fenced 4 3 (fence0 true false))
   , ask (.unitFence 0) well (unitPs 4 3) (fenced 4 3 (fence0 false false))
   , ask (.unitFence 0) well (unitPs 0 0) busyUnit (fun s _ => !(s.eng 0).disps.isEmpty)
   , ask (.unitFence 0) well (unitPs 2 255) pool, ask (.unitFence 0) well (unitPs 3 15) pool
   , ask (.unitFence 0) well (unitPs 5 3) pool, ask (.unitFence 0) well (unitPs 9 15) pool]
   ++ [ask (.unitReadmit 0 true) (bad 3) (unitPs 9 16) pool, ask (.unitReadmit 0 true) (bad 0x902) (unitPs 9 15) pool
   , ask (.unitReadmit 0 true) (bad 6) (unitPs 0 31) (fenced 0 31 (fence0 false true))
   , ask (.unitReadmit 0 true) (bad 6) (unitPs 8 23) (pool'' (fun m => { m with channels := [(23, { Channel.reset with failed := true })] }))
   , askAs maker (.unitReadmit 0 true) well (unitPs 8 23)
       (pool'' (fun m => { m with mode := 1, channels := [(23, { Channel.reset with failed := true })] }))
   , askAs maker (.unitReadmit 0 true) well (unitPs 2 255) (pool'' (fun m => { m with slices := [(15, { Slice.reset with off := 0x8000 })] }))
   , ask (.unitReadmit 0 true) well (unitPs 0 31) (fenced 0 31 (fence0 false false))
   , ask (.unitReadmit 0 false) well (unitPs 0 31) (fenced 0 31 (fence0 true false))]
   ++ [ask (.unitReadmit 0 true) well (unitPs 9 15) (fenced 9 15 (fence0 true false))]
theorem witness_FaultsFencesAndLogbookAreManaged :
    Meets faultUnitAsks
    ∧ (fenced 5 3 (fence0 true false)).fence? 5 3 = some (fence0 true false) ∧ pool.fence? 5 3 = none
    ∧ (let s := fenced 5 3 (fence0 false false)
       s.live = true ∧ s.fw.masterAlive = true ∧ s.fence? 5 3 = some (fence0 false false) ∧ ∀ p ∈ s.flt.fences, p.2.applied = true)
    ∧ pool.flt.pulse = false ∧ pool.logbook.queue = [] ∧ pool.aon = true ∧ pool.logbook.warnAt = none
    ∧ pool.logbook.lost = 0 ∧ pool.logbook.heldFatal = [] ∧ pool.pins.pwrFailN = true ∧ pool.power.st ≠ .off := by
  refine ⟨meets_of (by decide +kernel), by decide +kernel, by decide +kernel, by decide +kernel, by decide +kernel, by decide +kernel, by decide +kernel, by decide +kernel, by decide +kernel,
    by decide +kernel, by decide +kernel, by decide +kernel⟩
theorem test_fault_unit_answers : faultUnitAsks.all Ask.answered = true := by decide +kernel

/-! ### Power, settings, images and keys -/

noncomputable def powerAsks : List Ask :=
  [ask (.pwrLimitSet 0) (bad 3) [(0x10, 2, 231), (0x12, 2, 280)] pool, ask (.pwrLimitSet 0) (bad 3) [(0x10, 2, 230), (0x12, 2, 281)] pool
   , ask (.pwrLimitSet 0) (bad 3) [(0x10, 2, 1)] pool, ask (.pwrLimitSet 0) well [(0x10, 2, 230), (0x12, 2, 230)] pool
   , ask (.pwrHalt 0) well [] (shows { pipeD 0 with enabled := true })
   , ask (.pwrHalt 0) well [] { pool with power := { Power.reset with drain := true } }]
def powered (p : Power) : State := { pool with power := p }
def hot : State := { pool with thermal := { Thermal.reset with zone := 2, cool := 9999, tripRun := 3 } }
theorem witness_PowerAndTemperatureAreManaged :
    Meets powerAsks
    ∧ (pool.up = true ∧ pool.halted = false ∧ pool.power.point = 2 ∧ pool.power.under = 0)
    ∧ (let p : Power := { Power.reset with point := 1 }
       let l := (65535 :: p.samples).take 100000
       16 * bits ((powered p).setting 0x50) 31 16 * (l.take 1000).length < (l.take 1000).sum)
    ∧ ¬ 16 * bits (pool.setting 0x50) 31 16 * ([0] : List Nat).length < ([0] : List Nat).sum
    ∧ (powered { Power.reset with point := 0, raising := some 2 }).power.raising = some 2
    ∧ (∀ c ∈ List.replicate 48 (2001 : Int), -32768 ≤ c ∧ c ≤ 32767) ∧ (List.replicate 48 (2001 : Int)).length = 48
    ∧ ¬ ([] : List Int).length = 48 ∧ (hot.thermal.zone = 2 ∧ 9999 ≤ hot.thermal.cool ∧ 3 ≤ hot.thermal.tripRun ∧ hot.up = true)
    ∧ (pool.thermal.tripRun < 3 ∧ pool.thermal.zone ≤ 1)
    ∧ (pool.live = true ∧ pool.power.st = .run ∧ pool.power.drain = false ∧ pool.boot.step = 0xFF ∧ pool.busyNow = false)
    ∧ (let s := powered { Power.reset with drain := true }
       s.live = true ∧ s.power.drain = true ∧ s.power.st = .run ∧ s.drained = true)
    ∧ (let s := powered { Power.reset with st := .haltEntry }
       s.power.st = .haltEntry ∧ s.pins.resetN = true ∧ s.pins.pwrGood = true ∧ s.power.wakePending = none ∧ s.up = true)
    ∧ ((powered { Power.reset with st := .halt }).power.st = .halt ∧ (powered { Power.reset with st := .halt }).up = true)
    ∧ (let s := powered { Power.reset with st := .waking }
       s.power.st = .waking ∧ s.up = true ∧ s.host.heldWrites = [] ∧ s.host.d3hot = false) := by
  refine ⟨meets_of (by decide +kernel), by decide +kernel, by decide +kernel, by decide +kernel, by decide +kernel, by decide +kernel, by decide +kernel, by decide +kernel,
    by decide +kernel, by decide +kernel, by decide +kernel, by decide +kernel, by decide +kernel, by decide +kernel, by decide +kernel⟩
theorem test_power_answers : powerAsks.all Ask.answered = true := by decide +kernel

/-- KEY_SET data for a slot, a signer and a serial number. -/
def keyBytes (slot signer serial : Nat) : List Byte :=
  leBytes 1 slot ++ leBytes 1 signer ++ zeros 2 ++ leBytes 4 serial ++ zeros 5357
def imagePs (n : Nat) : List (Nat × Nat × Nat) := [(0x10, 8, 0x1000), (0x18, 4, n)]
def keyPs (slot n : Nat) : List (Nat × Nat × Nat) := [(0x10, 1, slot), (0x18, 8, 0x1000), (0x20, 4, n)]
def staged : State := { pool with mram := { pool.mram with fwB := ImageSlot.factory } }
def linked : State := { pool with host := { pool.host with modules := 4 } }
def settingPs (key value : Nat) : List (Nat × Nat × Nat) := [(0x10, 4, key), (0x18, 8, value)]
noncomputable def settingAsks : List Ask :=
  [ask (.settingGet 0) (bad 0xE) [(0x10, 4, 0xAFFFFFFF)] pool, ask (.settingGet 0) well [(0x10, 4, 0x44)] pool
   , ask (.settingGet 0) well [(0x10, 4, 0x50)] pool, ask (.settingSet 0) (bad 0xE) (settingPs 0xAFFFFFFF 0) pool
   , ask (.settingSet 0) (bad 3) (settingPs 0x50 0) pool, ask (.settingSet 0) (bad 3) (settingPs 0x44 8) pool
   , ask (.settingSet 0) (bad 3) (settingPs 0x21 3) pool, ask (.settingSet 0) well (settingPs 0x44 7) pool]
   ++ [ask (.settingSet 0) (bad 3) (settingPs 0xB0000018 1) pool, ask (.settingSet 0) well (settingPs 0xB0000001 0) pool
   , ask (.storeSettings 0) runs [] pool, ask (.storeSettings 0) (bad 0x12) [] (withLongs pool 4 0x0913)
   , ask (.storeSettings 0) (bad 0xD) [] (withLongs pool 1 0x0911)
   , ask (.fwStage 0 none) (bad 0xC) (imagePs 0x1000) pool, ask (.fwStage 0 (some (zeros 4095))) (bad 0xC) (imagePs 4095) pool
   , ask (.fwStage 0 (some (zeros 4096))) runs (imagePs 0x1000) pool]
   ++ [ask (.fwActivate 0) (bad 0x916) [] pool, ask (.fwActivate 0) none [] staged (fun s _ => s.mram.otherFw.valid)
   , ask (.ucodeUpdate 0 none) (bad 0xC) (imagePs 0x1000) pool
   , ask (.ucodeUpdate 0 (some (zeros 4096))) none (imagePs 0x1000) pool (fun s _ => s.parts.all (fun p => p.2.slots.isEmpty))
   , ask (.recalibrate 0) (bad 3) [(0x10, 1, 3)] pool, ask (.recalibrate 0) (bad 3) [(0x10, 1, 2), (0x11, 1, 16)] pool
   , ask (.recalibrate 0) (bad 0xD) [(0x11, 1, 3)] pool, ask (.recalibrate 0) (bad 0xD) [(0x10, 1, 1), (0x11, 1, 3)] pool]
   ++ [ask (.recalibrate 0) runs [(0x11, 1, 3)] linked, ask (.recalibrate 0) runs [(0x10, 1, 2), (0x11, 1, 15)] pool
   , ask (.keySet 0 none) (bad 0xC) (keyPs 4 5365) pool
   , ask (.keySet 0 (some (keyBytes 16 4 1))) (bad 3) (keyPs 16 5365) pool
   , ask (.keySet 0 (some (keyBytes 4 4 1))) (bad 3) (keyPs 5 5365) pool
   , ask (.keySet 0 (some (keyBytes 15 4 (2 ^ 32 - 1)))) none (keyPs 15 5365) pool
   , ask (.calWrite 0 none) (bad 0xC) (imagePs 0) pool, ask (.calWrite 0 (some [7])) well (imagePs 1) pool]
   ++ [ask (.fuseWrite 0) well [(0x10, 2, 65535), (0x18, 8, 2 ^ 64 - 1)] pool]
def updating : LongOp :=
  { opcode := 0x0912, pair := 0, session := 7, tag := 1, rev := 3, role := 2, params := zeros 48, data := [] }
theorem witness_SettingsImagesAndKeysAreManaged :
    Meets settingAsks
    ∧ (let s := { pool with fw := { pool.fw with longOps := [updating] } }
       s.ucodeOp = some updating ∧ s.working = true ∧ s.engineClear 0 = true ∧ (s.ucodeTurn).isSome = true) := by
  exact ⟨meets_of (by decide +kernel), by decide +kernel⟩
theorem test_setting_answers : settingAsks.all Ask.answered = true := by decide +kernel

/-- Every kind of long operation in progress, whose session is open. -/
def oneLong (op : Nat) (ps : List Byte) : LongOp :=
  { opcode := op, pair := 0, session := 7, tag := 1, rev := 3, role := 2, params := ps, data := [] }
def running (l : LongOp) : State :=
  { pool with fw := { pool.fw with longOps := [l], sessions := [(7, { sess 2 with kept := [{ kept1 with running := true }] })] } }
theorem witness_LongOperationsEndAsStarted :
    (∀ l ∈ pool.fw.longOps, l.opcode ≠ 0x0905)
    ∧ (∀ op ∈ [0x0905, 0x0910, 0x0911, 0x0912, 0x0913, 0x0402, 0x0702],
        (running (oneLong op (zeros 48))).fw.longOps.find? (fun y => y.opcode = op) = some (oneLong op (zeros 48))
        ∧ (running (oneLong op (zeros 48))).up = true ∧ (running (oneLong op (zeros 48))).halted = false)
    ∧ (running (oneLong 0x0905 [])).logbook.warnAt = none
    ∧ (∃ x, (running (oneLong 0x0905 [])).session? 7 = some x ∧ ∃ k ∈ x.kept, k.tag = 1 ∧ k.running = true)
    ∧ (oneLong 0x0911 []).refused = 0 ∧ (running (oneLong 0x0911 [])).fw.updating = false
    ∧ (running (oneLong 0x0912 [])).ucodeTurn ≠ none
    ∧ (oneLong 0x0913 []).data = []
    ∧ (let v := (running (oneLong 0x0402 (zeros 48))).mem.chan 0
       v.failed = false ∧ v.migrating = false ∧ v.training = false ∧ v.excluded = false)
    ∧ getLe (oneLong 0x0702 (zeros 48)).params 1 1 = 0 := by
  refine ⟨by decide +kernel, by decide +kernel, by decide +kernel, ⟨_, rfl, _, List.mem_singleton.mpr rfl, rfl, rfl⟩, by decide +kernel, by decide +kernel,
    by decide +kernel, rfl, by decide +kernel, by decide +kernel⟩

end Sys2Proof.Tests
end

