-- ==== Sys2Proof/Tests/WHost.lean ====
section
/-! SUPPORT. Witnesses for the statements about the host window and the host link. -/

namespace Sys2Proof.Tests

set_option Elab.async false

open Sys2Proof.Machine

def hostOpenB (s : State) : Bool := s.windowOpen && !s.halted && s.power.st = .run && !s.power.drain
theorem open_of {s : State} (h : hostOpenB s = true) : HostOpen s := by
  simp only [hostOpenB, Bool.and_eq_true, Bool.not_eq_true', decide_eq_true_eq] at h
  exact ⟨h.1.1.1, h.1.1.2, h.1.2, h.2⟩

def posted : State := up0.setMbx 7 { MbxPair.reset with reqPending := true }
theorem witness_RegistersReadAndWriteByOffset :
    HostOpen up0 ∧ HostOpen posted ∧ (posted.mbx 7).reqPending = true ∧ (up0.mbx 7).reqPending = false
    ∧ (0x0100F8 + 8 ≤ 2 ^ 24 ∧ up0.bar64 0x0100F8 = none)
    ∧ up0.bar64 0x010058 = some (0x58, 0) ∧ up0.bar64 0x030000 = some (2 ^ 32 + 0x030000, 0)
    ∧ up0.bar64 0x050168 = some (2 ^ 32 + 0x050168, up0.progressReg 45) ∧ up0.bar64 (0xFFFFFC / 8 * 8) = none
    ∧ (¬ (2 = 4 ∧ 2 % 4 = 0) ∧ burstOk 2 2 = false) ∧ (burstOk 0x010040 16 = false ∧ burstOk 60 8 = false)
    ∧ mget up0.host.staged 0x010040 = none
    ∧ mget ({ up0 with host := { up0.host with staged := [(0x010040, 7)] } } : State).host.staged 0x010040 = some 7 :=
  ⟨open_of (by decide), open_of (by decide), by decide, by decide, by decide, by decide, by decide +kernel, by decide +kernel,
   by decide, by decide, by decide, by decide, by decide⟩

/-- Ring 15 with base 0x10000 and the CRC of its configuration of SIZE 8, or another. -/
def ringC (crc : Nat) : CookieRing := { CookieRing.reset with base := 0x10000, size := 8, crcRef := BitVec.ofNat 32 crc }
def goodCrc : Nat := crc32c (leBytes 8 0x10000 ++ leBytes 4 16)
def ring15 (c : CookieRing) : State := up0.setRing 15 c
theorem witness_CookieRingsFollowTheirRegisters :
    HostOpen (ring15 (ringC goodCrc))
    ∧ (((ring15 (ringC goodCrc)).ring 15).enabled = false ∧ ((ring15 (ringC goodCrc)).ring 15).fenced = false
        ∧ (BitVec.ofNat 4 ((17 : Word).toNat / 2 % 16)).toNat ≤ 8
        ∧ crc32c (leBytes 8 ((ringC goodCrc).base.toNat / 4096 * 4096) ++ leBytes 4 (8 * 2)) = (ringC goodCrc).crcRef.toNat)
    ∧ (crc32c (leBytes 8 ((ringC 0).base.toNat / 4096 * 4096) ++ leBytes 4 (8 * 2)) ≠ (ringC 0).crcRef.toNat)
    ∧ 8 < (BitVec.ofNat 4 ((19 : Word).toNat / 2 % 16)).toNat ∧ ({ ringC 0 with fenced := true } : CookieRing).fenced = true
    ∧ ((ring15 { ringC goodCrc with enabled := true }).ring 15).enabled = true
    ∧ (let c := { ringC goodCrc with enabled := true, head := 1, tail := 3 }
       ((3 : Word) - c.head).toNat ≤ (c.tail - c.head).toNat ∧ (c.tail - c.head).toNat < ((4 : Word) - c.head).toNat)
    ∧ (2047 ∉ up0.host.pendingBits ∧ up0.host.functionMask = false
        ∧ 2047 ∈ ({ up0 with host := { up0.host with pendingBits := [2047] } } : State).host.pendingBits)
    ∧ ((up0.msix 3).masked = true
        ∧ (({ up0 with host := { up0.host with msix := [(3, ⟨0, 0, false⟩)] } } : State).msix 3).masked = false)
    ∧ up0.live = true ∧ (∀ p ∈ up0.flt.fences, p.2.applied = true)
    ∧ ((ring15 { ringC 0 with enabled := true }).ring 15).enabled = true
    ∧ (bit (up0.policy 0x1002).action 0 = true ∧ up0.fence? 9 15 = none)
    ∧ (let v := (shows { pipeD 0 with starting := true, crcRef := 0 }).pipe 3
       v.on = true ∧ crc32c v.cfg ≠ v.crcRef.toNat)
    ∧ (let v := (shows { pipeD 0 with starting := true }).pipe 3
       v.on = true ∧ crc32c v.cfg = v.crcRef.toNat) := by
  refine ⟨open_of (by decide +kernel), by decide +kernel, by decide +kernel, by decide, by decide, by decide +kernel,
    by decide +kernel, by decide, by decide, by decide, by decide, by decide +kernel, by decide +kernel, by decide +kernel,
    by decide +kernel⟩

/-- The aperture's first GiB is the first GiB of local memory; 16 bytes stand at 4088. -/
def apertured (poison : List Nat) : State :=
  { up0 with
    mem := { Mem.reset with density := 2, cells := memWrite [] 4080 (leBytes 16 (2 ^ 128 - 1)), poison := poison }
    mmu := { Mmu.reset with asids := [(0xFFFF, { ring := 0, root := 0x10000000 })]
                            utlbs := [(255, [{ tlb0 with asid := 0xFFFF }])], ptBase := 0x10000000 } }
theorem witness_ApertureReachesMemory :
    HostOpen (apertured []) ∧ 4088 + 8 ≤ 2 ^ (apertured []).host.bar4Log ∧ Memory.wf (apertured []).mem.cells = true
    ∧ 4096 ≤ (apertured []).mem.capacity
    ∧ (∀ acc ∈ [accRead, accWrite], ∃ l s1, (apertured []).pieces 255 0xFFFF 4088 8 acc = (.ok l, s1)
        ∧ (l = [(0, 4088, 8, 0, 0, false)] : Bool) = true)
    ∧ (∃ pol ro die s1, (apertured []).translate 255 0xFFFF 4088 accAtomic = (.ok 0 4088 pol ro die, s1))
    ∧ (apertured []).mem.poisoned 4088 8 = false ∧ (apertured [127]).mem.poisoned 4088 8 = true
    ∧ (∀ acc ∈ [accRead, accWrite], ∃ e s1, up0.pieces 255 0xFFFF 4088 8 acc = (.error e, s1))
    ∧ (¬ ((AtomOp.smin = .add ∨ AtomOp.smin = .exch ∨ AtomOp.smin = .cas) ∧ 0 % 4 = 0) ∧ ¬ 4 % 8 = 0) := by
  refine ⟨open_of (by decide +kernel), by decide, by decide +kernel, by decide, ?_, ?_, by decide +kernel, by decide +kernel, ?_, by decide⟩
  · intro acc h
    rcases List.mem_cons.mp h with rfl | h
    · exact ok_of (by decide +kernel)
    · obtain rfl : acc = accWrite := by simpa using h
      exact ok_of (by decide +kernel)
  · exact ⟨0, false, 0, _, rfl⟩
  · intro acc h
    rcases List.mem_cons.mp h with rfl | h
    · exact fail_of (by decide +kernel)
    · obtain rfl : acc = accWrite := by simpa using h
      exact fail_of (by decide +kernel)

def hostReq (d : NpDest) : State :=
  { run0 st1 with host := { up0.host with np := [(0, { addr := 0x5000, len := 16, dest := d })] } }
theorem witness_HostLinkEventsReachTheDevice :
    HostOpen up0 ∧ mget up0.host.np 0 = none
    ∧ (let s := hostReq (.load 0 0 4 0 16 false)
       s.up = true ∧ mget s.host.np 0 = some ⟨0x5000, 16, .load 0 0 4 0 16 false⟩ ∧ s.str? 0 0 = some st1)
    ∧ (zeros 16).length = 16 ∧ (zeros 15).length ≠ 16
    ∧ (let s := hostReq (.aperture 16)
       mget s.host.np 0 = some ⟨0x5000, 16, .aperture 16⟩ ∧ s.host.d3hot = false ∧ s.halted = false)
    ∧ (let s := hostReq .other
       mget s.host.np 0 = some ⟨0x5000, 16, .other⟩ ∧ s.host.waitOut = [])
    ∧ (let s := { hostReq .other with host := { (hostReq .other).host with waitOut := [.request 0 0x5000 16 0 0 0] } }
       ∃ a l o x y, OutMsg.request 0 a l o x y ∈ s.host.waitOut)
    ∧ (let s := (apertured []).report 0x0403 10 0 4088 0
       ∃ l s1, s.pieces 255 0xFFFF 4088 8 accWrite = (.ok l, s1) ∧ (l = [(0, 4088, 8, 0, 0, false)] : Bool) = true)
    ∧ (up0.up = true ∧ up0.host.linkUp = true ∧ Map.sorted up0.flt.records = true)
    ∧ (linked.host.modules = 4 ∧ 3 < linked.host.modules ∧ linked.up = true) := by
  refine ⟨open_of (by decide), by decide, by decide, by decide, by decide, by decide, by decide,
    ⟨0x5000, 16, 0, 0, 0, by decide⟩, ok_of (by decide +kernel), by decide, by decide⟩

end Sys2Proof.Tests
end

