-- ==== Sys2Proof/Tests/WWork.lean ====
section
/-! SUPPORT. Witnesses for the statements about queues, their commands, jobs, render passes and the scheduler. -/

namespace Sys2Proof.Tests

set_option Elab.async false

open Sys2Proof.Machine

/-- A 64-byte ring entry: opcode, length, flags, sequence number, EXT. -/
def entry (op len flags seq ext : Nat) : List Byte :=
  leBytes 1 op ++ leBytes 1 len ++ leBytes 1 flags ++ leBytes 1 0 ++ leBytes 4 seq ++ leBytes 8 0x77 ++ leBytes 8 ext ++ zeros 40
/-- Queue 0 of engine 0 in the resident convoy 0, its ring at 0x10000; every fetcher translates the first GiB to itself. -/
def wq (cmds : List Cmd) : Queue := { q0 with convoy := some 0, head := 0, tail := 2, last := 0, ringVa := 0x10000, cmds := cmds }
def workIn (q : Queue) (cells : List Host.Cell) : State :=
  { up0 with
    queues := [(0, q)], parts := [(0, part0)], convoys := [(0, conv0)]
    mem := { Mem.reset with density := 2, cells := cells }
    mmu := { Mmu.reset with
      asids := [(1, { ring := 0, root := 0x10000000 })]
      utlbs := [(0, [tlb0]), (32, [tlb0]), (64, [tlb0]), (68, [tlb0])], ptBase := 0x10000000 } }
def fetching (b : List Byte) : State := workIn (wq []) (memWrite [] 0x10000 b)
def unmapped (s : State) : State := { s with mmu := { s.mmu with asids := [], utlbs := [] } }
def endedCmd (e : Nat) : Cmd := { cmd0 with index := 0, opcode := 0, st := .ended e }
def timedConv : Convoy :=
  { conv0 with timed := some { timed0 with points := [{ before := 0, fbWorst := 0, streams := [(0, 0x20000)] }] }
               batch := some batch0 }
def batchQ (c : Cmd) : Queue := { wq [c] with inBatch := true }
def timedWork (c : Cmd) : State := { workIn (batchQ c) [] with convoys := [(0, timedConv)] }
def signalPay : List Byte := zeros 48 ++ leBytes 4 (2 ^ 31 + 5) ++ zeros 4 ++ leBytes 8 9
def signalCmd : Cmd := { endedCmd 0 with opcode := 0x04, payload := signalPay }

theorem witness_QueuesTakeFetchAndRetireInOrder :
    HostOpen (fetching (entry 0 0 1 1 0))
    ∧ (64 * (4095 : Half).toNat + 64 ≤ 2 ^ 18 ∧ (zeros 3).length < 4 ∧ pool.queue? 0 = none)
    ∧ (let v := wq []
       2 ^ v.sizeLog < ((257 : Word) - v.head).toNat ∧ ((1 : Word) - v.head).toNat < (v.tail - v.head).toNat
       ∧ (v.tail - v.head).toNat ≤ ((256 : Word) - v.head).toNat ∧ ((256 : Word) - v.head).toNat ≤ 2 ^ v.sizeLog)
    ∧ (∀ x, (fetching []).convoy? 0 = some x → x.timed = none)
    ∧ ((fetching []).queue? 0 = some (wq []) ∧ (fetching []).mayFetch (wq []) = true ∧ (wq []).covered = 2 ∧ (wq []).stream = none)
    ∧ (unmapped (fetching [])).mayFetch (wq []) = true
    ∧ (∃ e s1, (unmapped (fetching [])).fetchBytes (wq []) ((wq []).entryAt 0) 64 none = (.error e, s1))
    ∧ (∃ e s1, ({ fetching [] with mem := { (fetching []).mem with poison := [0x10000 / 32] } } : State).fetchBytes (wq [])
        ((wq []).entryAt 0) 64 none = (.error e, s1))
    ∧ (∃ b s1, (fetching (entry 0 0 1 1 0)).fetchBytes (wq []) ((wq []).entryAt 0) 64 none = (.ok b, s1)
        ∧ ((headerOf b.1).length = 0 && (headerOf b.1).opcode = 0 && (headerOf b.1).ext = 0 && s1.queue? 0 = some (wq [])
          && s1.formError (headerOf b.1) [] (wq []) = 0
          && (BitVec.ofNat 32 (headerOf b.1).seq - (wq []).last).toNat = 1) = true)
    ∧ (∃ b s1, (fetching (entry 0 3 1 1 0)).fetchBytes (wq []) ((wq []).entryAt 0) 64 none = (.ok b, s1)
        ∧ ((wq []).covered < 1 + (headerOf b.1).length : Bool) = true)
    ∧ (∃ b s1, (fetching (entry 0xFF 0 1 1 0)).fetchBytes (wq []) ((wq []).entryAt 0) 64 none = (.ok b, s1)
        ∧ (s1.formError (headerOf b.1) [] (wq []) ≠ 0 : Bool) = true)
    ∧ (∃ b s1, (fetching (entry 0 0 1 0 0)).fetchBytes (wq []) ((wq []).entryAt 0) 64 none = (.ok b, s1)
        ∧ ((BitVec.ofNat 32 (headerOf b.1).seq - (wq []).last).toNat = 0 : Bool) = true)
    ∧ (let s := workIn (wq [endedCmd 0]) []
       s.queue? 0 = some (wq [endedCmd 0]) ∧ s.working = true ∧ s.writesOwed (wq [endedCmd 0]) = false
       ∧ signalOf (endedCmd 0).opcode (endedCmd 0).payload = none ∧ s.passes = [])
    ∧ (workIn (wq [cmd0]) []).queue? 0 = some (wq [cmd0])
    ∧ (let s := { workIn (wq [signalCmd]) [] with events := [(5, { count := 7, vector := 32 })] }
       signalOf signalCmd.opcode signalCmd.payload = some { enable := true, remote := false, die := 0, event := 5, value := 9 }
       ∧ mget s.events 5 = some { count := 7, vector := 32 })
    ∧ (∃ a s1, (workIn (wq [endedCmd 0]) []).writeVa 32 1 (0x10000 + 64 * 256) (recordBytes (wq []) (endedCmd 0) 0 false 0) false
        = (.ok a, s1) ∧ (fun _ _ => true) a s1 = true)
    ∧ (∃ e s1, (unmapped (workIn (wq [endedCmd 0]) [])).writeVa 32 1 (0x10000 + 64 * 256)
        (recordBytes (wq []) (endedCmd 0) 0 false 0) false = (.error e, s1))
    ∧ (let c := { endedCmd 0 with opcode := 0x34 }
       let s := timedWork c
       s.batchOf 0 = some (0, timedConv, batch0) ∧ s.endsBatch 0 = true ∧ signalOf c.opcode c.payload = none
       ∧ timedConv.pendingEdge = none) := by
  refine ⟨open_of (by decide +kernel), by decide, by decide, ?_, by decide +kernel, by decide +kernel, fail_of (by decide +kernel),
    fail_of (by decide +kernel), ok_of (by decide +kernel), ok_of (by decide +kernel), ok_of (by decide +kernel),
    ok_of (by decide +kernel), by decide +kernel, by decide +kernel, by decide +kernel, ok_of (by decide +kernel),
    fail_of (by decide +kernel), by decide +kernel⟩
  intro x h; cases h; rfl

/-! ### Commands of queues -/

def ready (op : Nat) (payload : List Byte) : Cmd := { cmd0 with index := 0, opcode := op, st := .accepted, payload := payload }
/-- A dispatch of one workgroup of 32 threads with 64 registers at 0x1000, and a number of tensor granules. -/
def dispPay (g : Nat) : List Byte :=
  leBytes 8 0x1000 ++ leBytes 4 1 ++ leBytes 4 1 ++ leBytes 4 1 ++ leBytes 2 32 ++ leBytes 1 8 ++ leBytes 1 1 ++ zeros 8
  ++ leBytes 1 g ++ zeros 95
def starts (c : Cmd) : State := workIn (wq [c]) []
def startsB (s : State) (op : Nat) (c : Cmd) : Bool :=
  someWith (s.startable 0 op) (fun x => x.2 = c && s.queue? 0 = some x.1) && s.cmd? 0 c.index = some c
def awaitPay (v : Nat) : List Byte := leBytes 4 (2 ^ 31 + 5) ++ zeros 4 ++ leBytes 8 v ++ zeros 48
def awaiting : State := { starts (ready 3 (awaitPay 8)) with events := [(5, { count := 7, vector := 32 })] }
def gangPay (alt : Nat) : List Byte := (dispPay 0).take 80 ++ leBytes 8 alt ++ zeros 40
def startFenced : State :=
  { starts (ready 2 (gangPay 0)) with flt := { Flt.reset with fences := [(unitKey 0 1, fence0 true false)] } }
theorem witness_CommandsOfQueuesStart :
    (∀ op ∈ [0x00, 0x01, 0x02, 0x03, 0x04, 0x30, 0x31, 0x32, 0x33, 0x34], pool.startable 0 op = none)
    ∧ (∀ op ∈ [0x00, 0x04, 0x34, 0x32, 0x33, 0x30, 0x31], startsB (starts (ready op (zeros 64))) op (ready op (zeros 64)) = true)
    ∧ (startsB awaiting 3 (ready 3 (awaitPay 8)) = true ∧ awaiting.awaitHolds (awaitPay 8) = false
        ∧ awaiting.awaitHolds (awaitPay 7) = true)
    ∧ (∀ k x, (wq []).convoy = some k → (starts (ready 0x30 (zeros 64))).convoy? k = some x → x.timed = none)
    ∧ (let c := ready 0x30 (zeros 64)
       let s := { starts c with convoys := [(0, timedConv)] }
       startsB s 0x30 c = true ∧ s.convoy? 0 = some timedConv ∧ timedConv.batch.isSome = true ∧ (wq [c]).batchDone = false
       ∧ (wq [c]).cmds.find? (fun d => d.opcode = 0x30 && d.st ≠ .ended 0) = some c)
    ∧ (let c := ready 0x31 (zeros 64)
       let s := timedWork c
       startsB s 0x31 c = true ∧ s.batchOf 0 = some (0, timedConv, batch0) ∧ (batchQ c).diverted = none
       ∧ (timedConv.timed.bind (fun t => t.points[getLe c.payload 0 2]?)).isSome = true ∧ 0 ∉ batch0.decided)
    ∧ (starts (ready 0x31 (zeros 64))).batchOf 0 = none
    ∧ (let c := ready 1 (dispPay 0)
       startsB (starts c) 1 c = true ∧ (starts c).frozen 0 = false ∧ (dispOf 0 c (getLe c.payload 0 8) 0 false).launchable = true
       ∧ (dispOf 0 c (getLe c.payload 0 8) 0 false).granules = 0 ∧ ((starts c).partOf 0).bind (starts c).part? = some part0)
    ∧ (let c := ready 1 (dispPay 16)
       (dispOf 0 c 0 0 false).granules = 16 ∧ ((starts c).eng 0).tb = 16 ∧ ((starts c).eng 0).waitGfx = none)
    ∧ (dispOf 0 (ready 1 ((dispPay 0).take 20 ++ leBytes 2 1024 ++ leBytes 1 32 ++ zeros 105)) 0 0 false).launchable = false
    ∧ (let c := ready 2 (gangPay 0)
       startsB (starts c) 2 c = true ∧ ((starts c).eng 0).atGang = none ∧ ((starts c).eng 0).tensors = []
       ∧ (dispOf 0 c (getLe c.payload 0 8) 0 true).launchable = true
       ∧ ∀ p, p < 4 → (starts c).fenced 0 p = false ∧ (starts c).ucodeTurn ≠ some p)
    ∧ (startsB startFenced 2 (ready 2 (gangPay 0)) = true ∧ startFenced.fenced 0 0 = false
        ∧ startFenced.fenced 0 1 = true ∧ getLe (gangPay 0) 0x50 8 = 0 ∧ getLe (gangPay 0x2000) 0x50 8 ≠ 0) := by
  refine ⟨by decide +kernel, by decide +kernel, by decide +kernel, ?_, by decide +kernel, by decide +kernel, by decide +kernel,
    by decide +kernel, by decide +kernel, by decide +kernel, by decide +kernel, by decide +kernel⟩
  intro k x h h'; cases h; cases h'; rfl

/-! ### Jobs -/

def jobQ (kind : Nat) (c : Cmd) : Queue := { wq [c] with kind := kind, convoy := none }
def copyPay (src dst n : Nat) : List Byte := leBytes 8 src ++ leBytes 8 dst ++ leBytes 8 n ++ zeros 40
def fillPay (dst n pattern : Nat) : List Byte := leBytes 8 dst ++ leBytes 8 n ++ leBytes 8 pattern ++ zeros 40
def jobs (kind : Nat) (c : Cmd) (cells : List Host.Cell) : State := workIn (jobQ kind c) cells
def jobB (s : State) (op : Nat) (f : Queue → Cmd → Job → State → Bool) : Bool :=
  someWith (s.jobRun 0 op) (fun x => x.2.2.2.cmd? 0 x.2.1.index = some { x.2.1 with st := .started } && f x.1 x.2.1 x.2.2.1 x.2.2.2)
def moveDone (e : MoveEnd) : Bool := match e with | .done => true | _ => false
def runMove (op : Nat) (v : Queue) (c : Cmd) (j : Job) (s1 : State) : MoveEnd × State :=
  s1.moveBytes v (if op = 0x05 then some (getLe c.payload 0 8) else none) (getLe c.payload (if op = 0x05 then 8 else 0) 8)
    (getLe c.payload (if op = 0x05 then 0x10 else 8) 8) (if op = 0x05 then 0 else getLe c.payload 0x10 8) none j.done
    (getLe c.payload (if op = 0x05 then 0x10 else 8) 8 / 1024 + 8)
/-- A compression job: sources, destinations and their sizes, framing 0, no dictionary, no result block. -/
def cmpPay (src sn dst dn result : Nat) : List Byte :=
  leBytes 8 src ++ leBytes 8 sn ++ leBytes 8 dst ++ leBytes 8 dn ++ leBytes 8 0 ++ leBytes 4 0 ++ leBytes 4 0 ++ leBytes 8 result
  ++ zeros 72
theorem witness_JobsMoveAndCompressBytes :
    (∀ op ∈ [0x05, 0x06, 0x20, 0x21], pool.jobRun 0 op = none)
    ∧ jobB (jobs 1 (ready 5 (copyPay 0x1000 0x2FFF 1)) [⟨0x1000, 9⟩]) 5 (fun v c j s1 => moveDone (runMove 5 v c j s1).1
        && okWith (s1.readVaX v.agent v.asid 0x1000 1 true none) (fun r _ => r.1 = ([9], false))
        && Memory.wf s1.mem.cells && j.done = 0 && 0x2FFF % 4096 + 1 ≤ 4096 && !rangesMeet 0x1000 1 0x2FFF 1) = true
    ∧ jobB (jobs 1 (ready 6 (fillPay 0x2000 16 5)) []) 6 (fun v c j s1 => moveDone (runMove 6 v c j s1).1) = true
    ∧ jobB (unmapped (jobs 1 (ready 6 (fillPay 0x2000 16 5)) [])) 6 (fun v c j s1 => !moveDone (runMove 6 v c j s1).1) = true
    ∧ jobB { jobs 1 (ready 5 (copyPay 0x1000 0x2000 16)) [] with mem := { (jobs 1 cmd0 []).mem with poison := [0x1000 / 32] } } 5
        (fun v c j s1 => !moveDone (runMove 5 v c j s1).1) = true
    ∧ jobB (jobs 2 (ready 0x20 (cmpPay 0x1000 16 0x2000 64 0)) []) 0x20 (fun v c _ s1 =>
        let x := cmpJob c.payload
        okWith (s1.cmpRead v x.dict x.dictBytes none) (fun d s2 => !d.2.1
          && okWith (s2.cmpRead v x.src x.srcBytes d.2.2) (fun b _ => !b.2.1)) && x.result = 0 && !x.overlap) = true
    ∧ jobB (unmapped (jobs 2 (ready 0x20 (cmpPay 0x1000 16 0x2000 64 0)) [])) 0x20 (fun v c _ s1 =>
        let x := cmpJob c.payload
        okWith (s1.cmpRead v x.dict x.dictBytes none) (fun d s2 => failWith (s2.cmpRead v x.src x.srcBytes d.2.2))) = true
    ∧ jobB (jobs 2 (ready 0x21 (cmpPay 0x1000 16 0x2000 64 0)) []) 0x21 (fun v c _ s1 =>
        let x := cmpJob c.payload
        okWith (s1.cmpRead v x.dict x.dictBytes none) (fun d s2 => !d.2.1
          && okWith (s2.inflateFrom v x d.1 [] d.2.2 (x.srcBytes / 64 + 3)) (fun r _ => r.status ≠ 0))) = true := by
  refine ⟨by decide +kernel, by decide +kernel, by decide +kernel, by decide +kernel, by decide +kernel, by decide +kernel,
    by decide +kernel, by decide +kernel⟩

end Sys2Proof.Tests
end

