-- ==== Sys2Proof/Tests/WPasses.lean ====
section
/-! SUPPORT. Witnesses for the statements about render passes, the scheduler and the watchdog. -/

namespace Sys2Proof.Tests

set_option Elab.async false

open Sys2Proof.Machine

/-! ### Render passes -/

/-- PASS_BEGIN for the engines of a mask: 16 × 16 pixels, one tile of 16, no attachment, a heap of 16 MiB at 0x100000. -/
def passPay (engines : Nat) : List Byte :=
  zeros 2 ++ leBytes 1 0x0C ++ zeros 1 ++ leBytes 4 engines ++ leBytes 2 16 ++ leBytes 2 16 ++ zeros 4 ++ leBytes 8 0x100000
  ++ leBytes 4 16 ++ zeros 164
def passC : Cmd := ready 0x10 (passPay 1)
def passQ (cmds : List Cmd) (id : Option Nat) : Queue := { wq cmds with pass := id }
def passIn (c : Cmd) (id : Option Nat) (l : Map Pass) : State := { workIn (passQ [c] id) [] with passes := l, nextPass := 1 }
def noFront : State :=
  { passIn passC none [] with flt := { Flt.reset with fences := [(unitKey 1 0, fence0 true false)] } }
/-- The pass of engine 0, open, in its geometry phase, in its tile phase. -/
def open0 (engines : Nat) (members : Map Member) : Pass :=
  { passF with payload := passPay engines, phase := .opening, tile := 0, members := members, draws := [], fronts := [] }
def member0 (ended : Option Nat) : Member := { queue := 0, cmd := 0, granted := true, ended := ended }
def geom0 : Pass := { open0 1 [(0, member0 (some 0))] with phase := .geometry, tile := 16 }
def tiles0 : Pass := { geom0 with phase := .tiles }
def drawC : Cmd := ready 0x11 (zeros 0x28 ++ leBytes 8 0x3000 ++ zeros 16)
def passTight : State := { passIn passC none [] with parts := [(0, { part0 with tnsMin := 16 })] }
def bigPay : List Byte := (passPay 1).take 0x34 ++ [0x0A] ++ zeros 139
theorem witness_PassesOpenBinRenderAndRetire :
    (∀ op ∈ [0x10, 0x11, 0x12], pool.startable 0 op = none)
    ∧ (let s := passIn passC none []
       startsB s 0x10 passC = true ∧ (passQ [passC] none).convoy = some 0 ∧ s.convoy? 0 = some conv0 ∧ s.frozen 0 = false
       ∧ 0 ∈ passEngines passC.payload ∧ (0, crc32c passC.payload) ∉ conv0.absent ∧ s.joinable 0 0 = none
       ∧ (s.part? 0).bind (fun y => s.frontOf y 0) = some 0
       ∧ (s.gfxFit 0 (passGranules passC.payload (mainTile passC.payload))).isSome = true)
    ∧ 0 ∉ passEngines (passPay 2)
    ∧ (startsB noFront 0x10 passC = true ∧ (noFront.part? 0).bind (fun y => noFront.frontOf y 0) = none)
    ∧ (passGranules bigPay (mainTile bigPay) = 1 ∧ (passTight.gfxFit 0 1).isSome = false)
    ∧ (let s := passIn { passC with payload := passPay 3 } none [(0, open0 3 [(1, member0 none)])]
       s.joinable 0 0 = some (0, open0 3 [(1, member0 none)]) ∧ s.pass? 0 = some (open0 3 [(1, member0 none)])
       ∧ crc32c (open0 3 []).payload ≠ crc32c (passPay 1))
    ∧ (startsB (passIn drawC (some 7) []) 0x11 drawC = true ∧ (passIn drawC (some 7) []).pass? 7 = none)
    ∧ (let s := passIn drawC (some 0) [(0, geom0)]
       startsB s 0x11 drawC = true ∧ s.pass? 0 = some geom0 ∧ s.passRuns geom0 = true
       ∧ okWith (s.readVa 0 1 0x3000 96 false none) (fun b _ => b = (zeros 96, false)) = true
       ∧ s.passRuns { geom0 with stall := some (none, 0, 0) } = false)
    ∧ (let s := { passIn drawC (some 0) [(0, geom0)] with mem := { (starts cmd0).mem with poison := [0x3000 / 32] } }
       okWith (s.readVa 0 1 0x3000 96 false none) (fun b _ => b.2) = true)
    ∧ (failWith ((unmapped (passIn drawC (some 0) [(0, geom0)])).readVa 0 1 0x3000 96 false none) = true)
    ∧ startsB (passIn (ready 0x12 (zeros 64)) (some 0) [(0, geom0)]) 0x12 (ready 0x12 (zeros 64)) = true
    ∧ pool.pass? 0 = none
    ∧ (let p := open0 1 [(0, member0 none)]
       let s := passIn passC (some 0) [(0, p)]
       s.pass? 0 = some p ∧ (s.convoy? p.convoy).bind (fun c => s.part? c.partition) = some part0 ∧ p.phase = .opening
       ∧ s.passRuns p = true ∧ (∀ e ∈ passEngines p.payload, mhas p.members e = true) ∧ s.tileNow p = some 16
       ∧ okWith (s.writeVa p.agent p.asid p.heapVa (zeros (controlBytes p.payload 16 1)) false) (fun _ _ => true) = true)
    ∧ (let p := { open0 1 [(0, member0 none)] with payload := bigPay }
       let s := { passIn passC (some 0) [(0, p)] with engines := [(0, { Eng.reset with tb := 0 })] }
       s.passRuns p = true ∧ s.tileNow p = none ∧ (s.eng 0).tb < 1 ∧ (s.eng 0).waitTns = none)
    ∧ (let s := passIn drawC (some 0) [(0, geom0)]
       s.passRuns geom0 = true ∧ (∀ m ∈ geom0.members, m.2.ended ≠ none) ∧ (∀ d ∈ geom0.draws, d.prims ≤ d.assembled)
       ∧ geom0.growth = none)
    ∧ (let s := passIn drawC (some 0) [(0, tiles0)]
       s.passRuns tiles0 = true
       ∧ okWith (s.renderTiles tiles0 false ((tiles0.engines.map tiles0.tilesOf).flatten)) (fun _ _ => true) = true)
    ∧ (let p := { geom0 with growth := some 3, payload := (passPay 1).take 0xC ++ leBytes 4 1000 ++ (passPay 1).drop 0x10 }
       p.phase = .geometry ∧ (passIn drawC (some 0) [(0, p)]).working = true ∧ getLe p.payload 0x0C 4 ≠ 0) := by
  and_intros <;> decide +kernel

/-! ### The scheduler and the watchdog -/

def conv1 : Convoy := { conv0 with lastEnd := 0 }
/-- Convoys 0 and 1 of partition 0, each with a queue of engine 0 that has work. -/
def sched (x : Partition) : State :=
  { workIn { wq [ready 0 []] with convoy := some 0 } [] with
    parts := [(0, x)], convoys := [(0, conv0), (1, conv1)]
    queues := [(0, { wq [ready 0 []] with convoy := some 0 }), (1, { wq [ready 0 []] with convoy := some 1 })] }
def force0 (restore : Bool) : Forcing := { victim := 0, next := some 1, restore := restore, since := 0 }
def slot0 : Slot := { convoy := 0, engines := [(0, Eng.reset)] }
def ranWatch : Watch := { timer := 2 ^ 22, last := 0, loaded := true, exempt := false, later := 0, since := 0 }
def watched (u : Nat) (s : State) : State := { s with flt := { Flt.reset with watch := [(u, ranWatch)] } }
def hung : State := watched 0 (run0 st1)
def hungHost : State := { hung with host := { hung.host with np := [(0, { addr := 0, len := 4, dest := .load 0 0 4 0 4 false })], retry := true } }
def reqLost : CvlReq :=
  { dst := 1, type := 1, addr := 0, port := 0, dest := .load 0 0 4 0 4 false, signal := none, fill := false, data := [], aux := 0
    off := 0 }
def hungPort (link : Nat) (downs : List Nat) : State :=
  { hung with caravan := { twoDies.caravan with reqs := [(0, reqLost)], ports := [(0, { portUp 1 with link := link, downs := downs })] } }
theorem witness_SchedulerSwitchesAndWatchdogActs :
    up0.part? 7 = none
    ∧ (let s := sched part0
       s.part? 0 = some part0 ∧ s.working = true ∧ part0.resident = some 0 ∧ part0.sliceOn = true ∧ part0.forcing = none
       ∧ (s.chargePoint 0).choose 0 = some 0)
    ∧ ((sched { part0 with resident := some 1 }).chargePoint 0).choose 0 ≠ some 1
    ∧ (let x := { part0 with resident := none, sliceOn := false }
       let s := sched x
       s.working = true ∧ x.switching = none ∧ x.forcing = none ∧ x.sliceOn = false ∧ s.choose 0 ≠ none)
    ∧ (sched { part0 with resident := none, sliceOn := false }).choose 0 ≠ none
    ∧ (pool.choose 0 = none)
    ∧ (let x := { part0 with switching := some 1, sliceOn := false }
       let s := sched x
       s.part? 0 = some x ∧ s.working = true ∧ (∀ e ∈ s.enginesIn 0, s.atBoundary 0 e = true) ∧ s.isTimed 0 = false
       ∧ 1 ≠ 0 ∧ x.slots.length < 4 ∧ x.slots.any (fun y => y.convoy = 1) = false)
    ∧ (let x := { part0 with switching := some 1, slots := [{ slot0 with convoy := 1 }] }
       x.slots.any (fun y => y.convoy = 1) = true)
    ∧ 4 ≤ (List.replicate 4 slot0).length
    ∧ (let s := { sched part0 with mmu := { (sched part0).mmu with faults := [(3, frec 1)] } }
       mget s.mmu.faults 3 = some (frec 1) ∧ (frec 1).convoy = some 0 ∧ s.convoy? 0 = some conv0 ∧ conv0.partition = 0
       ∧ s.chooseBut 0 (some 0) = some 1 ∧ part0.resident = some 0)
    ∧ (let x := { part0 with forcing := some (force0 false) }
       let s := sched x
       s.part? 0 = some x ∧ s.working = true ∧ (∀ e ∈ s.enginesIn 0, ∀ q ∈ (s.eng e).strs, s.strOwed e q.1 = false)
       ∧ s.enginesIn 0 ≠ [])
    ∧ (let x := { part0 with forcing := some (force0 true), slots := [slot0] }
       let s := sched x
       s.part? 0 = some x ∧ s.working = true ∧ x.slots.find? (fun y => y.convoy = 0) = some slot0)
    ∧ (let s := sched part0
       s.convoy? 0 = some conv0 ∧ ∀ e ∈ part0.engines, s.partOf e = some 0)
    ∧ State.reset.live = true ∧ ({ up0 with flt := { Flt.reset with fatal := true } } : State).live = false
    ∧ (hung.live = true ∧ 0 ∈ watchUnits ∧ hung.unitLoaded 0 = true ∧ hung.unitExempt 0 = false ∧ hung.watch 0 = ranWatch
        ∧ 2 ^ hung.setting 0x30 + ranWatch.later ≤ ranWatch.timer ∧ hung.stalledPath 0 = (false, []))
    ∧ ((hungHost.stalledPath 0).1 = true ∧ hungHost.host.retry = true)
    ∧ ((hungPort 3 []).stalledPath 0).2 = [0] ∧ ((hungPort 3 []).caravan.port 0).link = 3
    ∧ (((hungPort 2 [5]).stalledPath 0).2 = [0] ∧ ranWatch.since ≤ 5)
    ∧ (let j : Job := { queue := 0, cmd := 0, done := 0, fault := none, decompressing := false }
       let s := watched 32 { jobs 1 (ready 5 (copyPay 0 0 1)) [] with jobs := [(0, j)] }
       s.unitLoaded 32 = true ∧ s.unitExempt 32 = false ∧ mget s.jobs (32 - 32) = some j
       ∧ (jobQ 1 cmd0).jobUnit = 0) := by
  and_intros <;> decide +kernel

end Sys2Proof.Tests
end

