-- ==== Sys2Proof/Tests/WMachine.lean ====
section
/-! SUPPORT. Witnesses for the statements about memory, ports, faults, boot and the block as a whole. -/

namespace Sys2Proof.Tests

set_option Elab.async false

open Sys2Proof.Machine

/-! ### Memory -/

def memS (f : Mem → Mem) : State := pool'' f
def linePa : Nat := 128
def chans (l : Map Channel) : State := memS (fun m => { m with channels := l })
theorem witness_MemorySystemKeepsItself :
    (atomWidth .add (b2n false) = some 4 ∧ pool.working = true ∧ 4 + 4 ≤ pool.mem.capacity ∧ pool.mem.poisoned 4 4 = false
      ∧ (memS (fun m => { m with poison := [0] })).mem.poisoned 4 4 = true ∧ ¬ 2 % 4 = 0)
    ∧ (pool.mem.whereIs linePa = .dram
        ∧ (pool.mem.findWay (pool.mem.remap (sliceOf linePa)) (setOf linePa) 1 none).isSome = false
        ∧ pool.mem.ways (pool.mem.remap (sliceOf linePa)) ≠ [])
    ∧ (∃ p ∈ (memS (fun m => { m with partials := [⟨0x1000, 1⟩] })).mem.partials, p.sector = 0x1000)
    ∧ (let s := memS (fun m => { m with slices := [(15, { Slice.reset with wayCe := [(15, 8)] })] })
       s.working = true ∧ s.setting 0x41 = 8 ∧ mgetD (s.mem.slice 15).wayCe 15 0 = 8
       ∧ bit (s.mem.slice 15).off.toNat 15 = false ∧ Map.sorted s.flt.records = true)
    ∧ (let s := memS (fun m => { m with srWays := 1, slices := [(15, { Slice.reset with wayCe := [(15, 8)] })] })
       16 - s.mem.srWays ≤ 15 ∧ 15 ∉ (s.mem.slice 15).weak)
    ∧ (0 / pool.mem.perCtl = 0 ∧ (pool.mem.chan 0).excluded = false ∧ (pool.mem.chan 0).scrubPos < pool.mem.allGranules)
    ∧ (∀ c, c < 4 → ((memS (fun m => { m with channels := (List.range 4).map (fun c =>
        (c, { Channel.reset with scrubPos := 2 ^ 40 })) })).mem.chan c).scrubPos ≥ pool.mem.allGranules)
    ∧ ((pool.mem.slice 15).scrubPos ≤ 0 ∧ bit (pool.mem.slice 15).off.toNat 0 = false
        ∧ 32768 ≤ ((memS (fun m => { m with slices := [(15, { Slice.reset with scrubPos := 32768 })] })).mem.slice 15).scrubPos)
    ∧ (0 ∉ pool.mem.lapWarned ∧ State.reset.working = true)
    ∧ (pool.live = true ∧ 15 < pool.mem.nch ∧ (pool.mem.chan 15).failed = false ∧ pool.mem.spill ≠ 0
        ∧ ∀ d, d < pool.mem.nch → (pool.mem.chan d).excluded = false ∧ (pool.mem.chan d).migrating = false)
    ∧ (memS (fun m => { m with spill := 0 })).mem.spill = 0
    ∧ ((chans [(15, { Channel.reset with retrainWanted := true })]).mem.chan 15).retrainWanted = true
    ∧ ((chans [(15, { Channel.reset with training := true })]).mem.chan 15).training = true
    ∧ (let v := (chans [(15, { Channel.reset with migrating := true, pointer := pool.mem.granules - 1 })]).mem.chan 15
       v.migrating = true ∧ v.pointer + 1 = pool.mem.granules) := by
  and_intros <;> decide +kernel

/-! ### Ports -/

def msg (dst src tag addr aux size hops : Nat) (data : List Byte) : CvlMsg :=
  { dst := dst, src := src, tag := tag, addr := addr, aux := aux, size := size, hops := hops, data := data, poison := false }
def asked (r : CvlReq) : State :=
  { run0 st1 with caravan := { twoDies.caravan with reqs := [(5, r)] }, mem := pool.mem }
def loadReq (ty : Nat) (d : NpDest) : CvlReq := { reqLost with type := ty, dest := d }
def signalled : State :=
  { workIn (wq [{ endedCmd 0 with signalled := true }]) [] with
    caravan := { twoDies.caravan with reqs := [(5, { reqLost with type := 5, dest := .other, signal := some (0, 0) })] } }
def portIn (p : Port) : State := { twoDies with caravan := { twoDies.caravan with ports := [(0, p), (1, portUp 2)] } }
theorem crc64_zeros (n : Nat) : crc64 (List.replicate n 0) = 0 := by
  have h : crc64Step 0 0 = 0 := by decide +kernel
  unfold crc64
  induction n with
  | zero => rfl
  | succ n ih => simpa [List.replicate_succ, h] using ih
theorem witness_FlitsAreChecked :
    (zeros 256).length = 256 ∧ crc64 ((zeros 256).take 242) = getLe (zeros 256) 0xF2 8
    ∧ bits (getLe (zeros 256) 0 2) 11 10 = 0 ∧ (parseSlots 32 ([] ++ flitSlots (zeros 256))).isSome = true
    ∧ crc64 (((zeros 256).set 0xF2 1).take 242) ≠ getLe ((zeros 256).set 0xF2 1) 0xF2 8 ∧ (zeros 255).length ≠ 256 := by
  have h : (zeros 256).take 242 = List.replicate 242 0 := by decide +kernel
  have h' : ((zeros 256).set 0xF2 1).take 242 = List.replicate 242 0 := by decide +kernel
  rw [h, h', crc64_zeros]
  and_intros <;> decide +kernel
theorem witness_PortsCarryFlitsAndMessages :
    (pool.portOpen 0 = false ∧ pool.power.st = .run)
    ∧ (powered { Power.reset with st := .halt }).up = true
    ∧ (twoDies.portOpen 0 = true ∧ twoDies.power.st = .run ∧ twoDies.caravan.die = 0 ∧ twoDies.dieState 1 = 1
        ∧ twoDies.dieState 2 ≠ 1)
    ∧ (twoDies.forwardPort 0 7 0 true = none ∧ twoDies.forwardPort 1 1 0 true = some 0)
    ∧ (let m := msg 0 1 5 (2 ^ 20) 0 2 1 (zeros 128)
       (twoDies.route m.src m.addr true).isSome = true ∧ m.addr % (32 * 2 ^ m.size) = 0
       ∧ m.addr + 32 * 2 ^ m.size ≤ twoDies.mem.capacity ∧ twoDies.mem.poisoned m.addr 128 = false ∧ m.data.length = 128
       ∧ Memory.wf twoDies.mem.cells = true)
    ∧ (let m := msg 0 1 5 64 0 0 1 (zeros 16)
       atomOfCode (bits m.aux 4 0) = some .add ∧ atomWidth .add (bits m.aux 6 5) = some 4 ∧ m.data.length = 16)
    ∧ ((twoDies.route 1 0 false).isSome = true ∧ mget twoDies.events (5 % 131072) = some ⟨7, 32⟩)
    ∧ (twoDies.fw.restarting = false ∧ getLe ([4, 7] : List Byte) 0 1 = 4 ∧ getLe ([4, 7] : List Byte) 1 1 = 7
        ∧ 4 < getLe ([5, 0] : List Byte) 0 1 ∧ getLe ([3, 0] : List Byte) 0 1 = 3)
    ∧ (twoDies.matching (msg 0 1 5 0 0 0 1 []) [1] = none)
    ∧ (let r := loadReq 1 (.load 0 0 4 0 4 false)
       (asked r).portOpen 0 = true ∧ (asked r).matching (msg 0 1 5 0 0 0 1 (zeros 32)) [1] = some r
       ∧ (asked r).str? 0 0 = some st1 ∧ (asked r).cmd? 0 1 = some cmd0
       ∧ bit 0 (r.off / 32) = false ∧ bit 1 (r.off / 32) = true)
    ∧ (asked (loadReq 2 .other)).matching (msg 0 1 5 0 0 0 1 []) [2, 3] = some (loadReq 2 .other)
    ∧ (asked (loadReq 4 (.atomic 0 0 4 0 4 true))).matching (msg 0 1 5 0 0 0 1 (zeros 16)) [4]
        = some (loadReq 4 (.atomic 0 0 4 0 4 true))
    ∧ (signalled.portOpen 0 = true ∧ (signalled.matching (msg 0 1 5 0 0 0 1 []) [5]).isSome = true
        ∧ signalled.cmd? 0 0 = some { endedCmd 0 with signalled := true })
    ∧ (mget twoDies.caravan.reqs 5 = none
        ∧ (mget (asked (loadReq 2 .other)).caravan.reqs 5).isSome = true ∧ (asked (loadReq 2 .other)).live = true
        ∧ ∀ p ∈ (asked (loadReq 2 .other)).routePorts 1, ((asked (loadReq 2 .other)).caravan.port p).link = 2)
    ∧ (let v : Port := { portUp 1 with replay := [(3, []), (4, [])] }
       (portIn v).portOpen 0 = true ∧ (portIn v).caravan.port 0 = v ∧ v.replay = [(3, [])] ++ (4, []) :: []
       ∧ ∀ f ∈ v.replay, f.1 ≠ 5)
    ∧ (let v : Port := { portUp 1 with link := 4 }
       (portIn v).live = true ∧ ((portIn v).caravan.port 0).link = 4 ∧ (portIn v).caravan.reqs = [] ∧ (portIn v).flt.fences = [])
    ∧ (let v : Port := { portUp 1 with link := 1 }
       ((portIn v).caravan.port 0).link = 1 ∧ ((portIn v).caravan.port 0).fenced = false) := by
  and_intros <;> decide +kernel

/-! ### Faults, boot -/

def fin (code kind index : Nat) : FaultIn :=
  { code := code, kind := kind, index := index, addr := 64, info := 0, waybill := 0, seq := 0 }
def restarting (n : Nat) : State :=
  { up0 with fw := { up0.fw with restarts := List.replicate n 0, restarting := false } }
def booting (n : Nat) : State := { State.reset with boot := { step := n } }
def worldB : BootWorld := { modules := 4, lanes := 64, rate := 32, ucieRev := 0x20, ports := [none, none, none, none] }
def skips (n : Nat) : State :=
  { booting n with mram := { Mram.reset with bootA := { BootCopy.reset with
      valid := true, steps := [(n, { result := 3, mode := 1, fails := 1, sinceTry := 6, duration := 0, detail := 0 })] } } }
theorem witness_FaultsMasterAndBootFollowTheirRules :
    (up0.up = true ∧ 0x0401 ∈ faultCodes ∧ unitKnown 10 3 = true ∧ unitKnown 10 4 = false
      ∧ 0x0401 ∉ [0x0101, 0x0105, 0x0201, 0x0204, 0x0301, 0x0503, 0x0602, 0x1001, 0x1003]
      ∧ bit (up0.policy 0x0401).action 0 = false ∧ Map.sorted up0.flt.records = true)
    ∧ (0x1002 ∈ faultCodes ∧ unitKnown 9 15 = true ∧ bit (up0.policy 0x1002).action 0 = true ∧ fenceable 9 = true
        ∧ faultClass 0x1002 = 3 ∧ up0.fence? 9 15 = none)
    ∧ (faultClass 0x0407 = 2 ∧ 0x0102 ∈ faultCodes)
    ∧ (up0.live = true ∧ up0.fw.restarting = false
        ∧ ((restarting 8).fw.restarts.filter (fun x => (restarting 8).aclk ≤ x + ((restarting 8).policy 0x0602).window)).length = 8
        ∧ ((restarting 7).fw.restarts.filter (fun x => (restarting 7).aclk ≤ x + ((restarting 7).policy 0x0602).window)).length = 7)
    ∧ (let s := { up0 with fw := { up0.fw with restarting := true } }
       s.up = true ∧ s.flt.fatal = false ∧ s.fw.restarting = true ∧ s.halted = false)
    ∧ (8 < up0.boot.step ∧ up0.fw.masterAlive = true ∧ (booting 8).boot.step ≤ 8)
    ∧ ((powered { Power.reset with st := .off }).power.st = .off ∧ up0.power.st ≠ .off ∧ up0.thermal.tripped = false
        ∧ ∀ l ∈ up0.fw.longOps, l.opcode ≠ 0x0905)
    ∧ ((booting 1).live = true ∧ (booting 24).live = true ∧ worldB.formed = true ∧ (booting 5).thermal.tripped = false
        ∧ (booting 5).pins.pwrFailN = true)
    ∧ ({ worldB with ports := [] } : BootWorld).formed = false
    ∧ ((skips 19).bootMode 19 = 1 ∧ ((skips 19).mram.ledger.step 19).sinceTry < 7 ∧ bootOptional 19 = true)
    ∧ (bootOptional 6 = false ∧ bootAlternate 6 = false)
    ∧ ((booting 24).bootError 24 false worldB = 0 ∧ (booting 24).bootMode 24 = 0)
    ∧ (up0.power.st ≠ .halt ∧ Tap.shifts .shiftDr = true) := by
  and_intros <;> decide +kernel

/-! ### The block as a whole -/

theorem witness_StepRunsTheFrontCommand :
    mgetD State.reset.clk.khz domA 0 = 38400 ∧ (State.reset.clk.khz.filter (fun p => p.1 = domA)).length = 1
    ∧ mgetD State.reset.clk.phase domA 0 < 38400 ∧ State.reset.domainRuns domA = true ∧ State.reset.pending = [] := by decide

theorem witness_FormedCommandsAlwaysAnswer :
    (Instr.sensorSample (List.replicate 48 (-32768))).formed = true ∧ (Instr.sensorSample (List.replicate 48 32768)).formed = false
    ∧ (Instr.flitReceive 0 (zeros 256)).formed = true ∧ (Instr.flitReceive 0 (zeros 255)).formed = false := by
  and_intros <;> decide +kernel

theorem reset_inv : State.reset.Inv := by
  exact ⟨rfl, fun h => absurd h (by decide), rfl, ⟨by decide, by decide, by decide⟩, ⟨by decide, by decide, by decide⟩,
    .inl (by decide), rfl⟩
theorem witness_EveryStepKeepsTheInvariant :
    { State.reset with pending := [.errnPulseEnd] }.Inv ∧ step { State.reset with pending := [.errnPulseEnd] } = .next State.reset :=
  ⟨⟨reset_inv.1, reset_inv.2, reset_inv.3, reset_inv.4, reset_inv.5, reset_inv.6, reset_inv.7⟩, rfl⟩

end Sys2Proof.Tests
end

