-- ==== Sys2Proof/Tests/Slice0.lean ====
section
/-! SUPPORT. The smoke test of well-formedness and the worked examples of the manual, each at the operation it is about.
What commands answer stands with the witnesses, in the other files of this folder. -/

namespace Sys2Proof.Tests

set_option Elab.async false

open Sys2Proof.Machine

/-! ### Well-formedness: one ill-formed term for each check -/

def msg0 : CvlMsg := msg 0 1 5 0x80 0 0 0 []
theorem test_messages_formed : msg0.formed [0] = true ∧ (Instr.rdReq 0 msg0).wellFormed = true
    ∧ (Instr.event 0 { msg0 with data := zeros 16 }).wellFormed = true
    ∧ (Instr.wr 0 { msg0 with data := zeros 128 }).wellFormed = true
    ∧ (Instr.mgmt 0 { msg0 with data := zeros 48 }).wellFormed = true
    ∧ (Instr.wrAck 0 msg0).wellFormed = true := by and_intros <;> decide +kernel
theorem test_messages_ill_formed : ({ msg0 with dst := 8 } : CvlMsg).formed [0] = false
    ∧ ({ msg0 with src := 8 } : CvlMsg).formed [0] = false ∧ ({ msg0 with tag := 4096 } : CvlMsg).formed [0] = false
    ∧ ({ msg0 with addr := 2 ^ 40 } : CvlMsg).formed [0] = false ∧ ({ msg0 with aux := 2 ^ 32 } : CvlMsg).formed [0] = false
    ∧ ({ msg0 with size := 4 } : CvlMsg).formed [0] = false ∧ ({ msg0 with hops := 4 } : CvlMsg).formed [0] = false
    ∧ (Instr.rdReq 0 { msg0 with data := [0] }).inRange = false ∧ (Instr.event 0 msg0).inRange = false
    ∧ (Instr.wr 0 { msg0 with data := zeros 16 }).inRange = false
    ∧ (Instr.wrPartial 0 { msg0 with data := zeros 64 }).inRange = false
    ∧ (Instr.atomic 0 { msg0 with data := zeros 8 }).inRange = false
    ∧ (Instr.mgmt 0 { msg0 with data := zeros 8 }).inRange = false ∧ (Instr.rdRsp 0 msg0).inRange = false
    ∧ (Instr.eventAck 0 { msg0 with data := [0] }).inRange = false
    ∧ (Instr.atomicRsp 0 msg0).inRange = false := by and_intros <;> decide +kernel
theorem test_worlds_ill_formed : worldB.formed = true ∧ ({ worldB with modules := 5 } : BootWorld).formed = false
    ∧ ({ worldB with lanes := 20 } : BootWorld).formed = false ∧ ({ worldB with rate := 5 } : BootWorld).formed = false
    ∧ ({ worldB with ucieRev := 0x30 } : BootWorld).formed = false ∧ ({ worldB with ports := [none] } : BootWorld).formed = false
    ∧ (Instr.bootStart (List.replicate 25 0) worldB).formed = false := by and_intros <;> decide +kernel
theorem test_readings_ill_formed : (Instr.sensorSample (List.replicate 48 0)).formed = true ∧ (Instr.sensorSample (List.replicate 47 0)).formed = false
    ∧ (Instr.sensorSample (List.replicate 48 40000)).formed = false ∧ (Instr.sensorSample (List.replicate 48 (-40000))).formed = false := by
  and_intros <;> decide +kernel
theorem test_aperture_atomics_ill_formed : atomicFormed 8 .cas true = true ∧ atomicFormed 4 .cas true = false
    ∧ atomicFormed 8 .xor true = false ∧ atomicFormed 6 .add false = false := by decide
theorem test_fields_out_of_range : (Instr.link 0 1 1023).inRange = true ∧ (Instr.link 0 1 1024).inRange = false
    ∧ (Instr.hostCompletion 16384 0 [] false).inRange = false ∧ (Instr.hostCompletion 0 8 [] false).inRange = false
    ∧ (Instr.faultReport (fin 65536 0 0)).inRange = false ∧ (Instr.faultReport (fin 0x401 256 0)).inRange = false
    ∧ (Instr.registerWrite 0xFFFFFC (zeros 8)).inRange = false ∧ (Instr.registerLowWordRead 0xFFFFFC 8).inRange = false
    ∧ (Instr.doorbell 0x3FFFC (zeros 8)).inRange = false := by and_intros <;> decide +kernel
/-- The machine stops on an ill-formed command and on no other: here on a flit of three bytes. -/
theorem test_ill_formed_stops : exec (.flitReceive 0 [0, 0, 0]) up0 = .fault .illFormed
    ∧ exec (.apertureAtomic 6 .add false 1 0) up0 = .fault .illFormed := ⟨rfl, rfl⟩
/-- No word spells a command: the table gives no bits. -/
theorem test_no_word : decodeTableWord 64 0 = none := rfl

/-! ### Worked examples of the manual -/

/-- Step 8 of the example after R279: the cookie of vector 300 in the ring's first lap. -/
theorem test_cookie_bytes : (cookieBytes 300 0 0 40 0x1F true).take 4 = [0x2C, 0x81, 0x00, 0x00] := by decide
/-- Step 5 of the example after R327: the same cookie with COMPLETION_WRITE_LOST. -/
theorem test_cookie_lost : (cookieBytes 300 0 1 40 6 true).take 4 = [0x2C, 0x81, 0x00, 0x01]
    ∧ getLe (cookieBytes 300 0 1 40 6 true) 8 8 = 6 := by decide
/-- The example after R171: S8, set 271, shared with the line below it; a strongroom offset in S12, way 14, set 1,129. -/
theorem test_locating_a_line : sliceOf 0x1234567880 = 8 ∧ setOf 0x1234567880 = 271 ∧ sliceOf 0x1234567800 = 8
    ∧ setOf 0x1234567800 = 271 ∧ srPlace 4 0x0A34C80 = (12, 14, 1129) := by decide
/-- The example under R219: CH1 on MC0, at channel-local address 0x1_2345_6780. -/
theorem test_channel_of_a_line : let p := { Mem.reset with mode := 0 }.place 0x1234567880
    p.1 = 1 ∧ p.1 / { Mem.reset with mode := 0 }.perCtl = 0 ∧ p.2 * 256 + 0x80 = 0x123456780 := by decide +kernel
/-- The example after R469: the second port of 0b0011, P1, and P1 again among four. -/
theorem test_port_of_a_line : (bitList 0b0011 4)[portIndex 0x1234567880 true 2]? = some 1
    ∧ (bitList 0b1111 4)[portIndex 0x1234567880 true 4]? = some 1 ∧ portIndex 0x1234567880 false 4 = 0 := by decide
/-- The example after R92: one ADD of 10 to memory, prefix sums to the lanes; then a CAS that the first lane wins. -/
theorem test_one_counter_four_lanes :
    atomCombined .add 0 10 7 [(2, 1, 0), (5, 2, 0), (9, 3, 0), (30, 4, 0)] = (20, [(2, 10), (5, 11), (9, 13), (30, 16)])
    ∧ atomCombined .cas 0 20 7 [(2, 100, 20), (5, 200, 20), (9, 300, 20), (30, 400, 20)]
        = (100, [(2, 20), (5, 100), (9, 100), (30, 100)]) := by decide
/-- The example under R56: amax 486 in MXFP8 E4M3 gives scale 0x7F and the element 448. -/
theorem test_mx_clamps :
    let r := mxBlock (.mx fmtE4M3) false [.rne, .rne] [.flt (fmtFP32.decode 0x43F30000), .flt (fmtFP32.decode 0x3F800000)]
    r.1 = 0x7F ∧ r.2 = [0x7E, 0x38] ∧ (fmtE4M3.decode 0x7E).dy.eqv (Dy.ofInt 448) = true := by and_intros <;> decide +kernel
/-- 1 + 1 and 2 × 3 − 6 in FP32; sums of opposite infinities give the canonical NaN (R52). -/
theorem test_fp32_sums : fmtFP32.fadd 0x3F800000 0x3F800000 = 0x40000000
    ∧ fmtFP32.fadd 0x7F800000 0xFF800000 = fmtFP32.nanCode ∧ fmtFP32.ffma 0x40000000 0x40400000 0xC0C00000 = 0 := by
  and_intros <;> decide +kernel

/-! ### One command of each further family, on small states -/

/-- R495: the pulse ends, and ERR_N follows the level that software set. -/
theorem test_errn_follows_software :
    (match exec .errnPulseEnd { up0 with flt := { up0.flt with pulse := true, swLevel := true }
                                         pins := { up0.pins with errN := true } } with
      | .next t => t.pins.errN && !t.flt.pulse | _ => false) = true := by decide +kernel
/-- An empty queue lets one ACLK pass (log entry 13). -/
theorem test_tick_counts : (match step State.reset with
    | .next t => t.aclk = State.reset.aclk + 1 | _ => false) = true := by decide +kernel

end Sys2Proof.Tests
end

/-! ## Every step keeps the invariant

`Safe cs s` says that `s` meets the invariant and that the commands `cs` wait in it. There is one rule for each operation
of the model on the state, named after the operation and in the model's order: from `Safe cs s` it gives `Safe` of the
state that the operation answers (`SafeSome` where it may answer none, `Leaves` for a command). A rule follows the
operation's own branches and cites the rules of the operations it calls; no rule looks into another operation. Only the
operations that write what the invariant reads argue about values: local memory, the fault collector and ERR_N, the
logbook's queue, the power manager and boot.

Some rules put a variable in the place of a sub-term (`obtain ⟨u, e⟩ : ∃ u, t = u`) before they split a `match`: without
that the kernel evaluates the sub-term down to a number such as 2 ^ 21 in unary. -/

namespace Sys2Proof.Machine

-- These proofs are many and short: elaborated in parallel they ask for more threads than the memory limit allows.
set_option Elab.async false

/-! ### The rules of the constructs -/

/-- The invariant holds and these commands wait. -/
def Safe (q : List Instr) (s : State) : Prop := s.Inv ∧ s.pending = q

/-- A change of fields that neither the invariant nor the queue of commands reads. -/
theorem Safe.set {q : List Instr} {s : State} (h : Safe q s) {clk pins engines queues dups events cmpJobs jobs turns
    passes nextPass parts sch convoys accounts mmu mem host fw pipes layers syncs caravan flt logbook power thermal mram
    boot sampleRings counters}
    (em : mem.cells = s.mem.cells := by rfl)
    (ef : (flt.fatal, flt.held, flt.pulse, flt.swLevel, flt.records)
      = (s.flt.fatal, s.flt.held, s.flt.pulse, s.flt.swLevel, s.flt.records) := by rfl)
    (ee : pins.errN = s.pins.errN := by rfl)
    (el : (logbook.queue, logbook.heldFatal) = (s.logbook.queue, s.logbook.heldFatal) := by rfl)
    (ep : (power.point, power.raising, power.idle) = (s.power.point, s.power.raising, s.power.idle) := by rfl)
    (eb : boot.step = s.boot.step := by rfl) :
    Safe q (State.mk clk pins engines queues dups events cmpJobs jobs turns passes nextPass parts sch convoys accounts mmu
      mem host fw pipes layers syncs caravan flt logbook power thermal mram boot sampleRings counters s.pending) := by
  simp only [Prod.mk.injEq] at ef el ep
  obtain ⟨ef1, ef2, ef3, ef4, ef5⟩ := ef
  obtain ⟨el1, el2⟩ := el
  obtain ⟨ep1, ep2, ep3⟩ := ep
  obtain ⟨⟨h1, h2, h3, h4, h5, h6, h7⟩, hq⟩ := h
  simp only [State.memOk, State.fatalOk, State.errOk, State.logOk, State.powerOk, State.bootOk] at h1 h2 h3 h4 h5 h6
  refine ⟨⟨?_, ?_, ?_, ?_, ?_, ?_, ?_⟩, hq⟩ <;>
    simpa only [State.memOk, State.fatalOk, State.errOk, State.logOk, State.powerOk, State.bootOk, em, ef1, ef2, ef3, ef4,
      ef5, ee, el1, el2, ep1, ep2, ep3, eb]

variable {q : List Instr} {s : State}

theorem Safe.ite {a b : State} {c : Prop} [Decidable c] (ha : Safe q a) (hb : Safe q b) : Safe q (if c then a else b) := by
  split <;> assumption

theorem Safe.ite₂ {α : Type} {a b : α × State} {c : Prop} [Decidable c] (ha : Safe q a.2) (hb : Safe q b.2) :
    Safe q (if c then a else b).2 := by split <;> assumption

theorem Safe.foldl {α : Type} {f : State → α → State} {l : List α} (h : Safe q s)
    (k : ∀ t a, Safe q t → Safe q (f t a)) : Safe q (l.foldl f s) := by
  induction l generalizing s with
  | nil => exact h
  | cons a l ih => exact ih (k s a h)

theorem Safe.foldl₂ {α β : Type} {f : β × State → α → β × State} {r : β × State} {l : List α} (h : Safe q r.2)
    (k : ∀ t a, Safe q t.2 → Safe q (f t a).2) : Safe q (l.foldl f r).2 := by
  induction l generalizing r with
  | nil => exact h
  | cons a l ih => exact ih (k r a h)

theorem Safe.loop {f : State → Nat → State} {n : Nat} (h : Safe q s) (k : ∀ t i, Safe q t → Safe q (f t i)) :
    Safe q (loop n s f) := .foldl h k

theorem Safe.foldIdx {α : Type} {f : State → Nat → α → State} {l : List α} (h : Safe q s)
    (k : ∀ t i a, Safe q t → Safe q (f t i a)) : Safe q (foldIdx l s f) := .foldl₂ h fun t a => k t.2 t.1 a

theorem Safe.foldIdx₃ {α β γ : Type} {f : β × γ × State → Nat → α → β × γ × State} {r : β × γ × State} {l : List α}
    (h : Safe q r.2.2) (k : ∀ t i a, Safe q t.2.2 → Safe q (f t i a).2.2) : Safe q (Machine.foldIdx l r f).2.2 :=
  List.foldlRecOn l _ (motive := fun p : Nat × β × γ × State => Safe q p.2.2.2) h fun p hp a _ => k p.2 p.1 a hp

/-- The state that an operation answered beside a value. -/
theorem Safe.out {α : Type} {r : α × State} {x : α} {t : State} (h : Safe q r.2) (e : r = (x, t) := by assumption) :
    Safe q t := by rw [e] at h; exact h

theorem Safe.pair {α : Type} {x : α} (h : Safe q s) : Safe q (x, s).2 := h

/-- Where an operation answers a state, that state is safe. -/
def SafeSome (q : List Instr) {α : Type} (f : α → State) (o : Option α) : Prop := ∀ a, o = some a → Safe q (f a)

theorem SafeSome.none {α : Type} {f : α → State} : SafeSome q f none := fun _ e => nomatch e
theorem SafeSome.some {α : Type} {f : α → State} {a : α} (h : Safe q (f a)) : SafeSome q f (some a) := by
  intro b e; cases e; exact h
theorem SafeSome.ite {α : Type} {f : α → State} {a b : Option α} {c : Prop} [Decidable c] (ha : SafeSome q f a)
    (hb : SafeSome q f b) : SafeSome q f (if c then a else b) := by split <;> assumption
theorem SafeSome.map {α β : Type} {f : β → State} {g : α → β} {o : Option α}
    (k : ∀ a, o = Option.some a → Safe q (f (g a))) : SafeSome q f (o.map g) := by
  cases o with
  | none => exact .none
  | some a => exact .some (k a rfl)
theorem Safe.getD {o : Option State} (h : SafeSome q id o) (k : Safe q s) : Safe q (o.getD s) := by
  cases o with
  | none => exact k
  | some t => exact h t rfl
theorem Safe.outSome {o : Option State} {t : State} (h : SafeSome q id o) (e : o = some t := by assumption) : Safe q t :=
  h t e
theorem Safe.outSome₂ {α : Type} {o : Option (α × State)} {x : α} {t : State} (h : SafeSome q Prod.snd o)
    (e : o = some (x, t) := by assumption) : Safe q t := h (x, t) e

/-- Where a command answers a next state, that state is safe. -/
def Leaves (q : List Instr) (o : Out) : Prop := ∀ t, o = .next t → Safe q t

theorem Leaves.next {t : State} (h : Safe q t) : Leaves q (.next t) := by intro u e; cases e; exact h
theorem Leaves.fault {x : Fault} : Leaves q (.fault x) := fun _ e => nomatch e
theorem Leaves.ite {a b : Out} {c : Prop} [Decidable c] (ha : Leaves q a) (hb : Leaves q b) :
    Leaves q (if c then a else b) := by split <;> assumption

/-! ### Updates of what the invariant reads -/

theorem Safe.hostOnly {t : State} (h : Safe q s) (a : HostOnly s t) : Safe q t := by
  obtain ⟨x, rfl⟩ := a
  exact h.set

theorem Safe.cacheOnly {t : State} (h : Safe q s) (a : CacheOnly s t) : Safe q t := by
  obtain ⟨_, _, _, _, rfl⟩ := a
  exact h.set

theorem Safe.faultOnly {t : State} (h : Safe q s) (a : FaultOnly s t) (i : t.Inv) : Safe q t := by
  obtain ⟨_, _, _, _, _, _, _, rfl⟩ := a
  exact ⟨i, h.2⟩

theorem Safe.noting {f : State → State} (h : Safe q (f s)) : Safe q (s.noting f) := h.hostOnly (s.noting_hostOnly f)

theorem Safe.submit (h : Safe q s) {r : LogRec} {urgent : Bool} : Safe q (s.submit r urgent) :=
  h.faultOnly (s.submit_faultOnly r urgent) (s.submit_inv r urgent h.1)
theorem Safe.goFatal (h : Safe q s) : Safe q s.goFatal := h.faultOnly s.goFatal_faultOnly (s.goFatal_inv h.1)
theorem Safe.addRecord (h : Safe q s) {r : FltRecord} {log notify urgent : Bool} :
    Safe q (s.addRecord r log notify urgent) :=
  h.faultOnly (s.addRecord_faultOnly r log notify urgent) (s.addRecord_inv r log notify urgent h.1)
theorem Safe.recordFaultBy (h : Safe q s) {f : FaultIn} {third : Bool} : Safe q (s.recordFaultBy f third) :=
  h.faultOnly (s.recordFaultBy_faultOnly f third) (s.recordFaultBy_inv f third h.1)

/-- ERR_N follows its level (R495); after a fatal fault it stays held. -/
theorem Safe.refreshErrN {f : Flt} (h : Safe q s) (e : f.fatal = true → f.held = true)
    (r : f.records = s.flt.records := by rfl) : Safe q { s with flt := f }.refreshErrN := by
  obtain ⟨⟨hm, -, -, hl, hp, hb, hr⟩, hq⟩ := h
  exact ⟨⟨hm, e, rfl, hl, hp, hb, r ▸ hr⟩, hq⟩

/-- Memory changes and keeps its canonical form (R8). -/
theorem Safe.mem {m : Mem} (h : Safe q s) (w : Memory.wf m.cells = true) : Safe q { s with mem := m } := by
  obtain ⟨⟨-, hf, he, hl, hp, hb, hr⟩, hq⟩ := h
  exact ⟨⟨w, hf, he, hl, hp, hb, hr⟩, hq⟩

/-- Poison changes no byte (R8, R226). -/
theorem Mem.setPoison_cells (m : Mem) (a n : Nat) : (m.setPoison a n).cells = m.cells := by
  unfold Mem.setPoison
  split <;> rfl

theorem Safe.setPoison (h : Safe q s) {a n : Nat} : Safe q { s with mem := s.mem.setPoison a n } :=
  h.mem (by rw [Mem.setPoison_cells]; exact h.1.mem)

/-- The logbook changes and its queue stays within its entries (R497). -/
theorem Safe.logbook {l : Logbook} (h : Safe q s) (w : l.queue.length ≤ 16 ∧ (l.queue.filter (fun r => r.kept)).length ≤ 1 ∧
    l.heldFatal.length ≤ 4) : Safe q { s with logbook := l } := by
  obtain ⟨⟨hm, hf, he, -, hp, hb, hr⟩, hq⟩ := h
  exact ⟨⟨hm, hf, he, w, hp, hb, hr⟩, hq⟩

/-- The power manager changes and keeps CCLK at its points (R508, R539). -/
theorem Safe.power {p : Power} (h : Safe q s) (w : p.point ≤ 2 ∧ (∀ x ∈ p.raising, x ≤ 2) ∧ p.idle ≤ 4) :
    Safe q { s with power := p } := by
  obtain ⟨⟨hm, hf, he, hl, -, hb, hr⟩, hq⟩ := h
  exact ⟨⟨hm, hf, he, hl, w, hb, hr⟩, hq⟩

theorem Safe.point_le (h : Safe q s) : s.power.point ≤ 2 := h.1.power.1
theorem Safe.raising_le (h : Safe q s) : ∀ x ∈ s.power.raising, x ≤ 2 := h.1.power.2.1
theorem Safe.idle_le (h : Safe q s) : s.power.idle ≤ 4 := h.1.power.2.2

/-- Boot moves to a step (R259). -/
theorem Safe.boot {b : Boot} (h : Safe q s) (w : b.step ≤ 24 ∨ b.step = 255) : Safe q { s with boot := b } := by
  obtain ⟨⟨hm, hf, he, hl, hp, -, hr⟩, hq⟩ := h
  exact ⟨⟨hm, hf, he, hl, hp, w, hr⟩, hq⟩

end Sys2Proof.Machine

namespace Sys2Proof.Machine

set_option Elab.async false

variable {cs : List Instr} {s : State}

/-! ### `Machine/Ops.lean` -/

theorem Safe.draw (h : Safe cs s) : Safe cs s.draw.2 := .pair (.set h)
theorem Safe.drew (h : Safe cs s) {n : Nat} : Safe cs (s.drew n) := .set h
theorem Safe.bump (h : Safe cs s) {block inst e n : Nat} : Safe cs (s.bump block inst e n) := .ite h (.set h)
theorem Safe.progress (h : Safe cs s) {unit n : Nat} : Safe cs (s.progress unit n) := .set h
theorem Safe.setSetting (h : Safe cs s) {key v : Nat} : Safe cs (s.setSetting key v) := .set h
theorem Safe.send (h : Safe cs s) {m : OutMsg} : Safe cs (s.send m) := .ite (.set h) (.set h)
theorem Safe.emit (h : Safe cs s) {m : OutMsg} : Safe cs (s.emit m) := .set h
theorem Safe.hostWrite (h : Safe cs s) {addr : Nat} {l : List Byte} : Safe cs (s.hostWrite addr l) := .ite h (.send h)
theorem Safe.sendMsix (h : Safe cs s) {v : Nat} : Safe cs (s.sendMsix v) := .ite (.set h) (.send h)
theorem Safe.setRing (h : Safe cs s) {r : Nat} {c : CookieRing} : Safe cs (s.setRing r c) := .set h

theorem Safe.cookie (h : Safe cs s) {v kind flags source value : Nat} :
    Safe cs (s.cookie v kind flags source value) :=
  .ite (.setRing h) (.ite h (.send (.setRing h)))

theorem Safe.interrupt (h : Safe cs s) {v kind flags source value : Nat} :
    Safe cs (s.interrupt v kind flags source value) :=
  .sendMsix (.cookie h)

theorem Safe.interruptOpt (h : Safe cs s) {v kind flags source value : Nat} :
    Safe cs (s.interruptOpt v kind flags source value) :=
  .ite h (.interrupt h)

theorem Safe.lostWrite (h : Safe cs s) {bar2 : Bool} {off : Nat} {data : List Byte} :
    Safe cs (s.lostWrite bar2 off data) :=
  .ite (.set h) (.interrupt (.set h))

theorem Safe.log (h : Safe cs s) {type arg0 arg1 arg2 : Nat} : Safe cs (s.log type arg0 arg1 arg2) := .submit h
theorem Safe.capChanged (h : Safe cs s) : Safe cs s.capChanged := .set h
theorem Safe.recordFault (h : Safe cs s) {f : FaultIn} : Safe cs (s.recordFault f) := .recordFaultBy h

theorem Safe.report (h : Safe cs s) {code kind index addr info : Nat} :
    Safe cs (s.report code kind index addr info) :=
  .recordFault h

theorem Safe.setEng (h : Safe cs s) {e : Nat} {v : Eng} : Safe cs (s.setEng e v) := .set h
theorem Safe.modEng (h : Safe cs s) {e : Nat} {f : Eng → Eng} : Safe cs (s.modEng e f) := .setEng h
theorem Safe.setQueue (h : Safe cs s) {q : Nat} {v : Queue} : Safe cs (s.setQueue q v) := .set h
theorem Safe.modQueue (h : Safe cs s) {q : Nat} {f : Queue → Queue} : Safe cs (s.modQueue q f) := .set h

/-! ### `Machine/L2.lean` -/

theorem Safe.dramTouch (h : Safe cs s) {pa sectors : Nat} {write : Bool} : Safe cs (s.dramTouch pa sectors write) :=
  .ite (.bump (.set (.bump h))) (.bump h)

theorem Safe.partialWrite (h : Safe cs s) {sector mask : Nat} : Safe cs (s.partialWrite sector mask) := by
  unfold State.partialWrite
  dsimp only
  split <;> exact .set (.bump h)

theorem Safe.evict (h : Safe cs s) {key : Nat} : Safe cs (s.evict key) := by
  unfold State.evict
  split
  · exact h
  · exact .ite (.set h) (.loop (.set h) (fun _ _ h₁ => .ite (.ite (.dramTouch (.bump h₁)) (.partialWrite (.bump h₁)))
      h₁))

theorem Safe.fillLine (h : Safe cs s) {pa : Nat} {die : Option Nat} {age : Nat} {valid : BitVec 128}
    {dirty : BitVec 4} {data : List Byte} :
    Safe cs (s.fillLine pa die age valid dirty data) :=
  h.cacheOnly (s.fillLine_cacheOnly _ _ _ _ _ _)

theorem Safe.lineRead (h : Safe cs s) {pa pol : Nat} : Safe cs (s.lineRead pa pol) := by
  unfold State.lineRead
  dsimp only
  split
  exacts [.set (.bump h), .ite (.dramTouch (.bump h)) (.fillLine (.dramTouch (.bump h)))]

theorem Safe.lineWrite (h : Safe cs s) {pa n pol : Nat} : Safe cs (s.lineWrite pa n pol) := by
  unfold State.lineWrite
  dsimp only
  split
  · exact .set (.bump h)
  · exact .ite (.loop h (fun _ _ h₁ => .ite h₁ (.ite (.dramTouch h₁) (.partialWrite h₁)))) (.fillLine (.bump h))

theorem Safe.readPhys (h : Safe cs s) {pa n pol : Nat} : Safe cs (s.readPhys pa n pol).2 := by
  unfold State.readPhys
  split
  · exact .pair (.foldl h (fun _ _ h₁ => .lineRead h₁))
  · exact .ite₂ (.pair (.bump h)) (.pair (.bump h))
  · exact .pair (.report h)
  · exact .pair (.report h)

theorem Safe.writePhys (h : Safe cs s) {pa : Nat} {l : List Byte} {pol : Nat} : Safe cs (s.writePhys pa l pol) := by
  have kw : ∀ t : State, Safe cs t →
      Safe cs { t with mem := { t.mem with cells := memWrite t.mem.cells pa l }.clearPoison pa l.length } :=
    fun t ht => ht.mem (wf_memWrite _ _ _ ht.1.mem)
  unfold State.writePhys
  dsimp only
  split
  · exact kw _ (.foldl h fun _ _ h₁ => .lineWrite h₁)
  · exact .ite (.bump h) (kw _ (.bump h))
  · exact .report h
  · exact .report h

theorem Safe.writeMasked (h : Safe cs s) {pa : Nat} {l : List Byte} {mask pol : Nat} :
    Safe cs (s.writeMasked pa l mask pol) :=
  .foldIdx h (fun _ _ _ h₁ => .ite (.writePhys h₁) h₁)

theorem Safe.zeroPhys (h : Safe cs s) {a n : Nat} : Safe cs (s.zeroPhys a n) := h.mem (wf_memZero _ _ _ h.1.mem)

theorem Safe.flushWays (h : Safe cs s) {sl : Nat} {ways : Nat → Bool} : Safe cs (s.flushWays sl ways) :=
  .foldl h (fun _ _ h₁ => .evict h₁)

/-! ### `Machine/Link.lean` -/

theorem SafeSome.hostRequest (h : Safe cs s) {addr len op : Nat} {operand compare : Dword} {dest : NpDest} :
    SafeSome cs id (s.hostRequest addr len op operand compare dest) :=
  .map (fun _ _ => .send (.set h))

theorem Safe.setPort (h : Safe cs s) {p : Nat} {v : Port} : Safe cs (s.setPort p v) := .set h
theorem Safe.modPort (h : Safe cs s) {p : Nat} {f : Port → Port} : Safe cs (s.modPort p f) := .setPort h

theorem Safe.cvlEmit (h : Safe cs s) {port type src dst tag addr aux size hops : Nat} {data : List Byte}
    {poison : Bool} :
    Safe cs (s.cvlEmit port type src dst tag addr aux size hops data poison) :=
  .emit (.setPort (.bump h))

theorem Safe.cvlSend (h : Safe cs s) {port type dst tag addr aux hops : Nat} {data : List Byte} {poison : Bool} :
    Safe cs (s.cvlSend port type dst tag addr aux hops data poison) :=
  .cvlEmit h

theorem SafeSome.cvlRequestAs (h : Safe cs s) {type dst addr aux : Nat} {data : List Byte} {dest : NpDest}
    {signal : Option (Nat × Nat)} {fill : Bool} {off : Nat} {poison : Bool} :
    SafeSome cs id (s.cvlRequestAs type dst addr aux data dest signal fill off poison) := by
  unfold State.cvlRequestAs
  split
  exacts [.some (.cvlEmit (.set h)), .none]

theorem SafeSome.cvlRequest (h : Safe cs s) {type dst addr aux : Nat} {data : List Byte} {dest : NpDest}
    {signal : Option (Nat × Nat)} {fill : Bool} {off : Nat} :
    SafeSome cs id (s.cvlRequest type dst addr aux data dest signal fill off) :=
  .cvlRequestAs h

theorem Safe.askDie (h : Safe cs s) {die : Nat} {data : List Byte} : Safe cs (s.askDie die data) := by
  unfold State.askDie
  split
  exacts [.cvlSend h, h]

theorem Safe.cvlStoreAs (h : Safe cs s) {dst pa : Nat} {l : List Byte} {dest : NpDest} {poison : Bool} :
    Safe cs (s.cvlStoreAs dst pa l dest poison) :=
  .ite h (.foldl h (fun _ _ h₁ => .getD (.cvlRequestAs h₁) h₁))

theorem Safe.cvlStore (h : Safe cs s) {dst pa : Nat} {l : List Byte} {dest : NpDest} :
    Safe cs (s.cvlStore dst pa l dest) :=
  .cvlStoreAs h

/-! ### `Machine/Translate.lean` -/

theorem Safe.tlbFill (h : Safe cs s) {agent : Nat} {e : TlbEnt} : Safe cs (s.tlbFill agent e) := .ite h (.set h)
theorem Safe.stlbFill (h : Safe cs s) {va : Nat} {e : TlbEnt} : Safe cs (s.stlbFill va e) := .set h
theorem Safe.walkFill (h : Safe cs s) {w : WalkEnt} : Safe cs (s.walkFill w) := .set h

theorem Safe.walkFrom (h : Safe cs s) {asid va table n : Nat} : Safe cs (s.walkFrom asid va table n).2 := by
  induction n generalizing s table with
  | zero => exact h
  | succ n ih =>
    unfold State.walkFrom
    dsimp only
    exact .ite₂ (.readPhys h) (.ite₂ (.readPhys h) (.ite₂ (.readPhys h)
      (.ite₂ (.readPhys h) (ih (.walkFill (.readPhys h))))))

theorem Safe.walkTable (h : Safe cs s) {asid va : Nat} : Safe cs (s.walkTable asid va).2 := by
  unfold State.walkTable
  dsimp only
  split
  · exact h
  · split
    exacts [.walkFrom (.walkFill (.bump h)), .walkFrom (.bump h)]

theorem Safe.translate (h : Safe cs s) {agent asid va : Nat} {acc : Acc} :
    Safe cs (s.translate agent asid va acc).2 := by
  unfold State.translate
  refine .ite₂ h (.ite₂ h ?_)
  split
  · exact .pair (.tlbFill h)
  · split
    · exact .pair (.tlbFill (.stlbFill (.bump h)))
    · split
      · exact .pair (.out (.walkTable (.bump h)))
      · exact .pair (.tlbFill (.stlbFill (.out (.walkTable (.bump h)))))

theorem Safe.invalidate (h : Safe cs s) {asid va n : Nat} : Safe cs (s.invalidate asid va n) := .set h
theorem Safe.tlbEmpty (h : Safe cs s) {agent : Nat} : Safe cs (s.tlbEmpty agent) := .set h

theorem Safe.pieces (h : Safe cs s) {agent asid va n : Nat} {acc : Acc} : Safe cs (s.pieces agent asid va n acc).2 :=
    by
  unfold State.pieces
  dsimp only
  refine .ite₂ h (.foldl₂ h (fun _ _ h₁ => ?_))
  split
  · exact h₁
  · split <;> exact .pair (.out (.translate h₁))

theorem Safe.readVaX (h : Safe cs s) {agent asid va n : Nat} {stream : Bool} {ext : Option (List Byte)} :
    Safe cs (s.readVaX agent asid va n stream ext).2 := by
  unfold State.readVaX
  dsimp only
  split
  · exact .pair (.out (.pieces h))
  · exact .pair (.foldl₂ (.pair (.out (.pieces h))) (fun _ _ h₁ => .ite₂ (.pair (.readPhys h₁)) h₁))

theorem Safe.readVa (h : Safe cs s) {agent asid va n : Nat} {stream : Bool} {ext : Option (List Byte)} :
    Safe cs (s.readVa agent asid va n stream ext).2 := by
  unfold State.readVa
  split <;> exact .pair (.out (.readVaX h))

theorem Safe.writePiece (h : Safe cs s) {target pa pol die : Nat} {l : List Byte} :
    Safe cs (s.writePiece target pa pol die l) :=
  .ite (.writePhys h) (.ite (.hostWrite h) (.cvlStore h))

theorem Safe.writeVa (h : Safe cs s) {agent asid va : Nat} {l : List Byte} {stream : Bool} :
    Safe cs (s.writeVa agent asid va l stream).2 := by
  unfold State.writeVa
  split
  · exact .pair (.out (.pieces h))
  · exact .pair (.foldl₂ (.pair (.out (.pieces h))) (fun _ _ h₁ => .pair (.writePiece h₁)))

theorem Safe.raiseFault (h : Safe cs s) {f : FaultReq} : Safe cs (s.raiseFault f).2 := by
  unfold State.raiseFault
  dsimp only
  split
  exacts [.pair (.set h), .ite₂ h (.pair (.set h))]

theorem SafeSome.newTable (h : Safe cs s) : SafeSome cs Prod.snd s.newTable :=
  .map (fun _ _ => .pair (.set (.writePhys (.zeroPhys h))))

theorem SafeSome.tableAt (h : Safe cs s) {va level n table : Nat} : SafeSome cs Prod.snd (s.tableAt va level n table)
    := by
  induction n generalizing s table with
  | zero => exact .some h
  | succ n ih =>
    unfold State.tableAt
    refine .ite (ih h) ?_
    split
    · exact .none
    · exact ih (.writePhys (.outSome₂ (.newTable h)))

theorem SafeSome.mapPage (h : Safe cs s) {root va page addr flags : Nat} :
    SafeSome cs id (s.mapPage root va page addr flags) := by
  unfold State.mapPage
  dsimp only
  split
  · exact .none
  · rename_i t e
    have k : Safe cs t := SafeSome.tableAt h _ e
    refine .ite (.some ?_) (.some (.writePhys k))
    rw [id]
    exact .loop k fun _ _ h₁ => .writePhys h₁

theorem SafeSome.mapPages (h : Safe cs s) {root va page flags : Nat} {l : List Nat} :
    SafeSome cs id (s.mapPages root va page flags l) := by
  induction l generalizing s va with
  | nil => exact .some h
  | cons a l ih =>
    unfold State.mapPages
    split
    · exact .none
    · exact ih (.outSome (.mapPage h))

theorem Safe.unmapPage (h : Safe cs s) {root va page : Nat} : Safe cs (s.unmapPage root va page) := by
  unfold State.unmapPage
  dsimp only
  split
  · exact h
  · exact .ite (.loop (.outSome₂ (.tableAt h)) (fun _ _ h₁ => .writePhys h₁)) (.writePhys (.outSome₂ (.tableAt h)))

theorem Safe.unmapPages (h : Safe cs s) {asid root va page n : Nat} : Safe cs (s.unmapPages asid root va page n) :=
  .invalidate (.loop h (fun _ _ h₁ => .unmapPage h₁))

theorem SafeSome.reserve (h : Safe cs s) {n align : Nat} : SafeSome cs Prod.snd (s.reserve n align) :=
  .map (fun _ _ => .pair (.drew (.set h)))

theorem SafeSome.reserveSr (h : Safe cs s) {n align : Nat} : SafeSome cs Prod.snd (s.reserveSr n align) :=
  .map (fun _ _ => .pair (.drew (.set h)))

theorem Safe.unreserve (h : Safe cs s) {a : Nat} : Safe cs (s.unreserve a) := .set h

/-! ### `Machine/Operands.lean` -/

theorem Safe.setStr (h : Safe cs s) {e place : Nat} {st : Str} : Safe cs (s.setStr e place st) := .modEng h
theorem Safe.modStr (h : Safe cs s) {e place : Nat} {f : Str → Str} : Safe cs (s.modStr e place f) := .modEng h
theorem Safe.setWg (h : Safe cs s) {e wg : Nat} {g : Wg} : Safe cs (s.setWg e wg g) := .modEng h
theorem Safe.modCmd (h : Safe cs s) {q cmd : Nat} {f : Cmd → Cmd} : Safe cs (s.modCmd q cmd f) := .modQueue h
theorem Safe.endCmd (h : Safe cs s) {q cmd err detail : Nat} : Safe cs (s.endCmd q cmd err detail) := .modCmd h
theorem Safe.orphan (h : Safe cs s) : Safe cs s.orphan := .set h
theorem Safe.killCmd (h : Safe cs s) {e q cmd : Nat} : Safe cs (s.killCmd e q cmd) := .orphan (.modEng h)
theorem Safe.checkDisp (h : Safe cs s) {e q cmd : Nat} : Safe cs (s.checkDisp e q cmd) := .ite (.endCmd (.setEng h)) h

theorem Safe.trap (h : Safe cs s) {e q cmd err detail : Nat} : Safe cs (s.trap e q cmd err detail) :=
  .endCmd (.killCmd h)

theorem Leaves.issue (h : Safe cs s) {w : Site} {hd : Hdr} {cls : Nat} {legal : Bool} {u : Use}
    {body : Act → State → State}
    (k : ∀ a t, Safe cs t → Safe cs (body a t)) : Leaves cs (s.issue w hd cls legal u body) := by
  unfold State.issue
  dsimp only
  split
  · exact .next h
  · split
    · exact .next h
    · exact .ite (.next h) (.ite (.next (.trap h)) (.ite (.next (.setStr h))
        (.next (k _ _ (.setStr (.progress (.bump h)))))))

theorem Leaves.issueStr (h : Safe cs s) {w : Site} {h' : Hdr} {cls : Nat} {legal : Bool} {u : Use}
    {f : Act → Str → Str} :
    Leaves cs (s.issueStr w h' cls legal u f) :=
  .issue h (fun _ _ h₁ => .setStr h₁)

theorem Leaves.issueLane (h : Safe cs s) {w : Site} {h' : Hdr} {cls ctr : Nat} {u : Use} {f : Act → Nat → Word} :
    Leaves cs (s.issueLane w h' cls ctr u f) :=
  .issue h (fun _ _ h₁ => .setStr (.bump h₁))

theorem Leaves.issueSetp (h : Safe cs s) {w : Site} {h' : Hdr} {cls ctr : Nat} {u : Use} {pd : Nat}
    {f : Act → Nat → Bool} :
    Leaves cs (s.issueSetp w h' cls ctr u pd f) :=
  .issue h (fun _ _ h₁ => .setStr (.bump h₁))

theorem Safe.gangPark (h : Safe cs s) {e q cmd : Nat} : Safe cs (s.gangPark e q cmd) :=
  .ite (.foldl h (fun _ _ h₁ => .modEng h₁)) h

theorem Safe.park (h : Safe cs s) {a : Act} {kind : Nat} {acc : Acc} {va level detail heap growKey : Nat} :
    Safe cs (s.park a kind acc va level detail heap growKey) := by
  unfold State.park
  refine .gangPark (.modStr ?_)
  split
  exacts [.pair (.set h), .ite₂ h (.pair (.set h))]

theorem Safe.translateLanes (h : Safe cs s) {a : Act} {addrs : List (Nat × Nat)} {acc : Acc} :
    Safe cs (s.translateLanes a addrs acc).2 := by
  unfold State.translateLanes
  refine .foldl₂ h (fun _ _ h₁ => ?_)
  split <;> exact .pair (.out (.translate h₁))

/-! ### `Machine/StringControl.lean` -/

theorem Safe.jumpLanes (h : Safe cs s) {a : Act} {taken : List (Nat × Dword)} {f : Str → Str} :
    Safe cs (s.jumpLanes a taken f) :=
  .setStr (.ite (.bump h) h)

theorem Leaves.execBra (h : Safe cs s) {w : Site} {h' : Hdr} {low : BitVec 26} : Leaves cs (execBra w h' low s) :=
  .issue h (fun _ _ h₁ => .jumpLanes h₁)

theorem Safe.jumpIndirect (h : Safe cs s) {a : Act} {f : Str → Str} : Safe cs (s.jumpIndirect a f) :=
  .ite (.trap h) (.jumpLanes h)

theorem Leaves.execJmp (h : Safe cs s) {w : Site} {h' : Hdr} {low : BitVec 26} : Leaves cs (execJmp w h' low s) :=
  .issue h (fun _ _ h₁ => .jumpIndirect h₁)

theorem Leaves.execCall (h : Safe cs s) {w : Site} {h' : Hdr} {low : BitVec 26} : Leaves cs (execCall w h' low s) :=
  .issue h (fun _ _ h₁ => .jumpLanes h₁)

theorem Leaves.execCalli (h : Safe cs s) {w : Site} {h' : Hdr} {low : BitVec 26} :
    Leaves cs (execCalli w h' low s) :=
  .issue h (fun _ _ h₁ => .jumpIndirect h₁)

theorem Safe.completeBar (h : Safe cs s) {e wg b : Nat} : Safe cs (s.completeBar e wg b) := .modEng h

theorem Safe.checkBars (h : Safe cs s) {e wg : Nat} : Safe cs (s.checkBars e wg) := by
  unfold State.checkBars
  refine .loop h (fun _ _ h₁ => ?_)
  split
  exacts [.ite (.completeBar h₁) h₁, h₁]

theorem Safe.arrive (h : Safe cs s) {e wg b n expected : Nat} : Safe cs (s.arrive e wg b n expected) := by
  unfold State.arrive
  split
  exacts [h, .checkBars (.setWg h)]

theorem Safe.collect (h : Safe cs s) {st : Str} {lanes : List Nat} : Safe cs (s.collect st lanes) := by
  unfold State.collect
  split
  exacts [h, .set h, .set h]

theorem Leaves.execExit (h : Safe cs s) {w : Site} {h' : Hdr} {low : BitVec 26} : Leaves cs (execExit w h' low s) :=
    by
  unfold Machine.execExit
  dsimp only
  refine .issue h (fun _ _ h₁ => ?_)
  split
  exacts [.checkBars (.setWg (.collect (.setStr h₁))), .collect (.setStr h₁)]

theorem Leaves.execJoin (h : Safe cs s) {w : Site} {h' : Hdr} {low : BitVec 26} : Leaves cs (execJoin w h' low s) :=
  .issue h (fun _ _ h₁ => .setStr h₁)

theorem Leaves.execYield (h : Safe cs s) {w : Site} {h' : Hdr} {low : BitVec 26} :
    Leaves cs (execYield w h' low s) :=
  .issue h (fun _ _ h₁ => .setStr h₁)

theorem Leaves.execSleep (h : Safe cs s) {w : Site} {h' : Hdr} {low : BitVec 26} :
    Leaves cs (execSleep w h' low s) :=
  .issue h (fun _ _ h₁ => .setStr h₁)

theorem Leaves.execGmask (h : Safe cs s) {w : Site} {h' : Hdr} {low : BitVec 26} :
    Leaves cs (execGmask w h' low s) :=
  .issueStr h

theorem Leaves.execTrap (h : Safe cs s) {w : Site} {h' : Hdr} {low : BitVec 26} : Leaves cs (execTrap w h' low s) :=
  .issue h (fun _ _ h₁ => .ite (.setStr h₁) (.trap h₁))

theorem Leaves.execNop (h : Safe cs s) {w : Site} {h' : Hdr} {low : BitVec 26} : Leaves cs (execNop w h' low s) :=
  .issueStr h

theorem Leaves.execStringPromotion (h : Safe cs s) {w : Site} : Leaves cs (execStringPromotion w s) := by
  unfold Machine.execStringPromotion
  dsimp only
  split
  exacts [.next h, .ite (.next (.modEng (.setStr h))) (.next h)]

theorem Leaves.execBudgetExpiry (h : Safe cs s) {w : Site} : Leaves cs (execBudgetExpiry w s) := by
  unfold Machine.execBudgetExpiry
  dsimp only
  split
  · exact .next h
  · split
    exacts [.next h, .ite (.next (.setStr (.bump h))) (.next h)]

theorem Leaves.execSleepExpiry (h : Safe cs s) {w : Site} {pc : Dword} : Leaves cs (execSleepExpiry w pc s) := by
  unfold Machine.execSleepExpiry
  dsimp only
  split
  exacts [.next h, .ite (.next h) (.next (.setStr h))]

theorem Leaves.execScoreboardRelease (h : Safe cs s) {w : Site} {reg : Fin 576} :
    Leaves cs (execScoreboardRelease w reg s) := by
  unfold Machine.execScoreboardRelease
  dsimp only
  split
  exacts [.next h, .ite (.next h) (.next (.setStr h))]

/-! ### `Machine/Sync.lean` -/

theorem Leaves.execBarSync (h : Safe cs s) {w : Site} {h' : Hdr} {low : BitVec 26} :
    Leaves cs (execBarSync w h' low s) :=
  .issue h (fun _ _ h₁ => .ite (.setStr h₁) (.arrive (.setStr h₁)))

theorem Leaves.execBarArrive (h : Safe cs s) {w : Site} {h' : Hdr} {low : BitVec 26} :
    Leaves cs (execBarArrive w h' low s) :=
  .issue h (fun _ _ h₁ => .ite (.setStr h₁) (.arrive (.setStr h₁)))

theorem Leaves.execBarWait (h : Safe cs s) {w : Site} {h' : Hdr} {low : BitVec 26} :
    Leaves cs (execBarWait w h' low s) :=
  .issue h (fun _ _ h₁ => .setStr h₁)

theorem Leaves.execShfl (h : Safe cs s) {w : Site} {h' : Hdr} {low : BitVec 26} : Leaves cs (execShfl w h' low s) :=
    by
  unfold Machine.execShfl
  exact .issueStr h

theorem Leaves.execVote (h : Safe cs s) {w : Site} {h' : Hdr} {low : BitVec 26} : Leaves cs (execVote w h' low s) :=
    by
  unfold Machine.execVote
  exact .issueStr h

theorem Safe.acquire (h : Safe cs s) {e : Nat} : Safe cs (s.acquire e) := .modEng h
theorem Safe.releaseWait (h : Safe cs s) {e place : Nat} : Safe cs (s.releaseWait e place) := .ite (.modStr h) h

theorem Leaves.execFence (h : Safe cs s) {w : Site} {h' : Hdr} {low : BitVec 26} :
    Leaves cs (execFence w h' low s) := by
  unfold Machine.execFence
  exact .issue h (fun _ _ h₁ => .ite (.setStr h₁) (.ite (.releaseWait (.ite (.acquire (.setStr h₁)) (.setStr h₁)))
    (.ite (.acquire (.setStr h₁)) (.setStr h₁))))

/-! ### `Machine/Alu.lean` -/

theorem Leaves.int2 (h : Safe cs s) {w : Site} {h' : Hdr} {f : Word → Word → Word} : Leaves cs (s.int2 w h' f) :=
  .issueLane h

theorem Leaves.int1 (h : Safe cs s) {w : Site} {h' : Hdr} {f : Word → Word} : Leaves cs (s.int1 w h' f) :=
  .issueLane h

theorem Leaves.execIadd (h : Safe cs s) {w : Site} {h' : Hdr} : Leaves cs (execIadd w h' s) := .int2 h
theorem Leaves.execIsub (h : Safe cs s) {w : Site} {h' : Hdr} : Leaves cs (execIsub w h' s) := .int2 h
theorem Leaves.execAnd (h : Safe cs s) {w : Site} {h' : Hdr} : Leaves cs (execAnd w h' s) := .int2 h
theorem Leaves.execOr (h : Safe cs s) {w : Site} {h' : Hdr} : Leaves cs (execOr w h' s) := .int2 h
theorem Leaves.execXor (h : Safe cs s) {w : Site} {h' : Hdr} : Leaves cs (execXor w h' s) := .int2 h
theorem Leaves.execNot (h : Safe cs s) {w : Site} {h' : Hdr} : Leaves cs (execNot w h' s) := .int1 h
theorem Leaves.execShl (h : Safe cs s) {w : Site} {h' : Hdr} : Leaves cs (execShl w h' s) := .int2 h
theorem Leaves.execShr (h : Safe cs s) {w : Site} {h' : Hdr} : Leaves cs (execShr w h' s) := .int2 h
theorem Leaves.execSar (h : Safe cs s) {w : Site} {h' : Hdr} : Leaves cs (execSar w h' s) := .int2 h

theorem Leaves.execImin (h : Safe cs s) {w : Site} {h' : Hdr} {sgn : Bool} : Leaves cs (execImin w h' sgn s) :=
  .int2 h

theorem Leaves.execImax (h : Safe cs s) {w : Site} {h' : Hdr} {sgn : Bool} : Leaves cs (execImax w h' sgn s) :=
  .int2 h

theorem Leaves.execPopc (h : Safe cs s) {w : Site} {h' : Hdr} : Leaves cs (execPopc w h' s) := .int1 h
theorem Leaves.execClz (h : Safe cs s) {w : Site} {h' : Hdr} : Leaves cs (execClz w h' s) := .int1 h
theorem Leaves.execBrev (h : Safe cs s) {w : Site} {h' : Hdr} : Leaves cs (execBrev w h' s) := .int1 h

theorem Leaves.issueFree (h : Safe cs s) {w : Site} {h' : Hdr} {cls ctr : Nat} {u : Use}
    {f : Act → Nat → Nat → Word} :
    Leaves cs (s.issueFree w h' cls ctr u f) :=
  .issue h (fun _ _ h₁ => .setStr (.drew (.bump h₁)))

theorem Leaves.execBfe (h : Safe cs s) {w : Site} {h' : Hdr} {src2 : BitVec 8} {sgn : Bool} :
    Leaves cs (execBfe w h' src2 sgn s) :=
  .issueFree h

theorem Leaves.execBfi (h : Safe cs s) {w : Site} {h' : Hdr} {src2 src3 : BitVec 8} :
    Leaves cs (execBfi w h' src2 src3 s) :=
  .issueFree h

theorem Leaves.execIsetp (h : Safe cs s) {w : Site} {h' : Hdr} {cmp : Cmp} {sgn : Bool} {pd : BitVec 3} :
    Leaves cs (execIsetp w h' cmp sgn pd s) :=
  .issueSetp h

theorem Leaves.execSel (h : Safe cs s) {w : Site} {h' : Hdr} {ps : BitVec 3} {inv : Bool} :
    Leaves cs (execSel w h' ps inv s) :=
  .issueLane h

theorem Leaves.execMov (h : Safe cs s) {w : Site} {h' : Hdr} {src : Src} : Leaves cs (execMov w h' src s) :=
  .issueLane h

theorem Leaves.execImad (h : Safe cs s) {w : Site} {h' : Hdr} {src2 : BitVec 8} :
    Leaves cs (execImad w h' src2 s) :=
  .issueLane h

theorem Leaves.execImulHi (h : Safe cs s) {w : Site} {h' : Hdr} {sgn : Bool} : Leaves cs (execImulHi w h' sgn s) :=
  .int2 h

theorem Leaves.flt2 (h : Safe cs s) {w : Site} {h' : Hdr} {f : Nat → Nat → Nat} : Leaves cs (s.flt2 w h' f) :=
    .issueLane h

theorem Leaves.flt1 (h : Safe cs s) {w : Site} {h' : Hdr} {f : Nat → Nat} : Leaves cs (s.flt1 w h' f) := .issueLane h
theorem Leaves.execFadd (h : Safe cs s) {w : Site} {h' : Hdr} : Leaves cs (execFadd w h' s) := .flt2 h
theorem Leaves.execFmul (h : Safe cs s) {w : Site} {h' : Hdr} : Leaves cs (execFmul w h' s) := .flt2 h
theorem Leaves.execFmin (h : Safe cs s) {w : Site} {h' : Hdr} : Leaves cs (execFmin w h' s) := .flt2 h
theorem Leaves.execFmax (h : Safe cs s) {w : Site} {h' : Hdr} : Leaves cs (execFmax w h' s) := .flt2 h
theorem Leaves.execFabs (h : Safe cs s) {w : Site} {h' : Hdr} : Leaves cs (execFabs w h' s) := .flt1 h
theorem Leaves.execFneg (h : Safe cs s) {w : Site} {h' : Hdr} : Leaves cs (execFneg w h' s) := .flt1 h

theorem Leaves.execFfma (h : Safe cs s) {w : Site} {h' : Hdr} {src2 : BitVec 8} :
    Leaves cs (execFfma w h' src2 s) :=
  .issueLane h

theorem Leaves.execFsetp (h : Safe cs s) {w : Site} {h' : Hdr} {cmp : Cmp} {pd : BitVec 3} :
    Leaves cs (execFsetp w h' cmp pd s) :=
  .issueSetp h

theorem Leaves.half (h : Safe cs s) {w : Site} {h' : Hdr} {u : Use} {f : Act → Nat → Nat} :
    Leaves cs (s.half w h' u f) :=
  .issue h (fun _ _ h₁ => .setStr (.bump h₁))

theorem Leaves.execHadd2 (h : Safe cs s) {w : Site} {h' : Hdr} : Leaves cs (execHadd2 w h' s) := .half h
theorem Leaves.execHmul2 (h : Safe cs s) {w : Site} {h' : Hdr} : Leaves cs (execHmul2 w h' s) := .half h

theorem Leaves.execHfma2 (h : Safe cs s) {w : Site} {h' : Hdr} {src2 : BitVec 8} :
    Leaves cs (execHfma2 w h' src2 s) :=
  .half h

theorem Leaves.xcnd (h : Safe cs s) {w : Site} {h' : Hdr} {f : Nat → Nat → Nat} : Leaves cs (s.xcnd w h' f) :=
    .issueFree h

theorem Leaves.execRcp (h : Safe cs s) {w : Site} {h' : Hdr} : Leaves cs (execRcp w h' s) := .xcnd h
theorem Leaves.execRsq (h : Safe cs s) {w : Site} {h' : Hdr} : Leaves cs (execRsq w h' s) := .xcnd h
theorem Leaves.execSqrt (h : Safe cs s) {w : Site} {h' : Hdr} : Leaves cs (execSqrt w h' s) := .xcnd h
theorem Leaves.execExp2 (h : Safe cs s) {w : Site} {h' : Hdr} : Leaves cs (execExp2 w h' s) := .xcnd h
theorem Leaves.execLog2 (h : Safe cs s) {w : Site} {h' : Hdr} : Leaves cs (execLog2 w h' s) := .xcnd h
theorem Leaves.execSin (h : Safe cs s) {w : Site} {h' : Hdr} : Leaves cs (execSin w h' s) := .xcnd h
theorem Leaves.execCos (h : Safe cs s) {w : Site} {h' : Hdr} : Leaves cs (execCos w h' s) := .xcnd h

theorem Leaves.uni2 (h : Safe cs s) {w : Site} {h' : Hdr} {f : Dword → Dword → Dword} : Leaves cs (s.uni2 w h' f) :=
    by
  unfold Machine.State.uni2
  exact .issueStr h

theorem Leaves.execUadd (h : Safe cs s) {w : Site} {h' : Hdr} : Leaves cs (execUadd w h' s) := .uni2 h
theorem Leaves.execUsub (h : Safe cs s) {w : Site} {h' : Hdr} : Leaves cs (execUsub w h' s) := .uni2 h
theorem Leaves.execUmul (h : Safe cs s) {w : Site} {h' : Hdr} : Leaves cs (execUmul w h' s) := .uni2 h
theorem Leaves.execUand (h : Safe cs s) {w : Site} {h' : Hdr} : Leaves cs (execUand w h' s) := .uni2 h
theorem Leaves.execUor (h : Safe cs s) {w : Site} {h' : Hdr} : Leaves cs (execUor w h' s) := .uni2 h
theorem Leaves.execUxor (h : Safe cs s) {w : Site} {h' : Hdr} : Leaves cs (execUxor w h' s) := .uni2 h

theorem Leaves.ushift (h : Safe cs s) {w : Site} {h' : Hdr} {f : Dword → Nat → Dword} : Leaves cs (s.ushift w h' f) :=
    by
  unfold Machine.State.ushift
  exact .issue h (fun _ _ h₁ => .setStr (.drew h₁))

theorem Leaves.execUshl (h : Safe cs s) {w : Site} {h' : Hdr} : Leaves cs (execUshl w h' s) := .ushift h
theorem Leaves.execUshr (h : Safe cs s) {w : Site} {h' : Hdr} : Leaves cs (execUshr w h' s) := .ushift h

theorem Leaves.execUmov (h : Safe cs s) {w : Site} {h' : Hdr} {src : USrc} : Leaves cs (execUmov w h' src s) := by
  unfold Machine.execUmov
  exact .issueStr h

theorem Leaves.execUsetp (h : Safe cs s) {w : Site} {h' : Hdr} {cmp : Cmp} {sgn : Bool} {pd : BitVec 3} :
    Leaves cs (execUsetp w h' cmp sgn pd s) := by
  unfold Machine.execUsetp
  exact .issueStr h

theorem Leaves.execCvt (h : Safe cs s) {w : Site} {h' : Hdr} {c : CvtMode} : Leaves cs (execCvt w h' c s) := by
  unfold Machine.execCvt
  split
  exacts [.issue h (fun _ _ h₁ => .setStr (.drew (.bump h₁))), .issue h (fun _ _ h₁ => h₁)]

/-! ### `Machine/L1.lean` -/

theorem Safe.l1Read (h : Safe cs s) {e pa n pol : Nat} {ro : Bool} : Safe cs (s.l1Read e pa n pol ro).2 := by
  unfold State.l1Read
  dsimp only
  split
  · split
    exacts [.pair (.setEng (.bump h)), h]
  · exact .pair (.ite (.readPhys (.bump h)) (.modEng (.readPhys (.bump h))))

theorem Safe.l1Write (h : Safe cs s) {e pa pol : Nat} {l : List Byte} : Safe cs (s.l1Write e pa pol l) :=
  .writePhys (.modEng h)

/-! ### `Machine/LoadStore.lean` -/

theorem Safe.loadLane (h : Safe cs s) {a : Act} {x : LaneAddr} {size : Nat} {sgn : Bool} {dst : Nat} :
    Safe cs (s.loadLane a x size sgn dst).2 := by
  unfold State.loadLane
  dsimp only
  split
  · exact .pair (.l1Read h)
  · exact .pair (.getD (.hostRequest h) h)
  · split
    exacts [.pair (.bump h), .pair (.getD (.cvlRequest h) h)]

theorem Safe.loadLanes (h : Safe cs s) {a : Act} {l : List LaneAddr} {size : Nat} {sgn : Bool} {dst : Nat} :
    Safe cs (s.loadLanes a l size sgn dst) := by
  unfold State.loadLanes
  refine .ite (.trap (.foldl₂ h (fun _ _ h₁ => ?_))) (.setStr (.foldl₂ h (fun _ _ h₁ => ?_)))
  · split <;> exact .pair (.out (.loadLane h₁))
  · split <;> exact .pair (.out (.loadLane h₁))

theorem Safe.memLanes (h : Safe cs s) {a : Act} {n : Nat} {acc : Acc} {f : List LaneAddr → State → State}
    (k : ∀ l t, Safe cs t → Safe cs (f l t)) : Safe cs (s.memLanes a n acc f) := by
  unfold State.memLanes
  dsimp only
  refine .ite (.trap h) ?_
  split
  · exact .park (.out (.translateLanes h))
  · exact .ite (k _ _ (.out (.translateLanes h))) (.out (.translateLanes h))

theorem Leaves.execLd (h : Safe cs s) {w : Site} {h' : Hdr} {shared : Bool} {size : Fin 5} {sgn : Bool} :
    Leaves cs (execLd w h' shared size sgn s) := by
  unfold Machine.execLd
  refine .issue h (fun _ _ h₁ => .ite (.ite (.trap (.bump h₁)) ?_)
    (.memLanes (.bump h₁) (fun _ _ h₂ => .loadLanes h₂)))
  split
  exacts [.bump h₁, .setStr (.bump h₁)]

theorem Safe.storeLane (h : Safe cs s) {a : Act} {x : LaneAddr} {b : List Byte} : Safe cs (s.storeLane a x b) := by
  unfold State.storeLane
  split
  exacts [.l1Write h, .hostWrite h, .cvlStore h]

theorem Leaves.execSt (h : Safe cs s) {w : Site} {h' : Hdr} {shared : Bool} {size : Fin 5} :
    Leaves cs (execSt w h' shared size s) := by
  unfold Machine.execSt
  refine .issue h (fun _ _ h₁ => .ite (.ite (.trap (.bump h₁)) ?_)
    (.memLanes (.bump h₁) (fun _ _ h₂ => .modStr (.foldl h₂ (fun _ _ h₃ => .storeLane h₃)))))
  split
  exacts [.bump h₁, .setStr (.setWg (.bump h₁))]

/-! ### `Machine/Atomics.lean` -/

theorem Safe.atomAt (h : Safe cs s) {pa n pol : Nat} {f : Nat → Nat} : Safe cs (s.atomAt pa n pol f).2 := by
  unfold State.atomAt
  dsimp only
  exact .ite₂ (.pair (.readPhys h)) (.pair (.writePhys (.bump (.readPhys h))))

theorem Safe.atomGroup (h : Safe cs s) {a : Act} {t : AtomIns} {g : LaneAddr × List Nat} :
    Safe cs (s.atomGroup a t g).2 := by
  unfold State.atomGroup
  dsimp only
  split
  · exact .pair (.atomAt (.modEng (.draw h)))
  · exact .pair (.foldl h (fun _ _ h₁ => .getD (.hostRequest h₁) h₁))
  · split
    · exact .pair (.foldl h (fun _ _ h₁ => .getD (.cvlRequest h₁) h₁))
    · exact .pair (.foldl h (fun _ _ h₁ => .getD (.cvlRequest h₁) h₁))
    · exact .pair (.foldl h (fun _ _ h₁ => .getD (.cvlRequest h₁) h₁))
    · exact .pair (.getD (.cvlRequest h) h)
    · exact .pair (.getD (.cvlRequest (.draw h)) (.draw h))
    · exact .pair (.getD (.cvlRequest h) h)
    · exact h

theorem Safe.atomGlobal (h : Safe cs s) {a : Act} {t : AtomIns} : Safe cs (s.atomGlobal a t) := by
  unfold State.atomGlobal
  refine .memLanes h fun l u hu => .ite (.trap hu) (.ite (.releaseWait hu) ?_)
  extract_lets gs r v
  have hr : Safe cs r.2 := .foldl₂ (.pair (.bump hu)) fun _ _ k => .pair (.atomGroup k)
  have hv : Safe cs v := .ite (.acquire hr) hr
  exact .ite (.trap hv) (.setStr hv)

theorem Safe.atomShared (h : Safe cs s) {a : Act} {t : AtomIns} : Safe cs (s.atomShared a t) := by
  unfold State.atomShared
  refine .ite (.trap h) ?_
  split
  exacts [h, .setStr (.setWg (.drew (.bump h)))]

theorem Leaves.execAtom (h : Safe cs s) {op : AtomOp} {w : Site} {h' : Hdr} {low : BitVec 26} :
    Leaves cs (s.execAtom op w h' low) := by
  unfold Machine.State.execAtom
  exact .issue h (fun _ _ h₁ => .ite (.atomShared (.drew (.bump h₁))) (.atomGlobal (.drew (.bump h₁))))

theorem Leaves.execAtomAdd (h : Safe cs s) {w : Site} {h' : Hdr} {low : BitVec 26} :
    Leaves cs (execAtomAdd w h' low s) :=
  .execAtom h

theorem Leaves.execAtomSmin (h : Safe cs s) {w : Site} {h' : Hdr} {low : BitVec 26} :
    Leaves cs (execAtomSmin w h' low s) :=
  .execAtom h

theorem Leaves.execAtomUmin (h : Safe cs s) {w : Site} {h' : Hdr} {low : BitVec 26} :
    Leaves cs (execAtomUmin w h' low s) :=
  .execAtom h

theorem Leaves.execAtomSmax (h : Safe cs s) {w : Site} {h' : Hdr} {low : BitVec 26} :
    Leaves cs (execAtomSmax w h' low s) :=
  .execAtom h

theorem Leaves.execAtomUmax (h : Safe cs s) {w : Site} {h' : Hdr} {low : BitVec 26} :
    Leaves cs (execAtomUmax w h' low s) :=
  .execAtom h

theorem Leaves.execAtomAnd (h : Safe cs s) {w : Site} {h' : Hdr} {low : BitVec 26} :
    Leaves cs (execAtomAnd w h' low s) :=
  .execAtom h

theorem Leaves.execAtomOr (h : Safe cs s) {w : Site} {h' : Hdr} {low : BitVec 26} :
    Leaves cs (execAtomOr w h' low s) :=
  .execAtom h

theorem Leaves.execAtomXor (h : Safe cs s) {w : Site} {h' : Hdr} {low : BitVec 26} :
    Leaves cs (execAtomXor w h' low s) :=
  .execAtom h

theorem Leaves.execAtomExch (h : Safe cs s) {w : Site} {h' : Hdr} {low : BitVec 26} :
    Leaves cs (execAtomExch w h' low s) :=
  .execAtom h

theorem Leaves.execAtomCas (h : Safe cs s) {w : Site} {h' : Hdr} {low : BitVec 26} :
    Leaves cs (execAtomCas w h' low s) :=
  .execAtom h

theorem Leaves.execAtomInc (h : Safe cs s) {w : Site} {h' : Hdr} {low : BitVec 26} :
    Leaves cs (execAtomInc w h' low s) :=
  .execAtom h

theorem Leaves.execAtomDec (h : Safe cs s) {w : Site} {h' : Hdr} {low : BitVec 26} :
    Leaves cs (execAtomDec w h' low s) :=
  .execAtom h

theorem Leaves.execAtomFadd (h : Safe cs s) {w : Site} {h' : Hdr} {low : BitVec 26} :
    Leaves cs (execAtomFadd w h' low s) :=
  .execAtom h

theorem Leaves.execAtomFmin (h : Safe cs s) {w : Site} {h' : Hdr} {low : BitVec 26} :
    Leaves cs (execAtomFmin w h' low s) :=
  .execAtom h

theorem Leaves.execAtomFmax (h : Safe cs s) {w : Site} {h' : Hdr} {low : BitVec 26} :
    Leaves cs (execAtomFmax w h' low s) :=
  .execAtom h

/-! ### `Machine/Mailbox.lean` -/

theorem Safe.setMbx (h : Safe cs s) {n : Nat} {p : MbxPair} : Safe cs (s.setMbx n p) := .set h
theorem Safe.deliver (h : Safe cs s) {n : Nat} {b : List Byte} : Safe cs (s.deliver n b) := .interrupt (.setMbx h)

theorem Safe.answer (h : Safe cs s) {n : Nat} {b : List Byte} : Safe cs (s.answer n b) := .ite (.setMbx h)
    (.deliver h)

theorem Safe.modSession (h : Safe cs s) {n : Nat} {f : Session → Session} : Safe cs (s.modSession n f) := .set h
theorem Safe.endSession (h : Safe cs s) {n : Nat} : Safe cs (s.endSession n) := .set h

theorem Safe.logCommand (h : Safe cs s) {role session op tag status error : Nat} :
    Safe cs (s.logCommand role session op tag status error) := by
  unfold State.logCommand
  split
  exacts [h, .ite h (.submit h)]

theorem Safe.finish (h : Safe cs s) {r : Req} {keep log : Bool} {a : Ans} : Safe cs (s.finish r keep log a) := by
  unfold State.finish
  split
  exact .answer (.ite (.logCommand (.ite (.modSession h) h)) (.ite (.modSession h) h))

theorem Safe.startLong (h : Safe cs s) {r : Req} {data : List Byte} : Safe cs (s.startLong r data).2 := by
  unfold State.startLong
  split
  exacts [h, .pair (.set h)]

theorem Safe.mbxExecute (h : Safe cs s) {r : Req} {x : Session} {act : Req → State → Ans × State}
    (k : ∀ r t, Safe cs t → Safe cs (act r t).2) : Safe cs (s.mbxExecute r x act) := by
  unfold State.mbxExecute
  refine .ite (.finish h) ?_
  split
  · exact .finish h
  · exact .ite (.finish h) (.ite (.finish h) (.ite (.finish h) (.ite (.finish h) (.finish (k r s h)))))

theorem Leaves.mbxServe (h : Safe cs s) {pair : Nat} {mine : List Byte → Bool} {act : Req → State → Ans × State}
    (k : ∀ r t, Safe cs t → Safe cs (act r t).2) : Leaves cs (s.mbxServe pair mine act) := by
  unfold State.mbxServe
  dsimp only
  refine .ite (.next h) (.ite (.next (.finish h)) (.ite (.next (.finish h)) ?_))
  split
  · exact .ite (.next (.finish h)) (.ite (.next (.finish h)) (.next (.finish (k _ s h))))
  · refine .ite (.next (.finish h)) ?_
    split
    · exact .ite (.next (.answer (.modSession h))) (.next (.finish h))
    · exact .next (.mbxExecute h k)

theorem Leaves.mbxCmd (h : Safe cs s) {pair : Fin 8} {op : Nat} {act : Req → State → Ans × State}
    (k : ∀ r t, Safe cs t → Safe cs (act r t).2) : Leaves cs (s.mbxCmd pair op act) := .mbxServe h k

theorem Safe.output (h : Safe cs s) {addr : Nat} {l : List Byte} : Safe cs (s.output addr l) := .ite h (.send h)

theorem Safe.postMbx (h : Safe cs s) {n : Nat} : Safe cs (s.postMbx n) := by
  unfold State.postMbx
  dsimp only
  refine .ite h ?_
  split
  · rename_i t e
    exact Leaves.mbxServe (.setMbx h) (fun _ _ h₁ => h₁) t e
  · exact .setMbx h

theorem Safe.ackMbx (h : Safe cs s) {n : Nat} : Safe cs (s.ackMbx n) := by
  unfold State.ackMbx
  refine .ite h ?_
  split
  exacts [.setMbx h, .deliver (.setMbx h)]

theorem Leaves.execSessionOpen (h : Safe cs s) {pair : Fin 8} : Leaves cs (execSessionOpen pair s) :=
  .mbxCmd h (fun _ _ h₁ => .ite₂ h₁ (.ite₂ h₁ (.ite₂ h₁ (.pair (.set (.set h₁))))))

theorem Safe.logAuth (h : Safe cs s) {r : Req} {slot err : Nat} : Safe cs (s.logAuth r slot err) := .submit h

theorem Safe.failAuth (h : Safe cs s) {r : Req} {x : Session} {slot : Nat} : Safe cs (s.failAuth r x slot).2 :=
  .pair (.ite (.endSession (.modSession (.set (.logAuth h)))) (.modSession (.set (.logAuth h))))

theorem Safe.refuseAuth (h : Safe cs s) {r : Req} {x : Session} {slot : Nat} : Safe cs (s.refuseAuth r x slot) :=
  .ite (.endSession (.modSession (.logAuth h))) (.modSession (.logAuth h))

theorem Leaves.execSessionAuth (h : Safe cs s) {pair : Fin 8} {buf : Option (List Byte)} :
    Leaves cs (execSessionAuth pair buf s) := by
  unfold Machine.execSessionAuth
  refine .mbxCmd h (fun _ _ h₁ => ?_)
  split
  · exact h₁
  · refine .ite₂ (.pair (.refuseAuth h₁)) ?_
    split
    exacts [h₁, .ite₂ h₁ (.ite₂ (.pair (.modSession (.logAuth h₁))) (.failAuth h₁))]

theorem Leaves.execSessionClose (h : Safe cs s) {pair : Fin 8} : Leaves cs (execSessionClose pair s) :=
  .mbxCmd h (fun _ _ h₁ => .pair (.endSession h₁))

theorem Leaves.execChallengeExpiry (h : Safe cs s) {session : Word} : Leaves cs (execChallengeExpiry session s) :=
  .next (.modSession h)

theorem Leaves.execAuthLockoutEnd (h : Safe cs s) : Leaves cs (execAuthLockoutEnd s) := .next (.set h)
theorem Leaves.execPing (h : Safe cs s) {pair : Fin 8} : Leaves cs (execPing pair s) := .mbxCmd h (fun _ _ h₁ => h₁)

/-! ### `Machine/Events.lean` -/

theorem Safe.queueAcquire (h : Safe cs s) {q : Queue} : Safe cs (s.queueAcquire q) := .ite (.acquire h) h

theorem Safe.releaseAwaits (h : Safe cs s) : Safe cs s.releaseAwaits :=
  .foldl h (fun _ _ h₁ => .foldl h₁ (fun _ _ h₂ => .ite (.queueAcquire (.endCmd h₂)) h₂))

theorem Safe.recordEvent (h : Safe cs s) {ev v : Nat} {lost : Bool} : Safe cs (s.recordEvent ev v lost) := by
  unfold State.recordEvent
  split
  exacts [h, .ite h (.releaseAwaits (.interruptOpt (.set h)))]

theorem SafeSome.pick (h : Safe cs s) {α : Type} {m : Map α} {lo n : Nat} : SafeSome cs Prod.snd (s.pick m lo n) :=
  .ite (.some (.pair (.drew h))) (.map (fun _ _ => .pair (.drew h)))

theorem Leaves.execEventAlloc (h : Safe cs s) {pair : Fin 8} : Leaves cs (execEventAlloc pair s) := by
  unfold Machine.execEventAlloc
  refine .mbxCmd h (fun _ _ h₁ => .ite₂ h₁ ?_)
  split
  exacts [h₁, .pair (.set (.outSome₂ (.pick h₁)))]

theorem Leaves.execEventFree (h : Safe cs s) {pair : Fin 8} : Leaves cs (execEventFree pair s) :=
  .mbxCmd h (fun _ _ h₁ => .ite₂ h₁ (.ite₂ h₁ (.ite₂ h₁ (.pair (.set h₁)))))

theorem Leaves.execEventBind (h : Safe cs s) {pair : Fin 8} : Leaves cs (execEventBind pair s) :=
  .mbxCmd h (fun _ _ h₁ => .ite₂ h₁ (.ite₂ h₁ (.pair (.set h₁))))

/-! ### `Machine/Heap.lean` -/

theorem Leaves.execAlloc (h : Safe cs s) {w : Site} {h' : Hdr} {low : BitVec 26} :
    Leaves cs (execAlloc w h' low s) := by
  unfold Machine.execAlloc
  dsimp only
  refine .issue h (fun _ _ h₁ => ?_)
  split
  exacts [.setStr (.bump h₁), .ite (.park h₁) (.modStr (.setStr (.bump (.drew (.set h₁)))))]

theorem Safe.badFree (h : Safe cs s) {a : Act} {asid slot addr : Nat} : Safe cs (s.badFree a asid slot addr) :=
  .ite (.log (.modEng (.set h))) (.set h)

theorem Leaves.execFree (h : Safe cs s) {w : Site} {h' : Hdr} {low : BitVec 26} : Leaves cs (execFree w h' low s) :=
    by
  unfold Machine.execFree
  refine .issue h (fun _ _ h₁ => .foldl (.setStr h₁) (fun _ _ h₂ => .ite h₂ ?_))
  split
  exacts [.badFree h₂, .ite (.badFree h₂) (.set h₂)]

/-! ### `Machine/Objects.lean` -/

theorem Safe.modObj (h : Safe cs s) {h' : Nat} {f : Obj → Obj} : Safe cs (s.modObj h' f) := .set h

theorem Leaves.execAsidCreate (h : Safe cs s) {pair : Fin 8} : Leaves cs (execAsidCreate pair s) := by
  unfold Machine.execAsidCreate
  refine .mbxCmd h (fun _ _ h₁ => .ite₂ h₁ ?_)
  split
  · exact h₁
  · split
    exacts [h₁, .pair (.set (.outSome₂ (.newTable (.outSome₂ (.pick h₁)))))]

theorem Safe.dropAsid (h : Safe cs s) {k : Nat} : Safe cs (s.dropAsid k) := by
  unfold State.dropAsid
  split
  exacts [h, .set (.invalidate h)]

theorem Leaves.execAsidDestroy (h : Safe cs s) {pair : Fin 8} : Leaves cs (execAsidDestroy pair s) :=
  .mbxCmd h (fun _ _ h₁ => .ite₂ h₁ (.ite₂ h₁ (.ite₂ h₁ (.pair (.dropAsid h₁)))))

theorem SafeSome.mapObj (h : Safe cs s) {o : Obj} {h' : Nat} {b : Backing} : SafeSome cs id (s.mapObj o h' b) := by
  unfold State.mapObj
  split
  exacts [.none, .map (fun _ _ => .set (.outSome (.mapPages h)))]

theorem Safe.newBacking (h : Safe cs s) {placement die size page : Nat} {ext : Option (List Byte)} {b : Backing}
    {t : State}
    (e : s.newBacking placement die size page ext = .ok (b, t) := by assumption) : Safe cs t := by
  unfold State.newBacking at e
  split at e
  · split at e
    · cases e
      exact .outSome₂ (.reserve h)
    · cases e
  · split at e
    · cases e
      exact .outSome₂ (.reserveSr h)
    · cases e
  · dsimp only at e
    split at e
    · cases e
    · split at e
      · cases e
      · split at e
        · cases e
        · cases e
          exact h
  · dsimp only at e
    split at e
    · cases e
    · split at e
      · cases e
      · cases e
        exact .askDie h

theorem Leaves.execObjCreate (h : Safe cs s) {pair : Fin 8} {buf : Option (List Byte)} :
    Leaves cs (execObjCreate pair buf s) := by
  unfold Machine.execObjCreate
  dsimp only
  refine .mbxCmd h (fun _ _ h₁ => .ite₂ h₁ (.ite₂ h₁ ?_))
  split
  · exact h₁
  · split
    · exact h₁
    · split
      · exact h₁
      · exact .pair (.outSome (.mapObj (.set (.newBacking h₁))))

theorem Leaves.execObjAlias (h : Safe cs s) {pair : Fin 8} : Leaves cs (execObjAlias pair s) := by
  unfold Machine.execObjAlias
  dsimp only
  refine .mbxCmd h (fun _ _ h₁ => .ite₂ h₁ ?_)
  split
  · exact h₁
  · refine .ite₂ h₁ (.ite₂ h₁ ?_)
    split
    · split
      exacts [h₁, .pair (.outSome (.mapObj h₁))]
    · exact h₁

theorem Safe.checkDoom (h : Safe cs s) : Safe cs s.checkDoom := .set h

theorem Safe.doom (h : Safe cs s) {h' : Nat} {event : Option (Nat × Dword)} : Safe cs (s.doom h' event) := by
  unfold State.doom
  split
  exacts [h, .ite h (.checkDoom (.modObj h))]

theorem Leaves.execObjFree (h : Safe cs s) {pair : Fin 8} : Leaves cs (execObjFree pair s) := by
  unfold Machine.execObjFree
  refine .mbxCmd h (fun _ _ h₁ => .ite₂ h₁ ?_)
  split
  exacts [h₁, .ite₂ h₁ (.ite₂ h₁ (.pair (.doom h₁)))]

theorem Leaves.execObjQuery (h : Safe cs s) {pair : Fin 8} : Leaves cs (execObjQuery pair s) := by
  unfold Machine.execObjQuery
  refine .mbxCmd h (fun _ _ h₁ => .ite₂ h₁ ?_)
  split <;> exact h₁

theorem Safe.releaseBacking (h : Safe cs s) {key : Nat} : Safe cs (s.releaseBacking key) := by
  unfold State.releaseBacking
  refine .ite h ?_
  split
  exacts [h, .ite (.unreserve (.zeroPhys (.set h))) (.ite (.askDie (.set h)) (.set h))]

theorem Safe.heapForget (h : Safe cs s) {h' : Nat} {o : Obj} : Safe cs (s.heapForget h' o) :=
  .set (.foldl h (fun _ _ h₁ => .unreserve h₁))

theorem Safe.reclaim (h : Safe cs s) {h' : Nat} : Safe cs (s.reclaim h') := by
  unfold State.reclaim
  dsimp only
  split
  · exact h
  · split
    · exact .recordEvent (.releaseBacking (.set (.heapForget (.unmapPages h))))
    · exact .releaseBacking (.set (.heapForget (.unmapPages h)))

theorem Leaves.execObjectReclaim (h : Safe cs s) {handle : Nat} : Leaves cs (execObjectReclaim handle s) := by
  unfold Machine.execObjectReclaim
  split
  exacts [.next h, .next (.ite (.reclaim h) h)]

theorem Leaves.execHeapCreate (h : Safe cs s) {pair : Fin 8} : Leaves cs (execHeapCreate pair s) :=
  .mbxCmd h (fun _ _ h₁ => .ite₂ h₁ (.ite₂ h₁ (.pair (.set h₁))))

theorem Leaves.execHeapAdd (h : Safe cs s) {pair : Fin 8} : Leaves cs (execHeapAdd pair s) := by
  unfold Machine.execHeapAdd
  dsimp only
  refine .mbxCmd h (fun _ _ h₁ => ?_)
  split
  · exact h₁
  · split
    · exact h₁
    · refine .ite₂ h₁ ?_
      split
      exacts [h₁, .pair (.set (.outSome₂ (.reserve h₁)))]

theorem Leaves.execHeapDestroy (h : Safe cs s) {pair : Fin 8} : Leaves cs (execHeapDestroy pair s) := by
  unfold Machine.execHeapDestroy
  dsimp only
  refine .mbxCmd h (fun _ _ h₁ => ?_)
  split
  exacts [h₁, .pair (.foldl (.set h₁) (fun _ _ h₂ => .doom (.unreserve h₂)))]

theorem Leaves.execHeapQuery (h : Safe cs s) {pair : Fin 8} : Leaves cs (execHeapQuery pair s) := by
  unfold Machine.execHeapQuery
  refine .mbxCmd h (fun _ _ h₁ => ?_)
  split <;> exact h₁

/-! ### `Machine/Tick.lean` -/

theorem Safe.tick (h : Safe cs s) : Safe cs s.tick := .set h

/-! ### `Machine/Charge.lean` -/

theorem Safe.modPart (h : Safe cs s) {p : Nat} {f : Partition → Partition} : Safe cs (s.modPart p f) := .set h
theorem Safe.modConvoy (h : Safe cs s) {c : Nat} {f : Convoy → Convoy} : Safe cs (s.modConvoy c f) := .set h
theorem Safe.modSch (h : Safe cs s) {p : Nat} {f : SchRegs → SchRegs} : Safe cs (s.modSch p f) := .set h
theorem Safe.modAccount (h : Safe cs s) {ctx : Nat} {f : Account → Account} : Safe cs (s.modAccount ctx f) := .set h

theorem Safe.settle (h : Safe cs s) {e : Nat} : Safe cs (s.settle e) := by
  unfold State.settle
  dsimp only
  refine .ite h ?_
  split
  exacts [.modAccount (.setEng h), .setEng h]

theorem Safe.refreshCharge (h : Safe cs s) {e : Nat} : Safe cs (s.refreshCharge e) := by
  unfold State.refreshCharge
  split
  · exact h
  · split
    exacts [h, .modEng h]

theorem Safe.chargePoint (h : Safe cs s) {p : Nat} : Safe cs (s.chargePoint p) := by
  unfold State.chargePoint
  dsimp only
  split
  · exact h
  · split
    · exact .foldl h (fun _ _ h₁ => .settle h₁)
    · exact .ite (.modPart (.foldl h (fun _ _ h₁ => .settle h₁))) (.foldl h (fun _ _ h₁ => .settle h₁))

theorem Safe.levelContext (h : Safe cs s) {p ctx : Nat} : Safe cs (s.levelContext p ctx) := by
  unfold State.levelContext
  split
  exacts [h, .ite h (.modAccount h)]

theorem Safe.sendSwitch (h : Safe cs s) {p next : Nat} : Safe cs (s.sendSwitch p next) :=
  .modPart (.foldl h (fun _ _ h₁ => .modEng h₁))

theorem Safe.reschedule (h : Safe cs s) {p : Nat} : Safe cs (s.reschedule p) := by
  unfold State.reschedule
  split
  · exact h
  · split
    · exact h
    · split
      exacts [.ite h (.modPart h), .ite (.modPart h) (.sendSwitch h)]

/-! ### `Machine/Timed.lean` -/

theorem Safe.passBatchStart (h : Safe cs s) {q : Nat} : Safe cs (s.passBatchStart q) := by
  unfold State.passBatchStart
  split
  · exact h
  · split
    exacts [h, .modQueue (.endCmd h)]

theorem Safe.release (h : Safe cs s) {c tR : Nat} : Safe cs (s.release c tR) := by
  unfold State.release
  split
  exacts [h, .reschedule (.foldl (.modConvoy h) (fun _ _ h₁ => .ite (.passBatchStart h₁) h₁))]

theorem Safe.tryRelease (h : Safe cs s) {c tR : Nat} : Safe cs (s.tryRelease c tR) := by
  unfold State.tryRelease
  split
  · exact h
  · split
    exacts [h, .ite (.release h) h]

theorem Safe.fsyncRelease (h : Safe cs s) {input : Nat} {falling : Bool} : Safe cs (s.fsyncRelease input falling) :=
    by
  unfold State.fsyncRelease
  refine .foldl h (fun _ _ h₁ => ?_)
  split
  · exact h₁
  · split
    exacts [h₁, .ite h₁ (.ite (.release h₁) (.ite (.modConvoy h₁) (.log (.modSch h₁))))]

theorem Safe.noteLayer (h : Safe cs s) {q : Nat} {c : Cmd} {retired : Bool} : Safe cs (s.noteLayer q c retired) := by
  unfold State.noteLayer
  dsimp only
  split
  · exact h
  · refine .ite h ?_
    split
    exacts [h, .modConvoy h]

theorem Safe.decidePoint (h : Safe cs s) {k p : Nat} : Safe cs (s.decidePoint k p) := by
  unfold State.decidePoint
  split
  · exact h
  · split
    · refine .ite h ?_
      split
      exacts [h, .modConvoy h]
    · exact h

theorem Safe.divert (h : Safe cs s) {q p : Nat} : Safe cs (s.divert q p) := by
  unfold State.divert
  split
  · split
    exacts [.ite (.modQueue h) h, h]
  · exact h

theorem Safe.dropStarts (h : Safe cs s) {k : Nat} : Safe cs (s.dropStarts k) := by
  unfold State.dropStarts
  split
  exacts [h, .foldl h (fun _ _ h₁ => .ite (.modQueue (.passBatchStart h₁)) h₁)]

theorem Safe.retireBatchEnd (h : Safe cs s) {q ctx : Nat} : Safe cs (s.retireBatchEnd q ctx) := by
  unfold State.retireBatchEnd
  split
  · exact h
  · extract_lets last late s₁ s₂ s₃ learn now s₄ s₅ s₆
    have h₁ : Safe cs s₁ := .modQueue h
    have h₂ : Safe cs s₂ := .ite (.modAccount h₁) h₁
    have h₃ : Safe cs s₃ := .ite (.modAccount h₂) h₂
    have h₅ : Safe cs s₅ := .foldl (.modConvoy h₃) fun _ _ k => .modQueue k
    have h₆ : Safe cs s₆ := .dropStarts h₅
    refine .ite h₁ ?_
    split
    · exact .release h₆
    · exact .tryRelease h₆

/-! ### `Machine/Wake.lean` -/

theorem Safe.leaveRest (h : Safe cs s) : Safe cs s.leaveRest := .ite (.noting (.set h)) h
theorem Safe.restartPipes (h : Safe cs s) : Safe cs s.restartPipes := .set h
theorem Safe.cancelHalt (h : Safe cs s) : Safe cs s.cancelHalt := .ite h (.log (.restartPipes (.set h)))

theorem Safe.hostTouch (h : Safe cs s) {passes : Bool} : Safe cs (s.hostTouch passes) :=
  .ite (.leaveRest h) (.cancelHalt (.leaveRest h))

theorem Safe.wake (h : Safe cs s) {src : Nat} : Safe cs (s.wake src) := by
  unfold State.wake
  split
  exacts [.noting (.set h), .ite h (.set h), h]

theorem Safe.hold (h : Safe cs s) {w : HeldWrite} : Safe cs (s.hold w) := .wake (.set h)

/-! ### `Machine/Queues.lean` -/

theorem Safe.ringDoorbell (h : Safe cs s) {q : Nat} {t : Word} : Safe cs (s.ringDoorbell q t) := by
  unfold State.ringDoorbell
  split
  · exact .set h
  · refine .ite (.set h) (.ite h ?_)
    split
    exacts [.tryRelease (.setQueue h), .setQueue h]

theorem Safe.strideWrite (h : Safe cs s) {off : Nat} {l : List Byte} {q : Nat} : Safe cs (s.strideWrite off l q) :=
  .ite h (.ite (.ringDoorbell h) (.lostWrite h))

theorem Safe.bar2Write (h : Safe cs s) {off : Nat} {l : List Byte} : Safe cs (s.bar2Write off l) :=
  .ite h (.ite (.strideWrite h) (.foldl h (fun _ _ h₁ => .strideWrite h₁)))

theorem Leaves.execDoorbell (h : Safe cs s) {offset : Nat} {data : List Byte} :
    Leaves cs (execDoorbell offset data s) :=
  .ite (.next h) (.ite (.next (.hold h)) (.next (.bar2Write (.hostTouch h))))

theorem Safe.fetchBytes (h : Safe cs s) {v : Queue} {va n : Nat} {ext : Option (List Byte)} :
    Safe cs (s.fetchBytes v va n ext).2 := by
  unfold State.fetchBytes
  split <;> exact .pair (.out (.readVaX h))

theorem Safe.fetchEntries (h : Safe cs s) {v : Queue} {ext : Option (List Byte)} {k n : Nat} :
    Safe cs (s.fetchEntries v ext k n).2 := by
  induction n generalizing s ext k with
  | zero => exact h
  | succ n ih =>
    unfold State.fetchEntries
    split
    · exact .pair (.out (.fetchBytes h))
    · split <;> exact .pair (.out (ih (.out (.fetchBytes h))))

theorem Safe.stopFetch (h : Safe cs s) {q : Nat} {h' : Option CmdHdr} {err detail : Nat} :
    Safe cs (s.stopFetch q h' err detail) :=
  .modQueue h

theorem Safe.endFetch (h : Safe cs s) {q : Nat} {v : Queue} {hdr : Option (List Byte)} {e : FetchEnd} :
    Safe cs (s.endFetch q v hdr e) := by
  unfold State.endFetch
  split
  · exact .stopFetch h
  · refine .modQueue ?_
    split
    exacts [.pair (.set h), .ite₂ h (.pair (.set h))]

theorem Safe.useUp (h : Safe cs s) {l : List Nat} : Safe cs (s.useUp l) := .foldl h (fun _ _ h₁ => .modObj h₁)
theorem Safe.useDown (h : Safe cs s) {l : List Nat} : Safe cs (s.useDown l) := .foldl h (fun _ _ h₁ => .modObj h₁)

theorem Safe.duplicate (h : Safe cs s) {q : Nat} {v : Queue} {n : Nat} : Safe cs (s.duplicate q v n) :=
  .checkDoom (.bump (.modQueue (.set h)))

theorem Safe.chargeAccept (h : Safe cs s) {v : Queue} {waybill : Dword} : Safe cs (s.chargeAccept v waybill) := by
  unfold State.chargeAccept
  split
  · exact h
  · split
    exacts [h, .modConvoy (.levelContext h)]

theorem Safe.accept (h : Safe cs s) {q : Nat} {v : Queue} {h' : CmdHdr} {payload : List Byte} {l : List Nat} :
    Safe cs (s.accept q v h' payload l) := by
  unfold State.accept
  dsimp only
  split
  · exact .ite (.tryRelease (.bump (.chargeAccept (.checkDoom (.useUp (.modQueue h))))))
      (.bump (.chargeAccept (.checkDoom (.useUp (.modQueue h)))))
  · exact .bump (.chargeAccept (.checkDoom (.useUp (.modQueue h))))

theorem Leaves.execCommandAccept (h : Safe cs s) {queue : Half} {entries ext : Option (List Byte)} :
    Leaves cs (execCommandAccept queue entries ext s) := by
  unfold Machine.execCommandAccept
  dsimp only
  split
  · exact .next h
  · refine .ite (.next h) ?_
    split
    · exact .next (.endFetch (.out (.fetchBytes h)))
    · have h₁ := Safe.out (.fetchBytes h) ‹_›
      refine .ite (.next h₁) ?_
      split
      · exact .next (.endFetch (.out (.fetchEntries h₁)))
      · have h₂ := Safe.out (.fetchEntries h₁) ‹_›
        refine .ite (.next (.stopFetch h₂)) (.ite (.next (.duplicate h₂)) ?_)
        split
        · exact .next (.accept h₂)
        · split
          · exact .next (.endFetch (.out (.fetchBytes h₂)))
          · exact .next (.accept (.out (.fetchBytes h₂)))

theorem Safe.beginCmd (h : Safe cs s) {q : Nat} {v : Queue} {c : Cmd} : Safe cs (s.beginCmd q v c) :=
  .ite (.refreshCharge (.noteLayer (.modCmd h))) (.noteLayer (.modCmd h))

theorem Leaves.instant (h : Safe cs s) {queue : Half} {op : Nat} {f : Queue → Cmd → State → State}
    (k : ∀ v c t, Safe cs t → Safe cs (f v c t)) : Leaves cs (s.instant queue op f) := by
  unfold State.instant
  dsimp only
  split
  · exact .next h
  · exact .next (.endCmd (k _ _ _ (.noteLayer (.modCmd h))))

theorem Leaves.execQueueNop (h : Safe cs s) {queue : Half} : Leaves cs (execQueueNop queue s) :=
  .instant h (fun _ _ _ h₁ => h₁)

theorem Leaves.execEventRecord (h : Safe cs s) {queue : Half} : Leaves cs (execEventRecord queue s) :=
  .instant h (fun _ _ _ h₁ => h₁)

theorem Leaves.execEventAwait (h : Safe cs s) {queue : Half} : Leaves cs (execEventAwait queue s) := by
  unfold Machine.execEventAwait
  dsimp only
  split
  exacts [.next h, .next (.ite (.queueAcquire (.endCmd (.beginCmd h))) (.beginCmd h))]

theorem Leaves.execBatchStart (h : Safe cs s) {queue : Half} : Leaves cs (execBatchStart queue s) := by
  unfold Machine.execBatchStart
  dsimp only
  split
  · exact .next h
  · split
    exacts [.next (.endCmd h), .ite (.next (.passBatchStart h)) (.next (.modQueue h))]

theorem Leaves.execSwitchPoint (h : Safe cs s) {queue : Half} : Leaves cs (execSwitchPoint queue s) := by
  unfold Machine.execSwitchPoint
  dsimp only
  split
  · exact .next h
  · split
    · exact .next (.endCmd h)
    · exact .ite (.next (.endCmd h)) (.next (.endCmd (.divert (.decidePoint h))))

theorem Leaves.execTileHold (h : Safe cs s) {queue : Half} : Leaves cs (execTileHold queue s) :=
  .instant h (fun _ _ _ h₁ => .modEng h₁)

theorem Leaves.execTileFree (h : Safe cs s) {queue : Half} : Leaves cs (execTileFree queue s) :=
  .instant h (fun _ _ _ h₁ => .modEng h₁)

theorem Leaves.execBatchEnd (h : Safe cs s) {queue : Half} : Leaves cs (execBatchEnd queue s) :=
  .instant h (fun _ _ _ h₁ => h₁)

theorem Safe.writeRecord (h : Safe cs s) {q : Nat} {v : Queue} {c : Cmd} {err : Nat} {late : Bool} :
    Safe cs (s.writeRecord q v c err late).2 := by
  unfold State.writeRecord
  dsimp only
  split
  exacts [.pair (.out (.writeVa h)), .pair (.log (.out (.writeVa h)))]

theorem Safe.finishRetire (h : Safe cs s) {q : Nat} {v : Queue} {c : Cmd} {err : Nat} {lost : Bool} :
    Safe cs (s.finishRetire q v c err lost) := by
  unfold State.finishRetire
  extract_lets ctx s₁ s₂ s₃ s₄ s₅ s₆ s₇ s₈
  have h₂ : Safe cs s₂ := .noteLayer (.ite (.interruptOpt h) h)
  have h₃ : Safe cs s₃ := .modQueue (.useDown h₂)
  have h₄ : Safe cs s₄ := .bump (.ite (.progress h₃) h₃)
  have h₆ : Safe cs s₆ := .modAccount (.ite (.set h₄) h₄)
  have h₇ : Safe cs s₇ := by
    unfold s₇
    split
    · exact .chargePoint h₆
    · exact h₆
  have h₈ : Safe cs s₈ := .ite (.refreshCharge h₇) h₇
  exact .ite (.retireBatchEnd h₈) h₈

theorem Safe.performSignal (h : Safe cs s) {q : Nat} {c : Cmd} {lost : Bool} : Safe cs (s.performSignal q c lost).2 :=
    by
  unfold State.performSignal
  split
  · exact h
  · refine .ite₂ h (.ite₂ (.pair (.recordEvent h)) (.ite₂ (.pair (.log h)) ?_))
    split
    exacts [.pair (.modCmd (.outSome (.cvlRequest h))), h]

theorem Leaves.retireFront (h : Safe cs s) {q : Nat} : Leaves cs (s.retireFront q) := by
  unfold Machine.State.retireFront
  dsimp only
  split
  · exact .next h
  · split
    · exact .next h
    · refine .ite (.next h) ?_
      split
      · exact .next (.finishRetire (.out (.performSignal (.modCmd (.ite₂ (.writeRecord h) h)))))
      · exact .next (.out (.performSignal (.modCmd (.ite₂ (.writeRecord h) h))))

theorem Leaves.execQueueCreate (h : Safe cs s) {pair : Fin 8} : Leaves cs (execQueueCreate pair s) := by
  unfold Machine.execQueueCreate
  refine .mbxCmd h (fun _ _ h₁ => .ite₂ h₁ (.ite₂ h₁ (.ite₂ h₁
    (.ite₂ h₁ (.ite₂ h₁ (.ite₂ h₁ (.ite₂ (.pair (.setQueue h₁)) ?_)))))))
  split
  exacts [h₁, .pair (.setQueue (.outSome₂ (.pick h₁)))]

theorem Leaves.execQueueDestroy (h : Safe cs s) {pair : Fin 8} : Leaves cs (execQueueDestroy pair s) := by
  unfold Machine.execQueueDestroy
  refine .mbxCmd h (fun _ _ h₁ => .ite₂ h₁ ?_)
  split
  exacts [h₁, .ite₂ h₁ (.pair (.checkDoom (.set h₁)))]

theorem Leaves.execQueueRestart (h : Safe cs s) {pair : Fin 8} : Leaves cs (execQueueRestart pair s) := by
  unfold Machine.execQueueRestart
  refine .mbxCmd h (fun _ _ h₁ => .ite₂ h₁ ?_)
  split
  exacts [h₁, .ite₂ h₁ (.ite₂ h₁ (.pair (.checkDoom (.setQueue h₁))))]

/-! ### `Machine/Tensor.lean` -/

theorem Leaves.issueTensor (h : Safe cs s) {w : Site} {hd : Hdr} {legal : Bool} {pairs singles : List Nat}
    {f : Act → State → State} (k : ∀ a t, Safe cs t → Safe cs (f a t)) :
    Leaves cs (s.issueTensor w hd legal pairs singles f) := by
  unfold State.issueTensor
  exact .issue h fun a t h₁ => .ite (.setStr h₁) (k a t h₁)

theorem Safe.pushTensor (h : Safe cs s) {a : Act} {t : TIns} : Safe cs (s.pushTensor a t) := .setStr (.modEng h)

theorem Leaves.execTmma (h : Safe cs s) {w : Site} {h' : Hdr} {low : BitVec 26} : Leaves cs (execTmma w h' low s) :=
    by
  unfold Machine.execTmma
  dsimp only
  exact .issueTensor h (fun _ _ h₁ => .ite (.trap h₁) (.ite (.modEng (.pushTensor h₁)) (.pushTensor h₁)))

theorem Leaves.issueMover (h : Safe cs s) {kind : TKind} {w : Site} {h' : Hdr} {low : BitVec 26} :
    Leaves cs (s.issueMover kind w h' low) := by
  unfold Machine.State.issueMover
  exact .issueTensor h (fun _ _ h₁ => .ite (.trap h₁) (.ite (.trap h₁) (.pushTensor h₁)))

theorem Leaves.execTfill (h : Safe cs s) {w : Site} {h' : Hdr} {low : BitVec 26} :
    Leaves cs (execTfill w h' low s) :=
  .issueMover h

theorem Leaves.execTspill (h : Safe cs s) {w : Site} {h' : Hdr} {low : BitVec 26} :
    Leaves cs (execTspill w h' low s) :=
  .issueMover h

theorem Leaves.execTcvt (h : Safe cs s) {w : Site} {h' : Hdr} {low : BitVec 26} : Leaves cs (execTcvt w h' low s) :=
    by
  unfold Machine.execTcvt
  exact .issueTensor h (fun _ _ h₁ => .ite (.trap h₁) (.pushTensor h₁))

theorem Leaves.execTwait (h : Safe cs s) {w : Site} {h' : Hdr} {low : BitVec 26} :
    Leaves cs (execTwait w h' low s) := by
  unfold Machine.execTwait
  exact .issue h (fun _ _ h₁ => .setStr h₁)

theorem Safe.countMacs (h : Safe cs s) {e fmtA passes m n k busy : Nat} :
    Safe cs (s.countMacs e fmtA passes m n k busy) :=
  .bump (.ite (.bump h) (.loop (.bump h) (fun _ _ h₁ => .bump h₁)))

theorem Safe.runTmma (h : Safe cs s) {e : Nat} {t : TIns} : Safe cs (s.runTmma e t) := .countMacs (.setEng h)

theorem Safe.runGang (h : Safe cs s) {q : Nat} {ins : List (Nat × TIns)} : Safe cs (s.runGang q ins) := by
  unfold State.runGang
  dsimp only
  split
  · exact .drew (.foldl (.foldl h (fun _ _ h₁ => .modEng h₁)) (fun _ _ h₁ => .countMacs (.bump h₁)))
  · exact h

theorem Safe.runTcvt (h : Safe cs s) {e : Nat} {t : TIns} : Safe cs (s.runTcvt e t) := .drew (.setEng h)

theorem Safe.moverPieces (h : Safe cs s) {e asid : Nat} {rows : List (Nat × Nat)} {acc : Acc} :
    Safe cs (s.moverPieces e asid rows acc).2 := by
  unfold State.moverPieces
  refine .foldl₂ h (fun _ _ h₁ => ?_)
  split
  · exact h₁
  · split <;> exact .pair (.out (.pieces h₁))

theorem Safe.moverRead (h : Safe cs s) {rows : List (List (Nat × Nat × Nat × Nat × Nat × Bool))}
    {ext : Option (List Byte)} :
    Safe cs (s.moverRead rows ext).2 := by
  unfold State.moverRead
  dsimp only
  exact .foldl₂ h (fun _ _ h₁ => .pair (.foldl₂ h₁ (fun _ _ h₂ => .ite₂ (.pair (.readPhys h₂)) h₂)))

theorem Safe.moverFault (h : Safe cs s) {e : Nat} {t : TIns} {acc : Acc} {k lv pte va : Nat} :
    Safe cs (s.moverFault e t acc k lv pte va) := by
  unfold State.moverFault
  refine .gangPark (.modStr (.modEng ?_))
  split
  exacts [.pair (.set h), .ite₂ h (.pair (.set h))]

theorem Safe.retireTensor (h : Safe cs s) {e : Nat} {t : TIns} : Safe cs (s.retireTensor e t) :=
  .checkDisp (.modEng (.progress (.modEng h)))

theorem Safe.gangMismatch (h : Safe cs s) {e : Nat} : Safe cs (s.gangMismatch e) := by
  unfold State.gangMismatch
  refine .foldl h (fun _ _ h₁ => ?_)
  split
  exacts [.trap h₁, h₁]

theorem Leaves.execTensorInstructionStart (h : Safe cs s) {engine : Fin 32} {id : Nat} :
    Leaves cs (execTensorInstructionStart engine id s) := by
  unfold Machine.execTensorInstructionStart
  dsimp only
  split
  · exact .next h
  · refine .ite (.next h) ?_
    split
    · exact .next (.runTmma (.modEng h))
    · exact .ite (.next h) (.ite (.next (.gangMismatch h)) (.next (.runGang (.foldl h (fun _ _ h₁ => .modEng h₁)))))
    · exact .next (.modEng h)
    · split
      exacts [.next (.moverFault (.out (.moverPieces h))), .next (.modEng (.out (.moverPieces h)))]

theorem Leaves.execTensorInstructionComplete (h : Safe cs s) {engine : Fin 32} {id : Nat}
    {host : Option (List Byte)} :
    Leaves cs (execTensorInstructionComplete engine id host s) := by
  unfold Machine.execTensorInstructionComplete
  dsimp only
  split
  · exact .next h
  · refine .ite (.next h) ?_
    split
    · exact .next (.retireTensor h)
    · exact .next (.retireTensor (.runTcvt h))
    · split
      · exact .next (.moverFault (.out (.moverPieces h)))
      · exact .ite (.next (.trap (.moverRead (.out (.moverPieces h)))))
          (.next (.retireTensor (.modEng (.bump (.moverRead (.out (.moverPieces h)))))))
    · split
      · exact .next (.moverFault (.out (.moverPieces h)))
      · exact .next (.retireTensor (.foldl (.bump (.out (.moverPieces h)))
          (fun _ _ h₁ => .foldl₂ h₁ (fun _ _ h₂ => .pair (.writePiece h₂)))))

/-! ### `Machine/Launch.lean` -/

theorem Safe.launchCompute (h : Safe cs s) {e : Nat} {d : Disp} : Safe cs (s.launchCompute e d) := by
  unfold State.launchCompute
  refine .ite h ?_
  split
  exacts [h, .drew (.setEng h)]

theorem Safe.loseGranules (h : Safe cs s) {e lo hi : Nat} : Safe cs (s.loseGranules e lo hi) := .drew (.setEng h)

theorem Leaves.execGranuleBoundaryMove (h : Safe cs s) {engine : Fin 32} :
    Leaves cs (execGranuleBoundaryMove engine s) := by
  unfold Machine.execGranuleBoundaryMove
  dsimp only
  split
  · split
    · exact .ite (.next h) (.next (.modEng (.loseGranules h)))
    · exact .ite (.next h) (.next (.modEng (.loseGranules h)))
    · exact .next h
  · exact .next h

theorem Safe.awaitTns (h : Safe cs s) {e n : Nat} : Safe cs (s.awaitTns e n) := .modEng h

theorem Safe.refuseCmd (h : Safe cs s) {q : Nat} {v : Queue} {c : Cmd} {err : Nat} : Safe cs (s.refuseCmd q v c err)
    :=
  .endCmd (.beginCmd h)

theorem Safe.startDisp (h : Safe cs s) {q : Nat} {v : Queue} {c : Cmd} {d : Disp} : Safe cs (s.startDisp q v c d) :=
    by
  unfold State.startDisp
  split
  exacts [.refuseCmd h, .awaitTns h, .beginCmd (.modEng h)]

theorem Leaves.execDispatch (h : Safe cs s) {queue : Half} : Leaves cs (execDispatch queue s) := by
  unfold Machine.execDispatch
  dsimp only
  split
  exacts [.next h, .ite (.next h) (.next (.startDisp h))]

theorem Safe.startFallback (h : Safe cs s) {q : Nat} {v : Queue} {c : Cmd} {p mask : Nat} :
    Safe cs (s.startFallback q v c p mask) :=
  .ite (.refuseCmd h) (.startDisp (.modCmd h))

theorem Leaves.execGangLayer (h : Safe cs s) {queue : Half} : Leaves cs (execGangLayer queue s) := by
  unfold Machine.execGangLayer
  dsimp only
  split
  · exact .next h
  · refine .ite (.next h) (.ite (.next (.startFallback (.modEng h)))
      (.ite (.next h) (.ite (.next (.startFallback (.draw h))) (.ite (.next h) ?_))))
    split
    exacts [.next (.refuseCmd h), .next (.awaitTns h), .next (.modEng h)]

theorem Safe.gangStart (h : Safe cs s) {m : Nat} : Safe cs (s.gangStart m) := by
  unfold State.gangStart
  dsimp only
  split
  · exact h
  · split
    exacts [.ite (.modEng h) (.beginCmd (.modEng (.modEng h))), .modEng h]

theorem Safe.gangFail (h : Safe cs s) {m : Nat} : Safe cs (s.gangFail m) := by
  unfold State.gangFail
  split
  exacts [h, .trap (.modEng h)]

theorem Leaves.execGangArrive (h : Safe cs s) {engine : Fin 32} : Leaves cs (execGangArrive engine s) := by
  unfold Machine.execGangArrive
  dsimp only
  split
  · exact .next h
  · exact .ite (.next h) (.ite (.next (.modEng h)) (.ite (.next (.foldl (.modEng h) (fun _ _ h₁ => .gangStart h₁)))
      (.next (.foldl (.modEng h) (fun _ _ h₁ => .gangFail h₁)))))

theorem Leaves.execGangResume (h : Safe cs s) {engine : Fin 32} : Leaves cs (execGangResume engine s) :=
  .ite (.next h) (.next (.foldl h (fun _ _ h₁ => .modEng h₁)))

theorem Safe.freeStr (h : Safe cs s) {e place : Nat} {st : Str} : Safe cs (s.freeStr e place st) := .modEng h

/-! ### `Machine/Passes.lean` -/

theorem Safe.modPass (h : Safe cs s) {id : Nat} {f : Pass → Pass} : Safe cs (s.modPass id f) := .set h

theorem Safe.scramble (h : Safe cs s) {agent asid va n : Nat} : Safe cs (s.scramble agent asid va n) := by
  unfold State.scramble
  dsimp only
  split
  · exact .out (.pieces h)
  · exact .foldl (.out (.pieces h)) fun _ _ h₁ => .ite (.drew (h₁.mem (wf_memWrite _ _ _ h₁.1.mem))) h₁

theorem Safe.scrambleAtts (h : Safe cs s) {p : Pass} : Safe cs (s.scrambleAtts p) :=
  .foldl h (fun _ _ h₁ => .ite h₁ (.loop h₁ (fun _ _ h₂ => .scramble h₂)))

theorem Safe.dropPassWork (h : Safe cs s) {e id : Nat} : Safe cs (s.dropPassWork e id) := .orphan (.modEng h)

theorem Safe.markAbsent (h : Safe cs s) {p : Pass} {engines : List Nat} : Safe cs (s.markAbsent p engines) :=
  .modConvoy h

theorem Safe.resumeUnits (h : Safe cs s) {id : Option Nat} {decline : Bool} : Safe cs (s.resumeUnits id decline) :=
  .set h

theorem Safe.closeFault (h : Safe cs s) {id : Nat} : Safe cs (s.closeFault id) := .resumeUnits (.set h)

theorem Safe.abandonPass (h : Safe cs s) {id begin_ : Nat} : Safe cs (s.abandonPass id begin_) := by
  unfold State.abandonPass
  split
  · exact h
  · extract_lets s₁ s₂ s₃ s₄
    have h₂ : Safe cs s₂ := by
      refine .foldl (.set h) fun _ _ k => ?_
      dsimp only
      split
      · exact .dropPassWork k
      · exact .modQueue (.foldl (.dropPassWork k) fun _ _ k => .endCmd k)
    have h₃ : Safe cs s₃ := .ite (.markAbsent h₂) h₂
    have h₄ : Safe cs s₄ := by
      unfold s₄
      split
      · exact .closeFault h₃
      · exact h₃
    exact .ite h₄ (.scrambleAtts h₄)

theorem Safe.sweepPasses (h : Safe cs s) : Safe cs s.sweepPasses :=
  .foldl h (fun _ _ h₁ => .ite (.abandonPass h₁) h₁)

theorem Safe.stallPass (h : Safe cs s) {id : Nat} {p : Pass} {q cmd : Nat} {acc : Acc} {f : Nat × Nat × Nat × Nat} :
    Safe cs (s.stallPass id p q cmd acc f) := by
  unfold State.stallPass
  refine .modPass ?_
  split
  exacts [.pair (.set h), .ite₂ h (.pair (.set h))]

theorem Safe.joinPass (h : Safe cs s) {id q : Nat} {v : Queue} {c : Cmd} : Safe cs (s.joinPass id q v c) :=
  .beginCmd (.modQueue (.modPass h))

theorem Leaves.execPassBegin (h : Safe cs s) {queue : Half} : Leaves cs (execPassBegin queue s) := by
  unfold Machine.execPassBegin
  dsimp only
  split
  · exact .next h
  · split
    · refine .ite (.next h) (.ite (.next (.refuseCmd (.modConvoy h))) (.ite (.next (.refuseCmd h)) ?_))
      split
      · exact .ite (.next (.abandonPass (.joinPass h))) (.ite (.next (.abandonPass (.endCmd (.joinPass h))))
          (.next (.joinPass h)))
      · exact .ite (.next (.refuseCmd h)) (.next (.joinPass (.drew (.set h))))
    · exact .next h

theorem Safe.askGfx (h : Safe cs s) {p : Pass} : Safe cs (s.askGfx p) := .foldl h (fun _ _ h₁ => .modEng h₁)
theorem Safe.writePassState (h : Safe cs s) {p : Pass} : Safe cs (s.writePassState p) := .writeVa h

theorem Leaves.execGeometryPhaseStart (h : Safe cs s) {pass : Nat} : Leaves cs (execGeometryPhaseStart pass s) := by
  unfold Machine.execGeometryPhaseStart
  dsimp only
  split
  · exact .next h
  · split
    · exact .next h
    · refine .ite (.next h) ?_
      split
      · exact .next (.askGfx h)
      · split
        · exact .next (.stallPass (.out (.writeVa h)))
        · exact .next (.markAbsent (.foldl (.writePassState (.modPass (.out (.writeVa h))))
            (fun _ _ h₁ => .modEng h₁)))

/-- The equation is taken at the function, since the kernel would count chunks of 2 ^ 21 bytes out in unary to check
  the
unfolded one. -/
theorem Safe.nextChunk (h : Safe cs s) {p : Pass} : Safe cs (s.nextChunk p).2 := by
  have e : @State.nextChunk = @State.nextChunk := rfl
  conv at e => rhs; delta State.nextChunk
  have e := congrFun (congrFun e s) p
  extract_lets lo hi at e
  clear_value lo hi
  rw [e]
  split
  · exact h
  · refine .ite₂ h ?_
    split <;> exact .pair (.out (.translate h))

theorem Safe.allocManifest (h : Safe cs s) {p : Pass} {i n : Nat} : Safe cs (s.allocManifest p i n).2 := by
  have k := Safe.nextChunk h (p := p)
  unfold State.allocManifest
  obtain ⟨r, hr⟩ : ∃ r, s.nextChunk p = r := ⟨_, rfl⟩
  rw [hr] at k ⊢
  dsimp only
  split
  · exact h
  · split
    · refine .ite₂ h ?_
      split <;> exact k
    · split <;> exact k

theorem Safe.addEntry (h : Safe cs s) {p : Pass} {i : Nat} {x : Prim} {rec_ : Nat} {tile : Nat × Nat} :
    Safe cs (s.addEntry p i x rec_ tile).2 := by
  unfold State.addEntry
  dsimp only
  split
  · exact h
  · split
    · refine .ite₂ h ?_
      split <;> exact .pair (.out (.allocManifest h))
    · split <;> exact .pair (.out (.allocManifest h))

theorem Safe.manifest (h : Safe cs s) {p : Pass} {i : Nat} {d : DrawRec} {x : Prim} {tiles : List (Nat × Nat)} :
    Safe cs (s.manifest p i d x tiles).2 := by
  have k := Safe.allocManifest h (p := p) (i := i) (n := 64)
  unfold State.manifest
  obtain ⟨r, hr⟩ : ∃ r, s.allocManifest p i 64 = r := ⟨_, rfl⟩
  rw [hr] at k ⊢
  split
  · exact h
  · extract_lets first
    have kf : Safe cs first.2 := by
      unfold first
      split
      · exact h
      · split <;> exact k
    clear_value first
    split
    · exact kf
    · dsimp only
      split
      · exact .pair (.out (.allocManifest kf))
      · refine .foldl₂ (.pair (.out (.allocManifest kf))) fun st t h₁ => ?_
        split
        · exact h₁
        · split <;> exact .pair (.out (.addEntry h₁))

theorem Safe.growPass (h : Safe cs s) {id : Nat} {p : Pass} {i : Nat} {f : Front} {x : Prim} {d : DrawRec} :
    Safe cs (s.growPass id p i f x d) := by
  unfold State.growPass
  refine .modPass ?_
  split
  exacts [.pair (.set h), .ite₂ h (.pair (.set h))]

/-- The state that an attempt to bin ends in. -/
def Binned.state : Binned → State
  | .done s => s
  | .stuck s => s

theorem Safe.binPrim (h : Safe cs s) {id : Nat} {p : Pass} {i : Nat} {d : DrawRec} {x : Prim} :
    Safe cs (s.binPrim id p i d x).state := by
  unfold State.binPrim
  split
  · exact h
  · extract_lets bump count t tiles
    split
    · exact .progress (.modPass h)
    · split
      · exact .modPass (.out (.manifest h))
      · exact .growPass (.out (.manifest h))
      · rename_i t e
        have k : Safe cs t := .out (.manifest h)
        have kw : ∀ ws : Writes, Safe cs (ws.foldl (fun (st : (Except (Nat × Nat × Nat × Nat) Unit) × State) w =>
          match st with
            | (.error f, s) => (.error f, s)
            | (.ok _, s) => s.writeVa p.agent p.asid w.1 w.2 false) (.ok (), t)).2 := fun ws =>
          .foldl₂ k fun r w h₁ => by
            split
            · exact h₁
            · exact .writeVa h₁
        split
        · exact .stallPass (.out (kw _))
        · exact .progress (.ite (.modPass (.out (kw _))) (.writePassState (.modPass (.out (kw _)))))

theorem Safe.pump (h : Safe cs s) {id n : Nat} : Safe cs (s.pump id n) := by
  induction n generalizing s with
  | zero => exact h
  | succ n ih =>
    unfold State.pump
    dsimp only
    split
    · exact h
    · refine .ite h ?_
      split
      · exact h
      · rename_i p _ _ i d x _
        have k := Safe.binPrim h (id := id) (p := p) (i := i) (d := d) (x := x)
        split <;> rename_i e <;> rw [e] at k <;> exact ih k

theorem Safe.loadSample (h : Safe cs s) {p : Pass} {k x y i : Nat} : Safe cs (s.loadSample p k x y i).2 := by
  unfold State.loadSample
  dsimp only
  split <;> exact .pair (.out (.readVa h))

theorem Safe.startPixel (h : Safe cs s) {p : Pass} {x y : Nat} : Safe cs (s.startPixel p x y).2 := by
  unfold State.startPixel
  refine .foldl₂ h fun _ _ h₁ => ?_
  split
  · exact h₁
  · extract_lets a r
    have hr : Safe cs r.2 := by
      refine .foldl₂ h₁ fun _ _ h₂ => ?_
      split
      · exact h₂
      · refine .ite₂ ?_ (.ite₂ h₂ h₂)
        split <;> exact .pair (.out (.loadSample h₂))
    clear_value r
    refine .ite₂ h₁ ?_
    split <;> exact hr

theorem Safe.storePixel (h : Safe cs s) {p : Pass} {x y : Nat} {all : Bool} {v : PixVals} :
    Safe cs (s.storePixel p x y all v).2 := by
  unfold State.storePixel
  refine .foldl₂ h (fun _ _ h₁ => .ite₂ h₁ (.foldl₂ h₁ (fun _ _ h₂ => ?_)))
  split
  exacts [h₂, .writeVa h₂]

theorem Safe.renderTile (h : Safe cs s) {p : Pass} {ts : List Setup} {all : Bool} {tile : Nat × Nat} :
    Safe cs (s.renderTile p ts all tile).2 := by
  unfold State.renderTile
  refine .foldl₂ h (fun _ _ h₁ => .foldl₂ h₁ (fun _ _ h₂ => ?_))
  split
  · exact h₂
  · split
    · exact .pair (.out (.startPixel h₂))
    · split
      · exact .pair (.out (.startPixel h₂))
      · split <;> exact .pair (.out (.storePixel (.out (.startPixel h₂))))

theorem Safe.renderTiles (h : Safe cs s) {p : Pass} {all : Bool} {tiles : List (Nat × Nat)} :
    Safe cs (s.renderTiles p all tiles).2 := by
  unfold State.renderTiles
  refine .foldl₂ h (fun _ _ h₁ => ?_)
  split
  exacts [h₁, .renderTile h₁]

theorem Safe.settleIncrement (h : Safe cs s) {id : Nat} : Safe cs (s.settleIncrement id) := by
  unfold State.settleIncrement
  dsimp only
  split
  · exact h
  · refine .ite h ?_
    split
    exacts [h, .stallPass (.set h), .writePassState (.modPass (.writeVa (.out (.renderTiles h))))]

theorem Safe.runPass (h : Safe cs s) {id : Nat} : Safe cs (s.runPass id) := by
  unfold State.runPass
  split
  exacts [h, .loop h (fun _ _ h₁ => .settleIncrement (.pump h₁))]

theorem Safe.startIncrement (h : Safe cs s) {id : Nat} : Safe cs (s.startIncrement id) := .runPass (.modPass h)
theorem Safe.retryGrowth (h : Safe cs s) {id : Nat} : Safe cs (s.retryGrowth id) := .runPass (.modPass h)

theorem Safe.abortGrowth (h : Safe cs s) {id : Nat} : Safe cs (s.abortGrowth id) := by
  unfold State.abortGrowth
  split
  · exact h
  · refine .abandonPass ?_
    split
    exacts [.endCmd h, h]

theorem Leaves.execGrowWaitExpiry (h : Safe cs s) {pass : Nat} : Leaves cs (execGrowWaitExpiry pass s) := by
  unfold Machine.execGrowWaitExpiry
  split
  · exact .next h
  · split
    exacts [.next h, .ite (.next h) (.next (.startIncrement (.log (.closeFault h))))]

theorem Leaves.execDraw (h : Safe cs s) {queue : Half} : Leaves cs (execDraw queue s) := by
  unfold Machine.execDraw
  dsimp only
  split
  · exact .next h
  · split
    · exact .next (.refuseCmd h)
    · refine .ite (.next h) ?_
      split
      · exact .next (.stallPass (.out (.readVa h)))
      · exact .ite (.next (.abandonPass (.endCmd (.beginCmd (.out (.readVa h))))))
          (.next (.runPass (.beginCmd (.modPass (.out (.readVa h))))))

theorem Leaves.execPassEnd (h : Safe cs s) {queue : Half} : Leaves cs (execPassEnd queue s) := by
  unfold Machine.execPassEnd
  dsimp only
  split
  · exact .next h
  · split
    exacts [.next (.refuseCmd h), .next (.runPass (.beginCmd (.modPass h)))]

theorem Leaves.execTilesPhaseStart (h : Safe cs s) {pass : Nat} : Leaves cs (execTilesPhaseStart pass s) := by
  unfold Machine.execTilesPhaseStart
  split
  exacts [.next h, .ite (.next (.modPass h)) (.next h)]

theorem Safe.finishPass (h : Safe cs s) {id : Nat} {p : Pass} : Safe cs (s.finishPass id p) := by
  unfold State.finishPass
  refine .set (.foldl (.foldl h (fun _ _ h₁ => ?_)) (fun _ _ h₁ => .progress h₁))
  split
  exacts [h₁, .modEng (.modQueue (.foldl h₁ (fun _ _ h₂ => .endCmd h₂)))]

theorem Leaves.execPassRetirement (h : Safe cs s) {pass : Nat} : Leaves cs (execPassRetirement pass s) := by
  unfold Machine.execPassRetirement
  split
  · exact .next h
  · refine .ite (.next h) ?_
    split
    exacts [.next h, .next (.stallPass (.set h)), .next (.finishPass (.out (.renderTiles h)))]

theorem Leaves.execCommandRetire (h : Safe cs s) {queue : Half} : Leaves cs (execCommandRetire queue s) :=
  .retireFront (.sweepPasses h)

theorem Safe.fetchIndex (h : Safe cs s) {e asid : Nat} {d : DrawRec} {k : Nat} {ext : Option (List Byte)} :
    Safe cs (s.fetchIndex e asid d k ext).2 := by
  unfold State.fetchIndex
  refine .ite₂ h ?_
  split <;> exact .pair (.out (.readVaX h))

theorem SafeSome.launchString (h : Safe cs s) {e : Nat} {d : DrawRec} {kind : StrKind} {regs8 entry : Nat}
    {lanes : Word} {vregs : Map Word} {pixels cover : Map Nat} :
    SafeSome cs id (s.launchString e d kind regs8 entry lanes vregs pixels cover) :=
  .map (fun _ _ => .drew (.setEng h))

theorem Safe.launchVertex (h : Safe cs s) {e pass order : Nat} {verts : List Nat} {ext : Option (List Byte)} :
    Safe cs (s.launchVertex e pass order verts ext) := by
  unfold State.launchVertex
  split
  · exact h
  · split
    · exact h
    · refine .ite h ?_
      extract_lets r
      have hr : Safe cs r.2 := by
        refine .foldl₂ h fun _ _ k => ?_
        split
        · exact k
        · split <;> exact .pair (.out (.fetchIndex k))
      clear_value r
      split
      · exact .stallPass hr
      · refine .ite (.abandonPass (.endCmd hr)) ?_
        dsimp only
        split
        · exact hr
        · exact .modPass (.outSome (.launchString hr))

theorem Safe.launchFragment (h : Safe cs s) {e pass order prim : Nat} {quads : List Nat} :
    Safe cs (s.launchFragment e pass order prim quads) := by
  unfold State.launchFragment
  dsimp only
  split
  · exact h
  · split
    exacts [h, .ite h (.getD (.launchString h) h)]

theorem Leaves.execWorkgroupLaunch (h : Safe cs s) {engine : Fin 32} {launch : Launch} {ext : Option (List Byte)} :
    Leaves cs (execWorkgroupLaunch engine launch ext s) := by
  unfold Machine.execWorkgroupLaunch
  refine .ite (.next h) ?_
  split
  · split
    exacts [.next (.launchCompute h), .next h]
  · exact .next (.launchVertex h)
  · exact .next (.launchFragment h)

theorem Leaves.execStringFree (h : Safe cs s) {w : Site} : Leaves cs (execStringFree w s) := by
  unfold Machine.execStringFree
  dsimp only
  split
  · exact .next h
  · refine .ite (.next h) ?_
    split
    · exact .next (.checkDisp (.freeStr h))
    · exact .next (.runPass (.freeStr h))
    · exact .next (.runPass (.freeStr h))

/-! ### `Machine/TileAccess.lean` -/

theorem Safe.tlaLane (h : Safe cs s) {p : Pass} {ts : List Setup} {t : Setup} {px att i : Nat} {ordered : Bool} :
    Safe cs (s.tlaLane p ts t px att i ordered).2 := by
  unfold State.tlaLane
  refine .ite₂ (.pair (.drew h)) (.ite₂ (.pair (.drew h)) ?_)
  split
  · exact .pair (.out (.startPixel h))
  · split <;> exact .pair (.out (.startPixel h))

theorem Leaves.execTla (h : Safe cs s) {w : Site} {h' : Hdr} {att : Fin 5} {sample : Fin 8} {ordered : Bool} :
    Leaves cs (execTla w h' att sample ordered s) := by
  unfold Machine.execTla
  dsimp only
  refine .issue h (fun _ _ h₁ => ?_)
  split
  · exact h
  · refine .ite h ?_
    split
    · refine .setStr (.out (.foldl₂ h₁ (fun _ _ h₂ => ?_)))
      split
      · exact h₂
      · split <;> exact .pair (.out (.tlaLane h₂))
    · exact .stallPass (.set h)
    · exact h

theorem Leaves.execTsa (h : Safe cs s) {w : Site} {h' : Hdr} {att : Fin 5} {sample : Fin 8} {ordered : Bool} :
    Leaves cs (execTsa w h' att sample ordered s) := by
  unfold Machine.execTsa
  refine .issue h (fun _ _ h₁ => ?_)
  split
  exacts [h, .ite h (.setStr (.modPass h₁))]

theorem Safe.tileBytes (h : Safe cs s) {e off n : Nat} : Safe cs (s.tileBytes e off n).2 := .ite₂ (.pair (.drew h)) h

theorem Safe.setTileBytes (h : Safe cs s) {e off : Nat} {l : List Byte} : Safe cs (s.setTileBytes e off l) :=
  .ite h (.foldl (.modEng h) (fun _ _ h₁ => .foldl h₁ (fun _ _ h₂ => .drew (.modEng h₂))))

theorem Leaves.execTldr (h : Safe cs s) {w : Site} {h' : Hdr} {size : Fin 3} : Leaves cs (execTldr w h' size s) := by
  unfold Machine.execTldr
  dsimp only
  exact .issue h (fun _ _ h₁ => .ite (.trap h₁) (.setStr (.foldl₂ h₁ (fun _ _ h₂ => .pair (.tileBytes h₂)))))

theorem Leaves.execTstr (h : Safe cs s) {w : Site} {h' : Hdr} {size : Fin 3} : Leaves cs (execTstr w h' size s) := by
  unfold Machine.execTstr
  exact .issue h (fun _ _ h₁ => .ite (.trap h₁) (.setStr (.foldl h₁ (fun _ _ h₂ => .setTileBytes h₂))))

/-! ### `Machine/Texture.lean` -/

theorem Safe.texRead (h : Safe cs s) {e : Nat} {x : LaneAddr} {n : Nat} {ext : Option (List Byte)} :
    Safe cs (s.texRead e x n ext).2 := by
  unfold State.texRead
  dsimp only
  exact .ite₂ (.pair (.l1Read h)) h

theorem Safe.texEnv (h : Safe cs s) {a : Act} {t : TexOps} {sampler : Bool} {ext : Option (List Byte)} :
    Safe cs (s.texEnv a t sampler ext).2 := by
  unfold State.texEnv
  refine .ite₂ h ?_
  split
  · exact .pair (.out (.readVaX h))
  · refine .ite₂ (.pair (.out (.readVaX h))) (.ite₂ (.pair (.out (.readVaX h))) ?_)
    split
    · exact .pair (.out (.readVaX (.out (.readVaX h))))
    · exact .ite₂ (.pair (.out (.readVaX (.out (.readVaX h))))) (.pair (.out (.readVaX (.out (.readVaX h)))))

theorem Safe.texStop (h : Safe cs s) {a : Act} {x : TexStop} : Safe cs (s.texStop a x) := by
  unfold State.texStop
  split
  exacts [.park h, .trap h]

theorem Safe.texRun (h : Safe cs s) {a : Act} {t : TexOps} {v : TexEnv} {plans : List (Nat × TexPlan)} {u : Use} :
    Safe cs (s.texRun a t v plans u) := by
  unfold State.texRun
  dsimp only
  split
  · exact .park (.out (.translateLanes h))
  · refine .ite (.trap (.foldl₂ (.pair (.bump (.out (.translateLanes h)))) ?lane))
      (.setStr (.drew (.foldl₂ (.pair (.bump (.out (.translateLanes h)))) ?lane)))
    case lane =>
      refine fun r p h₁ => .foldl₂ (.pair h₁) fun g x h₂ => ?_
      split
      · exact .pair (.texRead h₂)
      · exact .pair h₂

theorem Leaves.execTex (h : Safe cs s) {w : Site} {hd : Hdr} {t : TexOps} {ext : Option (List Byte)} {extra : Nat}
    {sampler : Bool} {plan : Act → State → TexEnv → TexFmt → Nat → TexPlan} :
    Leaves cs (s.execTex w hd t ext extra sampler plan) := by
  unfold State.execTex
  refine .issue h fun _ _ h₁ => ?_
  split
  · exact .texStop (.out (.texEnv h₁))
  · exact .texRun (.out (.texEnv h₁))

theorem Leaves.execTexb (h : Safe cs s) {w : Site} {h' : Hdr} {t : TexOps} {ext : Option (List Byte)} :
    Leaves cs (execTexb w h' t ext s) :=
  .execTex h

theorem Leaves.execTexl (h : Safe cs s) {w : Site} {h' : Hdr} {t : TexOps} {ext : Option (List Byte)} :
    Leaves cs (execTexl w h' t ext s) :=
  .execTex h

theorem Leaves.execTexg (h : Safe cs s) {w : Site} {h' : Hdr} {t : TexOps} {ext : Option (List Byte)} :
    Leaves cs (execTexg w h' t ext s) :=
  .execTex h

theorem Leaves.execTld (h : Safe cs s) {w : Site} {h' : Hdr} {t : TexOps} {ext : Option (List Byte)} :
    Leaves cs (execTld w h' t ext s) :=
  .execTex h

theorem Leaves.execTg4 (h : Safe cs s) {w : Site} {h' : Hdr} {t : TexOps} {ext : Option (List Byte)} :
    Leaves cs (execTg4 w h' t ext s) :=
  .execTex h

theorem Leaves.execTq (h : Safe cs s) {w : Site} {h' : Hdr} {t : TexOps} {ext : Option (List Byte)} :
    Leaves cs (execTq w h' t ext s) := by
  unfold Machine.execTq
  refine .issue h (fun _ _ h₁ => ?_)
  split
  exacts [.texStop (.out (.texEnv h₁)), .setStr (.out (.texEnv h₁))]

/-! ### `Machine/Rays.lean` -/

theorem Safe.qRead (h : Safe cs s) {a : Act} {va n : Nat} {ext : Option (List Byte)} :
    Safe cs (s.qRead a va n ext).2 := by
  unfold State.qRead
  split
  · exact .pair (.out (.readVaX h))
  · exact .ite₂ (.pair (.out (.readVaX h))) (.pair (.out (.readVaX h)))

theorem Safe.qInst (h : Safe cs s) {a : Act} {r : Rq} {ext : Option (List Byte)} : Safe cs (s.qInst a r ext).2 := by
  unfold State.qInst
  refine .ite₂ h ?_
  split <;> exact .pair (.out (.qRead h))

theorem Safe.rqStep (h : Safe cs s) {a : Act} {r : Rq} {ext : Option (List Byte)} : Safe cs (s.rqStep a r ext).2 := by
  unfold State.rqStep
  dsimp only
  split
  · exact h
  · refine .ite₂ h ?_
    split
    · exact h
    · exact h
    · split
      · exact .pair (.out (.qInst h))
      · split
        · exact .pair (.out (.qRead (.out (.qInst h))))
        · exact .pair (.draw (.out (.qRead (.out (.qInst h)))))

theorem Safe.rqRun (h : Safe cs s) {a : Act} {r : Rq} {ext : Option (List Byte)} {n : Nat} :
    Safe cs (s.rqRun a r ext n).2 := by
  induction n generalizing s r ext with
  | zero => exact h
  | succ n ih =>
    unfold State.rqRun
    refine .ite₂ (.pair h) ?_
    split
    · exact .pair (.out (.rqStep h))
    · exact .pair (.out (.rqStep h))
    · exact ih (.out (.rqStep h))

theorem Leaves.execRq (h : Safe cs s) {w : Site} {h' : Hdr} {u : Use} {f : Act → Nat → Rq → Rq} :
    Leaves cs (s.execRq w h' u f) := by
  unfold Machine.State.execRq
  refine .issue h (fun _ _ h₁ => ?_)
  split
  exacts [h₁, .setStr (.setWg h₁)]

theorem Leaves.execRqInit (h : Safe cs s) {w : Site} {h' : Hdr} : Leaves cs (execRqInit w h' s) := .execRq h
theorem Leaves.execRqConfirm (h : Safe cs s) {w : Site} {h' : Hdr} : Leaves cs (execRqConfirm w h' s) := .execRq h
theorem Leaves.execRqGenhit (h : Safe cs s) {w : Site} {h' : Hdr} : Leaves cs (execRqGenhit w h' s) := .execRq h

theorem Leaves.execRqTerminate (h : Safe cs s) {w : Site} {h' : Hdr} : Leaves cs (execRqTerminate w h' s) :=
  .execRq h

theorem Safe.qStop (h : Safe cs s) {a : Act} {e : QErr} : Safe cs (s.qStop a e) := by
  unfold State.qStop
  split
  exacts [.park h, .trap h]

theorem Leaves.execRqProceed (h : Safe cs s) {w : Site} {h' : Hdr} {ext : Option (List Byte)} :
    Leaves cs (execRqProceed w h' ext s) := by
  unfold Machine.execRqProceed
  obtain ⟨n, hn⟩ : ∃ n, nodeFuel = n := ⟨_, rfl⟩
  rw [hn]
  refine .issue h fun a t ht => ?_
  split
  · exact h
  · extract_lets r
    have hr : Safe cs r.2 := by
      refine .foldl₂ ht fun _ _ k => ?_
      split
      · exact k
      · exact k
      · dsimp only
        split <;> exact .pair (.out (.rqRun k))
    clear_value r
    split
    · exact .qStop hr
    · exact h
    · exact .setStr (.setWg hr)

theorem Leaves.execRqGet (h : Safe cs s) {w : Site} {h' : Hdr} {committed : Bool} {field : RqField}
    {ext : Option (List Byte)} : Leaves cs (execRqGet w h' committed field ext s) := by
  unfold Machine.execRqGet
  refine .issue h fun a t ht => ?_
  split
  · exact h
  · extract_lets r
    have hr : Safe cs r.2 := by
      refine .foldl₂ ht fun _ _ k => ?_
      split
      · exact k
      · refine .ite₂ (.pair (.drew k)) ?_
        split
        · exact .pair (.out (.qRead k))
        · have k₁ := Safe.out (.qRead k) ‹_›
          refine .ite₂ (.pair (.drew k₁)) ?_
          split
          · exact .pair (.out (.qRead k₁))
          · exact .pair (.drew (.out (.qRead k₁)))
    clear_value r
    split
    · exact .qStop hr
    · exact .setStr hr

theorem Safe.pqRun (h : Safe cs s) {a : Act} {q : Pq} {stack : List Nat} {found : Found} {ext : Option (List Byte)}
    {n : Nat} :
    Safe cs (s.pqRun a q stack found ext n).2 := by
  induction n generalizing s stack found ext with
  | zero => exact h
  | succ n ih =>
    unfold State.pqRun
    dsimp only
    split
    · exact .pair h
    · split
      · exact ih h
      · exact .pair h
      · split
        · exact .pair (.out (.qRead h))
        · exact .ite₂ (ih (.out (.qRead h))) (.ite₂ (.pair (.draw (.out (.qRead h)))) (ih (.draw (.out (.qRead h)))))

theorem Safe.strWrite (h : Safe cs s) {a : Act} {va : Nat} {l : List Byte} : Safe cs (s.strWrite a va l).2 := by
  unfold State.strWrite
  dsimp only
  split
  · exact .pair (.out (.pieces h))
  · refine .pair (.foldl₂ (.pair (.out (.pieces h))) (fun _ _ h₁ => ?_))
    split
    exacts [.foldl h₁ (fun _ _ h₂ => .l1Write h₂), .hostWrite h₁, .cvlStore h₁]

theorem Leaves.execPq (h : Safe cs s) {w : Site} {hd : Hdr} {ext : Option (List Byte)}
    {pick : Pq → Found → Nat → Found × Nat × Nat} : Leaves cs (s.execPq w hd ext pick) := by
  unfold State.execPq
  obtain ⟨n, hn⟩ : ∃ n, nodeFuel = n := ⟨_, rfl⟩
  rw [hn]
  refine .issue h fun a t ht => ?_
  extract_lets a t r area
  have hd : Safe cs t := .drew ht
  refine .ite (.trap hd) ?_
  split
  · exact h
  · have hr : Safe cs r.2 := by
      refine .foldl₂ (.pair hd) fun r i h₁ => ?_
      split
      · exact h₁
      · exact h₁
      · dsimp only
        split
        · exact .pair (.out (.pqRun h₁))
        · exact .pair (.out (.pqRun h₁))
        · exact .pair (.drew (.out (.pqRun h₁)))
    clear_value r
    split
    · exact .qStop hr
    · exact h
    · extract_lets pages
      have hp : Safe cs pages.2 := by
        refine .foldl₂ hr fun r x h₁ => ?_
        split
        · exact h₁
        · refine .ite₂ h₁ ?_
          split <;> exact .pair (.out (.pieces h₁))
      clear_value pages
      split
      · exact .qStop hp
      · extract_lets done
        have hw : Safe cs done.2 := .foldl₂ hp fun r x h₁ => .ite₂ (.drew h₁) (.strWrite (.drew h₁))
        exact .setStr (.setWg hw)

theorem Leaves.execPqKnn (h : Safe cs s) {w : Site} {h' : Hdr} {ext : Option (List Byte)} :
    Leaves cs (execPqKnn w h' ext s) :=
  .execPq h

theorem Leaves.execPqRadius (h : Safe cs s) {w : Site} {h' : Hdr} {ext : Option (List Byte)} :
    Leaves cs (execPqRadius w h' ext s) :=
  .execPq h

/-! ### `Machine/Jobs.lean` -/

theorem SafeSome.jobRun (h : Safe cs s) {q op : Nat} : SafeSome cs (fun r => r.2.2.2) (s.jobRun q op) := by
  unfold State.jobRun
  dsimp only
  split
  · exact .none
  · split
    · split
      · exact .ite (.some h) .none
      · exact .none
    · split
      · exact .none
      · exact .ite .none (.some (.set (.beginCmd h)))

theorem Safe.jobFault (h : Safe cs s) {v : Queue} {c : Cmd} {j : Job} {acc : Acc} {f : Nat × Nat × Nat × Nat} :
    Safe cs (s.jobFault v c j acc f) := by
  unfold State.jobFault
  refine .set ?_
  split
  exacts [.pair (.set h), .ite₂ h (.pair (.set h))]

theorem Safe.jobEnd (h : Safe cs s) {v : Queue} {j : Job} {err : Nat} : Safe cs (s.jobEnd v j err) := .endCmd (.set h)

theorem Safe.moveBytes (h : Safe cs s) {v : Queue} {src : Option Nat} {dst n pattern : Nat} {ext : Option (List Byte)}
    {done fuel : Nat} : Safe cs (s.moveBytes v src dst n pattern ext done fuel).2 := by
  induction fuel generalizing s ext done with
  | zero => exact h
  | succ fuel ih =>
    unfold State.moveBytes
    refine .ite₂ (.pair h) ?_
    extract_lets len₀ len r
    have hr : Safe cs r.2 := by
      unfold r
      split
      · exact h
      · split
        · exact .pair (.out (.readVaX h))
        · exact .ite₂ (.pair (.drew (.out (.readVaX h)))) (.pair (.out (.readVaX h)))
    clear_value r
    split
    · exact hr
    · refine .ite₂ hr ?_
      split
      · exact .pair (.out (.writeVa hr))
      · exact ih (.out (.writeVa hr))

theorem Leaves.runMove (h : Safe cs s) {q op : Nat} {src : Cmd → Option Nat} {dst n pattern : Cmd → Nat}
    {host : Option (List Byte)} : Leaves cs (s.runMove q op src dst n pattern host) := by
  unfold State.runMove
  split
  · exact .next h
  · rename_i t e
    have k : Safe cs t := SafeSome.jobRun h _ e
    split
    · exact .next (.jobEnd (.progress (.out (.moveBytes k))))
    · exact .next (.jobEnd (.out (.moveBytes k)))
    · exact .next (.jobFault (.out (.moveBytes k)))

theorem Leaves.execCopy (h : Safe cs s) {queue : Half} {host : Option (List Byte)} :
    Leaves cs (execCopy queue host s) :=
  .runMove h

theorem Leaves.execFill (h : Safe cs s) {queue : Half} {host : Option (List Byte)} :
    Leaves cs (execFill queue host s) :=
  .runMove h

theorem Safe.cmpFinish (h : Safe cs s) {v : Queue} {c : Cmd} {j : Job} {x : CmpJob} {r : CmpResult} :
    Safe cs (s.cmpFinish v c j x r) := by
  unfold State.cmpFinish
  extract_lets w
  have hw : Safe cs w.2 := .ite₂ (.writeVa h) (.pair (.scramble h))
  clear_value w
  split
  · exact .jobFault hw
  · extract_lets rec t
    have ht : Safe cs t := .drew hw
    split
    · exact .jobFault (.out (.ite₂ (.pair ht) (.writeVa ht)))
    · exact .jobEnd (.progress (.bump (.bump (.out (.ite₂ (.pair ht) (.writeVa ht))))))

theorem Safe.cmpRead (h : Safe cs s) {v : Queue} {va n : Nat} {ext : Option (List Byte)} :
    Safe cs (s.cmpRead v va n ext).2 := by
  unfold State.cmpRead
  split <;> exact .pair (.out (.readVaX h))

theorem Leaves.runCmp (h : Safe cs s) {n op : Nat} {host : Option (List Byte)}
    {body : State → Queue → CmpJob → List Byte → Option (List Byte) → Except (Nat × Nat × Nat × Nat) CmpResult ×
      State}
    (k : ∀ t v x d e, Safe cs t → Safe cs (body t v x d e).2) : Leaves cs (s.runCmp n op host body) := by
  unfold State.runCmp
  split
  · exact .next h
  · rename_i t e
    have ht : Safe cs t := SafeSome.jobRun h _ e
    dsimp only
    split
    · exact .next (.jobFault (.out (.cmpRead ht)))
    · have hd := Safe.out (Safe.cmpRead ht) ‹_›
      refine .ite (.next (.cmpFinish hd)) ?_
      split
      · exact .next (.jobFault (.out (k _ _ _ _ _ hd)))
      · exact .next (.cmpFinish (.out (k _ _ _ _ _ hd)))

theorem Leaves.execCompress (h : Safe cs s) {queue : Half} {host : Option (List Byte)} :
    Leaves cs (execCompress queue host s) := by
  unfold Machine.execCompress
  refine .runCmp h (fun _ _ _ _ _ h₁ => ?_)
  split
  · exact .pair (.out (.cmpRead h₁))
  · exact .ite₂ (.pair (.drew (.out (.cmpRead h₁)))) (.pair (.drew (.out (.cmpRead h₁))))

theorem Safe.inflateFrom (h : Safe cs s) {v : Queue} {x : CmpJob} {dict got : List Byte} {ext : Option (List Byte)}
    {n : Nat} :
    Safe cs (s.inflateFrom v x dict got ext n).2 := by
  induction n generalizing s got ext with
  | zero => exact h
  | succ n ih =>
    unfold State.inflateFrom
    dsimp only
    split
    · exact .pair h
    · refine .ite₂ (.pair h) ?_
      split
      · exact .pair (.out (.cmpRead h))
      · exact .ite₂ (.pair (.out (.cmpRead h))) (ih (.out (.cmpRead h)))

theorem Leaves.execDecompress (h : Safe cs s) {queue : Half} {host : Option (List Byte)} :
    Leaves cs (execDecompress queue host s) :=
  .runCmp h (fun _ _ _ _ _ h₁ => .inflateFrom h₁)

theorem Safe.failJob (h : Safe cs s) {unit err : Nat} : Safe cs (s.failJob unit err) := by
  unfold State.failJob
  split
  · exact h
  · split
    · exact .ite (.jobEnd h) (.jobEnd (.ite (.scramble (.drew h)) (.writeVa (.scramble (.drew h)))))
    · exact .set h

/-! ### `Machine/Sched.lean` -/

theorem Safe.setFloor (h : Safe cs s) {e tns : Nat} : Safe cs (s.setFloor e tns) := by
  unfold State.setFloor
  exact .modEng (.loseGranules h)

theorem Leaves.execPartitionSet (h : Safe cs s) {pair : Fin 8} : Leaves cs (execPartitionSet pair s) := by
  unfold Machine.execPartitionSet
  refine .mbxCmd h fun r t ht => ?_
  extract_lets p quads gfx tns slice park share others busy epoch n
  have he : ∀ t, Safe cs t → Safe cs (epoch t) := fun t ht => .modSch ht
  clear_value epoch
  refine .ite₂ ht ?_
  split
  · refine .ite₂ (.modPart ht) (.ite₂ ht (.ite₂ (he _ (.unreserve (.set ht))) ?_))
    split
    · exact ht
    · exact he _ (.foldl (.set (.outSome₂ (.reserve (.unreserve ht)))) fun _ _ h₁ => .setFloor h₁)
  · refine .ite₂ ht ?_
    split
    · exact ht
    · exact he _ (.foldl (.set (.outSome₂ (.reserve ht))) fun _ _ h₁ => .setFloor h₁)

theorem Leaves.execConvoyCreate (h : Safe cs s) {pair : Fin 8} : Leaves cs (execConvoyCreate pair s) := by
  unfold Machine.execConvoyCreate
  refine .mbxCmd h (fun _ _ h₁ => .ite₂ h₁ ?_)
  split
  · exact h₁
  · refine .ite₂ h₁ ?_
    split
    exacts [h₁, .pair (.set (.outSome₂ (.pick h₁)))]

theorem Leaves.execConvoyDestroy (h : Safe cs s) {pair : Fin 8} : Leaves cs (execConvoyDestroy pair s) := by
  unfold Machine.execConvoyDestroy
  refine .mbxCmd h (fun _ _ h₁ => .ite₂ h₁ ?_)
  split
  exacts [h₁, .ite₂ h₁ (.pair (.modPart (.set h₁)))]

theorem Leaves.execConvoySetShare (h : Safe cs s) {pair : Fin 8} : Leaves cs (execConvoySetShare pair s) := by
  unfold Machine.execConvoySetShare
  refine .mbxCmd h (fun _ _ h₁ => .ite₂ h₁ ?_)
  split
  exacts [h₁, .ite₂ h₁ (.pair (.modConvoy (.ite (.foldl h₁ (fun _ _ h₂ => .settle h₂)) h₁)))]

theorem Safe.tableBytes (h : Safe cs s) {asid va n : Nat} {ext : Option (List Byte)} :
    Safe cs (s.tableBytes asid va n ext).2 := by
  unfold State.tableBytes
  split <;> exact .pair (.out (.readVaX h))

theorem Safe.tablePoint (h : Safe cs s) {asid : Nat} {b : List Byte} {engines : List Nat} {ext : Option (List Byte)} :
    Safe cs (s.tablePoint asid b engines ext).2 := by
  unfold State.tablePoint
  refine .ite₂ h ?_
  split
  · exact .pair (.out (.tableBytes h))
  · extract_lets streams r
    have hr : Safe cs r.2 := by
      refine .foldl₂ (.pair (.out (.tableBytes h))) fun _ _ k => ?_
      split <;> exact .pair (.out (.translate k))
    exact .ite₂ (.pair hr) (.pair hr)

theorem Safe.fallbackTable (h : Safe cs s) {c va : Nat} {ext : Option (List Byte)} :
    Safe cs (s.fallbackTable c va ext).2 := by
  unfold State.fallbackTable
  dsimp only
  split
  · exact h
  · split
    · exact .pair (.out (.tableBytes h))
    · have h₁ := Safe.out (.tableBytes h) ‹_›
      refine .ite₂ (.pair h₁) ?_
      split
      · exact .pair (.out (.tableBytes h₁))
      · have h₂ := Safe.out (.tableBytes h₁) ‹_›
        split
        · exact .pair h₂
        · refine .pair (.foldl₂ (.pair h₂) fun _ _ k => ?_)
          split
          · exact k
          · split
            · exact .pair (.out (.tablePoint k))
            · exact .ite₂ (.pair (.out (.tablePoint k))) (.pair (.out (.tablePoint k)))

theorem Leaves.execConvoySetTimed (h : Safe cs s) {pair : Fin 8} {buf : Option (List Byte)} :
    Leaves cs (execConvoySetTimed pair buf s) := by
  unfold Machine.execConvoySetTimed
  refine .mbxCmd h (fun _ _ h₁ => .ite₂ h₁ ?_)
  split
  · exact h₁
  · refine .ite₂ (.pair (.ite h₁ (.ite (.modConvoy h₁) (.tryRelease (.dropStarts (.modConvoy h₁))))))
      (.ite₂ h₁ (.ite₂ h₁ ?_))
    split
    · exact .pair (.out (.fallbackTable h₁))
    · exact .pair (.ite (.modConvoy (.out (.fallbackTable h₁)))
        (.tryRelease (.dropStarts (.modConvoy (.out (.fallbackTable h₁))))))

theorem Safe.chargeAll (h : Safe cs s) : Safe cs s.chargeAll := .foldl h (fun _ _ h₁ => .chargePoint h₁)

theorem Leaves.execContextRead (h : Safe cs s) {pair : Fin 8} : Leaves cs (execContextRead pair s) :=
  .mbxCmd h (fun _ _ h₁ => .ite₂ h₁ (.ite₂ h₁ (.pair (.output (.writePhys (.chargeAll h₁))))))

theorem Leaves.execChargePointTick (h : Safe cs s) {partition : Fin 8} :
    Leaves cs (execChargePointTick partition s) :=
  .ite (.next (.chargePoint h)) (.next h)

theorem Safe.forgetTile (h : Safe cs s) {e : Nat} : Safe cs (s.forgetTile e) := .drew (.modEng h)

theorem Safe.becomeResident (h : Safe cs s) {p c : Nat} : Safe cs (s.becomeResident p c) := by
  unfold State.becomeResident
  split
  · exact h
  · exact .ite (.modPart (.modSch h)) (.foldl (.modPart (.modSch h)) (fun _ _ h₁ => .modEng h₁))

theorem Leaves.execSliceEnd (h : Safe cs s) {partition : Fin 8} : Leaves cs (execSliceEnd partition s) := by
  unfold Machine.execSliceEnd
  dsimp only
  split
  exacts [.next h, .ite (.next h) (.next (.reschedule (.modPart (.chargePoint h))))]

theorem Leaves.execConvoyUnreadyReschedule (h : Safe cs s) {partition : Fin 8} :
    Leaves cs (execConvoyUnreadyReschedule partition s) := by
  unfold Machine.execConvoyUnreadyReschedule
  dsimp only
  split
  exacts [.next h, .ite (.next h) (.next (.reschedule h))]

theorem Leaves.execBoundarySwitch (h : Safe cs s) {partition : Fin 8} :
    Leaves cs (execBoundarySwitch partition s) := by
  unfold Machine.execBoundarySwitch
  dsimp only
  split
  · exact .next h
  · split
    · exact .next h
    · exact .ite (.next h) (.next (.becomeResident (.foldl (.chargePoint h)
        (fun _ _ h₁ => .forgetTile (.modEng h₁)))))

theorem Safe.force (h : Safe cs s) {p victim : Nat} {next : Option Nat} : Safe cs (s.force p victim next) := by
  unfold State.force
  split
  exacts [h, .ite h (.modSch (.modPart (.foldl h (fun _ _ h₁ => .modEng h₁))))]

theorem Leaves.execGracePeriodExpiry (h : Safe cs s) {partition : Fin 8} :
    Leaves cs (execGracePeriodExpiry partition s) := by
  unfold Machine.execGracePeriodExpiry
  dsimp only
  split
  · exact .next h
  · split
    exacts [.ite (.next h) (.next (.force h)), .next h]

theorem Leaves.execParkLimitExpiry (h : Safe cs s) {fault : Nat} : Leaves cs (execParkLimitExpiry fault s) := by
  unfold Machine.execParkLimitExpiry
  split
  · exact .next h
  · split
    · exact .next h
    · split
      exacts [.ite (.next (.force h)) (.next h), .next h]

theorem Safe.chargePreempt (h : Safe cs s) {es : List Nat} {since : Nat} : Safe cs (s.chargePreempt es since) := by
  unfold State.chargePreempt
  refine .foldl h (fun _ _ h₁ => ?_)
  split
  exacts [.modAccount h₁, h₁]

theorem Safe.markPreempted (h : Safe cs s) {c : Nat} : Safe cs (s.markPreempted c) :=
  .foldl h (fun _ _ h₁ => .modQueue h₁)

theorem Leaves.execPreemptionSaveComplete (h : Safe cs s) {partition : Fin 8} :
    Leaves cs (execPreemptionSaveComplete partition s) := by
  unfold Machine.execPreemptionSaveComplete
  extract_lets p es owed
  split
  · exact .next h
  · split
    · exact .next h
    · extract_lets s₁ ctxs s₂ slot s₃ s₄
      have h₂ : Safe cs s₂ := .foldl (.chargePreempt (.chargePoint h)) fun _ _ k => .modAccount k
      have h₃ : Safe cs s₃ := .foldl (.markPreempted h₂) fun _ _ k => .forgetTile (.modEng k)
      have h₄ : Safe cs s₄ := .modPart h₃
      refine .ite (.next h) ?_
      split
      · exact .next (.becomeResident h₄)
      · exact .next h₄

theorem Leaves.execConvoyRestore (h : Safe cs s) {partition : Fin 8} : Leaves cs (execConvoyRestore partition s) := by
  unfold Machine.execConvoyRestore
  dsimp only
  split
  · exact .next h
  · split
    · exact .next h
    · split
      · exact .next h
      · refine .ite (.next h) (.next (.modPart (.foldl (.chargePreempt (.foldl h (fun _ _ h₁ => ?_)))
          (fun _ _ h₁ => .modEng h₁))))
        split
        exacts [.modEng h₁, h₁]

theorem Safe.discard (h : Safe cs s) {p : Nat} : Safe cs (s.discard p) :=
  .modPart (.orphan (.foldl h (fun _ _ h₁ => .forgetTile (.modEng h₁))))

/-! ### `Machine/Deliver.lean` -/

theorem Safe.unblockRelease (h : Safe cs s) {e place : Nat} : Safe cs (s.unblockRelease e place) := .ite h (.modStr h)

theorem Safe.deliverTo (h : Safe cs s) {d : NpDest} {data : List Byte} {bad : Bool} :
    Safe cs (s.deliverTo d data bad) := by
  unfold State.deliverTo
  split
  · split
    exacts [.send h, h]
  · split
    · exact h
    · split
      · exact .ite (.trap h) (.setStr h)
      · exact .ite (.trap h) (.unblockRelease (.ite (.setStr h) h))
      · exact .ite (.trap h) (.unblockRelease (.ite (.setStr (.set h)) (.set h)))
      · exact .unblockRelease h
      · exact h
      · exact h

theorem Safe.dropSignal (h : Safe cs s) {q cmd : Nat} : Safe cs (s.dropSignal q cmd) := by
  unfold State.dropSignal
  split
  · split
    · exact h
    · refine .finishRetire (.modCmd ?_)
      split
      exacts [.pair (.out (.writeVa (.log h))), .pair (.log (.out (.writeVa (.log h))))]
  · exact h

theorem Safe.resendSignal (h : Safe cs s) {q cmd : Nat} : Safe cs (s.resendSignal q cmd) := by
  unfold State.resendSignal
  split
  · exact h
  · split
    exacts [h, .ite (.dropSignal h) (.getD (.cvlRequest h) h)]

theorem Safe.fillRemote (h : Safe cs s) {r : CvlReq} {data : List Byte} : Safe cs (s.fillRemote r data) := by
  unfold State.fillRemote
  split
  exacts [h, .fillLine (.modEng h)]

theorem Safe.endReq (h : Safe cs s) {tag : Nat} {data : List Byte} {bad : Bool} : Safe cs (s.endReq tag data bad) :=
    by
  unfold State.endReq
  split
  · exact h
  · split
    · exact .ite (.resendSignal (.set h)) (.set h)
    · exact .deliverTo (.ite (.fillRemote (.set h)) (.set h))

theorem Safe.losePort (h : Safe cs s) {p : Nat} : Safe cs (s.losePort p) := .foldl h (fun _ _ h₁ => .endReq h₁)
theorem Safe.dropLink (h : Safe cs s) {p : Nat} : Safe cs (s.dropLink p) := .losePort (.modPort h)

theorem Safe.portDown (h : Safe cs s) {p : Nat} : Safe cs (s.portDown p) := by
  unfold State.portDown
  exact .recordFaultBy (.dropLink (.modPort h))

/-! ### `Machine/Fencing.lean` -/

theorem Safe.modPipe (h : Safe cs s) {p : Nat} {f : Pipe → Pipe} : Safe cs (s.modPipe p f) := .set h
theorem Safe.modSlice (h : Safe cs s) {i : Nat} {f : Slice → Slice} : Safe cs (s.modSlice i f) := .set h

theorem Safe.loseSr (h : Safe cs s) {i kind index ways : Nat} : Safe cs (s.loseSr i kind index ways) :=
  .ite h (.report (.modSlice h))

theorem Safe.returnSr (h : Safe cs s) {sl w : Nat} : Safe cs (s.returnSr sl w) :=
  .modSlice (h.mem (wf_filter _ _ h.1.mem))

theorem Safe.sliceOff (h : Safe cs s) {i : Nat} : Safe cs (s.sliceOff i) := .loseSr (.modSlice (.flushWays h))

theorem Safe.enterFence (h : Safe cs s) {kind index code : Nat} {software : Bool} :
    Safe cs (s.enterFence kind index code software) :=
  .capChanged (.noting (.set h))

theorem Safe.checkSlice (h : Safe cs s) {i : Nat} : Safe cs (s.checkSlice i) := .ite (.enterFence h) h

theorem Safe.wayOff (h : Safe cs s) {i w : Nat} : Safe cs (s.wayOff i w) :=
  .ite h (.checkSlice (.ite (.loseSr (.modSlice (.flushWays h))) (.modSlice (.flushWays h))))

theorem Safe.wayOn (h : Safe cs s) {i w : Nat} : Safe cs (s.wayOn i w) := .ite (.returnSr (.modSlice h)) (.modSlice h)

theorem Safe.sliceOn (h : Safe cs s) {i : Nat} : Safe cs (s.sliceOn i) :=
  .checkSlice (.foldl (.modSlice (.foldl h (fun _ _ h₁ => .evict h₁))) (fun _ _ h₁ => .returnSr h₁))

theorem Safe.breakMember (h : Safe cs s) {m : Nat} : Safe cs (s.breakMember m) := by
  unfold State.breakMember
  dsimp only
  refine .foldl (.modEng h) (fun _ _ h₁ => ?_)
  split
  · exact .ite (.modCmd (.killCmd h₁)) (.startFallback (.modCmd (.killCmd h₁)))
  · exact .modCmd (.killCmd h₁)

theorem Safe.breakSaved (h : Safe cs s) {quad : List Nat} {slot : Slot} : Safe cs (s.breakSaved quad slot).2 :=
  .foldl₂ h (fun _ _ h₁ => .ite₂ h₁ (.pair (.foldl h₁ (fun _ _ h₂ => .modCmd h₂))))

theorem Safe.fenceSaved (h : Safe cs s) {e p : Nat} {slot : Slot} : Safe cs (s.fenceSaved e p slot) := by
  unfold State.fenceSaved
  dsimp only
  split
  · exact h
  · exact .modPart (.ite₂ (.breakSaved (.foldl h (fun _ _ h₁ => .endCmd h₁)))
      (.pair (.foldl h (fun _ _ h₁ => .endCmd h₁))))

theorem Safe.fenceEngine (h : Safe cs s) {e : Nat} : Safe cs (s.fenceEngine e) :=
  .foldl (.orphan (.forgetTile (.modEng (.foldl (.foldl (.foldl (.settle h) (fun _ _ h₁ => .trap h₁))
    (fun _ _ h₁ => .abandonPass h₁)) (fun _ _ h₁ => .foldl h₁ (fun _ _ h₂ => .fenceSaved h₂))))))
    (fun _ _ h₁ => .breakMember h₁)

theorem Safe.returnEngine (h : Safe cs s) {e : Nat} : Safe cs (s.returnEngine e) :=
  .tlbEmpty (.tlbEmpty (.forgetTile (.setEng h)))

theorem Safe.fenceUnit (h : Safe cs s) {kind index : Nat} : Safe cs (s.fenceUnit kind index) := by
  unfold State.fenceUnit
  split
  · exact .fenceEngine h
  · exact .foldl h (fun _ _ h₁ => .abandonPass h₁)
  · exact .wayOff h
  · exact .sliceOff h
  · exact .dropLink (.modPort h)
  · exact .modPipe h
  · exact .failJob h
  · exact .failJob h
  · exact .setRing h
  · exact h

theorem Safe.applyFences (h : Safe cs s) : Safe cs s.applyFences :=
  .loop h (fun _ _ h₁ => .foldl h₁ (fun _ _ h₂ => .ite (.set h₂) (.fenceUnit (.set h₂))))

theorem Safe.returnUnit (h : Safe cs s) {kind index : Nat} : Safe cs (s.returnUnit kind index) := by
  unfold State.returnUnit
  split
  · exact .returnEngine h
  · exact .wayOn h
  · exact .sliceOn h
  · exact .modPort h
  · exact .modPipe h
  · exact .tlbEmpty h
  · exact .tlbEmpty h
  · exact .set h
  · exact .setRing h
  · exact h

theorem Safe.noteUnit (h : Safe cs s) {code cls flags kind index : Nat} :
    Safe cs (s.noteUnit code cls flags kind index) :=
  .addRecord h

theorem Safe.exitFence (h : Safe cs s) {kind index : Nat} {selfTest : Bool} :
    Safe cs (s.exitFence kind index selfTest) :=
  .ite (.set (.report (.set h))) (.applyFences (.capChanged (.noteUnit (.returnUnit (.noting (.set h))))))

theorem Leaves.execFenceQuietExpiry (h : Safe cs s) {kind index : Nat} {selfTest : Bool} :
    Leaves cs (execFenceQuietExpiry kind index selfTest s) := by
  unfold Machine.execFenceQuietExpiry
  split
  exacts [.next h, .ite (.next h) (.next (.exitFence h))]

theorem Leaves.execUnitFence (h : Safe cs s) {pair : Fin 8} : Leaves cs (execUnitFence pair s) := by
  unfold Machine.execUnitFence
  refine .mbxCmd h (fun _ _ h₁ => .ite₂ h₁ ?_)
  split
  · exact .ite₂ h₁ (.pair (.noteUnit (.set h₁)))
  · exact .pair (.applyFences (.enterFence (.noteUnit h₁)))

theorem Leaves.execUnitReadmit (h : Safe cs s) {pair : Fin 8} {selfTest : Bool} :
    Leaves cs (execUnitReadmit pair selfTest s) :=
  .mbxCmd h (fun _ _ h₁ => .ite₂ h₁ (.ite₂ h₁ (.ite₂ h₁ (.pair (.exitFence h₁)))))

/-! ### `Machine/Dram.lean` -/

theorem Safe.modChan (h : Safe cs s) {c : Nat} {f : Channel → Channel} : Safe cs (s.modChan c f) := .set h
theorem Safe.startMigration (h : Safe cs s) {c : Nat} : Safe cs (s.startMigration c) := .modChan h

theorem Safe.wantRetrain (h : Safe cs s) {c : Nat} : Safe cs (s.wantRetrain c) :=
  .ite (.startMigration h) (.log (.modChan h))

theorem Leaves.execMigrationGranuleCopy (h : Safe cs s) {channel : Fin 24} :
    Leaves cs (execMigrationGranuleCopy channel s) :=
  .ite (.next h) (.ite (.next (.modChan h)) (.ite (.next (.modChan h)) (.next (.modChan h))))

theorem Safe.loseChannel (h : Safe cs s) {c : Nat} {readable : Bool} : Safe cs (s.loseChannel c readable) :=
  .ite (.report (.capChanged (.modChan h))) (.report h)

theorem Leaves.execChannelLost (h : Safe cs s) {channel : Fin 24} {readable : Bool} :
    Leaves cs (execChannelLost channel readable s) :=
  .ite (.next h) (.next (.loseChannel h))

theorem Leaves.execChannelRetrain (h : Safe cs s) {channel : Fin 24} {ok : Bool} :
    Leaves cs (execChannelRetrain channel ok s) :=
  .ite (.next h) (.ite (.ite (.next (.modChan (.log h))) (.next (.loseChannel (.log h))))
    (.ite (.next (.startMigration h)) (.next h)))

theorem Leaves.execDrcRetrain (h : Safe cs s) {pair : Fin 8} : Leaves cs (execDrcRetrain pair s) := by
  unfold Machine.execDrcRetrain
  refine .mbxCmd h (fun _ _ h₁ => .ite₂ h₁ (.ite₂ h₁ (.ite₂ h₁ ?_)))
  split
  exacts [.pair (.startMigration (.out (.startLong h₁))), .startLong h₁]

theorem Safe.eccNote (h : Safe cs s) {source unit sub position syndrome addr dom : Nat} :
    Safe cs (s.eccNote source unit sub position syndrome addr dom) := by
  unfold State.eccNote
  dsimp only
  split <;> exact .set h

theorem Safe.dramCorrected (h : Safe cs s) {c addr syndrome : Nat} : Safe cs (s.dramCorrected c addr syndrome) :=
  .ite (.wantRetrain (.eccNote (.modChan (.set h)))) (.eccNote (.modChan (.set h)))

theorem Safe.sliceCorrected (h : Safe cs s) {i way addr syndrome : Nat} {sr : Bool} :
    Safe cs (s.sliceCorrected i way addr syndrome sr) :=
  .eccNote (.modSlice (.set h))

theorem Leaves.execWayCeLimitReached (h : Safe cs s) {slice way : Fin 16} :
    Leaves cs (execWayCeLimitReached slice way s) :=
  .ite (.next h) (.ite (.ite (.next h) (.next (.report (.modSlice h)))) (.next (.applyFences (.wayOff (.report h)))))

theorem Leaves.execEccLogRead (h : Safe cs s) {pair : Fin 8} : Leaves cs (execEccLogRead pair s) :=
  .mbxCmd h (fun _ _ h₁ => .ite₂ h₁ (.pair (.output h₁)))

theorem Leaves.execEccLogClear (h : Safe cs s) {pair : Fin 8} : Leaves cs (execEccLogClear pair s) :=
  .mbxCmd h (fun _ _ h₁ => .pair (.set h₁))

theorem Leaves.execScrubRead (h : Safe cs s) {scrubber : Nat} : Leaves cs (execScrubRead scrubber s) := by
  unfold Machine.execScrubRead
  dsimp only
  refine .ite (.next h) (.ite ?_ (.ite (.ite (.next h) (.next (.modSlice h))) (.next h)))
  split
  exacts [.next h, .next (.modChan h)]

theorem Leaves.execScrubLapEnd (h : Safe cs s) {scrubber : Nat} : Leaves cs (execScrubLapEnd scrubber s) :=
  .ite (.next h) (.ite (.ite (.next h) (.next (.foldl (.foldl (.set h) (fun _ _ h₁ => .modChan h₁))
    (fun _ _ h₁ => .ite (.wantRetrain h₁) h₁)))) (.ite (.ite (.next h) (.next (.modSlice (.set h)))) (.next h)))

theorem Leaves.execLapWarnExpiry (h : Safe cs s) {scrubber : Nat} : Leaves cs (execLapWarnExpiry scrubber s) :=
  .ite (.next h) (.next (.log (.set h)))

theorem Leaves.execPhySamplerStep (h : Safe cs s) {lane : Nat} {up : Bool} :
    Leaves cs (execPhySamplerStep lane up s) :=
  .ite (.next h) (.next (.set h))

theorem Leaves.execDqsOscillatorRead (h : Safe cs s) {dram value : Nat} :
    Leaves cs (execDqsOscillatorRead dram value s) :=
  .ite (.next h) (.next (.set h))

theorem Leaves.execImpedanceCalibration (h : Safe cs s) {code : Nat} : Leaves cs (execImpedanceCalibration code s) :=
  .ite (.next h) (.next (.set h))

theorem Leaves.execL2Atomic (h : Safe cs s) {addr : Nat} {op : AtomOp} {wide : Bool} {operand compare : Dword} :
    Leaves cs (execL2Atomic addr op wide operand compare s) := by
  unfold Machine.execL2Atomic
  dsimp only
  split
  exacts [.next h, .ite (.next h) (.next (.atomAt h))]

theorem Leaves.execL2Fill (h : Safe cs s) {line : Nat} : Leaves cs (execL2Fill line s) :=
  .ite (.next h) (.next (.lineRead h))

theorem Leaves.execDramReadModifyWrite (h : Safe cs s) {sector : Nat} :
    Leaves cs (execDramReadModifyWrite sector s) :=
  .ite (.next h) (.next (.dramTouch (.dramTouch (.set h))))

theorem Safe.srStart (h : Safe cs s) {w : Nat} : Safe cs (s.srStart w) := by
  unfold State.srStart
  extract_lets mask t
  have ht : Safe cs t := .loop h fun _ _ h₁ => .flushWays (.modSlice h₁)
  clear_value t
  exact ht.set

theorem Safe.srFinish (h : Safe cs s) {w : Nat} : Safe cs (s.srFinish w) :=
  .loop (.capChanged (.setSetting (.set (.loop h (fun _ _ h₁ => .modSlice h₁))))) (fun _ _ h₁ => .ite (.loseSr h₁) h₁)

theorem Safe.srShrink (h : Safe cs s) {w : Nat} : Safe cs (s.srShrink w) := by
  unfold State.srShrink
  extract_lets top gone mask t m
  have ht : Safe cs t := .loop h fun _ _ h₁ => .modSlice h₁
  exact .capChanged (.setSetting (ht.mem (wf_filter _ _ ht.1.mem)))

theorem Leaves.execL2SetStrongroom (h : Safe cs s) {pair : Fin 8} : Leaves cs (execL2SetStrongroom pair s) := by
  unfold Machine.execL2SetStrongroom
  refine .ite (.next h) ?_
  extract_lets w₀ w ok probe
  have hp : Leaves cs probe :=
    .mbxCmd h fun _ _ h₁ => .ite₂ h₁ (.ite₂ (.ite₂ (.srStart h₁) h₁) (.ite₂ (.ite₂ h₁ (.srShrink h₁)) h₁))
  clear_value probe
  split
  · rename_i t
    exact .ite (.next (.srStart h)) hp
  · exact hp

theorem Leaves.execStrongroomConversionEnd (h : Safe cs s) : Leaves cs (execStrongroomConversionEnd s) := by
  unfold Machine.execStrongroomConversionEnd
  dsimp only
  split
  · exact .next h
  · refine .ite (.next h) ?_
    split
    exacts [.next (.srFinish h), .mbxServe (.srFinish h) (fun _ _ h₁ => h₁)]

theorem Leaves.execDrcConfigure (h : Safe cs s) {pair : Fin 8} : Leaves cs (execDrcConfigure pair s) :=
  .mbxCmd h (fun _ _ h₁ => .ite₂ h₁ (.ite₂ h₁ (.pair (.setSetting (.setSetting h₁)))))

/-! ### `Machine/Logbook.lean` -/

theorem Safe.putLog (h : Safe cs s) {r : LogRec} : Safe cs (s.putLog r) := .set h
theorem Safe.putOwn (h : Safe cs s) {type arg0 : Nat} : Safe cs (s.putOwn type arg0) := .putLog h

theorem Safe.writeLog (h : Safe cs s) : Safe cs s.writeLog := by
  obtain ⟨hlen, hkept, hheld⟩ := h.1.log
  unfold State.writeLog
  split
  · exact h
  · rename_i r rest e
    rw [e] at hlen hkept
    have hrest : (rest.filter (fun r => r.kept)).length ≤ 1 :=
      ((List.sublist_cons_self r rest).filter _).length_le.trans hkept
    refine .ite h ?_
    extract_lets _ t n _ u kept _
    have ht : Safe cs t :=
      .putLog (h.logbook (l := { s.logbook with queue := rest }) ⟨Nat.le_of_succ_le hlen, hrest, hheld⟩)
    have hu : Safe cs u := .ite ht (.putOwn ht.set)
    have eq : u.logbook.queue = rest := by unfold u; split <;> rfl
    have eh : u.logbook.heldFatal = s.logbook.heldFatal := by unfold u; split <;> rfl
    clear_value u
    split
    · exact hu
    · rename_i hd hs e₂
      rw [← eh, e₂] at hheld
      refine hu.logbook ⟨?_, ?_, Nat.le_of_succ_le hheld⟩
      · rw [eq, List.length_append]
        exact hlen
      · have hk : kept = true → rest.filter (fun q => q.kept) = [] := by
          unfold kept
          rw [eq]
          simp
        rw [eq, List.filter_append, List.length_append]
        clear_value kept
        cases kept with
        | false => exact hrest
        | true =>
          rw [hk rfl]
          exact Nat.le_refl 1

theorem Safe.drainLog (h : Safe cs s) : Safe cs s.drainLog := .loop h (fun _ _ h₁ => .writeLog h₁)
theorem Leaves.execLogbookWrite (h : Safe cs s) : Leaves cs (execLogbookWrite s) := .next (.writeLog h)
theorem Safe.beginPause (h : Safe cs s) : Safe cs s.beginPause := .ite (.noting (.set h)) h

theorem Safe.endLong (h : Safe cs s) {l : LongOp} {a : Ans} : Safe cs (s.endLong l a) := by
  unfold State.endLong
  split
  exact .ite (.interrupt (.modSession (.logCommand (.beginPause (.set h)))))
    (.submit (.logCommand (.beginPause (.set h))))

theorem Safe.tearSettings (h : Safe cs s) {entries : Map Dword} : Safe cs (s.tearSettings entries) := by
  unfold State.tearSettings
  dsimp only
  exact .set (.draw h)

theorem Leaves.execPowerFailWarning (h : Safe cs s) : Leaves cs (execPowerFailWarning s) :=
  .ite (.next h) (.next (.foldl (.set h) (fun _ _ h₁ => .endLong (.tearSettings h₁))))

theorem Leaves.execPowerFailRelease (h : Safe cs s) : Leaves cs (execPowerFailRelease s) := by
  unfold Machine.execPowerFailRelease
  dsimp only
  split
  exacts [.next (.set h), .ite (.next (.set h)) (.next (.putOwn (.set h)))]

theorem Safe.readRecords (h : Safe cs s) {r : Req} {next held : Nat} {f : Nat → Option (List Byte)} :
    Safe cs (s.readRecords r next held f).2 :=
  .ite₂ h (.pair (.output h))

theorem Leaves.execFltRead (h : Safe cs s) {pair : Fin 8} : Leaves cs (execFltRead pair s) :=
  .mbxCmd h (fun _ _ h₁ => .readRecords h₁)

theorem Leaves.execLogbookRead (h : Safe cs s) {pair : Fin 8} : Leaves cs (execLogbookRead pair s) :=
  .mbxCmd h (fun _ _ h₁ => .readRecords h₁)

theorem Leaves.execFltPolicySet (h : Safe cs s) {pair : Fin 8} : Leaves cs (execFltPolicySet pair s) :=
  .mbxCmd h (fun _ _ h₁ => .ite₂ h₁ (.pair (.setSetting (.setSetting h₁))))

theorem Leaves.execErrnSet (h : Safe cs s) {pair : Fin 8} : Leaves cs (execErrnSet pair s) :=
  .mbxCmd h fun _ _ h₁ => .ite₂ h₁ (h₁.refreshErrN h₁.1.fatal)

theorem Leaves.execErrnPulseEnd (h : Safe cs s) : Leaves cs (execErrnPulseEnd s) :=
  .ite (.next h) (.next (h.refreshErrN h.1.fatal))

/-! ### `Machine/Answers.lean` -/

theorem Leaves.execMmuSetFaultRingEnable (h : Safe cs s) {pair : Fin 8} :
    Leaves cs (execMmuSetFaultRingEnable pair s) :=
  .mbxServe h (fun _ _ h₁ => .ite₂ h₁ (.ite₂ h₁ (.pair (.set h₁))))

theorem Leaves.execMmuSetFaultRingDisable (h : Safe cs s) {pair : Fin 8} :
    Leaves cs (execMmuSetFaultRingDisable pair s) :=
  .mbxServe h (fun _ _ h₁ => .ite₂ h₁ (.pair (.set h₁)))

theorem Safe.recordPlaced (h : Safe cs s) {k fault : Nat} {g : FaultRing} {r : FaultRec} :
    Safe cs (s.recordPlaced k fault g r) :=
  .interruptOpt (.set h)

theorem Leaves.execFaultRecordWrite (h : Safe cs s) {fault : Nat} : Leaves cs (execFaultRecordWrite fault s) := by
  unfold Machine.execFaultRecordWrite
  dsimp only
  split
  · exact .next h
  · split
    · exact .next h
    · refine .ite (.next h) (.ite (.next (.recordPlaced (.hostWrite h))) ?_)
      split
      · exact .next (.recordPlaced (.out (.writeVa h)))
      · exact .next (.log (.interruptOpt (.set (.out (.writeVa h)))))

theorem Leaves.execTranslationWalk (h : Safe cs s) {asid : Half} {va : Dword} :
    Leaves cs (execTranslationWalk asid va s) := by
  unfold Machine.execTranslationWalk
  refine .ite (.next h) ?_
  split
  exacts [.next (.out (.walkTable h)), .next (.stlbFill (.out (.walkTable h)))]

theorem Safe.runPasses (h : Safe cs s) : Safe cs s.runPasses := .foldl h (fun _ _ h₁ => .runPass h₁)

theorem Safe.failJobWith (h : Safe cs s) {unit err detail : Nat} : Safe cs (s.failJobWith unit err detail) := by
  unfold State.failJobWith
  split
  exacts [h, .modCmd (.failJob h)]

theorem Safe.retryFault (h : Safe cs s) {id : Nat} : Safe cs (s.retryFault id) := by
  unfold State.retryFault
  split
  · exact h
  · exact .ite (.runPasses (.retryGrowth (.set (.closeFault h)))) (.runPasses (.resumeUnits (.set (.closeFault h))))

theorem Safe.abortFault (h : Safe cs s) {id : Nat} : Safe cs (s.abortFault id) := by
  unfold State.abortFault
  split
  · exact h
  · extract_lets s₁ s₂ clean s₃ s₄ s₅ s₆ s₇ s₈
    have h₁ : Safe cs s₁ := .foldl h fun _ _ k => .foldl k fun _ _ k => .trap k
    have h₂ : Safe cs s₂ := .foldl h₁ fun _ _ k => .foldl k fun _ _ k => .foldl k fun _ _ k => .foldl k fun _ _ k =>
      .endCmd k
    have h₃ : Safe cs s₃ := .orphan (.set h₂)
    have h₄ : Safe cs s₄ := .foldl h₃ fun _ _ k => .ite (.stopFetch (.modQueue k)) k
    have h₅ : Safe cs s₅ := .foldl h₄ fun _ _ k => .ite (.failJobWith k) k
    have h₆ : Safe cs s₆ := by
      refine .foldl h₅ fun _ _ k => ?_
      split
      · exact .ite (.abandonPass (.endCmd k)) k
      · exact k
    have h₇ : Safe cs s₇ := .set h₆
    exact .runPasses (.closeFault (.ite (.abortGrowth h₇) h₇))

theorem Safe.declineFault (h : Safe cs s) {id : Nat} : Safe cs (s.declineFault id) := by
  unfold State.declineFault
  split
  · exact h
  · exact .ite (.runPasses (.resumeUnits (.closeFault h))) (.ite (.runPasses (.startIncrement (.closeFault h)))
      (.abortFault h))

theorem Leaves.execFaultResolveRetry (h : Safe cs s) {pair : Fin 8} : Leaves cs (execFaultResolveRetry pair s) :=
  .mbxServe h (fun _ _ h₁ => .ite₂ h₁ (.pair (.retryFault h₁)))

theorem Leaves.execFaultResolveDecline (h : Safe cs s) {pair : Fin 8} :
    Leaves cs (execFaultResolveDecline pair s) :=
  .mbxServe h (fun _ _ h₁ => .pair (.declineFault h₁))

theorem Leaves.execFaultResolveAbort (h : Safe cs s) {pair : Fin 8} : Leaves cs (execFaultResolveAbort pair s) :=
  .mbxServe h (fun _ _ h₁ => .pair (.abortFault h₁))

/-! ### `Machine/Hang.lean` -/

theorem Safe.setWatch (h : Safe cs s) {u : Nat} {w : Watch} : Safe cs (s.setWatch u w) := .set h
theorem Safe.sampleWatch (h : Safe cs s) {u : Nat} : Safe cs (s.sampleWatch u) := .setWatch h

theorem Leaves.execProgressCounterSample (h : Safe cs s) : Leaves cs (execProgressCounterSample s) :=
  .ite (.next h) (.next (.foldl h (fun _ _ h₁ => .sampleWatch h₁)))

theorem Safe.hangCmd (h : Safe cs s) {q cmd detail : Nat} : Safe cs (s.hangCmd q cmd detail) := by
  unfold State.hangCmd
  split
  exacts [h, .ite h (.modQueue (.modCmd (.endCmd h)))]

theorem Safe.hangEngine (h : Safe cs s) {detail e : Nat} : Safe cs (s.hangEngine detail e) :=
  .orphan (.forgetTile (.modEng (.foldl (.foldl (.settle h) (fun _ _ h₁ => .hangCmd h₁))
    (fun _ _ h₁ => .abandonPass h₁))))

theorem Safe.hang (h : Safe cs s) {u : Nat} : Safe cs (s.hang u) := by
  unfold State.hang
  dsimp only
  refine .applyFences (.ite (.ite (.foldl (.setWatch (.recordFault h)) (fun _ _ h₁ => .hangEngine h₁))
    (.hangEngine (.setWatch (.recordFault h)))) ?_)
  split
  · exact .setWatch (.recordFault h)
  · exact .ite (.modQueue (.modCmd (.failJobWith (.setWatch (.recordFault h)))))
      (.foldl (.setWatch (.recordFault h)) (fun _ _ h₁ => .abandonPass (.hangCmd h₁)))

theorem Leaves.execWatchTimerExpiry (h : Safe cs s) {unit : Nat} : Leaves cs (execWatchTimerExpiry unit s) := by
  unfold Machine.execWatchTimerExpiry
  dsimp only
  refine .ite (.next h) ?_
  split
  exacts [.next (.setWatch h), .ite (.next (.setWatch h)) (.next (.hang h))]

theorem Leaves.execPreemptionStopTimeout (h : Safe cs s) {partition : Fin 8} :
    Leaves cs (execPreemptionStopTimeout partition s) := by
  unfold Machine.execPreemptionStopTimeout
  split
  · exact .next h
  · split
    exacts [.next h, .ite (.next h) (.next (.applyFences (.report (.set h))))]

/-! ### `Machine/Flits.lean` -/

theorem Safe.portTouch (h : Safe cs s) {p : Nat} : Safe cs (s.portTouch p) := .ite (.wake h) (.leaveRest h)
theorem Safe.discardMsg (h : Safe cs s) {p : Nat} : Safe cs (s.discardMsg p) := .modPort h

theorem Safe.replayPort (h : Safe cs s) {p : Nat} : Safe cs (s.replayPort p) :=
  .ite h (.report (.foldl (.setPort h) (fun _ _ h₁ => .emit h₁)))

theorem Safe.ackPort (h : Safe cs s) {p seq : Nat} : Safe cs (s.ackPort p seq) := .ite h (.setPort h)

theorem Safe.linkSlot (h : Safe cs s) {p seq : Nat} {nak : Bool} : Safe cs (s.linkSlot p seq nak) :=
  .ite (.replayPort (.ackPort h)) (.ackPort h)

theorem Leaves.execLink (h : Safe cs s) {port : Fin 4} {nak : Bool} {seq : Nat} :
    Leaves cs (execLink port nak seq s) :=
  .ite (.next (.portTouch h)) (.next (.linkSlot (.portTouch h)))

theorem Leaves.execLinkAckTimeout (h : Safe cs s) {port : Fin 4} : Leaves cs (execLinkAckTimeout port s) :=
  .ite (.next h) (.next (.replayPort h))

theorem Leaves.execPortRetryBudgetExpiry (h : Safe cs s) {port : Fin 4} :
    Leaves cs (execPortRetryBudgetExpiry port s) :=
  .ite (.next h) (.next (.applyFences (.portDown h)))

theorem Safe.portUp (h : Safe cs s) {p : Nat} {far : PortTrain} : Safe cs (s.portUp p far) :=
  .capChanged (.ite (.log (.ite (.modPort h) (.set (.modPort h))))
    (.report (.log (.ite (.modPort h) (.set (.modPort h))))))

theorem Leaves.execPortRetrainComplete (h : Safe cs s) {port : Fin 4} {far : PortTrain} :
    Leaves cs (execPortRetrainComplete port far s) :=
  .ite (.next h) (.next (.modPort (.ite (.foldl (.report (.portUp h)) (fun _ _ h₁ => .emit h₁))
    (.report (.portUp h)))))

theorem Safe.respond (h : Safe cs s) {type : Nat} {m : CvlMsg} {aux : Nat} {data : List Byte} {poison : Bool} :
    Safe cs (s.respond type m aux data poison) := by
  unfold State.respond
  split
  exacts [.cvlSend h, h]

theorem Safe.serveRead (h : Safe cs s) {m : CvlMsg} : Safe cs (s.serveRead m) := by
  unfold State.serveRead
  refine .ite h (.respond ?_)
  split
  · exact .pair (.foldl h (fun _ _ h₁ => .lineRead h₁))
  · exact .ite₂ (.pair (.bump h)) (.pair (.bump h))
  · exact .pair (.report h)
  · exact .pair (.report h)

theorem Safe.serveWrite (h : Safe cs s) {type : Nat} {m : CvlMsg} : Safe cs (s.serveWrite type m) := by
  unfold State.serveWrite
  extract_lets n t u
  have ht : Safe cs t := .ite (.writePhys h) (.writeMasked h)
  have hu : Safe cs u := .ite (.setPoison ht) ht
  exact .ite h (.respond hu)

theorem Safe.serveAtomic (h : Safe cs s) {m : CvlMsg} : Safe cs (s.serveAtomic m) := by
  unfold State.serveAtomic
  dsimp only
  split
  exacts [h, .ite h (.respond (.atomAt h))]

theorem Safe.serveEvent (h : Safe cs s) {m : CvlMsg} : Safe cs (s.serveEvent m) := by
  unfold State.serveEvent
  dsimp only
  refine .ite h ?_
  split
  exacts [.cvlSend (.recordEvent h), .recordEvent h]

theorem Safe.applyRoutes (h : Safe cs s) {b : List Byte} : Safe cs (s.applyRoutes b) :=
  .capChanged (.set (.foldl h (fun _ _ h₁ => .setSetting h₁)))

theorem Safe.setDieState (h : Safe cs s) {die st : Nat} : Safe cs (s.setDieState die st) := .capChanged (.set h)

theorem Safe.serveMgmt (h : Safe cs s) {m : CvlMsg} : Safe cs (s.serveMgmt m) := by
  unfold State.serveMgmt
  dsimp only
  refine .ite h (.ite ?_ (.ite ?_ (.ite (.applyRoutes h) (.ite (.setDieState h) h))))
  · split
    exacts [.askDie h, .askDie (.set (.outSome₂ (.reserve h)))]
  · split
    exacts [.releaseBacking h, h]

theorem Safe.takeRead (h : Safe cs s) {m : CvlMsg} : Safe cs (s.takeRead m) := by
  unfold State.takeRead
  split
  exacts [h, .ite h (.endReq (.ite (.set h) h))]

theorem Safe.takeWriteAck (h : Safe cs s) {m : CvlMsg} : Safe cs (s.takeWriteAck m) := by
  unfold State.takeWriteAck
  split
  exacts [h, .endReq h]

theorem Safe.takeAtomic (h : Safe cs s) {m : CvlMsg} : Safe cs (s.takeAtomic m) := by
  unfold State.takeAtomic
  split
  exacts [h, .ite h (.endReq h)]

theorem Safe.takeEventAck (h : Safe cs s) {m : CvlMsg} : Safe cs (s.takeEventAck m) := by
  unfold State.takeEventAck
  dsimp only
  split
  · exact h
  · split
    · exact .endReq h
    · split
      exacts [.ite (.finishRetire (.endReq h)) (.endReq h), .endReq h]

theorem Safe.forward (h : Safe cs s) {p type : Nat} {m : CvlMsg} : Safe cs (s.forward p type m) := by
  unfold State.forward
  refine .ite (.applyFences (.report (.discardMsg h))) ?_
  split
  exacts [.applyFences (.report (.discardMsg h)), .cvlEmit (.bump h)]

theorem Safe.receiveMsg (h : Safe cs s) {p type : Nat} {m : CvlMsg} : Safe cs (s.receiveMsg p type m) := by
  unfold State.receiveMsg
  extract_lets t access
  have ht : Safe cs t := .ite (.applyFences (.report h)) h
  refine .ite (.forward h) (.ite (.discardMsg ht) ?_)
  split
  exacts [.serveRead ht, .serveWrite ht, .serveWrite ht, .serveAtomic ht, .serveEvent ht, .serveMgmt ht, .takeRead ht,
    .takeWriteAck ht, .takeAtomic ht, .takeEventAck ht, ht]

theorem Leaves.message (h : Safe cs s) {port : Fin 4} {type : Nat} {m : CvlMsg} : Leaves cs (s.message port type m) :=
  .ite (.next (.portTouch h)) (.next (.receiveMsg (.bump (.portTouch h))))

theorem Leaves.execRdReq (h : Safe cs s) {port : Fin 4} {msg : CvlMsg} : Leaves cs (execRdReq port msg s) :=
  .message h

theorem Leaves.execWr (h : Safe cs s) {port : Fin 4} {msg : CvlMsg} : Leaves cs (execWr port msg s) := .message h

theorem Leaves.execWrPartial (h : Safe cs s) {port : Fin 4} {msg : CvlMsg} : Leaves cs (execWrPartial port msg s) :=
  .message h

theorem Leaves.execAtomic (h : Safe cs s) {port : Fin 4} {msg : CvlMsg} : Leaves cs (execAtomic port msg s) :=
  .message h

theorem Leaves.execEvent (h : Safe cs s) {port : Fin 4} {msg : CvlMsg} : Leaves cs (execEvent port msg s) :=
  .message h

theorem Leaves.execMgmt (h : Safe cs s) {port : Fin 4} {msg : CvlMsg} : Leaves cs (execMgmt port msg s) := .message h

theorem Leaves.execRdRsp (h : Safe cs s) {port : Fin 4} {msg : CvlMsg} : Leaves cs (execRdRsp port msg s) :=
  .message h

theorem Leaves.execWrAck (h : Safe cs s) {port : Fin 4} {msg : CvlMsg} : Leaves cs (execWrAck port msg s) :=
  .message h

theorem Leaves.execAtomicRsp (h : Safe cs s) {port : Fin 4} {msg : CvlMsg} : Leaves cs (execAtomicRsp port msg s) :=
  .message h

theorem Leaves.execEventAck (h : Safe cs s) {port : Fin 4} {msg : CvlMsg} : Leaves cs (execEventAck port msg s) :=
  .message h

theorem Leaves.execCvlRequestTimeout (h : Safe cs s) {tag : Nat} : Leaves cs (execCvlRequestTimeout tag s) := by
  unfold Machine.execCvlRequestTimeout
  split
  exacts [.next h, .ite (.next h) (.next (.applyFences (.endReq (.recordFault h))))]

theorem Safe.receiveAll (h : Safe cs s) {p : Nat} {ms : List (Nat × CvlMsg)} : Safe cs (s.receiveAll p ms) :=
  .foldl h (fun _ _ h₁ => .ite (.linkSlot h₁) (.receiveMsg h₁))

theorem Safe.nakFlit (h : Safe cs s) {p : Nat} : Safe cs (s.nakFlit p) := .emit h

theorem Safe.takeFlit (h : Safe cs s) {p : Nat} {b : List Byte} : Safe cs (s.takeFlit p b) := by
  unfold State.takeFlit
  refine .ite (.nakFlit h) (.ite ?_ (.ite (.ite (.nakFlit h) (.emit h)) ?_))
  · split
    exacts [.nakFlit h, .receiveAll (.modPort h)]
  · split
    exacts [.nakFlit h, .receiveAll (.emit (.setPort h))]

theorem Leaves.execFlitReceive (h : Safe cs s) {port : Fin 4} {flit : List Byte} :
    Leaves cs (execFlitReceive port flit s) :=
  .ite .fault (.ite (.next (.portTouch h)) (.next (.takeFlit
    (.ite (.bump (.portTouch h)) (.report (.modPort (.bump (.portTouch h))))))))

/-! ### `Machine/Caravan.lean` -/

theorem Leaves.execCvlRouteSet (h : Safe cs s) {pair : Fin 8} {buf : Option (List Byte)} :
    Leaves cs (execCvlRouteSet pair buf s) := by
  unfold Machine.execCvlRouteSet
  refine .mbxCmd h (fun _ _ h₁ => .ite₂ h₁ ?_)
  split
  · exact h₁
  · exact .ite₂ h₁ (.ite₂ h₁ (.ite₂ (.pair (.applyRoutes h₁)) (.ite₂ h₁ (.pair (.askDie h₁)))))

theorem Safe.announce (h : Safe cs s) {die st : Nat} : Safe cs (s.announce die st) :=
  .foldl (.setDieState h) (fun _ _ h₁ => .askDie h₁)

theorem Leaves.execCvlMemberAdmit (h : Safe cs s) {pair : Fin 8} : Leaves cs (execCvlMemberAdmit pair s) := by
  unfold Machine.execCvlMemberAdmit
  refine .mbxServe h (fun _ _ h₁ => .ite₂ h₁ (.ite₂ h₁ (.ite₂ h₁ ?_)))
  split
  exacts [.pair (.announce (.out (.startLong h₁))), .startLong h₁]

theorem Leaves.execCvlMemberRemove (h : Safe cs s) {pair : Fin 8} : Leaves cs (execCvlMemberRemove pair s) := by
  unfold Machine.execCvlMemberRemove
  refine .mbxServe h (fun _ _ h₁ => .ite₂ h₁ (.ite₂ h₁ (.ite₂ h₁ (.ite₂ h₁ ?_))))
  split
  exacts [.pair (.announce (.out (.startLong h₁))), .startLong h₁]

theorem Safe.endMember (h : Safe cs s) {l : LongOp} {ok : Bool} {data : List Byte} :
    Safe cs (s.endMember l ok data) :=
  .ite (.ite (.endLong (.announce h)) (.ite (.endLong (.announce (.ite h (.set h))))
    (.endLong (.announce (.applyRoutes (.ite h (.set h)))))))
    (.ite (.endLong (.announce h)) (.ite h (.endLong (.announce
    (.foldl (.applyRoutes (.set h)) (fun _ _ h₁ => .ite (.modPort h₁) h₁))))))

/-! ### `Machine/Display.lean` -/

theorem Safe.modLayers (h : Safe cs s) {p : Nat} {f : PipeLayers → PipeLayers} : Safe cs (s.modLayers p f) := .set h
theorem Safe.setKhz (h : Safe cs s) {d khz : Nat} : Safe cs (s.setKhz d khz) := .ite h (.log (.capChanged (.set h)))

theorem Leaves.execDspPipeSet (h : Safe cs s) {pair : Fin 8} {buf : Option (List Byte)} :
    Leaves cs (execDspPipeSet pair buf s) := by
  unfold Machine.execDspPipeSet
  refine .mbxCmd h (fun _ _ h₁ => .ite₂ h₁ ?_)
  split
  exacts [h₁, .ite₂ h₁ (.ite₂ h₁ (.pair (.setKhz (.modLayers (.modPipe h₁)))))]

theorem Leaves.execDspPipeEnableOn (h : Safe cs s) {pair : Fin 8} : Leaves cs (execDspPipeEnableOn pair s) :=
  .mbxServe h (fun _ _ h₁ => .ite₂ h₁ (.ite₂ h₁ (.ite₂ (.pair (.modPipe h₁)) (.pair (.modPipe h₁)))))

theorem Leaves.execDspPipeEnableOff (h : Safe cs s) {pair : Fin 8} : Leaves cs (execDspPipeEnableOff pair s) :=
  .mbxServe h (fun _ _ h₁ => .ite₂ h₁ (.pair (.modPipe h₁)))

theorem Leaves.execDspLayerSet (h : Safe cs s) {pair : Fin 8} {buf : Option (List Byte)} :
    Leaves cs (execDspLayerSet pair buf s) := by
  unfold Machine.execDspLayerSet
  refine .mbxCmd h (fun _ _ h₁ => .ite₂ h₁ ?_)
  split
  exacts [h₁, .ite₂ h₁ (.pair (.modLayers h₁))]

theorem Leaves.execDspScalerLoad (h : Safe cs s) {pair : Fin 8} {buf : Option (List Byte)} :
    Leaves cs (execDspScalerLoad pair buf s) := by
  unfold Machine.execDspScalerLoad
  refine .mbxCmd h (fun _ _ h₁ => .ite₂ h₁ ?_)
  split
  exacts [h₁, .ite₂ h₁ (.pair (.modLayers h₁))]

theorem Safe.logPipe (h : Safe cs s) {p res : Nat} : Safe cs (s.logPipe p res) := .log h

theorem Leaves.execPipeLinkTrainingEnd (h : Safe cs s) {pipe : Fin 4} {rate : Option (Fin 16)} :
    Leaves cs (execPipeLinkTrainingEnd pipe rate s) := by
  unfold Machine.execPipeLinkTrainingEnd
  refine .ite (.next h) ?_
  split
  exacts [.ite (.next h) (.next (.logPipe (.modPipe h))), .next (.logPipe (.modPipe h))]

theorem Leaves.execHpdEvent (h : Safe cs s) {pipe : Fin 4} {high lost : Bool} :
    Leaves cs (execHpdEvent pipe high lost s) :=
  .ite (.next h) (.ite (.next (.modPipe (.set h))) (.next (.set h)))

theorem Safe.trackEdge (h : Safe cs s) {p : Nat} : Safe cs (s.trackEdge p) := by
  unfold State.trackEdge
  dsimp only
  split
  exacts [.modLayers (.modPipe h), .modLayers (.modPipe (.modPipe h))]

theorem Leaves.execFsyncEdge (h : Safe cs s) {input : Fin 4} {level : Bool} :
    Leaves cs (execFsyncEdge input level s) :=
  .ite (.next h) (.next (.fsyncRelease (.ite (.leaveRest (.foldl (.set h) (fun _ _ h₁ => .trackEdge h₁)))
    (.foldl (.set h) (fun _ _ h₁ => .trackEdge h₁)))))

theorem Leaves.execFsyncLostExpiry (h : Safe cs s) {pipe : Fin 4} : Leaves cs (execFsyncLostExpiry pipe s) :=
  .ite (.next h) (.next (.modPipe h))

/-! ### `Machine/Compose.lean` -/

theorem Safe.fetchRow (h : Safe cs s) {pipe asid va off n : Nat} {ext : Option (List Byte)} :
    Safe cs (s.fetchRow pipe asid va off n ext).2 := by
  unfold State.fetchRow
  refine .foldl₂ h (fun _ _ h₁ => ?_)
  split
  · exact h₁
  · split <;> exact .pair (.out (.readVaX h₁))

theorem Safe.fetchPlane (h : Safe cs s) {pipe : Nat} {d : List Byte} {half : Bool} {y : Nat} {rows : Map Row}
    {ext : Option (List Byte)} :
    Safe cs (s.fetchPlane pipe d half y rows ext).2 := by
  unfold State.fetchPlane
  split
  · refine .foldl₂ h (fun _ _ h₁ => ?_)
    split
    · exact h₁
    · refine .ite₂ h₁ ?_
      split <;> exact .pair (.out (.fetchRow h₁))

theorem Safe.fetchLayer (h : Safe cs s) {pipe vactive : Nat} {d : List Byte} {t ext : Option (List Byte)} :
    Safe cs (s.fetchLayer pipe vactive d t ext).2 := by
  unfold State.fetchLayer
  refine .foldl₂ h fun r y h₁ => ?_
  dsimp only
  refine .ite₂ h₁ ?_
  split
  · exact .pair (.out (.fetchPlane h₁))
  · refine .ite₂ (.pair (.out (.fetchPlane h₁))) ?_
    have h₂ := Safe.out (.fetchPlane h₁) ‹_›
    split <;> exact .pair (.out (.fetchPlane h₂))

theorem Safe.fetchFlat (h : Safe cs s) {pipe : Nat} {b : List Byte} {ext : Option (List Byte)} :
    Safe cs (s.fetchFlat pipe b ext).2 := by
  unfold State.fetchFlat
  refine .foldl₂ h (fun _ _ h₁ => ?_)
  split
  · exact h₁
  · split <;> exact .pair (.out (.fetchRow h₁))

theorem Safe.writeFlat (h : Safe cs s) {pipe : Nat} {b : List Byte} {at_ : Nat → Nat → Mix} :
    Safe cs (s.writeFlat pipe b at_).2 := by
  unfold State.writeFlat
  refine .foldl₂ h (fun _ _ h₁ => ?_)
  split
  exacts [h₁, .writeVa h₁]

theorem Safe.pipeFault (h : Safe cs s) {p asid : Nat} {acc : Acc} {f : Nat × Nat × Nat × Nat} :
    Safe cs (s.pipeFault p asid acc f).2 :=
  .raiseFault h

theorem Safe.layerFault (h : Safe cs s) {p l asid : Nat} {f : Nat × Nat × Nat × Nat} : Safe cs
    (s.layerFault p l asid f) := by
  unfold State.layerFault
  dsimp only
  split
  exacts [.modLayers (.modPipe (.pipeFault h)), .modPipe (.pipeFault h)]

theorem Safe.flatFault (h : Safe cs s) {p : Nat} {acc : Acc} {f : Nat × Nat × Nat × Nat} : Safe cs
    (s.flatFault p acc f) := by
  unfold State.flatFault
  exact .modLayers (.modPipe (.pipeFault h))

theorem Safe.goLive (h : Safe cs s) {p : Nat} : Safe cs (s.goLive p) :=
  .ite (.modLayers h) (.foldl (.modPipe (.modLayers (.modLayers h))) (fun _ _ h₁ => .ite (.recordEvent h₁) h₁))

theorem Safe.settleLayers (h : Safe cs s) {p : Nat} : Safe cs (s.settleLayers p) := by
  unfold State.settleLayers
  exact .modPipe (.modLayers h)

theorem Safe.fetchLayers (h : Safe cs s) {p first : Nat} {ext : Option (List Byte)} :
    Safe cs (s.fetchLayers p first ext).2 := by
  unfold State.fetchLayers
  refine .foldl₂ h (fun _ _ h₁ => ?_)
  split
  · split
    · split
      exacts [.layerFault (.out (.fetchLayer h₁)), .out (.fetchLayer h₁)]

theorem Safe.compose (h : Safe cs s) {p : Nat} {late : List (Nat × Nat)} {ext : Option (List Byte)} :
    Safe cs (s.compose p late ext) := by
  unfold State.compose
  extract_lets v b run useFlat isLate lines
  split
  rename_i flat ext₁ t e
  have ht : Safe cs t := by
    split at e
    · split at e <;> cases e
      · exact .out (.fetchFlat h)
      · exact .flatFault (.out (.fetchFlat h))
    · cases e
      exact h
  extract_lets free ground
  split
  have hl := Safe.out (.fetchLayers (.drew ht)) ‹_›
  extract_lets below out pixel u clean w
  have hu : Safe cs u := .modLayers hl
  have hw : Safe cs w := by
    unfold w
    split
    · split
      · exact .modLayers (.out (.writeFlat hu))
      · exact .flatFault (.out (.writeFlat hu))
    · exact hu
  clear_value lines w
  split
  · exact hw
  · exact .modPipe (.ite hw (.log hw))

theorem Safe.lockFrame (h : Safe cs s) {p : Nat} : Safe cs (s.lockFrame p) :=
  .ite (.modPipe h) (.modPipe (.modLayers h))

theorem Leaves.execFrameStart (h : Safe cs s) {pipe : Fin 4} {late : List (Nat × Nat)} {ext : Option (List Byte)} :
    Leaves cs (execFrameStart pipe late ext s) :=
  .ite (.next h) (.ite (.next (.emit (.modPipe h))) (.ite (.next h)
    (.next (.ite (.compose (.lockFrame (.settleLayers (.goLive (.modPipe (.modPipe (.ite h (.emit h))))))))
    (.lockFrame (.settleLayers (.goLive (.modPipe (.modPipe (.ite h (.emit h)))))))))))

/-! ### `Machine/Sampling.lean` -/

theorem Safe.counterValue (h : Safe cs s) {block inst e : Nat} : Safe cs (s.counterValue block inst e).2 :=
  .ite₂ (.pair (.set h)) h

theorem Safe.setSring (h : Safe cs s) {r : Nat} {v : SampleRing} : Safe cs (s.setSring r v) := .set h

theorem Leaves.execSampleRingSetEnable (h : Safe cs s) {pair : Fin 8} {buf : Option (List Byte)} :
    Leaves cs (execSampleRingSetEnable pair buf s) := by
  unfold Machine.execSampleRingSetEnable
  refine .mbxServe h (fun _ _ h₁ => .ite₂ h₁ ?_)
  split
  exacts [h₁, .ite₂ h₁ (.ite₂ h₁ (.ite₂ h₁ (.pair (.setSring h₁))))]

theorem Safe.sampleCookie (h : Safe cs s) {k : Nat} : Safe cs (s.sampleCookie k) := .interruptOpt h

theorem Safe.writeSample (h : Safe cs s) {k : Nat} : Safe cs (s.writeSample k) := by
  unfold State.writeSample
  dsimp only
  split
  · exact h
  · split
    · exact .log (.setSring (.out (.writeVa h)))
    · exact .ite (.sampleCookie (.setSring (.out (.writeVa h)))) (.setSring (.out (.writeVa h)))

theorem Leaves.execSampleRingSetDisable (h : Safe cs s) {pair : Fin 8} :
    Leaves cs (execSampleRingSetDisable pair s) :=
  .mbxServe h (fun _ _ h₁ => .ite₂ h₁ (.ite₂ h₁ (.ite₂ (.pair (.loop h₁ (fun _ _ h₂ => .writeSample h₂)))
    (.pair (.sampleCookie (.setSring (.loop h₁ (fun _ _ h₂ => .writeSample h₂))))))))

theorem Safe.sampleOf (h : Safe cs s) {v : SampleRing} {unit : Nat} : Safe cs (s.sampleOf v unit).2 := by
  unfold State.sampleOf
  dsimp only
  exact .foldl₂ h (fun _ _ h₁ => .pair (.counterValue h₁))

theorem Leaves.execSampleSnapshot (h : Safe cs s) {ring : Fin 16} : Leaves cs (execSampleSnapshot ring s) := by
  unfold Machine.execSampleSnapshot
  dsimp only
  exact .ite (.next h) (.ite (.next (.setSring h)) (.next (.setSring
    (.foldl₂ h (fun _ _ h₁ => .pair (.sampleOf h₁))))))

theorem Leaves.execSampleRecordWrite (h : Safe cs s) {ring : Fin 16} : Leaves cs (execSampleRecordWrite ring s) :=
  .ite (.next h) (.next (.writeSample h))

/-! ### `Machine/Power.lean` -/

theorem Safe.setPoint (h : Safe cs s) {p : Nat} (hp : p ≤ 2) : Safe cs (s.setPoint p) :=
  .setKhz (h.power (p := { s.power with point := p, raising := none }) ⟨hp, nofun, h.idle_le⟩)

theorem Safe.lowerCclk (h : Safe cs s) : Safe cs s.lowerCclk :=
  .setPoint (.set h) ((Nat.sub_le _ _).trans h.point_le)

theorem Safe.addIdle (h : Safe cs s) : Safe cs s.addIdle :=
  h.power (p := { s.power with idle := min 4 (s.power.idle + 1), raising := none })
    ⟨h.point_le, nofun, Nat.min_le_left _ _⟩

theorem Safe.powerOver (h : Safe cs s) : Safe cs s.powerOver :=
  .ite (.lowerCclk (.set h)) (.ite (.addIdle (.set h)) (.ite (.addIdle (.set h))
    (h.power (p := { s.power with overs := s.power.overs + 1, raising := none }) ⟨h.point_le, nofun, h.idle_le⟩)))

theorem Safe.powerCalm (h : Safe cs s) : Safe cs s.powerCalm := by
  unfold State.powerCalm
  refine .ite h (.ite (h.power ⟨h.point_le, h.raising_le, (Nat.sub_le _ _).trans h.idle_le⟩) ?_)
  split
  · rename_i e
    simp only [Bool.and_eq_true, decide_eq_true_eq] at e
    obtain ⟨⟨⟨hp, -⟩, -⟩, -⟩ := e
    exact h.power ⟨h.point_le, fun x hx => by cases hx; exact hp, h.idle_le⟩
  · exact h

theorem Leaves.execPowerSample (h : Safe cs s) {sixteenths : Nat} : Leaves cs (execPowerSample sixteenths s) :=
  .ite (.next h) (.next (.set (.ite (.powerOver (.set h)) (.ite (.powerCalm (.set h)) (.set h)))))

theorem Leaves.execPmicCalibration (h : Safe cs s) {reading : Nat} : Leaves cs (execPmicCalibration reading s) :=
  .ite (.next h) (.next (.set h))

theorem Leaves.execPwrLimitSet (h : Safe cs s) {pair : Fin 8} : Leaves cs (execPwrLimitSet pair s) :=
  .mbxCmd h (fun _ _ h₁ => .ite₂ h₁ (.pair (.setSetting h₁)))

theorem Leaves.execCclkRaiseConfirmed (h : Safe cs s) : Leaves cs (execCclkRaiseConfirmed s) := by
  unfold Machine.execCclkRaiseConfirmed
  split
  · exact .next h
  · exact .ite (.next h) (.next (.setPoint h (h.raising_le _ ‹_›)))

theorem Safe.logThermal (h : Safe cs s) {event : Nat} : Safe cs (s.logThermal event) := .log h
theorem Safe.thermalStep (h : Safe cs s) : Safe cs s.thermalStep := .ite (.lowerCclk h) (.addIdle h)

theorem Safe.zoneHot (h : Safe cs s) : Safe cs s.zoneHot :=
  .ite (.logThermal (.set h)) (.set (.ite (.set h) (.ite (.thermalStep (.set (.set h))) (.set (.set h)))))

theorem Safe.zoneCool (h : Safe cs s) : Safe cs s.zoneCool := by
  unfold State.zoneCool
  extract_lets t u v _ _ w
  have hu : Safe cs u := .set h
  have hv : Safe cs v := .ite (.thermalStep hu) hu
  have hp : Safe cs { s with power := { s.power with raising := none } } := h.power ⟨h.point_le, nofun, h.idle_le⟩
  have hw : Safe cs w := .set hp
  clear_value v w
  exact .ite (.logThermal (.set hv)) (.ite (.ite (.logThermal hw) hw) (.set h))

theorem Leaves.execSensorSample (h : Safe cs s) {temps : List Int} : Leaves cs (execSensorSample temps s) :=
  .ite .fault (.ite (.next h) (.ite (.next (.set h)) (.next (.set (.ite (.zoneHot (.set h)) (.zoneCool (.set h)))))))

theorem Leaves.execThermalTrip (h : Safe cs s) : Leaves cs (execThermalTrip s) := by
  unfold Machine.execThermalTrip
  extract_lets +onlyGivenNames t
  have ht : Safe cs t := .noting (h.refreshErrN (f := { s.flt with fatal := true, held := true }) fun _ => rfl)
  obtain ⟨u, e⟩ : ∃ u, t = u := ⟨_, rfl⟩
  rw [e] at ht ⊢
  exact .ite (.next h) (.next (.set (.submit (.set ht))))

theorem Leaves.execRestEntry (h : Safe cs s) : Leaves cs (execRestEntry s) :=
  .ite (.next h) (.next (.noting (.set h)))

theorem Safe.stopPipes (h : Safe cs s) : Safe cs s.stopPipes := .set (.foldl h (fun _ _ h₁ => .modPipe h₁))

theorem Leaves.execPwrHalt (h : Safe cs s) {pair : Fin 8} : Leaves cs (execPwrHalt pair s) :=
  .mbxCmd h (fun _ _ h₁ => .pair (.ite (.foldl h₁ (fun _ _ h₂ => .ite (.setMbx h₂) (.ite (.setMbx h₂) h₂)))
    (.stopPipes (.set (.foldl h₁ (fun _ _ h₂ => .ite (.setMbx h₂) (.ite (.setMbx h₂) h₂)))))))

theorem Leaves.execHaltCommit (h : Safe cs s) : Leaves cs (execHaltCommit s) :=
  .ite (.next h) (.next (.noting (.set h)))

theorem Leaves.execHaltReached (h : Safe cs s) : Leaves cs (execHaltReached s) := by
  unfold Machine.execHaltReached
  dsimp only
  refine .ite (.next h) ?_
  split
  exacts [.next (.set (.submit h)), .next (.noting (.set (.submit h)))]

theorem Leaves.execWakeSource (h : Safe cs s) {source : Nat} : Leaves cs (execWakeSource source s) :=
  .ite (.next h) (.next (.wake h))

/-! ### `Machine/Trust.lean` -/

theorem Leaves.execSettingGet (h : Safe cs s) {pair : Fin 8} : Leaves cs (execSettingGet pair s) := by
  unfold Machine.execSettingGet
  refine .mbxCmd h (fun _ _ h₁ => ?_)
  split <;> exact h₁

theorem Leaves.execSettingSet (h : Safe cs s) {pair : Fin 8} : Leaves cs (execSettingSet pair s) := by
  unfold Machine.execSettingSet
  dsimp only
  refine .mbxCmd h (fun _ _ h₁ => ?_)
  split
  exacts [.ite₂ h₁ (.pair (.set h₁)), .ite₂ h₁ (.ite₂ (.pair (.setSetting h₁)) h₁)]

theorem Leaves.execStoreSettings (h : Safe cs s) {pair : Fin 8} : Leaves cs (execStoreSettings pair s) :=
  .mbxCmd h (fun _ _ h₁ => .startLong h₁)

theorem Safe.endStore (h : Safe cs s) {l : LongOp} {ok : Bool} : Safe cs (s.endStore l ok) :=
  .ite (.endLong h) (.ite (.endLong (.set h)) (.endLong (.log (.set h))))

theorem Leaves.execFwStage (h : Safe cs s) {pair : Fin 8} {buf : Option (List Byte)} :
    Leaves cs (execFwStage pair buf s) := by
  unfold Machine.execFwStage
  refine .mbxCmd h (fun _ _ h₁ => ?_)
  split
  · exact h₁
  · split
    exacts [.pair (.capChanged (.set (.out (.startLong h₁)))), .startLong h₁]

theorem Safe.endStage (h : Safe cs s) {l : LongOp} : Safe cs (s.endStage l) :=
  .ite (.endLong h) (.endLong (.capChanged (.set h)))

theorem Leaves.execFwActivate (h : Safe cs s) {pair : Fin 8} : Leaves cs (execFwActivate pair s) := by
  unfold Machine.execFwActivate
  refine .mbxCmd h (fun _ _ h₁ => .ite₂ h₁ ?_)
  split
  exacts [.pair (.beginPause (.out (.startLong h₁))), .startLong h₁]

theorem Safe.endActivate (h : Safe cs s) {l : LongOp} {ok : Bool} : Safe cs (s.endActivate l ok) := by
  unfold State.endActivate
  extract_lets x v t m slot _ m' u
  have ht : Safe cs t := .noting (.set h)
  have hu : Safe cs u := .set ht
  exact .ite (.endLong h) (.ite h (.ite (.endLong (.log ht)) (.endLong (.log (.capChanged hu)))))

theorem Leaves.execUcodeUpdate (h : Safe cs s) {pair : Fin 8} {buf : Option (List Byte)} :
    Leaves cs (execUcodeUpdate pair buf s) := by
  unfold Machine.execUcodeUpdate
  dsimp only
  refine .mbxCmd h (fun _ _ h₁ => ?_)
  split
  · exact h₁
  · split
    exacts [.pair (.ite (.set (.out (.startLong h₁))) (.out (.startLong h₁))), .startLong h₁]

theorem Safe.setLongData (h : Safe cs s) {l : LongOp} {d : List Byte} : Safe cs (s.setLongData l d) := .set h

theorem Leaves.execUcodeEngineUpdate (h : Safe cs s) {engine : Fin 32} {selfTest : Bool} :
    Leaves cs (execUcodeEngineUpdate engine selfTest s) := by
  unfold Machine.execUcodeEngineUpdate
  split
  · exact .next h
  · exact .ite (.next h) (.ite (.next (.setLongData (.capChanged (.returnEngine (.settle h)))))
      (.ite (.next (.setLongData (.log (.modEng (.capChanged (.returnEngine (.settle h)))))))
      (.next (.setLongData (.capChanged (.returnEngine (.settle h)))))))

theorem Safe.endUcode (h : Safe cs s) {l : LongOp} : Safe cs (s.endUcode l) :=
  .ite (.endLong h) (.ite h (.ite (.endLong (.log h)) (.endLong (.log (.capChanged (.set h))))))

theorem Leaves.execRecalibrate (h : Safe cs s) {pair : Fin 8} : Leaves cs (execRecalibrate pair s) :=
  .mbxCmd h (fun _ _ h₁ => .ite₂ h₁ (.ite₂ h₁ (.startLong h₁)))

theorem Safe.logTarget (h : Safe cs s) {target i res : Nat} : Safe cs (s.logTarget target i res) := by
  unfold State.logTarget
  split
  exact .log h

theorem Safe.endRecalibrate (h : Safe cs s) {l : LongOp} {ok : Bool} : Safe cs (s.endRecalibrate l ok) := by
  unfold State.endRecalibrate
  refine .ite (.endLong (.logTarget h)) (.ite ?_ ?_)
  · split
    · exact .ite (.set (.setLongData h)) (.setLongData h)
    · exact .modPort (.setLongData h)
    · exact .wantRetrain (.setLongData h)
  · split
    · exact .ite (.endLong (.logTarget (.report (.set h)))) (.ite h
        (.endLong (.set (.logTarget (.report (.capChanged (.set h)))))))
    · exact .ite (.endLong h) (.ite (.endLong (.set (.logTarget h))) h)
    · exact .ite (.endLong (.set h)) (.ite h (.endLong h))

theorem Safe.endRetrain (h : Safe cs s) {l : LongOp} : Safe cs (s.endRetrain l) :=
  .ite (.endLong (.set h)) (.ite h (.endLong h))

theorem Leaves.execLongOperationEnd (h : Safe cs s) {opcode : Nat} {ok : Bool} {data : List Byte} :
    Leaves cs (execLongOperationEnd opcode ok data s) := by
  unfold Machine.execLongOperationEnd
  split
  · exact .next h
  · refine .ite (.next h) (.next ?_)
    split
    · exact .endRetrain h
    · exact .endMember h
    · exact .endStore h
    · exact .endStage h
    · exact .endActivate h
    · exact .endUcode h
    · exact .endRecalibrate h
    · exact h

theorem Leaves.execKeySet (h : Safe cs s) {pair : Fin 8} {buf : Option (List Byte)} :
    Leaves cs (execKeySet pair buf s) := by
  unfold Machine.execKeySet
  refine .mbxCmd h (fun _ _ h₁ => ?_)
  split
  exacts [h₁, .ite₂ h₁ (.ite₂ h₁ (.ite₂ h₁ (.pair (.log (.set h₁)))))]

theorem Leaves.execDiagOpen (h : Safe cs s) {pair : Fin 8} : Leaves cs (execDiagOpen pair s) :=
  .mbxCmd h (fun _ _ h₁ => .pair (.log (.modSession h₁)))

theorem Leaves.execDebugUnlock (h : Safe cs s) {pair : Fin 8} : Leaves cs (execDebugUnlock pair s) :=
  .mbxCmd h (fun _ _ h₁ => .pair (.log (.set h₁)))

theorem Leaves.execCalWrite (h : Safe cs s) {pair : Fin 8} {buf : Option (List Byte)} :
    Leaves cs (execCalWrite pair buf s) := by
  unfold Machine.execCalWrite
  refine .mbxCmd h (fun _ _ h₁ => ?_)
  split
  exacts [h₁, .pair (.set h₁)]

theorem Leaves.execFuseWrite (h : Safe cs s) {pair : Fin 8} : Leaves cs (execFuseWrite pair s) :=
  .mbxCmd h (fun _ _ h₁ => .pair (.set h₁))

/-! ### `Machine/Boot.lean` -/

/-- After a reset ERR_N is held only where a thermal trip goes on (R519, R567). -/
theorem Safe.dieReset (h : Safe cs s) {off : Bool} : Safe cs (s.dieReset off) := by
  unfold State.dieReset
  have hl : State.reset.logOk := ⟨by decide, by decide, by decide⟩
  have hp : State.reset.powerOk := ⟨by decide, by decide, by decide⟩
  have hb : State.reset.bootOk := .inl (by decide)
  have he : ∀ trip : Bool, trip = (trip || false || false) := by decide
  exact ⟨⟨rfl, id, he _, hl, hp, hb, rfl⟩, h.2⟩

theorem Leaves.execReset (h : Safe cs s) : Leaves cs (execReset s) := .ite (.next h) (.next (.dieReset h))

theorem Leaves.execPowerGoodLoss (h : Safe cs s) : Leaves cs (execPowerGoodLoss s) :=
  .ite (.next h) (.next (.set (.dieReset h)))

theorem Safe.openLedger (h : Safe cs s) {fresh : Bool} : Safe cs (s.openLedger fresh) := .set h
theorem Safe.noteStep (h : Safe cs s) {n : Nat} {f : BootStep → BootStep} : Safe cs (s.noteStep n f) := .set h
theorem Safe.noteOutcome (h : Safe cs s) {o : Nat} : Safe cs (s.noteOutcome o) := .set h

theorem Safe.advanceBoot (h : Safe cs s) {n : Nat} (hn : n ≤ 24) : Safe cs (s.advanceBoot n) := by
  unfold State.advanceBoot
  extract_lets next _ t
  have ht : Safe cs t := .ite (.set h) h
  have hnext : next ≤ 24 ∨ next = 255 := by
    unfold next
    split <;> omega
  exact .drainLog (.noting (ht.boot hnext))

theorem Safe.failBoot (h : Safe cs s) {n detail : Nat} (hn : n ≤ 24) : Safe cs (s.failBoot n detail) := by
  unfold State.failBoot
  extract_lets alt t result mode c u v
  have ht : Safe cs t := .ite (.openLedger h) h
  have hv : Safe cs v := .drainLog (.log (.noteStep ht))
  exact .ite (.dieReset h) (.ite (.advanceBoot hv hn) (.ite (.dieReset (.noteOutcome hv))
    (.goFatal (.noteOutcome hv))))

theorem Safe.startClock (h : Safe cs s) {d khz : Nat} : Safe cs (s.startClock d khz) := .set h

theorem Safe.trainLink (h : Safe cs s) {alt : Bool} {w : BootWorld} : Safe cs (s.trainLink alt w) :=
  .foldl (.set h) (fun _ _ h₁ => .ite (.report (.log (.startClock h₁))) (.log (.startClock h₁)))

theorem Safe.trainDram (h : Safe cs s) {alt : Bool} : Safe cs (s.trainDram alt) :=
  .foldl (.foldl (.set h) (fun _ _ h₁ => .startClock h₁)) (fun _ _ h₁ => .ite h₁ (.drainLog (.log (.modChan h₁))))

/-- The equation is taken at the function, as in `Safe.nextChunk`. -/
theorem Safe.layRegions (h : Safe cs s) : Safe cs s.layRegions := by
  have e : @State.layRegions = @State.layRegions := rfl
  conv at e => rhs; delta State.layRegions
  obtain ⟨nt, hn⟩ : ∃ f, @State.newTable = f := ⟨_, rfl⟩
  have k : ∀ {t}, Safe cs t → SafeSome cs Prod.snd (nt t) := fun ht => hn ▸ .newTable ht
  rw [hn] at e
  rw [e]
  dsimp only
  split
  · exact .set h
  · exact .set (.outSome₂ (k (.set h)))

theorem Safe.trainPorts (h : Safe cs s) {alt : Bool} {w : BootWorld} : Safe cs (s.trainPorts alt w) := by
  unfold State.trainPorts
  refine .foldIdx h (fun _ _ _ h₁ => ?_)
  split
  exacts [h₁, .portUp (.startClock h₁)]

theorem Safe.joinCaravan (h : Safe cs s) : Safe cs s.joinCaravan :=
  .foldl (.applyRoutes h) (fun _ _ h₁ => .ite (.setDieState h₁) h₁)

theorem Safe.bootWork (h : Safe cs s) {n : Nat} {alt : Bool} {w : BootWorld} : Safe cs (s.bootWork n alt w) := by
  unfold State.bootWork
  dsimp only
  split
  · exact .startClock h
  · exact .openLedger h
  · exact .set (.set h)
  · exact .set h
  · exact .noting (.set (.ite (.set h) h))
  · exact .ite (h.power ⟨Nat.zero_le _, h.raising_le, h.idle_le⟩) h
  · exact .startClock (.startClock h)
  · exact .set h
  · exact .trainLink h
  · exact .trainDram h
  · exact h.mem rfl
  · exact .layRegions h
  · exact .set h
  · exact .foldl (.ite (.set h) h) (fun _ _ h₁ => .modEng h₁)
  · exact .trainPorts h
  · exact .joinCaravan h
  · exact .noteOutcome (.noting (.set h))
  · exact h

theorem Safe.bootStep (h : Safe cs s) {n r : Nat} {w : BootWorld} (hn : n ≤ 24) : Safe cs (s.bootStep n r w) := by
  unfold State.bootStep
  extract_lets mode alt x err t c u v
  have ht : Safe cs t := .bootWork h
  have hu : Safe cs u := .ite ht (.noteStep ht)
  have hv : Safe cs v := .ite (.log hu) hu
  exact .ite (.advanceBoot (.noteStep h) hn) (.ite (.failBoot h hn) (.ite (.failBoot h hn) (.advanceBoot hv hn)))

theorem Leaves.execBootStart (h : Safe cs s) {results : List Nat} {world : BootWorld} :
    Leaves cs (execBootStart results world s) := by
  unfold Machine.execBootStart
  extract_lets _ _ t u
  have ht : Safe cs t := .set h
  have hu : Safe cs u := .ite (.noting (ht.boot (.inl (by decide)))) ht
  refine .ite .fault (.ite (.next h) (.next (.foldl hu fun v r h₁ => ?_)))
  split
  · rename_i e
    simp only [Bool.and_eq_true, decide_eq_true_eq] at e
    obtain ⟨⟨-, hn⟩, -⟩ := e
    exact .bootStep h₁ hn
  · exact h₁

theorem Leaves.execBootStepTimeout (h : Safe cs s) : Leaves cs (execBootStepTimeout s) := by
  unfold Machine.execBootStepTimeout
  split
  · exact .next h
  · rename_i e
    simp only [Bool.or_eq_true, decide_eq_true_eq, not_or] at e
    obtain ⟨-, hn⟩ := e
    exact .next (.failBoot h (Nat.le_of_not_lt hn))

theorem Leaves.execBoundaryScan (h : Safe cs s) {tms tdi : Bool} : Leaves cs (execBoundaryScan tms tdi s) :=
  .ite (.next h) (.next (.set (.set h)))

/-! ### `Machine/Master.lean` -/

theorem Safe.diverge (h : Safe cs s) : Safe cs s.diverge := by
  unfold State.diverge
  extract_lets t window ops u _ v
  have ht : Safe cs t := .report h
  have hu : Safe cs u := .noting (.set ht)
  have hv : Safe cs v := .set hu
  exact .ite (.report ht) (.foldl hv fun _ _ h₁ => .endLong (.draw (.ite (.tearSettings h₁) h₁)))

theorem Leaves.execLockstepDivergence (h : Safe cs s) : Leaves cs (execLockstepDivergence s) :=
  .ite (.next h) (.next (.diverge h))

theorem Leaves.execMasterRestartComplete (h : Safe cs s) : Leaves cs (execMasterRestartComplete s) :=
  .ite (.next h) (.next (.noting (.set h)))

theorem Leaves.execHeartbeatTimeout (h : Safe cs s) : Leaves cs (execHeartbeatTimeout s) :=
  .ite (.next h) (.next (.report h))

theorem Leaves.execHeartbeatTick (h : Safe cs s) : Leaves cs (execHeartbeatTick s) :=
  .ite (.next h) (.next (.noting (.set h)))

theorem Leaves.execMasterAliveTimeout (h : Safe cs s) : Leaves cs (execMasterAliveTimeout s) :=
  .ite (.next h) (.next (.noting (.set h)))

theorem Safe.faultEffect (h : Safe cs s) {f : FaultIn} : Safe cs (s.faultEffect f) := by
  unfold State.faultEffect
  split
  · exact .ite (.dramCorrected h) h
  · exact .ite (.sliceCorrected h) (.ite (.sliceCorrected (.set h)) h)
  · exact .ite (.sliceCorrected h) (.ite (.sliceCorrected (.set h)) h)
  · exact .set h
  · exact .set h
  · exact .set h
  · exact .ite (.wayOff h) h
  · exact .set h
  · exact .ite h (.foldl h (fun _ _ h₁ => .trap h₁))
  · exact h

theorem Leaves.execFaultReport (h : Safe cs s) {f : FaultIn} : Leaves cs (execFaultReport f s) := by
  unfold Machine.execFaultReport
  refine .ite (.next h) ?_
  split
  · exact .next (.applyFences (.ite (.portDown h) (.recordFault h)))
  · exact .next (.ite (.loseChannel h) (.recordFault h))
  · exact .next (.ite (.recordFault h) (.diverge h))
  · split
    exacts [.next (.hang h), .next (.applyFences (.recordFault h))]
  · exact .next (.applyFences (.recordFault (.faultEffect h)))

/-! ### `Machine/Registers.lean` -/

theorem Safe.shadowed (h : Safe cs s) {key v : Nat} : Safe cs (s.shadowed key v) := .set h

theorem SafeSome.readKey (h : Safe cs s) {key : Nat} : SafeSome cs Prod.snd (s.readKey key) := by
  unfold State.readKey
  dsimp only
  refine .ite .none (.ite (.some (.pair (.draw h))) (.ite (.ite (.some (.pair (.shadowed (.counterValue h)))) .none)
    ?_))
  split
  exacts [.some (.pair (.shadowed h)), .map (fun _ _ => h)]

/-! ### `Machine/Window.lean` -/

theorem Safe.readWord (h : Safe cs s) {off : Nat} : Safe cs (s.readWord off).2 := by
  unfold State.readWord
  split
  exacts [.ite₂ (.pair (.shadowed h)) h, h]

theorem Safe.readPair (h : Safe cs s) {off : Nat} : Safe cs (s.readPair off).2 := by
  unfold State.readPair
  dsimp only
  split
  exacts [.pair (.shadowed h), .pair (.readWord (.readWord h))]

theorem Safe.bar0Read (h : Safe cs s) {off n : Nat} : Safe cs (s.bar0Read off n) := by
  unfold State.bar0Read
  dsimp only
  exact .ite h (.ite (.send (.readWord h)) (.ite (.send (.readPair h))
    (.ite (.send (.foldl₂ h (fun _ _ h₁ => .pair (.readWord h₁)))) (.send h))))

theorem Safe.writeRing (h : Safe cs s) {r off v : Nat} : Safe cs (s.writeRing r off v) := by
  unfold State.writeRing
  split
  exacts [.setRing h, .ite (.setRing h) (.setRing h), .ite (.lostWrite h) (.setRing h), h]

theorem Safe.write64 (h : Safe cs s) {off v : Nat} : Safe cs (s.write64 off v) :=
  .ite (.set h) (.ite (.ite (.setRing h) (.setRing h)) h)

theorem Safe.flushMsix (h : Safe cs s) {v : Nat} : Safe cs (s.flushMsix v) := .ite h (.send (.set h))
theorem Safe.writeMsix (h : Safe cs s) {v off w : Nat} : Safe cs (s.writeMsix v off w) := .flushMsix (.set h)

theorem Safe.writeWord (h : Safe cs s) {off v : Nat} : Safe cs (s.writeWord off v) :=
  .ite (.ite (.set h) (.write64 (.set h))) (.ite (.writeRing h) (.ite (.writeMsix h) h))

theorem Safe.ctrlWrite (h : Safe cs s) {n w : Nat} : Safe cs (s.ctrlWrite n w) :=
  .ite (.postMbx (.ite (.ackMbx h) h)) (.ite (.ackMbx h) h)

theorem Safe.mbxWrite (h : Safe cs s) {n o : Nat} {l : List Byte} : Safe cs (s.mbxWrite n o l) :=
  .ite (.ite (.lostWrite h) (.setMbx h)) (.ite (.ctrlWrite h) h)

theorem Safe.bar0Write (h : Safe cs s) {off : Nat} {l : List Byte} : Safe cs (s.bar0Write off l) :=
  .ite h (.ite (.lostWrite h) (.ite (.mbxWrite h) (.ite h (.ite (.writeWord h)
    (.ite (.write64 h) (.writeWord (.writeWord h)))))))

theorem Leaves.hostBar0 (h : Safe cs s) {off : Nat} {l : List Byte} : Leaves cs (s.hostBar0 off l) :=
  .ite (.next h) (.ite (.next (.hold h)) (.next (.bar0Write (.hostTouch h))))

theorem Leaves.execRegisterWrite (h : Safe cs s) {offset : Nat} {data : List Byte} :
    Leaves cs (execRegisterWrite offset data s) :=
  .hostBar0 h

theorem Leaves.execRegisterLowWordRead (h : Safe cs s) {offset len : Nat} :
    Leaves cs (execRegisterLowWordRead offset len s) :=
  .ite (.next h) (.ite (.next (.hold h)) (.next (.bar0Read (.hostTouch h))))

theorem Leaves.execMbxPost (h : Safe cs s) {pair : Fin 8} : Leaves cs (execMbxPost pair s) := .hostBar0 h
theorem Leaves.execMbxAck (h : Safe cs s) {pair : Fin 8} : Leaves cs (execMbxAck pair s) := .hostBar0 h

theorem Leaves.execCookieRingEnable (h : Safe cs s) {ring : Fin 16} {value : Word} :
    Leaves cs (execCookieRingEnable ring value s) :=
  .hostBar0 h

theorem Leaves.execCookieRingDisable (h : Safe cs s) {ring : Fin 16} {value : Word} :
    Leaves cs (execCookieRingDisable ring value s) :=
  .hostBar0 h

theorem Leaves.execCookieRingHeadWrite (h : Safe cs s) {ring : Fin 16} {value : Word} :
    Leaves cs (execCookieRingHeadWrite ring value s) :=
  .hostBar0 h

theorem Leaves.execMsixUnmask (h : Safe cs s) {vector : Option (Fin 2048)} {masked : Bool} :
    Leaves cs (execMsixUnmask vector masked s) := by
  unfold Machine.execMsixUnmask
  split
  · exact .hostBar0 h
  · exact .ite (.next h) (.next (.foldl (.set (.hostTouch h)) (fun _ _ h₁ => .flushMsix h₁)))

theorem Leaves.execCfgCrcCheck (h : Safe cs s) {block : Nat} : Leaves cs (execCfgCrcCheck block s) :=
  .ite (.next h) (.ite (.next (.ite (.applyFences (.report h)) h))
    (.ite (.next (.ite (.applyFences (.report h)) h)) (.next h)))

theorem Leaves.execRegRead (h : Safe cs s) {pair : Fin 8} : Leaves cs (execRegRead pair s) := by
  unfold Machine.execRegRead
  refine .mbxCmd h fun r t ht => .ite₂ ht (.ite₂ ht ?_)
  refine Safe.foldIdx₃ ht fun a i k h₁ => ?_
  split
  · exact .outSome₂ (.readKey h₁)
  · exact h₁

theorem SafeSome.writeKey (h : Safe cs s) {key v : Nat} : SafeSome cs Prod.snd (s.writeKey key v) :=
  .ite (.some (.pair (.write64 h))) (.ite (.some (.pair (.mbxWrite h)))
    (.ite (.some (.pair (.ctrlWrite h))) (.ite (.ite (.some h) (.some (.pair (.modPipe h)))) (.ite (.some h) .none))))

theorem Leaves.execRegWrite (h : Safe cs s) {pair : Fin 8} : Leaves cs (execRegWrite pair s) := by
  unfold Machine.execRegWrite
  dsimp only
  refine .mbxCmd h (fun r t ht => .ite₂ ht ?_)
  split
  · exact ht
  · rename_i old u e
    have hu : Safe cs u := .outSome₂ (.readKey ht)
    have hw : ∀ {v}, SafeSome cs Prod.snd (if r.n 0x20 8 = 0 then some (false, u) else u.writeKey (r.n 0x10 4) v) :=
      .ite (.some hu) (.writeKey hu)
    split
    · exact hu
    · split
      · exact .outSome₂ hw
      · exact .pair (.outSome₂ (.readKey (.outSome₂ hw)))

theorem Safe.apertureMiss (h : Safe cs s) {off : Nat} : Safe cs (s.apertureMiss off) := .report (.log (.set h))

theorem Safe.bar4Read (h : Safe cs s) {off n : Nat} {ext : Option (List Byte)} : Safe cs (s.bar4Read off n ext) := by
  unfold State.bar4Read
  refine .ite h ?_
  split
  exacts [.send (.apertureMiss (.out (.readVa h))), .send (.out (.readVa h))]

theorem Safe.bar4Write (h : Safe cs s) {off : Nat} {l : List Byte} : Safe cs (s.bar4Write off l) := by
  unfold State.bar4Write
  refine .ite h ?_
  split
  exacts [.apertureMiss (.out (.writeVa h)), .out (.writeVa h)]

theorem Safe.bar4Atomic (h : Safe cs s) {off : Nat} {op : AtomOp} {wide : Bool} {operand compare : Dword} :
    Safe cs (s.bar4Atomic off op wide operand compare) := by
  unfold State.bar4Atomic
  dsimp only
  refine .ite h ?_
  split
  · exact .send (.apertureMiss (.out (.translate h)))
  · exact .ite (.send (.atomAt (.out (.translate h)))) (.ite
      (.getD (.hostRequest (.out (.translate h))) (.send (.out (.translate h))))
      (.getD (.cvlRequest (.out (.translate h))) (.send (.out (.translate h)))))

theorem Leaves.execApertureRead (h : Safe cs s) {offset len : Nat} {ext : Option (List Byte)} :
    Leaves cs (execApertureRead offset len ext s) :=
  .ite (.next h) (.ite (.next (.hold h)) (.next (.bar4Read (.hostTouch h))))

theorem Leaves.execApertureWrite (h : Safe cs s) {offset : Nat} {data : List Byte} :
    Leaves cs (execApertureWrite offset data s) :=
  .ite (.next h) (.ite (.next (.hold h)) (.next (.bar4Write (.hostTouch h))))

theorem Leaves.execApertureAtomic (h : Safe cs s) {offset : Nat} {op : AtomOp} {wide : Bool}
    {operand compare : Dword} :
    Leaves cs (execApertureAtomic offset op wide operand compare s) :=
  .ite .fault (.ite (.next h) (.ite (.next (.hold h)) (.next (.bar4Atomic (.hostTouch h)))))

/-! ### `Machine/HostLink.lean` -/

theorem Safe.flrStop (h : Safe cs s) : Safe cs s.flrStop :=
  .set (.orphan (.set (.foldl (.chargeAll h) (fun _ _ h₁ => .modPart (.discard h₁)))))

theorem Safe.flrRemove (h : Safe cs s) : Safe cs s.flrRemove :=
  .set (.foldl (.foldl (.set h) (fun _ _ h₁ => .reclaim h₁)) (fun _ _ h₁ => .dropAsid h₁))

theorem Safe.flrDisable (h : Safe cs s) : Safe cs s.flrDisable := .set h
theorem Safe.flr (h : Safe cs s) : Safe cs s.flr := .log (.flrDisable (.flrRemove (.flrStop h)))
theorem Safe.flushOut (h : Safe cs s) : Safe cs s.flushOut := .ite h (.set h)

theorem Safe.configWrite (h : Safe cs s) {op : Nat} : Safe cs (s.configWrite op) := by
  unfold State.configWrite
  split
  exacts [.flr h, .set h, .flushOut (.set h)]

theorem Leaves.hostConfig (h : Safe cs s) {op : Nat} : Leaves cs (s.hostConfig op) :=
  .ite (.next h) (.ite (.next (.hold h)) (.next (.configWrite (.hostTouch h))))

theorem Leaves.execFunctionLevelReset (h : Safe cs s) : Leaves cs (execFunctionLevelReset s) := .hostConfig h
theorem Leaves.execD3hotEntry (h : Safe cs s) : Leaves cs (execD3hotEntry s) := .hostConfig h
theorem Leaves.execD0Return (h : Safe cs s) : Leaves cs (execD0Return s) := .hostConfig h
theorem Safe.requestFault (h : Safe cs s) {code : Nat} {q : NpReq} : Safe cs (s.requestFault code q) := .recordFault h

theorem Safe.failRequest (h : Safe cs s) {code tag : Nat} {q : NpReq} : Safe cs (s.failRequest code tag q) :=
  .deliverTo (.requestFault (.set h))

theorem Leaves.execHostCompletion (h : Safe cs s) {tag status : Nat} {data : List Byte} {poison : Bool} :
    Leaves cs (execHostCompletion tag status data poison s) := by
  unfold Machine.execHostCompletion
  split
  · exact .next h
  · exact .ite (.next h) (.ite (.next (.failRequest h)) (.ite (.next (.failRequest h))
      (.ite (.next h) (.next (.deliverTo (.set h))))))

theorem Leaves.execHostCompletionTimeout (h : Safe cs s) {tag : Nat} : Leaves cs (execHostCompletionTimeout tag s) :=
    by
  unfold Machine.execHostCompletionTimeout
  split
  exacts [.next h, .ite (.next h) (.next (.failRequest h))]

theorem Leaves.execPoisonedTlpRx (h : Safe cs s) {offset : Nat} {data : List Byte} :
    Leaves cs (execPoisonedTlpRx offset data s) := by
  unfold Machine.execPoisonedTlpRx
  dsimp only
  refine .ite (.next h) ?_
  split
  · exact .next (.apertureMiss (.out (.pieces (.report (.hostTouch h)))))
  · refine .next (.foldl₂ (.pair (.out (.pieces (.report (.hostTouch h)))))
      (fun _ _ h₁ => .pair (.ite ?_ (.ite (.writePiece h₁) (.cvlStoreAs h₁)))))
    split
    exacts [.setPoison (.writePhys h₁), .setPoison (.writePhys h₁), .writePhys h₁]

theorem Leaves.execMalformedTlpRx (h : Safe cs s) : Leaves cs (execMalformedTlpRx s) :=
  .ite (.next h) (.next (.report h))

theorem Leaves.execHostLinkDown (h : Safe cs s) : Leaves cs (execHostLinkDown s) :=
  .ite (.next h) (.next (.report (.set h)))

theorem Leaves.execHostLinkFlitReplay (h : Safe cs s) : Leaves cs (execHostLinkFlitReplay s) :=
  .ite (.next h) (.next (.report (.set h)))

theorem Leaves.execHostLinkRetrained (h : Safe cs s) {modules lanes : Nat} :
    Leaves cs (execHostLinkRetrained modules lanes s) :=
  .ite (.next h) (.ite (.next (.report h)) (.next (.ite (.capChanged
    (.ite (.report (.report (.log (.set h)))) (.report (.log (.set h)))))
    (.ite (.report (.report (.log (.set h)))) (.report (.log (.set h)))))))

theorem Safe.performHeld (h : Safe cs s) {w : HeldWrite} : Safe cs (s.performHeld w) := by
  unfold State.performHeld
  refine .ite ?_ ?_
  · split
    exacts [.configWrite h, h]
  · split
    · exact .bar0Write h
    · exact .bar2Write h
    · exact .bar4Write h
    · exact .bar0Read h
    · exact .bar4Read h
    · exact .bar4Atomic h
    · exact .configWrite h

theorem Safe.wakePipes (h : Safe cs s) : Safe cs s.wakePipes := .foldl (.restartPipes h) (fun _ _ h₁ => .modPipe h₁)

theorem Leaves.execWakeComplete (h : Safe cs s) : Leaves cs (execWakeComplete s) := by
  unfold Machine.execWakeComplete
  extract_lets old held took _ _ t u
  have ht : Safe cs t := .flushOut (.set h)
  have hu : Safe cs u := .log (.wakePipes (.foldl ht fun _ _ k => .performHeld k))
  exact .ite (.next h) (.next (.ite hu (.interrupt hu)))

/-! ### The step -/

/-- Every command keeps the invariant and leaves the commands behind it where they are. -/
theorem exec_leaves (h : Safe cs s) (c : Instr) : Leaves cs (exec c s) := by
  unfold exec
  cases c with
  | bra => exact .execBra h
  | jmp => exact .execJmp h
  | call => exact .execCall h
  | calli => exact .execCalli h
  | exit => exact .execExit h
  | join => exact .execJoin h
  | yield => exact .execYield h
  | sleep => exact .execSleep h
  | gmask => exact .execGmask h
  | trap => exact .execTrap h
  | nop => exact .execNop h
  | barSync => exact .execBarSync h
  | barArrive => exact .execBarArrive h
  | barWait => exact .execBarWait h
  | shfl => exact .execShfl h
  | vote => exact .execVote h
  | fence => exact .execFence h
  | atomAdd => exact .execAtomAdd h
  | atomSmin => exact .execAtomSmin h
  | atomUmin => exact .execAtomUmin h
  | atomSmax => exact .execAtomSmax h
  | atomUmax => exact .execAtomUmax h
  | atomAnd => exact .execAtomAnd h
  | atomOr => exact .execAtomOr h
  | atomXor => exact .execAtomXor h
  | atomExch => exact .execAtomExch h
  | atomCas => exact .execAtomCas h
  | atomInc => exact .execAtomInc h
  | atomDec => exact .execAtomDec h
  | atomFadd => exact .execAtomFadd h
  | atomFmin => exact .execAtomFmin h
  | atomFmax => exact .execAtomFmax h
  | alloc => exact .execAlloc h
  | free => exact .execFree h
  | iadd => exact .execIadd h
  | isub => exact .execIsub h
  | imin => exact .execImin h
  | imax => exact .execImax h
  | and => exact .execAnd h
  | or => exact .execOr h
  | xor => exact .execXor h
  | not => exact .execNot h
  | shl => exact .execShl h
  | shr => exact .execShr h
  | sar => exact .execSar h
  | popc => exact .execPopc h
  | clz => exact .execClz h
  | brev => exact .execBrev h
  | bfe => exact .execBfe h
  | bfi => exact .execBfi h
  | isetp => exact .execIsetp h
  | sel => exact .execSel h
  | mov => exact .execMov h
  | imad => exact .execImad h
  | imulHi => exact .execImulHi h
  | fadd => exact .execFadd h
  | fmul => exact .execFmul h
  | ffma => exact .execFfma h
  | fmin => exact .execFmin h
  | fmax => exact .execFmax h
  | fabs => exact .execFabs h
  | fneg => exact .execFneg h
  | fsetp => exact .execFsetp h
  | hadd2 => exact .execHadd2 h
  | hmul2 => exact .execHmul2 h
  | hfma2 => exact .execHfma2 h
  | rcp => exact .execRcp h
  | rsq => exact .execRsq h
  | sqrt => exact .execSqrt h
  | exp2 => exact .execExp2 h
  | log2 => exact .execLog2 h
  | sin => exact .execSin h
  | cos => exact .execCos h
  | uadd => exact .execUadd h
  | usub => exact .execUsub h
  | umul => exact .execUmul h
  | uand => exact .execUand h
  | uor => exact .execUor h
  | uxor => exact .execUxor h
  | ushl => exact .execUshl h
  | ushr => exact .execUshr h
  | umov => exact .execUmov h
  | usetp => exact .execUsetp h
  | cvt => exact .execCvt h
  | ld => exact .execLd h
  | st => exact .execSt h
  | tmma => exact .execTmma h
  | tfill => exact .execTfill h
  | tspill => exact .execTspill h
  | tcvt => exact .execTcvt h
  | twait => exact .execTwait h
  | tex => exact .execTex h
  | texb => exact .execTexb h
  | texl => exact .execTexl h
  | texg => exact .execTexg h
  | tld => exact .execTld h
  | tg4 => exact .execTg4 h
  | tq => exact .execTq h
  | rqInit => exact .execRqInit h
  | rqProceed => exact .execRqProceed h
  | rqConfirm => exact .execRqConfirm h
  | rqGenhit => exact .execRqGenhit h
  | rqTerminate => exact .execRqTerminate h
  | rqGet => exact .execRqGet h
  | pqKnn => exact .execPqKnn h
  | pqRadius => exact .execPqRadius h
  | tla => exact .execTla h
  | tsa => exact .execTsa h
  | tldr => exact .execTldr h
  | tstr => exact .execTstr h
  | stringPromotion => exact .execStringPromotion h
  | budgetExpiry => exact .execBudgetExpiry h
  | sleepExpiry => exact .execSleepExpiry h
  | workgroupLaunch => exact .execWorkgroupLaunch h
  | stringFree => exact .execStringFree h
  | tensorInstructionStart => exact .execTensorInstructionStart h
  | tensorInstructionComplete => exact .execTensorInstructionComplete h
  | gangArrive => exact .execGangArrive h
  | gangResume => exact .execGangResume h
  | granuleBoundaryMove => exact .execGranuleBoundaryMove h
  | doorbell => exact .execDoorbell h
  | commandAccept => exact .execCommandAccept h
  | commandRetire => exact .execCommandRetire h
  | queueNop => exact .execQueueNop h
  | dispatch => exact .execDispatch h
  | gangLayer => exact .execGangLayer h
  | eventAwait => exact .execEventAwait h
  | eventRecord => exact .execEventRecord h
  | copy => exact .execCopy h
  | fill => exact .execFill h
  | watchTimerExpiry => exact .execWatchTimerExpiry h
  | passBegin => exact .execPassBegin h
  | draw => exact .execDraw h
  | passEnd => exact .execPassEnd h
  | geometryPhaseStart => exact .execGeometryPhaseStart h
  | tilesPhaseStart => exact .execTilesPhaseStart h
  | passRetirement => exact .execPassRetirement h
  | growWaitExpiry => exact .execGrowWaitExpiry h
  | compress => exact .execCompress h
  | decompress => exact .execDecompress h
  | batchStart => exact .execBatchStart h
  | switchPoint => exact .execSwitchPoint h
  | tileHold => exact .execTileHold h
  | tileFree => exact .execTileFree h
  | batchEnd => exact .execBatchEnd h
  | sliceEnd => exact .execSliceEnd h
  | convoyUnreadyReschedule => exact .execConvoyUnreadyReschedule h
  | boundarySwitch => exact .execBoundarySwitch h
  | gracePeriodExpiry => exact .execGracePeriodExpiry h
  | parkLimitExpiry => exact .execParkLimitExpiry h
  | preemptionStopTimeout => exact .execPreemptionStopTimeout h
  | preemptionSaveComplete => exact .execPreemptionSaveComplete h
  | convoyRestore => exact .execConvoyRestore h
  | chargePointTick => exact .execChargePointTick h
  | translationWalk => exact .execTranslationWalk h
  | faultRecordWrite => exact .execFaultRecordWrite h
  | objectReclaim => exact .execObjectReclaim h
  | l2Atomic => exact .execL2Atomic h
  | l2Fill => exact .execL2Fill h
  | dramReadModifyWrite => exact .execDramReadModifyWrite h
  | wayCeLimitReached => exact .execWayCeLimitReached h
  | scrubRead => exact .execScrubRead h
  | scrubLapEnd => exact .execScrubLapEnd h
  | lapWarnExpiry => exact .execLapWarnExpiry h
  | phySamplerStep => exact .execPhySamplerStep h
  | dqsOscillatorRead => exact .execDqsOscillatorRead h
  | impedanceCalibration => exact .execImpedanceCalibration h
  | channelRetrain => exact .execChannelRetrain h
  | migrationGranuleCopy => exact .execMigrationGranuleCopy h
  | channelLost => exact .execChannelLost h
  | registerWrite => exact .execRegisterWrite h
  | registerLowWordRead => exact .execRegisterLowWordRead h
  | mbxPost => exact .execMbxPost h
  | mbxAck => exact .execMbxAck h
  | cookieRingEnable => exact .execCookieRingEnable h
  | cookieRingDisable => exact .execCookieRingDisable h
  | cookieRingHeadWrite => exact .execCookieRingHeadWrite h
  | cfgCrcCheck => exact .execCfgCrcCheck h
  | msixUnmask => exact .execMsixUnmask h
  | apertureRead => exact .execApertureRead h
  | apertureWrite => exact .execApertureWrite h
  | apertureAtomic => exact .execApertureAtomic h
  | functionLevelReset => exact .execFunctionLevelReset h
  | d3hotEntry => exact .execD3hotEntry h
  | d0Return => exact .execD0Return h
  | hostCompletion => exact .execHostCompletion h
  | hostCompletionTimeout => exact .execHostCompletionTimeout h
  | poisonedTlpRx => exact .execPoisonedTlpRx h
  | malformedTlpRx => exact .execMalformedTlpRx h
  | hostLinkDown => exact .execHostLinkDown h
  | sessionOpen => exact .execSessionOpen h
  | sessionAuth => exact .execSessionAuth h
  | sessionClose => exact .execSessionClose h
  | challengeExpiry => exact .execChallengeExpiry h
  | authLockoutEnd => exact .execAuthLockoutEnd h
  | ping => exact .execPing h
  | regRead => exact .execRegRead h
  | regWrite => exact .execRegWrite h
  | queueCreate => exact .execQueueCreate h
  | queueDestroy => exact .execQueueDestroy h
  | queueRestart => exact .execQueueRestart h
  | eventAlloc => exact .execEventAlloc h
  | eventFree => exact .execEventFree h
  | eventBind => exact .execEventBind h
  | partitionSet => exact .execPartitionSet h
  | convoyCreate => exact .execConvoyCreate h
  | convoyDestroy => exact .execConvoyDestroy h
  | convoySetShare => exact .execConvoySetShare h
  | convoySetTimed => exact .execConvoySetTimed h
  | contextRead => exact .execContextRead h
  | asidCreate => exact .execAsidCreate h
  | asidDestroy => exact .execAsidDestroy h
  | mmuSetFaultRingEnable => exact .execMmuSetFaultRingEnable h
  | mmuSetFaultRingDisable => exact .execMmuSetFaultRingDisable h
  | faultResolveRetry => exact .execFaultResolveRetry h
  | faultResolveDecline => exact .execFaultResolveDecline h
  | faultResolveAbort => exact .execFaultResolveAbort h
  | objCreate => exact .execObjCreate h
  | objAlias => exact .execObjAlias h
  | objFree => exact .execObjFree h
  | objQuery => exact .execObjQuery h
  | heapCreate => exact .execHeapCreate h
  | heapAdd => exact .execHeapAdd h
  | heapDestroy => exact .execHeapDestroy h
  | heapQuery => exact .execHeapQuery h
  | l2SetStrongroom => exact .execL2SetStrongroom h
  | drcConfigure => exact .execDrcConfigure h
  | drcRetrain => exact .execDrcRetrain h
  | eccLogRead => exact .execEccLogRead h
  | eccLogClear => exact .execEccLogClear h
  | dspPipeSet => exact .execDspPipeSet h
  | dspPipeEnableOn => exact .execDspPipeEnableOn h
  | dspPipeEnableOff => exact .execDspPipeEnableOff h
  | dspLayerSet => exact .execDspLayerSet h
  | dspScalerLoad => exact .execDspScalerLoad h
  | cvlRouteSet => exact .execCvlRouteSet h
  | cvlMemberAdmit => exact .execCvlMemberAdmit h
  | cvlMemberRemove => exact .execCvlMemberRemove h
  | sampleRingSetEnable => exact .execSampleRingSetEnable h
  | sampleRingSetDisable => exact .execSampleRingSetDisable h
  | fltRead => exact .execFltRead h
  | logbookRead => exact .execLogbookRead h
  | fltPolicySet => exact .execFltPolicySet h
  | unitFence => exact .execUnitFence h
  | unitReadmit => exact .execUnitReadmit h
  | errnSet => exact .execErrnSet h
  | pwrHalt => exact .execPwrHalt h
  | pwrLimitSet => exact .execPwrLimitSet h
  | settingGet => exact .execSettingGet h
  | settingSet => exact .execSettingSet h
  | storeSettings => exact .execStoreSettings h
  | fwStage => exact .execFwStage h
  | fwActivate => exact .execFwActivate h
  | ucodeUpdate => exact .execUcodeUpdate h
  | ucodeEngineUpdate => exact .execUcodeEngineUpdate h
  | recalibrate => exact .execRecalibrate h
  | keySet => exact .execKeySet h
  | diagOpen => exact .execDiagOpen h
  | debugUnlock => exact .execDebugUnlock h
  | calWrite => exact .execCalWrite h
  | fuseWrite => exact .execFuseWrite h
  | longOperationEnd => exact .execLongOperationEnd h
  | strongroomConversionEnd => exact .execStrongroomConversionEnd h
  | frameStart => exact .execFrameStart h
  | fsyncEdge => exact .execFsyncEdge h
  | fsyncLostExpiry => exact .execFsyncLostExpiry h
  | hpdEvent => exact .execHpdEvent h
  | flitReceive => exact .execFlitReceive h
  | link => exact .execLink h
  | linkAckTimeout => exact .execLinkAckTimeout h
  | portRetryBudgetExpiry => exact .execPortRetryBudgetExpiry h
  | portRetrainComplete => exact .execPortRetrainComplete h
  | rdReq => exact .execRdReq h
  | wr => exact .execWr h
  | wrPartial => exact .execWrPartial h
  | atomic => exact .execAtomic h
  | event => exact .execEvent h
  | mgmt => exact .execMgmt h
  | rdRsp => exact .execRdRsp h
  | wrAck => exact .execWrAck h
  | atomicRsp => exact .execAtomicRsp h
  | eventAck => exact .execEventAck h
  | cvlRequestTimeout => exact .execCvlRequestTimeout h
  | faultReport => exact .execFaultReport h
  | fenceQuietExpiry => exact .execFenceQuietExpiry h
  | errnPulseEnd => exact .execErrnPulseEnd h
  | lockstepDivergence => exact .execLockstepDivergence h
  | masterRestartComplete => exact .execMasterRestartComplete h
  | heartbeatTimeout => exact .execHeartbeatTimeout h
  | heartbeatTick => exact .execHeartbeatTick h
  | logbookWrite => exact .execLogbookWrite h
  | powerFailWarning => exact .execPowerFailWarning h
  | powerFailRelease => exact .execPowerFailRelease h
  | sampleSnapshot => exact .execSampleSnapshot h
  | sampleRecordWrite => exact .execSampleRecordWrite h
  | powerSample => exact .execPowerSample h
  | pmicCalibration => exact .execPmicCalibration h
  | cclkRaiseConfirmed => exact .execCclkRaiseConfirmed h
  | sensorSample => exact .execSensorSample h
  | thermalTrip => exact .execThermalTrip h
  | restEntry => exact .execRestEntry h
  | haltCommit => exact .execHaltCommit h
  | haltReached => exact .execHaltReached h
  | wakeSource => exact .execWakeSource h
  | wakeComplete => exact .execWakeComplete h
  | reset => exact .execReset h
  | powerGoodLoss => exact .execPowerGoodLoss h
  | bootStart => exact .execBootStart h
  | bootStepTimeout => exact .execBootStepTimeout h
  | masterAliveTimeout => exact .execMasterAliveTimeout h
  | progressCounterSample => exact .execProgressCounterSample h
  | hostLinkFlitReplay => exact .execHostLinkFlitReplay h
  | hostLinkRetrained => exact .execHostLinkRetrained h
  | pipeLinkTrainingEnd => exact .execPipeLinkTrainingEnd h
  | scoreboardRelease => exact .execScoreboardRelease h
  | boundaryScan => exact .execBoundaryScan h

/-- Settles O60: an idle cycle by `Safe.tick`, a command by `exec_leaves`. -/
theorem everyStepKeepsTheInvariant : Obligations.EveryStepKeepsTheInvariant := by
  unfold Obligations.EveryStepKeepsTheInvariant
  intro s t hs
  unfold step
  cases hp : s.pending with
  | nil =>
    have h : Safe [] s := ⟨hs, hp⟩
    exact Leaves.next (.tick h) t
  | cons c rest =>
    have h : Safe rest { s with pending := rest } :=
      ⟨⟨hs.mem, hs.fatal, hs.err, hs.log, hs.power, hs.boot, hs.records⟩, rfl⟩
    exact exec_leaves h c t

end Sys2Proof.Machine

/-! ## The integer TMMA computes the exact dot product modulo 2^32

Wrapping sums are read as congruences: `Term.Wraps t z` says that the accumulator `t` is an integer congruent to `z` modulo
2^32. One set of products adds its exact sum up to congruence (`setSum_wraps`), a fold of such steps adds the sum of the
steps (`foldl_adds`), and the sets, windows and passes of either dataflow partition the reduction (`sum_chunks`,
`sum_passesOf`). On the side of tile memory, a region whose rows do not overlap holds each of its bytes at a place of its
own (`Desc.at_inj`, `rowOffset_inj`), so that a written element is read back and disturbs no other. -/

namespace Sys2Proof.Machine

/-! ### Two's complement as a congruence (R36) -/

theorem wrapInt_modEq (n : Nat) (i : Int) : (wrapInt n i : Int) ≡ i [ZMOD (2 ^ n : Nat)] := by
  have h : (0 : Int) ≤ i % (2 ^ n : Nat) := Int.emod_nonneg _ (by positivity)
  simpa only [wrapInt, Int.toNat_of_nonneg h] using Int.mod_modEq i _

theorem wrapInt_congr {n : Nat} {i j : Int} (h : i ≡ j [ZMOD (2 ^ n : Nat)]) : wrapInt n i = wrapInt n j := by
  rw [wrapInt, wrapInt, h]

theorem wrapInt_lt (n : Nat) (i : Int) : wrapInt n i < 2 ^ n := by
  have h : i % (2 ^ n : Nat) < (2 ^ n : Nat) := Int.emod_lt_of_pos _ (by positivity)
  have hp : 0 < 2 ^ n := by positivity
  rw [wrapInt]
  omega

theorem sext_modEq (n w : Nat) : sext n w ≡ w [ZMOD (2 ^ n : Nat)] := by
  have h : ((w % 2 ^ n : Nat) : Int) ≡ w [ZMOD (2 ^ n : Nat)] := by
    rw [Int.natCast_mod]
    exact Int.mod_modEq _ _
  unfold sext
  split
  · simpa using h.sub (Int.modEq_zero_iff_dvd.2 (dvd_refl ((2 ^ n : Nat) : Int)))
  · exact h

/-! ### Sums over pieces of an interval -/

/-- Steps that each add a term add their sum. -/
theorem foldl_adds {σ α M : Type} [AddMonoid M] {R : σ → M → Prop} {f : σ → α → σ} {g : α → M}
    (step : ∀ s z a, R s z → R (f s a) (z + g a)) (l : List α) {s : σ} {z : M} (h : R s z) :
    R (l.foldl f s) (z + (l.map g).sum) := by
  induction l generalizing s z with
  | nil => simpa using h
  | cons a l ih => simpa [add_assoc] using ih (step s z a h)

/-- The indices from `lo` that a set of `n` cells takes before `hi`. -/
theorem sum_filter_range (φ : Nat → Int) (lo hi n : Nat) :
    (((List.range n).filter (fun j => lo + j < hi)).map (fun j => φ (lo + j))).sum
      = ∑ x ∈ Finset.Ico lo (min hi (lo + n)), φ x := by
  induction n with
  | zero => simp
  | succ n ih =>
    rw [List.range_succ, List.filter_append, List.map_append, List.sum_append, ih]
    by_cases h : lo + n < hi
    · have e : min hi (lo + (n + 1)) = lo + n + 1 := by omega
      rw [e, Finset.sum_Ico_succ_top (by omega), min_eq_right h.le]
      simp [h]
    · have e : min hi (lo + (n + 1)) = min hi (lo + n) := by omega
      simp [h, e]

theorem sum_first_chunks (φ : Nat → Int) {lo hi : Nat} (n m : Nat) (h : lo ≤ hi) :
    ((List.range m).map (fun t => ∑ x ∈ Finset.Ico (lo + t * n) (min hi (lo + t * n + n)), φ x)).sum
      = ∑ x ∈ Finset.Ico lo (min hi (lo + m * n)), φ x := by
  induction m with
  | zero => simp [h]
  | succ m ih =>
    rw [List.range_succ, List.map_append, List.sum_append, ih, List.map_singleton, List.sum_singleton, Nat.succ_mul,
      ← Nat.add_assoc]
    by_cases hm : lo + m * n ≤ hi
    · rw [min_eq_right hm]
      exact Finset.sum_Ico_consecutive φ (by omega) (by omega)
    · have e : min hi (lo + m * n) = min hi (lo + m * n + n) := by omega
      rw [e, Finset.Ico_eq_empty (by omega : ¬ lo + m * n < min hi (lo + m * n + n)), Finset.sum_empty, add_zero]

/-- Chunks of `n` indices, as many as it takes, cover the interval once. -/
theorem sum_chunks (φ : Nat → Int) (lo hi : Nat) {n : Nat} (hn : 0 < n) :
    ((List.range ((hi - lo + n - 1) / n)).map
        (fun t => ∑ x ∈ Finset.Ico (lo + t * n) (min hi (lo + t * n + n)), φ x)).sum
      = ∑ x ∈ Finset.Ico lo hi, φ x := by
  by_cases h : lo ≤ hi
  · have cover : hi - lo ≤ (hi - lo + n - 1) / n * n := by
      have := Nat.div_add_mod (hi - lo + n - 1) n
      have := Nat.mod_lt (hi - lo + n - 1) hn
      rw [Nat.mul_comm]
      omega
    rw [sum_first_chunks φ n _ h, min_eq_left (by omega)]
  · have none : (hi - lo + n - 1) / n = 0 := Nat.div_eq_of_lt (by omega)
    rw [none, Finset.Ico_eq_empty (by omega)]
    simp

/-! ### Sets of integer products (R59, R115) -/

/-- An integer accumulator, known modulo 2^32. -/
def Term.Wraps (t : Term) (z : Int) : Prop := ∃ x, t = .int x ∧ x ≡ z [ZMOD (2 ^ 32 : Nat)]

theorem Term.wraps_int (z : Int) : (Term.int z).Wraps z := ⟨z, rfl, rfl⟩

theorem Term.Wraps.code_eq {t : Term} {z : Int} (h : t.Wraps z) : t.code = wrapInt 32 z := by
  obtain ⟨x, rfl, hx⟩ := h
  exact wrapInt_congr hx

theorem intSet_modEq (a : Int) (l : List Int) : intSet true a l ≡ a + l.sum [ZMOD (2 ^ 32 : Nat)] := by
  have hsum : l.foldl (· + ·) a = a + l.sum := by
    simpa using foldl_adds (R := Eq) (g := id) (fun _ _ x h => congrArg (· + x) h) l (rfl : a = a)
  calc intSet true a l
      = sext 32 (wrapInt 32 (a + l.sum)) := by rw [← hsum]; rfl
    _ ≡ wrapInt 32 (a + l.sum) [ZMOD (2 ^ 32 : Nat)] := sext_modEq _ _
    _ ≡ a + l.sum [ZMOD (2 ^ 32 : Nat)] := wrapInt_modEq _ _

theorem setSum_wraps {t : Term} {z : Int} (h : t.Wraps z) (l : List Int) :
    (setSum true t (l.map .int)).Wraps (z + l.sum) := by
  obtain ⟨x, rfl, hx⟩ := h
  refine ⟨intSet true x l, ?_, (intSet_modEq x l).trans (hx.add_right _)⟩
  simp [setSum, List.filterMap_map]

/-- An accumulator that is added to an output as a set of two values. -/
theorem setSum_wraps_singleton {t u : Term} {z y : Int} (h : t.Wraps z) (hu : u.Wraps y) :
    (setSum true t [u]).Wraps (z + y) := by
  obtain ⟨x, rfl, hx⟩ := hu
  obtain ⟨r, hr, hz⟩ := setSum_wraps h [x]
  exact ⟨r, hr, hz.trans (by simpa using hx.add_left z)⟩

theorem foldIdx_const {α σ : Type} (f : σ → α → σ) (l : List α) (s : σ) :
    foldIdx l s (fun s _ a => f s a) = l.foldl f s := by
  suffices h : ∀ n, (l.foldl (fun (p : Nat × σ) a => (p.1 + 1, f p.2 a)) (n, s)).2 = l.foldl f s from h 0
  induction l generalizing s with
  | nil => exact fun _ => rfl
  | cons a l ih => exact fun n => ih (f s a) (n + 1)

/-! ### Split passes (R63, R66) -/

/-- The piece of an integer operand that a pass takes; 3 is the whole. -/
def intPiece (p : Nat) (i : Int) : Int := if p = 3 then i else int16Piece p i

/-- The product that a pass forms of two integer operands. -/
def passProduct (p : Nat × Nat × Nat) (x y : Int) : Int := intPiece p.1 x * intPiece p.2.1 y * (2 ^ p.2.2 : Nat)

theorem Elem.piece_int (i : Int) (p : Nat) : (Elem.int i).piece p = .int (intPiece p i) := by
  unfold Elem.piece intPiece
  split <;> rfl

theorem product_int (x y : Int) (p : Nat × Nat × Nat) : product (.int x) (.int y) p = .int (passProduct p x y) := by
  simp only [product, Elem.piece_int, passProduct]

theorem int16Piece_recompose (x : Int) : int16Piece 0 x + int16Piece 1 x * 256 = x := by
  change x % 256 + x / 256 * 256 = x
  omega

/-- The passes of an integer operand pair add up to the whole product. -/
theorem sum_passesOf {a b : Code} (ha : a.isInt = true) (hb : b.isInt = true) (x y : Int) :
    ((passesOf a b).map (fun p => passProduct p x y)).sum = x * y := by
  have hfa : isF32 a = false := by cases a <;> simp_all [Code.isInt, isF32]
  have hfb : isF32 b = false := by cases b <;> simp_all [Code.isInt, isF32]
  have hx := int16Piece_recompose x
  have hy := int16Piece_recompose y
  unfold passesOf
  cases isI16 a <;> cases isI16 b <;> simp [hfa, hfb, passProduct, intPiece]
  case false.true => linear_combination x * hy
  case true.false => linear_combination y * hx
  case true.true => linear_combination y * hx + (int16Piece 0 x + int16Piece 1 x * 256) * hy

/-- Pass by pass over the reduction is product by product. -/
theorem sum_passes_comm {a b : Code} (ha : a.isInt = true) (hb : b.isInt = true) (α β : Nat → Int) (k : Nat) :
    ((passesOf a b).map (fun p => ∑ x ∈ Finset.Ico 0 k, passProduct p (α x) (β x))).sum
      = ((List.range k).map (fun x => α x * β x)).sum := by
  have swap : ∀ l : List (Nat × Nat × Nat), (l.map (fun p => ∑ x ∈ Finset.Ico 0 k, passProduct p (α x) (β x))).sum
      = ∑ x ∈ Finset.Ico 0 k, (l.map (fun p => passProduct p (α x) (β x))).sum := by
    intro l
    induction l with
    | nil => simp
    | cons p l ih => simp only [List.map_cons, List.sum_cons, ih, Finset.sum_add_distrib]
  rw [swap, Nat.Ico_zero_eq_range]
  simp only [sum_passesOf ha hb]
  rfl

/-! ### The two dataflows (R114, R115) -/

section Dataflows

variable {α β : Nat → Int}

/-- The products of one set, from index `lo` up to `hi`, with the accumulator that enters it. -/
theorem setSum_products_wraps (p : Nat × Nat × Nat) (lo hi n : Nat) {t : Term} {z : Int} (h : t.Wraps z) :
    (setSum true t (((List.range n).filter (fun j => lo + j < hi)).map
        (fun j => product (.int (α (lo + j))) (.int (β (lo + j))) p))).Wraps
      (z + ∑ x ∈ Finset.Ico lo (min hi (lo + n)), passProduct p (α x) (β x)) := by
  have key := setSum_wraps h (((List.range n).filter (fun j => lo + j < hi)).map
    (fun j => passProduct p (α (lo + j)) (β (lo + j))))
  rw [sum_filter_range (fun x => passProduct p (α x) (β x)), List.map_map] at key
  simpa only [product_int, Function.comp_def] using key

/-- The sets of `n` products each that take the indices from `lo` up to `hi`. -/
def addSets (p : Nat × Nat × Nat) (n lo hi : Nat) (a b : Nat → Elem) (t : Term) : Term :=
  (List.range ((hi - lo + n - 1) / n)).foldl (fun t i =>
    setSum true t (((List.range n).filter (fun j => lo + i * n + j < hi)).map
      (fun j => product (a (lo + i * n + j)) (b (lo + i * n + j)) p))) t

/-- An output that leaves the weight-stationary array: C's value, and whether C counts yet (R114). -/
def addOutput (st : Term × Bool) (part : Term) : Term × Bool :=
  if st.2 then (setSum true st.1 [part], true) else (part, true)

theorem outStationary_eq (ps : List (Nat × Nat × Nat)) (w k : Nat) (a b : Nat → Elem) (c : Term) :
    outStationary true ps w k a b c = ps.foldl (fun t p => addSets p w 0 k a b t) c := by
  simp only [outStationary, addSets, Nat.sub_zero, Nat.zero_add, Nat.mul_comm w]

theorem weightStationary_eq (ps : List (Nat × Nat × Nat)) (w k win : Nat) (a b : Nat → Elem) (zero c : Term)
    (acc : Bool) :
    weightStationary true ps w k win a b zero c acc none false
      = (ps.foldl (fun st p => (List.range ((k + win - 1) / win)).foldl (fun st i =>
          addOutput st (addSets p (16 * w) (i * win) (min k (i * win + win)) a b zero)) st) (c, acc)).1 := by
  simp only [weightStationary, Bool.false_and, Bool.false_eq_true, if_false, foldIdx_const]
  rfl

theorem addSets_wraps (p : Nat × Nat × Nat) {n : Nat} (hn : 0 < n) (lo hi : Nat) {t : Term} {z : Int} (h : t.Wraps z) :
    (addSets p n lo hi (fun x => .int (α x)) (fun x => .int (β x)) t).Wraps
      (z + ∑ x ∈ Finset.Ico lo hi, passProduct p (α x) (β x)) := by
  rw [← sum_chunks _ lo hi hn]
  exact foldl_adds (R := Term.Wraps) (fun _ _ i ht => setSum_products_wraps p (lo + i * n) hi n ht) _ h

theorem outStationary_wraps {a b : Code} (ha : a.isInt = true) (hb : b.isInt = true) {w : Nat} (hw : 0 < w) (k : Nat)
    {c : Term} {z : Int} (h : c.Wraps z) :
    (outStationary true (passesOf a b) w k (fun x => .int (α x)) (fun x => .int (β x)) c).Wraps
      (z + ((List.range k).map (fun x => α x * β x)).sum) := by
  rw [← sum_passes_comm ha hb, outStationary_eq]
  exact foldl_adds (R := Term.Wraps) (fun _ _ p ht => addSets_wraps p hw 0 k ht) _ h

/-- An output with its sum so far, which is nothing as long as C does not count. -/
def OutputWraps (st : Term × Bool) (z : Int) : Prop := st.1.Wraps z ∧ (st.2 = false → z = 0)

theorem OutputWraps.wraps {st : Term × Bool} {z : Int} (h : OutputWraps st z) : st.1.Wraps z := h.1

theorem addOutput_wraps {st : Term × Bool} {z y : Int} {part : Term} (h : OutputWraps st z) (hp : part.Wraps y) :
    OutputWraps (addOutput st part) (z + y) := by
  obtain ⟨hc, hz⟩ := h
  unfold addOutput
  cases hs : st.2 with
  | true => simpa [OutputWraps] using setSum_wraps_singleton hc hp
  | false => simpa [OutputWraps, hz hs] using hp

/-- The windows of one pass. -/
theorem windows_wraps (p : Nat × Nat × Nat) {w win : Nat} (hw : 0 < w) (hwin : 0 < win) (k : Nat) {st : Term × Bool}
    {z : Int} (h : OutputWraps st z) :
    OutputWraps ((List.range ((k + win - 1) / win)).foldl (fun st i => addOutput st
        (addSets p (16 * w) (i * win) (min k (i * win + win)) (fun x => .int (α x)) (fun x => .int (β x)) (.int 0))) st)
      (z + ∑ x ∈ Finset.Ico 0 k, passProduct p (α x) (β x)) := by
  rw [← sum_chunks _ 0 k hwin]
  simp only [Nat.sub_zero, Nat.zero_add]
  refine foldl_adds (R := OutputWraps) (fun _ _ i hst => addOutput_wraps hst ?_) _ h
  simpa only [zero_add] using
    addSets_wraps (α := α) (β := β) p (by omega : 0 < 16 * w) (i * win) (min k (i * win + win)) (Term.wraps_int 0)

theorem weightStationary_wraps {a b : Code} (ha : a.isInt = true) (hb : b.isInt = true) {w win : Nat} (hw : 0 < w)
    (hwin : 0 < win) (k : Nat) {c : Term} {z : Int} {acc : Bool} (h : c.Wraps z) (hacc : acc = false → z = 0) :
    (weightStationary true (passesOf a b) w k win (fun x => .int (α x)) (fun x => .int (β x)) (.int 0) c acc none
      false).Wraps (z + ((List.range k).map (fun x => α x * β x)).sum) := by
  have first : OutputWraps (c, acc) z := ⟨h, hacc⟩
  rw [← sum_passes_comm ha hb, weightStationary_eq]
  exact (foldl_adds (R := OutputWraps) (fun _ _ p hst => windows_wraps p hw hwin k hst) _ first).wraps

end Dataflows

/-! ### Reading back what a loop has written -/

theorem loop_induct {σ : Type} {P : σ → Prop} {f : σ → Nat → σ} {n : Nat}
    (step : ∀ s i, i < n → P s → P (f s i)) {s : σ} (h : P s) : P (loop n s f) :=
  List.foldlRecOn (List.range n) f h fun s hs i hi => step s i (List.mem_range.1 hi) hs

/-- A loop whose steps all leave `obs` alone leaves it alone. -/
theorem loop_keeps {σ γ : Type} (obs : σ → γ) {f : σ → Nat → σ} {n : Nat} (keep : ∀ s i, i < n → obs (f s i) = obs s)
    (s : σ) : obs (loop n s f) = obs s :=
  loop_induct (P := fun u => obs u = obs s) (fun u i hi hu => (keep u i hi).trans hu) rfl

/-- What one step sets and the others leave alone stands after the loop. -/
theorem loop_sets {σ γ : Type} (obs : σ → γ) {f : σ → Nat → σ} {y : γ} {n i : Nat} (hi : i < n)
    (hit : ∀ s, obs (f s i) = y) (keep : ∀ s j, j < n → j ≠ i → obs (f s j) = obs s) (s : σ) :
    obs (loop n s f) = y := by
  induction n with
  | zero => omega
  | succ n ih =>
    rw [loop, List.range_succ, List.foldl_append]
    by_cases h : i = n
    · subst h
      exact hit _
    · exact (keep _ n (by omega) (by omega)).trans (ih (by omega) fun s j hj => keep s j (by omega))

theorem Eng.tileByte_setTile (v : Eng) (o x : Nat) (b : Byte) :
    (v.setTile o b).tileByte x = if x = o then b else v.tileByte x := by
  by_cases h : x = o
  · simp [Eng.tileByte, Eng.setTile, h]
  · simp [Eng.tileByte, Eng.setTile, mget_mset_ne _ _ h, h]

/-! ### Places of a region (R118, R123) -/

theorem descOf_spread_pos (d : BitVec 128) : 0 < (descOf d).spread := Nat.two_pow_pos _

/-- A line of a legal region lies inside its granule. -/
theorem Desc.line_in_granule {d : Desc} {w : BitVec 128} {tb x : Nat} (h : d.legal w tb = true) (hs : 0 < d.spread)
    (hx : x / 64 < d.lines) : d.offset % 262144 + x / 64 / d.spread * 64 + 64 ≤ 262144 := by
  have hgran : d.offset % 262144 + 64 * ((d.lines + d.spread - 1) / d.spread) ≤ 262144 := by
    unfold Desc.legal at h
    cases hc : codeOf d.fmt with
    | none => simp [hc] at h
    | some c =>
      simp only [hc, Bool.and_eq_true, decide_eq_true_eq] at h
      obtain ⟨⟨-, fits⟩, -⟩ := h
      exact fits
  have hline : x / 64 / d.spread + 1 ≤ (d.lines + d.spread - 1) / d.spread := by
    rw [← Nat.add_div_right _ hs]
    exact Nat.div_le_div_right (by omega)
  omega

/-- Bytes of a legal region have places of their own. -/
theorem Desc.at_inj {d : Desc} {w : BitVec 128} {tb x y : Nat} (h : d.legal w tb = true) (hs : 0 < d.spread)
    (hx : x / 64 < d.lines) (hy : y / 64 < d.lines) (e : d.at x = d.at y) : x = y := by
  have gx := Desc.line_in_granule h hs hx
  have gy := Desc.line_in_granule h hs hy
  simp only [Desc.at] at e
  have hq : x / 64 / d.spread = y / 64 / d.spread := by omega
  have hr : x / 64 % d.spread = y / 64 % d.spread := by omega
  have hl : x / 64 = y / 64 := by
    rw [← Nat.div_add_mod (x / 64) d.spread, ← Nat.div_add_mod (y / 64) d.spread, hq, hr]
  omega

theorem rowOffset_inj {i j m x y : Nat} (hx : x < m) (hy : y < m) (e : i * m + x = j * m + y) : i = j ∧ x = y := by
  have hi : i = j := by
    have hm : 0 < m := by omega
    simpa [Nat.add_comm (_ * m), Nat.add_mul_div_right _ _ hm, Nat.div_eq_of_lt hx, Nat.div_eq_of_lt hy]
      using congrArg (· / m) e
  subst hi
  exact ⟨rfl, by omega⟩

/-! ### Elements of an INT32 region -/

theorem sum_bytes (x n : Nat) : ∑ b ∈ Finset.range n, x / 256 ^ b % 256 * 256 ^ b = x % 256 ^ n := by
  induction n with
  | zero => simp [Nat.mod_one]
  | succ n ih => rw [Finset.sum_range_succ, ih, Nat.mod_pow_succ, Nat.mul_comm (256 ^ n)]

theorem Eng.putC_eq_loop (v : Eng) (d : Desc) (f : Nat → Nat → Term) :
    v.putC d f = loop d.rows v (fun v i => loop d.cols v (fun v j => v.putElem d i j (f i j).code)) := rfl

/-- A legal INT32 region whose rows do not overlap. -/
structure Desc.Int32Rows (d : Desc) : Prop where
  legal : ∃ w tb, d.legal w tb = true
  spread_pos : 0 < d.spread
  fmt_eq : d.fmt = 0x03
  apart : d.sliceBytes ≤ 64 * d.pitch

/-- Place of byte `b` of element `j` of row `i`. -/
def Desc.place (d : Desc) (i j b : Nat) : Nat := d.at (i * d.pitch * 64 + (j * 4 + b))

section Int32Rows

variable {d : Desc} (hd : d.Int32Rows)
include hd

theorem Desc.Int32Rows.code_eq : d.code = .int 32 := by simp [Desc.code, hd.fmt_eq, codeOf]

theorem Desc.Int32Rows.sliceBytes_eq : d.sliceBytes = d.cols * 4 := by
  simp [Desc.sliceBytes, hd.code_eq, Code.width, rowBytes]

theorem Desc.Int32Rows.line_lt {i x : Nat} (hi : i < d.rows) (hx : x < d.cols * 4) :
    (i * d.pitch * 64 + x) / 64 < d.lines := by
  have hrow : i * d.pitch ≤ (d.rows - 1) * d.pitch := Nat.mul_le_mul_right _ (by omega)
  simp only [Desc.lines, hd.sliceBytes_eq]
  omega

/-- No two bytes of the region share a place. -/
theorem Desc.Int32Rows.place_inj {i j b i' j' b' : Nat} (hi : i < d.rows) (hj : j < d.cols) (hb : b < 4)
    (hi' : i' < d.rows) (hj' : j' < d.cols) (hb' : b' < 4) (e : d.place i j b = d.place i' j' b') :
    i = i' ∧ j = j' ∧ b = b' := by
  obtain ⟨w, tb, hl⟩ := hd.legal
  have hpitch := hd.apart
  rw [hd.sliceBytes_eq] at hpitch
  simp only [Desc.place] at e
  have hx := Desc.at_inj hl hd.spread_pos (hd.line_lt hi (by omega)) (hd.line_lt hi' (by omega)) e
  rw [Nat.mul_assoc, Nat.mul_assoc] at hx
  obtain ⟨hii, hxx⟩ := rowOffset_inj (by omega) (by omega) hx
  omega

theorem Desc.Int32Rows.elemCode_eq (v : Eng) (i j : Nat) :
    v.elemCode d i j = ∑ b ∈ Finset.range 4, (v.tileByte (d.place i j b)).toNat * 256 ^ b := by
  have key := foldl_adds (R := Eq) (g := fun b => (v.tileByte (d.place i j b)).toNat * 256 ^ b)
    (fun _ _ b h => congrArg (· + (v.tileByte (d.place i j b)).toNat * 256 ^ b) h) (List.range 4) (rfl : 0 = 0)
  rw [Nat.zero_add] at key
  simp only [Eng.elemCode, hd.code_eq, Code.width]
  rw [if_neg (by decide), if_neg (by decide)]
  exact key

theorem Desc.Int32Rows.putElem_eq (v : Eng) (i j x : Nat) :
    v.putElem d i j x = loop 4 v (fun v b => v.setTile (d.place i j b) (BitVec.ofNat 8 (x / 256 ^ b))) := by
  simp only [Eng.putElem, hd.code_eq, Code.width, Desc.place, Nat.add_assoc]

theorem Desc.Int32Rows.tileByte_putElem (v : Eng) {i j b : Nat} (hi : i < d.rows) (hj : j < d.cols) (hb : b < 4)
    (x : Nat) : (v.putElem d i j x).tileByte (d.place i j b) = BitVec.ofNat 8 (x / 256 ^ b) := by
  rw [hd.putElem_eq]
  refine loop_sets (fun v => v.tileByte (d.place i j b)) hb (fun v => ?_) (fun v b' hb' hne => ?_) v
  · simp [Eng.tileByte_setTile]
  · have hp : d.place i j b ≠ d.place i j b' := fun e => hne (hd.place_inj hi hj hb hi hj hb' e).2.2.symm
    simp [Eng.tileByte_setTile, hp]

theorem Desc.Int32Rows.tileByte_putElem_ne (v : Eng) {i j b i' j' : Nat} (hi : i < d.rows) (hj : j < d.cols)
    (hb : b < 4) (hi' : i' < d.rows) (hj' : j' < d.cols) (hne : ¬ (i' = i ∧ j' = j)) (x : Nat) :
    (v.putElem d i' j' x).tileByte (d.place i j b) = v.tileByte (d.place i j b) := by
  rw [hd.putElem_eq]
  refine loop_keeps (fun v => v.tileByte (d.place i j b)) (fun v b' hb' => ?_) v
  have hp : d.place i j b ≠ d.place i' j' b' := fun e => by
    obtain ⟨ei, ej, -⟩ := hd.place_inj hi hj hb hi' hj' hb' e
    exact hne ⟨ei.symm, ej.symm⟩
  simp [Eng.tileByte_setTile, hp]

theorem Desc.Int32Rows.elemCode_putElem (v : Eng) {i j : Nat} (hi : i < d.rows) (hj : j < d.cols) {x : Nat}
    (hx : x < 2 ^ 32) : (v.putElem d i j x).elemCode d i j = x := by
  calc (v.putElem d i j x).elemCode d i j
      = ∑ b ∈ Finset.range 4, x / 256 ^ b % 256 * 256 ^ b := by
        rw [hd.elemCode_eq]
        refine Finset.sum_congr rfl fun b hb => ?_
        rw [hd.tileByte_putElem v hi hj (Finset.mem_range.1 hb), BitVec.toNat_ofNat]
    _ = x % 256 ^ 4 := sum_bytes x 4
    _ = x := Nat.mod_eq_of_lt hx

theorem Desc.Int32Rows.elemCode_putElem_ne (v : Eng) {i j i' j' : Nat} (hi : i < d.rows) (hj : j < d.cols)
    (hi' : i' < d.rows) (hj' : j' < d.cols) (hne : ¬ (i' = i ∧ j' = j)) (x : Nat) :
    (v.putElem d i' j' x).elemCode d i j = v.elemCode d i j := by
  rw [hd.elemCode_eq, hd.elemCode_eq]
  refine Finset.sum_congr rfl fun b hb => ?_
  rw [hd.tileByte_putElem_ne v hi hj (Finset.mem_range.1 hb) hi' hj' hne]

theorem Desc.Int32Rows.elemCode_putC (v : Eng) (f : Nat → Nat → Term) {i j : Nat} (hi : i < d.rows) (hj : j < d.cols)
    (hx : (f i j).code < 2 ^ 32) : (v.putC d f).elemCode d i j = (f i j).code := by
  rw [Eng.putC_eq_loop]
  refine loop_sets (fun v => v.elemCode d i j) hi (fun v => ?row) (fun v i' hi' hne => ?otherRow) v
  case row =>
    refine loop_sets (fun v => v.elemCode d i j) hj (fun v => ?elem) (fun v j' hj' hne => ?otherElem) v
    case elem => exact hd.elemCode_putElem v hi hj hx
    case otherElem => exact hd.elemCode_putElem_ne v hi hj hi hj' (fun e => hne e.2) _
  case otherRow =>
    refine loop_keeps (fun v => v.elemCode d i j) (fun v j' hj' => ?_) v
    exact hd.elemCode_putElem_ne v hi hj hi' hj' (fun e => hne e.1) _

theorem Desc.Int32Rows.accAt_eq (v : Eng) (ieee : Bool) (i j : Nat) :
    v.accAt d ieee i j = .int (sext 32 (v.elemCode d i j)) := by
  simp [Eng.accAt, hd.code_eq, Code.read]

theorem Desc.Int32Rows.zeroTerm_eq : zeroTerm d = .int 0 := if_pos hd.fmt_eq

end Int32Rows

/-- Two engines that differ at most in tile memory. -/
def TileOnly (v u : Eng) : Prop := ∃ m, u = { v with tile := m }

theorem TileOnly.setTile {v u : Eng} (h : TileOnly v u) (o : Nat) (b : Byte) : TileOnly v (u.setTile o b) := by
  obtain ⟨m, rfl⟩ := h
  exact ⟨mset m o b, rfl⟩

theorem TileOnly.putElem {v u : Eng} (h : TileOnly v u) (d : Desc) (i j x : Nat) : TileOnly v (u.putElem d i j x) :=
  loop_induct (fun _ _ _ hu => hu.setTile _ _) h

theorem Eng.putC_tileOnly (v : Eng) (d : Desc) (f : Nat → Nat → Term) : TileOnly v (v.putC d f) := by
  rw [Eng.putC_eq_loop]
  exact loop_induct (fun _ i _ hu => loop_induct (fun _ j _ hu => hu.putElem d i j _) hu) ⟨v.tile, rfl⟩

/-! ### The instruction -/

/-- Two states that differ at most in the counters. -/
def CountersOnly (s t : State) : Prop := ∃ c, t = { s with counters := c }

theorem CountersOnly.bump {s t : State} (h : CountersOnly s t) (block i e n : Nat) :
    CountersOnly s (t.bump block i e n) := by
  obtain ⟨c, rfl⟩ := h
  unfold State.bump
  split
  · exact ⟨c, rfl⟩
  · exact ⟨_, rfl⟩

theorem CountersOnly.eng {s t : State} (h : CountersOnly s t) (e : Nat) : t.eng e = s.eng e := by
  obtain ⟨c, rfl⟩ := h
  rfl
theorem CountersOnly.mem {s t : State} (h : CountersOnly s t) : t.mem = s.mem := by
  obtain ⟨c, rfl⟩ := h
  rfl
theorem CountersOnly.queues {s t : State} (h : CountersOnly s t) : t.queues = s.queues := by
  obtain ⟨c, rfl⟩ := h
  rfl

theorem State.countMacs_countersOnly (s : State) (e fmtA passes m n k busy : Nat) :
    CountersOnly s (s.countMacs e fmtA passes m n k busy) := by
  have first : CountersOnly s (s.bump blkTNS e fmtA (passes * m * n * k)) := .bump ⟨s.counters, rfl⟩ _ _ _ _
  unfold State.countMacs
  refine .bump ?_ _ _ _ _
  split
  · exact first
  · exact loop_induct (fun _ _ _ hu => hu.bump _ _ _ _) first

theorem pow2cap_pos (n : Nat) {g : Nat} (hg : 0 < g) : 0 < pow2cap n g := by
  refine List.foldlRecOn _ _ (motive := fun b => 0 < b) (by decide : 0 < 1) fun b hb x hx => ?_
  obtain ⟨i, -, rfl⟩ := List.mem_map.1 hx
  split
  · exact hb
  · exact lt_min (Nat.two_pow_pos i) hg

theorem setWidth_pos (a b : Code) : 0 < setWidth a b := by
  unfold setWidth
  split <;> decide

/-- A window of the weight-stationary array is never empty at a shape of one engine (R108). -/
theorem window_pos {shape w : Nat} (n : Nat) (hw : 0 < w) (hs : shape ≤ 3) :
    0 < pow2cap n (128 / (16 * 2 ^ shape)) * (16 * 2 ^ shape) * w := by
  have hsd : 16 * 2 ^ shape ≤ 128 := by
    have : 2 ^ shape ≤ 2 ^ 3 := Nat.pow_le_pow_right (by decide) hs
    omega
  have hpos : 0 < 16 * 2 ^ shape := by positivity
  exact Nat.mul_pos (Nat.mul_pos (pow2cap_pos n (Nat.div_pos hsd hpos)) hpos) hw

/-- An operand in an integer format is an integer, and so is each of its elements. -/
theorem Eng.operand_int (v : Eng) {d : Desc} (h : d.code.isInt = true) (ieee : Bool) (k i : Nat) :
    ∃ x, v.operand d ieee k i = .int x := by
  cases hc : d.code with
  | int n => exact ⟨_, by simp only [Eng.operand, hc, Code.isMx, Code.read]; rfl⟩
  | _ => simp [hc, Code.isInt] at h

/-- What an in-engine TMMA leaves in element (i, j) of C. -/
def Eng.tmmaTerm (v : Eng) (t : TIns) (i j : Nat) : Term :=
  let w := setWidth t.a.code t.b.code
  let sd := 16 * 2 ^ t.shape
  let ea := fun (x : Nat) => v.operand t.a t.ieee x i
  let eb := fun (x : Nat) => v.operand t.b t.ieee x j
  let c0 := if t.acc then v.accAt t.c t.ieee i j else zeroTerm t.c
  if t.df then
    weightStationary t.ieee (passesOf t.a.code t.b.code) w t.b.rows
      (pow2cap ((t.b.rows + sd * w - 1) / (sd * w)) (128 / sd) * sd * w) ea eb (zeroTerm t.c) c0 t.acc none false
  else outStationary t.ieee (passesOf t.a.code t.b.code) w t.b.rows ea eb c0

/-- Beside its counters, an in-engine TMMA writes C. -/
theorem State.runTmma_countersOnly (s : State) (e : Nat) (t : TIns) :
    CountersOnly (s.setEng e ((s.eng e).putC t.c ((s.eng e).tmmaTerm t))) (s.runTmma e t) :=
  State.countMacs_countersOnly _ _ _ _ _ _ _ _

theorem State.eng_runTmma (s : State) (e : Nat) (t : TIns) :
    (s.runTmma e t).eng e = (s.eng e).putC t.c ((s.eng e).tmmaTerm t) := by
  rw [(s.runTmma_countersOnly e t).eng, State.eng_setEng]
theorem State.runTmma_mem (s : State) (e : Nat) (t : TIns) : (s.runTmma e t).mem = s.mem :=
  (s.runTmma_countersOnly e t).mem
theorem State.runTmma_queues (s : State) (e : Nat) (t : TIns) : (s.runTmma e t).queues = s.queues :=
  (s.runTmma_countersOnly e t).queues

theorem Eng.tmmaTerm_wraps {v : Eng} {t : TIns} {α β : Nat → Nat → Int} (hieee : t.ieee = true) (hshape : t.shape ≤ 3)
    (ha : t.a.code.isInt = true) (hb : t.b.code.isInt = true) (hc : t.c.Int32Rows)
    (hα : ∀ k i, v.operand t.a true k i = .int (α k i)) (hβ : ∀ k i, v.operand t.b true k i = .int (β k i)) (i j : Nat) :
    (v.tmmaTerm t i j).Wraps ((if t.acc then sext 32 (v.elemCode t.c i j) else 0)
      + ((List.range t.b.rows).map (fun k => α k i * β k j)).sum) := by
  have hw := setWidth_pos t.a.code t.b.code
  have hc0 : (if t.acc then v.accAt t.c true i j else .int 0).Wraps (if t.acc then sext 32 (v.elemCode t.c i j) else 0) := by
    rw [hc.accAt_eq]
    split <;> exact Term.wraps_int _
  simp only [Eng.tmmaTerm, hieee, hα, hβ, hc.zeroTerm_eq]
  cases hdf : t.df with
  | true =>
    exact weightStationary_wraps (α := fun k => α k i) (β := fun k => β k j) ha hb hw (window_pos _ hw hshape) _ hc0
      (fun h => by simp [h])
  | false => exact outStationary_wraps (α := fun k => α k i) (β := fun k => β k j) ha hb hw _ hc0

theorem TIns.int32Rows_of_tmmaLegal {t : TIns} {e tb : Nat} (h : t.tmmaLegal e tb = true) (hshape : t.shape ≤ 3)
    (hfmt : t.c.fmt = 0x03) (hapart : t.c.sliceBytes ≤ 64 * t.c.pitch) : t.c.Int32Rows := by
  have hroles : t.roles e = (true, true, true) := if_neg (by omega)
  have hlegal : t.c.legal t.descC tb = true := by
    simp only [TIns.tmmaLegal, hroles, Bool.not_true, Bool.false_or, Bool.and_eq_true] at h
    obtain ⟨⟨⟨⟨-, ⟨legal, -⟩, -⟩, -⟩, -⟩, -⟩ := h
    exact legal
  exact ⟨⟨_, _, hlegal⟩, descOf_spread_pos _, hfmt, hapart⟩

/-- Mark an instruction of the bank started (R130). -/
def Eng.markStarted (v : Eng) (id : Nat) : Eng :=
  { v with tensors := v.tensors.map (fun x => if x.id = id then { x with started := true } else x) }

@[simp] theorem Eng.elemCode_markStarted (v : Eng) (id : Nat) (d : Desc) (k i : Nat) :
    (v.markStarted id).elemCode d k i = v.elemCode d k i := rfl
@[simp] theorem Eng.operand_markStarted (v : Eng) (id : Nat) (d : Desc) (ieee : Bool) (k i : Nat) :
    (v.markStarted id).operand d ieee k i = v.operand d ieee k i := rfl
theorem Eng.started_of_mem_markStarted {v : Eng} {id : Nat} {x : TIns} (h : x ∈ (v.markStarted id).tensors)
    (hid : x.id = id) : x.started = true := by
  obtain ⟨y, -, rfl⟩ := List.mem_map.1 h
  by_cases hy : y.id = id
  · simp [hy]
  · simp [hy] at hid

/-- An in-engine TMMA that may start runs at once. -/
theorem execTensorInstructionStart_tmma {engine : Fin 32} {id : Nat} {s : State} {t : TIns} (hw : s.working = true)
    (hf : s.frozen engine.val = false) (ht : (s.eng engine.val).tensors.find? (fun x => x.id = id) = some t)
    (hk : t.kind = .tmma) (hg : t.gangSeq = none) (hs : t.started = false) (hfa : t.faulted = false)
    (hm : (s.eng engine.val).mayStart engine.val t = true) :
    exec (.tensorInstructionStart engine id) s
      = .next ((s.modEng engine.val (fun v => v.markStarted id)).runTmma engine.val t) := by
  change execTensorInstructionStart engine id s = _
  simp [execTensorInstructionStart, ht, hw, hf, hs, hfa, hm, hk, hg, Eng.markStarted]

/-- Settles O26: either dataflow adds every product of every pass once, up to a multiple of 2^32 (`Eng.tmmaTerm_wraps`),
and the region of C gives back what is written to it (`Desc.Int32Rows.elemCode_putC`). -/
theorem integerTmmaIsTheExactDotProduct : Obligations.IntegerTmmaIsTheExactDotProduct := by
  unfold Obligations.IntegerTmmaIsTheExactDotProduct
  intro engine id s t e v elem hw hf ht hk hg hs hfa hm hieee hshape hlegal ha hb hfmt hapart
  have hc := TIns.int32Rows_of_tmmaLegal hlegal hshape hfmt hapart
  choose α hα using v.operand_int ha true
  choose β hβ using v.operand_int hb true
  let u := v.markStarted id
  let r := (s.modEng e (fun v => v.markStarted id)).runTmma e t
  have heng : r.eng e = u.putC t.c (u.tmmaTerm t) := by rw [State.eng_runTmma, State.eng_modEng]
  obtain ⟨m, hput⟩ := u.putC_tileOnly t.c (u.tmmaTerm t)
  refine ⟨r, execTensorInstructionStart_tmma hw hf ht hk hg hs hfa hm, ?memory, ?result, ?started, ?strings, ?queues⟩
  case memory => exact fun a => by rw [State.runTmma_mem, State.modEng_mem]
  case result =>
    intro i j hi hj
    have hterm := (Eng.tmmaTerm_wraps (v := u) hieee hshape ha hb hc hα hβ i j).code_eq
    have hlt : (u.tmmaTerm t i j).code < 2 ^ 32 := hterm ▸ wrapInt_lt 32 _
    rw [heng, hc.elemCode_putC u _ hi hj hlt, hterm]
    simp only [elem, hα, hβ, u, Eng.elemCode_markStarted]
  case started =>
    rw [heng, hput]
    exact fun x hx hid => Eng.started_of_mem_markStarted hx hid
  case strings =>
    rw [heng, hput]
    rfl
  case queues => rw [State.runTmma_queues, State.modEng_queues]

end Sys2Proof.Machine

/-! ## What a string's own instructions leave

The instructions of R87, R88 and R105 run through `State.issue` and change one string. The laws here say once what each of
the operations they are built of leaves: of the state (`OnlyString`, `Counted`), of the string (`Advanced`, `Pends`) and of
its registers. -/

namespace Sys2Proof.Machine

set_option Elab.async false

/-! ### Bits of a number -/

theorem bit_eq_testBit (w i : Nat) : bit w i = w.testBit i := by
  rw [bit, Nat.testBit_eq_decide_div_mod_eq]

theorem bit_toNat {n : Nat} (x : BitVec n) (i : Nat) : bit x.toNat i = x.getLsbD i := bit_eq_testBit _ _

theorem bit_ofNat32 (x : Nat) {i : Nat} (hi : i < 32) : bit (BitVec.ofNat 32 x).toNat i = x.testBit i := by
  rw [bit_toNat, BitVec.getLsbD_ofNat]
  simp [hi]

theorem bits_testBit (w hi lo i : Nat) : (bits w hi lo).testBit i = (decide (i < hi + 1 - lo) && w.testBit (i + lo)) := by
  rw [bits, Nat.testBit_mod_two_pow, Nat.testBit_div_two_pow]

/-- A number cut at bit i. -/
theorem eq_cut_at_bit (w i : Nat) : w = 2 ^ i * (2 * (w / 2 ^ (i + 1)) + (bit w i).toNat) + w % 2 ^ i := by
  have hb : (bit w i).toNat = w / 2 ^ i % 2 := by
    have := Nat.mod_two_eq_zero_or_one (w / 2 ^ i)
    rw [bit]
    rcases this with h | h <;> simp [h]
  have hq : 2 * (w / 2 ^ (i + 1)) + w / 2 ^ i % 2 = w / 2 ^ i := by
    rw [pow_succ, ← Nat.div_div_eq_div_mul]
    omega
  rw [hb, hq]
  exact (Nat.div_add_mod w (2 ^ i)).symm

theorem setBit_eq_cut (w i : Nat) (v : Bool) :
    setBit w i v = 2 ^ i * (2 * (w / 2 ^ (i + 1)) + v.toNat) + w % 2 ^ i := by
  have cut := eq_cut_at_bit w i
  unfold setBit
  split
  · rename_i h
    rw [← h]
    exact cut
  · rename_i h
    cases v
    case isFalse.false =>
      have hb : bit w i = true := by simpa using h
      rw [hb] at cut
      simp only [Bool.toNat_true, Bool.toNat_false, Nat.mul_add, Nat.mul_one, Nat.add_zero] at cut ⊢
      simp only [Bool.false_eq_true, if_false]
      omega
    case isFalse.true =>
      have hb : bit w i = false := by simpa using h
      rw [hb] at cut
      simp only [Bool.toNat_true, Bool.toNat_false, Nat.mul_add, Nat.mul_one, Nat.add_zero] at cut ⊢
      simp only [if_true]
      omega

theorem setBit_testBit (w i j : Nat) (v : Bool) : (setBit w i v).testBit j = if j = i then v else w.testBit j := by
  have low : w % 2 ^ i < 2 ^ i := Nat.mod_lt _ (by positivity)
  have read : ∀ b : Bool, (2 ^ i * (2 * (w / 2 ^ (i + 1)) + b.toNat) + w % 2 ^ i).testBit j
      = if j < i then (w % 2 ^ i).testBit j else if j = i then b else (w / 2 ^ (i + 1)).testBit (j - i - 1) := by
    intro b
    rw [Nat.testBit_two_pow_mul_add _ low]
    by_cases hlt : j < i
    · simp [hlt]
    · rw [if_neg hlt, if_neg hlt]
      by_cases he : j = i
      · subst he
        cases b <;> simp [Nat.add_mod]
      · obtain ⟨k, rfl⟩ : ∃ k, j = i + (k + 1) := ⟨j - i - 1, by omega⟩
        rw [if_neg he, Nat.add_sub_cancel_left, Nat.testBit_succ]
        congr 1
        cases b <;> simp only [Bool.toNat_true, Bool.toNat_false] <;> omega
  rw [setBit_eq_cut, read v]
  conv_rhs => rw [eq_cut_at_bit w i, read]
  split_ifs <;> first | rfl | omega

/-- A mask has exactly the listed bits. -/
theorem maskOf_testBit (l : List Nat) (j : Nat) : (maskOf l).testBit j = decide (j ∈ l) := by
  unfold maskOf
  induction l using List.reverseRecOn with
  | nil => simp
  | append_singleton l i ih =>
    rw [List.foldl_append, List.foldl_cons, List.foldl_nil, setBit_testBit, ih]
    by_cases h : j = i <;> simp [h]

/-- Dropping repetitions keeps the members. -/
theorem mem_dropRepeats {α : Type} [BEq α] [LawfulBEq α] (l : List α) (a : α) :
    a ∈ l.foldl (fun acc a => if acc.contains a then acc else acc ++ [a]) [] ↔ a ∈ l := by
  induction l using List.reverseRecOn with
  | nil => rfl
  | append_singleton l b ih =>
    rw [List.foldl_append, List.foldl_cons, List.foldl_nil]
    generalize l.foldl _ [] = d at ih
    split
    · rename_i h
      have hb : b ∈ d := List.contains_iff_mem.1 h
      simp only [List.mem_append, List.mem_singleton, ← ih]
      exact ⟨Or.inl, fun h => h.elim id (fun e => e ▸ hb)⟩
    · simp [ih]

theorem mem_dedup (l : List Nat) (a : Nat) : a ∈ dedup l ↔ a ∈ l := mem_dropRepeats l a

/-! ### Folds over the lanes -/

/-- What one lane's step writes is what the fold leaves of it; the other lanes' steps leave it alone. -/
theorem foldl_lanes {σ β : Type} {f : σ → Nat → σ} (obs : σ → β) {y : β} {i : Nat} {l : List Nat}
    (hit : ∀ s, obs (f s i) = y) (keep : ∀ s, ∀ j ∈ l, j ≠ i → obs (f s j) = obs s) (s : σ) :
    obs (l.foldl f s) = if i ∈ l then y else obs s := by
  induction l using List.reverseRecOn with
  | nil => simp
  | append_singleton l j ih =>
    rw [List.foldl_append, List.foldl_cons, List.foldl_nil]
    by_cases h : j = i
    · simp [h, hit]
    · rw [keep _ j (by simp) h, ih fun s k hk => keep s k (by simp [hk])]
      simp [Ne.symm h]

theorem foldl_keeps {σ α β : Type} {f : σ → α → σ} (obs : σ → β) {l : List α}
    (keep : ∀ s, ∀ a ∈ l, obs (f s a) = obs s) (s : σ) : obs (l.foldl f s) = obs s :=
  List.foldlRecOn l f (motive := fun t => obs t = obs s) rfl fun t ht a ha => (keep t a ha).trans ht

/-! ### Registers -/

theorem lanesOf_lt {m : Word} {i : Nat} (h : i ∈ lanesOf m) : i < 32 := ((mem_lanesOf m i).1 h).1

theorem lanesOf_eq_nil {m : Word} : lanesOf m = [] ↔ m = 0 := by
  constructor
  · intro h
    apply BitVec.eq_of_getLsbD_eq
    intro i hi
    have : i ∉ lanesOf m := by simp [h]
    rw [mem_lanesOf, bit_toNat] at this
    simpa [hi] using this
  · rintro rfl
    decide

/-- A predicate bit after a write of one lane; p7 reads as true (R71). -/
theorem Str.bit_p_setP (st : Str) (p l : Nat) (b : Bool) (q : Nat) {i : Nat} (hi : i < 32) :
    bit ((st.setP p l b).p q).toNat i
      = if q = 7 then true else if q = p ∧ i = l then b else bit (st.p q).toNat i := by
  by_cases hq : q = 7
  · have ones : ∀ j, j < 32 → bit (0xFFFFFFFF#32).toNat j = true := by decide
    rw [hq, Str.p_seven, if_pos rfl, ones i hi]
  · by_cases hp : p = 7
    · have : q ≠ p := fun h => hq (h.trans hp)
      simp [Str.setP, hp, hq]
    · by_cases h : q = p
      · subst h
        simp only [Str.setP, Str.p, hq, if_false, mgetD_mset_self, true_and]
        rw [bit_ofNat32 _ hi, setBit_testBit, bit_eq_testBit]
      · simp [Str.setP, Str.p, hp, hq, h, mgetD_mset_ne _ _ _ h]

/-- One predicate written on a list of lanes. -/
theorem bit_p_setP_lanes (st : Str) (p : Nat) (l : List Nat) (b : Nat → Bool) {f : Str → Nat → Str}
    (hf : ∀ st j, (f st j).preds = (st.setP p j (b j)).preds) (q : Nat) {i : Nat} (hi : i < 32) :
    bit ((l.foldl f st).p q).toNat i
      = if q = 7 then true else if q = p ∧ i ∈ l then b i else bit (st.p q).toNat i := by
  have step : ∀ st j, bit ((f st j).p q).toNat i = bit ((st.setP p j (b j)).p q).toNat i := by
    intro st j
    rw [Str.p, hf, ← Str.p]
  by_cases h7 : q = 7
  · have := Str.bit_p_setP (l.foldl f st) 7 0 true q hi
    simpa [h7] using this
  · rw [if_neg h7]
    by_cases hq : q = p
    · simp only [hq, true_and]
      rw [← hq]
      refine foldl_lanes (fun st => bit (st.p q).toNat i) ?_ ?_ st
      · intro st
        rw [step, Str.bit_p_setP _ _ _ _ _ hi, if_neg h7, if_pos ⟨hq, rfl⟩]
      · intro st j _ hj
        rw [step, Str.bit_p_setP _ _ _ _ _ hi, if_neg h7, if_neg fun h => hj h.2.symm]
    · simp only [hq, false_and, if_false]
      refine foldl_keeps (fun st => bit (st.p q).toNat i) (fun st j _ => ?_) st
      rw [step, Str.bit_p_setP _ _ _ _ _ hi, if_neg h7, if_neg fun h => hq h.1]

/-- n registers of a lane, low word first. -/
theorem Str.v_setVn (st : Str) (r n x : Nat) {lane r' i : Nat} (hl : lane < 32) (hi : i < 32) :
    (st.setVn r lane n x).v r' i
      = if i = lane ∧ r ≤ r' ∧ r' < r + n then BitVec.ofNat 32 (x / 2 ^ (32 * (r' - r))) else st.v r' i := by
  unfold Str.setVn loop
  induction n with
  | zero =>
    have : ¬ (i = lane ∧ r ≤ r' ∧ r' < r + 0) := by omega
    rw [if_neg this]
    rfl
  | succ n ih =>
    rw [List.range_succ, List.foldl_append, List.foldl_cons, List.foldl_nil]
    by_cases h : (r', i) = (r + n, lane)
    · obtain ⟨rfl, rfl⟩ := Prod.mk.injEq .. ▸ h
      simp
    · have hne : ¬ (r' = r + n ∧ i = lane) := by simpa using h
      rw [Str.v_setV_ne _ _ hl hi h, ih]
      have : (i = lane ∧ r ≤ r' ∧ r' < r + n) ↔ (i = lane ∧ r ≤ r' ∧ r' < r + (n + 1)) := by omega
      simp only [this]

/-- n registers from r of the listed lanes. -/
theorem foldl_setVn_v (st : Str) (r n : Nat) (x : Nat → Nat) {l : List Nat} (hl : ∀ i ∈ l, i < 32) (r' : Nat) {i : Nat}
    (hi : i < 32) : (l.foldl (fun st i => st.setVn r i n (x i)) st).v r' i
      = if i ∈ l ∧ r ≤ r' ∧ r' < r + n then BitVec.ofNat 32 (x i / 2 ^ (32 * (r' - r))) else st.v r' i := by
  by_cases hr : r ≤ r' ∧ r' < r + n
  · simp only [hr, and_true]
    refine foldl_lanes (fun st : Str => st.v r' i) (fun st => ?_) (fun st j hj hne => ?_) st
    · rw [Str.v_setVn st r n _ hi hi, if_pos ⟨rfl, hr⟩]
    · rw [Str.v_setVn st r n _ (hl j hj) hi, if_neg fun e => hne e.1.symm]
  · simp only [hr, and_false, if_false]
    refine foldl_keeps (fun st : Str => st.v r' i) (fun st j hj => ?_) st
    rw [Str.v_setVn st r n _ (hl j hj) hi, if_neg fun e => hr e.2]

/-! ### A string but for its registers, predicates and scoreboard -/

/-- What `Advanced` compares of two strings. -/
def Str.bare (st : Str) : Str := { st with vregs := [], preds := [], uregs := [], busy := [] }

@[simp] theorem Str.bare_setV (st : Str) (r i : Nat) (x : Word) : (st.setV r i x).bare = st.bare := rfl
@[simp] theorem Str.bare_setU (st : Str) (r : Nat) (x : Dword) : (st.setU r x).bare = st.bare := rfl
@[simp] theorem Str.bare_pend (st : Str) (l : List Nat) : (st.pend l).bare = st.bare := rfl
@[simp] theorem Str.bare_setP (st : Str) (p i : Nat) (b : Bool) : (st.setP p i b).bare = st.bare := by
  unfold Str.setP
  split <;> rfl
@[simp] theorem Str.vregs_setP (st : Str) (p i : Nat) (b : Bool) : (st.setP p i b).vregs = st.vregs := by
  unfold Str.setP
  split <;> rfl
@[simp] theorem Str.uregs_setP (st : Str) (p i : Nat) (b : Bool) : (st.setP p i b).uregs = st.uregs := by
  unfold Str.setP
  split <;> rfl
@[simp] theorem Str.busy_setP (st : Str) (p i : Nat) (b : Bool) : (st.setP p i b).busy = st.busy := by
  unfold Str.setP
  split <;> rfl

/-- Only vector registers differ. -/
def Str.butV (st : Str) : Str := { st with vregs := [] }

@[simp] theorem Str.butV_setV (st : Str) (r i : Nat) (x : Word) : (st.setV r i x).butV = st.butV := rfl
@[simp] theorem Str.butV_setVn (st : Str) (r i n x : Nat) : (st.setVn r i n x).butV = st.butV := by
  unfold Str.setVn
  exact loop_keeps Str.butV (fun st k _ => st.butV_setV (r + k) i _) st
theorem Str.bare_of_butV {x y : Str} (h : x.butV = y.butV) : x.bare = y.bare :=
  (congrArg Str.bare h :)
theorem Str.preds_of_butV {x y : Str} (h : x.butV = y.butV) : x.preds = y.preds :=
  (congrArg Str.preds h :)
theorem Str.uregs_of_butV {x y : Str} (h : x.butV = y.butV) : x.uregs = y.uregs :=
  (congrArg Str.uregs h :)
theorem Str.busy_of_butV {x y : Str} (h : x.butV = y.butV) : x.busy = y.busy :=
  (congrArg Str.busy h :)

theorem mapLanes_butV (a : Act) (st : Str) (f : Nat → Word) : (mapLanes a st f).butV = st.butV := by
  unfold mapLanes
  exact foldl_keeps Str.butV (fun st i _ => st.butV_setV _ i _) st

/-- The string as its active group goes on at the next word (R79). -/
theorem Str.step_eq {st : Str} {g : Group} {rest : List Group} (h : st.groups = g :: rest) :
    st.step = { st with groups := { g with pc := g.pc + 8, budget := g.budget - 1 } :: rest } := by
  simp only [Str.step, Str.modHead, h]

theorem actOf_step (w : Site) (h : Hdr) {st : Str} {g : Group} {rest : List Group} (hg : st.groups = g :: rest) :
    (actOf w h st g).str.step
      = { st with promoted := none, groups := { g with pc := g.pc + 8, budget := g.budget - 1 } :: rest } :=
  Str.step_eq hg

@[simp] theorem Str.vregs_step (st : Str) : st.step.vregs = st.vregs := by
  unfold Str.step Str.modHead
  split <;> rfl
@[simp] theorem Str.preds_step (st : Str) : st.step.preds = st.preds := by
  unfold Str.step Str.modHead
  split <;> rfl
@[simp] theorem Str.uregs_step (st : Str) : st.step.uregs = st.uregs := by
  unfold Str.step Str.modHead
  split <;> rfl
@[simp] theorem Str.busy_step (st : Str) : st.step.busy = st.busy := by
  unfold Str.step Str.modHead
  split <;> rfl
@[simp] theorem Str.v_step (st : Str) (r i : Nat) : st.step.v r i = st.v r i := by simp [Str.v]
@[simp] theorem Str.p_step (st : Str) (p : Nat) : st.step.p p = st.p p := by simp [Str.p]
@[simp] theorem Str.u_step (st : Str) (r : Nat) : st.step.u r = st.u r := by simp [Str.u]

theorem advanced_of_bare {w : Site} {h : Hdr} {st st' : Str} {g : Group} {rest : List Group} (hg : st.groups = g :: rest)
    (e : st'.bare = (actOf w h st g).str.step.bare) : Advanced st st' g rest := by
  rw [actOf_step w h hg] at e
  exact congrArg (fun x : Str => { x with vregs := st.vregs, preds := st.preds, uregs := st.uregs, busy := st.busy }) e

/-- Registers written are pending, and those that were stay so (R78). -/
theorem pends_pend {st x : Str} (u : Use) (h : x.busy = st.busy) : Pends st (x.pend u.writes) u := by
  intro r
  simp [Str.pend, mem_dedup, h]

/-! ### The state -/

theorem OnlyString.refl (s : State) (w : Site) : OnlyString s s w := ⟨fun _ _ _ => rfl, fun _ => rfl, rfl⟩

theorem OnlyString.bump {s t : State} {w : Site} (h : OnlyString s t w) (b i e n : Nat) : OnlyString s (t.bump b i e n) w := by
  unfold State.bump
  split
  · exact h
  · exact ⟨h.1, h.2.1, h.2.2⟩

theorem OnlyString.drew {s t : State} {w : Site} (h : OnlyString s t w) (n : Nat) : OnlyString s (t.drew n) w :=
  ⟨h.1, h.2.1, h.2.2⟩

theorem OnlyString.progress {s t : State} {w : Site} (h : OnlyString s t w) (u n : Nat) : OnlyString s (t.progress u n) w :=
  ⟨h.1, h.2.1, h.2.2⟩

theorem OnlyString.setStr {s t : State} {w : Site} (h : OnlyString s t w) (x : Str) :
    OnlyString s (t.setStr w.engine.val w.place.val x) w := by
  obtain ⟨hstr, heng, hrest⟩ := h
  refine ⟨fun e p hne => (State.str?_setStr_ne t x hne).trans (hstr e p hne), fun e => ?_, hrest⟩
  by_cases he : e = w.engine.val
  · subst he
    rw [← heng, State.setStr, State.eng_modEng]
  · rw [← heng, State.setStr, State.eng_modEng_ne t _ he]

theorem onlyString_issued (s : State) (w : Site) (cls : Nat) (st : Str) : OnlyString s (s.issued w cls st) w :=
  (((OnlyString.refl s w).bump _ _ _ _).progress _ _).setStr _

theorem OnlyString.mem {s t : State} {w : Site} (h : OnlyString s t w) : t.mem = s.mem :=
  (congrArg State.mem h.2.2 :)
theorem OnlyString.memoryKept {s t : State} {w : Site} (h : OnlyString s t w) : MemoryKept s t := by
  intro a
  rw [h.mem]

/-- Counters are kept modulo 2^56 (R542). -/
theorem State.ctr_bump_mod (s : State) (b i e n : Nat) : (s.bump b i e n).ctr b i e % 2 ^ 56 = (s.ctr b i e + n) % 2 ^ 56 := by
  unfold State.bump
  split
  · rename_i h
    rw [h, Nat.add_zero]
  · simp [State.ctr]

theorem ctrKey_ne {b i e e' : Nat} (h : e ≠ e') : ctrKey b i e ≠ ctrKey b i e' := fun k => h (Nat.add_left_cancel k)

theorem counted_issued (s : State) (w : Site) (cls : Nat) (st : Str) :
    Counted s (s.issued w cls st) blkCE w.engine.val cls 1 := s.ctr_bump_mod _ _ _ _

theorem Counted.bump {s t : State} {b i e n : Nat} (h : Counted s t b i e n) {e' : Nat} (hne : e ≠ e') (m : Nat) :
    Counted s (t.bump b i e' m) b i e n := by
  rw [Counted, State.ctr_bump_ne _ _ _ _ _ _ _ _ (ctrKey_ne hne)]
  exact h

/-- What a second counter of an issue has grown by. -/
theorem counted_bump_issued (s : State) (w : Site) {cls : Nat} (st : Str) {e : Nat} (hne : e ≠ cls) (m : Nat) :
    Counted s ((s.issued w cls st).bump blkCE w.engine.val e m) blkCE w.engine.val e m := by
  rw [Counted, State.ctr_bump_mod]
  congr 2
  exact s.ctr_bump_ne _ _ _ _ _ _ _ (ctrKey_ne hne)

end Sys2Proof.Machine

/-! ## Plain lane instructions, compares and uniform instructions (R105)

Each of these instructions is one shape of `State.issue`: a fold that writes DST, a predicate, or one uniform register.
`laneForm_runs`, `compareForm_runs` and `uniformForm_runs` say so once for the instructions of a form, with the result of
each in the terms of the form; what an issue leaves is then said once for a shape. -/

namespace Sys2Proof.Machine

set_option Elab.async false

/-! ### Integer results -/

theorem sub_result (x z : Word) : ((x - z).toNat + z.toNat) % 2 ^ 32 = x.toNat := by
  have := congrArg BitVec.toNat (BitVec.sub_add_cancel x z)
  rwa [BitVec.toNat_add] at this

theorem and_result (x z : Word) : ∀ j, j < 32 → (x &&& z).getLsbD j = (x.getLsbD j && z.getLsbD j) :=
  fun _ _ => BitVec.getLsbD_and

theorem or_result (x z : Word) : ∀ j, j < 32 → (x ||| z).getLsbD j = (x.getLsbD j || z.getLsbD j) :=
  fun _ _ => BitVec.getLsbD_or

theorem xor_result (x z : Word) : ∀ j, j < 32 → (x ^^^ z).getLsbD j = (x.getLsbD j != z.getLsbD j) :=
  fun _ _ => BitVec.getLsbD_xor

theorem not_result (x : Word) : ∀ j, j < 32 → (~~~x).getLsbD j = !x.getLsbD j :=
  fun _ hj => by simp [hj]

theorem mad_result (x z c : Word) : (x * z + c).toNat = (x.toNat * z.toNat + c.toNat) % 2 ^ 32 := by
  simp [BitVec.toNat_add, BitVec.toNat_mul]

theorem imin_result (sgn : Bool) (x z : Word) :
    if sgn then (minMaxWord sgn false x z).toInt = min x.toInt z.toInt
    else (minMaxWord sgn false x z).toNat = min x.toNat z.toNat := by
  cases sgn with
  | true =>
    by_cases h : x.toInt < z.toInt
    · simp [minMaxWord, h, h.le]
    · simp [minMaxWord, h, not_lt.1 h]
  | false =>
    by_cases h : x.toNat < z.toNat
    · simp [minMaxWord, h, h.le]
    · simp [minMaxWord, h, not_lt.1 h]

theorem imax_result (sgn : Bool) (x z : Word) :
    if sgn then (minMaxWord sgn true x z).toInt = max x.toInt z.toInt
    else (minMaxWord sgn true x z).toNat = max x.toNat z.toNat := by
  cases sgn with
  | true =>
    by_cases h : x.toInt < z.toInt
    · simp [minMaxWord, h, h.le]
    · simp [minMaxWord, h, not_lt.1 h]
  | false =>
    by_cases h : x.toNat < z.toNat
    · simp [minMaxWord, h, h.le]
    · simp [minMaxWord, h, not_lt.1 h]

theorem shl_result (x z : Word) : (x <<< (z.toNat % 32)).toNat = x.toNat * 2 ^ (z.toNat % 32) % 2 ^ 32 := by
  rw [BitVec.toNat_shiftLeft, Nat.shiftLeft_eq]

theorem shr_result (x z : Word) : (x >>> (z.toNat % 32)).toNat = x.toNat / 2 ^ (z.toNat % 32) := by
  rw [BitVec.toNat_ushiftRight, Nat.shiftRight_eq_div_pow]

theorem sar_result (x z : Word) : (x.sshiftRight (z.toNat % 32)).toInt = x.toInt / 2 ^ (z.toNat % 32) := by
  rw [BitVec.toInt_sshiftRight, Int.shiftRight_eq_div_pow]
  norm_cast

theorem popCount_eq_length (w n : Nat) : popCount w n = ((List.range n).filter (fun j => w.testBit j)).length := by
  induction n with
  | zero => rfl
  | succ n ih =>
    rw [popCount, ih, List.range_succ, List.filter_append, List.length_append, bit_eq_testBit]
    cases h : w.testBit n <;> simp [b2n, h, Nat.add_comm]

theorem popc_result (x : Word) :
    (BitVec.ofNat 32 (popCount x.toNat 32)).toNat = ((List.range 32).filter (fun j => x.getLsbD j)).length := by
  have hle := List.length_filter_le (fun j => x.toNat.testBit j) (List.range 32)
  rw [List.length_range] at hle
  rw [popCount_eq_length, BitVec.toNat_ofNat, Nat.mod_eq_of_lt (by omega)]
  rfl

theorem clz_result (x : Word) :
    if x = 0 then (BitVec.ofNat 32 (clz32 x)).toNat = 32
    else (BitVec.ofNat 32 (clz32 x)).toNat ≤ 31 ∧ x.toNat / 2 ^ (31 - (BitVec.ofNat 32 (clz32 x)).toNat) = 1 := by
  by_cases h : x = 0
  · simp [clz32, h]
  · have hx : x.toNat ≠ 0 := fun e => h (BitVec.eq_of_toNat_eq (by simpa using e))
    have hlog : log2 x.toNat ≤ 31 := by
      have := (Nat.log2_lt hx).2 x.isLt
      unfold log2
      omega
    have hval : (BitVec.ofNat 32 (clz32 x)).toNat = 31 - log2 x.toNat := by
      rw [clz32, if_neg h, BitVec.toNat_ofNat, Nat.mod_eq_of_lt (by omega)]
    rw [if_neg h, hval, Nat.sub_sub_self hlog]
    refine ⟨by omega, ?_⟩
    have lo : 2 ^ log2 x.toNat ≤ x.toNat := Nat.log2_self_le hx
    have hi : x.toNat < 2 ^ (log2 x.toNat + 1) := Nat.lt_log2_self
    rw [pow_succ] at hi
    exact Nat.div_eq_of_lt_le (by omega) (by omega)

theorem brev_result (x : Word) : ∀ j, j < 32 → (brev32 x).getLsbD j = x.getLsbD (31 - j) := by
  intro j hj
  rw [brev32, BitVec.getLsbD_ofNat, maskOf_testBit, decide_eq_true hj, Bool.true_and, Bool.eq_iff_iff, decide_eq_true_iff,
    ← bit_toNat]
  simp only [bitList, List.mem_map, List.mem_filter, List.mem_range]
  constructor
  · rintro ⟨i, ⟨hi, hb⟩, rfl⟩
    rwa [show 31 - (31 - i) = i by omega]
  · exact fun hb => ⟨31 - j, ⟨by omega, hb⟩, by omega⟩

theorem sext_eq_toInt {n : Nat} (hn : 0 < n) (w : Nat) : sext n w = (BitVec.ofNat n w).toInt := by
  obtain ⟨k, rfl⟩ : ∃ k, n = k + 1 := ⟨n - 1, by omega⟩
  rw [BitVec.toInt_eq_toNat_cond, sext, BitVec.toNat_ofNat, Nat.add_sub_cancel]
  have : (2 : Nat) ^ (k + 1) = 2 * 2 ^ k := pow_succ' 2 k
  generalize w % 2 ^ (k + 1) = r
  split_ifs <;> first | rfl | omega

theorem bfe_result (sgn : Bool) (x o n : Word) (free : Nat) : BfeResult sgn x o n (bfe32 sgn x o.toNat n.toNat free) := by
  intro hfit j hj
  have field : ∀ k, (bits x.toNat (o.toNat + n.toNat - 1) o.toNat).testBit k
      = (decide (k < o.toNat + n.toNat - 1 + 1 - o.toNat) && x.getLsbD (o.toNat + k)) := by
    intro k
    rw [bits_testBit, Nat.add_comm k]
    rfl
  unfold bfe32
  rw [if_neg (by omega)]
  by_cases hn : n.toNat = 0
  · simp [hn]
  · rw [if_neg hn]
    have hlen : o.toNat + n.toNat - 1 + 1 - o.toNat = n.toNat := by omega
    rw [hlen] at field
    generalize bits x.toNat (o.toNat + n.toNat - 1) o.toNat = v at field ⊢
    cases sgn with
    | false => simp only [Bool.false_eq_true, if_false, BitVec.getLsbD_ofNat, field, hj, decide_true, Bool.true_and,
        Bool.false_and, Bool.if_false_right]
    | true =>
      have hv : BitVec.ofInt 32 (sext n.toNat v) = (BitVec.ofNat n.toNat v).signExtend 32 := by
        rw [sext_eq_toInt (Nat.pos_of_ne_zero hn)]
        rfl
      have top : n.toNat - 1 < n.toNat := by omega
      simp only [if_true, hv, BitVec.getLsbD_signExtend, BitVec.msb_eq_getLsbD_last, BitVec.getLsbD_ofNat, field, hj, hn, top,
        decide_true, Bool.true_and, ne_eq, not_false_eq_true]
      by_cases hlt : j < n.toNat
      · simp [hlt]
      · simp only [hlt, if_false]
        congr 1
        omega

/-- A number with n bits from bit o replaced. -/
theorem insert_bits (x y o n : Nat) : x - (x &&& (2 ^ n - 1) * 2 ^ o) + y % 2 ^ n * 2 ^ o
    = 2 ^ o * (2 ^ n * (x / 2 ^ (o + n)) + y % 2 ^ n) + x % 2 ^ o := by
  have mask : x &&& (2 ^ n - 1) * 2 ^ o = 2 ^ o * (x / 2 ^ o % 2 ^ n) := by
    apply Nat.eq_of_testBit_eq
    intro k
    rw [Nat.testBit_and, Nat.testBit_mul_two_pow, Nat.testBit_two_pow_sub_one, Nat.mul_comm, Nat.testBit_mul_two_pow,
      Nat.testBit_mod_two_pow, Nat.testBit_div_two_pow]
    by_cases h : o ≤ k
    · simp [h, Bool.and_comm]
    · simp [h]
  have cut : 2 ^ o * (2 ^ n * (x / 2 ^ (o + n))) + 2 ^ o * (x / 2 ^ o % 2 ^ n) + x % 2 ^ o = x := by
    rw [← Nat.mul_add, pow_add, ← Nat.div_div_eq_div_mul, Nat.div_add_mod, Nat.div_add_mod]
  rw [mask, Nat.mul_add, Nat.mul_comm (y % 2 ^ n)]
  omega

theorem bfi_result (x y o n : Word) (free : Nat) : BfiResult x y o n (bfi32 x y o.toNat n.toNat free) := by
  intro hfit j hj
  have low : x.toNat % 2 ^ o.toNat < 2 ^ o.toNat := Nat.mod_lt _ (by positivity)
  have mid : y.toNat % 2 ^ n.toNat < 2 ^ n.toNat := Nat.mod_lt _ (by positivity)
  rw [bfi32, if_neg (by omega), BitVec.getLsbD_ofNat, insert_bits, Nat.testBit_two_pow_mul_add _ low, decide_eq_true hj,
    Bool.true_and]
  by_cases h : j < o.toNat
  · have : ¬ o.toNat ≤ j := by omega
    simp [h, this, Nat.testBit_mod_two_pow]
    rfl
  · rw [if_neg h, Nat.testBit_two_pow_mul_add _ mid]
    by_cases h' : j < o.toNat + n.toNat
    · have hjo : j - o.toNat < n.toNat := by omega
      have hoj : o.toNat ≤ j := by omega
      simp [hjo, hoj, h', Nat.testBit_mod_two_pow]
      rfl
    · have hjo : ¬ j - o.toNat < n.toNat := by omega
      have e : j - o.toNat - n.toNat + (o.toNat + n.toNat) = j := by omega
      simp only [hjo, h', if_false, decide_false, Bool.and_false, Bool.false_eq_true, Nat.testBit_div_two_pow, e]
      rfl

theorem mul_hi_result (sgn : Bool) (x z : Word) :
    if sgn then (mulHi sgn x z).toInt = x.toInt * z.toInt / 2 ^ 32
    else (mulHi sgn x z).toNat = x.toNat * z.toNat / 2 ^ 32 := by
  cases sgn with
  | true =>
    have hx := BitVec.le_toInt x
    have hx' := BitVec.toInt_lt (x := x)
    have hz := BitVec.le_toInt z
    have hz' := BitVec.toInt_lt (x := z)
    simp only [mulHi, if_true, BitVec.toInt_ofInt]
    generalize x.toInt = a at *
    generalize z.toInt = b at *
    norm_num at hx hx' hz hz'
    have lo : -(2 ^ 62) ≤ a * b := by nlinarith
    have hi : a * b ≤ 2 ^ 62 := by nlinarith
    generalize a * b = c at *
    exact Int.bmod_eq_of_le (by omega) (by omega)
  | false =>
    have : x.toNat * z.toNat < 2 ^ 32 * 2 ^ 32 := Nat.mul_lt_mul_of_lt_of_lt x.isLt z.isLt
    simp only [mulHi, Bool.false_eq_true, if_false, BitVec.toNat_ofNat]
    exact Nat.mod_eq_of_lt (Nat.div_lt_of_lt_mul this)

/-! ### The shape of a lane instruction -/

/-- Count the lanes, draw n free values, write DST on the executing lanes, and pend it; the second argument of a result is
the number of the first free value. -/
def laneBody (f : LaneForm) (n : Nat) (result : Act → Nat → Nat → Word) (a : Act) (s : State) : State :=
  ((s.bump blkCE a.e f.ctr (f.elements * (lanesOf a.lanes).length)).drew n).setStr a.e a.place
    ((mapLanes a a.str.step (result a s.clk.fresh)).pend f.use.writes)

/-- A command is the lane instruction of a form. -/
def LaneForm.Runs (f : LaneForm) (run : State → Out) : Prop :=
  ∃ n result, (∀ s, run s = s.issue f.site f.hdr f.cls true f.use (laneBody f n result))
    ∧ ∀ st g k j, f.result st j (result (actOf f.site f.hdr st g) k j)

theorem LaneForm.Runs.of_issueLane {f : LaneForm} {w : Site} {h : Hdr} {cls ctr : Nat} {u : Use}
    {result : Str → Nat → Word → Prop} (hf : some ⟨w, h, cls, ctr, 1, u, result⟩ = some f) {F : Act → Nat → Word}
    (hF : ∀ st g j, result st j (F (actOf w h st g) j)) : f.Runs (fun s => s.issueLane w h cls ctr u F) := by
  cases hf
  refine ⟨0, fun a _ => F a, fun s => ?_, fun st g _ j => hF st g j⟩
  unfold State.issueLane
  refine congrArg (s.issue w h cls true u) (funext fun a => funext fun t => ?_)
  simp only [laneBody, Nat.one_mul]
  rfl

theorem LaneForm.Runs.of_issueFree {f : LaneForm} {w : Site} {h : Hdr} {cls ctr : Nat} {u : Use}
    {result : Str → Nat → Word → Prop} (hf : some ⟨w, h, cls, ctr, 1, u, result⟩ = some f) {F : Act → Nat → Nat → Word}
    (hF : ∀ st g j k, result st j (F (actOf w h st g) j k)) : f.Runs (fun s => s.issueFree w h cls ctr u F) := by
  cases hf
  refine ⟨32, fun a k j => F a j (Config.freeNat (k + j)), fun s => ?_, fun st g _ j => hF st g j _⟩
  unfold State.issueFree
  refine congrArg (s.issue w h cls true u) (funext fun a => funext fun t => ?_)
  simp only [laneBody, Nat.one_mul]

theorem LaneForm.Runs.of_half {f : LaneForm} {w : Site} {h : Hdr} {u : Use}
    {result : Str → Nat → Word → Prop} (hf : some ⟨w, h, 1, 0x011, 2, u, result⟩ = some f) {F : Act → Nat → Nat}
    (hF : ∀ st g j, result st j (BitVec.ofNat 32 (F (actOf w h st g) j))) : f.Runs (fun s => s.half w h u F) := by
  cases hf
  exact ⟨0, fun a _ j => BitVec.ofNat 32 (F a j), fun s => rfl, fun st g _ j => hF st g j⟩

/-- A result of the sources of a lane, whatever they hold. -/
theorem LaneForm.Runs.of_lane2 {f : LaneForm} {w : Site} {h : Hdr} {cls ctr : Nat} {R : Word → Word → Word → Prop}
    (hf : lane2 w h cls ctr 1 R = some f) {F : Word → Word → Word} (hF : ∀ x z, R x z (F x z)) :
    f.Runs (fun s => s.issueLane w h cls ctr (useV [h.src0, h.src1] h.dst) (fun a i => F (a.a0 i) (a.a1 i))) :=
  .of_issueLane hf fun _ _ _ => hF _ _

theorem LaneForm.Runs.of_lane1 {f : LaneForm} {w : Site} {h : Hdr} {cls ctr : Nat} {R : Word → Word → Prop}
    (hf : lane1 w h cls ctr R = some f) {F : Word → Word} (hF : ∀ x, R x (F x)) :
    f.Runs (fun s => s.issueLane w h cls ctr (useV [h.src0] h.dst) (fun a i => F (a.a0 i))) :=
  .of_issueLane hf fun _ _ _ => hF _

theorem LaneForm.Runs.of_lane3 {f : LaneForm} {w : Site} {h : Hdr} {cls ctr : Nat} {r2 : BitVec 8}
    {R : Word → Word → Word → Word → Prop} (hf : lane3 w h cls ctr 1 r2 R = some f) {F : Word → Word → Word → Word}
    (hF : ∀ x z c, R x z c (F x z c)) :
    f.Runs (fun s => s.issueLane w h cls ctr (useV [h.src0, h.src1, r2] h.dst)
      (fun a i => F (a.a0 i) (a.a1 i) (a.str.v r2.toNat i))) :=
  .of_issueLane hf fun _ _ _ => hF _ _ _

/-- A transcendental result: the free value that the lane draws (R105). -/
theorem LaneForm.Runs.of_xcnd {f : LaneForm} {w : Site} {h : Hdr} {F : Nat → Nat → Nat}
    (hf : lane1 w h 1 0x013 (fun x y => ∃ c, y = BitVec.ofNat 32 (F x.toNat c)) = some f) :
    f.Runs (fun s => s.xcnd w h F) :=
  .of_issueFree hf fun _ _ _ k => ⟨k, rfl⟩

/-- Each instruction of a lane form has that shape, and its results are those of the form. -/
theorem laneForm_runs {i : Instr} {f : LaneForm} (hf : laneForm i = some f) : f.Runs (exec i) := by
  unfold laneForm at hf
  split at hf
  next => exact (LaneForm.Runs.of_lane2 hf BitVec.toNat_add :)
  next => exact (LaneForm.Runs.of_lane2 hf sub_result :)
  next sgn => exact (LaneForm.Runs.of_lane2 hf (imin_result sgn) :)
  next sgn => exact (LaneForm.Runs.of_lane2 hf (imax_result sgn) :)
  next => exact (LaneForm.Runs.of_lane2 hf and_result :)
  next => exact (LaneForm.Runs.of_lane2 hf or_result :)
  next => exact (LaneForm.Runs.of_lane2 hf xor_result :)
  next => exact (LaneForm.Runs.of_lane1 hf not_result :)
  next => exact (LaneForm.Runs.of_lane2 hf shl_result :)
  next => exact (LaneForm.Runs.of_lane2 hf shr_result :)
  next => exact (LaneForm.Runs.of_lane2 hf sar_result :)
  next => exact (LaneForm.Runs.of_lane1 hf popc_result :)
  next => exact (LaneForm.Runs.of_lane1 hf clz_result :)
  next => exact (LaneForm.Runs.of_lane1 hf brev_result :)
  next w h r2 sgn =>
    exact .of_issueFree hf
      (F := fun a j k => bfe32 sgn (a.a0 j) (a.a1 j).toNat (a.str.v r2.toNat j).toNat k)
      fun _ _ _ k => bfe_result sgn _ _ _ k
  next w h r2 r3 =>
    exact .of_issueFree hf
      (F := fun a j k => bfi32 (a.a0 j) (a.a1 j) (a.str.v r2.toNat j).toNat (a.str.v r3.toNat j).toNat k)
      fun _ _ _ k => bfi_result _ _ _ _ k
  next w h ps inv =>
    refine .of_issueLane hf (F := fun a j => if bit (a.str.p ps.toNat).toNat j != inv then a.a0 j else a.a1 j)
      fun st g j => ?_
    show _ = if bit (st.p ps.toNat).toNat j = !inv then _ else _
    cases inv <;> simp [Act.a0, Act.a1, actOf] <;> rfl
  next w h r => exact .of_issueLane hf (F := fun a j => a.str.v r.toNat j) fun _ _ _ => rfl
  next w h r => exact .of_issueLane hf (F := fun a _ => (a.str.u r.val).truncate 32) fun _ _ _ => by simp [actOf]; rfl
  next w h x => exact .of_issueLane hf (F := fun _ _ => x) fun _ _ _ => rfl
  next => exact (LaneForm.Runs.of_lane3 hf mad_result :)
  next sgn => exact (LaneForm.Runs.of_lane2 hf (mul_hi_result sgn) :)
  next => exact (LaneForm.Runs.of_lane2 hf fun _ _ => rfl :)
  next => exact (LaneForm.Runs.of_lane2 hf fun _ _ => rfl :)
  next => exact (LaneForm.Runs.of_lane3 hf fun _ _ _ => rfl :)
  next => exact (LaneForm.Runs.of_lane2 hf fun _ _ => rfl :)
  next => exact (LaneForm.Runs.of_lane2 hf fun _ _ => rfl :)
  next => exact (LaneForm.Runs.of_lane1 hf fun _ => rfl :)
  next => exact (LaneForm.Runs.of_lane1 hf fun _ => rfl :)
  next w h =>
    exact .of_half hf (F := fun a j => packed fmtFP16.fadd (a.a0 j).toNat (a.a1 j).toNat)
      fun _ _ _ => rfl
  next w h =>
    exact .of_half hf (F := fun a j => packed fmtFP16.fmul (a.a0 j).toNat (a.a1 j).toNat)
      fun _ _ _ => rfl
  next w h r2 =>
    exact .of_half hf (F := fun a j => packed3 fmtFP16.ffma (a.a0 j).toNat (a.a1 j).toNat (a.str.v r2.toNat j).toNat)
      fun _ _ _ => rfl
  next => exact .of_xcnd hf
  next => exact .of_xcnd hf
  next => exact .of_xcnd hf
  next => exact .of_xcnd hf
  next => exact .of_xcnd hf
  next => exact .of_xcnd hf
  next => exact .of_xcnd hf
  next => cases hf

/-- What a lane instruction that can issue leaves. -/
theorem LaneForm.Runs.leaves {f : LaneForm} {run : State → Out} (hr : f.Runs run) {s : State} {st : Str} {g : Group}
    {rest : List Group} (c : CanIssue s f.site f.hdr f.use st g rest) :
    ∃ t st', run s = .next t ∧ t.str? f.site.engine.val f.site.place.val = some st'
      ∧ Advanced st st' g rest ∧ VectorResult st st' g f.hdr (f.result st)
      ∧ st'.preds = st.preds ∧ st'.uregs = st.uregs ∧ Pends st st' f.use ∧ OnlyString s t f.site
      ∧ (f.ctr ≠ f.cls → Counted s t blkCE f.site.engine.val f.cls 1
        ∧ Counted s t blkCE f.site.engine.val f.ctr (f.elements * laneCount st g f.hdr)) := by
  obtain ⟨n, result, hrun, hres⟩ := hr
  let a := actOf f.site f.hdr st g
  let F := result a (s.issued f.site f.cls st).clk.fresh
  have hbut : (mapLanes a a.str.step F).butV = a.str.step.butV := mapLanes_butV a _ F
  refine ⟨_, (mapLanes a a.str.step F).pend f.use.writes, (hrun s).trans (State.issue_runs c f.cls _), ?string, ?advanced,
    ?registers, ?preds, ?uregs, ?pends, ?only, fun hne => ⟨?issued, ?lanes⟩⟩
  case string => exact State.str?_setStr _ _ _ _
  case advanced =>
    have e : (mapLanes a a.str.step F).bare = a.str.step.bare := Str.bare_of_butV hbut
    exact advanced_of_bare (w := f.site) (h := f.hdr) c.groups e
  case registers =>
    intro r i hi
    have hv : (mapLanes a a.str.step F).v r i = _ := mapLanes_v a _ F r i hi
    rw [Str.v_step] at hv
    refine ⟨fun hx => ?_, fun hx => ?_⟩
    · have e : ((mapLanes a a.str.step F).pend f.use.writes).v r i = F i := hv.trans (if_pos hx)
      rw [e]
      exact hres st g _ i
    · exact hv.trans (if_neg hx)
  case preds => exact (Str.preds_of_butV hbut).trans (Str.preds_step _)
  case uregs => exact (Str.uregs_of_butV hbut).trans (Str.uregs_step _)
  case pends => exact pends_pend f.use ((Str.busy_of_butV hbut).trans (Str.busy_step _))
  case only => exact (((onlyString_issued s f.site f.cls st).bump _ _ _ _).drew _).setStr _
  case issued => exact (counted_issued s f.site f.cls st).bump hne.symm _
  case lanes => exact counted_bump_issued s f.site st hne _

/-- The lane counter of a form is not the counter of its class (R545). -/
theorem laneForm_ctr_ne {i : Instr} {f : LaneForm} (hf : laneForm i = some f) : f.ctr ≠ f.cls := by
  unfold laneForm lane1 lane2 lane3 at hf
  split at hf <;> cases hf <;> exact Nat.ne_of_beq_eq_false rfl

/-- Settles O1: each instruction has the shape of a lane instruction (`laneForm_runs`), whose issue writes DST. -/
theorem laneInstructionsWriteTheirResults : Obligations.LaneInstructionsWriteTheirResults := by
  unfold Obligations.LaneInstructionsWriteTheirResults
  intro i f hf s st g rest c
  obtain ⟨t, st', ht, hst, hadv, hv, hp, hu, hpend, honly, hctr⟩ := (laneForm_runs hf).leaves c
  obtain ⟨hcls, hlanes⟩ := hctr (laneForm_ctr_ne hf)
  exact ⟨t, st', ht, hst, hadv, hv, hp, hu, hpend, honly, hcls, hlanes⟩

end Sys2Proof.Machine

/-! ### Compares -/

namespace Sys2Proof.Machine

set_option Elab.async false

theorem cmpWord_eq {n : Nat} (hn : 0 < n) (c : Cmp) (sgn : Bool) (x y : BitVec n) :
    cmpWord n c sgn x.toNat y.toNat = if sgn then cmpInt c x.toInt y.toInt else cmpInt c x.toNat y.toNat := by
  unfold cmpWord
  rw [sext_eq_toInt hn, sext_eq_toInt hn, BitVec.ofNat_toNat, BitVec.ofNat_toNat, BitVec.setWidth_eq, BitVec.setWidth_eq,
    Nat.mod_eq_of_lt x.isLt, Nat.mod_eq_of_lt y.isLt]

/-- Write a predicate on the executing lanes. -/
def setPLanes (a : Act) (pd : Nat) (b : Nat → Bool) : Str :=
  (lanesOf a.lanes).foldl (fun st i => st.setP pd i (b i)) a.str.step

/-- Count the lanes where the form has a lane counter, write the predicate, and pend it. -/
def compareBody (f : CompareForm) (result : Act → Nat → Bool) (a : Act) (s : State) : State :=
  (match f.ctr with
    | some c => s.bump blkCE a.e c (lanesOf a.lanes).length
    | none => s).setStr a.e a.place ((setPLanes a f.pd (result a)).pend f.use.writes)

/-- A command is the compare of a form. -/
def CompareForm.Runs (f : CompareForm) (run : State → Out) : Prop :=
  ∃ result, (∀ s, run s = s.issue f.site f.hdr f.cls true f.use (compareBody f result))
    ∧ ∀ st g, result (actOf f.site f.hdr st g) = f.result st

theorem compareForm_runs {i : Instr} {f : CompareForm} (hf : compareForm i = some f) : f.Runs (exec i) := by
  unfold compareForm at hf
  split at hf
  next w h c sgn pd =>
    cases hf
    exact ⟨fun a j => cmpWord 32 c sgn (a.a0 j).toNat (a.a1 j).toNat, fun s => rfl,
      fun st g => funext fun j => cmpWord_eq (by decide) c sgn (st.v h.src0.toNat j) (st.v h.src1.toNat j)⟩
  next w h c pd =>
    cases hf
    exact ⟨fun a j => cmpFlt c (fmtFP32.decode (a.a0 j).toNat) (fmtFP32.decode (a.a1 j).toNat), fun s => rfl,
      fun _ _ => rfl⟩
  next w h c sgn pd =>
    cases hf
    exact ⟨fun a _ => cmpWord 64 c sgn (a.str.u h.src0.toNat).toNat (a.str.u h.src1.toNat).toNat, fun s => rfl,
      fun st g => funext fun _ => cmpWord_eq (by decide) c sgn (st.u h.src0.toNat) (st.u h.src1.toNat)⟩
  next => cases hf

theorem setPLanes_bare (a : Act) (pd : Nat) (b : Nat → Bool) : (setPLanes a pd b).bare = a.str.step.bare :=
  foldl_keeps Str.bare (fun st i _ => st.bare_setP pd i _) _
theorem setPLanes_vregs (a : Act) (pd : Nat) (b : Nat → Bool) : (setPLanes a pd b).vregs = a.str.vregs :=
  (foldl_keeps Str.vregs (fun st i _ => st.vregs_setP pd i _) _).trans (Str.vregs_step _)
theorem setPLanes_uregs (a : Act) (pd : Nat) (b : Nat → Bool) : (setPLanes a pd b).uregs = a.str.uregs :=
  (foldl_keeps Str.uregs (fun st i _ => st.uregs_setP pd i _) _).trans (Str.uregs_step _)
theorem setPLanes_busy (a : Act) (pd : Nat) (b : Nat → Bool) : (setPLanes a pd b).busy = a.str.busy :=
  (foldl_keeps Str.busy (fun st i _ => st.busy_setP pd i _) _).trans (Str.busy_step _)

/-- A predicate written on the executing lanes of an instruction. -/
theorem setPLanes_result (w : Site) (h : Hdr) (st : Str) (g : Group) (pd : Nat) (b : Nat → Bool) :
    PredicateResult st (setPLanes (actOf w h st g) pd b) g h pd b := by
  intro p i _ hi
  have read : bit ((setPLanes (actOf w h st g) pd b).p p).toNat i = _ :=
    bit_p_setP_lanes (actOf w h st g).str.step pd (lanesOf (actOf w h st g).lanes) b (fun _ _ => rfl) p hi
  rw [Str.p_step] at read
  exact read

/-- What a compare that can issue leaves. -/
theorem CompareForm.Runs.leaves {f : CompareForm} {run : State → Out} (hr : f.Runs run) {s : State} {st : Str} {g : Group}
    {rest : List Group} (c : CanIssue s f.site f.hdr f.use st g rest) :
    ∃ t st', run s = .next t ∧ t.str? f.site.engine.val f.site.place.val = some st'
      ∧ Advanced st st' g rest ∧ PredicateResult st st' g f.hdr f.pd (f.result st)
      ∧ st'.vregs = st.vregs ∧ st'.uregs = st.uregs ∧ Pends st st' f.use ∧ OnlyString s t f.site
      ∧ ((∀ x, f.ctr = some x → x ≠ f.cls) → Counted s t blkCE f.site.engine.val f.cls 1
        ∧ ∀ x, f.ctr = some x → Counted s t blkCE f.site.engine.val x (laneCount st g f.hdr)) := by
  obtain ⟨result, hrun, hres⟩ := hr
  let a := actOf f.site f.hdr st g
  have issued := onlyString_issued s f.site f.cls st
  refine ⟨_, (setPLanes a f.pd (result a)).pend f.use.writes, (hrun s).trans (State.issue_runs c f.cls _),
    State.str?_setStr _ _ _ _, ?advanced, ?written, setPLanes_vregs _ _ _,
    setPLanes_uregs _ _ _, pends_pend f.use (setPLanes_busy _ _ _), ?only, fun hne => ⟨?issued, fun x hx => ?lanes⟩⟩
  case advanced => exact advanced_of_bare (w := f.site) (h := f.hdr) c.groups (setPLanes_bare a f.pd _)
  case written => exact hres st g ▸ setPLanes_result f.site f.hdr st g f.pd (result a)
  case only =>
    refine OnlyString.setStr ?_ _
    split
    · exact issued.bump _ _ _ _
    · exact issued
  case issued =>
    show Counted s (match f.ctr with | some c => _ | none => _) _ _ _ _
    have counted := counted_issued s f.site f.cls st
    cases hx : f.ctr with
    | some x => exact counted.bump (hne x hx).symm _
    | none => exact counted
  case lanes =>
    simp only [compareBody, hx]
    exact counted_bump_issued s f.site st (hne x hx) _

/-- The lane counter of a compare is not the counter of its class (R545). -/
theorem compareForm_ctr_ne {i : Instr} {f : CompareForm} (hf : compareForm i = some f) {x : Nat} (hx : f.ctr = some x) :
    x ≠ f.cls := by
  unfold compareForm at hf
  split at hf <;> cases hf <;> cases hx <;> exact Nat.ne_of_beq_eq_false rfl

/-- Settles O2: each compare has the shape of a compare (`compareForm_runs`), whose issue writes its predicate. -/
theorem comparesWriteTheirPredicate : Obligations.ComparesWriteTheirPredicate := by
  unfold Obligations.ComparesWriteTheirPredicate
  intro i f hf s st g rest c
  obtain ⟨t, st', ht, hst, hadv, hp, hv, hu, hpend, honly, hctr⟩ := (compareForm_runs hf).leaves c
  obtain ⟨hcls, hlanes⟩ := hctr fun x hx => compareForm_ctr_ne hf hx
  exact ⟨t, st', ht, hst, hadv, hp, hv, hu, hpend, honly, hcls, hlanes⟩

/-! ### Uniform instructions -/

/-- The registers that a uniform instruction names. -/
def UniformForm.use (f : UniformForm) : Use := { use0 with ru := f.reads, wu := [f.hdr.dst.toNat] }

/-- Draw n free values, write one uniform register unless no lane executes, and pend it; the second argument of the result
is the number of the first free value. -/
def uniformBody (f : UniformForm) (n : Nat) (result : Act → Nat → Dword) (a : Act) (s : State) : State :=
  (s.drew n).setStr a.e a.place
    ((if a.lanes = 0 then a.str.step else a.str.step.setU f.hdr.dst.toNat (result a s.clk.fresh)).pend f.use.writes)

/-- A command is the uniform instruction of a form. -/
def UniformForm.Runs (f : UniformForm) (run : State → Out) : Prop :=
  ∃ n result, (∀ s, run s = s.issue f.site f.hdr 2 true f.use (uniformBody f n result))
    ∧ ∀ st g k, f.result st (result (actOf f.site f.hdr st g) k)

theorem UniformForm.Runs.of_uni2 {f : UniformForm} {w : Site} {h : Hdr} {R : Nat → Nat → Nat → Prop}
    (hf : uni2 w h R = some f) {F : Dword → Dword → Dword} (hF : ∀ x z, R x.toNat z.toNat (F x z).toNat) :
    f.Runs (fun s => s.uni2 w h F) := by
  cases hf
  exact ⟨0, fun a _ => F (a.str.u h.src0.toNat) (a.str.u h.src1.toNat), fun s => rfl, fun _ _ _ => hF _ _⟩

theorem UniformForm.Runs.of_ushift {f : UniformForm} {w : Site} {h : Hdr} {R : Nat → Nat → Nat}
    (hf : uni2 w h (fun x z y => z < 64 → y = R x z) = some f) {F : Dword → Nat → Dword}
    (hF : ∀ x n, (F x n).toNat = R x.toNat n) : f.Runs (fun s => s.ushift w h F) := by
  cases hf
  refine ⟨1, fun a k => if (a.str.u h.src1.toNat).toNat < 64 then F (a.str.u h.src0.toNat) (a.str.u h.src1.toNat).toNat
    else BitVec.ofNat 64 (Config.freeNat k), fun s => rfl, fun st g k hlt => ?_⟩
  exact (congrArg BitVec.toNat (if_pos hlt)).trans (hF _ _)

theorem usub_result (x z : Dword) : ((x - z).toNat + z.toNat) % 2 ^ 64 = x.toNat := by
  have := congrArg BitVec.toNat (BitVec.sub_add_cancel x z)
  rwa [BitVec.toNat_add] at this

/-- Each uniform instruction has that shape, and its result is that of the form. -/
theorem uniformForm_runs {i : Instr} {f : UniformForm} (hf : uniformForm i = some f) : f.Runs (exec i) := by
  unfold uniformForm at hf
  split at hf
  next => exact (UniformForm.Runs.of_uni2 hf BitVec.toNat_add :)
  next => exact (UniformForm.Runs.of_uni2 hf usub_result :)
  next => exact (UniformForm.Runs.of_uni2 hf BitVec.toNat_mul :)
  next => exact (UniformForm.Runs.of_uni2 hf (F := fun x z => x &&& z) fun x z j => by
      simp only [bit_toNat, BitVec.getLsbD_and] :)
  next => exact (UniformForm.Runs.of_uni2 hf (F := fun x z => x ||| z) fun x z j => by
      simp only [bit_toNat, BitVec.getLsbD_or] :)
  next => exact (UniformForm.Runs.of_uni2 hf (F := fun x z => x ^^^ z) fun x z j => by
      simp only [bit_toNat, BitVec.getLsbD_xor] :)
  next =>
    exact (UniformForm.Runs.of_ushift hf (F := fun x n => x <<< n) fun x n => by
      rw [BitVec.toNat_shiftLeft, Nat.shiftLeft_eq] :)
  next =>
    exact (UniformForm.Runs.of_ushift hf (F := fun x n => x >>> n) fun x n => by
      rw [BitVec.toNat_ushiftRight, Nat.shiftRight_eq_div_pow] :)
  next w h r =>
    cases hf
    exact ⟨0, fun a _ => a.str.u r.val, fun s => rfl, fun _ _ _ => rfl⟩
  next w h x =>
    cases hf
    exact ⟨0, fun _ _ => x, fun s => rfl, fun _ _ _ => rfl⟩
  next => cases hf

/-- What a uniform instruction that can issue leaves. -/
theorem UniformForm.Runs.leaves {f : UniformForm} {run : State → Out} (hr : f.Runs run) {s : State} {st : Str} {g : Group}
    {rest : List Group} (c : CanIssue s f.site f.hdr f.use st g rest) :
    ∃ t st', run s = .next t ∧ t.str? f.site.engine.val f.site.place.val = some st'
      ∧ Advanced st st' g rest
      ∧ (0 < laneCount st g f.hdr → f.result st (st'.u f.hdr.dst.toNat))
      ∧ (∀ r, (r ≠ f.hdr.dst.toNat ∨ laneCount st g f.hdr = 0) → st'.u r = st.u r)
      ∧ st'.vregs = st.vregs ∧ st'.preds = st.preds ∧ OnlyString s t f.site ∧ Pends st st' f.use
      ∧ Counted s t blkCE f.site.engine.val 2 1 := by
  obtain ⟨n, result, hrun, hres⟩ := hr
  let a := actOf f.site f.hdr st g
  let y := result a (s.issued f.site 2 st).clk.fresh
  have lanes : a.lanes = 0 ↔ laneCount st g f.hdr = 0 := by
    rw [← lanesOf_eq_nil, laneCount, List.length_eq_zero_iff]
    rfl
  let x := if a.lanes = 0 then a.str.step else a.str.step.setU f.hdr.dst.toNat y
  have hx : x.bare = a.str.step.bare ∧ x.vregs = st.vregs ∧ x.preds = st.preds ∧ x.busy = st.busy := by
    simp only [x]
    split
    · exact ⟨rfl, Str.vregs_step _, Str.preds_step _, Str.busy_step _⟩
    · exact ⟨rfl, Str.vregs_step _, Str.preds_step _, Str.busy_step _⟩
  obtain ⟨hbare, hv, hp, hbusy⟩ := hx
  refine ⟨_, x.pend f.use.writes, (hrun s).trans (State.issue_runs c 2 _), State.str?_setStr _ _ _ _,
    advanced_of_bare (w := f.site) (h := f.hdr) c.groups hbare, fun some => ?written, fun r hr => ?others, hv, hp,
    ((onlyString_issued s f.site 2 st).drew n).setStr _, pends_pend f.use hbusy, counted_issued s f.site 2 st⟩
  case written =>
    have e : x = a.str.step.setU f.hdr.dst.toNat y := if_neg fun none => some.ne' (lanes.1 none)
    show f.result st (x.u _)
    rw [e, Str.u_setU]
    exact hres st g _
  case others =>
    show x.u r = st.u r
    by_cases none : a.lanes = 0
    · rw [show x = a.str.step from if_pos none, Str.u_step]
      rfl
    · rw [show x = a.str.step.setU f.hdr.dst.toNat y from if_neg none,
        Str.u_setU_ne _ _ (hr.resolve_right fun z => none (lanes.2 z)), Str.u_step]
      rfl

/-- Settles O3: each uniform instruction has that shape (`uniformForm_runs`), whose issue writes one register. -/
theorem uniformInstructionsWriteOneRegister : Obligations.UniformInstructionsWriteOneRegister := by
  unfold Obligations.UniformInstructionsWriteOneRegister
  intro i f hf s st g rest c
  exact (uniformForm_runs hf).leaves c

end Sys2Proof.Machine

/-! ## Groups (R79 to R81)

A change of groups moves no lane: `GroupsKeep` says so of a list of groups and holds of every step of the drover; blocked
groups stay what they are. -/

namespace Sys2Proof.Machine

set_option Elab.async false

/-- Every lane of the first groups stands in one of the second where it stood. -/
def GroupsKeep (gs gs' : List Group) : Prop :=
  ∀ g ∈ gs, ∀ i, bit g.mask.toNat i = true → ∃ x ∈ gs', bit x.mask.toNat i = true ∧ x.pc = g.pc

theorem lanesKept_iff {gs : List Group} {st : Str} : LanesKept gs st ↔ GroupsKeep gs st.groups := Iff.rfl

theorem GroupsKeep.of_subset {gs gs' : List Group} (h : ∀ g ∈ gs, g ∈ gs') : GroupsKeep gs gs' :=
  fun g hg _ hi => ⟨g, h g hg, hi, rfl⟩
theorem GroupsKeep.refl (gs : List Group) : GroupsKeep gs gs := .of_subset fun _ => id
theorem GroupsKeep.trans {a b c : List Group} (h : GroupsKeep a b) (k : GroupsKeep b c) : GroupsKeep a c := by
  intro g hg i hi
  obtain ⟨x, hx, hxi, hxp⟩ := h g hg i hi
  obtain ⟨y, hy, hyi, hyp⟩ := k x hx i hxi
  exact ⟨y, hy, hyi, hyp.trans hxp⟩
/-- Groups that keep their masks and program counters. -/
theorem GroupsKeep.map {f : Group → Group} (hf : ∀ g, (f g).mask = g.mask ∧ (f g).pc = g.pc) (gs : List Group) :
    GroupsKeep gs (gs.map f) :=
  fun g hg _ hi => ⟨f g, List.mem_map_of_mem hg, by rw [(hf g).1]; exact hi, (hf g).2⟩
theorem GroupsKeep.head {g x : Group} (hm : x.mask = g.mask) (hp : x.pc = g.pc) (rest : List Group) :
    GroupsKeep (g :: rest) (x :: rest) := by
  intro y hy i hi
  rcases List.mem_cons.1 hy with rfl | hy
  · exact ⟨x, List.mem_cons_self, hm ▸ hi, hp⟩
  · exact ⟨y, List.mem_cons_of_mem _ hy, hi, rfl⟩

/-- Blocked groups of the first list are in the second. -/
def BlockedKeep (gs gs' : List Group) : Prop := ∀ g ∈ gs, g.block ≠ .open → g ∈ gs'

/-- Groups of the second list come from groups of the first at the same program counter, blocked alike. -/
def GroupsFrom (gs gs' : List Group) : Prop := ∀ x ∈ gs', ∃ g ∈ gs, g.pc = x.pc ∧ g.block = x.block

/-! ### Merging and rotating -/

theorem bit_orMasks (l : List Group) (m : Word) (i : Nat) :
    bit (l.foldl (fun m x => m ||| x.mask) m).toNat i = (bit m.toNat i || l.any (fun x => bit x.mask.toNat i)) := by
  induction l generalizing m with
  | nil => simp
  | cons x l ih =>
    rw [List.foldl_cons, ih, List.any_cons]
    simp only [bit_toNat, BitVec.getLsbD_or, Bool.or_assoc]

theorem mergeHead_cons (g : Group) (rest : List Group) : ∃ m, mergeHead (g :: rest)
    = { g with mask := m } :: rest.filter (fun x => !(x.pc = g.pc && x.block = .open)) := ⟨_, rfl⟩

theorem mergeHead_keeps (gs : List Group) : GroupsKeep gs (mergeHead gs) := by
  cases gs with
  | nil => exact GroupsKeep.refl []
  | cons g rest =>
    intro y hy i hi
    by_cases h : y = g ∨ (y.pc = g.pc ∧ y.block = .open)
    · refine ⟨_, List.mem_cons_self, ?_, ?_⟩
      · rw [bit_orMasks]
        rcases List.mem_cons.1 hy with rfl | hy
        · simp [hi]
        · rcases h with rfl | h
          · simp [hi]
          · rw [Bool.or_eq_true]
            exact Or.inr (List.any_eq_true.2 ⟨y, List.mem_filter.2 ⟨hy, by simp [h]⟩, hi⟩)
      · rcases h with rfl | h
        · rfl
        · exact h.1.symm
    · have hy' : y ∈ rest := (List.mem_cons.1 hy).resolve_left fun e => h (Or.inl e)
      exact ⟨y, List.mem_cons_of_mem _ (List.mem_filter.2 ⟨hy', by
        simpa [← not_and_or] using fun k => h (Or.inr k)⟩), hi, rfl⟩

theorem mergeHead_blocked {g : Group} (hg : g.block = .open) (rest : List Group) :
    BlockedKeep (g :: rest) (mergeHead (g :: rest)) := by
  intro y hy hb
  have hy' : y ∈ rest := (List.mem_cons.1 hy).resolve_left fun e => hb (e ▸ hg)
  exact List.mem_cons_of_mem _ (List.mem_filter.2 ⟨hy', by simp [hb]⟩)

theorem mergeHead_from (gs : List Group) : GroupsFrom gs (mergeHead gs) := by
  cases gs with
  | nil => exact fun x hx => ⟨x, hx, rfl, rfl⟩
  | cons g rest =>
    intro x hx
    rcases List.mem_cons.1 hx with rfl | hx
    · exact ⟨g, List.mem_cons_self, rfl, rfl⟩
    · exact ⟨x, List.mem_cons_of_mem _ (List.mem_of_mem_filter hx), rfl, rfl⟩

theorem activate_cons (g : Group) (rest : List Group) : activate (g :: rest) = mergeHead ({ g with budget := 64 } :: rest) := rfl

theorem activate_head (g : Group) (rest : List Group) : ∃ hd tl, activate (g :: rest) = hd :: tl
    ∧ hd.budget = 64 ∧ hd.pc = g.pc ∧ hd.block = g.block := ⟨_, _, rfl, rfl, rfl, rfl⟩

theorem activate_keeps (gs : List Group) : GroupsKeep gs (activate gs) := by
  cases gs with
  | nil => exact GroupsKeep.refl []
  | cons g rest => exact (GroupsKeep.head (g := g) (x := { g with budget := 64 }) rfl rfl rest).trans (mergeHead_keeps _)

theorem activate_blocked {g : Group} (hg : g.block = .open) (rest : List Group) :
    BlockedKeep (g :: rest) (activate (g :: rest)) := by
  intro y hy hb
  have hy' : y ∈ rest := (List.mem_cons.1 hy).resolve_left fun e => hb (e ▸ hg)
  exact mergeHead_blocked (g := { g with budget := 64 }) hg rest y (List.mem_cons_of_mem _ hy') hb

theorem activate_from (gs : List Group) : GroupsFrom gs (activate gs) := by
  cases gs with
  | nil => exact fun x hx => ⟨x, hx, rfl, rfl⟩
  | cons g rest =>
    intro x hx
    obtain ⟨y, hy, hp, hb⟩ := mergeHead_from ({ g with budget := 64 } :: rest) x hx
    rcases List.mem_cons.1 hy with rfl | hy
    · exact ⟨g, List.mem_cons_self, hp, hb⟩
    · exact ⟨y, List.mem_cons_of_mem _ hy, hp, hb⟩

/-- The first open group of a list. -/
theorem first_open (gs : List Group) : (∀ y ∈ gs, y.block ≠ .open)
    ∨ ∃ pre x post, gs = pre ++ x :: post ∧ (∀ y ∈ pre, y.block ≠ .open) ∧ x.block = .open := by
  induction gs with
  | nil => exact Or.inl fun y hy => nomatch hy
  | cons g gs ih =>
    by_cases hg : g.block = .open
    · exact Or.inr ⟨[], g, gs, rfl, fun y hy => (nomatch hy), hg⟩
    · rcases ih with ih | ⟨pre, x, post, rfl, hpre, hx⟩
      · exact Or.inl (List.forall_mem_cons.2 ⟨hg, ih⟩)
      · exact Or.inr ⟨g :: pre, x, post, rfl, List.forall_mem_cons.2 ⟨hg, hpre⟩, hx⟩

theorem rotateOpen_first {pre post : List Group} {x : Group} (hpre : ∀ y ∈ pre, y.block ≠ .open) (hx : x.block = .open)
    {n : Nat} (hn : pre.length < n) : rotateOpen n (pre ++ x :: post) = some (x :: post ++ pre) := by
  induction pre generalizing n post with
  | nil =>
    obtain ⟨n, rfl⟩ : ∃ k, n = k + 1 := ⟨n - 1, by simp at hn; omega⟩
    simp [rotateOpen, hx]
  | cons y pre ih =>
    obtain ⟨n, rfl⟩ : ∃ k, n = k + 1 := ⟨n - 1, by simp at hn; omega⟩
    obtain ⟨hy, hpre⟩ := List.forall_mem_cons.1 hpre
    simp only [List.cons_append, rotateOpen, if_neg hy, List.append_assoc]
    rw [ih hpre (by simpa using hn)]
    simp

theorem rotateOpen_none {gs : List Group} (h : ∀ y ∈ gs, y.block ≠ .open) (n : Nat) : rotateOpen n gs = none := by
  induction n generalizing gs with
  | zero => rfl
  | succ n ih =>
    cases gs with
    | nil => rfl
    | cons g rest =>
      obtain ⟨hg, hrest⟩ := List.forall_mem_cons.1 h
      rw [rotateOpen, if_neg hg]
      exact ih fun y hy => (List.mem_append.1 hy).elim (hrest y) fun e => List.mem_singleton.1 e ▸ hg

/-- Rotating finds no open group, or the first one. -/
theorem rotateOpen_cases {gs : List Group} {n : Nat} (hn : gs.length ≤ n) :
    ((∀ y ∈ gs, y.block ≠ .open) ∧ rotateOpen n gs = none)
    ∨ ∃ pre x post, gs = pre ++ x :: post ∧ (∀ y ∈ pre, y.block ≠ .open) ∧ x.block = .open
        ∧ rotateOpen n gs = some (x :: post ++ pre) := by
  rcases first_open gs with h | ⟨pre, x, post, rfl, hpre, hx⟩
  · exact Or.inl ⟨h, rotateOpen_none h n⟩
  · refine Or.inr ⟨pre, x, post, rfl, hpre, hx, rotateOpen_first hpre hx ?_⟩
    rw [List.length_append, List.length_cons] at hn
    omega

/-! ### The string after a change of its groups -/

/-- Only groups and state of the string differ. -/
def Str.butGroups (st : Str) : Str := { st with groups := [], state := .ready }

/-- What a change of groups leaves: no lane has moved, blocked groups stay, no group is new. -/
structure Regrouped (st st' : Str) : Prop where
  rest : st'.butGroups = st.butGroups
  keeps : GroupsKeep st.groups st'.groups
  blocked : BlockedKeep st.groups st'.groups
  origin : GroupsFrom st.groups st'.groups

theorem Str.vregs_of_butGroups {x y : Str} (h : x.butGroups = y.butGroups) : x.vregs = y.vregs := (congrArg Str.vregs h :)
theorem Str.preds_of_butGroups {x y : Str} (h : x.butGroups = y.butGroups) : x.preds = y.preds := (congrArg Str.preds h :)
theorem Str.uregs_of_butGroups {x y : Str} (h : x.butGroups = y.butGroups) : x.uregs = y.uregs := (congrArg Str.uregs h :)
theorem Str.busy_of_butGroups {x y : Str} (h : x.butGroups = y.butGroups) : x.busy = y.busy := (congrArg Str.busy h :)
theorem Str.wg_of_butGroups {x y : Str} (h : x.butGroups = y.butGroups) : x.wg = y.wg := (congrArg Str.wg h :)

/-- Groups stay, whatever the state becomes. -/
theorem Regrouped.state (st : Str) (x : StrState) : Regrouped st { st with state := x } :=
  ⟨rfl, .refl _, fun _ hg _ => hg, fun x hx => ⟨x, hx, rfl, rfl⟩⟩

/-- Another group becomes active. -/
theorem Regrouped.of_rotate {st : Str} {pre post : List Group} {x : Group} (hg : ∀ y, y ∈ st.groups ↔ y ∈ pre ++ x :: post)
    (hx : x.block = .open) : Regrouped st { st with groups := activate (x :: post ++ pre), state := .ready } := by
  have mem : ∀ y, y ∈ st.groups ↔ y ∈ x :: (post ++ pre) := by
    intro y
    rw [hg]
    simp only [List.mem_append, List.mem_cons]
    tauto
  refine ⟨rfl, ?_, fun y hy hb => ?_, fun y hy => ?_⟩
  · exact (GroupsKeep.of_subset fun y hy => (mem y).1 hy).trans (activate_keeps _)
  · exact activate_blocked hx _ y ((mem y).1 hy) hb
  · obtain ⟨z, hz, e⟩ := activate_from (x :: (post ++ pre)) y hy
    exact ⟨z, (mem z).2 hz, e⟩

theorem Str.settle_regrouped (st : Str) : Regrouped st st.settle := by
  unfold Str.settle
  split
  · exact .state st _
  next g rest hg =>
    split
    · exact .state st st.state
    · split
      · exact .state st _
      · rcases rotateOpen_cases (gs := g :: rest) (Nat.le_refl _) with ⟨_, e⟩ | ⟨pre, x, post, hgs, _, hx, e⟩
        · rw [List.length_cons] at e
          rw [e]
          exact .state st _
        · rw [List.length_cons] at e
          rw [e]
          exact .of_rotate (fun y => by rw [hg, hgs]) hx

/-- A string with an open group is ready after a change of its groups. -/
theorem Str.settle_ready {st : Str} (hp : ∀ id, st.state ≠ .parked id) (h : ∃ g ∈ st.groups, g.block = .open) :
    st.settle.state = .ready := by
  obtain ⟨y, hy, ho⟩ := h
  unfold Str.settle
  split
  next hg => rw [hg] at hy; cases hy
  next g rest hg =>
    split
    next id e => exact absurd e (hp id)
    · split
      · rfl
      · rcases rotateOpen_cases (gs := g :: rest) (Nat.le_refl _) with ⟨none, _⟩ | ⟨pre, x, post, _, _, _, e⟩
        · exact absurd ho (none y (hg ▸ hy))
        · rw [List.length_cons] at e
          rw [e]

theorem Str.giveWay_regrouped (st : Str) : Regrouped st st.giveWay := by
  unfold Str.giveWay
  split
  · exact .state st st.state
  next g rest hg =>
    have len : (rest ++ [g]).length ≤ rest.length + 1 := by simp
    rcases rotateOpen_cases len with ⟨_, e⟩ | ⟨pre, x, post, hgs, _, hx, e⟩
    · rw [e]
      exact .state st _
    · rw [e]
      refine .of_rotate (fun y => ?_) hx
      rw [hg, ← hgs]
      simp [or_comm]

/-- Giving way with an open active group (R81). -/
theorem Str.giveWay_gaveWay {st : Str} {g : Group} {rest : List Group} (hg : st.groups = g :: rest) (ho : g.block = .open) :
    GaveWay st.giveWay g rest := by
  have keeps := st.giveWay_regrouped.keeps
  rw [hg] at keeps
  have len : (rest ++ [g]).length ≤ rest.length + 1 := by simp
  rcases rotateOpen_cases len with ⟨none, _⟩ | ⟨pre, x, post, hgs, hpre, hx, e⟩
  · exact absurd ho (none g (by simp))
  · have way : st.giveWay = { st with groups := activate (x :: post ++ pre), state := .ready } := by
      simp only [Str.giveWay, hg, e]
    obtain ⟨hd, tl, hhd, hbudget, hpc, _⟩ := activate_head x (post ++ pre)
    refine ⟨by rw [way], keeps, hd, tl, by rw [way]; exact hhd, hbudget, ?_, ?_⟩
    · intro pre' x' post' hrest hpre' hx'
      have split : pre ++ x :: post = pre' ++ x' :: (post' ++ [g]) := by rw [← hgs, hrest]; simp
      have find := congrArg (List.find? (fun y : Group => y.block = .open)) split
      have skip : ∀ {l : List Group} {z : Group} {t : List Group}, (∀ y ∈ l, y.block ≠ .open) → z.block = .open →
          (l ++ z :: t).find? (fun y => y.block = .open) = some z := by
        intro l z t hl hz
        rw [List.find?_append, List.find?_eq_none.2 (by simpa using hl)]
        simp [hz]
      rw [skip hpre hx, skip hpre' hx'] at find
      rw [hpc, Option.some.inj find]
    · intro hrest
      have hxm : x ∈ rest ++ [g] := by rw [hgs]; simp
      rcases List.mem_append.1 hxm with h | h
      · exact absurd hx (hrest x h)
      · rw [hpc, List.mem_singleton.1 h]

/-- A blocked active group: no lane moves, and the group waits (R81). -/
theorem Str.blockHead_regrouped {st : Str} {g : Group} {rest : List Group} (hg : st.groups = g :: rest) (b : Block) :
    Regrouped { st with groups := { g with block := b } :: rest } (st.blockHead b) := by
  have e : st.modHead (fun g => { g with block := b }) = { st with groups := { g with block := b } :: rest } := by
    simp only [Str.modHead, hg]
  rw [Str.blockHead, e]
  exact Str.settle_regrouped _

/-- Blocked groups are opened: no lane moves, and the opened groups are blocked no more. -/
theorem Str.unblock_leaves (st : Str) (p : Block → Bool) : (st.unblock p).butGroups = st.butGroups
    ∧ GroupsKeep st.groups (st.unblock p).groups
    ∧ ∀ x ∈ (st.unblock p).groups, p x.block = true → x.block = .open := by
  let f : Group → Group := fun g => if p g.block then { g with block := .open } else g
  have r : Regrouped { st with groups := st.groups.map f } (st.unblock p) := Str.settle_regrouped _
  have hf : ∀ g, (f g).mask = g.mask ∧ (f g).pc = g.pc := fun g => by
    simp only [f]
    split <;> exact ⟨rfl, rfl⟩
  refine ⟨r.rest, (GroupsKeep.map hf _).trans r.keeps, fun x hx hp => ?_⟩
  obtain ⟨y, hy, _, hb⟩ := r.origin x hx
  obtain ⟨z, _, rfl⟩ := List.mem_map.1 hy
  rw [← hb]
  simp only [f] at hb ⊢
  split
  · rfl
  · rename_i hz
    rw [if_neg hz] at hb
    rw [hb] at hz
    exact absurd hp hz

end Sys2Proof.Machine

/-! ## Where an instruction does not issue (R71, R75, R77 to R79, R97) -/

namespace Sys2Proof.Machine

set_option Elab.async false

/-! ### Every string instruction issues through `State.issue` -/

/-- A command is an issue from a site. -/
def IssuesFrom (w : Site) (run : State → Out) : Prop :=
  ∀ s, ∃ h cls legal u body, run s = s.issue w h cls legal u body

theorem execCvt_issues (w : Site) (h : Hdr) (c : CvtMode) : IssuesFrom w (execCvt w h c) := by
  intro s
  unfold execCvt
  split <;> exact ⟨_, _, _, _, _, rfl⟩

theorem State.execPq_issues (w : Site) (h : Hdr) (ext : Option (List Byte)) (pick : Pq → Found → Nat → Found × Nat × Nat) :
    IssuesFrom w (fun s => s.execPq w h ext pick) := by
  intro s
  unfold State.execPq
  exact ⟨_, _, _, _, _, rfl⟩

theorem laneForm_issues {i : Instr} {f : LaneForm} {w : Site} (hf : laneForm i = some f) (hw : f.site = w) :
    IssuesFrom w (exec i) := by
  obtain ⟨_, _, hrun, _⟩ := laneForm_runs hf
  exact hw ▸ fun s => ⟨_, _, _, _, _, hrun s⟩
theorem compareForm_issues {i : Instr} {f : CompareForm} {w : Site} (hf : compareForm i = some f) (hw : f.site = w) :
    IssuesFrom w (exec i) := by
  obtain ⟨_, hrun, _⟩ := compareForm_runs hf
  exact hw ▸ fun s => ⟨_, _, _, _, _, hrun s⟩
theorem uniformForm_issues {i : Instr} {f : UniformForm} {w : Site} (hf : uniformForm i = some f) (hw : f.site = w) :
    IssuesFrom w (exec i) := by
  obtain ⟨_, _, hrun, _⟩ := uniformForm_runs hf
  exact hw ▸ fun s => ⟨_, _, _, _, _, hrun s⟩

theorem issueSite_issues {i : Instr} {w : Site} (hi : issueSite i = some w) : IssuesFrom w (exec i) := by
  cases i
  all_goals
    cases hi
  case cvt h c => exact execCvt_issues w h c
  case mov h r => cases r <;> exact laneForm_issues rfl rfl
  case umov h r => cases r <;> exact uniformForm_issues rfl rfl
  case iadd | isub | imin | imax | and | or | xor | not | shl | shr | sar | popc | clz | brev | bfe | bfi | sel | imad
      | imulHi | fadd | fmul | ffma | fmin | fmax | fabs | fneg | hadd2 | hmul2 | hfma2 | rcp | rsq | sqrt | exp2 | log2
      | sin | cos =>
    exact laneForm_issues rfl rfl
  case isetp | fsetp | usetp => exact compareForm_issues rfl rfl
  case uadd | usub | umul | uand | uor | uxor | ushl | ushr => exact uniformForm_issues rfl rfl
  case bra | jmp | call | calli | exit | join | yield | sleep | gmask | trap | nop | barSync | barArrive | barWait | shfl
      | vote | fence =>
    intro s
    unfold exec
    dsimp only [execBra, execJmp, execCall, execCalli, execExit, execJoin, execYield, execSleep, execGmask, execTrap, execNop,
      execBarSync, execBarArrive, execBarWait, execShfl, execVote, execFence, State.issueStr]
    exact ⟨_, _, _, _, _, rfl⟩
  case ld | st | atomAdd | atomSmin | atomUmin | atomSmax | atomUmax | atomAnd | atomOr | atomXor | atomExch | atomCas
      | atomInc | atomDec | atomFadd | atomFmin | atomFmax | alloc | free =>
    intro s
    unfold exec
    dsimp only [execLd, execSt, execAtomAdd, execAtomSmin, execAtomUmin, execAtomSmax, execAtomUmax, execAtomAnd, execAtomOr,
      execAtomXor, execAtomExch, execAtomCas, execAtomInc, execAtomDec, execAtomFadd, execAtomFmin, execAtomFmax,
      State.execAtom, execAlloc, execFree]
    exact ⟨_, _, _, _, _, rfl⟩
  case tmma | tfill | tspill | tcvt | twait =>
    intro s
    unfold exec
    dsimp only [execTmma, execTfill, execTspill, execTcvt, execTwait, State.issueMover, State.issueTensor]
    exact ⟨_, _, _, _, _, rfl⟩
  case pqKnn | pqRadius =>
    intro s
    unfold exec
    dsimp only [execPqKnn, execPqRadius]
    exact State.execPq_issues _ _ _ _ s
  case tex | texb | texl | texg | tld | tg4 | tq =>
    intro s
    unfold exec
    dsimp only [execTex, execTexb, execTexl, execTexg, execTld, execTg4, execTq, State.execTex]
    exact ⟨_, _, _, _, _, rfl⟩
  case rqInit | rqProceed | rqConfirm | rqGenhit | rqTerminate | rqGet | tla | tsa | tldr | tstr =>
    intro s
    unfold exec
    dsimp only [execRqInit, execRqProceed,
      execRqConfirm, execRqGenhit, execRqTerminate, execRqGet, State.execRq, execTla, execTsa, execTldr, execTstr]
    exact ⟨_, _, _, _, _, rfl⟩

/-- Settles O6: every string instruction issues through `State.issue`, which leaves the state of a string that may not. -/
theorem nothingIssuesFromAStringThatCannot : Obligations.NothingIssuesFromAStringThatCannot := by
  unfold Obligations.NothingIssuesFromAStringThatCannot
  intro i w s hi c
  obtain ⟨h, cls, legal, u, body, e⟩ := issueSite_issues hi s
  exact e.trans (State.issue_stays c h cls legal u body)

end Sys2Proof.Machine

/-! ### The dispatch of an illegal instruction stops (R97) -/

namespace Sys2Proof.Machine

set_option Elab.async false

theorem State.cmd?_congr {s t : State} (h : t.queues = s.queues) (q cmd : Nat) : t.cmd? q cmd = s.cmd? q cmd := by
  rw [State.cmd?, State.cmd?, State.queue?, State.queue?, h]

/-- A command's record after it ends: the first end counts (R321). -/
theorem State.cmd?_endCmd (s : State) (q cmd err detail : Nat) {c : Cmd} (hc : s.cmd? q cmd = some c)
    (open' : ∀ x, c.st ≠ .ended x) :
    (s.endCmd q cmd err detail).cmd? q cmd = some { c with st := .ended err, detail := BitVec.ofNat 64 detail } := by
  rw [State.cmd?, State.endCmd, State.modCmd, State.queue?_modQueue, if_pos rfl]
  rw [State.cmd?] at hc
  cases hv : s.queue? q with
  | none => rw [hv] at hc; cases hc
  | some v =>
    rw [hv, Option.bind_some] at hc
    have hidx : c.index = cmd := by simpa using List.find?_some hc
    rw [Option.map_some, Option.bind_some, List.find?_map]
    have same : ∀ f : Cmd → Cmd, (∀ x, (f x).index = x.index) →
        (fun c : Cmd => decide (c.index = cmd)) ∘ (fun c => if c.index = cmd then f c else c)
          = fun c => decide (c.index = cmd) := by
      intro f hf
      funext x
      simp only [Function.comp]
      split <;> simp [hf]
    rw [same, hc, Option.map_some, if_pos hidx]
    · congr 1
      split
      next x e => exact absurd e (open' x)
      · rfl
    · intro x
      split <;> rfl

theorem State.eng_trap (s : State) (e q cmd err detail : Nat) :
    (s.trap e q cmd err detail).eng e = (s.eng e).kill q cmd := State.eng_modEng s e (fun v => v.kill q cmd)

/-- A trap stops the dispatch; s is any earlier state with the same command queues. -/
theorem State.trap_stops {s s' : State} (hq : s'.queues = s.queues) (e q cmd err detail : Nat) :
    Stopped s (s'.trap e q cmd err detail) e q cmd err detail := by
  refine ⟨fun p st h => ?_, fun c hc open' => ?_⟩
  · rw [State.str?, State.eng_trap] at h
    exact Eng.kill_strs _ q cmd p st h
  · have hk : (s'.killCmd e q cmd).cmd? q cmd = some c := by
      rw [State.cmd?_congr (t := s'.killCmd e q cmd) (s := s) (by exact hq), hc]
    exact State.cmd?_endCmd _ q cmd err detail hk open'

/-- A change of an engine that leaves its strings alone. -/
theorem State.str?_modEng {f : Eng → Eng} (hf : ∀ v, (f v).strs = v.strs) (s : State) (e k p : Nat) :
    (s.modEng e f).str? k p = s.str? k p := by
  by_cases h : k = e
  · subst h
    rw [State.str?, State.eng_modEng, hf]
    rfl
  · rw [State.str?, State.eng_modEng_ne _ _ h]
    rfl

theorem State.trap_memory (s : State) (e q cmd err detail : Nat) : (s.trap e q cmd err detail).mem = s.mem := rfl

/-- A plain instruction's shape: an issue whose site, header and registers are those of its form. -/
theorem plainForm_issues {i : Instr} {w : Site} {h : Hdr} {u : Use}
    (hi : (∃ f, laneForm i = some f ∧ f.site = w ∧ f.hdr = h ∧ f.use = u)
      ∨ (∃ f, compareForm i = some f ∧ f.site = w ∧ f.hdr = h ∧ f.use = u)) :
    ∃ cls body, ∀ s, exec i s = s.issue w h cls true u body := by
  rcases hi with ⟨f, hf, rfl, rfl, rfl⟩ | ⟨f, hf, rfl, rfl, rfl⟩
  · obtain ⟨_, _, hrun, _⟩ := laneForm_runs hf
    exact ⟨_, _, hrun⟩
  · obtain ⟨_, hrun, _⟩ := compareForm_runs hf
    exact ⟨_, _, hrun⟩

theorem Use.legal_eq_false {u : Use} {n : Nat} (h : ∃ r ∈ u.rv ++ u.wv, n ≤ r) : u.legal n = false := by
  obtain ⟨r, hr, hn⟩ := h
  have : (u.rv ++ u.wv).all (fun r => decide (r < n)) = false := by
    rw [List.all_eq_false]
    exact ⟨r, hr, by simpa using hn⟩
  simp [Use.legal, this]

/-- Settles O7: the issue of an illegal register traps (`State.issue_illegal`), and a trap stops the dispatch. -/
theorem illegalRegistersStopTheDispatch : Obligations.IllegalRegistersStopTheDispatch := by
  unfold Obligations.IllegalRegistersStopTheDispatch
  intro i w h u hi s st g rest working free resident groups ready eligible budget chosen bad
  obtain ⟨cls, body, hrun⟩ := plainForm_issues hi
  refine ⟨_, (hrun s).trans (State.issue_illegal h cls true u body working free resident groups ready eligible budget chosen
    ?_), State.trap_stops rfl _ _ _ _ _, fun a => by rw [State.trap_memory]⟩
  rw [Use.legal_eq_false bad]
  rfl

/-- Settles O8: the issue of a pending register blocks the active group (`State.issue_blocks`), which moves no lane. -/
theorem pendingRegistersBlockTheGroup : Obligations.PendingRegistersBlockTheGroup := by
  unfold Obligations.PendingRegistersBlockTheGroup
  intro i w h u hi s st g rest working free resident groups ready eligible budget chosen encoded pending
  obtain ⟨cls, body, hrun⟩ := plainForm_issues hi
  have r := Str.blockHead_regrouped groups .scoreboard
  refine ⟨_, st.blockHead .scoreboard, (hrun s).trans (State.issue_blocks cls body working free resident groups ready
    eligible budget chosen encoded pending), State.str?_setStr _ _ _ _, (OnlyString.refl s w).setStr _,
    Str.vregs_of_butGroups r.rest, Str.preds_of_butGroups r.rest, Str.uregs_of_butGroups r.rest,
    Str.busy_of_butGroups r.rest, ?_, { g with block := .scoreboard }, ?_, rfl, rfl, rfl⟩
  · rw [groups]
    exact (GroupsKeep.head (g := g) (x := { g with block := .scoreboard }) rfl rfl rest).trans r.keeps
  · exact r.blocked { g with block := .scoreboard } List.mem_cons_self fun e => nomatch e

/-! ### The drover's events (R75 to R81, R100) -/

/-- SLEEP_EXPIRY opens the groups that sleep at a program counter. -/
def Group.wake (pc : Dword) (g : Group) : Group :=
  if g.pc = pc then (match g.block with | .sleep _ => { g with block := .open } | _ => g) else g

theorem Group.wake_place (pc : Dword) (g : Group) : (g.wake pc).mask = g.mask ∧ (g.wake pc).pc = g.pc := by
  unfold Group.wake
  split
  · split <;> exact ⟨rfl, rfl⟩
  · exact ⟨rfl, rfl⟩

theorem Group.wake_awake {pc : Dword} {g : Group} (h : (g.wake pc).pc = pc) (n : Nat) : (g.wake pc).block ≠ .sleep n := by
  rw [(g.wake_place pc).2] at h
  unfold Group.wake
  rw [if_pos h]
  split
  · exact fun e => nomatch e
  next asleep => exact asleep n

theorem Group.wake_open {pc : Dword} {g : Group} (hp : g.pc = pc) {n : Nat} (hb : g.block = .sleep n) :
    (g.wake pc).block = .open := by
  unfold Group.wake
  rw [if_pos hp, hb]

section

variable {w : Site} {s : State} {st : Str}

theorem execStringPromotion_runs (working : s.working = true) (resident : s.str? w.engine.val w.place.val = some st)
    (ready : st.state = .ready) (unpromoted : st.promoted = none) :
    execStringPromotion w s = .next ((s.setStr w.engine.val w.place.val
      { st with promoted := some (s.eng w.engine.val).promotions }).modEng w.engine.val
        (fun v => { v with promotions := (s.eng w.engine.val).promotions + 1 })) := by
  unfold execStringPromotion
  simp only [resident, working, ready, unpromoted]
  rfl

theorem execBudgetExpiry_runs {g : Group} {rest : List Group} (working : s.working = true)
    (resident : s.str? w.engine.val w.place.val = some st) (groups : st.groups = g :: rest) (ready : st.state = .ready)
    (spent : g.budget = 0) : execBudgetExpiry w s
      = .next ((s.bump blkCE w.engine.val 0x021 1).setStr w.engine.val w.place.val st.giveWay) := by
  unfold execBudgetExpiry
  simp only [resident, groups, working, spent, ready]
  rfl

theorem execSleepExpiry_runs (working : s.working = true) (resident : s.str? w.engine.val w.place.val = some st)
    (pc : Dword) : execSleepExpiry w pc s
      = .next (s.setStr w.engine.val w.place.val { st with groups := st.groups.map (Group.wake pc) }.settle) := by
  unfold execSleepExpiry
  simp only [resident, working]
  rfl

theorem execScoreboardRelease_owed (resident : s.str? w.engine.val w.place.val = some st) {reg : Fin 576}
    (owed : s.owes w.engine.val w.place.val reg.val = true) : execScoreboardRelease w reg s = .next s := by
  unfold execScoreboardRelease
  simp only [resident, owed, Bool.or_true, if_true]

theorem execScoreboardRelease_runs (working : s.working = true) (resident : s.str? w.engine.val w.place.val = some st)
    {reg : Fin 576} (free : s.owes w.engine.val w.place.val reg.val = false) : execScoreboardRelease w reg s
      = .next (s.setStr w.engine.val w.place.val
          (Str.unblock { st with busy := st.busy.filter (fun r => r ≠ reg.val) } (fun b => b = .scoreboard))) := by
  unfold execScoreboardRelease
  simp only [resident, working, free]
  rfl

end

/-- Settles O24: promotion, giving way and opening groups, by the laws of the groups. -/
theorem droverEventsChangeOneString : Obligations.DroverEventsChangeOneString := by
  unfold Obligations.DroverEventsChangeOneString
  intro w s st working resident
  dsimp only
  refine ⟨fun ready unpromoted => ?promotion, fun g rest groups ready eligible spent => ?budget, fun pc unparked => ?sleep,
    fun reg => ⟨execScoreboardRelease_owed resident, fun free => ?release⟩⟩
  case promotion =>
    let f : Eng → Eng := fun v => { v with promotions := (s.eng w.engine.val).promotions + 1 }
    let t := s.setStr w.engine.val w.place.val { st with promoted := some (s.eng w.engine.val).promotions }
    have strs : ∀ e p, (t.modEng w.engine.val f).str? e p = t.str? e p :=
      State.str?_modEng (f := f) (fun _ => rfl) t w.engine.val
    have promotions : (f (t.eng w.engine.val)).promotions = (s.eng w.engine.val).promotions + 1 := rfl
    rw [← t.eng_modEng w.engine.val f] at promotions
    exact ⟨_, execStringPromotion_runs working resident ready unpromoted, (strs _ _).trans (State.str?_setStr _ _ _ _),
      promotions, fun e' p' hne => (strs _ _).trans (State.str?_setStr_ne _ _ hne), rfl⟩
  case budget =>
    have r := st.giveWay_regrouped
    exact ⟨_, st.giveWay, execBudgetExpiry_runs working resident groups ready spent, State.str?_setStr _ _ _ _,
      Str.giveWay_gaveWay groups eligible,
      ⟨Str.vregs_of_butGroups r.rest, Str.preds_of_butGroups r.rest, Str.uregs_of_butGroups r.rest⟩,
      ((OnlyString.refl s w).bump _ _ _ _).setStr _, s.ctr_bump_mod blkCE w.engine.val 0x021 1⟩
  case sleep =>
    let woken : Str := { st with groups := st.groups.map (Group.wake pc) }
    have r : Regrouped woken woken.settle := Str.settle_regrouped _
    refine ⟨_, woken.settle, execSleepExpiry_runs working resident pc, State.str?_setStr _ _ _ _,
      (OnlyString.refl s w).setStr _,
      ⟨Str.vregs_of_butGroups r.rest, Str.preds_of_butGroups r.rest, Str.uregs_of_butGroups r.rest⟩,
      (GroupsKeep.map (Group.wake_place pc) st.groups).trans r.keeps, fun x hx hp n => ?_, ?_⟩
    · obtain ⟨y, hy, hyp, hyb⟩ := r.origin x hx
      obtain ⟨g, _, rfl⟩ := List.mem_map.1 hy
      rw [← hyb]
      exact Group.wake_awake (hyp.trans hp) n
    · rintro ⟨g, hg, hp, n, hb⟩
      exact Str.settle_ready (st := woken) unparked ⟨g.wake pc, List.mem_map_of_mem hg, Group.wake_open hp hb⟩
  case release =>
    let freed : Str := { st with busy := st.busy.filter (fun r => r ≠ reg.val) }
    obtain ⟨hrest, hkeeps, hopen⟩ := freed.unblock_leaves (fun b => b = .scoreboard)
    refine ⟨_, _, execScoreboardRelease_runs working resident free, State.str?_setStr _ _ _ _, (OnlyString.refl s w).setStr _,
      ⟨Str.vregs_of_butGroups (y := freed) hrest, Str.preds_of_butGroups (y := freed) hrest,
        Str.uregs_of_butGroups (y := freed) hrest⟩, hkeeps,
      Str.busy_of_butGroups hrest, fun x hx e => ?_⟩
    have := hopen x hx (by simp [e])
    rw [e] at this
    cases this

end Sys2Proof.Machine

/-! ## NOP on a scoreboard that lists a register twice (R100) -/

namespace Sys2Proof.Machine

set_option Elab.async false

open Sys2Proof.Tests

/-- The sample string with register 5 twice on its scoreboard. -/
def owedTwice : Str := { st0 with busy := [5, 5] }

theorem owedTwice_issues : CanIssue (run0 owedTwice) w0 h0 use0 owedTwice g0 [] := canIssue_of (by decide)

/-- A NOP advances the group through `State.issueStr`, which lists every pending register once. -/
theorem nop_listsOnce : ∃ t st', exec (.nop w0 h0 0) (run0 owedTwice) = .next t
    ∧ t.str? w0.engine.val w0.place.val = some st' ∧ st'.busy = [5] := by
  have run := State.issueStr_runs owedTwice_issues 9 (fun _ st => st)
  exact ⟨_, _, run, State.str?_setStr _ _ _ _, by decide⟩

/-- Refutes O10: the statement has NOP leave the scoreboard as it is, but the issue of an instruction lists each pending
register once; on a string whose scoreboard is [5, 5] it leaves [5]. -/
theorem not_controlInstructionsActOnTheActiveGroup : ¬ Obligations.ControlInstructionsActOnTheActiveGroup := by
  unfold Obligations.ControlInstructionsActOnTheActiveGroup
  intro h
  obtain ⟨_, h⟩ := h w0 h0 (run0 owedTwice) owedTwice g0 []
  obtain ⟨⟨t, st', ht, hst, _, ⟨_, _, _, same⟩, _⟩, _⟩ := h owedTwice_issues
  obtain ⟨u, x, hu, hx, once⟩ := nop_listsOnce
  cases ht.symm.trans hu
  cases hst.symm.trans hx
  rw [once] at same
  exact absurd same (by decide)

end Sys2Proof.Machine

/-! ## An L1 line above 2^40 (R155, R156) -/

namespace Sys2Proof.Machine

set_option Elab.async false

open Sys2Proof.Tests

/-- A property of the string at the sample site after a command. -/
def strAfter (x : Out) (c : Str → Bool) : Bool :=
  match x with
  | .next t => (match t.str? w0.engine.val w0.place.val with
    | some st => c st
    | none => false)
  | _ => false

theorem strAfter_of {x : Out} {c : Str → Bool} (h : strAfter x c = true) {t : State} {st : Str} (ht : x = .next t)
    (hst : t.str? w0.engine.val w0.place.val = some st) : c st = true := by
  subst ht
  simp only [strAfter, hst] at h
  exact h

/-- A page of the top of a memory of more than 2^40 bytes. -/
def farTlb : TlbEnt := { asid := 1, va := 0, bytes := 2 ^ 30, pte := BitVec.ofNat 64 (2 ^ 40 + 0xF) }
/-- The sample string with lane 0 at address 64. -/
def far0 : Str := withV st1 [(32 * 8, 64)]
def farLine : L1Line := { line := 2 ^ 33, readOnly := false, data := List.replicate 128 1 }
/-- An L1 that holds ones for a line whose number is 2^33, over a memory that holds zeros. -/
def farHeld : State :=
  { run0 far0 with
    engines := [(0, { eng0 far0 with l1 := [(0, farLine)] })]
    mmu := { Mmu.reset with asids := [(1, { ring := 0, root := 0x2000 })], utlbs := [(0, [farTlb])] }
    mem := { Mem.reset with density := 2 ^ 12 } }

/-- Agreement is asked of lines below 2^33 only. -/
theorem agrees_far {s : State} {e : Nat} (h : (s.eng e).l1 = [(0, farLine)]) : L1Agrees s e := by
  intro k l hl hline
  rw [h] at hl
  simp only [mget] at hl
  split at hl
  · cases hl
    exact absurd hline (by decide)
  · cases hl

/-- A byte load of lane 0. -/
def farUse : Use := { useAddr false h0.src0 with
  wv := regs h0.dst.toNat (regsFor 0), ok := (useAddr false h0.src0).ok && alignedReg 0 h0.dst }
theorem farHeld_issues : CanIssue farHeld w0 h0 farUse far0 one0 [] := canIssue_of (by decide)
theorem farHeld_translates : ∃ l s1, (farHeld.accessing w0 h0 far0 one0).translateLanes (actOf w0 h0 far0 one0)
      ((actOf w0 h0 far0 one0).addrs false) accRead = (.ok l, s1)
    ∧ (s1.hasTags l && lanesLocalB s1 l 1 && (s1.eng 0).l1 = [(0, farLine)]
        && l.map (fun x => (x.lane, x.pa)) = [(0, 2 ^ 40 + 64)]) = true := ok_of (by decide +kernel)
theorem farHeld_loads_one :
    strAfter (exec (.ld w0 h0 false 0 false) farHeld) (fun st => st.v 4 0 = 1) = true := by decide +kernel
theorem farHeld_holds_zero : extendLoad 0 false (memLe farHeld.mem.cells (2 ^ 40 + 64) 1) = 0 := by decide

/-- Refutes O14: its premise has the L1 agree with memory on lines below 2^33 only, but the premise on the lanes lets a
physical address reach the memory's capacity; a byte load at 2^40 + 64 returns what the L1 holds for line 2^33. -/
theorem not_loadsReadLocalMemory : ¬ Obligations.LoadsReadLocalMemory := by
  unfold Obligations.LoadsReadLocalMemory
  intro h
  obtain ⟨l, s1, translated, holds⟩ := farHeld_translates
  simp only [Bool.and_eq_true, decide_eq_true_eq] at holds
  obtain ⟨⟨⟨tags, located⟩, lines⟩, places⟩ := holds
  obtain ⟨loads, _⟩ := h w0 h0 0 false farHeld far0 one0 [] farHeld_issues (by decide)
  obtain ⟨t, st', ht, hst, _, _, _, _, bytes, _⟩ := loads l s1 translated tags (agrees_far lines) (lanesLocal_of located).1
  have one : st'.v 4 0 = 1 := by simpa using strAfter_of farHeld_loads_one ht hst
  obtain ⟨x, rfl, hx⟩ : ∃ x, l = [x] ∧ (x.lane, x.pa) = (0, 2 ^ 40 + 64) := by
    simpa [List.map_eq_cons_iff] using places
  obtain ⟨lane, pa⟩ := Prod.mk.injEq .. ▸ hx
  have zero := bytes x (by simp) ((lanesLocal_of located).2 x (by simp)) 0 (by decide)
  rw [lane, pa] at zero
  change (st'.v 4 0).toNat = extendLoad 0 false (memLe farHeld.mem.cells (2 ^ 40 + 64) 1) / 2 ^ 0 % 2 ^ 32 at zero
  rw [farHeld_holds_zero, one] at zero
  exact absurd zero (by decide)

end Sys2Proof.Machine

/-! ## Two pages of one physical page (R92, R102) -/

namespace Sys2Proof.Machine

set_option Elab.async false

open Sys2Proof.Tests

/-- A property of the state after a command. -/
def stateAfter (x : Out) (c : State → Bool) : Bool :=
  match x with
  | .next t => c t
  | _ => false

theorem stateAfter_of {x : Out} {c : State → Bool} (h : stateAfter x c = true) {t : State} (ht : x = .next t) : c t = true := by
  subst ht
  exact h

/-- Two entries for one local page; the second has a die number in its entry, which a local page does not use. -/
def nearTlb : TlbEnt := { asid := 1, va := 0, bytes := 2 ^ 30, pte := 0xF }
def otherTlb : TlbEnt := { asid := 1, va := 2 ^ 30, bytes := 2 ^ 30, pte := 0x20F }
/-- Lanes 0 and 2 at 64, lane 1 at the same byte through the second page; sources 1, 2 and 3. -/
def three0 : Group := { g0 with mask := 7 }
def thrice : Str := withV { st0 with groups := [three0], live := 7 }
  [(32 * 8, 64), (32 * 8 + 1, 2 ^ 30 + 64), (32 * 8 + 2, 64), (32 * 12, 1), (32 * 12 + 1, 2), (32 * 12 + 2, 3)]
def aliased : State :=
  { run0 thrice with
    mmu := { Mmu.reset with asids := [(1, { ring := 0, root := 0x2000 })], utlbs := [(0, [nearTlb, otherTlb])] }
    mem := { Mem.reset with density := 2 } }

theorem aliased_issues : CanIssue aliased w0 h0 (atomUse .exch h0 0 4 false) thrice three0 [] := canIssue_of (by decide)
theorem aliased_translates : ∃ l s1, (aliased.combining w0 h0 thrice three0).translateLanes (actOf w0 h0 thrice three0)
      ((actOf w0 h0 thrice three0).addrs false) accAtomic = (.ok l, s1)
    ∧ (s1.hasTags l && lanesLocalB s1 l 4 && !s1.unacked 0 0
        && l.map (fun x => (x.lane, x.pa)) = [(0, 64), (1, 64), (2, 64)]) = true := ok_of (by decide +kernel)
theorem aliased_leaves_two :
    stateAfter (exec (.atomExch w0 h0 0) aliased) (fun t => memLe t.mem.cells 64 4 = 2) = true := by decide +kernel

/-- Exchanges of three lanes leave the last source, combined or not. -/
theorem exch_outcome {low : BitVec 26} {old v : Nat} {rets : List (Nat × Nat)} {x y z : Nat × Nat × Nat}
    (h : AtomOutcome .exch low old [x, y, z] v rets) : v = z.2.1 := by
  obtain ⟨free, h⟩ := h
  split at h
  · exact congrArg Prod.fst h
  · exact congrArg Prod.fst h

/-- Refutes O16: lanes go to memory in groups of one target, die and address, where the statement takes the lanes of one
address together; an exchange of lanes 0 and 2 through one page and of lane 1 through another page of the same memory
leaves lane 1's value and not lane 2's. -/
theorem not_atomicsUpdateMemoryOncePerLane : ¬ Obligations.AtomicsUpdateMemoryOncePerLane := by
  unfold Obligations.AtomicsUpdateMemoryOncePerLane
  intro h
  obtain ⟨l, s1, translated, holds⟩ := aliased_translates
  simp only [Bool.and_eq_true, decide_eq_true_eq, Bool.not_eq_true'] at holds
  obtain ⟨⟨⟨tags, located⟩, acked⟩, places⟩ := holds
  obtain ⟨hlocal, htarget⟩ := lanesLocal_of located
  obtain ⟨global, _⟩ := h (.atomExch w0 h0 0) .exch w0 h0 0 rfl 4 rfl (.inr rfl) rfl aliased thrice three0 [] rfl
  obtain ⟨t, st', ht, _, _, _, words, _⟩ := global rfl aliased_issues (by decide) (by decide) l s1 translated tags htarget hlocal
    fun held => absurd held.1 (by decide)
  obtain ⟨x, y, z, rfl, hx, hy, hz⟩ :
      ∃ x y z, l = [x, y, z] ∧ (x.lane, x.pa) = (0, 64) ∧ (y.lane, y.pa) = (1, 64) ∧ (z.lane, z.pa) = (2, 64) := by
    simpa [List.map_eq_cons_iff] using places
  simp only [Prod.mk.injEq] at hx hy hz
  obtain ⟨v, rets, outcome, word, _⟩ := words x (by simp)
  have together : ([x, y, z].filter (fun q => q.pa = x.pa)) = [x, y, z] := by simp [hx, hy, hz]
  rw [together] at outcome
  have last : v = (atomLane thrice h0 0 4 z.lane).2.1 := exch_outcome outcome
  have two : memLe t.mem.cells 64 4 = 2 := by simpa using stateAfter_of aliased_leaves_two ht
  rw [hx.2, two, last, hz.1] at word
  exact absurd word (by decide)

end Sys2Proof.Machine

/-! ## SHFL and VOTE (R87, R88) -/

namespace Sys2Proof.Machine

set_option Elab.async false

/-- What an instruction leaves that changes its own string only: x is the string with its results. -/
theorem issueStr_leaves {s : State} {w : Site} {h : Hdr} {u : Use} {st : Str} {g : Group} {rest : List Group}
    (c : CanIssue s w h u st g rest) (cls : Nat) {x : Str} (hx : x.bare = (actOf w h st g).str.step.bare) :
    let t := (s.issued w cls st).setStr w.engine.val w.place.val (x.pend u.writes)
    t.str? w.engine.val w.place.val = some (x.pend u.writes) ∧ Advanced st (x.pend u.writes) g rest ∧ OnlyString s t w :=
  ⟨State.str?_setStr _ _ _ _, advanced_of_bare (w := w) (h := h) c.groups hx, (onlyString_issued s w cls st).setStr _⟩

/-! ### Source lanes -/

theorem div_eq_iff_segment {w : Nat} (hw : 0 < w) (i j : Nat) : j / w = i / w ↔ i - i % w ≤ j ∧ j < i - i % w + w := by
  have base : i - i % w = i / w * w := by
    have := Nat.div_add_mod i w
    rw [Nat.mul_comm]
    omega
  rw [base, ← Nat.succ_mul, ← Nat.le_div_iff_mul_le hw, ← Nat.div_lt_iff_lt_mul hw]
  omega

/-- The source lane of R87 and whether it lies in the segment. -/
theorem shflSource_eq {mode i j k w : Nat} (hw : 0 < w) (hmode : mode < 4) (hk : k < 2 ^ 32)
    (h0 : mode = 0 → j = i - i % w + k % w) (h1 : mode = 1 → j + k = i) (h2 : mode = 2 → j = i + k)
    (h3 : mode = 3 → j = i ^^^ k) : shflSource mode i k w = (j, decide (j / w = i / w)) := by
  have seg := div_eq_iff_segment hw i j
  have low : i % w ≤ i := Nat.mod_le i w
  have iw : i % w < w := Nat.mod_lt i hw
  have kw : k % w < w := Nat.mod_lt k hw
  interval_cases mode
  · have e := h0 rfl
    have : j / w = i / w := seg.2 (by omega)
    simp [shflSource, ← e, this]
  · have e := h1 rfl
    have src : i - k = j := by omega
    have inside : (decide (k ≤ i) && decide (i - i % w ≤ i - k)) = decide (j / w = i / w) := by
      rw [← Bool.decide_and, decide_eq_decide, seg]
      omega
    rw [← inside]
    simp [shflSource, src]
  · have e := h2 rfl
    have inside : decide (i + k < i - i % w + w) = decide (j / w = i / w) := by
      rw [decide_eq_decide, seg]
      omega
    rw [← inside, e]
    rfl
  · have e := h3 rfl
    have inside : (decide (i - i % w ≤ i ^^^ k) && decide (i ^^^ k < i - i % w + w)) = decide (j / w = i / w) := by
      rw [← Bool.decide_and, decide_eq_decide, seg, e]
    rw [← inside]
    simp only [shflSource, Nat.mod_eq_of_lt hk, e]

/-- A source below lane 0 lies outside. -/
theorem shflSource_below {i k : Nat} (w : Nat) (h : i < k) : (shflSource 1 i k w).2 = false := by
  simp [shflSource, Nat.not_le.2 h]

/-! ### What SHFL writes -/

/-- The lane whose value lane i receives and whether it is valid, of SHFL's fields. -/
def shflPick (a : Act) (low : BitVec 26) (i : Nat) : Nat × Bool :=
  let k := if bit low.toNat 23 then bits low.toNat 22 18 else (a.str.v a.hdr.src1.toNat i).toNat
  let x := shflSource (bits low.toNat 25 24) i k (2 ^ bits low.toNat 17 15)
  let valid := x.2 && bit a.grp.mask.toNat x.1
  (if valid then x.1 else i, valid)

theorem shflPick_of {a : Act} {low : BitVec 26} {i j k : Nat} {inside : Bool}
    (hk : k = if bit low.toNat 23 then bits low.toNat 22 18 else (a.str.v a.hdr.src1.toNat i).toNat)
    (h : shflSource (bits low.toNat 25 24) i k (2 ^ bits low.toNat 17 15) = (j, inside)) :
    shflPick a low i = (if inside && bit a.grp.mask.toNat j then j else i, inside && bit a.grp.mask.toNat j) := by
  unfold shflPick
  rw [← hk]
  dsimp only
  rw [h]

theorem bits_lt (w hi lo : Nat) : bits w hi lo < 2 ^ (hi + 1 - lo) := Nat.mod_lt _ (by positivity)

/-- SHFL's change of the string. -/
def shflStr (a : Act) (low : BitVec 26) (st : Str) : Str :=
  (lanesOf a.lanes).foldl (fun st i => (st.setV a.hdr.dst.toNat i (a.str.v a.hdr.src0.toNat (shflPick a low i).1)).setP
    (bits low.toNat 14 12) i (shflPick a low i).2) st

/-- The registers that SHFL names. -/
def shflUse (h : Hdr) (low : BitVec 26) : Use :=
  { useV ([h.src0] ++ if bit low.toNat 23 then [] else [h.src1]) h.dst with wp := [bits low.toNat 14 12] }

theorem execShfl_runs {w : Site} {h : Hdr} {low : BitVec 26} {s : State} {st : Str} {g : Group} {rest : List Group}
    (seg : bits low.toNat 17 15 ≤ 5) (zero : bits low.toNat 11 0 = 0) (c : CanIssue s w h (shflUse h low) st g rest) :
    exec (.shfl w h low) s = .next ((s.issued w 8 st).setStr w.engine.val w.place.val
      ((shflStr (actOf w h st g) low (actOf w h st g).str.step).pend (shflUse h low).writes)) := by
  have legal : (decide (bits low.toNat 17 15 ≤ 5) && decide (bits low.toNat 11 0 = 0)) = true := by simp [seg, zero]
  show execShfl w h low s = _
  unfold execShfl
  dsimp only
  rw [legal]
  exact State.issueStr_runs c 8 _

section

variable (a : Act) (low : BitVec 26) (st : Str)

theorem shflStr_bare : (shflStr a low st).bare = st.bare :=
  foldl_keeps Str.bare (fun st _ _ => (Str.bare_setP _ _ _ _).trans (Str.bare_setV st _ _ _)) st
theorem shflStr_uregs : (shflStr a low st).uregs = st.uregs :=
  foldl_keeps Str.uregs (fun st j _ => Str.uregs_setP (st.setV _ j _) _ _ _) st

theorem shflStr_v (r : Nat) {i : Nat} (hi : i < 32) : (shflStr a low st).v r i
    = if r = a.hdr.dst.toNat ∧ i ∈ lanesOf a.lanes then a.str.v a.hdr.src0.toNat (shflPick a low i).1 else st.v r i := by
  have skip : ∀ (st : Str) (p j : Nat) (b : Bool), (st.setP p j b).v r i = st.v r i := fun st p j b => by simp [Str.v]
  by_cases hr : r = a.hdr.dst.toNat
  · simp only [hr, true_and]
    refine foldl_lanes (fun st : Str => st.v a.hdr.dst.toNat i) (fun st => ?_) (fun st j hj hne => ?_) st
    · rw [← hr, skip, hr, Str.v_setV]
    · rw [← hr, skip, hr, Str.v_setV_ne _ _ (lanesOf_lt hj) hi fun e => hne (Prod.mk.inj e).2.symm]
  · simp only [hr, false_and, if_false]
    refine foldl_keeps (fun st : Str => st.v r i) (fun st j hj => ?_) st
    rw [skip, Str.v_setV_ne _ _ (lanesOf_lt hj) hi fun e => hr (Prod.mk.inj e).1]

theorem shflStr_p (p : Nat) {i : Nat} (hi : i < 32) : bit ((shflStr a low st).p p).toNat i
    = if p = 7 then true else if p = bits low.toNat 14 12 ∧ i ∈ lanesOf a.lanes then (shflPick a low i).2
      else bit (st.p p).toNat i := by
  refine bit_p_setP_lanes st _ _ (fun i => (shflPick a low i).2) (fun _ j => ?_) p hi
  unfold Str.setP
  split <;> rfl

end

/-! ### What VOTE writes -/

/-- Lane i of a vote holds. -/
def voteHolds (a : Act) (low : BitVec 26) (i : Nat) : Bool :=
  bit (a.str.p (bits low.toNat 23 21)).toNat i != bit low.toNat 20

/-- The registers that VOTE names. -/
def voteUse (h : Hdr) (low : BitVec 26) : Use :=
  { use0 with
    rv := if bits low.toNat 25 24 = 2 then [h.src0.toNat] else [], rp := [bits low.toNat 23 21]
    wv := if bits low.toNat 25 24 = 3 then [h.dst.toNat] else []
    wp := if bits low.toNat 25 24 = 3 then [] else [bits low.toNat 17 15] }

/-- ANY, ALL or UNI. -/
def voteResult (a : Act) (low : BitVec 26) : Bool :=
  voteBit (bits low.toNat 25 24) ((lanesOf a.lanes).map (voteHolds a low))
    ((lanesOf a.lanes).map (fun i => (a.str.v a.hdr.src0.toNat i).toNat))

/-- VOTE's change of the string: BALLOT writes DST, the other modes a predicate. -/
def voteStr (a : Act) (low : BitVec 26) : Str :=
  if bits low.toNat 25 24 = 3 then
    mapLanes a a.str.step (fun _ => BitVec.ofNat 32 (maskOf ((lanesOf a.lanes).filter (voteHolds a low))))
  else setPLanes a (bits low.toNat 17 15) (fun _ => voteResult a low)

theorem execVote_runs {w : Site} {h : Hdr} {low : BitVec 26} {s : State} {st : Str} {g : Group} {rest : List Group}
    (mid : bits low.toNat 19 18 = 0) (zero : bits low.toNat 14 0 = 0) (c : CanIssue s w h (voteUse h low) st g rest) :
    exec (.vote w h low) s = .next ((s.issued w 8 st).setStr w.engine.val w.place.val
      ((voteStr (actOf w h st g) low).pend (voteUse h low).writes)) := by
  have legal : (decide (bits low.toNat 19 18 = 0) && decide (bits low.toNat 14 0 = 0)) = true := by simp [mid, zero]
  show execVote w h low s = _
  unfold execVote
  dsimp only
  rw [legal]
  exact State.issueStr_runs c 8 _

theorem voteStr_bare (a : Act) (low : BitVec 26) : (voteStr a low).bare = a.str.step.bare := by
  unfold voteStr
  split
  · exact Str.bare_of_butV (mapLanes_butV _ _ _)
  · exact setPLanes_bare _ _ _
theorem voteStr_uregs (a : Act) (low : BitVec 26) : (voteStr a low).uregs = a.str.uregs := by
  unfold voteStr
  split
  · exact (Str.uregs_of_butV (mapLanes_butV _ _ _)).trans (Str.uregs_step _)
  · exact setPLanes_uregs _ _ _

theorem voteBit_any (l : List Nat) (f : Nat → Bool) (vals : List Nat) :
    voteBit 0 (l.map f) vals = decide (∃ i ∈ l, f i = true) := by
  rw [Bool.eq_iff_iff]
  simp [voteBit]

theorem voteBit_all (l : List Nat) (f : Nat → Bool) (vals : List Nat) :
    voteBit 1 (l.map f) vals = decide (∀ i ∈ l, f i = true) := by
  rw [Bool.eq_iff_iff]
  simp [voteBit]

theorem voteBit_uni (l : List Nat) (tested : List Bool) (x : Nat → Word) :
    voteBit 2 tested (l.map (fun i => (x i).toNat)) = decide (∀ i ∈ l, ∀ j ∈ l, x i = x j) := by
  rw [Bool.eq_iff_iff, decide_eq_true_iff]
  cases l with
  | nil => simp [voteBit]
  | cons k l =>
    simp only [voteBit, List.map_cons, List.all_map, List.all_eq_true, Function.comp, decide_eq_true_iff,
      BitVec.toNat_inj, List.forall_mem_cons]
    constructor
    · intro h
      exact ⟨⟨trivial, fun j hj => (h j hj).symm⟩, fun i hi => ⟨h i hi, fun j hj => (h i hi).trans (h j hj).symm⟩⟩
    · rintro ⟨-, h⟩ i hi
      exact (h i hi).1

/-- DST written on the executing lanes of an instruction. -/
theorem mapLanes_result (w : Site) (h : Hdr) (st : Str) (g : Group) (f : Nat → Word) :
    VectorResult st (mapLanes (actOf w h st g) (actOf w h st g).str.step f) g h (fun i y => y = f i) := by
  intro r i hi
  have hv := mapLanes_v (actOf w h st g) (actOf w h st g).str.step f r i hi
  rw [Str.v_step] at hv
  exact ⟨fun hx => hv.trans (if_pos hx), fun hx => hv.trans (if_neg hx)⟩

/-! ### The statement -/

/-- What lane i holds after SHFL. -/
theorem shflStr_lane (w : Site) (h : Hdr) (st : Str) (g : Group) (low : BitVec 26) {i : Nat} (hi : Executes st g h i) :
    let x := shflStr (actOf w h st g) low (actOf w h st g).str.step
    let pick := shflPick (actOf w h st g) low i
    x.v h.dst.toNat i = st.v h.src0.toNat pick.1
    ∧ (bits low.toNat 14 12 ≠ 7 → bit (x.p (bits low.toNat 14 12)).toNat i = pick.2) := by
  refine ⟨(shflStr_v _ low _ h.dst.toNat (lanesOf_lt hi)).trans (if_pos ⟨rfl, hi⟩), fun h7 => ?_⟩
  rw [shflStr_p _ low _ _ (lanesOf_lt hi), if_neg h7]
  exact if_pos ⟨rfl, hi⟩

/-- Settles O5: SHFL writes what its source lane holds (`shflSource_eq`), VOTE what its mode makes of the tested bits. -/
theorem shuffleAndVoteCombineLanes : Obligations.ShuffleAndVoteCombineLanes := by
  unfold Obligations.ShuffleAndVoteCombineLanes
  refine ⟨fun w h low s st g rest seg zero c => ?shfl, fun w h low s st g rest mid zero c => ?vote⟩
  case shfl =>
    let a := actOf w h st g
    obtain ⟨hst, hadv, honly⟩ := issueStr_leaves (u := shflUse h low) c 8 (shflStr_bare a low a.str.step)
    refine ⟨_, _, execShfl_runs seg zero c, hst, hadv, (shflStr_uregs a low _).trans (Str.uregs_step _), honly, ?lanes, ?below,
      ?regs, ?preds⟩
    case lanes =>
      intro k w' j i hi hseg hk h0 h1 h2 h3
      subst hseg
      have small : k < 2 ^ 32 := by
        rw [hk]
        split
        · exact (bits_lt _ _ _).trans (by decide)
        · exact BitVec.isLt _
      have pick := shflPick_of (a := a) hk (shflSource_eq (by positivity) (bits_lt low.toNat 25 24) small h0 h1 h2 h3)
      obtain ⟨hv, hp⟩ := shflStr_lane w h st g low hi
      have hv' := hv.trans (congrArg (fun x : Nat × Bool => st.v h.src0.toNat x.1) pick)
      have hp' := fun h7 => (hp h7).trans (congrArg Prod.snd pick)
      constructor
      · rintro ⟨inside, active⟩
        have valid : (decide (j / 2 ^ bits low.toNat 17 15 = i / 2 ^ bits low.toNat 17 15) && bit a.grp.mask.toNat j) = true := by
          rw [Bool.and_eq_true, decide_eq_true_iff]
          exact ⟨inside, active⟩
        rw [valid] at hv' hp'
        exact ⟨hv', hp'⟩
      · intro outside
        have valid : (decide (j / 2 ^ bits low.toNat 17 15 = i / 2 ^ bits low.toNat 17 15) && bit a.grp.mask.toNat j) = false := by
          rw [Bool.eq_false_iff, Ne, Bool.and_eq_true, decide_eq_true_iff]
          exact outside
        rw [valid] at hv' hp'
        exact ⟨hv', hp'⟩
    case below =>
      intro i hi mode hlt
      let k := if bit low.toNat 23 then bits low.toNat 22 18 else (st.v h.src1.toNat i).toNat
      have source : shflSource (bits low.toNat 25 24) i k (2 ^ bits low.toNat 17 15)
          = ((shflSource 1 i k (2 ^ bits low.toNat 17 15)).1, false) := by
        rw [mode]
        exact Prod.ext rfl (shflSource_below _ hlt)
      have pick := shflPick_of (a := a) (low := low) (k := k) rfl source
      obtain ⟨hv, hp⟩ := shflStr_lane w h st g low hi
      exact ⟨hv.trans (congrArg (fun x : Nat × Bool => st.v h.src0.toNat x.1) pick),
        fun h7 => (hp h7).trans (congrArg Prod.snd pick)⟩
    case regs =>
      intro r i hi hne
      exact ((shflStr_v a low _ r hi).trans (if_neg hne)).trans (Str.v_step _ _ _)
    case preds =>
      intro p i _ hi hne
      show bit ((shflStr a low a.str.step).p p).toNat i = _
      rw [shflStr_p a low _ p hi, Str.p_step]
      split
      next h7 =>
        have := Str.bit_p_setP st 7 0 true 7 hi
        rw [h7]
        simpa using this.symm
      · exact if_neg hne
  case vote =>
    let a := actOf w h st g
    obtain ⟨hst, hadv, honly⟩ := issueStr_leaves (u := voteUse h low) c 8 (voteStr_bare a low)
    have other : ∀ {m}, bits low.toNat 25 24 = m → m ≠ 3 →
        voteStr a low = setPLanes a (bits low.toNat 17 15) (fun _ => voteResult a low) :=
      fun hm h3 => if_neg (hm ▸ h3)
    have result : ∀ {m}, bits low.toNat 25 24 = m → m ≠ 3 →
        (voteStr a low).vregs = st.vregs ∧ PredicateResult st (voteStr a low) g h (bits low.toNat 17 15)
          (fun _ => voteResult a low) :=
      fun hm h3 => other hm h3 ▸ ⟨setPLanes_vregs a _ _, setPLanes_result w h st g _ _⟩
    refine ⟨_, _, execVote_runs mid zero c, hst, hadv, voteStr_uregs a low, honly, ?any, ?all, ?uni, ?ballot⟩
    case any =>
      intro m
      have r := result m (by decide)
      rw [voteResult, m, voteBit_any] at r
      exact r
    case all =>
      intro m
      have r := result m (by decide)
      rw [voteResult, m, voteBit_all] at r
      exact r
    case uni =>
      intro m
      have r := result m (by decide)
      rw [voteResult, m, voteBit_uni] at r
      exact r
    case ballot =>
      intro m
      let y := BitVec.ofNat 32 (maskOf ((lanesOf a.lanes).filter (voteHolds a low)))
      have e : voteStr a low = mapLanes a a.str.step (fun _ => y) := if_pos m
      rw [e]
      refine ⟨(Str.preds_of_butV (mapLanes_butV a _ _)).trans (Str.preds_step _), fun r i hi => ?_⟩
      obtain ⟨written, kept⟩ := mapLanes_result w h st g (fun _ => y) r i hi
      refine ⟨fun hx j hj => ?_, kept⟩
      show ((mapLanes a a.str.step _).v r i).getLsbD j = _
      rw [written hx, BitVec.getLsbD_ofNat, maskOf_testBit, decide_eq_true hj, Bool.true_and, Bool.eq_iff_iff,
        decide_eq_true_iff, List.mem_filter, Bool.and_eq_true, decide_eq_true_iff]
      rfl

end Sys2Proof.Machine

/-! ## Branches, jumps and calls (R80, R100) -/

namespace Sys2Proof.Machine

set_option Elab.async false

/-! ### Sorting by a key -/

theorem insertBy_perm {α : Type} (key : α → Nat) (a : α) (l : List α) : (insertBy key a l).Perm (a :: l) := by
  induction l with
  | nil => exact .refl _
  | cons b l ih =>
    unfold insertBy
    split
    · exact .refl _
    · exact (ih.cons b).trans (.swap a b l)

theorem insertBy_sorted {α : Type} (key : α → Nat) (a : α) {l : List α} (h : l.Pairwise (fun x y => key x ≤ key y)) :
    (insertBy key a l).Pairwise (fun x y => key x ≤ key y) := by
  induction l with
  | nil => exact List.pairwise_singleton _ a
  | cons b l ih =>
    obtain ⟨hb, hl⟩ := List.pairwise_cons.1 h
    unfold insertBy
    split
    · rename_i hlt
      refine List.pairwise_cons.2 ⟨fun x hx => ?_, h⟩
      rcases List.mem_cons.1 hx with rfl | hx
      · exact hlt.le
      · exact hlt.le.trans (hb x hx)
    · rename_i hge
      refine List.pairwise_cons.2 ⟨fun x hx => ?_, ih hl⟩
      rcases List.mem_cons.1 ((insertBy_perm key a l).mem_iff.1 hx) with rfl | hx
      · exact Nat.not_lt.1 hge
      · exact hb x hx

theorem sortBy_mem {α : Type} (key : α → Nat) (l : List α) (a : α) : a ∈ sortBy key l ↔ a ∈ l := by
  unfold sortBy
  induction l using List.reverseRecOn with
  | nil => rfl
  | append_singleton l b ih =>
    rw [List.foldl_append, List.foldl_cons, List.foldl_nil, (insertBy_perm key b _).mem_iff, List.mem_cons, ih,
      List.mem_append, List.mem_singleton, or_comm]

theorem sortBy_sorted {α : Type} (key : α → Nat) (l : List α) : (sortBy key l).Pairwise (fun x y => key x ≤ key y) :=
  List.foldlRecOn l _ (motive := fun l : List α => l.Pairwise (fun x y => key x ≤ key y)) .nil fun _ h a _ => insertBy_sorted key a h

/-! ### Splitting the active group -/

theorem Str.settle_open {st : Str} {g : Group} {rest : List Group} (hg : st.groups = g :: rest) (ho : g.block = .open) :
    st.settle.groups = g :: rest := by
  unfold Str.settle
  rw [hg]
  dsimp only
  split
  · exact hg
  · rw [if_pos ho]

/-- The active group splits over addresses: the other groups stand where they stood, the lanes of an address stand there,
and the lowest address is active. -/
theorem Str.split_leaves {st : Str} {g : Group} {rest : List Group} (hg : st.groups = g :: rest) (ho : g.block = .open)
    (dest : List (Dword × Word)) : (st.split dest).butGroups = st.butGroups ∧ GroupsKeep rest (st.split dest).groups
      ∧ (∀ d ∈ dest, ∀ i, bit d.2.toNat i = true → ∃ x ∈ (st.split dest).groups, bit x.mask.toNat i = true ∧ x.pc = d.1)
      ∧ (dest ≠ [] → ∃ hd tl, (st.split dest).groups = hd :: tl ∧ ∀ d ∈ dest, hd.pc.toNat ≤ d.1.toNat) := by
  have mem := sortBy_mem (fun d : Dword × Word => d.1.toNat) dest
  have sorted := sortBy_sorted (fun d : Dword × Word => d.1.toNat) dest
  unfold Str.split
  rw [hg]
  dsimp only
  generalize sortBy (fun d : Dword × Word => d.1.toNat) dest = l at mem sorted
  cases l with
  | nil =>
    have none : dest = [] := List.eq_nil_iff_forall_not_mem.2 fun d hd => nomatch (mem d).2 hd
    subst none
    dsimp only
    exact ⟨rfl, .of_subset fun x hx => hg ▸ List.mem_cons_of_mem g hx, fun _ hd => (List.not_mem_nil hd).elim,
      fun h => absurd rfl h⟩
  | cons d ds =>
    dsimp only
    let front : Group := { g with pc := d.1, mask := d.2, budget := g.budget - 1 }
    let all : List Group := rest ++ ds.map (fun d => ⟨d.1, d.2, 64, .open⟩)
    let split : Str := { st with groups := mergeHead (front :: all) }
    obtain ⟨m, merged⟩ := mergeHead_cons front all
    have groups : split.settle.groups = mergeHead (front :: all) := 
      (Str.settle_open (g := { front with mask := m }) merged ho).trans merged.symm
    change split.settle.butGroups = _ ∧ GroupsKeep rest split.settle.groups ∧ (∀ d ∈ dest, ∀ i, _ → ∃ x ∈ split.settle.groups, _)
      ∧ (_ → ∃ hd tl, split.settle.groups = hd :: tl ∧ _)
    have keeps := mergeHead_keeps (front :: all)
    rw [groups]
    refine ⟨(Str.settle_regrouped split).rest, ?others, ?placed, fun _ => ⟨_, _, merged, fun x hx => ?lowest⟩⟩
    case others => exact (GroupsKeep.of_subset fun x hx => List.mem_cons_of_mem _ (List.mem_append_left _ hx)).trans keeps
    case placed =>
      intro x hx i hi
      have there : (⟨x.1, x.2, 64, .open⟩ : Group) ∈ all ∨ x = d := by
        rcases List.mem_cons.1 ((mem x).2 hx) with h | h
        · exact Or.inr h
        · exact Or.inl (List.mem_append_right _ (List.mem_map.2 ⟨x, h, rfl⟩))
      rcases there with h | rfl
      · exact keeps _ (List.mem_cons_of_mem _ h) i hi
      · exact keeps front List.mem_cons_self i hi
    case lowest =>
      rcases List.mem_cons.1 ((mem x).2 hx) with rfl | h
      · exact Nat.le_refl _
      · exact (List.pairwise_cons.1 sorted).1 x h

/-! ### Destinations -/

/-- Where lane l goes. -/
def jumpTo (a : Act) (taken : List (Nat × Dword)) (l : Nat) : Dword :=
  match taken.find? (fun p => p.1 = l) with
  | some p => p.2
  | none => a.grp.pc + 8

/-- The addresses that lanes of the group go to, with their lanes. -/
def jumpDest (a : Act) (taken : List (Nat × Dword)) : List (Dword × Word) :=
  (((taken.map (fun p => p.2) ++ [a.grp.pc + 8]).foldl (fun l pc => if l.contains pc then l else l ++ [pc]) []).map
    (fun pc => (pc, BitVec.ofNat 32 (maskOf ((lanesOf a.grp.mask).filter (fun l => jumpTo a taken l = pc)))))).filter
      (fun d => d.2 ≠ 0)

theorem jumpLanes_eq (s : State) (a : Act) (taken : List (Nat × Dword)) (f : Str → Str) : s.jumpLanes a taken f
    = (if 1 < (jumpDest a taken).length then s.bump blkCE a.e 0x020 1 else s).setStr a.e a.place
        (f (a.str.split (jumpDest a taken))) := by
  have there : ∀ pc : Dword, ∀ i, decide (jumpTo a taken i = pc) = (match taken.find? (fun p => p.1 = i) with
      | some p => decide (p.2 = pc)
      | none => decide (a.grp.pc + 8 = pc)) := by
    intro pc i
    unfold jumpTo
    split <;> rfl
  unfold State.jumpLanes jumpDest
  simp only [there] <;> rfl

theorem jumpDest_has {a : Act} (taken : List (Nat × Dword)) {l : Nat} (hl : l ∈ lanesOf a.grp.mask) :
    ∃ d ∈ jumpDest a taken, bit d.2.toNat l = true ∧ d.1 = jumpTo a taken l := by
  have goes : jumpTo a taken l ∈ taken.map (fun p => p.2) ++ [a.grp.pc + 8] := by
    unfold jumpTo
    split
    next p hp => exact List.mem_append_left _ (List.mem_map_of_mem (List.mem_of_find?_eq_some hp))
    · simp
  let m := maskOf ((lanesOf a.grp.mask).filter (fun i => jumpTo a taken i = jumpTo a taken l))
  have hit : bit (BitVec.ofNat 32 m).toNat l = true := by
    rw [bit_ofNat32 _ (lanesOf_lt hl), maskOf_testBit, decide_eq_true_iff]
    exact List.mem_filter.2 ⟨hl, by simp⟩
  refine ⟨(jumpTo a taken l, BitVec.ofNat 32 m), List.mem_filter.2 ⟨?_, ?_⟩, hit, rfl⟩
  · exact List.mem_map.2 ⟨_, (mem_dropRepeats _ _).2 goes, rfl⟩
  · rw [decide_eq_true_iff]
    intro zero
    have zero' : BitVec.ofNat 32 m = 0 := zero
    rw [zero'] at hit
    simp [bit] at hit

/-- Lanes of a jump to the addresses T. -/
theorem jumpTo_map (a : Act) (T : Nat → Dword) (l : Nat) : jumpTo a ((lanesOf a.lanes).map (fun i => (i, T i))) l
    = if l ∈ lanesOf a.lanes then T l else a.grp.pc + 8 := by
  unfold jumpTo
  split
  next p hp =>
    obtain ⟨i, hi, rfl⟩ := List.mem_map.1 (List.mem_of_find?_eq_some hp)
    have e : i = l := by simpa using List.find?_some hp
    rw [← e, if_pos hi]
  next hp =>
    rw [if_neg]
    intro hl
    have := List.find?_eq_none.1 hp (l, T l) (List.mem_map_of_mem hl)
    simp at this

/-! ### What a jump leaves -/

theorem issued_queues (s : State) (w : Site) (cls : Nat) (st : Str) : (s.issued w cls st).queues = s.queues := by
  unfold State.issued
  simp

/-- The string after its lanes have jumped to the addresses T. -/
def jumpStr (a : Act) (T : Nat → Dword) : Str := a.str.split (jumpDest a ((lanesOf a.lanes).map (fun i => (i, T i))))

/-- What BRA and JMP leave of a string and its groups, x. -/
structure Jumped (st x : Str) (w : Site) (h : Hdr) (g : Group) (rest : List Group) (T : Nat → Dword) : Prop where
  string : x.butGroups = (actOf w h st g).str.butGroups
  lanes : ∀ l ∈ lanesOf g.mask, LaneAt x l (if Executes st g h l then T l else g.pc + 8)
  kept : LanesKept rest x
  lowest : g.mask ≠ 0 → ∃ hd tl, x.groups = hd :: tl
    ∧ ∀ l ∈ lanesOf g.mask, hd.pc.toNat ≤ (if Executes st g h l then T l else g.pc + 8).toNat

theorem jumpStr_jumped (w : Site) (h : Hdr) {st : Str} {g : Group} {rest : List Group} (hg : st.groups = g :: rest)
    (ho : g.block = .open) (T : Nat → Dword) : Jumped st (jumpStr (actOf w h st g) T) w h g rest T := by
  let a := actOf w h st g
  let taken := (lanesOf a.lanes).map (fun i => (i, T i))
  obtain ⟨hrest, hkeeps, hplaced, hlowest⟩ := Str.split_leaves (st := a.str) hg ho (jumpDest a taken)
  have dest : ∀ l ∈ lanesOf g.mask, ∃ d ∈ jumpDest a taken, bit d.2.toNat l = true
      ∧ d.1 = if Executes st g h l then T l else g.pc + 8 := by
    intro l hl
    obtain ⟨d, hd, hm, hp⟩ := jumpDest_has (a := a) taken hl
    exact ⟨d, hd, hm, hp.trans (jumpTo_map a T l)⟩
  refine ⟨hrest, fun l hl => ?_, hkeeps, fun some => ?_⟩
  · obtain ⟨d, hd, hm, hp⟩ := dest l hl
    exact hp ▸ hplaced d hd l hm
  · have lane : lanesOf g.mask ≠ [] := fun e => some (lanesOf_eq_nil.1 e)
    obtain ⟨l, hl⟩ := List.exists_mem_of_ne_nil _ lane
    obtain ⟨d, hd, _⟩ := dest l hl
    obtain ⟨hd, tl, hgroups, hle⟩ := hlowest (List.ne_nil_of_mem hd)
    refine ⟨hd, tl, hgroups, fun l hl => ?_⟩
    obtain ⟨d, hd, _, hp⟩ := dest l hl
    exact hp ▸ hle d hd

/-- A jump changes its own string only. -/
theorem jumpLanes_leaves (s : State) (w : Site) (h : Hdr) (st : Str) (g : Group) (T : Nat → Dword) (f : Str → Str) :
    let a := actOf w h st g
    let t := (s.issued w 9 st).jumpLanes a ((lanesOf a.lanes).map (fun i => (i, T i))) f
    t.str? w.engine.val w.place.val = some (f (jumpStr a T)) ∧ OnlyString s t w := by
  dsimp only
  rw [jumpLanes_eq]
  refine ⟨State.str?_setStr _ _ _ _, OnlyString.setStr ?_ _⟩
  split
  · exact (onlyString_issued s w 9 st).bump _ _ _ _
  · exact onlyString_issued s w 9 st

/-- Registers of CALL and CALLI. -/
theorem linkLanes_v (w : Site) (h : Hdr) (st : Str) (g : Group) (x : Str) (r : Nat) {l : Nat} (hl : l < 32) :
    (linkLanes (actOf w h st g) x).v r l = if Executes st g h l ∧ h.dst.toNat ≤ r ∧ r < h.dst.toNat + 2
      then BitVec.ofNat 32 ((g.pc + 8).toNat / 2 ^ (32 * (r - h.dst.toNat))) else x.v r l := by
  exact foldl_setVn_v x h.dst.toNat 2 (fun _ => (g.pc + 8).toNat) (fun _ => lanesOf_lt) r hl

theorem linkLanes_keeps (a : Act) (x : Str) : (linkLanes a x).groups = x.groups ∧ (linkLanes a x).preds = x.preds
    ∧ (linkLanes a x).uregs = x.uregs := by
  have e : ((lanesOf a.lanes).foldl (fun st i => st.setV2 a.hdr.dst.toNat i (a.grp.pc + 8).toNat) x).butV = x.butV :=
    foldl_keeps Str.butV (fun st i _ => st.butV_setVn _ i 2 _) x
  exact ⟨(congrArg Str.groups e :), (Str.preds_of_butV e :), (Str.uregs_of_butV e :)⟩

/-- The string after a jump, its link written where it links. -/
def jumpedStr (links : Bool) (a : Act) (T : Nat → Dword) : Str :=
  if links then linkLanes a (jumpStr a T) else jumpStr a T

theorem jumpedStr_keeps (links : Bool) (a : Act) (T : Nat → Dword) : (jumpedStr links a T).groups = (jumpStr a T).groups
    ∧ (jumpedStr links a T).preds = (jumpStr a T).preds ∧ (jumpedStr links a T).uregs = (jumpStr a T).uregs := by
  cases links with
  | false => exact ⟨rfl, rfl, rfl⟩
  | true => exact linkLanes_keeps a _

theorem jumpedStr_v (links : Bool) (w : Site) (h : Hdr) {st : Str} {g : Group} {rest : List Group}
    (hg : st.groups = g :: rest) (ho : g.block = .open) (T : Nat → Dword) (r : Nat) {l : Nat} (hl : l < 32) :
    (jumpedStr links (actOf w h st g) T).v r l
      = if links = true ∧ Executes st g h l ∧ h.dst.toNat ≤ r ∧ r < h.dst.toNat + 2
        then BitVec.ofNat 32 ((g.pc + 8).toNat / 2 ^ (32 * (r - h.dst.toNat))) else st.v r l := by
  have same : ∀ r, (jumpStr (actOf w h st g) T).v r l = st.v r l := fun r => by
    rw [Str.v, Str.vregs_of_butGroups (jumpStr_jumped w h hg ho T).string]
    rfl
  cases links with
  | false => simpa [jumpedStr] using same r
  | true =>
    have e := linkLanes_v w h st g (jumpStr (actOf w h st g) T) r hl
    rw [same] at e
    simpa [jumpedStr] using e

/-- What a branch, jump or call leaves whose lanes go to the addresses T. -/
theorem jump_leaves {i : Instr} {links : Bool} {s : State} {w : Site} {h : Hdr} {st : Str} {g : Group} {rest : List Group}
    (hg : st.groups = g :: rest) (ho : g.block = .open) (T : Nat → Dword)
    (run : ∃ t, exec i s = .next t
      ∧ t.str? w.engine.val w.place.val = some (jumpedStr links (actOf w h st g) T) ∧ OnlyString s t w) :
    ∃ t st', exec i s = .next t ∧ t.str? w.engine.val w.place.val = some st' ∧ OnlyString s t w
      ∧ (∀ l ∈ lanesOf g.mask, LaneAt st' l (if Executes st g h l then T l else g.pc + 8))
      ∧ LanesKept rest st'
      ∧ (g.mask ≠ 0 → ∃ hd tl, st'.groups = hd :: tl
          ∧ ∀ l ∈ lanesOf g.mask, hd.pc.toNat ≤ (if Executes st g h l then T l else g.pc + 8).toNat)
      ∧ (∀ r l, l < 32 → (links = true ∧ Executes st g h l ∧ (r = h.dst.toNat ∨ r = h.dst.toNat + 1) →
            st'.v h.dst.toNat l = (g.pc + 8).truncate 32 ∧ st'.v (h.dst.toNat + 1) l = ((g.pc + 8) >>> 32).truncate 32)
          ∧ (¬ (links = true ∧ Executes st g h l ∧ (r = h.dst.toNat ∨ r = h.dst.toNat + 1)) → st'.v r l = st.v r l))
      ∧ st'.preds = st.preds ∧ st'.uregs = st.uregs := by
  obtain ⟨t, ht, hst, honly⟩ := run
  obtain ⟨string, lanes, kept, lowest⟩ := jumpStr_jumped w h hg ho T
  obtain ⟨groups, preds, uregs⟩ := jumpedStr_keeps links (actOf w h st g) T
  refine ⟨t, _, ht, hst, honly, ?lanes, ?kept, ?lowest, fun r l hl => ⟨?link, ?others⟩,
    preds.trans (Str.preds_of_butGroups string :), uregs.trans (Str.uregs_of_butGroups string :)⟩
  case lanes => simpa only [LaneAt, groups] using lanes
  case kept => simpa only [lanesKept_iff, groups] using kept
  case lowest => rwa [groups]
  case link =>
    rintro ⟨hlinks, hx, _⟩
    rw [jumpedStr_v links w h hg ho T _ hl, jumpedStr_v links w h hg ho T _ hl,
      if_pos ⟨hlinks, hx, Nat.le_refl _, by omega⟩, if_pos ⟨hlinks, hx, by omega, by omega⟩]
    constructor
    · apply BitVec.eq_of_toNat_eq
      simp
    · apply BitVec.eq_of_toNat_eq
      simp [Nat.shiftRight_eq_div_pow]
  case others =>
    intro hne
    rw [jumpedStr_v links w h hg ho T r hl, if_neg]
    rintro ⟨hlinks, hx, hle, hlt⟩
    exact hne ⟨hlinks, hx, by omega⟩

/-- A jump through `State.jumpLanes`. -/
theorem jumpLanes_jumped (links : Bool) (s : State) (w : Site) (h : Hdr) (st : Str) (g : Group) (T : Nat → Dword) :
    let a := actOf w h st g
    let t := (s.issued w 9 st).jumpLanes a ((lanesOf a.lanes).map (fun i => (i, T i))) (if links then linkLanes a else id)
    t.str? w.engine.val w.place.val = some (jumpedStr links a T) ∧ OnlyString s t w := by
  have leaves := jumpLanes_leaves s w h st g T (if links then linkLanes (actOf w h st g) else id)
  cases links <;> exact leaves

/-- A jump to the addresses in the SRC0 pair of its lanes. -/
theorem jumpIndirect_eq (s : State) (a : Act) (f : Str → Str) :
    let T := fun l => BitVec.ofNat 64 (a.str.v2 a.hdr.src0.toNat l)
    s.jumpIndirect a f = if ∃ l ∈ lanesOf a.lanes, (T l).toNat % 8 ≠ 0
      then s.trap a.e a.str.queue a.str.cmd eMisaligned 0
      else s.jumpLanes a ((lanesOf a.lanes).map (fun i => (i, T i))) f := by
  unfold State.jumpIndirect
  simp [List.any_eq_true]

/-- An indirect jump with aligned targets, and one with a misaligned target, whose dispatch stops. -/
theorem indirect_jumps {i : Instr} {links : Bool} {s : State} {w : Site} {h : Hdr} {st : Str} {g : Group}
    (run : exec i s = .next ((s.issued w 9 st).jumpIndirect (actOf w h st g) (if links then linkLanes (actOf w h st g) else id))) :
    let T := fun l => BitVec.ofNat 64 (st.v2 h.src0.toNat l)
    ((∀ l, Executes st g h l → (T l).toNat % 8 = 0) → ∃ t, exec i s = .next t
      ∧ t.str? w.engine.val w.place.val = some (jumpedStr links (actOf w h st g) T) ∧ OnlyString s t w)
    ∧ ((∃ l, Executes st g h l ∧ (T l).toNat % 8 ≠ 0) →
      ∃ t, exec i s = .next t ∧ Stopped s t w.engine.val st.queue st.cmd 0x0102 0) := by
  rw [jumpIndirect_eq] at run
  constructor
  · intro aligned
    rw [if_neg fun ⟨l, hl, hm⟩ => hm (aligned l hl)] at run
    exact ⟨_, run, jumpLanes_jumped links s w h st g _⟩
  · rintro ⟨l, hl, hm⟩
    rw [if_pos ⟨l, hl, hm⟩] at run
    exact ⟨_, run, State.trap_stops (issued_queues s w 9 st) _ _ _ _ _⟩

section

variable {w : Site} {h : Hdr} {low : BitVec 26} {s : State} {st : Str} {g : Group} {rest : List Group}

theorem execBra_runs (c : CanIssue s w h use0 st g rest) : exec (.bra w h low) s = .next ((s.issued w 9 st).jumpLanes
    (actOf w h st g) ((lanesOf (actOf w h st g).lanes).map (fun i => (i, branchTarget g.pc low))) id) := by
  show execBra w h low s = _
  unfold execBra
  exact State.issue_runs c 9 _

theorem execCall_runs (c : CanIssue s w h { use0 with wv := regs h.dst.toNat 2, ok := h.dst.toNat % 2 = 0 } st g rest) :
    exec (.call w h low) s = .next ((s.issued w 9 st).jumpLanes (actOf w h st g)
      ((lanesOf (actOf w h st g).lanes).map (fun i => (i, branchTarget g.pc low))) (linkLanes (actOf w h st g))) := by
  show execCall w h low s = _
  unfold execCall
  exact State.issue_runs c 9 _

theorem execJmp_runs (c : CanIssue s w h (usePair h.src0) st g rest) :
    exec (.jmp w h 0) s = .next ((s.issued w 9 st).jumpIndirect (actOf w h st g) id) := by
  show execJmp w h 0 s = _
  unfold execJmp
  exact State.issue_runs c 9 _

theorem execCalli_runs (c : CanIssue s w h { usePair h.src0 with
      wv := regs h.dst.toNat 2, ok := h.src0.toNat % 2 = 0 && h.dst.toNat % 2 = 0 } st g rest) :
    exec (.calli w h 0) s = .next ((s.issued w 9 st).jumpIndirect (actOf w h st g) (linkLanes (actOf w h st g))) := by
  show execCalli w h 0 s = _
  unfold execCalli
  exact State.issue_runs c 9 _

end

/-- Settles O9: a jump splits its group over the addresses of its lanes (`Str.split_leaves`). -/
theorem jumpsSendEveryLaneToItsAddress : Obligations.JumpsSendEveryLaneToItsAddress := by
  unfold Obligations.JumpsSendEveryLaneToItsAddress
  intro goes offset pair w h low s st g rest
  refine ⟨fun c => ?bra, fun c => ?call, fun c => ?jmp, fun c => ?calli⟩
  case bra =>
    exact jump_leaves c.groups c.eligible _ ⟨_, execBra_runs c, jumpLanes_jumped false s w h st g (fun _ => offset g low)⟩
  case call =>
    exact jump_leaves c.groups c.eligible _ ⟨_, execCall_runs c, jumpLanes_jumped true s w h st g (fun _ => offset g low)⟩
  case jmp =>
    obtain ⟨aligned, misaligned⟩ := indirect_jumps (links := false) (execJmp_runs c)
    exact ⟨fun h => jump_leaves c.groups c.eligible _ (aligned h), misaligned⟩
  case calli =>
    obtain ⟨aligned, misaligned⟩ := indirect_jumps (links := true) (execCalli_runs c)
    exact ⟨fun h => jump_leaves c.groups c.eligible _ (aligned h), misaligned⟩

end Sys2Proof.Machine

/-! ## Barriers (R84, R85) -/

namespace Sys2Proof.Machine

set_option Elab.async false

theorem mget_mmap {α : Type} (m : Map α) (f : Nat → α → α) (k : Nat) : mget (mmap m f) k = (mget m k).map (f k) := by
  unfold mmap
  induction m with
  | nil => rfl
  | cons p m ih =>
    simp only [List.map_cons, mget]
    by_cases h : p.1 = k
    · simp [h]
    · simp only [if_neg h]
      exact ih

/-- A fold that changes its state at one value only. -/
theorem foldl_once {σ : Type} {f : σ → Nat → σ} {s t : σ} {b : Nat} {l : List Nat}
    (start : ∀ a ∈ l, f s a = if a = b then t else s) (stays : ∀ a, f t a = t) :
    l.foldl f s = if b ∈ l then t else s := by
  induction l using List.reverseRecOn with
  | nil => simp
  | append_singleton l a ih =>
    rw [List.foldl_append, List.foldl_cons, List.foldl_nil, ih fun a ha => start a (by simp [ha])]
    by_cases hb : b ∈ l
    · simp [hb, stays]
    · by_cases ha : a = b
      · rw [if_neg hb, start a (by simp), if_pos ha, if_pos (by simp [ha])]
      · rw [if_neg hb, start a (by simp), if_neg ha, if_neg (by simp [hb, Ne.symm ha])]

theorem issued_engines (s : State) (w : Site) (cls : Nat) (st : Str) : (s.issued w cls st).engines
    = (s.setStr w.engine.val w.place.val { st with promoted := none }).engines := by
  unfold State.issued
  simp [State.setStr, State.modEng, State.setEng, State.eng]

theorem issued_wg (s : State) (w : Site) (cls : Nat) (st : Str) (e n : Nat) : (s.issued w cls st).wg? e n = s.wg? e n := by
  have : (s.issued w cls st).wg? e n = (s.setStr w.engine.val w.place.val { st with promoted := none }).wg? e n := by
    rw [State.wg?, State.eng, issued_engines]
    rfl
  rw [this, State.wg?_setStr]

/-! ### Completion -/

section

variable {s : State} {e wg b : Nat} {g : Wg}

theorem completeBar_wg (h : s.wg? e wg = some g) :
    (s.completeBar e wg b).wg? e wg = some { g with bars := merase g.bars b } := by
  rw [State.wg?] at h
  rw [State.wg?, State.completeBar, State.eng_modEng]
  simp [mget_mmod, h]

theorem completeBar_str (s : State) (e wg b q : Nat) : (s.completeBar e wg b).str? e q
    = (s.str? e q).map (fun st => if st.wg = wg then st.unblock (fun x => x = .barrier b) else st) := by
  rw [State.str?, State.completeBar, State.eng_modEng]
  exact mget_mmap (s.eng e).strs (fun _ st => if st.wg = wg then st.unblock (fun x => x = .barrier b) else st) q

theorem reached_erased (g : Wg) (b b' : Nat) (h : b' ≠ b → g.reached b' = false) :
    Wg.reached { g with bars := merase g.bars b } b' = false := by
  unfold Wg.reached at h ⊢
  simp only [mget_merase]
  by_cases e : b' = b
  · simp [e]
  · simpa [e] using h e

/-- Only barrier b can be at its count: it completes, or nothing changes. -/
theorem checkBars_eq (h : s.wg? e wg = some g) (hb : b < 16) (others : ∀ b', b' ≠ b → g.reached b' = false) :
    s.checkBars e wg = if g.reached b then s.completeBar e wg b else s := by
  unfold State.checkBars loop
  cases hr : g.reached b with
  | true =>
    have done : ∀ a, Wg.reached { g with bars := merase g.bars b } a = false := fun a => reached_erased g b a (others a)
    rw [foldl_once (t := s.completeBar e wg b) (b := b) (fun a _ => ?_) fun a => ?_]
    · simp [hb]
    · by_cases ha : a = b
      · simp [h, ha, hr]
      · simp [h, ha, others a ha]
    · simp [completeBar_wg h, done]
  | false =>
    have same : ∀ a, g.reached a = false := fun a => by
      by_cases ha : a = b
      · exact ha ▸ hr
      · exact others a ha
    rw [foldl_once (t := s) (b := b) (fun a _ => ?_) fun a => ?_]
    · simp
    · simp [h, same]
    · simp [h, same]

end

/-! ### Arrival -/

/-- A workgroup after n threads have arrived at barrier b with an expected-count field. -/
def Wg.arriveAt (v : Wg) (b n field : Nat) : Wg :=
  { v with bars := mset v.bars b { count := v.arrived b n, expected := some (v.awaited b field) } }

theorem Wg.arriveAt_reached {v : Wg} (waiting : v.waiting) (b n field b' : Nat) : (v.arriveAt b n field).reached b'
    = if b' = b then decide (v.awaited b field - v.exited ≤ v.arrived b n) else false := by
  unfold Wg.reached Wg.arriveAt
  simp only [mget_mset]
  by_cases h : b' = b
  · simp [h]
  · have := waiting b'
    unfold Wg.reached at this
    simpa [h] using this

section

variable {s : State} {e wg b n field : Nat} {v : Wg}

/-- Arrival: the count is kept, and the phase completes where it reaches what is awaited. -/
theorem arrive_eq (h : s.wg? e wg = some v) (waiting : v.waiting) (hb : b < 16) : s.arrive e wg b n field
    = if v.awaited b field - v.exited ≤ v.arrived b n
      then (s.setWg e wg (v.arriveAt b n field)).completeBar e wg b else s.setWg e wg (v.arriveAt b n field) := by
  have arrived : s.arrive e wg b n field = (s.setWg e wg (v.arriveAt b n field)).checkBars e wg := by
    unfold State.arrive
    rw [h]
    rfl
  have reached := Wg.arriveAt_reached waiting b n field
  rw [arrived, checkBars_eq (State.wg?_setWg _ _ _ _) hb fun b' hne => by rw [reached, if_neg hne], reached, if_pos rfl]
  simp only [decide_eq_true_eq]

theorem arrive_memory (h : s.wg? e wg = some v) (waiting : v.waiting) (hb : b < 16) :
    (s.arrive e wg b n field).mem = s.mem := by
  rw [arrive_eq h waiting hb]
  split <;> rfl

/-- Below the awaited count the barrier keeps its count. -/
theorem arrive_below (h : s.wg? e wg = some v) (waiting : v.waiting) (hb : b < 16)
    (below : v.arrived b n < v.awaited b field - v.exited) :
    (s.arrive e wg b n field).wg? e wg = some (v.arriveAt b n field)
    ∧ ∀ q, (s.arrive e wg b n field).str? e q = s.str? e q := by
  rw [arrive_eq h waiting hb, if_neg (Nat.not_le.2 below)]
  exact ⟨State.wg?_setWg _ _ _ _, fun q => State.str?_setWg _ _ _ _ _ _⟩

/-- At the awaited count the barrier resets and opens the groups of its workgroup that it blocks. -/
theorem arrive_completes (h : s.wg? e wg = some v) (waiting : v.waiting) (hb : b < 16)
    (full : v.awaited b field - v.exited ≤ v.arrived b n) :
    (s.arrive e wg b n field).wg? e wg
        = some { v.arriveAt b n field with bars := merase (v.arriveAt b n field).bars b }
    ∧ ∀ q, (s.arrive e wg b n field).str? e q
        = (s.str? e q).map (fun st => if st.wg = wg then st.unblock (fun x => x = .barrier b) else st) := by
  rw [arrive_eq h waiting hb, if_pos full]
  refine ⟨completeBar_wg (State.wg?_setWg _ _ _ _), fun q => ?_⟩
  rw [completeBar_str, State.str?_setWg]

end

/-- What an arrival leaves of the arriving string x, and of its workgroup. -/
theorem arrive_leaves {s : State} {e p b n field : Nat} {v : Wg} {x : Str} (hx : s.str? e p = some x)
    (h : s.wg? e x.wg = some v) (waiting : v.waiting) (hb : b < 16) :
    ∃ st' v', (s.arrive e x.wg b n field).str? e p = some st' ∧ (s.arrive e x.wg b n field).wg? e x.wg = some v'
      ∧ st'.butGroups = x.butGroups ∧ GroupsKeep x.groups st'.groups ∧ v'.exited = v.exited
      ∧ (v.arrived b n < v.awaited b field - v.exited → st' = x
          ∧ mget v'.bars b = some { count := v.arrived b n, expected := some (v.awaited b field) }
          ∧ ∀ b', b' ≠ b → mget v'.bars b' = mget v.bars b')
      ∧ (v.awaited b field - v.exited ≤ v.arrived b n → mget v'.bars b = none
          ∧ ∀ q y, (s.arrive e x.wg b n field).str? e q = some y → y.wg = x.wg → ∀ z ∈ y.groups, z.block ≠ .barrier b) := by
  rcases Nat.lt_or_ge (v.arrived b n) (v.awaited b field - v.exited) with below | full
  · obtain ⟨hwg, hstr⟩ := arrive_below (n := n) h waiting hb below
    refine ⟨x, _, (hstr p).trans hx, hwg, rfl, .refl _, rfl, fun _ => ⟨rfl, mget_mset_self _ _ _, fun b' hne =>
      mget_mset_ne _ _ hne⟩, fun full => absurd below (Nat.not_lt.2 full)⟩
  · obtain ⟨hwg, hstr⟩ := arrive_completes (n := n) h waiting hb full
    obtain ⟨rest, keeps, _⟩ := x.unblock_leaves (fun y => y = .barrier b)
    have mine : (s.arrive e x.wg b n field).str? e p = some (x.unblock (fun y => y = .barrier b)) := by
      rw [hstr, hx]
      simp
    refine ⟨_, _, mine, hwg, rest, keeps, rfl, fun below => absurd below (Nat.not_lt.2 full), fun _ => ⟨?_, ?_⟩⟩
    · rw [mget_merase, if_pos rfl]
    · intro q y hy hw z hz hblock
      rw [hstr] at hy
      obtain ⟨y0, _, rfl⟩ := Option.map_eq_some_iff.1 hy
      split at hz
      next same =>
        obtain ⟨_, _, opened⟩ := y0.unblock_leaves (fun y => y = .barrier b)
        have := opened z hz (by simp [hblock])
        rw [hblock] at this
        cases this
      next other =>
        rw [if_neg other] at hw
        exact other hw

/-! ### The barrier instructions -/

section

variable {w : Site} {h : Hdr} {low : BitVec 26} {s : State} {st : Str} {g : Group} {rest : List Group}

/-- The barrier that BAR.* names. -/
def barOf (low : BitVec 26) : Nat := bits low.toNat 25 22

/-- The state after the string of a barrier instruction is x. -/
def barState (s : State) (w : Site) (st x : Str) : State := (s.issued w 8 st).setStr w.engine.val w.place.val x

theorem lanes_ne_zero (lanes : 0 < laneCount st g h) : (actOf w h st g).lanes ≠ 0 := by
  intro none
  rw [← lanesOf_eq_nil] at none
  exact absurd lanes (by rw [laneCount, ← List.length_eq_zero_iff.2 none]; exact Nat.lt_irrefl _)

theorem execBarSync_runs (c : CanIssue s w h use0 st g rest) (legal : barLegal low = true) (lanes : 0 < laneCount st g h) :
    exec (.barSync w h low) s = .next ((barState s w st ((actOf w h st g).str.step.blockHead (.barrier (barOf low)))).arrive
      w.engine.val st.wg (barOf low) (laneCount st g h) (bits low.toNat 21 11)) := by
  show execBarSync w h low s = _
  unfold execBarSync
  rw [legal]
  exact (State.issue_runs c 8 _).trans (congrArg _ (if_neg (lanes_ne_zero lanes)))

theorem execBarArrive_runs (c : CanIssue s w h use0 st g rest) (legal : barLegal low = true) (lanes : 0 < laneCount st g h) :
    exec (.barArrive w h low) s = .next ((barState s w st (actOf w h st g).str.step).arrive
      w.engine.val st.wg (barOf low) (laneCount st g h) (bits low.toNat 21 11)) := by
  show execBarArrive w h low s = _
  unfold execBarArrive
  rw [legal]
  exact (State.issue_runs c 8 _).trans (congrArg _ (if_neg (lanes_ne_zero lanes)))

theorem execBarWait_runs (c : CanIssue s w h use0 st g rest) (zero : bits low.toNat 21 0 = 0) (lanes : 0 < laneCount st g h) :
    exec (.barWait w h low) s
      = .next (barState s w st ((actOf w h st g).str.step.blockHead (.barrier (barOf low)))) := by
  have legal : decide (bits low.toNat 21 0 = 0) = true := decide_eq_true zero
  show execBarWait w h low s = _
  unfold execBarWait
  rw [legal]
  refine (State.issue_runs c 8 _).trans (congrArg _ ?_)
  exact congrArg (State.setStr _ _ _) (if_neg (lanes_ne_zero lanes))

end

/-- The active group of an instruction that has blocked it. -/
theorem step_blockHead (w : Site) (h : Hdr) {st : Str} {g : Group} {rest : List Group} (hg : st.groups = g :: rest)
    (b : Block) (hb : b ≠ .open) :
    let next : Group := { g with pc := g.pc + 8, budget := g.budget - 1 }
    let x := (actOf w h st g).str.step.blockHead b
    x.butGroups = (actOf w h st g).str.step.butGroups ∧ GroupsKeep (next :: rest) x.groups
    ∧ ∃ y ∈ x.groups, y.pc = g.pc + 8 ∧ y.mask = g.mask ∧ y.block = b := by
  dsimp only
  let next : Group := { g with pc := g.pc + 8, budget := g.budget - 1 }
  have groups : (actOf w h st g).str.step.groups = next :: rest := by rw [actOf_step w h hg]
  have r := Str.blockHead_regrouped groups b
  exact ⟨r.rest, (GroupsKeep.head (g := next) (x := { next with block := b }) rfl rfl rest).trans r.keeps,
    { next with block := b }, r.blocked { next with block := b } List.mem_cons_self hb, rfl, rfl, rfl⟩

/-- Settles O11: an arrival completes no barrier but its own (`checkBars_eq`), and blocking moves no lane. -/
theorem barriersHoldGroupsUntilTheirCount : Obligations.BarriersHoldGroupsUntilTheirCount := by
  unfold Obligations.BarriersHoldGroupsUntilTheirCount
  intro w h low s st g rest v e p b field n next c hwg waiting lanes arrives
  have hb : b < 16 := bits_lt low.toNat 25 22
  have groups : (actOf w h st g).str.step.groups = next :: rest := by rw [actOf_step w h c.groups]
  obtain ⟨blockRest, blockKeeps, blocked⟩ := step_blockHead w h c.groups (.barrier b) fun e => nomatch e
  have wgOf : ∀ x : Str, (barState s w st x).wg? e st.wg = some v := fun x => by
    rw [barState, State.wg?_setStr, issued_wg, hwg]
  have memory : ∀ x : Str, (barState s w st x).mem = s.mem := fun x =>
    ((onlyString_issued s w 8 st).setStr x).mem
  have arrival : ∀ (i : Instr) (blocks : Bool) (x : Str), exec i s = .next ((barState s w st x).arrive e st.wg b n field) →
      x.butGroups = (actOf w h st g).str.step.butGroups → GroupsKeep (next :: rest) x.groups →
      (blocks = true → ∃ y ∈ x.groups, y.pc = g.pc + 8 ∧ y.mask = g.mask ∧ y.block = .barrier b) →
      (blocks = false → ∃ hd tl, x.groups = hd :: tl ∧ hd.pc = g.pc + 8 ∧ hd.block = .open) → arrives i blocks := by
    intro i blocks x run hx keeps held free
    have same : x.wg = st.wg := (Str.wg_of_butGroups hx).trans (by rw [actOf_step w h c.groups])
    obtain ⟨st', v', hst, hv, hrest, hkeeps, hexited, hbelow, hfull⟩ := arrive_leaves (b := b) (n := n) (field := field)
      (State.str?_setStr (s.issued w 8 st) e p x) ((same ▸ wgOf x :)) waiting hb
    rw [same] at hst hv hfull
    refine ⟨_, st', v', run, hst, hv, fun a => ?_, keeps.trans hkeeps,
      (Str.vregs_of_butGroups (hrest.trans hx)).trans (Str.vregs_step _),
      (Str.preds_of_butGroups (hrest.trans hx)).trans (Str.preds_step _), hexited, fun below => ?_, hfull⟩
    · rw [arrive_memory (wgOf x) waiting hb, memory]
    · obtain ⟨rfl, count, others⟩ := hbelow below
      exact ⟨count, others, held, free⟩
  have legal : field ≤ 1024 → bits low.toNat 10 0 = 0 → barLegal low = true := fun hfield zero => by
    rw [barLegal, Bool.and_eq_true]
    exact ⟨decide_eq_true hfield, decide_eq_true zero⟩
  refine ⟨fun hfield zero => ⟨?sync, ?arrive⟩, fun zero => ?wait⟩
  case sync =>
    exact arrival _ true _ (execBarSync_runs c (legal hfield zero) lanes) blockRest blockKeeps (fun _ => blocked)
      fun e => nomatch e
  case arrive =>
    exact arrival _ false _ (execBarArrive_runs c (legal hfield zero) lanes) rfl (groups ▸ .refl _) (fun e => nomatch e)
      fun _ => ⟨next, rest, groups, rfl, c.eligible⟩
  case wait =>
    exact ⟨_, _, execBarWait_runs c zero lanes, State.str?_setStr _ _ _ _, (onlyString_issued s w 8 st).setStr _, blockKeeps,
      (Str.vregs_of_butGroups blockRest).trans (Str.vregs_step _), blocked⟩

end Sys2Proof.Machine

/-! ## Loads and stores in shared memory (R72, R105, R106) -/

namespace Sys2Proof.Machine

set_option Elab.async false

/-! ### The last of several writes -/

/-- A fold whose steps keep an invariant and each overwrite what they hit: the last step that hits decides. -/
theorem foldl_last {σ α β : Type} {f : σ → α → σ} (inv : σ → Prop) (obs : σ → β) {hit : α → Bool} {y : α → β} {l : List α}
    (step : ∀ s, ∀ a ∈ l, inv s → inv (f s a) ∧ obs (f s a) = if hit a then y a else obs s) {s : σ} (hs : inv s) :
    inv (l.foldl f s) ∧ obs (l.foldl f s) = (l.reverse.find? hit).elim (obs s) y := by
  induction l using List.reverseRecOn with
  | nil => exact ⟨hs, rfl⟩
  | append_singleton l a ih =>
    obtain ⟨held, seen⟩ := ih fun s b hb => step s b (by simp [hb])
    obtain ⟨kept, last⟩ := step _ a (by simp) held
    rw [List.foldl_append, List.foldl_cons, List.foldl_nil, List.reverse_append, List.reverse_singleton,
      List.singleton_append, List.find?_cons]
    refine ⟨kept, ?_⟩
    rw [last]
    cases h : hit a with
    | true => rfl
    | false => exact seen

/-- The last hit of a rising list is the highest. -/
theorem le_of_find?_reverse {l : List Nat} (sorted : l.Pairwise (· < ·)) {hit : Nat → Bool} {i j : Nat}
    (hj : l.reverse.find? hit = some j) (hi : i ∈ l) (hhit : hit i = true) : i ≤ j := by
  obtain ⟨_, as, bs, split, none⟩ := List.find?_eq_some_iff_append.1 hj
  have falling : (as ++ j :: bs).Pairwise (fun a b => b < a) := split ▸ List.pairwise_reverse.2 sorted
  have hi' : i ∈ as ++ j :: bs := split ▸ List.mem_reverse.2 hi
  rcases List.mem_append.1 hi' with h | h
  · exact absurd hhit (by simpa using none i h)
  · rcases List.mem_cons.1 h with rfl | h
    · exact Nat.le_refl _
    · exact ((List.pairwise_cons.1 (List.pairwise_append.1 falling).2.1).1 i h).le

theorem lanesOf_sorted (m : Word) : (lanesOf m).Pairwise (· < ·) :=
  List.Pairwise.filter _ List.pairwise_lt_range

/-! ### Bytes of shared memory -/

theorem foldIdx_append {α σ : Type} (l : List α) (b : α) (s : σ) (f : σ → Nat → α → σ) :
    foldIdx (l ++ [b]) s f = f (foldIdx l s f) l.length b := by
  have count : ∀ (l : List α) (p : Nat × σ), (l.foldl (fun p a => (p.1 + 1, f p.2 p.1 a)) p).1 = p.1 + l.length := by
    intro l
    induction l with
    | nil => exact fun p => rfl
    | cons a l ih =>
      intro p
      rw [List.foldl_cons, ih, List.length_cons]
      omega
  unfold foldIdx
  rw [List.foldl_append, List.foldl_cons, List.foldl_nil, count, Nat.zero_add]

/-- Bytes that a write leaves: its own below the declared size. -/
theorem Wg.byte_write (g : Wg) (a x : Nat) (l : List Byte) : (g.write a l).byte x
    = if a ≤ x ∧ x < a + l.length ∧ x < g.sharedSize then l.getD (x - a) 0 else g.byte x := by
  have shared : mget (g.write a l).shared x
      = if a ≤ x ∧ x < a + l.length ∧ x < g.sharedSize then some (l.getD (x - a) 0) else mget g.shared x := by
    show mget (foldIdx l g.shared (fun m i b => if a + i < g.sharedSize then mset m (a + i) b else m)) x = _
    induction l using List.reverseRecOn with
    | nil => rw [if_neg (by simp; omega)]; rfl
    | append_singleton l b ih =>
      rw [foldIdx_append, List.length_append, List.length_singleton]
      by_cases last : x = a + l.length
      · subst last
        by_cases size : a + l.length < g.sharedSize
        · rw [if_pos size, mget_mset_self, if_pos ⟨by omega, by omega, size⟩]
          simp
        · rw [if_neg size, ih, if_neg (by omega), if_neg (by omega)]
      · have skip : ∀ m, mget (if a + l.length < g.sharedSize then mset m (a + l.length) b else m) x = mget m x := by
          intro m
          split
          · exact mget_mset_ne m b last
          · rfl
        rw [skip, ih]
        by_cases inside : a ≤ x ∧ x < a + l.length ∧ x < g.sharedSize
        · rw [if_pos inside, if_pos (by omega), List.getD_append _ _ _ _ (by omega)]
        · rw [if_neg inside, if_neg (by omega)]
  unfold Wg.byte
  rw [shared]
  split_ifs <;> rfl

theorem Wg.write_sharedSize (g : Wg) (a : Nat) (l : List Byte) : (g.write a l).sharedSize = g.sharedSize := rfl

/-- Lanes' writes in ascending order. -/
def Wg.writeLanes (v : Wg) (l : List Nat) (addr : Nat → Nat) (data : Nat → List Byte) : Wg :=
  l.foldl (fun v i => v.write (addr i) (data i)) v

theorem Wg.writeLanes_byte (v : Wg) {l : List Nat} {addr : Nat → Nat} {data : Nat → List Byte} {n : Nat}
    (hlen : ∀ i, (data i).length = n) (inside : ∀ i ∈ l, addr i + n ≤ v.sharedSize) (x : Nat) :
    (v.writeLanes l addr data).byte x = (l.reverse.find? (fun i => addr i ≤ x && x < addr i + n)).elim (v.byte x)
      (fun i => (data i).getD (x - addr i) 0) := by
  refine (foldl_last (f := fun v i => v.write (addr i) (data i)) (hit := fun i => addr i ≤ x && x < addr i + n)
    (y := fun i => (data i).getD (x - addr i) 0) (l := l) (fun g : Wg => g.sharedSize = v.sharedSize) (fun g => g.byte x)
    (fun g i hi size => ⟨size, ?_⟩) rfl).2
  have fits := inside i hi
  rw [Wg.byte_write, hlen, size]
  by_cases h : addr i ≤ x ∧ x < addr i + n
  · rw [if_pos ⟨h.1, h.2, by omega⟩, if_pos (by simp [h])]
  · rw [if_neg fun k => h ⟨k.1, k.2.1⟩, if_neg (by simpa using h)]

/-- At natural addresses the bytes of a lane's address are those of the highest lane that writes it. -/
theorem Wg.writeLanes_read (v : Wg) {l : List Nat} (sorted : l.Pairwise (· < ·)) {addr : Nat → Nat} {data : Nat → List Byte}
    {n : Nat} (hlen : ∀ i, (data i).length = n) (inside : ∀ i ∈ l, addr i + n ≤ v.sharedSize)
    (aligned : ∀ i ∈ l, addr i % n = 0) {i : Nat} (hi : i ∈ l) (last : ∀ j ∈ l, addr j = addr i → j ≤ i) :
    (v.writeLanes l addr data).read (addr i) n = data i := by
  refine List.ext_getElem (by simp [Wg.read, hlen]) fun t ht _ => ?_
  have htn : t < n := by simpa [Wg.read] using ht
  have mine : (decide (addr i ≤ addr i + t) && decide (addr i + t < addr i + n)) = true := by simp [htn]
  simp only [Wg.read, List.getElem_map, List.getElem_range]
  rw [Wg.writeLanes_byte v hlen inside]
  cases hj : l.reverse.find? (fun j => addr j ≤ addr i + t && addr i + t < addr j + n) with
  | some j =>
    have hjl : j ∈ l := List.mem_reverse.1 (List.mem_of_find?_eq_some hj)
    have hjx : addr j ≤ addr i + t ∧ addr i + t < addr j + n := by simpa using List.find?_some hj
    have same : addr j = addr i := by
      obtain ⟨p, hp⟩ := Nat.dvd_of_mod_eq_zero (aligned j hjl)
      obtain ⟨q, hq⟩ := Nat.dvd_of_mod_eq_zero (aligned i hi)
      have : p = q := by
        rw [hp, hq] at hjx
        have h1 : n * p < n * (q + 1) := by rw [Nat.mul_succ]; omega
        have h2 : n * q < n * (p + 1) := by rw [Nat.mul_succ]; omega
        have := Nat.lt_of_mul_lt_mul_left h1
        have := Nat.lt_of_mul_lt_mul_left h2
        omega
      rw [hp, hq, this]
    have : j = i := Nat.le_antisymm (last j hjl same) (le_of_find?_reverse sorted hj hi mine)
    subst this
    rw [Option.elim_some, Nat.add_sub_cancel_left, List.getD_eq_getElem _ _ (by rw [hlen]; exact htn)]
  | none => exact absurd mine (by simpa using List.find?_eq_none.1 hj i (List.mem_reverse.2 hi))

/-! ### The instructions -/

section

variable {w : Site} {h : Hdr} {size : Fin 5} {sgn : Bool} {s : State} {st : Str} {g : Group} {rest : List Group}

theorem onlyString_accessing (s : State) (w : Site) (h : Hdr) (st : Str) (g : Group) :
    OnlyString s (s.accessing w h st g) w := (onlyString_issued s w 4 st).bump _ _ _ _

theorem accessing_queues (s : State) (w : Site) (h : Hdr) (st : Str) (g : Group) :
    (s.accessing w h st g).queues = s.queues := (State.bump_queues _ _ _ _ _).trans (issued_queues s w 4 st)

theorem accessing_wg (s : State) (w : Site) (h : Hdr) (st : Str) (g : Group) (e n : Nat) :
    (s.accessing w h st g).wg? e n = s.wg? e n := by
  rw [← issued_wg s w 4 st, State.wg?, State.accessing, State.eng, State.bump_engines]
  rfl

/-- The shared address of a lane. -/
def sharedAddr (st : Str) (h : Hdr) (i : Nat) : Nat := (st.v h.src0.toNat i).toNat

theorem any_misaligned (w : Site) (h : Hdr) (st : Str) (g : Group) (n : Nat) :
    (((actOf w h st g).addrs true).any (fun p => p.2 % n ≠ 0) = true) ↔ ∃ i, Executes st g h i ∧ sharedAddr st h i % n ≠ 0 := by
  rw [List.any_eq_true]
  constructor
  · rintro ⟨p, hp, hm⟩
    obtain ⟨i, hi, rfl⟩ := List.mem_map.1 hp
    exact ⟨i, hi, of_decide_eq_true hm⟩
  · rintro ⟨i, hi, hm⟩
    exact ⟨_, List.mem_map.2 ⟨i, hi, rfl⟩, decide_eq_true hm⟩

/-- The registers of a load in shared space, and of a store. -/
def ldSharedUse (h : Hdr) (size : Fin 5) : Use :=
  { use0 with rv := [h.src0.toNat], wv := regs h.dst.toNat (regsFor size.val), ok := alignedReg size.val h.dst }
def stSharedUse (h : Hdr) (size : Fin 5) : Use :=
  { use0 with rv := h.src0.toNat :: regs h.src1.toNat (regsFor size.val), ok := alignedReg size.val h.src1 }

/-- The string after a load in shared space. -/
def ldSharedStr (a : Act) (v : Wg) (size : Fin 5) (sgn : Bool) : Str :=
  (lanesOf a.lanes).foldl (fun st i => st.setVn a.hdr.dst.toNat i (regsFor size.val)
    (extendLoad size.val sgn (leNat (v.read (a.str.v a.hdr.src0.toNat i).toNat (2 ^ size.val))))) a.str.step

theorem execLd_shared_stops (c : CanIssue s w h (ldSharedUse h size) st g rest)
    (bad : ∃ i, Executes st g h i ∧ sharedAddr st h i % 2 ^ size.val ≠ 0) : exec (.ld w h true size sgn) s
      = .next ((s.accessing w h st g).trap w.engine.val st.queue st.cmd eMisaligned 0) := by
  show execLd w h true size sgn s = _
  unfold execLd
  exact (State.issue_runs c 4 _).trans (congrArg _ ((if_pos rfl).trans (if_pos ((any_misaligned w h st g _).2 bad))))

theorem execLd_shared_runs {v : Wg} (c : CanIssue s w h (ldSharedUse h size) st g rest)
    (hv : s.wg? w.engine.val st.wg = some v) (aligned : ∀ i, Executes st g h i → sharedAddr st h i % 2 ^ size.val = 0) :
    exec (.ld w h true size sgn) s = .next ((s.accessing w h st g).setStr w.engine.val w.place.val
      ((ldSharedStr (actOf w h st g) v size sgn).pend (ldSharedUse h size).writes)) := by
  have good : ¬ ((actOf w h st g).addrs true).any (fun p => p.2 % 2 ^ size.val ≠ 0) = true := by
    rw [any_misaligned]
    rintro ⟨i, hi, hm⟩
    exact hm (aligned i hi)
  show execLd w h true size sgn s = _
  unfold execLd
  refine (State.issue_runs c 4 _).trans (congrArg _ ((if_pos rfl).trans ((if_neg good).trans ?_)))
  have hv' := (accessing_wg s w h st g w.engine.val st.wg).trans hv
  split
  next none => exact nomatch hv'.symm.trans none
  next v' some =>
    cases hv'.symm.trans some
    unfold Act.addrs ldSharedStr
    rw [List.foldl_map]
    rfl

/-- The workgroup after a store in shared space. -/
def stSharedWg (a : Act) (v : Wg) (size : Fin 5) : Wg :=
  v.writeLanes (lanesOf a.lanes) (fun i => (a.str.v a.hdr.src0.toNat i).toNat)
    (fun i => leBytes (2 ^ size.val) (a.str.vn a.hdr.src1.toNat i (regsFor size.val)))

theorem writers_eq (w : Site) (h : Hdr) {st : Str} (g : Group) (none : st.helpers = []) (s : State) (r k : Nat) :
    (actOf w h st g).writers s r k = actOf w h st g := by
  have none' : (actOf w h st g).str.helpers = [] := none
  unfold Act.writers
  rw [none']

theorem execSt_shared_stops (c : CanIssue s w h (stSharedUse h size) st g rest) (none : st.helpers = [])
    (bad : ∃ i, Executes st g h i ∧ sharedAddr st h i % 2 ^ size.val ≠ 0) : exec (.st w h true size) s
      = .next ((s.accessing w h st g).trap w.engine.val st.queue st.cmd eMisaligned 0) := by
  show execSt w h true size s = _
  unfold execSt
  refine (State.issue_runs c 4 _).trans (congrArg _ ?_)
  dsimp only
  rw [writers_eq w h g none]
  exact (if_pos rfl).trans (if_pos ((any_misaligned w h st g _).2 bad))

theorem execSt_shared_runs {v : Wg} (c : CanIssue s w h (stSharedUse h size) st g rest) (none : st.helpers = [])
    (hv : s.wg? w.engine.val st.wg = some v) (aligned : ∀ i, Executes st g h i → sharedAddr st h i % 2 ^ size.val = 0) :
    exec (.st w h true size) s = .next (((s.accessing w h st g).setWg w.engine.val st.wg
      (stSharedWg (actOf w h st g) v size)).setStr w.engine.val w.place.val (actOf w h st g).str.step) := by
  have good : ¬ ((actOf w h st g).addrs true).any (fun p => p.2 % 2 ^ size.val ≠ 0) = true := by
    rw [any_misaligned]
    rintro ⟨i, hi, hm⟩
    exact hm (aligned i hi)
  show execSt w h true size s = _
  unfold execSt
  refine (State.issue_runs c 4 _).trans (congrArg _ ?_)
  dsimp only
  rw [writers_eq w h g none]
  refine (if_pos rfl).trans ((if_neg good).trans ?_)
  have hv' := (accessing_wg s w h st g w.engine.val st.wg).trans hv
  split
  next none => exact nomatch hv'.symm.trans none
  next v' some =>
    cases hv'.symm.trans some
    unfold Act.addrs stSharedWg Wg.writeLanes
    rw [List.foldl_map]
    rfl

theorem ldSharedStr_butV (a : Act) (v : Wg) (size : Fin 5) (sgn : Bool) : (ldSharedStr a v size sgn).butV = a.str.step.butV :=
  foldl_keeps Str.butV (fun st i _ => st.butV_setVn _ i _ _) _

theorem ldSharedStr_v (v : Wg) (r : Nat) {i : Nat} (hi : i < 32) : (ldSharedStr (actOf w h st g) v size sgn).v r i
    = if Executes st g h i ∧ h.dst.toNat ≤ r ∧ r < h.dst.toNat + regsFor size.val
      then BitVec.ofNat 32 (extendLoad size.val sgn (leNat (v.read (sharedAddr st h i) (2 ^ size.val)))
        / 2 ^ (32 * (r - h.dst.toNat))) else st.v r i := by
  have e := foldl_setVn_v (actOf w h st g).str.step h.dst.toNat (regsFor size.val)
    (fun i => extendLoad size.val sgn (leNat (v.read (sharedAddr st h i) (2 ^ size.val))))
    (l := lanesOf (actOf w h st g).lanes) (fun _ => lanesOf_lt) r hi
  rw [Str.v_step] at e
  exact e

end

/-- Settles O13: loads write registers lane by lane (`foldl_setVn_v`), stores bytes, the highest lane last
(`Wg.writeLanes_read`), and a misaligned address traps. -/
theorem sharedLoadsAndStoresMoveBytes : Obligations.SharedLoadsAndStoresMoveBytes := by
  unfold Obligations.SharedLoadsAndStoresMoveBytes
  intro w h size sgn s st g rest v e p n k addr hv
  refine ⟨fun c => ⟨fun aligned => ?load, fun bad => ?loadStops⟩, fun c none => ⟨fun fits => ?store, fun bad => ?storeStops⟩⟩
  case loadStops =>
    exact ⟨_, execLd_shared_stops c bad, State.trap_stops (accessing_queues s w h st g) _ _ _ _ _⟩
  case storeStops =>
    exact ⟨_, execSt_shared_stops c none bad, State.trap_stops (accessing_queues s w h st g) _ _ _ _ _⟩
  case load =>
    let a := actOf w h st g
    have hbut := ldSharedStr_butV a v size sgn
    have bare : (ldSharedStr a v size sgn).bare = a.str.step.bare := Str.bare_of_butV hbut
    refine ⟨_, _, execLd_shared_runs c hv aligned, State.str?_setStr _ _ _ _,
      advanced_of_bare (w := w) (h := h) c.groups bare, (onlyString_accessing s w h st g).setStr _,
      (Str.preds_of_butV hbut).trans (Str.preds_step _), (Str.uregs_of_butV hbut).trans (Str.uregs_step _),
      fun i hi j hj => ?value, fun r i hi hne => ?others⟩
    case value =>
      have hv := ldSharedStr_v (st := st) (g := g) (w := w) (h := h) (size := size) (sgn := sgn) v (h.dst.toNat + j) (lanesOf_lt hi)
      rw [if_pos ⟨hi, by omega, by omega⟩, Nat.add_sub_cancel_left] at hv
      exact (congrArg BitVec.toNat hv).trans (BitVec.toNat_ofNat _ _)
    case others =>
      refine (ldSharedStr_v v r hi).trans (if_neg ?_)
      rintro ⟨hx, hle, hlt⟩
      rcases hne with h | h | h
      · exact h hx
      · omega
      · omega
  case store =>
    let a := actOf w h st g
    let x := stSharedWg a v size
    have inside : ∀ i ∈ lanesOf a.lanes, addr i + n ≤ v.sharedSize := fun i hi => (fits i hi).2
    have aligned : ∀ i ∈ lanesOf a.lanes, addr i % n = 0 := fun i hi => (fits i hi).1
    have hlen : ∀ i, (leBytes n (a.str.vn h.src1.toNat i k)).length = n := fun i => length_leBytes _ _
    have wg : ∀ q, (((s.accessing w h st g).setWg e st.wg x).setStr e p a.str.step).wg? e q
        = ((s.accessing w h st g).setWg e st.wg x).wg? e q := fun q => State.wg?_setStr _ _ _ _ _ _
    refine ⟨_, a.str.step, x, execSt_shared_runs c none hv aligned, State.str?_setStr _ _ _ _,
      advanced_of_bare (w := w) (h := h) c.groups rfl, Str.vregs_step _, Str.preds_step _, fun b => ?memory,
      (wg _).trans (State.wg?_setWg _ _ _ _), fun q hq => ?others, fun i hi last => ?read, fun b outside => ?byte⟩
    case memory => exact (onlyString_accessing s w h st g).memoryKept b
    case others =>
      rw [wg, State.wg?_setWg_ne _ _ fun e => hq (Prod.mk.inj e).2, accessing_wg]
    case read => exact Wg.writeLanes_read v (lanesOf_sorted _) hlen inside aligned hi last
    case byte =>
      refine (Wg.writeLanes_byte v hlen inside b).trans ?_
      rw [List.find?_eq_none.2, Option.elim_none]
      intro i hi
      have := outside i (List.mem_reverse.1 hi)
      simp only [Bool.and_eq_true, decide_eq_true_eq]
      omega

end Sys2Proof.Machine

/-! ## Stores to global memory (R93, R105, R106) -/

namespace Sys2Proof.Machine

set_option Elab.async false

/-! ### What a translation leaves alone -/

/-- The strings, the bytes of local memory and its capacity are as before. -/
structure Beside (s t : State) : Prop where
  strings : ∀ k p, t.str? k p = s.str? k p
  cells : t.mem.cells = s.mem.cells
  capacity : t.mem.capacity = s.mem.capacity

theorem Beside.refl (s : State) : Beside s s := ⟨fun _ _ => rfl, rfl, rfl⟩

theorem Beside.trans {s t u : State} (h : Beside s t) (k : Beside t u) : Beside s u :=
  ⟨fun e p => (k.strings e p).trans (h.strings e p), k.cells.trans h.cells, k.capacity.trans h.capacity⟩

theorem Beside.of_engines {s t : State} (engines : t.engines = s.engines) (mem : t.mem = s.mem) : Beside s t :=
  ⟨fun k p => by rw [State.str?, State.eng, engines]; rfl, by rw [mem], by rw [mem]⟩

theorem Beside.modEng {f : Eng → Eng} (hf : ∀ v, (f v).strs = v.strs) (s : State) (e : Nat) : Beside s (s.modEng e f) :=
  ⟨State.str?_modEng hf s e, rfl, rfl⟩

theorem CacheOnly.beside {s t : State} (h : CacheOnly s t) : Beside s t := by
  obtain ⟨_, _, _, _, rfl⟩ := h
  exact ⟨fun _ _ => rfl, rfl, rfl⟩

theorem HostOnly.beside {s t : State} (h : HostOnly s t) : Beside s t := by
  obtain ⟨_, rfl⟩ := h
  exact ⟨fun _ _ => rfl, rfl, rfl⟩

theorem submit_engines (s : State) (r : LogRec) (u : Bool) : (s.submit r u).engines = s.engines := by
  have h := s.submit_rest r u
  generalize s.submit r u = t at h ⊢
  rw [← h]

theorem addRecord_engines (s : State) (r : FltRecord) (l n u : Bool) : (s.addRecord r l n u).engines = s.engines := by
  have told : ∀ t v k f src x, (State.interrupt t v k f src x).engines = t.engines := fun t v k f src x => by
    obtain ⟨_, e⟩ := t.interrupt_hostOnly v k f src x
    rw [e]
  unfold State.addRecord
  dsimp only
  cases l <;> cases n <;> simp [told, submit_engines]

/-- The engines are as before: as a relation, so that a proof need not look into the states. -/
def EnginesKept (s t : State) : Prop := t.engines = s.engines

theorem EnginesKept.refl (s : State) : EnginesKept s s := rfl
theorem EnginesKept.trans {s t u : State} (h : EnginesKept s t) (k : EnginesKept t u) : EnginesKept s u := Eq.trans k h
theorem EnginesKept.ite {s a b : State} {p : Prop} [Decidable p] (ha : EnginesKept s a) (hb : EnginesKept s b) :
    EnginesKept s (if p then a else b) := by
  split <;> assumption
theorem EnginesKept.iteNeg {s a b : State} {p : Prop} [Decidable p] (hp : ¬p) (hb : EnginesKept s b) :
    EnginesKept s (if p then a else b) := by
  rwa [if_neg hp]
theorem EnginesKept.ofFlt (s : State) (f : Flt) : EnginesKept s { s with flt := f } := rfl
theorem HostOnly.enginesKept {s t : State} (h : HostOnly s t) : EnginesKept s t := by
  obtain ⟨_, rfl⟩ := h
  rfl
theorem startPulse_engines (s : State) : EnginesKept s s.startPulse := rfl

/-- Only a fatal fault stops the engines (R490). -/
theorem recordFaultBy_engines {f : FaultIn} (class1 : faultClass f.code = 1) (s : State) (third : Bool) :
    EnginesKept s (s.recordFaultBy f third) := by
  unfold State.recordFaultBy
  refine .ite (.refl s) ?_
  dsimp only
  split
  · exact .ofFlt s _
  · refine .iteNeg (by simp [class1]) ?_
    refine .trans ?_ (addRecord_engines _ _ _ _ _)
    refine .ite (.trans ?_ (startPulse_engines _)) ?_ <;> refine .ite ?_ ?_
    all_goals first
      | exact .trans (.trans (.ofFlt s _) (State.noting_hostOnly s _).enginesKept) (State.capChanged_hostOnly _).enginesKept
      | (split; exacts [.ofFlt s _, .refl s])

theorem report_beside {code : Nat} (class1 : faultClass code = 1) (s : State) (kind index addr info : Nat) :
    Beside s (s.report code kind index addr info) := .of_engines (recordFaultBy_engines class1 s false) (s.report_mem _ _ _ _ _)

theorem readPhys_beside (s : State) (pa n pol : Nat) : Beside s (s.readPhys pa n pol).2 := by
  unfold State.readPhys
  split
  case h_1 => exact (CacheOnly.foldl (fun s p => s.lineRead_cacheOnly _ _) _ s).beside
  case h_2 =>
    dsimp only
    split <;> exact (s.bump_cacheOnly blkL2C _ 6 1).beside
  case h_3 => exact report_beside (code := 0x0305) (by decide) s _ _ _ _
  case h_4 => exact report_beside (code := 0x0103) (by decide) s _ _ _ _

/-! ### Translation -/

theorem tlbFill_beside (s : State) (agent : Nat) (e : TlbEnt) : Beside s (s.tlbFill agent e) := by
  unfold State.tlbFill
  split
  · exact .refl s
  · exact ⟨fun _ _ => rfl, rfl, rfl⟩

theorem stlbFill_beside (s : State) (va : Nat) (e : TlbEnt) : Beside s (s.stlbFill va e) := ⟨fun _ _ => rfl, rfl, rfl⟩

theorem walkFill_beside (s : State) (w : WalkEnt) : Beside s (s.walkFill w) := ⟨fun _ _ => rfl, rfl, rfl⟩

theorem walkFrom_beside (asid va n : Nat) : ∀ (s : State) (table : Nat), Beside s (s.walkFrom asid va table n).2 := by
  induction n with
  | zero => exact fun s _ => .refl s
  | succ n ih =>
    intro s table
    unfold State.walkFrom
    have read := readPhys_beside s (table + 8 * bits va (20 + 9 * n) (12 + 9 * n)) 8 0
    dsimp only
    split_ifs
    all_goals first | exact read | exact read.trans ((walkFill_beside _ _).trans (ih _ _))

theorem walkTable_beside (s : State) (asid va : Nat) : Beside s (s.walkTable asid va).2 := by
  unfold State.walkTable
  split
  · exact .refl s
  · have counted : Beside s (s.bump blkMMU 0 2 1) := (s.bump_cacheOnly _ _ _ _).beside
    dsimp only
    split
    · exact counted.trans ((walkFill_beside _ _).trans (walkFrom_beside _ _ _ _ _))
    · exact counted.trans (walkFrom_beside _ _ _ _ _)

theorem translate_beside (s : State) (agent asid va : Nat) (acc : Acc) : Beside s (s.translate agent asid va acc).2 := by
  have filled : ∀ (t : State) (e : TlbEnt), Beside s t → Beside s ((t.stlbFill va e).tlbFill agent e) :=
    fun t e h => h.trans ((stlbFill_beside t va e).trans (tlbFill_beside _ agent e))
  unfold State.translate
  split_ifs
  · exact .refl s
  · exact .refl s
  · split
    · exact tlbFill_beside s agent _
    · split
      · exact filled _ _ (s.bump_cacheOnly _ _ _ _).beside
      · have walked := (s.bump_cacheOnly blkMMU 0 1 1).beside.trans (walkTable_beside _ asid va)
        split
        next walk =>
          rw [walk] at walked
          exact walked
        next walk =>
          rw [walk] at walked
          exact filled _ _ walked

theorem translateLanes_beside (s : State) (a : Act) (addrs : List (Nat × Nat)) (acc : Acc) :
    Beside s (s.translateLanes a addrs acc).2 := by
  unfold State.translateLanes
  refine List.foldlRecOn (motive := fun r : Except _ (List LaneAddr) × State => Beside s r.2) addrs _ (.refl s)
    fun r hr p _ => ?_
  have next := hr.trans (translate_beside r.2 a.e (s.ctxOf a.str.queue a.str.cmd).1 p.2 acc)
  split
  next ok =>
    rw [ok] at next
    exact next
  next fault =>
    rw [fault] at next
    exact next

/-! ### One lane's store -/

theorem send_hostOnly (s : State) (m : OutMsg) : HostOnly s (s.send m) := by
  unfold State.send
  split <;> exact ⟨_, rfl⟩

theorem hostWrite_beside (s : State) (addr : Nat) (l : List Byte) : Beside s (s.hostWrite addr l) := by
  unfold State.hostWrite
  split
  · exact .refl s
  · exact (send_hostOnly s _).beside

theorem Beside.ofCaravan (s : State) (c : Caravan) : Beside s { s with caravan := c } := ⟨fun _ _ => rfl, rfl, rfl⟩

theorem cvlEmit_beside (s : State) (port type src dst tag addr aux size hops : Nat) (data : List Byte) (poison : Bool) :
    Beside s (s.cvlEmit port type src dst tag addr aux size hops data poison) :=
  (s.bump_cacheOnly blkCVL port 0 1).beside.trans ⟨fun _ _ => rfl, rfl, rfl⟩

theorem cvlRequestAs_beside (s : State) (type dst addr aux : Nat) (data : List Byte) (dest : NpDest)
    (signal : Option (Nat × Nat)) (fill : Bool) (off : Nat) (poison : Bool) :
    Beside s ((s.cvlRequestAs type dst addr aux data dest signal fill off poison).getD s) := by
  unfold State.cvlRequestAs
  split
  · dsimp only [Option.getD_some]
    exact (Beside.ofCaravan s _).trans (cvlEmit_beside _ _ _ _ _ _ _ _ _ _ _ _)
  · exact .refl s

theorem cvlStore_beside (s : State) (dst pa : Nat) (l : List Byte) (dest : NpDest) : Beside s (s.cvlStore dst pa l dest) := by
  unfold State.cvlStore State.cvlStoreAs
  split
  · exact .refl s
  · exact List.foldlRecOn (motive := Beside s) _ _ (.refl s) fun t ht i _ => ht.trans (cvlRequestAs_beside _ _ _ _ _ _ _ _ _ _ _)

/-- The strings and the capacity of local memory are as before, whose bytes keep their canonical form. -/
structure StoredBeside (s t : State) : Prop where
  strings : ∀ k p, t.str? k p = s.str? k p
  capacity : t.mem.capacity = s.mem.capacity
  wf : Memory.wf t.mem.cells = true

theorem Beside.stored {s t : State} (h : Beside s t) (wf : Memory.wf s.mem.cells = true) : StoredBeside s t :=
  ⟨h.strings, h.capacity, by rw [h.cells, wf]⟩

theorem StoredBeside.trans {s t u : State} (h : StoredBeside s t) (k : StoredBeside t u) : StoredBeside s u :=
  ⟨fun e p => (k.strings e p).trans (h.strings e p), k.capacity.trans h.capacity, k.wf⟩

theorem whereIs_dram {m : Mem} {pa : Nat} (h : pa < m.capacity) : m.whereIs pa = .dram := if_pos h

theorem writePhys_stored (s : State) (pa : Nat) (l : List Byte) (pol : Nat) (local_ : pa < s.mem.capacity)
    (wf : Memory.wf s.mem.cells = true) : StoredBeside s (s.writePhys pa l pol) := by
  refine ⟨?_, ?_, s.writePhys_wf pa l pol wf⟩ <;> unfold State.writePhys <;> rw [whereIs_dram local_]
  · exact (CacheOnly.foldl (fun s p => s.lineWrite_cacheOnly _ _ _) _ s).beside.strings
  · exact (CacheOnly.foldl (fun s p => s.lineWrite_cacheOnly _ _ _) _ s).beside.capacity

/-- A write through the L1 updates the engine's lines and goes on to memory (R156). -/
theorem l1Write_writes (s : State) (e pa pol : Nat) (l : List Byte) :
    ∃ t, Beside s t ∧ t.mem = s.mem ∧ s.l1Write e pa pol l = t.writePhys pa l pol :=
  ⟨_, .modEng (fun v => by split <;> rfl) s e, rfl, rfl⟩

/-- A lane that addresses byte b of local memory. -/
def LaneAddr.hits (n b : Nat) (x : LaneAddr) : Bool := x.target = 0 && x.pa ≤ b && b < x.pa + n

/-- A lane's store writes its bytes where its page is local, and nothing elsewhere. -/
theorem storeLane_stores (s : State) (a : Act) (x : LaneAddr) {l : List Byte} (some : 0 < l.length)
    (fits : x.target = 0 → x.pa + l.length ≤ s.mem.capacity) (wf : Memory.wf s.mem.cells = true) :
    StoredBeside s (s.storeLane a x l) ∧ ∀ b, memGet (s.storeLane a x l).mem.cells b
      = if x.hits l.length b then l.getD (b - x.pa) 0 else memGet s.mem.cells b := by
  have away : x.target ≠ 0 → ∀ t, Beside s t → StoredBeside s t ∧ ∀ b, memGet t.mem.cells b
      = if x.hits l.length b then l.getD (b - x.pa) 0 else memGet s.mem.cells b := fun target t ht =>
    ⟨ht.stored wf, fun b => by rw [ht.cells, if_neg (by simp [LaneAddr.hits, target])]⟩
  unfold State.storeLane
  split
  case h_1 target =>
    have inside : x.pa < s.mem.capacity := by
      have := fits target
      omega
    obtain ⟨t, cached, mem, e⟩ := l1Write_writes s a.e x.pa x.pol l
    rw [← mem] at wf inside ⊢
    rw [e]
    refine ⟨(cached.stored (mem ▸ wf)).trans (writePhys_stored t _ _ _ inside wf), fun b => ?_⟩
    refine (State.writePhys_dram t x.pa l x.pol b (whereIs_dram inside) wf).trans ?_
    simp only [LaneAddr.hits, target, decide_true, Bool.true_and, Bool.and_eq_true, decide_eq_true_eq]
  case h_2 target => exact away (by rw [target]; decide) _ (hostWrite_beside s _ _)
  case h_3 target _ => exact away target _ (cvlStore_beside s _ _ _ _)

/-- The lanes' stores: a byte keeps the value of the last lane that hits it. -/
theorem storeLanes_stores (s : State) (a : Act) {data : Nat → List Byte} {n : Nat} (hn : 0 < n) (hlen : ∀ i, (data i).length = n)
    {l : List LaneAddr} (fits : ∀ x ∈ l, x.target = 0 → x.pa + n ≤ s.mem.capacity) (wf : Memory.wf s.mem.cells = true) :
    StoredBeside s (l.foldl (fun s x => s.storeLane a x (data x.lane)) s)
      ∧ ∀ b, memGet (l.foldl (fun s x => s.storeLane a x (data x.lane)) s).mem.cells b
        = (l.reverse.find? (LaneAddr.hits n b)).elim (memGet s.mem.cells b) (fun x => (data x.lane).getD (b - x.pa) 0) := by
  have step : ∀ t, ∀ x ∈ l, StoredBeside s t → StoredBeside s (t.storeLane a x (data x.lane))
      ∧ ∀ b, memGet (t.storeLane a x (data x.lane)).mem.cells b
        = if x.hits n b then (data x.lane).getD (b - x.pa) 0 else memGet t.mem.cells b := fun t x hx ht => by
    have lane := storeLane_stores t a x (l := data x.lane) (by rw [hlen]; exact hn)
      (by rw [hlen, ht.capacity]; exact fits x hx) ht.wf
    rw [hlen] at lane
    exact ⟨ht.trans lane.1, lane.2⟩
  have start := (Beside.refl s).stored wf
  have last := fun b => foldl_last (StoredBeside s) (fun t => memGet t.mem.cells b) (hit := LaneAddr.hits n b)
    (y := fun x => (data x.lane).getD (b - x.pa) 0) (fun t x hx ht => ⟨(step t x hx ht).1, (step t x hx ht).2 b⟩) start
  exact ⟨(last 0).1, fun b => (last b).2⟩

/-! ### A string parks (R93) -/

theorem raiseFault_beside (s : State) (f : FaultReq) : Beside s (s.raiseFault f).2 := by
  unfold State.raiseFault
  dsimp only
  split
  · exact ⟨fun _ _ => rfl, rfl, rfl⟩
  · split
    · exact .refl s
    · exact ⟨fun _ _ => rfl, rfl, rfl⟩

theorem gangPark_beside (s : State) (e q cmd : Nat) : Beside s (s.gangPark e q cmd) := by
  unfold State.gangPark
  split
  · exact List.foldlRecOn (motive := Beside s) _ _ (.refl s) fun t ht m _ => ht.trans
      (.modEng (f := fun v => { v with gangParked := true }) (fun _ => rfl) t m)
  · exact .refl s

theorem str?_modStr {s : State} {e p : Nat} {st : Str} (resident : s.str? e p = some st) (f : Str → Str) :
    (s.modStr e p f).str? e p = some (f st) := by
  rw [State.str?] at resident
  rw [State.str?, State.modStr, State.eng_modEng, mget_mmod, if_pos rfl, resident, Option.map_some]

theorem park_parks {s : State} {a : Act} {st : Str} (resident : s.str? a.e a.place = some st) (kind : Nat) (acc : Acc)
    (va level detail heap growKey : Nat) :
    (∃ id, (s.park a kind acc va level detail heap growKey).str? a.e a.place = some { st with state := .parked id })
    ∧ (s.park a kind acc va level detail heap growKey).mem.cells = s.mem.cells := by
  unfold State.park
  dsimp only
  generalize hf : FaultReq.mk _ _ _ _ _ _ _ _ _ _ _ _ _ _ = f
  have raised := raiseFault_beside s f
  have parked := gangPark_beside (((s.raiseFault f).2).modStr a.e a.place (fun st => { st with state := .parked (s.raiseFault f).1 }))
    a.e a.str.queue a.str.cmd
  exact ⟨⟨_, (parked.strings _ _).trans (str?_modStr ((raised.strings _ _).trans resident) _)⟩, parked.cells.trans raised.cells⟩

/-! ### The instruction -/

section

variable {w : Site} {h : Hdr} {size : Fin 5} {s : State} {st : Str} {g : Group} {rest : List Group}

/-- The registers of a store in global space. -/
def stUse (h : Hdr) (size : Fin 5) : Use :=
  { useAddr false h.src0 with
    rv := (useAddr false h.src0).rv ++ regs h.src1.toNat (regsFor size.val)
    ok := (useAddr false h.src0).ok && alignedReg size.val h.src1 }

/-- What a store does once its addresses are translated. -/
def stBody (a : Act) (size : Fin 5) (l : List LaneAddr) (s : State) : State :=
  (l.foldl (fun s x => s.storeLane a x (leBytes (2 ^ size.val) (a.str.vn a.hdr.src1.toNat x.lane (regsFor size.val)))) s).modStr
    a.e a.place (fun _ => a.str.step)

theorem execSt_runs (c : CanIssue s w h (stUse h size) st g rest) (none : st.helpers = []) :
    exec (.st w h false size) s = .next ((s.accessing w h st g).memLanes (actOf w h st g) (2 ^ size.val) accWrite
      (stBody (actOf w h st g) size)) := by
  show execSt w h false size s = _
  unfold execSt
  refine (State.issue_runs c 4 _).trans (congrArg _ ?_)
  dsimp only
  rw [writers_eq w h g none]
  exact if_neg Bool.false_ne_true

theorem memLanes_translates {s : State} {a : Act} {n : Nat} (aligned : ∀ x ∈ a.addrs false, x.2 % n = 0) (acc : Acc)
    (f : List LaneAddr → State → State) : s.memLanes a n acc f = match s.translateLanes a (a.addrs false) acc with
      | (.error (k, lv, pte, va), s) => s.park a k acc va lv pte 0 0
      | (.ok l, s) => if s.hasTags l then f l s else s := by
  unfold State.memLanes
  refine (if_neg ?_).trans ?_
  · simpa [List.any_eq_true] using aligned
  · rfl

theorem accessing_str (s : State) (w : Site) (h : Hdr) (st : Str) (g : Group) :
    (s.accessing w h st g).str? w.engine.val w.place.val = some { st with promoted := none } := by
  rw [State.accessing, State.str?, State.eng, State.bump_engines]
  exact State.issued_str s w 4 st

end

/-- Settles O15: translation leaves strings and bytes alone (`translateLanes_beside`), the lanes' stores leave the bytes of the
last lane that hits (`storeLanes_stores`), and a page fault parks the string (`park_parks`). -/
theorem storesWriteLocalMemory : Obligations.StoresWriteLocalMemory := by
  unfold Obligations.StoresWriteLocalMemory
  intro w h size s st g rest e p n k a c noHelpers wf aligned
  have runs : exec (.st w h false size) s = _ := execSt_runs c noHelpers
  rw [memLanes_translates aligned] at runs
  have accessed := onlyString_accessing s w h st g
  have beside : ∀ {r s1}, (s.accessing w h st g).translateLanes a (a.addrs false) accWrite = (r, s1) →
      s1.str? e p = some a.str ∧ s1.mem.cells = s.mem.cells := fun translated => by
    have b := translateLanes_beside (s.accessing w h st g) a (a.addrs false) accWrite
    rw [translated] at b
    exact ⟨(b.strings e p).trans (accessing_str s w h st g), b.cells.trans (by rw [accessed.mem])⟩
  refine ⟨fun l s1 translated tags fits => ?store, fun f s1 translated => ?fault⟩ <;> rw [translated] at runs <;>
    obtain ⟨resident, cells⟩ := beside translated
  case store =>
    obtain ⟨stored, bytes⟩ := storeLanes_stores s1 a (n := n)
      (data := fun i => leBytes n (st.vn h.src1.toNat i k)) (Nat.two_pow_pos _) (fun i => length_leBytes _ _) fits
      (cells ▸ wf)
    refine ⟨_, a.str.step, runs.trans (congrArg _ (if_pos tags)), str?_modStr ((stored.strings e p).trans resident) _,
      advanced_of_bare (w := w) (h := h) c.groups rfl, Str.vregs_step _, Str.preds_step _, Str.uregs_step _, stored.wf,
      fun b => (bytes b).trans ?_⟩
    rw [cells]
    split
    next x hit => exact congrArg (Option.elim · _ _) hit
    next miss => exact congrArg (Option.elim · _ _) miss
  case fault =>
    obtain ⟨kind, lv, pte, va⟩ := f
    obtain ⟨⟨id, parked⟩, kept⟩ := park_parks (a := a) resident kind accWrite va lv pte 0 0
    exact ⟨_, _, id, runs, parked, rfl, rfl, rfl, rfl, fun b => by rw [kept, cells]⟩

end Sys2Proof.Machine

/-! ## Launch and release of strings (R72 to R76, R385) -/

namespace Sys2Proof.Machine

set_option Elab.async false

/-! ### Places (R74) -/

theorem firstFree_free {α : Type} {m : Map α} (n : Nat) {lo p : Nat} (h : firstFree m lo n = some p) :
    p < lo + n ∧ mget m p = none := by
  induction n generalizing lo with
  | zero => cases h
  | succ n ih =>
    unfold firstFree at h
    split at h
    · have := ih h
      exact ⟨by omega, this.2⟩
    next free =>
      cases h
      exact ⟨by omega, by simpa [mhas] using free⟩

/-- The place of the next string is free, in one of the four slots of 16. -/
theorem placeFor_free {v : Eng} {regs p : Nat} (h : v.placeFor regs = some p) : p < 64 ∧ mget v.strs p = none := by
  unfold Eng.placeFor at h
  dsimp only at h
  split at h
  · cases h
  next a as fits =>
    have chosen : ∀ l : List Nat, as ⊆ l → a ∈ l →
        as.foldl (fun b x => if v.slotRegs x < v.slotRegs b then x else b) a ∈ l := fun l has ha =>
      List.foldlRecOn (motive := (· ∈ l)) as _ ha fun b hb x hx => by
        split
        · exact has hx
        · exact hb
    have slot := chosen (a :: as) (List.subset_cons_self _ _) List.mem_cons_self
    rw [← fits, List.mem_filter, List.mem_range] at slot
    have := firstFree_free _ h
    exact ⟨by omega, this.2⟩

/-- A group of strings is on the engine: each at a place that was free, with the strings that were there before. -/
structure Placed (v v' : Eng) (l : List (Nat × (Word → Str))) : Prop where
  rest : { v' with strs := v.strs, stamp := v.stamp } = v
  resident : ∀ p st, mget v.strs p = some st → mget v'.strs p = some st
  placed : ∀ x ∈ l, ∃ p stamp, mget v.strs p = none ∧ p < 64 ∧ mget v'.strs p = some (x.2 stamp)

theorem launchAll_placed (l : List (Nat × (Word → Str))) {v v' : Eng} (h : v.launchAll l = some v') : Placed v v' l := by
  induction l generalizing v with
  | nil =>
    cases h
    exact ⟨rfl, fun _ _ => id, fun _ hx => absurd hx List.not_mem_nil⟩
  | cons y l ih =>
    unfold Eng.launchAll at h
    split at h
    · cases h
    next p free =>
      obtain ⟨low, empty⟩ := placeFor_free free
      obtain ⟨rest, resident, placed⟩ := ih h
      have before : ∀ q st, mget v.strs q = some st → mget (mset v.strs p (y.2 v.stamp)) q = some st := fun q st hq => by
        rw [mget_mset_ne _ _ fun e => by rw [e, empty] at hq; cases hq]
        exact hq
      refine ⟨(congrArg (fun x : Eng => { x with strs := v.strs, stamp := v.stamp }) rest), fun q st hq =>
        resident q st (before q st hq), fun x hx => ?_⟩
      rcases List.mem_cons.1 hx with rfl | hx
      · exact ⟨p, v.stamp, empty, low, resident p _ (mget_mset_self _ _ _)⟩
      · obtain ⟨q, stamp, none, lt, at_⟩ := placed x hx
        refine ⟨q, stamp, ?_, lt, at_⟩
        cases hq : mget v.strs q with
        | none => rfl
        | some st => exact absurd (before q st hq) (by rw [none]; exact nofun)

/-! ### A workgroup of a dispatch -/

/-- String k of the next workgroup of a dispatch. -/
def Disp.string (d : Disp) (key k : Nat) (stamp : Word) : Str :=
  Str.launch d.queue d.cmd key .compute d.regs stamp d.entry (lowLanes (min 32 (d.threads - 32 * k)))
    (loop (min 32 (d.threads - 32 * k)) []
      (fun m l => if 32 * k + l = 0 then m else mset m l (BitVec.ofNat 32 (32 * k + l))))
    (if d.u2 = 0 then mset (mset [] 0 (BitVec.ofNat 64 d.next)) 1 d.args
      else mset (mset (mset [] 0 (BitVec.ofNat 64 d.next)) 1 d.args) 2 d.u2)

/-- The strings of the next workgroup, with their register counts. -/
def Disp.strings (d : Disp) (key : Nat) : List (Nat × (Word → Str)) :=
  (List.range ((d.threads + 31) / 32)).map (fun k => (d.regs, d.string key k))

/-- The next workgroup of a dispatch. -/
def Disp.workgroup (d : Disp) (seed : Nat) : Wg :=
  { queue := d.queue, cmd := d.cmd, index := d.next, threads := d.threads, exited := 0, strings := (d.threads + 31) / 32
    sharedSize := d.shared, shared := [], sharedSeed := seed, bars := [] }

/-- The engine after a launch. -/
def Eng.launched (v : Eng) (key : Nat) (g : Wg) (d : Disp) : Eng :=
  Eng.l1Shrink { v with
    wgs := mset v.wgs key g, nextWg := key + 1
    disps := v.disps.map (fun x => if x.queue = d.queue && x.cmd = d.cmd then { x with next := x.next + 1 } else x) }

theorem launchCompute_eq (s : State) (e : Nat) (d : Disp) : s.launchCompute e d
    = if d.total ≤ d.next || 196608 < (s.eng e).sharedBytes + d.shared then s
      else ((s.eng e).launchAll (d.strings (s.eng e).nextWg)).elim s
        (fun v => (s.setEng e (v.launched (s.eng e).nextWg (d.workgroup s.clk.fresh) d)).drew 1) := by
  show (if _ then s else match (s.eng e).launchAll (d.strings (s.eng e).nextWg) with
    | none => s
    | some v => (s.setEng e (v.launched (s.eng e).nextWg (d.workgroup s.clk.fresh) d)).drew 1) = _
  cases (s.eng e).launchAll (d.strings (s.eng e).nextWg) <;> rfl

/-- Thread numbers of string k: v0 holds 32 * k + l on lane l. -/
theorem threadNumbers (k n : Nat) (j : Nat) :
    mgetD (loop n [] (fun m l => if 32 * k + l = 0 then m else mset m l (BitVec.ofNat 32 (32 * k + l)))) j (0 : Word)
      = if j < n then BitVec.ofNat 32 (32 * k + j) else 0 := by
  unfold loop
  induction n with
  | zero => rfl
  | succ n ih =>
    rw [List.range_succ, List.foldl_append, List.foldl_cons, List.foldl_nil]
    by_cases here : j = n
    · subst here
      rw [if_pos (Nat.lt_succ_self _)]
      split
      next zero => rw [ih, if_neg (Nat.lt_irrefl _), zero]; rfl
      · exact mgetD_mset_self _ _ _ _
    · have other : ∀ m : Map Word, mgetD (if 32 * k + n = 0 then m else mset m n (BitVec.ofNat 32 (32 * k + n))) j 0
          = mgetD m j 0 := fun m => by
        split
        · rfl
        · exact mgetD_mset_ne _ _ _ here
      rw [other, ih]
      simp only [show j < n + 1 ↔ j < n by omega]

theorem lowLanes_min (n : Nat) : lowLanes (min 32 n) = lowLanes n := by
  unfold lowLanes
  rw [show min (min 32 n) 32 = min n 32 by omega]

section

variable (d : Disp) (key k : Nat) (stamp : Word)

theorem Disp.string_v (r l : Nat) : (d.string key k stamp).v r l
    = if 32 * r + l < min 32 (d.threads - 32 * k) then BitVec.ofNat 32 (32 * k + (32 * r + l)) else 0 :=
  threadNumbers k _ _

theorem Disp.string_u0 : (d.string key k stamp).u 0 = BitVec.ofNat 64 d.next := by
  show mgetD (if d.u2 = 0 then _ else _) 0 0 = _
  split
  · rw [mgetD_mset_ne _ _ _ (by decide), mgetD_mset_self]
  · rw [mgetD_mset_ne _ _ _ (by decide), mgetD_mset_ne _ _ _ (by decide), mgetD_mset_self]

theorem Disp.string_u1 : (d.string key k stamp).u 1 = d.args := by
  show mgetD (if d.u2 = 0 then _ else _) 1 0 = _
  split
  · rw [mgetD_mset_self]
  · rw [mgetD_mset_ne _ _ _ (by decide), mgetD_mset_self]

end

theorem launched_strs (v : Eng) (key : Nat) (g : Wg) (d : Disp) : (v.launched key g d).strs = v.strs := rfl
theorem launched_wgs (v : Eng) (key : Nat) (g : Wg) (d : Disp) : (v.launched key g d).wgs = mset v.wgs key g := rfl
theorem launched_nextWg (v : Eng) (key : Nat) (g : Wg) (d : Disp) : (v.launched key g d).nextWg = key + 1 := rfl

/-- A dispatch that has launched moves on by one workgroup. -/
theorem launched_disps {v : Eng} {i : Nat} {d : Disp} (h : v.disps[i]? = some d) (key : Nat) (g : Wg) :
    (v.launched key g d).disps[i]? = some { d with next := d.next + 1 } := by
  show (v.disps.map _)[i]? = _
  rw [List.getElem?_map, h, Option.map_some, if_pos (by simp)]

theorem execWorkgroupLaunch_compute {engine : Fin 32} {i : Nat} {s : State} {d : Disp} (ext : Option (List Byte))
    (working : s.working = true) (free : s.frozen engine.val = false) (inService : s.fenced 0 engine.val = false)
    (listed : (s.eng engine.val).disps[i]? = some d) :
    exec (.workgroupLaunch engine (.compute i) ext) s = .next (s.launchCompute engine.val d) := by
  show execWorkgroupLaunch engine (.compute i) ext s = _
  unfold execWorkgroupLaunch
  rw [if_neg (by simp [working, free, inService])]
  simp only [listed]

/-! ### A string of a draw -/

/-- Local memory is as before, and every string of an engine stays. -/
structure StringsStay (e : Nat) (s t : State) : Prop where
  mem : t.mem = s.mem
  resident : ∀ p st, s.str? e p = some st → t.str? e p = some st

theorem StringsStay.refl (e : Nat) (s : State) : StringsStay e s s := ⟨rfl, fun _ _ => id⟩

theorem launchString_stay (s : State) (e : Nat) (d : DrawRec) (kind : StrKind) (regs8 entry : Nat) (lanes : Word)
    (vregs : Map Word) (pixels cover : Map Nat) :
    StringsStay e s ((s.launchString e d kind regs8 entry lanes vregs pixels cover).getD s) := by
  unfold State.launchString
  dsimp only
  cases h : Eng.launchAll _ _ with
  | none => exact .refl e s
  | some v =>
    refine ⟨rfl, fun p st hp => ?_⟩
    show mget (State.eng (s.setEng e _) e).strs p = _
    rw [State.eng_setEng]
    exact (launchAll_placed _ h).resident p st hp

theorem launchFragment_stay (s : State) (e pass order prim : Nat) (quads : List Nat) :
    StringsStay e s (s.launchFragment e pass order prim quads) := by
  unfold State.launchFragment
  split
  · exact .refl e s
  · dsimp only
    split
    · exact .refl e s
    · split
      · exact .refl e s
      · exact launchString_stay _ _ _ _ _ _ _ _ _ _

section

variable (engine : Fin 32) (pass order prim : Nat) (l : List Nat) (ext : Option (List Byte)) (s : State)

theorem execWorkgroupLaunch_vertex : exec (.workgroupLaunch engine (.vertex pass order l) ext) s
    = if !s.working || s.frozen engine.val || s.fenced 0 engine.val then .next s
      else .next (s.launchVertex engine.val pass order l ext) := rfl

theorem execWorkgroupLaunch_fragment : exec (.workgroupLaunch engine (.fragment pass order prim l) ext) s
    = if !s.working || s.frozen engine.val || s.fenced 0 engine.val then .next s
      else .next (s.launchFragment engine.val pass order prim l) := rfl

end

/-! ### Release (R75, R76) -/

section

variable (s : State) (e : Nat)

theorem checkDisp_str (q cmd k p : Nat) : (s.checkDisp e q cmd).str? k p = s.str? k p := by
  unfold State.checkDisp
  dsimp only
  split
  · exact State.str?_modEng (f := fun v => { v with disps := v.disps.filter (fun d => !(d.queue = q && d.cmd = cmd)) })
      (fun _ => rfl) s e k p
  · rfl

theorem checkDisp_wg (q cmd n : Nat) : (s.checkDisp e q cmd).wg? e n = s.wg? e n := by
  unfold State.checkDisp
  dsimp only
  split
  · show mget (State.eng (s.setEng e _) e).wgs n = _
    rw [State.eng_setEng]
    rfl
  · rfl

theorem checkDisp_mem (q cmd : Nat) : (s.checkDisp e q cmd).mem = s.mem := by
  unfold State.checkDisp
  dsimp only
  split <;> rfl

theorem freeStr_str (place : Nat) (st : Str) (p : Nat) :
    (s.freeStr e place st).str? e p = if p = place then none else s.str? e p := by
  rw [State.str?, State.freeStr, State.eng_modEng]
  exact mget_merase _ _ _

theorem freeStr_wg (place : Nat) {st : Str} {v : Wg} (h : s.wg? e st.wg = some v) : (s.freeStr e place st).wg? e st.wg
    = if v.strings ≤ 1 then none else some { v with strings := v.strings - 1 } := by
  rw [State.wg?] at h
  rw [State.wg?, State.freeStr, State.eng_modEng]
  simp only [h]
  split
  · rw [mget_merase, if_pos rfl]
  · rw [mget_mset_self]

end

theorem execStringFree_frees {w : Site} {s : State} {st : Str} (working : s.working = true)
    (free : s.frozen w.engine.val = false) (resident : s.str? w.engine.val w.place.val = some st)
    (kind : st.kind = .compute) (drained : st.state = .draining) (settled : s.strOwed w.engine.val w.place.val = false) :
    exec (.stringFree w) s
      = .next ((s.freeStr w.engine.val w.place.val st).checkDisp w.engine.val st.queue st.cmd) := by
  show execStringFree w s = _
  unfold execStringFree
  simp only [resident]
  rw [if_neg (by simp [working, free, drained, settled])]
  simp only [kind]

theorem execStringFree_stays {w : Site} {s : State} {st : Str} (resident : s.str? w.engine.val w.place.val = some st)
    (held : st.state ≠ .draining ∨ s.strOwed w.engine.val w.place.val = true) : exec (.stringFree w) s = .next s := by
  show execStringFree w s = _
  unfold execStringFree
  simp only [resident]
  exact if_pos (by rcases held with h | h <;> simp [h])

/-- Settles O25: every string of the workgroup has found a place that was free (`launchAll_placed`), a fragment's string
leaves the others (`launchFragment_stay`), and a drained string leaves its place and its workgroup (`freeStr_str`,
`freeStr_wg`). -/
theorem workgroupsLaunchWholeAndLeaveWhole : Obligations.WorkgroupsLaunchWholeAndLeaveWhole := by
  unfold Obligations.WorkgroupsLaunchWholeAndLeaveWhole
  refine ⟨?compute, ?draw, ?release⟩
  case compute =>
    intro engine i ext s d e n key working free inService listed build fits
    have runs := execWorkgroupLaunch_compute ext working free inService listed
    rw [launchCompute_eq] at runs
    refine ⟨fun left room hfits => ?whole, fun hno => ?nothing⟩
    case whole =>
      obtain ⟨v, hv⟩ := Option.isSome_iff_exists.1 hfits
      have all := launchAll_placed (d.strings key) hv
      have room' : (s.eng engine.val).sharedBytes + d.shared ≤ 196608 := room
      rw [if_neg (by simp; omega), show Eng.launchAll _ (d.strings _) = some v from hv, Option.elim_some] at runs
      generalize ht : (s.setEng e (v.launched key (d.workgroup s.clk.fresh) d)).drew 1 = t at runs
      have eng : t.eng e = v.launched key (d.workgroup s.clk.fresh) d := by
        rw [← ht]
        exact State.eng_setEng _ _ _
      have str : ∀ p, t.str? e p = mget v.strs p := fun p => by rw [State.str?, eng, launched_strs]
      have disps : v.disps[i]? = some d := (congrArg (fun x : Eng => x.disps[i]?) all.rest).trans listed
      refine ⟨t, d.workgroup s.clk.fresh, runs, fun b => by rw [← ht]; rfl, ?wg, rfl, rfl, rfl, rfl, rfl, rfl, rfl,
        ?disp, ?next, fun p st hp => (str p).trans (all.resident p st hp), fun k hk => ?string⟩
      case wg => rw [State.wg?, eng, launched_wgs, mget_mset_self]
      case disp => rw [eng, launched_disps disps]
      case next => rw [eng, launched_nextWg]
      case string =>
        obtain ⟨p, stamp, empty, low, at_⟩ := all.placed _ (List.mem_map.2 ⟨k, List.mem_range.2 hk, rfl⟩)
        refine ⟨p, d.string key k stamp, empty, low, (str p).trans at_, rfl, rfl, rfl, rfl, rfl, ?groups, lowLanes_min _,
          d.string_u0 key k stamp, d.string_u1 key k stamp, fun l hl hlt => ?number, fun r l hr hl => ?zero,
          fun q hq => ?preds, rfl⟩
        case groups => rw [← lowLanes_min]; rfl
        case number => rw [Disp.string_v, if_pos (by omega)]; simp
        case zero => rw [Disp.string_v, if_neg (by omega)]
        case preds => exact if_neg (by omega)
    case nothing =>
      refine runs.trans (congrArg _ ?_)
      rcases hno with h | h | h
      · rw [if_pos (by simp [h])]
      · rw [if_pos (by simp [e] at h; simp [h])]
      · rw [show Eng.launchAll _ (d.strings _) = none from Option.not_isSome_iff_eq_none.1 h, Option.elim_none, ite_self]
  case draw =>
    intro engine pass order prim l ext s
    refine ⟨?vertex, ?fragment⟩
    case vertex =>
      rw [execWorkgroupLaunch_vertex]
      split <;> exact ⟨_, rfl⟩
    case fragment =>
      rw [execWorkgroupLaunch_fragment]
      split
      · exact ⟨_, rfl, fun _ => rfl, fun _ _ => id⟩
      · have stay := launchFragment_stay s engine.val pass order prim l
        exact ⟨_, rfl, fun b => by rw [stay.mem], stay.resident⟩
  case release =>
    intro w s st working free resident kind
    refine ⟨fun drained settled => ?_, execStringFree_stays resident⟩
    refine ⟨_, execStringFree_frees working free resident kind drained settled, ?gone, fun b => by rw [checkDisp_mem]; rfl,
      fun p hp => ?others, fun v hv => ?left⟩
    case gone => rw [checkDisp_str, freeStr_str, if_pos rfl]
    case others => rw [checkDisp_str, freeStr_str, if_neg hp]
    case left => rw [checkDisp_wg, freeStr_wg _ _ _ hv]

end Sys2Proof.Machine

/-! ## Tensor instructions at issue (R129, R131 to R135) -/

namespace Sys2Proof.Machine

set_option Elab.async false

section

variable {w : Site} {h : Hdr} {s : State} {st : Str} {g : Group} {rest : List Group}

/-- The registers of a tensor instruction: even pairs, and single uniform registers. -/
def tensorUse (pairs singles : List Nat) : Use :=
  { use0 with ru := (pairs.map (fun r => [r, r + 1])).flatten ++ singles, ok := pairs.all (· % 2 = 0) }

theorem eng_issued (s : State) (w : Site) (cls : Nat) (st : Str) : (s.issued w cls st).eng w.engine.val
    = { s.eng w.engine.val with strs := mset (s.eng w.engine.val).strs w.place.val { st with promoted := none } } := by
  rw [State.eng, issued_engines]
  exact State.eng_modEng s w.engine.val _

/-- A legal tensor instruction blocks its group while sixteen are outstanding, and goes on otherwise (R129). -/
theorem issueTensor_runs {pairs singles : List Nat} (c : CanIssue s w h (tensorUse pairs singles) st g rest)
    (hdr : tensorHdr h = true) (f : Act → State → State) :
    s.issueTensor w h true pairs singles f = .next (if 16 ≤ (s.eng w.engine.val).tensors.length then
      (s.issued w 0xA st).setStr w.engine.val w.place.val ((actOf w h st g).str.blockHead .tensorFull)
      else f (actOf w h st g) (s.issued w 0xA st)) := by
  unfold State.issueTensor
  rw [hdr, Bool.and_true]
  refine (State.issue_runs c 0xA _).trans (congrArg _ ?_)
  rw [show (actOf w h st g).e = w.engine.val from rfl, eng_issued]
  rfl

/-- The group waits, its lanes where they stand. -/
def TensorFull (s t : State) (w : Site) (g : Group) : Prop :=
  ∃ st', t.str? w.engine.val w.place.val = some st' ∧ OnlyString s t w
    ∧ ∃ y ∈ st'.groups, y.pc = g.pc ∧ y.mask = g.mask ∧ y.block = .tensorFull

theorem blockHead_tensorFull (s : State) (cls : Nat) (hg : st.groups = g :: rest) : TensorFull s
    ((s.issued w cls st).setStr w.engine.val w.place.val ((actOf w h st g).str.blockHead .tensorFull)) w g := by
  have r := Str.blockHead_regrouped (st := (actOf w h st g).str) hg .tensorFull
  exact ⟨_, State.str?_setStr _ _ _ _, (onlyString_issued s w cls st).setStr _, { g with block := .tensorFull },
    r.blocked { g with block := .tensorFull } List.mem_cons_self (fun e => nomatch e), rfl, rfl, rfl⟩

/-- The instruction has entered the queue of its engine, last, and its string has gone on; t is the instruction as it
was made, which the queue numbers. -/
structure Entered (s u : State) (a : Act) (t : TIns) : Prop where
  string : u.str? a.e a.place = some a.str.step
  memory : u.mem = s.mem
  queued : (u.eng a.e).tensors = (s.eng a.e).tensors ++ [{ t with id := (s.eng a.e).nextTensor }]
  number : (u.eng a.e).nextTensor = (s.eng a.e).nextTensor + 1

theorem pushTensor_entered (s : State) (a : Act) (t : TIns) : Entered s (s.pushTensor a t) a t := by
  refine ⟨State.str?_setStr _ _ _ _, rfl, ?_, ?_⟩ <;> simp [State.pushTensor, State.setStr]

theorem Entered.modEng {s u : State} {a : Act} {t : TIns} (h : Entered s u a t) {f : Eng → Eng}
    (strs : ∀ v, (f v).strs = v.strs) (tensors : ∀ v, (f v).tensors = v.tensors)
    (next : ∀ v, (f v).nextTensor = v.nextTensor) : Entered s (u.modEng a.e f) a t :=
  ⟨(State.str?_modEng strs u a.e a.e a.place).trans h.string, h.memory, by rw [State.eng_modEng, tensors, h.queued],
    by rw [State.eng_modEng, next, h.number]⟩

/-- A tensor instruction enters the queue where there is room, and blocks its group where there is none. -/
def EntersQueue (s : State) (w : Site) (st : Str) (g : Group) (rest : List Group) (i : Instr) (x : TIns) : Prop :=
  ((s.eng w.engine.val).tensors.length < 16 →
    ∃ t st', exec i s = .next t ∧ t.str? w.engine.val w.place.val = some st' ∧ Advanced st st' g rest
      ∧ st'.uregs = st.uregs ∧ MemoryKept s t
      ∧ (t.eng w.engine.val).tensors = (s.eng w.engine.val).tensors ++ [x]
      ∧ (t.eng w.engine.val).nextTensor = x.id + 1)
  ∧ (16 ≤ (s.eng w.engine.val).tensors.length →
    ∃ t st', exec i s = .next t ∧ t.str? w.engine.val w.place.val = some st' ∧ OnlyString s t w
      ∧ ∃ y ∈ st'.groups, y.pc = g.pc ∧ y.mask = g.mask ∧ y.block = .tensorFull)

/-- It stops its dispatch with an error where there is room. -/
def StopsDispatch (s : State) (w : Site) (st : Str) (i : Instr) (err : Nat) : Prop :=
  (s.eng w.engine.val).tensors.length < 16 → ∃ t, exec i s = .next t ∧ Stopped s t w.engine.val st.queue st.cmd err 0

variable {pairs singles : List Nat} {i : Instr} {f : Act → State → State}

theorem issueTensor_enters (c : CanIssue s w h (tensorUse pairs singles) st g rest) (hdr : tensorHdr h = true)
    (run : exec i s = s.issueTensor w h true pairs singles f) {t : TIns}
    (enters : Entered (s.issued w 0xA st) (f (actOf w h st g) (s.issued w 0xA st)) (actOf w h st g) t) :
    EntersQueue s w st g rest i { t with id := (s.eng w.engine.val).nextTensor } := by
  rw [issueTensor_runs c hdr] at run
  obtain ⟨string, memory, queued, number⟩ := enters
  rw [show (actOf w h st g).e = w.engine.val from rfl, eng_issued] at queued number
  constructor
  · intro room
    rw [if_neg (by omega)] at run
    refine ⟨_, _, run, string, ?_, Str.uregs_step _, fun a => ?_, queued, number⟩
    · exact advanced_of_bare c.groups rfl
    · rw [memory, (onlyString_issued s w 0xA st).mem]
  · intro full
    rw [if_pos full] at run
    obtain ⟨st', waits⟩ := blockHead_tensorFull (w := w) (h := h) s 0xA c.groups
    exact ⟨_, st', run, waits⟩

theorem issueTensor_stops (c : CanIssue s w h (tensorUse pairs singles) st g rest) (hdr : tensorHdr h = true)
    (run : exec i s = s.issueTensor w h true pairs singles f) {err : Nat}
    (stops : f (actOf w h st g) (s.issued w 0xA st) = (s.issued w 0xA st).trap w.engine.val st.queue st.cmd err 0) :
    StopsDispatch s w st i err := by
  intro room
  rw [issueTensor_runs c hdr, if_neg (by omega), stops] at run
  exact ⟨_, run, State.trap_stops (issued_queues s w 0xA st) _ _ _ _ _⟩

/-! ### The four kinds -/

variable {low : BitVec 26}

/-- The roles that a TMMA has on its engine (R110). -/
def tmmaRoles (e : Nat) (low : BitVec 26) : Bool × Bool × Bool :=
  if bits low.toNat 7 5 = 4 then gangRoles e (bit low.toNat 4) else (true, true, true)

/-- The pairs that a TMMA with these roles names. -/
def tmmaPairs (r : Bool × Bool × Bool) (low : BitVec 26) : List Nat :=
  (if r.1 then [bits low.toNat 25 20] else []) ++ (if r.2.1 then [bits low.toNat 19 14] else [])
    ++ (if r.2.2 then [bits low.toNat 13 8] else [])

/-- A TMMA on engine e as it is made from the registers of its string. -/
def tmmaIns (e : Nat) (low : BitVec 26) (a : Act) (s : State) : TIns :=
  let r := tmmaRoles e low
  { s.blankTensor a .tmma low with
    descA := if r.1 then a.str.pair (bits low.toNat 25 20) else 0
    descB := if r.2.1 then a.str.pair (bits low.toNat 19 14) else 0
    descC := if r.2.2 then a.str.pair (bits low.toNat 13 8) else 0
    gangSeq := if bits low.toNat 7 5 = 4 then
      ((s.eng e).disps.find? (fun d => decide (d.queue = a.str.queue) && decide (d.cmd = a.str.cmd))).map
        (fun d => d.gangOps)
      else none }

/-- Count a gang TMMA of a dispatch (R138). -/
def Eng.countGangOp (v : Eng) (q cmd : Nat) : Eng :=
  { v with disps := v.disps.map (fun d => if d.queue = q && d.cmd = cmd then { d with gangOps := d.gangOps + 1 } else d) }

/-- What a TMMA with legal fields does. -/
def tmmaBody (e : Nat) (low : BitVec 26) (a : Act) (s : State) : State :=
  if !(tmmaIns e low a s).tmmaLegal e (s.eng e).tb then s.trap e a.str.queue a.str.cmd eTensorDesc 0
  else if bits low.toNat 7 5 = 4 then
    (s.pushTensor a (tmmaIns e low a s)).modEng e (fun v => v.countGangOp a.str.queue a.str.cmd)
  else s.pushTensor a (tmmaIns e low a s)

/-- The string belongs to a gang layer on its engine. -/
def inGang (s : State) (w : Site) : Bool :=
  match s.str? w.engine.val w.place.val with
  | some st => (s.eng w.engine.val).disps.any (fun d => d.gang && d.queue = st.queue && d.cmd = st.cmd)
  | none => false

theorem execTmma_eq (w : Site) (h : Hdr) (low : BitVec 26) (s : State) :
    let r := tmmaRoles w.engine.val low
    exec (.tmma w h low) s = s.issueTensor w h (bits low.toNat 7 5 ≤ 4 && bits low.toNat 3 2 = 0
        && (bits low.toNat 7 5 ≠ 4 || inGang s w) && (r.1 || bits low.toNat 25 20 = 0)
        && (r.2.1 || bits low.toNat 19 14 = 0) && (r.2.2 || bits low.toNat 13 8 = 0)) (tmmaPairs r low) []
      (tmmaBody w.engine.val low) := rfl

/-- A TFILL or TSPILL as it is made from the registers of its string. -/
def moverIns (kind : TKind) (low : BitVec 26) (a : Act) (s : State) : TIns :=
  { s.blankTensor a kind low with
    descA := a.str.pair (bits low.toNat 25 20), addr := a.str.u (bits low.toNat 19 14)
    scaleAddr := a.str.u (bits low.toNat 19 14 + 1), pitch := a.str.u (bits low.toNat 13 8) }

/-- The rules forbid the region of a mover (R123, R132). -/
def TIns.moverBad (t : TIns) (tb : Nat) : Bool :=
  !t.a.legal t.descA tb || (t.xpose && t.a.row) || 262144 < t.a.rows * t.a.sliceBytes + t.a.scaleShape.1 * t.a.scaleShape.2

/-- An address or a pitch of a mover is misaligned (R132). -/
def TIns.moverMisaligned (t : TIns) : Bool :=
  t.addr.toNat % 16 ≠ 0 || bits t.pitch.toNat 31 0 % 16 ≠ 0
  || (t.a.code.isMx && (t.scaleAddr.toNat % 16 ≠ 0 || bits t.pitch.toNat 63 32 % 16 ≠ 0))

/-- What a mover with legal fields does. -/
def moverBody (kind : TKind) (low : BitVec 26) (a : Act) (s : State) : State :=
  if (moverIns kind low a s).moverBad (s.eng a.e).tb then s.trap a.e a.str.queue a.str.cmd eTensorDesc 0
  else if (moverIns kind low a s).moverMisaligned then s.trap a.e a.str.queue a.str.cmd eMisaligned 0
  else s.pushTensor a (moverIns kind low a s)

theorem execTfill_eq (w : Site) (h : Hdr) (low : BitVec 26) (s : State) : exec (.tfill w h low) s
    = s.issueTensor w h (bits low.toNat 6 0 = 0) [bits low.toNat 25 20, bits low.toNat 19 14] [bits low.toNat 13 8]
      (moverBody .tfill low) := rfl

theorem execTspill_eq (w : Site) (h : Hdr) (low : BitVec 26) (s : State) : exec (.tspill w h low) s
    = s.issueTensor w h (bits low.toNat 6 0 = 0) [bits low.toNat 25 20, bits low.toNat 19 14] [bits low.toNat 13 8]
      (moverBody .tspill low) := rfl

/-- A TCVT as it is made from the registers of its string. -/
def tcvtIns (low : BitVec 26) (a : Act) (s : State) : TIns :=
  { s.blankTensor a .tcvt low with descB := a.str.pair (bits low.toNat 25 20), descC := a.str.pair (bits low.toNat 19 14) }

/-- The rules forbid a region of a TCVT, or the two together (R134). -/
def TIns.tcvtBad (t : TIns) (tb : Nat) : Bool :=
  !t.b.legal t.descB tb || !t.c.legal t.descC tb || t.b.rows ≠ t.c.rows || t.b.cols ≠ t.c.cols || t.b.row ≠ t.c.row

/-- What a TCVT with legal fields does. -/
def tcvtBody (low : BitVec 26) (a : Act) (s : State) : State :=
  if (tcvtIns low a s).tcvtBad (s.eng a.e).tb then s.trap a.e a.str.queue a.str.cmd eTensorDesc 0
  else s.pushTensor a (tcvtIns low a s)

theorem execTcvt_eq (w : Site) (h : Hdr) (low : BitVec 26) (s : State) : exec (.tcvt w h low) s
    = s.issueTensor w h (bits low.toNat 13 4 = 0 && bits low.toNat 3 2 ≠ 3 && bits low.toNat 0 0 = 0)
      [bits low.toNat 25 20, bits low.toNat 19 14] [] (tcvtBody low) := rfl

end


theorem tensorUse_nil (pairs : List Nat) : tensorUse pairs []
    = { use0 with ru := (pairs.map (fun r => [r, r + 1])).flatten, ok := pairs.all (· % 2 = 0) } := by
  rw [tensorUse, List.append_nil]

/-- Where a TMMA with legal fields issues: it enters the queue, or stops its dispatch for its descriptors. -/
theorem tmma_settles {w : Site} {h : Hdr} {s : State} {st : Str} {g : Group} {rest : List Group} {low : BitVec 26}
    (c : CanIssue s w h (tensorUse (tmmaPairs (tmmaRoles w.engine.val low) low) []) st g rest) (hdr : tensorHdr h = true)
    (run : exec (.tmma w h low) s = s.issueTensor w h true (tmmaPairs (tmmaRoles w.engine.val low) low) []
      (tmmaBody w.engine.val low)) {x : TIns}
    (made : x = { tmmaIns w.engine.val low (actOf w h st g) s with id := (s.eng w.engine.val).nextTensor }) :
    (x.tmmaLegal w.engine.val (s.eng w.engine.val).tb = true → EntersQueue s w st g rest (.tmma w h low) x)
    ∧ (x.tmmaLegal w.engine.val (s.eng w.engine.val).tb = false → StopsDispatch s w st (.tmma w h low) 0x0104) := by
  have ins : tmmaIns w.engine.val low (actOf w h st g) (s.issued w 0xA st)
      = tmmaIns w.engine.val low (actOf w h st g) s := by
    rw [tmmaIns, eng_issued]
    rfl
  have legalEq : x.tmmaLegal w.engine.val (s.eng w.engine.val).tb
      = (tmmaIns w.engine.val low (actOf w h st g) s).tmmaLegal w.engine.val (s.eng w.engine.val).tb := by rw [made]; rfl
  have tb : ((s.issued w 0xA st).eng w.engine.val).tb = (s.eng w.engine.val).tb := by rw [eng_issued]
  rw [legalEq]
  constructor
  · intro legal
    rw [made]
    refine issueTensor_enters c hdr run ?_
    have entered := pushTensor_entered (s.issued w 0xA st) (actOf w h st g) (tmmaIns w.engine.val low (actOf w h st g) s)
    rw [tmmaBody, ins, tb, legal, if_neg (by decide)]
    split
    · exact entered.modEng (fun _ => rfl) (fun _ => rfl) (fun _ => rfl)
    · exact entered
  · intro illegal
    refine issueTensor_stops c hdr run ?_
    rw [tmmaBody, ins, tb, illegal, if_pos (by decide)]
    rfl

/-- Where a TFILL or TSPILL with legal fields issues. -/
theorem mover_settles {w : Site} {h : Hdr} {s : State} {st : Str} {g : Group} {rest : List Group} {low : BitVec 26}
    {kind : TKind} {i : Instr}
    (c : CanIssue s w h (tensorUse [bits low.toNat 25 20, bits low.toNat 19 14] [bits low.toNat 13 8]) st g rest)
    (hdr : tensorHdr h = true)
    (run : exec i s = s.issueTensor w h true [bits low.toNat 25 20, bits low.toNat 19 14] [bits low.toNat 13 8]
      (moverBody kind low)) {x : TIns}
    (made : x = { moverIns kind low (actOf w h st g) s with id := (s.eng w.engine.val).nextTensor }) :
    (x.moverBad (s.eng w.engine.val).tb = false → x.moverMisaligned = false → EntersQueue s w st g rest i x)
    ∧ (x.moverBad (s.eng w.engine.val).tb = true → StopsDispatch s w st i 0x0104)
    ∧ (x.moverBad (s.eng w.engine.val).tb = false → x.moverMisaligned = true → StopsDispatch s w st i 0x0102) := by
  have tb : ((s.issued w 0xA st).eng (actOf w h st g).e).tb = (s.eng w.engine.val).tb := by
    rw [show (actOf w h st g).e = w.engine.val from rfl, eng_issued]
  have bad : (moverIns kind low (actOf w h st g) (s.issued w 0xA st)).moverBad (s.eng w.engine.val).tb
      = x.moverBad (s.eng w.engine.val).tb := by rw [made]; rfl
  have mis : (moverIns kind low (actOf w h st g) (s.issued w 0xA st)).moverMisaligned = x.moverMisaligned := by
    rw [made]; rfl
  have body : moverBody kind low (actOf w h st g) (s.issued w 0xA st)
      = if x.moverBad (s.eng w.engine.val).tb then
          (s.issued w 0xA st).trap w.engine.val st.queue st.cmd eTensorDesc 0
        else if x.moverMisaligned then (s.issued w 0xA st).trap w.engine.val st.queue st.cmd eMisaligned 0
        else (s.issued w 0xA st).pushTensor (actOf w h st g) (moverIns kind low (actOf w h st g) s) := by
    rw [moverBody, tb, bad, mis]
    rfl
  refine ⟨fun nb nm => ?_, fun b => ?_, fun nb m => ?_⟩
  · rw [made]
    refine issueTensor_enters c hdr run ?_
    rw [body, nb, nm, if_neg (by decide), if_neg (by decide)]
    exact pushTensor_entered _ _ _
  · exact issueTensor_stops c hdr run (by rw [body, b, if_pos rfl]; rfl)
  · exact issueTensor_stops c hdr run (by rw [body, nb, m, if_neg (by decide), if_pos rfl]; rfl)

/-- Where a TCVT with legal fields issues. -/
theorem tcvt_settles {w : Site} {h : Hdr} {s : State} {st : Str} {g : Group} {rest : List Group} {low : BitVec 26}
    (c : CanIssue s w h (tensorUse [bits low.toNat 25 20, bits low.toNat 19 14] []) st g rest) (hdr : tensorHdr h = true)
    (run : exec (.tcvt w h low) s = s.issueTensor w h true [bits low.toNat 25 20, bits low.toNat 19 14] []
      (tcvtBody low)) {x : TIns}
    (made : x = { tcvtIns low (actOf w h st g) s with id := (s.eng w.engine.val).nextTensor }) :
    (x.tcvtBad (s.eng w.engine.val).tb = false → EntersQueue s w st g rest (.tcvt w h low) x)
    ∧ (x.tcvtBad (s.eng w.engine.val).tb = true → StopsDispatch s w st (.tcvt w h low) 0x0104) := by
  have tb : ((s.issued w 0xA st).eng (actOf w h st g).e).tb = (s.eng w.engine.val).tb := by
    rw [show (actOf w h st g).e = w.engine.val from rfl, eng_issued]
  have bad : (tcvtIns low (actOf w h st g) (s.issued w 0xA st)).tcvtBad (s.eng w.engine.val).tb
      = x.tcvtBad (s.eng w.engine.val).tb := by rw [made]; rfl
  have body : tcvtBody low (actOf w h st g) (s.issued w 0xA st)
      = if x.tcvtBad (s.eng w.engine.val).tb then
          (s.issued w 0xA st).trap w.engine.val st.queue st.cmd eTensorDesc 0
        else (s.issued w 0xA st).pushTensor (actOf w h st g) (tcvtIns low (actOf w h st g) s) := by
    rw [tcvtBody, tb, bad]
    rfl
  refine ⟨fun nb => ?_, fun b => ?_⟩
  · rw [made]
    refine issueTensor_enters c hdr run ?_
    rw [body, nb, if_neg (by decide)]
    exact pushTensor_entered _ _ _
  · exact issueTensor_stops c hdr run (by rw [body, b, if_pos rfl]; rfl)

/-- A string with a gang dispatch of its command belongs to a gang layer. -/
theorem inGang_of {s : State} {w : Site} {st : Str} (str : s.str? w.engine.val w.place.val = some st)
    (gang : ∃ d ∈ (s.eng w.engine.val).disps, d.gang = true ∧ d.queue = st.queue ∧ d.cmd = st.cmd) :
    inGang s w = true := by
  obtain ⟨d, mem, flag, queue, cmd⟩ := gang
  rw [inGang, str]
  exact List.any_eq_true.2 ⟨d, mem, by simp [flag, queue, cmd]⟩

/-- Settles O18: a tensor instruction issues through issueTensor, and each kind then enters, waits or stops. -/
theorem tensorInstructionsEnterTheQueue : Obligations.TensorInstructionsEnterTheQueue := by
  unfold Obligations.TensorInstructionsEnterTheQueue
  intro w h low s st g rest e p f enters stops blank hdr
  refine ⟨?_, ?_, ?_⟩
  · intro ua ub uc shape mine roles uses x c shapeOk zero gang ra rb rc
    have gangOk : bits low.toNat 7 5 = 4 → inGang s w = true := fun four => inGang_of c.resident (gang four)
    have legal : (bits low.toNat 7 5 ≤ 4 && bits low.toNat 3 2 = 0 && (bits low.toNat 7 5 ≠ 4 || inGang s w)
        && ((tmmaRoles e low).1 || bits low.toNat 25 20 = 0) && ((tmmaRoles e low).2.1 || bits low.toNat 19 14 = 0)
        && ((tmmaRoles e low).2.2 || bits low.toNat 13 8 = 0)) = true := by
      simp only [Bool.and_eq_true, Bool.or_eq_true, decide_eq_true_eq]
      exact ⟨⟨⟨⟨⟨shapeOk, zero⟩, (Decidable.em _).symm.imp_right gangOk⟩, ra⟩, rb⟩, rc⟩
    have made : x = { tmmaIns e low (actOf w h st g) s with id := (s.eng e).nextTensor } := by
      simp only [x, mine, Bool.decide_and]
      rfl
    refine tmma_settles (by rw [tensorUse_nil]; exact c) hdr ?_ made
    rw [execTmma_eq, legal]
  · intro ud ua up x d bad mis c zero
    have badEq : x.moverBad (s.eng e).tb = true ↔ bad := by
      simp [TIns.moverBad, bad, d, or_assoc]
    have misEq : x.moverMisaligned = true ↔ mis := by
      simp [TIns.moverMisaligned, mis, d, or_assoc]
    have fill := mover_settles (kind := .tfill) (i := .tfill w h low) c hdr (by rw [execTfill_eq, decide_eq_true zero]) rfl
    have spill := mover_settles (kind := .tspill) (i := .tspill w h low) c hdr
      (by rw [execTspill_eq, decide_eq_true zero]) rfl
    refine ⟨fun nb nm => ?_, fun b => ?_, fun nb m => ?_⟩
    · have nb' := Bool.eq_false_iff.2 (mt badEq.1 nb)
      have nm' := Bool.eq_false_iff.2 (mt misEq.1 nm)
      exact ⟨fill.1 nb' nm', spill.1 nb' nm'⟩
    · exact ⟨fill.2.1 (badEq.2 b), spill.2.1 (badEq.2 b)⟩
    · have nb' := Bool.eq_false_iff.2 (mt badEq.1 nb)
      exact ⟨fill.2.2 nb' (misEq.2 m), spill.2.2 nb' (misEq.2 m)⟩
  · intro us ud x good c z1 z2 z3
    have badEq : x.tcvtBad (s.eng e).tb = false ↔ good := by
      simp [TIns.tcvtBad, good, and_assoc]
    have fields : (bits low.toNat 13 4 = 0 && bits low.toNat 3 2 ≠ 3 && bits low.toNat 0 0 = 0) = true := by
      simp only [Bool.and_eq_true, decide_eq_true_eq]
      exact ⟨⟨z1, z2⟩, z3⟩
    obtain ⟨enter, stop⟩ := tcvt_settles (by rw [tensorUse_nil]; exact c) hdr (by rw [execTcvt_eq, fields]) (x := x) rfl
    exact ⟨fun ok => enter (badEq.2 ok), fun ng => stop (by simpa using mt badEq.1 ng)⟩

end Sys2Proof.Machine

/-! ## TWAIT, and what the completion of a tensor instruction leaves (R129, R135) -/

namespace Sys2Proof.Machine

set_option Elab.async false

/-! ### Completion -/

/-- Tensor instructions that a string has issued for its command and that are not complete. -/
def Eng.owed (v : Eng) (p q cmd : Nat) : Nat :=
  (v.tensors.filter (fun y => y.place = p && y.queue = q && y.cmd = cmd)).length

/-- Blocks that the completion of a tensor instruction ends where its string has `left` more (R129, R135). -/
def tensorFrees (left : Nat) : Block → Bool
  | .tensor n => decide (left ≤ n)
  | .tensorFull => true
  | _ => false

/-- The engine without a tensor instruction, its strings freed. -/
def Eng.retire (v : Eng) (id : Nat) : Eng :=
  let v' := { v with tensors := v.tensors.filter (fun x => x.id ≠ id) }
  { v' with strs := mmap v.strs (fun p st => st.unblock (tensorFrees (v'.owed p st.queue st.cmd))) }

theorem retireTensor_eq (s : State) (e : Nat) (t : TIns) : s.retireTensor e t
    = ((((s.modEng e (fun v => { v with tensors := v.tensors.filter (fun x => x.id ≠ t.id) })).progress e 1).modEng e
        (fun v => { v with strs := mmap v.strs (fun p st =>
          st.unblock (tensorFrees (v.owed p st.queue st.cmd))) })).checkDisp e t.queue t.cmd) := by
  unfold State.retireTensor
  rfl

section

variable (s : State) (e : Nat)

/-- The end of a dispatch changes nothing of an engine but its dispatches. -/
theorem checkDisp_eng {α : Type} (f : Eng → α) (hf : ∀ v d, f { v with disps := d } = f v) (q cmd k : Nat) :
    f ((s.checkDisp e q cmd).eng k) = f (s.eng k) := by
  unfold State.checkDisp
  dsimp only
  split
  · show f (State.eng (s.setEng e _) k) = _
    by_cases hk : k = e
    · rw [hk, State.eng_setEng, hf]
    · rw [State.eng_setEng_ne s _ hk]
  · rfl

@[simp] theorem eng_progress (u n k : Nat) : (s.progress u n).eng k = s.eng k := rfl

/-- What an engine is after a completion, but for its dispatches. -/
theorem retireTensor_eng {α : Type} (f : Eng → α) (hf : ∀ v d, f { v with disps := d } = f v) (t : TIns) :
    f ((s.retireTensor e t).eng e) = f ((s.eng e).retire t.id) := by
  rw [retireTensor_eq, checkDisp_eng _ e f hf, State.eng_modEng, eng_progress, State.eng_modEng]
  rfl

@[simp] theorem retireTensor_mem (t : TIns) : (s.retireTensor e t).mem = s.mem := by
  rw [retireTensor_eq, checkDisp_mem]
  rfl

@[simp] theorem retireTensor_tensors (t : TIns) :
    ((s.retireTensor e t).eng e).tensors = (s.eng e).tensors.filter (fun x => x.id ≠ t.id) :=
  retireTensor_eng s e Eng.tensors (fun _ _ => rfl) t

@[simp] theorem retireTensor_tile (t : TIns) : ((s.retireTensor e t).eng e).tile = (s.eng e).tile :=
  retireTensor_eng s e Eng.tile (fun _ _ => rfl) t

theorem retireTensor_str (t : TIns) (p : Nat) : (s.retireTensor e t).str? e p = (s.str? e p).map (fun st =>
    st.unblock (tensorFrees (((s.retireTensor e t).eng e).owed p st.queue st.cmd))) := by
  have owed : ∀ p q cmd, ((s.retireTensor e t).eng e).owed p q cmd = ((s.eng e).retire t.id).owed p q cmd :=
    fun p q cmd => retireTensor_eng s e (fun v => v.owed p q cmd) (fun _ _ => rfl) t
  simp only [owed]
  rw [State.str?, retireTensor_eng s e Eng.strs (fun _ _ => rfl)]
  exact mget_mmap (s.eng e).strs
    (fun p (st : Str) => st.unblock (tensorFrees (((s.eng e).retire t.id).owed p st.queue st.cmd))) p

end

/-- A blocked group that a test does not open stays. -/
theorem Str.unblock_blocked {st : Str} {p : Block → Bool} {g : Group} (mem : g ∈ st.groups) (kept : p g.block = false)
    (blocked : g.block ≠ .open) : g ∈ (st.unblock p).groups := by
  let f : Group → Group := fun g => if p g.block then { g with block := .open } else g
  have r : Regrouped { st with groups := st.groups.map f } (st.unblock p) := Str.settle_regrouped _
  have same : f g = g := if_neg (by simp [kept])
  exact r.blocked g (List.mem_map.2 ⟨g, mem, same⟩) blocked

/-- A string after a completion: its command is as before, no group waits for a count that is met, and a group that waits
for a count that is not met stays. -/
structure Freed (old st : Str) (left : Nat) : Prop where
  queue : st.queue = old.queue
  cmd : st.cmd = old.cmd
  counts : ∀ g ∈ st.groups, ∀ n, g.block = .tensor n → n < left
  room : ∀ g ∈ st.groups, g.block ≠ .tensorFull
  waits : ∀ g ∈ old.groups, ∀ n, g.block = .tensor n → n < left → g ∈ st.groups

theorem unblock_freed (old : Str) (left : Nat) : Freed old (old.unblock (tensorFrees left)) left := by
  obtain ⟨rest, _, opened⟩ := old.unblock_leaves (tensorFrees left)
  refine ⟨(congrArg Str.queue rest :), (congrArg Str.cmd rest :), fun g hg n hb => ?_, fun g hg hb => ?_,
    fun g hg n hb hn => ?_⟩
  · by_contra met
    have := opened g hg (by rw [hb]; exact decide_eq_true (by omega))
    rw [hb] at this
    cases this
  · have := opened g hg (by rw [hb]; rfl)
    rw [hb] at this
    cases this
  · exact Str.unblock_blocked hg (by rw [hb]; exact decide_eq_false (by omega)) (by rw [hb]; exact fun e => nomatch e)

/-- Every string after a completion comes from the string that was at its place. -/
theorem retireTensor_frees (s : State) (e : Nat) (t : TIns) {p : Nat} {st : Str}
    (h : (s.retireTensor e t).str? e p = some st) : ∃ old, s.str? e p = some old
      ∧ Freed old st (((s.retireTensor e t).eng e).owed p st.queue st.cmd) := by
  rw [retireTensor_str] at h
  obtain ⟨old, resident, rfl⟩ := Option.map_eq_some_iff.1 h
  have freed := unblock_freed old (((s.retireTensor e t).eng e).owed p old.queue old.cmd)
  refine ⟨old, resident, ?_⟩
  rw [freed.queue, freed.cmd]
  exact freed

/-- A started TMMA completes: what it does to the tile has been done at its start (log entry 77). -/
theorem completes_tmma {engine : Fin 32} {id : Nat} (host : Option (List Byte)) {s : State} {t : TIns}
    (working : s.working = true) (free : s.frozen engine.val = false)
    (found : (s.eng engine.val).tensors.find? (fun y => y.id = id) = some t) (kind : t.kind = .tmma)
    (started : t.started = true) :
    exec (.tensorInstructionComplete engine id host) s = .next (s.retireTensor engine.val t) := by
  show execTensorInstructionComplete engine id host s = _
  unfold execTensorInstructionComplete
  simp only [found, kind]
  exact if_neg (by simp [working, free, started])

/-! ### TWAIT -/

section

variable {w : Site} {h : Hdr} {low : BitVec 26} {s : State} {st : Str} {g : Group} {rest : List Group}

theorem execTwait_runs (c : CanIssue s w h use0 st g rest) (hdr : tensorHdr h = true) (zero : bits low.toNat 17 0 = 0) :
    exec (.twait w h low) s = .next ((s.issued w 0xA st).setStr w.engine.val w.place.val
      (if (s.eng w.engine.val).owed w.place.val st.queue st.cmd ≤ bits low.toNat 25 18 then (actOf w h st g).str.step
        else (actOf w h st g).str.step.blockHead (.tensor (bits low.toNat 25 18)))) := by
  show execTwait w h low s = _
  unfold execTwait
  rw [hdr, decide_eq_true zero]
  refine (State.issue_runs c 0xA _).trans (congrArg _ ?_)
  rw [show (actOf w h st g).e = w.engine.val from rfl, eng_issued]
  rfl

end

/-- Settles O19: TWAIT steps or blocks by the count of its string's instructions, a string that waits may not issue
(`State.issue_stays`), and a completion opens exactly the groups whose count is met (`retireTensor_frees`). -/
theorem twaitHoldsUntilFewRemain : Obligations.TwaitHoldsUntilFewRemain := by
  unfold Obligations.TwaitHoldsUntilFewRemain
  refine ⟨?wait, ?waiting, ?completion⟩
  case wait =>
    intro w h low s st g rest n own c hdr zero
    have run := execTwait_runs c hdr zero
    rcases Nat.lt_or_ge (bits low.toNat 25 18) ((s.eng w.engine.val).owed w.place.val st.queue st.cmd) with many | few
    · rw [if_neg (Nat.not_le.2 many)] at run
      obtain ⟨same, _, blocked⟩ := step_blockHead w h c.groups (.tensor n) fun e => nomatch e
      refine ⟨_, _, run, State.str?_setStr _ _ _ _, (onlyString_issued s w 0xA st).setStr _, ?_, ?_, ?_,
        fun le => absurd many (Nat.not_lt.2 le), fun _ => blocked⟩
      · exact (Str.vregs_of_butGroups same).trans (Str.vregs_step _)
      · exact (Str.preds_of_butGroups same).trans (Str.preds_step _)
      · exact (Str.uregs_of_butGroups same).trans (Str.uregs_step _)
    · rw [if_pos few] at run
      exact ⟨_, _, run, State.str?_setStr _ _ _ _, (onlyString_issued s w 0xA st).setStr _, Str.vregs_step _,
        Str.preds_step _, Str.uregs_step _, fun _ => advanced_of_bare c.groups rfl,
        fun many => absurd many (Nat.not_lt.2 few)⟩
  case waiting =>
    intro w h low s st g rest n resident groups blocked
    have cannot : CannotIssue s w := by
      refine Or.inr (Or.inr fun x hx => Or.inr (Or.inr fun y ys hy => Or.inl ?_))
      rw [resident] at hx
      obtain rfl := Option.some.inj hx
      rw [groups] at hy
      obtain ⟨rfl, _⟩ := List.cons.inj hy
      rw [blocked]
      exact fun e => nomatch e
    have stays : ∀ i, issueSite i = some w → exec i s = .next s := fun i site =>
      nothingIssuesFromAStringThatCannot i w s site cannot
    exact ⟨stays _ rfl, stays _ rfl, stays _ rfl⟩
  case completion =>
    intro engine id host s x e working free found kind started
    refine ⟨_, completes_tmma host working free found kind started, fun p st resident => ?_⟩
    obtain ⟨old, was, freed⟩ := retireTensor_frees s e x resident
    refine ⟨freed.counts, fun old' was' g hg n hb hn => ?_⟩
    rw [was] at was'
    obtain rfl := Option.some.inj was'
    exact ⟨g, freed.waits g hg n hb hn, hb, rfl, rfl⟩

end Sys2Proof.Machine

/-! ## Tensor instructions start and complete (R129, R130, R132 to R135, R138) -/

namespace Sys2Proof.Machine

set_option Elab.async false

/-! ### Translation and reads leave the engines alone -/

theorem CacheOnly.enginesKept {s t : State} (h : CacheOnly s t) : EnginesKept s t := by
  obtain ⟨_, _, _, _, rfl⟩ := h
  rfl

theorem report_enginesKept {code : Nat} (class1 : faultClass code = 1) (s : State) (kind index addr info : Nat) :
    EnginesKept s (s.report code kind index addr info) := recordFaultBy_engines class1 s false

theorem readPhys_enginesKept (s : State) (pa n pol : Nat) : EnginesKept s (s.readPhys pa n pol).2 := by
  unfold State.readPhys
  split
  case h_1 => exact (CacheOnly.foldl (fun s p => s.lineRead_cacheOnly _ _) _ s).enginesKept
  case h_2 =>
    dsimp only
    split <;> exact (s.bump_cacheOnly blkL2C _ 6 1).enginesKept
  case h_3 => exact report_enginesKept (by decide) s _ _ _ _
  case h_4 => exact report_enginesKept (by decide) s _ _ _ _

theorem tlbFill_enginesKept (s : State) (agent : Nat) (e : TlbEnt) : EnginesKept s (s.tlbFill agent e) := by
  unfold State.tlbFill
  split <;> rfl

theorem walkFrom_enginesKept (asid va n : Nat) :
    ∀ (s : State) (table : Nat), EnginesKept s (s.walkFrom asid va table n).2 := by
  induction n with
  | zero => exact fun s _ => .refl s
  | succ n ih =>
    intro s table
    unfold State.walkFrom
    have read := readPhys_enginesKept s (table + 8 * bits va (20 + 9 * n) (12 + 9 * n)) 8 0
    have walked : ∀ t w next, EnginesKept s t → EnginesKept s ((State.walkFill t w).walkFrom asid va next n).2 :=
      fun t w next h => h.trans (ih (t.walkFill w) next)
    dsimp only
    split_ifs
    exacts [read, read, read, read, walked _ _ _ read]

theorem walkTable_enginesKept (s : State) (asid va : Nat) : EnginesKept s (s.walkTable asid va).2 := by
  unfold State.walkTable
  split
  · exact .refl s
  · have counted : EnginesKept s (s.bump blkMMU 0 2 1) := (s.bump_cacheOnly _ _ _ _).enginesKept
    dsimp only
    split
    next w _ => exact counted.trans (walkFrom_enginesKept asid va _ ((s.bump blkMMU 0 2 1).walkFill w) _)
    · exact counted.trans (walkFrom_enginesKept _ _ _ _ _)

theorem translate_enginesKept (s : State) (agent asid va : Nat) (acc : Acc) :
    EnginesKept s (s.translate agent asid va acc).2 := by
  have filled : ∀ (t : State) (e : TlbEnt), EnginesKept s t → EnginesKept s ((t.stlbFill va e).tlbFill agent e) :=
    fun t e h => h.trans (tlbFill_enginesKept (t.stlbFill va e) agent e)
  unfold State.translate
  split_ifs
  · exact .refl s
  · exact .refl s
  · split
    · exact tlbFill_enginesKept s agent _
    · split
      · exact filled _ _ (s.bump_cacheOnly _ _ _ _).enginesKept
      · have walked := (s.bump_cacheOnly blkMMU 0 1 1).enginesKept.trans (walkTable_enginesKept _ asid va)
        split
        next walk =>
          rw [walk] at walked
          exact walked
        next walk =>
          rw [walk] at walked
          exact filled _ _ walked

/-- The engines and the bytes of local memory are as before. -/
structure ReadsOnly (s t : State) : Prop where
  engines : EnginesKept s t
  cells : t.mem.cells = s.mem.cells

theorem ReadsOnly.refl (s : State) : ReadsOnly s s := ⟨.refl s, rfl⟩
theorem ReadsOnly.trans {s t u : State} (h : ReadsOnly s t) (k : ReadsOnly t u) : ReadsOnly s u :=
  ⟨h.engines.trans k.engines, k.cells.trans h.cells⟩
theorem ReadsOnly.eng {s t : State} (h : ReadsOnly s t) (e : Nat) : t.eng e = s.eng e := by
  rw [State.eng, h.engines]
  rfl

theorem translate_readsOnly (s : State) (agent asid va : Nat) (acc : Acc) :
    ReadsOnly s (s.translate agent asid va acc).2 :=
  ⟨translate_enginesKept s agent asid va acc, (translate_beside s agent asid va acc).cells⟩

theorem readPhys_readsOnly (s : State) (pa n pol : Nat) : ReadsOnly s (s.readPhys pa n pol).2 :=
  ⟨readPhys_enginesKept s pa n pol, (s.readPhys_cells pa n pol).1⟩

theorem pieces_readsOnly (s : State) (agent asid va n : Nat) (acc : Acc) :
    ReadsOnly s (s.pieces agent asid va n acc).2 := by
  unfold State.pieces
  split
  · exact .refl s
  · refine List.foldlRecOn (motive := fun r : Except _ _ × State => ReadsOnly s r.2) _ _ (.refl s) fun r hr i _ => ?_
    split
    · exact hr
    next l t =>
      have next := hr.trans (translate_readsOnly t agent asid (max va ((va / 4096 + i) * 4096)) acc)
      dsimp only
      split
      next ok =>
        rw [ok] at next
        exact next
      next fault =>
        rw [fault] at next
        exact next

theorem moverPieces_readsOnly (s : State) (e asid : Nat) (rows : List (Nat × Nat)) (acc : Acc) :
    ReadsOnly s (s.moverPieces e asid rows acc).2 := by
  unfold State.moverPieces
  refine List.foldlRecOn (motive := fun r : Except _ _ × State => ReadsOnly s r.2) _ _ (.refl s) fun r hr p _ => ?_
  have next := hr.trans (pieces_readsOnly r.2 e asid p.1 p.2 acc)
  split
  · exact hr
  · split
    next ok =>
      rw [ok] at next
      exact next
    next fault =>
      rw [fault] at next
      exact next

theorem moverRead_readsOnly (s : State) (rows : List (List (Nat × Nat × Nat × Nat × Nat × Bool)))
    (ext : Option (List Byte)) : ReadsOnly s (s.moverRead rows ext).2 := by
  unfold State.moverRead
  refine List.foldlRecOn (motive := fun r : (List (List Byte) × Bool × List Byte) × State => ReadsOnly s r.2) rows _
    (.refl s) fun r hr ps _ => ?_
  refine List.foldlRecOn (motive := fun r : (List Byte × Bool × List Byte) × State => ReadsOnly s r.2) ps _ hr
    fun r hr p _ => ?_
  dsimp only
  split
  · exact hr.trans (readPhys_readsOnly _ _ _ _)
  · exact hr

/-! ### Writes leave the engines alone -/

theorem writePhys_enginesKept (s : State) (pa : Nat) (l : List Byte) (pol : Nat) :
    EnginesKept s (s.writePhys pa l pol) := by
  unfold State.writePhys
  split
  case h_1 => exact (CacheOnly.foldl (fun s p => s.lineWrite_cacheOnly _ _ _) _ s).enginesKept
  case h_2 o _ =>
    dsimp only
    split <;> exact s.bump_engines blkL2C (srPlace s.mem.srWays o).1 6 1
  case h_3 => exact report_enginesKept (by decide) s _ _ _ _
  case h_4 => exact report_enginesKept (by decide) s _ _ _ _

theorem cvlEmit_enginesKept (s : State) (port type src dst tag addr aux size hops : Nat) (data : List Byte)
    (poison : Bool) : EnginesKept s (s.cvlEmit port type src dst tag addr aux size hops data poison) :=
  s.bump_engines blkCVL port 0 1

theorem cvlRequestAs_enginesKept (s : State) (type dst addr aux : Nat) (data : List Byte) (dest : NpDest)
    (signal : Option (Nat × Nat)) (fill : Bool) (off : Nat) (poison : Bool) :
    EnginesKept s ((s.cvlRequestAs type dst addr aux data dest signal fill off poison).getD s) := by
  unfold State.cvlRequestAs
  split
  · exact cvlEmit_enginesKept _ _ _ _ _ _ _ _ _ _ _ _
  · exact .refl s

theorem cvlStore_enginesKept (s : State) (dst pa : Nat) (l : List Byte) (dest : NpDest) :
    EnginesKept s (s.cvlStore dst pa l dest) := by
  unfold State.cvlStore State.cvlStoreAs
  split
  · exact .refl s
  · exact List.foldlRecOn (motive := EnginesKept s) _ _ (.refl s) fun t ht i _ =>
      ht.trans (cvlRequestAs_enginesKept _ _ _ _ _ _ _ _ _ _ _)

theorem writePiece_enginesKept (s : State) (target pa pol die : Nat) (l : List Byte) :
    EnginesKept s (s.writePiece target pa pol die l) := by
  unfold State.writePiece
  exact .ite (writePhys_enginesKept s _ _ _) (.ite (s.hostWrite_hostOnly _ _).enginesKept (cvlStore_enginesKept s _ _ _ _))

end Sys2Proof.Machine

/-! ## The start and the completion of each kind of tensor instruction (R129, R130, R132 to R135, R138) -/

namespace Sys2Proof.Machine

set_option Elab.async false

/-! ### Tile memory -/

theorem foldIdx_induct {α σ : Type} {P : σ → Prop} {f : σ → Nat → α → σ} (step : ∀ v i a, P v → P (f v i a)) (l : List α)
    {v : σ} (h : P v) : P (foldIdx l v f) :=
  List.foldlRecOn (motive := fun p : Nat × σ => P p.2) l _ h fun p hp a _ => step p.2 p.1 a hp

theorem TileOnly.refl (v : Eng) : TileOnly v v := ⟨v.tile, rfl⟩

theorem TileOnly.tensors {v u : Eng} (h : TileOnly v u) : u.tensors = v.tensors := by
  obtain ⟨_, rfl⟩ := h
  rfl

theorem TileOnly.putRow {v u : Eng} (h : TileOnly v u) (d : Desc) (k : Nat) (codes : List Nat) :
    TileOnly v (u.putRow d k codes) := foldIdx_induct (fun _ _ _ hu => hu.setTile _ _) _ h

theorem Eng.fillRegion_tileOnly (v : Eng) (t : TIns) (rows : List (List Byte)) : TileOnly v (v.fillRegion t rows) :=
  loop_induct (fun _ _ _ hu => loop_induct (fun _ _ _ hu => hu.setTile _ _) hu)
    (loop_induct (fun _ _ _ hu => hu.putRow _ _ _) (.refl v))

/-- A TCVT writes tile memory and draws free values. -/
theorem runTcvt_tileOnly (s : State) (e : Nat) (t : TIns) :
    (s.runTcvt e t).mem = s.mem ∧ TileOnly (s.eng e) ((s.runTcvt e t).eng e) := by
  refine ⟨rfl, ?_⟩
  show TileOnly _ (State.eng (s.setEng e _) e)
  rw [State.eng_setEng]
  split
  · exact loop_induct (fun _ _ _ hu => hu.putRow _ _ _) (.refl _)
  · split
    · exact loop_induct (fun _ _ _ hu => (foldIdx_induct (fun _ _ _ hu => hu.setTile _ _) _ hu).putRow _ _ _) (.refl _)
    · exact loop_induct (fun _ _ _ hu => hu.putRow _ _ _)
        (foldIdx_induct (fun _ _ _ hu => foldIdx_induct (fun _ _ _ hu => hu.setTile _ _) _ hu) _ (.refl _))

/-! ### A gang TMMA runs -/

/-- Memory and the tensor instructions of every engine are as before. -/
structure SameTensors (s t : State) : Prop where
  mem : t.mem = s.mem
  tensors : ∀ m, (t.eng m).tensors = (s.eng m).tensors

theorem SameTensors.refl (s : State) : SameTensors s s := ⟨rfl, fun _ => rfl⟩

theorem SameTensors.modEng {s t : State} (h : SameTensors s t) (m : Nat) {f : Eng → Eng} (hf : ∀ v, TileOnly v (f v)) :
    SameTensors s (t.modEng m f) := by
  refine ⟨h.mem, fun k => ?_⟩
  by_cases hk : k = m
  · rw [hk, State.eng_modEng, (hf _).tensors, h.tensors]
  · rw [State.eng_modEng_ne t f hk, h.tensors]

theorem SameTensors.counters {s t u : State} (h : SameTensors s t) (k : CountersOnly t u) : SameTensors s u :=
  ⟨k.mem.trans h.mem, fun m => by rw [k.eng, h.tensors]⟩

theorem runGang_sameTensors (s : State) (q : Nat) (ins : List (Nat × TIns)) : SameTensors s (s.runGang q ins) := by
  unfold State.runGang
  dsimp only
  split
  · refine ⟨SameTensors.mem (t := List.foldl _ _ _) ?_, SameTensors.tensors (t := List.foldl _ _ _) ?_⟩
    all_goals
      refine List.foldlRecOn (motive := SameTensors s) _ _ ?_ fun t ht p _ => ?_
      · exact List.foldlRecOn (motive := SameTensors s) _ _ (.refl s) fun t ht p _ =>
          ht.modEng _ fun v => v.putC_tileOnly _ _
      · exact (ht.counters (.bump ⟨_, rfl⟩ _ _ _ _)).counters (State.countMacs_countersOnly _ _ _ _ _ _ _ _)
  · exact .refl s

/-! ### Starting -/

/-- Every tensor instruction of an engine with this number has started. -/
def StartedOn (s : State) (m id : Nat) : Prop := ∀ y ∈ (s.eng m).tensors, y.id = id → y.started = true

theorem Eng.markStarted_origin {v : Eng} {i : Nat} {x : TIns} (h : x ∈ (v.markStarted i).tensors) :
    ∃ y ∈ v.tensors, y.id = x.id ∧ (y.started = true → x.started = true) := by
  obtain ⟨y, hy, rfl⟩ := List.mem_map.1 h
  refine ⟨y, hy, ?_⟩
  split
  · exact ⟨rfl, fun _ => rfl⟩
  · exact ⟨rfl, id⟩

theorem StartedOn.mark (s : State) (m id : Nat) : StartedOn (s.modEng m (fun v => v.markStarted id)) m id := by
  intro y hy
  rw [State.eng_modEng] at hy
  exact Eng.started_of_mem_markStarted hy

theorem StartedOn.modEng {s : State} {m id : Nat} (h : StartedOn s m id) (k i : Nat) :
    StartedOn (s.modEng k (fun v => v.markStarted i)) m id := by
  intro x hx hid
  by_cases hm : m = k
  · rw [← hm, State.eng_modEng] at hx
    obtain ⟨y, hy, same, started⟩ := Eng.markStarted_origin hx
    exact started (h y hy (same.trans hid))
  · rw [State.eng_modEng_ne s _ hm] at hx
    exact h x hx hid

/-- The members' instructions are marked started one after the other (R138). -/
def State.markGang (s : State) (ins : List (Nat × TIns)) : State :=
  ins.foldl (fun s p => s.modEng p.1 (fun v => v.markStarted p.2.id)) s

theorem markGang_mem (s : State) (ins : List (Nat × TIns)) : (s.markGang ins).mem = s.mem :=
  List.foldlRecOn (motive := fun t : State => t.mem = s.mem) ins _ rfl fun _ ht _ _ => ht

theorem markGang_started (s : State) (ins : List (Nat × TIns)) : ∀ x ∈ ins, StartedOn (s.markGang ins) x.1 x.2.id := by
  induction ins using List.reverseRecOn with
  | nil => exact fun x hx => nomatch hx
  | append_singleton l p ih =>
    intro x hx
    rw [State.markGang, List.foldl_append]
    rcases List.mem_append.1 hx with before | last
    · exact (ih x before).modEng _ _
    · rw [List.mem_singleton.1 last]
      exact .mark _ _ _

section

variable {engine : Fin 32} {id : Nat} {s : State} {t : TIns}

/-- A tensor instruction of an engine that may start now. -/
structure Startable (engine : Fin 32) (id : Nat) (s : State) (t : TIns) : Prop where
  working : s.working = true
  free : s.frozen engine.val = false
  found : (s.eng engine.val).tensors.find? (fun x => x.id = id) = some t
  fresh : t.started = false
  sound : t.faulted = false
  turn : (s.eng engine.val).mayStart engine.val t = true

theorem Startable.tcvt (h : Startable engine id s t) (kind : t.kind = .tcvt) :
    exec (.tensorInstructionStart engine id) s = .next (s.modEng engine.val (fun v => v.markStarted id)) := by
  show execTensorInstructionStart engine id s = _
  simp [execTensorInstructionStart, h.found, h.working, h.free, h.fresh, h.sound, h.turn, kind, Eng.markStarted]

theorem Startable.mover (h : Startable engine id s t) (kind : t.kind = .tfill ∨ t.kind = .tspill) {acc : Acc}
    (access : acc = if t.kind = .tfill then accRead else accWrite) {ps} {s1 : State}
    (translated : s.moverPieces engine.val (s.ctxOf t.queue t.cmd).1 t.memRows acc = (.ok ps, s1)) :
    exec (.tensorInstructionStart engine id) s = .next (s1.modEng engine.val (fun v => v.markStarted id)) := by
  show execTensorInstructionStart engine id s = _
  subst access
  rcases kind with kind | kind <;> simp only [kind, reduceCtorEq, if_true, if_false] at translated <;>
    simp [execTensorInstructionStart, h.found, h.working, h.free, h.fresh, h.sound, h.turn, kind, Eng.markStarted,
      translated]

/-- The members' next gang instructions (R138). -/
def State.gangIns (s : State) (e n : Nat) : List (Nat × TIns) :=
  (quadOf e).filterMap (fun m =>
    ((s.eng m).tensors.find? (fun x => x.gangSeq = some n && !x.started)).map (fun x => (m, x)))

theorem Startable.gang (h : Startable engine id s t) (kind : t.kind = .tmma) {n : Nat} (seq : t.gangSeq = some n)
    (all : (s.gangIns engine.val n).length = 4) (unparked : ∀ m ∈ quadOf engine.val, (s.eng m).gangParked = false)
    (turns : ∀ x ∈ s.gangIns engine.val n, (s.eng x.1).mayStart x.1 x.2 = true)
    (agree : gangAgree (s.gangIns engine.val n) = true) :
    exec (.tensorInstructionStart engine id) s
      = .next ((s.markGang (s.gangIns engine.val n)).runGang (engine.val / 4) (s.gangIns engine.val n)) := by
  show execTensorInstructionStart engine id s = _
  unfold execTensorInstructionStart
  simp only [h.found, kind, seq]
  rw [if_neg (by simp [h.working, h.free, h.fresh, h.sound, h.turn])]
  have ready : ((s.gangIns engine.val n).length ≠ 4 || (quadOf engine.val).any (fun m => (s.eng m).gangParked)
      || !(s.gangIns engine.val n).all (fun p => (s.eng p.1).mayStart p.1 p.2)) = false := by
    rw [List.all_eq_true.2 turns, List.any_eq_false.2 fun m hm => by rw [unparked m hm]; decide]
    simp [all]
  have agreed : (!gangAgree (s.gangIns engine.val n)) = false := by rw [agree]; rfl
  exact (if_neg (ne_true_of_eq_false ready)).trans (if_neg (ne_true_of_eq_false agreed))

/-! ### Completing -/

/-- The instruction has left the queue, nothing waits for it, and tile memory is given. -/
structure Completed (r : State) (e : Nat) (tensors : List TIns) (tile : Map Byte) : Prop where
  left : (r.eng e).tensors = tensors
  freed : ∀ p st, r.str? e p = some st → ∀ g ∈ st.groups, g.block ≠ .tensorFull
    ∧ ∀ n, g.block = .tensor n → n < (r.eng e).owed p st.queue st.cmd
  tile : (r.eng e).tile = tile

/-- What retiring leaves, whatever the instruction has done to the engine before. -/
theorem retireTensor_completed {s u : State} {e : Nat} {t : TIns} (tensors : (u.eng e).tensors = (s.eng e).tensors) :
    Completed (u.retireTensor e t) e ((s.eng e).tensors.filter (fun x => x.id ≠ t.id)) (u.eng e).tile := by
  refine ⟨by rw [retireTensor_tensors, tensors], fun p st resident g hg => ?_, retireTensor_tile u e t⟩
  obtain ⟨old, _, freed⟩ := retireTensor_frees u e t resident
  exact ⟨freed.room g hg, freed.counts g hg⟩

/-- A started instruction of an engine that may complete. -/
structure Completable (engine : Fin 32) (id : Nat) (s : State) (t : TIns) : Prop where
  working : s.working = true
  free : s.frozen engine.val = false
  found : (s.eng engine.val).tensors.find? (fun x => x.id = id) = some t
  started : t.started = true

variable (host : Option (List Byte))

theorem unstarted_stays (found : (s.eng engine.val).tensors.find? (fun x => x.id = id) = some t)
    (fresh : t.started = false) : exec (.tensorInstructionComplete engine id host) s = .next s := by
  show execTensorInstructionComplete engine id host s = _
  unfold execTensorInstructionComplete
  simp only [found]
  exact if_pos (by simp [fresh])

theorem Completable.tcvt (h : Completable engine id s t) (kind : t.kind = .tcvt) :
    exec (.tensorInstructionComplete engine id host) s
      = .next ((s.runTcvt engine.val t).retireTensor engine.val t) := by
  show execTensorInstructionComplete engine id host s = _
  simp [execTensorInstructionComplete, h.found, h.working, h.free, h.started, kind]

/-- The bytes that a mover has moved are counted. -/
def State.countMoved (s : State) (e : Nat) (rows : List (List Byte)) : State :=
  s.bump blkTNS e 0x037 (rows.foldl (fun a r => a + r.length) 0)

theorem countMoved_eng (s : State) (e : Nat) (rows : List (List Byte)) (k : Nat) :
    (s.countMoved e rows).eng k = s.eng k := by
  rw [State.eng, State.countMoved, State.bump_engines]
  rfl

theorem countMoved_mem (s : State) (e : Nat) (rows : List (List Byte)) : (s.countMoved e rows).mem = s.mem :=
  s.bump_mem _ _ _ _

theorem Completable.tfill (h : Completable engine id s t) (kind : t.kind = .tfill) {ps} {s1 s2 : State} {rows}
    (translated : s.moverPieces engine.val (s.ctxOf t.queue t.cmd).1 t.memRows accRead = (.ok ps, s1))
    (read : s1.moverRead ps host = ((rows, false), s2)) : exec (.tensorInstructionComplete engine id host) s
      = .next (((s2.countMoved engine.val rows).modEng engine.val (fun v => v.fillRegion t rows)).retireTensor
          engine.val t) := by
  show execTensorInstructionComplete engine id host s = _
  simp [execTensorInstructionComplete, h.found, h.working, h.free, h.started, kind, translated, read, State.countMoved]

/-- The rows of a TSPILL go to memory, piece by piece (R132). -/
def State.spillRows (s : State) (ps : List (List (Nat × Nat × Nat × Nat × Nat × Bool)))
    (rows : List (List Byte)) : State :=
  (ps.zip rows).foldl (fun s x => (x.1.foldl (fun (st : List Byte × State) p =>
    (st.1.drop p.2.2.1, st.2.writePiece p.1 p.2.1 p.2.2.2.1 p.2.2.2.2.1 (st.1.take p.2.2.1))) (x.2, s)).2) s

theorem spillRows_enginesKept (s : State) (ps : List (List (Nat × Nat × Nat × Nat × Nat × Bool)))
    (rows : List (List Byte)) : EnginesKept s (s.spillRows ps rows) := by
  refine List.foldlRecOn (motive := EnginesKept s) _ _ (.refl s) fun t ht x _ => ?_
  exact List.foldlRecOn (motive := fun r : List Byte × State => EnginesKept s r.2) x.1 _ ht fun r hr p _ =>
    hr.trans (writePiece_enginesKept _ _ _ _ _ _)

theorem Completable.tspill (h : Completable engine id s t) (kind : t.kind = .tspill) {ps} {s1 : State}
    (translated : s.moverPieces engine.val (s.ctxOf t.queue t.cmd).1 t.memRows accWrite = (.ok ps, s1)) :
    let rows := (s1.eng engine.val).spillRegion t
    exec (.tensorInstructionComplete engine id host) s
      = .next (((s1.countMoved engine.val rows).spillRows ps rows).retireTensor engine.val t) := by
  show execTensorInstructionComplete engine id host s = _
  simp only [execTensorInstructionComplete, h.found, h.working, h.free, h.started, kind, translated]
  rfl

end

/-- Settles O27: each kind starts by its mark and completes by leaving the queue (`retireTensor_completed`); translation,
reads and writes of a mover leave the engines alone (`ReadsOnly`, `spillRows_enginesKept`). -/
theorem tensorInstructionsStartAndComplete : Obligations.TensorInstructionsStartAndComplete := by
  unfold Obligations.TensorInstructionsStartAndComplete
  intro engine id host s t e v working free found started left freed
  have number : t.id = id := by simpa using List.find?_some found
  refine ⟨fun fresh sound turn => ?starts, fun hs => ?completes, fun fresh => ?stays⟩
  case starts =>
    have h : Startable engine id s t := ⟨working, free, found, fresh, sound, turn⟩
    refine ⟨fun kind => ?_, fun kind ps s1 translated => ?_, fun kind ps s1 translated => ?_,
      fun kind n ins seq hins all unparked turns agree => ?_⟩
    · exact ⟨_, h.tcvt kind, StartedOn.mark s e id, fun _ => rfl⟩
    · have moved := moverPieces_readsOnly s e (s.ctxOf t.queue t.cmd).1 t.memRows accRead
      rw [translated] at moved
      exact ⟨_, h.mover (.inl kind) (by rw [if_pos kind]) translated, StartedOn.mark s1 e id, fun a => by
        rw [State.modEng_mem, moved.cells]⟩
    · have moved := moverPieces_readsOnly s e (s.ctxOf t.queue t.cmd).1 t.memRows accWrite
      rw [translated] at moved
      exact ⟨_, h.mover (.inr kind) (by rw [kind]; rfl) translated, StartedOn.mark s1 e id, fun a => by
        rw [State.modEng_mem, moved.cells]⟩
    · subst hins
      have same := runGang_sameTensors (s.markGang (s.gangIns e n)) (e / 4) (s.gangIns e n)
      refine ⟨_, h.gang kind seq all unparked turns agree, fun a => ?_, fun x hx y hy => ?_⟩
      · rw [same.mem, markGang_mem]
      · rw [same.tensors] at hy
        exact markGang_started s _ x hx y hy
  case completes =>
    have h : Completable engine id s t := ⟨working, free, found, hs⟩
    refine ⟨fun kind => ?_, fun kind => ?_, fun kind ps s1 rows s2 translated read => ?_, fun kind ps s1 translated => ?_⟩
    · obtain ⟨out, opened, tile⟩ := retireTensor_completed (s := s) (u := s) (e := e) (t := t) rfl
      rw [number] at out
      exact ⟨_, completes_tmma host working free found kind hs, out, opened, fun a => by rw [retireTensor_mem], tile⟩
    · obtain ⟨mem, only⟩ := runTcvt_tileOnly s e t
      obtain ⟨out, opened, tile⟩ := retireTensor_completed (s := s) (t := t) only.tensors
      rw [number] at out
      exact ⟨_, h.tcvt host kind, out, opened, fun a => by rw [retireTensor_mem, mem], tile⟩
    · have moved := moverPieces_readsOnly s e (s.ctxOf t.queue t.cmd).1 t.memRows accRead
      rw [translated] at moved
      have gone := moverRead_readsOnly s1 ps host
      rw [read] at gone
      have both := moved.trans gone
      have eng : ((s2.countMoved e rows).modEng e (fun v => v.fillRegion t rows)).eng e = v.fillRegion t rows := by
        rw [State.eng_modEng, countMoved_eng, both.eng]
      obtain ⟨out, opened, tile⟩ := retireTensor_completed (s := s) (t := t)
        (by rw [eng, (v.fillRegion_tileOnly t rows).tensors])
      rw [number] at out
      rw [eng] at tile
      refine ⟨_, h.tfill host kind translated read, out, opened, fun a => ?_, tile⟩
      rw [retireTensor_mem, State.modEng_mem, countMoved_mem, both.cells]
    · have moved := moverPieces_readsOnly s e (s.ctxOf t.queue t.cmd).1 t.memRows accWrite
      rw [translated] at moved
      have eng : ∀ rows, ((s1.countMoved e rows).spillRows ps rows).eng e = v := fun rows => by
        rw [State.eng, spillRows_enginesKept, ← State.eng, countMoved_eng, moved.eng]
      obtain ⟨out, opened, tile⟩ := retireTensor_completed (s := s) (t := t) (congrArg Eng.tensors (eng _))
      rw [number] at out
      rw [eng] at tile
      exact ⟨_, h.tspill host kind translated, out, opened, tile⟩
  case stays => exact unstarted_stays host found fresh

end Sys2Proof.Machine

/-! ## Commands of queues: what their start and their end change (R320, R321, R345, R369) -/

namespace Sys2Proof.Machine

set_option Elab.async false

/-! ### A change of one command -/

theorem queue?_modCmd (s : State) (q cmd : Nat) (f : Cmd → Cmd) (k : Nat) : (s.modCmd q cmd f).queue? k
    = if k = q then (s.queue? q).map (fun v => { v with cmds := v.cmds.map (fun c => if c.index = cmd then f c else c) })
      else s.queue? k := State.queue?_modQueue _ _ _ _

/-- A change that keeps the index of a command changes no other command. -/
theorem cmd?_modCmd (s : State) (q cmd : Nat) {f : Cmd → Cmd} (hf : ∀ c, (f c).index = c.index) (k i : Nat) :
    (s.modCmd q cmd f).cmd? k i = if k = q ∧ i = cmd then (s.cmd? k i).map f else s.cmd? k i := by
  rw [State.cmd?, queue?_modCmd]
  by_cases hk : k = q
  case neg => rw [if_neg hk, if_neg fun h => hk h.1]; rfl
  case pos =>
    subst hk
    rw [if_pos rfl, State.cmd?]
    cases s.queue? k with
    | none => simp
    | some v =>
      have same : ((fun c : Cmd => decide (c.index = i)) ∘ fun c => if c.index = cmd then f c else c)
          = fun c => decide (c.index = i) := by
        funext c
        simp only [Function.comp]
        split <;> simp [hf]
      rw [Option.map_some, Option.bind_some, List.find?_map, same, Option.bind_some]
      cases found : v.cmds.find? (fun c => decide (c.index = i)) with
      | none => simp
      | some c =>
        have number : c.index = i := by simpa using List.find?_some found
        by_cases hi : i = cmd <;> simp [number, hi]

/-- A command that has ended: the first end counts (R321). -/
def Cmd.finish (err detail : Nat) (c : Cmd) : Cmd :=
  match c.st with
  | .ended _ => c
  | _ => { c with st := .ended err, detail := BitVec.ofNat 64 detail }

theorem Cmd.finish_index (err detail : Nat) (c : Cmd) : (c.finish err detail).index = c.index := by
  unfold Cmd.finish
  split <;> rfl

theorem Cmd.finish_open {c : Cmd} (h : ∀ x, c.st ≠ .ended x) (err detail : Nat) :
    c.finish err detail = { c with st := .ended err, detail := BitVec.ofNat 64 detail } := by
  unfold Cmd.finish
  split
  next x e => exact absurd e (h x)
  · rfl

theorem Cmd.finish_ended {c : Cmd} {x : Nat} (h : c.st = .ended x) (err detail : Nat) : c.finish err detail = c := by
  unfold Cmd.finish
  rw [h]

theorem endCmd_eq (s : State) (q cmd err detail : Nat) :
    s.endCmd q cmd err detail = s.modCmd q cmd (Cmd.finish err detail) := rfl

theorem cmd?_endCmd_any (s : State) (q cmd err detail k i : Nat) : (s.endCmd q cmd err detail).cmd? k i
    = if k = q ∧ i = cmd then (s.cmd? k i).map (Cmd.finish err detail) else s.cmd? k i :=
  cmd?_modCmd s q cmd (Cmd.finish_index err detail) k i

/-- A command that begins. -/
def Cmd.begin (c : Cmd) : Cmd := { c with st := .started }

/-! ### What a start changes -/

/-- An engine but for the context that it charges (R345). -/
def Eng.uncharged (v : Eng) : Eng := { v with charge := none }

/-- Two states that differ at most in the convoys. -/
def ConvoysOnly (s t : State) : Prop := ∃ m, t = { s with convoys := m }

theorem noteLayer_convoysOnly (s : State) (q : Nat) (c : Cmd) (retired : Bool) :
    ConvoysOnly s (s.noteLayer q c retired) := by
  unfold State.noteLayer
  split
  · exact ⟨s.convoys, rfl⟩
  · dsimp only
    split_ifs
    · exact ⟨s.convoys, rfl⟩
    · split
      · exact ⟨s.convoys, rfl⟩
      · exact ⟨_, rfl⟩

theorem refreshCharge_rest (s : State) (e : Nat) : { s.refreshCharge e with engines := s.engines } = s := by
  unfold State.refreshCharge
  split
  · rfl
  · split <;> rfl

theorem refreshCharge_uncharged (s : State) (e k : Nat) : ((s.refreshCharge e).eng k).uncharged = (s.eng k).uncharged := by
  unfold State.refreshCharge
  split
  · rfl
  · split
    · rfl
    · by_cases hk : k = e
      · rw [hk, State.eng_modEng]
        rfl
      · rw [State.eng_modEng_ne s _ hk]

/-- A start marks its command; besides, a layer's first start is noted and the engine's charge may follow the command. -/
structure Begun (s t : State) (q cmd : Nat) : Prop where
  queues : t.queues = (s.modCmd q cmd Cmd.begin).queues
  engines : ∀ k, (t.eng k).uncharged = (s.eng k).uncharged
  mem : t.mem = s.mem

theorem noted_begun (s : State) (q : Nat) (c : Cmd) :
    Begun s ((s.modCmd q c.index Cmd.begin).noteLayer q c false) q c.index := by
  obtain ⟨m, noted⟩ := noteLayer_convoysOnly (s.modCmd q c.index Cmd.begin) q c false
  rw [noted]
  exact ⟨rfl, fun _ => rfl, rfl⟩

theorem beginCmd_begun (s : State) (q : Nat) (v : Queue) (c : Cmd) : Begun s (s.beginCmd q v c) q c.index := by
  have noted := noted_begun s q c
  show Begun s (if v.kind = 0 then State.refreshCharge (State.noteLayer (s.modCmd q c.index Cmd.begin) q c false) v.unit
    else _) _ _
  split
  · have rest := refreshCharge_rest ((s.modCmd q c.index Cmd.begin).noteLayer q c false) v.unit
    refine ⟨(congrArg State.queues rest :).trans noted.queues, fun k => ?_, (congrArg State.mem rest :).trans noted.mem⟩
    exact (refreshCharge_uncharged _ _ _).trans (noted.engines k)
  · exact noted

section

variable {s t : State} {q cmd : Nat}

theorem Begun.queue? (h : Begun s t q cmd) {k : Nat} (hk : k ≠ q) : t.queue? k = s.queue? k := by
  rw [State.queue?, h.queues]
  exact (queue?_modCmd s q cmd Cmd.begin k).trans (if_neg hk)

theorem Begun.cmd? (h : Begun s t q cmd) (k i : Nat) :
    t.cmd? k i = if k = q ∧ i = cmd then (s.cmd? k i).map Cmd.begin else s.cmd? k i :=
  (State.cmd?_congr h.queues k i).trans (cmd?_modCmd s q cmd (f := Cmd.begin) (fun _ => rfl) k i)

theorem Begun.field {α : Type} (h : Begun s t q cmd) (f : Eng → α) (hf : ∀ v, f v.uncharged = f v) (k : Nat) :
    f (t.eng k) = f (s.eng k) := by
  rw [← hf, h.engines, hf]

end

end Sys2Proof.Machine

/-! ## The rendezvous of a gang layer (R137, R139, R146, R148) -/

namespace Sys2Proof.Machine

set_option Elab.async false

theorem quadOf_nodup (e : Nat) : (quadOf e).Nodup :=
  List.nodup_range.map fun _ _ h => Nat.add_left_cancel h

/-- A member that leaves the rendezvous. -/
def Eng.leaveGang (v : Eng) : Eng := { v with atGang := none, arrive := none, gangParked := false }

/-- Nothing of memory and of an engine differs, but the context that the engine charges. -/
structure EngAside (s t : State) (m : Nat) : Prop where
  mem : t.mem = s.mem
  eng : (t.eng m).uncharged = (s.eng m).uncharged

theorem EngAside.refl (s : State) (m : Nat) : EngAside s s m := ⟨rfl, rfl⟩
theorem EngAside.trans {s t u : State} {m : Nat} (h : EngAside s t m) (k : EngAside t u m) : EngAside s u m :=
  ⟨k.mem.trans h.mem, k.eng.trans h.eng⟩
theorem EngAside.modEng (s : State) {k m : Nat} (hm : m ≠ k) (f : Eng → Eng) : EngAside s (s.modEng k f) m :=
  ⟨rfl, by rw [State.eng_modEng_ne s f hm]⟩
theorem EngAside.trap (s : State) {k m : Nat} (hm : m ≠ k) (q cmd err detail : Nat) :
    EngAside s (s.trap k q cmd err detail) m := by
  have killed := EngAside.modEng s hm (fun v => v.kill q cmd)
  exact ⟨killed.mem, killed.eng⟩
theorem Begun.aside {s t : State} {q cmd : Nat} (h : Begun s t q cmd) (m : Nat) : EngAside s t m := ⟨h.mem, h.engines m⟩

section

variable {s t : State} {m : Nat}

theorem EngAside.atGang (h : EngAside s t m) : (t.eng m).atGang = (s.eng m).atGang := (congrArg Eng.atGang h.eng :)
theorem EngAside.arrive (h : EngAside s t m) : (t.eng m).arrive = (s.eng m).arrive := (congrArg Eng.arrive h.eng :)
theorem EngAside.gangParked (h : EngAside s t m) : (t.eng m).gangParked = (s.eng m).gangParked :=
  (congrArg Eng.gangParked h.eng :)
theorem EngAside.disps (h : EngAside s t m) : (t.eng m).disps = (s.eng m).disps := (congrArg Eng.disps h.eng :)

end

/-- A step for each member that leaves the other members alone: over the members but m, it leaves m alone. -/
theorem foldl_aside {g : State → Nat → State} {m : Nat} (aside : ∀ s k, m ≠ k → EngAside s (g s k) m) :
    ∀ (l : List Nat) (s : State), m ∉ l → EngAside s (l.foldl g s) m
  | [], s, _ => .refl s m
  | k :: l, s, hm => (aside s k fun h => hm (h ▸ List.mem_cons_self)).trans
      (foldl_aside aside l (g s k) fun h => hm (List.mem_cons_of_mem _ h))

/-! ### A member starts the layer -/

section

variable {s : State} {m : Nat}

theorem gangStart_none (h : (s.eng m).atGang = none) : s.gangStart m = s := by
  unfold State.gangStart
  rw [h]

/-- What a member's start does once it has left the rendezvous: its command's dispatch begins, if the command waits. -/
theorem gangStart_cases {q cmd : Nat} (h : (s.eng m).atGang = some (q, cmd)) :
    s.gangStart m = s.modEng m Eng.leaveGang
    ∨ ∃ v c, s.queue? q = some v ∧ s.cmd? q cmd = some c
      ∧ s.gangStart m = ((s.modEng m Eng.leaveGang).modEng m (fun x => { x with
          disps := x.disps ++ [dispOf q c (getLe c.payload 0 8) 0 true] })).beginCmd q v c := by
  unfold State.gangStart
  rw [h]
  dsimp only
  split
  next v c hv hc =>
    split
    · exact .inl rfl
    · exact .inr ⟨v, c, hv, hc, rfl⟩
  · exact .inl rfl

theorem gangStart_aside {k : Nat} (hm : m ≠ k) : EngAside s (s.gangStart k) m := by
  cases at_ : (s.eng k).atGang with
  | none => rw [gangStart_none at_]; exact .refl s m
  | some p =>
    have left := EngAside.modEng s hm Eng.leaveGang
    obtain e | ⟨v, c, _, _, e⟩ := gangStart_cases at_
    · rw [e]; exact left
    · rw [e]
      exact (left.trans (.modEng _ hm _)).trans ((beginCmd_begun _ _ _ _).aside m)

theorem gangStart_mem (k : Nat) : (s.gangStart k).mem = s.mem := (gangStart_aside (m := k + 1) (by omega)).mem

/-- A queue at which the member does not stand keeps its commands. -/
theorem gangStart_queue? {k q : Nat} (apart : ((s.eng k).atGang).map (fun x => x.1) ≠ some q) :
    (s.gangStart k).queue? q = s.queue? q := by
  cases at_ : (s.eng k).atGang with
  | none => rw [gangStart_none at_]
  | some p =>
    have hq : q ≠ p.1 := fun e => apart (by rw [at_, e]; rfl)
    obtain e | ⟨v, c, _, _, e⟩ := gangStart_cases at_
    · rw [e]; rfl
    · rw [e, (beginCmd_begun _ _ _ _).queue? hq]
      rfl

/-- The member has left the rendezvous. -/
theorem gangStart_leaves {q cmd : Nat} (at_ : (s.eng m).atGang = some (q, cmd)) :
    ((s.gangStart m).eng m).atGang = none ∧ ((s.gangStart m).eng m).arrive = none
      ∧ ((s.gangStart m).eng m).gangParked = false := by
  obtain e | ⟨v, c, _, _, e⟩ := gangStart_cases at_
  · rw [e, State.eng_modEng]
    exact ⟨rfl, rfl, rfl⟩
  · have begun := (beginCmd_begun ((s.modEng m Eng.leaveGang).modEng m (fun x => { x with
      disps := x.disps ++ [dispOf q c (getLe c.payload 0 8) 0 true] })) q v c).aside m
    rw [e, begun.atGang, begun.arrive, begun.gangParked, State.eng_modEng, State.eng_modEng]
    exact ⟨rfl, rfl, rfl⟩

/-- The dispatch of a member's waiting command is in progress. -/
theorem gangStart_disps {q : Nat} {v : Queue} {c : Cmd} (at_ : (s.eng m).atGang = some (q, c.index))
    (hv : s.queue? q = some v) (hc : s.cmd? q c.index = some c) (waits : c.st = .accepted) :
    ((s.gangStart m).eng m).disps = (s.eng m).disps ++ [dispOf q c (getLe c.payload 0 8) 0 true] := by
  have run : s.gangStart m = ((s.modEng m Eng.leaveGang).modEng m (fun x => { x with
      disps := x.disps ++ [dispOf q c (getLe c.payload 0 8) 0 true] })).beginCmd q v c := by
    unfold State.gangStart
    rw [at_]
    dsimp only
    rw [show State.queue? (s.modEng m _) q = s.queue? q from rfl,
      show State.cmd? (s.modEng m _) q c.index = s.cmd? q c.index from rfl, hv, hc]
    exact if_neg (by simp [waits])
  rw [run, ((beginCmd_begun _ q v c).aside m).disps, State.eng_modEng, State.eng_modEng]
  rfl

end

/-- The members' starts leave the queue of a member that has not had its turn. -/
theorem foldl_gangStart_queue? {q : Nat} : ∀ (l : List Nat) (s : State), l.Nodup →
    (∀ k ∈ l, ((s.eng k).atGang).map (fun x => x.1) ≠ some q) → (l.foldl State.gangStart s).queue? q = s.queue? q
  | [], _, _, _ => rfl
  | k :: l, s, nodup, apart => by
    obtain ⟨hk, hl⟩ := List.nodup_cons.1 nodup
    rw [List.foldl_cons, foldl_gangStart_queue? l _ hl, gangStart_queue? (apart k List.mem_cons_self)]
    intro j hj
    have away : j ≠ k := fun e => hk (e ▸ hj)
    rw [(gangStart_aside away).atGang]
    exact apart j (List.mem_cons_of_mem _ hj)

/-- Around the turn of one member. -/
theorem quad_around {e m : Nat} (hm : m ∈ quadOf e) :
    ∃ pre post, quadOf e = pre ++ m :: post ∧ m ∉ pre ∧ m ∉ post ∧ pre.Nodup := by
  obtain ⟨pre, post, split⟩ := List.append_of_mem hm
  have nodup := quadOf_nodup e
  rw [split] at nodup
  obtain ⟨hpre, hpost, apart⟩ := List.nodup_append.1 nodup
  exact ⟨pre, post, split, fun h => apart m h m List.mem_cons_self rfl, (List.nodup_cons.1 hpost).1, hpre⟩

/-- The start of the four members, seen from one. -/
theorem gangStarts_member {s : State} {e m : Nat} (hm : m ∈ quadOf e) :
    ∃ pre, pre ⊆ quadOf e ∧ m ∉ pre ∧ pre.Nodup ∧ EngAside s (pre.foldl State.gangStart s) m
      ∧ EngAside ((pre.foldl State.gangStart s).gangStart m) ((quadOf e).foldl State.gangStart s) m := by
  obtain ⟨pre, post, split, hpre, hpost, nodup⟩ := quad_around hm
  refine ⟨pre, ?_, hpre, nodup, foldl_aside (fun s k h => gangStart_aside h) pre s hpre, ?_⟩
  · rw [split]
    exact List.subset_append_left _ _
  · rw [split, List.foldl_append, List.foldl_cons]
    exact foldl_aside (fun s k h => gangStart_aside h) post _ hpost

/-! ### A member fails the layer -/

section

variable {s : State} {q i : Nat}

/-- A member's failure ends the command at which it stands, and no other. -/
theorem gangFail_cmd? (k : Nat) : (s.gangFail k).cmd? q i
    = if (s.eng k).atGang = some (q, i) then (s.cmd? q i).map (Cmd.finish eGangMismatch 0) else s.cmd? q i := by
  unfold State.gangFail
  split
  next none => rw [none]; exact (if_neg fun e => nomatch e).symm
  next q' cmd at_ =>
    rw [at_]
    have ended := cmd?_endCmd_any ((s.modEng k (fun v => v.leaveGang)).killCmd k q' cmd) q' cmd eGangMismatch 0 q i
    refine ended.trans ?_
    by_cases same : q = q' ∧ i = cmd
    · rw [if_pos same, if_pos (by rw [same.1, same.2])]
      rfl
    · rw [if_neg same, if_neg fun e => same (by simpa [eq_comm] using e)]
      rfl

theorem gangFail_eng {k m : Nat} (hm : m ≠ k) : EngAside s (s.gangFail k) m := by
  unfold State.gangFail
  split
  · exact .refl s m
  next q' cmd _ =>
    exact (EngAside.modEng s hm Eng.leaveGang).trans (.trap (s.modEng k Eng.leaveGang) hm q' cmd eGangMismatch 0)

/-- An open command stays, or has ended with E_GANG_MISMATCH. -/
theorem gangFails_cmd? {c : Cmd} (open' : ∀ x, c.st ≠ .ended x) (l : List Nat)
    (h : s.cmd? q i = some c ∨ s.cmd? q i = some (c.finish eGangMismatch 0)) :
    (l.foldl State.gangFail s).cmd? q i = some c
      ∨ (l.foldl State.gangFail s).cmd? q i = some (c.finish eGangMismatch 0) := by
  refine List.foldlRecOn (motive := fun t : State => t.cmd? q i = some c ∨ t.cmd? q i = some (c.finish eGangMismatch 0))
    l _ h fun t ht k _ => ?_
  have twice : (c.finish eGangMismatch 0).finish eGangMismatch 0 = c.finish eGangMismatch 0 := by
    rw [Cmd.finish_open open']
    exact Cmd.finish_ended rfl _ _
  rw [gangFail_cmd?]
  split
  · rcases ht with ht | ht <;> rw [ht, Option.map_some]
    · exact .inr rfl
    · exact .inr (congrArg some twice)
  · exact ht

/-- A command that has ended stays. -/
theorem gangFails_ended {c : Cmd} {x : Nat} (ended : c.st = .ended x) (l : List Nat) (h : s.cmd? q i = some c) :
    (l.foldl State.gangFail s).cmd? q i = some c := by
  refine List.foldlRecOn (motive := fun t : State => t.cmd? q i = some c) l _ h fun t ht k _ => ?_
  rw [gangFail_cmd?, ht, Option.map_some, Cmd.finish_ended ended, ite_self]

/-- Every command at which a member stands has ended. -/
theorem gangFails_end {e m : Nat} (hm : m ∈ quadOf e) (at_ : (s.eng m).atGang = some (q, i)) {c : Cmd}
    (hc : s.cmd? q i = some c) (open' : ∀ x, c.st ≠ .ended x) :
    ((quadOf e).foldl State.gangFail s).cmd? q i = some (c.finish eGangMismatch 0) := by
  obtain ⟨pre, post, split, hpre, _, _⟩ := quad_around hm
  have before := gangFails_cmd? open' pre (.inl hc)
  have stands : ((pre.foldl State.gangFail s).eng m).atGang = some (q, i) :=
    (foldl_aside (fun s k h => gangFail_eng h) pre s hpre).atGang.trans at_
  rw [split, List.foldl_append, List.foldl_cons]
  refine gangFails_ended (x := eGangMismatch) (by rw [Cmd.finish_open open']) post ?_
  rw [gangFail_cmd?, if_pos stands]
  rcases before with b | b <;> rw [b, Option.map_some]
  exact congrArg some (by rw [Cmd.finish_open open']; exact Cmd.finish_ended rfl _ _)

end

/-! ### GANG_ARRIVE and GANG_RESUME -/

/-- The engine's arrival is recorded. -/
def State.recordArrival (s : State) (e : Nat) (a : Nat × Nat × Nat) : State :=
  s.modEng e (fun v => { v with arrive := some a })

theorem recordArrival_arrive (s : State) (e : Nat) (a : Nat × Nat × Nat) (m : Nat) :
    ((s.recordArrival e a).eng m).arrive = if m = e then some a else (s.eng m).arrive := by
  unfold State.recordArrival
  split
  next h => rw [h, State.eng_modEng]
  next h => rw [State.eng_modEng_ne s _ h]

/-- A field that an arrival does not touch. -/
theorem recordArrival_field {α : Type} (f : Eng → α) (hf : ∀ v a, f { v with arrive := a } = f v) (s : State) (e : Nat)
    (a : Nat × Nat × Nat) (m : Nat) : f ((s.recordArrival e a).eng m) = f (s.eng m) := by
  unfold State.recordArrival
  by_cases h : m = e
  · rw [h, State.eng_modEng, hf]
  · rw [State.eng_modEng_ne s _ h]

section

variable {engine : Fin 32} {s : State} {q cmd : Nat} {a : Nat × Nat × Nat}

theorem execGangArrive_runs (working : s.working = true) (free : s.frozen engine.val = false)
    (accepts : (s.eng engine.val).stopped = false) (inService : s.fenced 0 engine.val = false)
    (present : s.ucodeTurn ≠ some engine.val) (stands : (s.eng engine.val).atGang = some (q, cmd))
    (sends : s.arriveOf q cmd = some a) :
    exec (.gangArrive engine) s = .next (
      let t := s.recordArrival engine.val a
      if ((quadOf engine.val).map (fun m => (t.eng m).arrive)).any (fun x => x.isNone) then t
      else if ((quadOf engine.val).map (fun m => (t.eng m).arrive)).all (fun x => x = some a) then
        (quadOf engine.val).foldl State.gangStart t
      else (quadOf engine.val).foldl State.gangFail t) := by
  show execGangArrive engine s = _
  unfold execGangArrive
  simp only [stands, Option.bind_some, sends]
  rw [if_neg (by simp [working, free, accepts, inService, present])]
  unfold State.recordArrival
  split
  · rfl
  · split <;> rfl

end

/-- A fold that changes each engine of a list once. -/
theorem foldl_modEng {f : Eng → Eng} : ∀ (l : List Nat) (s : State), l.Nodup →
    (∀ m ∈ l, (l.foldl (fun s m => s.modEng m f) s).eng m = f (s.eng m))
      ∧ (∀ m, m ∉ l → (l.foldl (fun s m => s.modEng m f) s).eng m = s.eng m)
  | [], _, _ => ⟨fun m hm => (List.not_mem_nil hm).elim, fun _ _ => rfl⟩
  | k :: l, s, nodup => by
    obtain ⟨hk, hl⟩ := List.nodup_cons.1 nodup
    obtain ⟨inside, outside⟩ := foldl_modEng l (s.modEng k f) hl
    refine ⟨fun m hm => ?_, fun m hm => ?_⟩
    · rw [List.foldl_cons]
      rcases List.mem_cons.1 hm with rfl | hm
      · rw [outside m hk, State.eng_modEng]
      · have away : m ≠ k := fun e => hk (e ▸ hm)
        rw [inside m hm, State.eng_modEng_ne s f away]
    · obtain ⟨away, later⟩ := not_or.1 (mt List.mem_cons.2 hm)
      rw [List.foldl_cons, outside m later, State.eng_modEng_ne s f away]

theorem foldl_modEng_rest {f : Eng → Eng} (l : List Nat) (s : State) :
    { l.foldl (fun s m => s.modEng m f) s with engines := s.engines } = s :=
  List.foldlRecOn (motive := fun t : State => { t with engines := s.engines } = s) l _ rfl fun _ ht _ _ => ht

/-- Settles O28: the members take their turns one after the other, and a member's turn leaves the others alone
(`gangStarts_member`, `gangFails_end`). -/
theorem gangsArriveStartAndResumeTogether : Obligations.GangsArriveStartAndResumeTogether := by
  unfold Obligations.GangsArriveStartAndResumeTogether
  refine ⟨?arrive, fun engine s working still => ?resume⟩
  case arrive =>
    intro engine s q cmd a e at_ arrived working free accepts inService present stands sends
    have run := execGangArrive_runs working free accepts inService present stands sends
    have arrives : (quadOf e).map (fun m => ((s.recordArrival e a).eng m).arrive) = (quadOf e).map arrived :=
      List.map_congr_left fun m _ => recordArrival_arrive s e a m
    have gang : ∀ m, ((s.recordArrival e a).eng m).atGang = at_ m := recordArrival_field Eng.atGang (fun _ _ => rfl) s e a
    dsimp only at run
    rw [arrives] at run
    refine ⟨fun some' => ?waits, fun equal => ?starts, fun all unequal => ?fails⟩
    case waits =>
      obtain ⟨m, hm, none⟩ := some'
      rw [if_pos (List.any_eq_true.2 ⟨_, List.mem_map.2 ⟨m, hm, rfl⟩, by rw [none]; rfl⟩)] at run
      exact ⟨_, run, State.eng_modEng s e _, fun m hm => State.eng_modEng_ne s _ hm⟩
    case starts =>
      rw [if_neg (by simpa using fun m hm => by rw [equal m hm]; exact fun e => nomatch e),
        if_pos (by simpa using equal)] at run
      refine ⟨_, run, fun b => ?_, fun m hm stands' => ?_, fun apart m hm q' v c at' hv hc waits => ?_⟩
      · exact congrArg (fun x : Mem => memGet x.cells b) (List.foldlRecOn (motive := fun t : State => t.mem = s.mem)
          (quadOf e) State.gangStart (b := s.recordArrival e a) rfl fun t ht k _ => (gangStart_mem k).trans ht)
      · obtain ⟨pre, _, _, _, before, after⟩ := gangStarts_member (s := s.recordArrival e a) hm
        obtain ⟨p, hp⟩ := Option.ne_none_iff_exists'.1 stands'
        obtain ⟨left, withdrawn, unparked⟩ := gangStart_leaves (before.atGang.trans ((gang m).trans hp))
        exact ⟨after.atGang.trans left, after.arrive.trans withdrawn, after.gangParked.trans unparked⟩
      · obtain ⟨pre, sub, out, nodup, before, after⟩ := gangStarts_member (s := s.recordArrival e a) hm
        have queue : (pre.foldl State.gangStart (s.recordArrival e a)).queue? q' = s.queue? q' := by
          refine foldl_gangStart_queue? pre _ nodup fun k hk => ?_
          rw [gang k]
          refine fun same => apart k (sub hk) m hm (fun h => out (h ▸ hk)) ?_
          rw [same, at']
          rfl
        rw [after.disps, gangStart_disps (before.atGang.trans ((gang m).trans at')) (queue.trans hv)
          (by rw [State.cmd?, queue]; exact hc) waits, before.disps]
        exact congrArg (· ++ _) (recordArrival_field Eng.disps (fun _ _ => rfl) s e a m)
    case fails =>
      obtain ⟨u, hu, differs⟩ := unequal
      rw [if_neg (by simpa using fun m hm => all m hm), if_neg (by simpa using ⟨u, hu, differs⟩)] at run
      refine ⟨_, run, fun m hm q' c at' hc open' => ?_⟩
      have ended := gangFails_end (s := s.recordArrival e a) hm ((gang m).trans at') hc open'
      rw [Cmd.finish_open open'] at ended
      exact ended
  case resume =>
    obtain ⟨inside, outside⟩ := foldl_modEng (f := fun v => { v with gangParked := false }) (quadOf engine.val) s
      (quadOf_nodup _)
    refine ⟨_, ?_, inside, outside, foldl_modEng_rest _ s⟩
    show execGangResume engine s = _
    refine if_neg ?_
    simp only [working, Bool.not_true, Bool.false_or, List.any_eq_true, not_exists, not_and]
    intro m hm
    obtain ⟨held, away, free⟩ := still m hm
    simp [held, away, free]

end Sys2Proof.Machine

/-! ## The granule boundary (R141, R142, R145) -/

namespace Sys2Proof.Machine

set_option Elab.async false

/-! ### Granules that change sides -/

/-- Tile bytes of the granules [lo, hi). -/
def inGranules (lo hi b : Nat) : Bool := lo * 262144 ≤ b && b < hi * 262144

theorem inGranules_iff {lo hi b : Nat} : inGranules lo hi b = true ↔ lo ≤ b / 262144 ∧ b / 262144 < hi := by
  simp only [inGranules, Bool.and_eq_true, decide_eq_true_eq]
  omega

/-- What a table keeps of a key when the keys that meet a test leave. -/
theorem mget_filter_key {α : Type} (m : Map α) (p : Nat → Bool) (k : Nat) :
    mget (m.filter (fun x => !p x.1)) k = if p k then none else mget m k := by
  induction m with
  | nil => simp [mget]
  | cons x m ih =>
    rw [List.filter_cons]
    by_cases same : x.1 = k
    · cases hp : p k <;> simp_all [mget]
    · cases hx : p x.1 <;> simp_all [mget]

/-- The seeds of the n granules from lo. -/
def seedGranules (lo fresh n : Nat) (m : Map Nat) : Map Nat :=
  (List.range n).foldl (fun m i => mset m (lo + i) (fresh + i)) m

theorem mget_seedGranules (lo fresh : Nat) (m : Map Nat) (n k : Nat) : mget (seedGranules lo fresh n m) k
    = if lo ≤ k ∧ k < lo + n then some (fresh + (k - lo)) else mget m k := by
  induction n with
  | zero => rw [if_neg (by omega)]; rfl
  | succ n ih =>
    have last : seedGranules lo fresh (n + 1) m = mset (seedGranules lo fresh n m) (lo + n) (fresh + n) := by
      rw [seedGranules, List.range_succ, List.foldl_append]
      rfl
    rw [last, mget_mset, ih]
    by_cases hk : k = lo + n
    · rw [if_pos hk, if_pos (by omega), hk, Nat.add_sub_cancel_left]
    · rw [if_neg hk]
      by_cases inside : lo ≤ k ∧ k < lo + n
      · rw [if_pos inside, if_pos (by omega)]
      · rw [if_neg inside, if_neg (by omega)]

/-- An engine whose granules [lo, hi) have undefined contents. -/
def Eng.lose (v : Eng) (lo hi fresh : Nat) : Eng :=
  { v with tile := v.tile.filter (fun p => !inGranules lo hi p.1), tileFree := seedGranules lo fresh (hi - lo) v.tileFree }

theorem loseGranules_eq (s : State) (e lo hi : Nat) :
    s.loseGranules e lo hi = (s.setEng e ((s.eng e).lose lo hi s.clk.fresh)).drew (hi - lo) := rfl

section

variable (v : Eng) {lo hi : Nat} (fresh : Nat)

/-- The bytes of the other granules are as before. -/
theorem Eng.lose_tileByte {b : Nat} (outside : b / 262144 < lo ∨ hi ≤ b / 262144) :
    (v.lose lo hi fresh).tileByte b = v.tileByte b := by
  have kept : inGranules lo hi b = false := by
    rw [Bool.eq_false_iff, Ne, inGranules_iff]
    omega
  have cell : mget (v.lose lo hi fresh).tile b = mget v.tile b := by
    show mget (v.tile.filter _) b = _
    rw [mget_filter_key v.tile (inGranules lo hi), kept]
    rfl
  have seed : mget (v.lose lo hi fresh).tileFree (b / 262144) = mget v.tileFree (b / 262144) := by
    show mget (seedGranules _ _ _ _) _ = _
    rw [mget_seedGranules, if_neg (by omega)]
  unfold Eng.tileByte
  rw [cell, seed]

/-- The bytes of a granule that has changed sides are undefined until written. -/
theorem Eng.lose_undefined {i : Nat} (low : lo ≤ i) (high : i < hi) : mhas (v.lose lo hi fresh).tileFree i = true
    ∧ ∀ b, b / 262144 = i → mget (v.lose lo hi fresh).tile b = none := by
  constructor
  · show (mget (seedGranules _ _ _ _) _).isSome = true
    rw [mget_seedGranules, if_pos (by omega)]
    rfl
  · intro b hb
    show mget (v.tile.filter _) b = _
    rw [mget_filter_key v.tile (inGranules lo hi), if_pos (inGranules_iff.2 (by omega))]

end

/-! ### GRANULE_BOUNDARY_MOVE -/

section

variable {engine : Fin 32} {s : State} {k n : Nat} {x : Partition}

/-- Granules that each side holds. -/
def Eng.gfxHeld (v : Eng) : Nat := v.gfxHolds.foldl (fun a p => max a p.2) 0
def Eng.tnsHeld (v : Eng) : Nat := v.disps.foldl (fun a d => max a d.granules) 0

/-- The granules [lo, hi) have changed sides, and f has moved the boundary. -/
def State.boundaryAt (s : State) (e lo hi : Nat) (f : Eng → Eng) : State := (s.loseGranules e lo hi).modEng e f

theorem boundaryAt_eng (s : State) (e lo hi : Nat) (f : Eng → Eng) :
    (s.boundaryAt e lo hi f).eng e = f ((s.eng e).lose lo hi s.clk.fresh) := by
  rw [State.boundaryAt, State.eng_modEng, loseGranules_eq]
  exact congrArg f (State.eng_setEng s e _)

theorem boundaryAt_memoryKept (s : State) (e lo hi : Nat) (f : Eng → Eng) : MemoryKept s (s.boundaryAt e lo hi f) :=
  fun _ => rfl

theorem boundaryMove_tensor (working : s.working = true) (free : s.frozen engine.val = false)
    (part : s.partOf engine.val = some k) (hx : s.part? k = some x) (waits : (s.eng engine.val).waitTns = some n) :
    exec (.granuleBoundaryMove engine) s = .next (
      if (s.eng engine.val).tb ≤ 16 - n ∨ 16 - n < x.gfxMin ∨ 16 - n < (s.eng engine.val).gfxHeld then s
      else s.boundaryAt engine.val (16 - n) (s.eng engine.val).tb
        (fun v => { v with tb := 16 - n, waitTns := none })) := by
  show execGranuleBoundaryMove engine s = _
  unfold execGranuleBoundaryMove
  simp only [working, free, part, Option.bind_some, hx, waits, Bool.not_false, Bool.and_self, Bool.or_eq_true,
    decide_eq_true_eq, or_assoc]
  split <;> rename_i h
  · exact congrArg _ (if_pos h).symm
  · exact congrArg _ (if_neg h).symm

theorem boundaryMove_graphics (working : s.working = true) (free : s.frozen engine.val = false)
    (part : s.partOf engine.val = some k) (hx : s.part? k = some x) (idle : (s.eng engine.val).waitTns = none)
    (waits : (s.eng engine.val).waitGfx = some n) : exec (.granuleBoundaryMove engine) s = .next (
      if n ≤ (s.eng engine.val).tb ∨ 16 - n < x.tnsMin ∨ 16 - n < (s.eng engine.val).tnsHeld then s
      else s.boundaryAt engine.val (s.eng engine.val).tb n (fun v => { v with tb := n, waitGfx := none })) := by
  show execGranuleBoundaryMove engine s = _
  unfold execGranuleBoundaryMove
  simp only [working, free, part, Option.bind_some, hx, idle, waits, Bool.not_false, Bool.and_self, Bool.or_eq_true,
    decide_eq_true_eq, or_assoc]
  split <;> rename_i h
  · exact congrArg _ (if_pos h).symm
  · exact congrArg _ (if_neg h).symm

theorem boundaryMove_idle (working : s.working = true) (free : s.frozen engine.val = false)
    (part : s.partOf engine.val = some k) (hx : s.part? k = some x) (tns : (s.eng engine.val).waitTns = none)
    (gfx : (s.eng engine.val).waitGfx = none) : exec (.granuleBoundaryMove engine) s = .next s := by
  show execGranuleBoundaryMove engine s = _
  unfold execGranuleBoundaryMove
  simp only [working, free, part, Option.bind_some, hx, tns, gfx, Bool.not_false, Bool.and_self]

end

/-- Settles O29: a move makes the granules between the two boundaries undefined (`Eng.lose_undefined`) and leaves the
others (`Eng.lose_tileByte`). -/
theorem granuleBoundaryMovesForTheWaiting : Obligations.GranuleBoundaryMovesForTheWaiting := by
  unfold Obligations.GranuleBoundaryMovesForTheWaiting
  intro engine s k x e v gfx tns working free part hx
  have kept : ∀ {a b c d g h : Nat}, b < a → c ≤ d → g ≤ h → ¬(a ≤ b ∨ d < c ∨ h < g) := by omega
  refine ⟨fun n waits => ⟨fun moves floor held => ?_, fun stays => ?_⟩,
    fun n idle waits => ⟨fun moves floor held => ?_, fun stays => ?_⟩, boundaryMove_idle working free part hx⟩
  · have run := (boundaryMove_tensor working free part hx waits).trans (congrArg _ (if_neg (kept moves floor held)))
    have eng := boundaryAt_eng s e (16 - n) v.tb (fun v => { v with tb := 16 - n, waitTns := none })
    exact ⟨_, run, by rw [eng], by rw [eng], by rw [eng]; rfl, boundaryAt_memoryKept _ _ _ _ _,
      fun b outside => by rw [eng]; exact v.lose_tileByte s.clk.fresh outside,
      fun i low high => by rw [eng]; exact v.lose_undefined s.clk.fresh low high⟩
  · exact (boundaryMove_tensor working free part hx waits).trans (congrArg _ (if_pos stays))
  · have run := (boundaryMove_graphics working free part hx idle waits).trans
      (congrArg _ (if_neg (kept moves floor held)))
    have eng := boundaryAt_eng s e v.tb n (fun v => { v with tb := n, waitGfx := none })
    exact ⟨_, run, by rw [eng], by rw [eng], by rw [eng]; rfl, boundaryAt_memoryKept _ _ _ _ _,
      fun b outside => by rw [eng]; exact v.lose_tileByte s.clk.fresh outside⟩
  · exact (boundaryMove_graphics working free part hx idle waits).trans (congrArg _ (if_pos stays))

end Sys2Proof.Machine

/-! ## The next command of a queue (R150, R180, R314 to R317, R320, R348, R365, R370) -/

namespace Sys2Proof.Machine

set_option Elab.async false

@[simp] theorem eng_endCmd (s : State) (q cmd err detail k : Nat) : (s.endCmd q cmd err detail).eng k = s.eng k := rfl

/-! ### What may differ -/

/-- Two states that differ at most in queues, convoys and engines. -/
def Within (s t : State) : Prop := ∃ q c e, t = { s with queues := q, convoys := c, engines := e }

theorem Within.refl (s : State) : Within s s := ⟨s.queues, s.convoys, s.engines, rfl⟩
theorem Within.trans {s t u : State} (h : Within s t) (k : Within t u) : Within s u := by
  obtain ⟨_, _, _, rfl⟩ := h
  obtain ⟨_, _, _, rfl⟩ := k
  exact ⟨_, _, _, rfl⟩
theorem Within.kept {s t : State} (h : Within s t) :
    { t with queues := s.queues, convoys := s.convoys, engines := s.engines } = s := by
  obtain ⟨_, _, _, rfl⟩ := h
  rfl
theorem Within.modQueue (s : State) (q : Nat) (f : Queue → Queue) : Within s (s.modQueue q f) :=
  ⟨_, s.convoys, s.engines, rfl⟩
theorem Within.modCmd (s : State) (q i : Nat) (f : Cmd → Cmd) : Within s (s.modCmd q i f) := .modQueue s q _
theorem Within.endCmd (s : State) (q i err detail : Nat) : Within s (s.endCmd q i err detail) := .modQueue s q _
theorem Within.modEng (s : State) (e : Nat) (f : Eng → Eng) : Within s (s.modEng e f) := ⟨s.queues, s.convoys, _, rfl⟩
theorem Within.modConvoy (s : State) (k : Nat) (f : Convoy → Convoy) : Within s (s.modConvoy k f) :=
  ⟨s.queues, _, s.engines, rfl⟩
theorem Within.ite {s a b : State} {p : Prop} [Decidable p] (ha : Within s a) (hb : Within s b) :
    Within s (if p then a else b) := by
  split <;> assumption
theorem ConvoysOnly.within {s t : State} (h : ConvoysOnly s t) : Within s t := by
  obtain ⟨m, rfl⟩ := h
  exact ⟨s.queues, m, s.engines, rfl⟩

theorem refreshCharge_within (s : State) (e : Nat) : Within s (s.refreshCharge e) := by
  unfold State.refreshCharge
  split
  · exact .refl s
  · split
    · exact .refl s
    · exact .modEng s e _

/-- A command marked started, its layer's start noted. -/
def State.noted (s : State) (q : Nat) (c : Cmd) : State := (s.modCmd q c.index Cmd.begin).noteLayer q c false

theorem noted_within (s : State) (q : Nat) (c : Cmd) : Within s (s.noted q c) :=
  (Within.modCmd s q c.index _).trans (noteLayer_convoysOnly _ q c false).within

theorem noted_engines (s : State) (q : Nat) (c : Cmd) : (s.noted q c).engines = s.engines := by
  obtain ⟨m, noted⟩ := noteLayer_convoysOnly (s.modCmd q c.index Cmd.begin) q c false
  rw [State.noted, noted]
  rfl

theorem beginCmd_within (s : State) (q : Nat) (v : Queue) (c : Cmd) : Within s (s.beginCmd q v c) :=
  .ite ((noted_within s q c).trans (refreshCharge_within _ _)) (noted_within s q c)

section

variable {s t : State} (h : Within s t)

include h

theorem Within.awaitHolds (payload : List Byte) : t.awaitHolds payload = s.awaitHolds payload := by
  obtain ⟨_, _, _, rfl⟩ := h
  rfl
theorem Within.partition (e : Nat) : (t.partOf e).bind t.part? = (s.partOf e).bind s.part? := by
  obtain ⟨_, _, _, rfl⟩ := h
  rfl

end

/-! ### One command differs -/

/-- Every command is as before, but the one of a queue with this index, which is now c. -/
structure CmdIs (s t : State) (q i : Nat) (c : Cmd) : Prop where
  own : t.cmd? q i = some c
  others : ∀ k n, (k, n) ≠ (q, i) → t.cmd? k n = s.cmd? k n

section

variable {s t u : State} {q i : Nat} {c d : Cmd}

theorem CmdIs.refl (hc : s.cmd? q i = some c) : CmdIs s s q i c := ⟨hc, fun _ _ _ => rfl⟩
theorem CmdIs.trans (h : CmdIs s t q i c) (k : CmdIs t u q i d) : CmdIs s u q i d :=
  ⟨k.own, fun j n hne => (k.others j n hne).trans (h.others j n hne)⟩
theorem CmdIs.congr (h : CmdIs s t q i c) (queues : u.queues = t.queues) : CmdIs s u q i c :=
  ⟨(State.cmd?_congr queues q i).trans h.own, fun k n hne => (State.cmd?_congr queues k n).trans (h.others k n hne)⟩

theorem CmdIs.modCmd (h : CmdIs s t q i c) {f : Cmd → Cmd} (hf : ∀ c, (f c).index = c.index) :
    CmdIs s (t.modCmd q i f) q i (f c) := by
  refine ⟨?_, fun k n hne => ?_⟩
  · rw [cmd?_modCmd t q i hf, if_pos ⟨rfl, rfl⟩, h.own]
    rfl
  · rw [cmd?_modCmd t q i hf, if_neg fun e => hne (by rw [e.1, e.2]), h.others k n hne]

theorem CmdIs.begun (h : CmdIs s t q i c) (begun : Begun t u q i) : CmdIs s u q i c.begin :=
  (h.modCmd (f := Cmd.begin) fun _ => rfl).congr begun.queues

/-- The work of the command is over. -/
theorem CmdIs.ended (h : CmdIs s t q i c) (open' : ∀ x, c.st ≠ .ended x) (err : Nat) :
    CmdIs s (t.endCmd q i err 0) q i { c with st := .ended err, detail := 0 } := by
  have e := h.modCmd (Cmd.finish_index err 0)
  rw [Cmd.finish_open open'] at e
  exact e

/-- A change of a queue that leaves its commands alone. -/
theorem CmdIs.modQueue (h : CmdIs s t q i c) (k : Nat) {f : Queue → Queue} (hf : ∀ v, (f v).cmds = v.cmds) :
    CmdIs s (t.modQueue k f) q i c := by
  have same : ∀ j n, (t.modQueue k f).cmd? j n = t.cmd? j n := fun j n => by
    rw [State.cmd?, State.queue?_modQueue, State.cmd?]
    by_cases hj : j = k
    · subst hj
      rw [if_pos rfl]
      cases t.queue? j with
      | none => rfl
      | some v => simp [hf]
    · rw [if_neg hj]
  exact ⟨(same q i).trans h.own, fun j n hne => (same j n).trans (h.others j n hne)⟩

end

theorem Cmd.begin_open (c : Cmd) (x : Nat) : c.begin.st ≠ .ended x := fun e => nomatch e

/-- A command that has begun and ended at once. -/
theorem begun_ends {s t : State} {q : Nat} {c : Cmd} (hc : s.cmd? q c.index = some c) (begun : Begun s t q c.index)
    (err : Nat) : CmdEnds s (t.endCmd q c.index err 0) q c err := by
  have ended := ((CmdIs.refl hc).begun begun).ended c.begin_open err
  exact ⟨ended.own, ended.others⟩

/-! ### The next command -/

theorem nextStart_accepted {v : Queue} {c : Cmd} (h : v.nextStart = some c) : c.st = .accepted := by
  unfold Queue.nextStart at h
  split at h
  · cases h
  next found =>
    dsimp only at h
    split at h
    · obtain rfl := Option.some.inj h
      simpa using List.find?_some found
    · cases h

/-- What it means that a command may start now. -/
theorem startable_gives {s : State} {q op : Nat} {v : Queue} {c : Cmd} (h : s.startable q op = some (v, c)) :
    s.queue? q = some v ∧ c.opcode = op ∧ c.st = .accepted := by
  unfold State.startable at h
  split at h
  · cases h
  next v' hv =>
    split at h
    · cases h
    · split at h
      next c' next =>
        split at h
        next hop =>
          obtain ⟨rfl, rfl⟩ := Prod.mk.inj (Option.some.inj h)
          exact ⟨hv, hop, nextStart_accepted next⟩
        · cases h
      · cases h

theorem open_of_accepted {c : Cmd} (h : c.st = .accepted) (x : Nat) : c.st ≠ .ended x := by
  rw [h]
  exact fun e => nomatch e

section

variable {queue : Half} {s : State} {v : Queue} {c : Cmd} {op : Nat} {e : Nat}

/-- What ends at once: the effect of the opcode lies between the start and the end of the command. -/
theorem instant_runs (h : s.startable queue.toNat op = some (v, c)) (f : Queue → Cmd → State → State) :
    s.instant queue op f = .next ((f v c (s.noted queue.toNat c)).endCmd queue.toNat c.index 0 0) := by
  unfold State.instant
  simp only [h]
  rfl

theorem instant_stays (h : s.startable queue.toNat op = none) (f : Queue → Cmd → State → State) :
    s.instant queue op f = .next s := by
  unfold State.instant
  simp only [h]

/-! ### Markers and events -/

theorem instant_ends (h : s.startable queue.toNat op = some (v, c)) (hc : s.cmd? queue.toNat c.index = some c) :
    ∃ t, s.instant queue op (fun _ _ s => s) = .next t ∧ CmdEnds s t queue.toNat c 0
      ∧ { t with queues := s.queues, convoys := s.convoys, engines := s.engines } = s ∧ t.engines = s.engines :=
  ⟨_, instant_runs h _, begun_ends hc (noted_begun s _ c) 0, ((noted_within s _ c).trans (.endCmd _ _ _ _ _)).kept,
    noted_engines s _ c⟩

/-- TILE_HOLD and TILE_FREE set the mark of their engine. -/
theorem tileMark_ends (h : s.startable queue.toNat op = some (v, c)) (hc : s.cmd? queue.toNat c.index = some c) (b : Bool) :
    ∃ t, s.instant queue op (fun v _ s => s.modEng v.unit (fun x => { x with tileHold := b })) = .next t
      ∧ CmdEnds s t queue.toNat c 0 ∧ { t with queues := s.queues, convoys := s.convoys, engines := s.engines } = s
      ∧ t.eng v.unit = { s.eng v.unit with tileHold := b } ∧ ∀ n, n ≠ v.unit → t.eng n = s.eng n := by
  have eng : ∀ n, (s.noted queue.toNat c).eng n = s.eng n := fun n => by
    rw [State.eng, noted_engines]
    rfl
  have ended := (((CmdIs.refl hc).begun (noted_begun s _ c)).congr (u := (s.noted queue.toNat c).modEng v.unit
    (fun x => { x with tileHold := b })) rfl).ended c.begin_open 0
  refine ⟨_, instant_runs h _, ⟨ended.own, ended.others⟩,
    ((noted_within s _ c).trans ((Within.modEng _ _ _).trans (.endCmd _ _ _ _ _))).kept, ?_, fun n hn => ?_⟩
  · rw [eng_endCmd, State.eng_modEng, eng]
  · rw [eng_endCmd, State.eng_modEng_ne _ _ hn, eng]

theorem execEventAwait_runs (h : s.startable queue.toNat 0x03 = some (v, c)) : exec (.eventAwait queue) s = .next (
    if s.awaitHolds c.payload then ((s.beginCmd queue.toNat v c).endCmd queue.toNat c.index 0 0).queueAcquire v
    else s.beginCmd queue.toNat v c) := by
  show execEventAwait queue s = _
  unfold execEventAwait
  simp only [h, (beginCmd_within s queue.toNat v c).awaitHolds]

theorem queueAcquire_queues (s : State) (v : Queue) : (s.queueAcquire v).queues = s.queues := by
  unfold State.queueAcquire
  split <;> rfl

theorem queueAcquire_within (s : State) (v : Queue) : Within s (s.queueAcquire v) :=
  .ite (.modEng s v.unit _) (.refl s)

theorem queueAcquire_readOnly (s : State) (h : v.kind = 0) :
    ∀ l ∈ ((s.queueAcquire v).eng v.unit).l1, l.2.readOnly = true := by
  intro l hl
  rw [State.queueAcquire, if_pos h, State.acquire, State.eng_modEng] at hl
  exact (List.mem_filter.1 hl).2

/-- A queue after a command of it has changed. -/
theorem queue?_endCmd (s : State) {q : Nat} (hv : s.queue? q = some v) (i err : Nat) :
    ∃ l, (s.endCmd q i err 0).queue? q = some { v with cmds := l } := by
  rw [endCmd_eq, queue?_modCmd, if_pos rfl, hv]
  exact ⟨_, rfl⟩

/-! ### BATCH_START -/

theorem execBatchStart_untimed (h : s.startable queue.toNat 0x30 = some (v, c)) (untimed : c.inStream = true
    ∨ ∀ k x, v.convoy = some k → s.convoy? k = some x → x.timed = none) :
    exec (.batchStart queue) s = .next (s.endCmd queue.toNat c.index 0 0) := by
  show execBatchStart queue s = _
  unfold execBatchStart
  simp only [h]
  cases hk : v.convoy.bind s.convoy? with
  | none => rfl
  | some x =>
    obtain ⟨k, convoy, found⟩ := Option.bind_eq_some_iff.1 hk
    rw [Option.bind_some]
    rcases untimed with inStream | untimed
    · rw [if_pos inStream]
    · rw [untimed k x convoy found]
      cases c.inStream <;> rfl

/-- A BATCH_START of a timed convoy passes or holds its queue. -/
theorem execBatchStart_timed (h : s.startable queue.toNat 0x30 = some (v, c)) {k : Nat} {x : Convoy} {tm : Timed}
    (main : c.inStream = false) (convoy : v.convoy = some k) (found : s.convoy? k = some x) (timed : x.timed = some tm) :
    exec (.batchStart queue) s = .next (if x.batch.isSome = true ∧ v.batchDone = false ∧ v.inBatch = false
      then s.passBatchStart queue.toNat else s.modQueue queue.toNat (fun v => { v with atBatchStart := true })) := by
  show execBatchStart queue s = _
  unfold execBatchStart
  simp only [h, convoy, Option.bind_some, found, main, timed, Option.map_some, Bool.false_eq_true, if_false]
  by_cases passes : x.batch.isSome = true ∧ v.batchDone = false ∧ v.inBatch = false
  · obtain ⟨released, fresh, outside⟩ := passes
    simp [released, fresh, outside]
  · rw [if_neg passes, if_neg]
    simpa [and_assoc] using passes

theorem passBatchStart_eq {q : Nat} (hv : s.queue? q = some v)
    (found : v.cmds.find? (fun d => d.opcode = 0x30 && d.st ≠ .ended 0) = some c) : s.passBatchStart q
      = (s.endCmd q c.index 0 0).modQueue q (fun v => { v with atBatchStart := false, inBatch := true }) := by
  unfold State.passBatchStart
  simp only [hv, found]

/-! ### SWITCH_POINT -/

theorem batchOf_gives {q k : Nat} {x : Convoy} {b : Batch} (h : s.batchOf q = some (k, x, b)) (hv : s.queue? q = some v) :
    v.inBatch = true ∧ v.convoy = some k ∧ s.convoy? k = some x ∧ x.batch = some b := by
  unfold State.batchOf at h
  rw [hv] at h
  dsimp only at h
  split at h
  · cases h
  next inside =>
    obtain ⟨k', convoy, h⟩ := Option.bind_eq_some_iff.1 h
    obtain ⟨x', found, h⟩ := Option.bind_eq_some_iff.1 h
    obtain ⟨b', batch, h⟩ := Option.map_eq_some_iff.1 h
    simp only [Prod.mk.injEq] at h
    obtain ⟨rfl, rfl, rfl⟩ := h
    exact ⟨by simpa using inside, convoy, found, batch⟩

theorem batchOf_of {q k : Nat} {x : Convoy} {b : Batch} (hv : s.queue? q = some v) (inside : v.inBatch = true)
    (convoy : v.convoy = some k) (found : s.convoy? k = some x) (batch : x.batch = some b) :
    s.batchOf q = some (k, x, b) := by
  unfold State.batchOf
  simp [hv, inside, convoy, found, batch]

/-- Is a batch late at a point, by the predictions of the layers that follow (R370)? -/
abbrev Timed.LateAt (tm : Timed) (pt : PointEnt) (now tR : Nat) : Prop :=
  tm.deadline - tm.margin < now - tR + ((tm.layers.drop pt.before).map (fun l => l.prediction)).sum

theorem foldl_prediction (l : List LayerEnt) :
    l.foldl (fun a l => a + l.prediction) 0 = (l.map (fun l => l.prediction)).sum := by
  rw [List.sum_eq_foldl_nat, List.foldl_map]

/-- A batch that has decided at point p. -/
def Batch.decideAt (b : Batch) (p : Nat) (late : Prop) [Decidable late] : Batch :=
  { b with decided := p :: b.decided, diverted := if late then some p else none }

section

variable {q k p : Nat} {x : Convoy} {b : Batch} {tm : Timed} {pt : PointEnt}

/-- The first SWITCH_POINT of a batch at a point decides. -/
theorem decidePoint_fresh (found : s.convoy? k = some x) (batch : x.batch = some b) (timed : x.timed = some tm)
    (point : tm.points[p]? = some pt) (fresh : p ∉ b.decided ∧ b.diverted = none) : s.decidePoint k p
      = s.modConvoy k (fun v => { v with batch := some (b.decideAt p (tm.LateAt pt s.fclk b.tR)) }) := by
  obtain ⟨new, on⟩ := fresh
  unfold State.decidePoint
  simp only [found, timed, batch, point, foldl_prediction]
  rw [if_neg (by simp [new, on])]
  rfl

/-- A batch that has decided at the point, or runs its fallback, decides no more. -/
theorem decidePoint_stale (found : s.convoy? k = some x) (batch : x.batch = some b) (timed : x.timed = some tm)
    (stale : ¬(p ∉ b.decided ∧ b.diverted = none)) : s.decidePoint k p = s := by
  unfold State.decidePoint
  simp only [found, timed, batch]
  rw [if_pos]
  by_cases new : p ∈ b.decided
  · simp [new]
  · obtain ⟨d, hd⟩ := Option.ne_none_iff_exists'.1 fun none => stale ⟨new, none⟩
    simp [hd]

/-- The fallback stream of a unit at a point (R371). -/
def PointEnt.streamOf (pt : PointEnt) (unit : Nat) : Stream :=
  { next := ((pt.streams.find? (fun t => t.1 = unit)).map (fun t => t.2)).getD 0, ended := false, err := 0, detail := 0 }

/-- A queue enters its fallback stream where its batch has been diverted at the point. -/
theorem divert_eq (hv : s.queue? q = some v) (batchOf : s.batchOf q = some (k, x, b)) (timed : x.timed = some tm)
    (point : tm.points[p]? = some pt) (main : v.diverted = none) : s.divert q p = if b.diverted = some p then
      s.modQueue q (fun w => { w with diverted := some p, stream := some (pt.streamOf v.unit) }) else s := by
  unfold State.divert
  rw [batchOf, hv]
  simp [timed, point, main, PointEnt.streamOf]

/-- What the diversion leaves of the queue and of its commands. -/
theorem divert_leaves (hv : s.queue? q = some v) (hc : s.cmd? q c.index = some c) (batchOf : s.batchOf q = some (k, x, b))
    (timed : x.timed = some tm) (point : tm.points[p]? = some pt) (main : v.diverted = none) :
    ∃ w, (s.divert q p).queue? q = some w ∧ CmdIs s (s.divert q p) q c.index c ∧ Within s (s.divert q p)
      ∧ (s.divert q p).convoys = s.convoys ∧ (b.diverted ≠ some p → w = v)
      ∧ (b.diverted = some p → w.diverted = some p ∧ w.stream = some (pt.streamOf v.unit)) := by
  have run := divert_eq hv batchOf timed point main
  by_cases go : b.diverted = some p
  · rw [if_pos go] at run
    rw [run]
    exact ⟨_, (State.queue?_modQueue s q q _).trans (by rw [if_pos rfl, hv]; rfl),
      (CmdIs.refl hc).modQueue q fun _ => rfl, .modQueue s q _, rfl, fun stays => absurd go stays, fun _ => ⟨rfl, rfl⟩⟩
  · rw [if_neg go] at run
    rw [run]
    exact ⟨v, hv, .refl hc, .refl s, rfl, fun _ => rfl, fun goes => absurd goes go⟩

end

theorem execSwitchPoint_passes (h : s.startable queue.toNat 0x31 = some (v, c))
    (outside : s.batchOf queue.toNat = none ∨ c.inStream = true ∨ v.stream ≠ none) :
    exec (.switchPoint queue) s = .next (s.endCmd queue.toNat c.index 0 0) := by
  show execSwitchPoint queue s = _
  unfold execSwitchPoint
  simp only [h]
  split
  · rfl
  next batch =>
    refine if_pos ?_
    rcases outside with none | inStream | stream
    · rw [none] at batch
      cases batch
    · rw [inStream, Bool.true_or]
    · rw [Option.isSome_iff_ne_none.2 stream, Bool.or_true]

theorem execSwitchPoint_decides (h : s.startable queue.toNat 0x31 = some (v, c)) {k : Nat} {x : Convoy} {b : Batch}
    (batch : s.batchOf queue.toNat = some (k, x, b)) (main : c.inStream = false) (stream : v.stream = none) :
    exec (.switchPoint queue) s = .next (((s.decidePoint k (getLe c.payload 0 2)).divert queue.toNat
      (getLe c.payload 0 2)).endCmd queue.toNat c.index 0 0) := by
  show execSwitchPoint queue s = _
  unfold execSwitchPoint
  simp only [h, batch]
  exact if_neg (by simp [main, stream])

end

theorem convoy?_modConvoy (s : State) (k : Nat) (f : Convoy → Convoy) :
    (s.modConvoy k f).convoy? k = (s.convoy? k).map f := by
  simp [State.convoy?, State.modConvoy, mget_mmod]

section

variable {s : State} {v : Queue} {q k p : Nat} {x : Convoy} {b : Batch} {tm : Timed} {pt : PointEnt}

/-- The first SWITCH_POINT of a batch at point p. -/
def Batch.FreshAt (b : Batch) (p : Nat) : Prop := p ∉ b.decided ∧ b.diverted = none

/-- The batch's queues go to their fallback streams at point p. -/
def Batch.GoesAt (b : Batch) (p : Nat) (late : Prop) : Prop := b.diverted = some p ∨ (b.FreshAt p ∧ late)

/-- What the decision leaves: its batch is diverted at p exactly if the queues go. -/
theorem decidePoint_leaves (hv : s.queue? q = some v) (batch : s.batchOf q = some (k, x, b)) (timed : x.timed = some tm)
    (point : tm.points[p]? = some pt) :
    let u := s.decidePoint k p
    let late := tm.LateAt pt s.fclk b.tR
    ∃ x' b', Within s u ∧ u.queues = s.queues ∧ x'.timed = some tm ∧ u.batchOf q = some (k, x', b')
      ∧ (b.FreshAt p → u.convoy? k = some { x with batch := some (b.decideAt p late) })
      ∧ (¬ b.FreshAt p → u.convoys = s.convoys) ∧ (b'.diverted = some p ↔ b.GoesAt p late) := by
  intro u late
  obtain ⟨inside, convoy, found, hb⟩ := batchOf_gives batch hv
  by_cases new : b.FreshAt p
  · have decided : u = s.modConvoy k (fun v => { v with batch := some (b.decideAt p late) }) :=
      decidePoint_fresh found hb timed point new
    have convoy' : u.convoy? k = some { x with batch := some (b.decideAt p late) } := by
      rw [decided, convoy?_modConvoy, found]
      rfl
    refine ⟨{ x with batch := some (b.decideAt p late) }, b.decideAt p late, ?_, by rw [decided]; rfl, timed,
      batchOf_of (by rw [decided]; exact hv) inside convoy convoy' rfl, fun _ => convoy', fun stale => absurd new stale, ?_⟩
    · rw [decided]
      exact .modConvoy s k _
    · show (if late then some p else none) = some p ↔ _
      by_cases hl : late <;> simp [hl, Batch.GoesAt, new, new.2]
  · have decided : u = s := decidePoint_stale found hb timed new
    rw [decided]
    exact ⟨x, b, .refl s, rfl, timed, batch, fun h => absurd h new, fun _ => rfl, by simp [Batch.GoesAt, new]⟩

/-- The decision at a point and its queue's diversion, for a command that ends with it (R370, R371). -/
theorem switchPoint_ends {c : Cmd} (hv : s.queue? q = some v) (hc : s.cmd? q c.index = some c)
    (open' : ∀ y, c.st ≠ .ended y) (batch : s.batchOf q = some (k, x, b)) (stream : v.stream = none)
    (main : v.diverted = none) (timed : x.timed = some tm) (point : tm.points[p]? = some pt) :
    let t := ((s.decidePoint k p).divert q p).endCmd q c.index 0 0
    let late := tm.LateAt pt s.fclk b.tR
    ∃ w, CmdEnds s t q c 0 ∧ { t with queues := s.queues, convoys := s.convoys, engines := s.engines } = s
      ∧ t.queue? q = some w
      ∧ (b.FreshAt p → t.convoy? k = some { x with batch := some (b.decideAt p late) })
      ∧ (¬ b.FreshAt p → t.convoys = s.convoys) ∧ (¬ b.GoesAt p late → w.diverted = none ∧ w.stream = none)
      ∧ (b.GoesAt p late → w.diverted = some p ∧ ∀ a, pt.streams.find? (fun y => y.1 = v.unit) = some (v.unit, a) →
          w.stream = some { next := a, ended := false, err := 0, detail := 0 }) := by
  intro t late
  obtain ⟨x', b', decides, queues, timed', batch', fresh, stale, goes⟩ := decidePoint_leaves hv batch timed point
  have hv' : (s.decidePoint k p).queue? q = some v := by rw [State.queue?, queues]; exact hv
  have hc' : CmdIs s (s.decidePoint k p) q c.index c := (CmdIs.refl hc).congr queues
  obtain ⟨w, hw, is, diverts, convoys, stays, leaves⟩ := divert_leaves hv' hc'.own batch' timed' point main
  obtain ⟨l, hl⟩ := queue?_endCmd ((s.decidePoint k p).divert q p) hw c.index 0
  have ended := (hc'.trans is).ended open' 0
  refine ⟨{ w with cmds := l }, ⟨ended.own, ended.others⟩, (decides.trans (diverts.trans (.endCmd _ _ _ _ _))).kept, hl,
    fun new => ?_, fun old => convoys.trans (stale old), fun no => ?_, fun go => ?_⟩
  · show mget (State.convoys (State.divert _ _ _)) k = _
    rw [convoys]
    exact fresh new
  · rw [stays fun d => no (goes.1 d)]
    exact ⟨main, stream⟩
  · obtain ⟨at', next⟩ := leaves (goes.2 go)
    refine ⟨at', fun a named => next.trans ?_⟩
    rw [PointEnt.streamOf, named]
    rfl

end

end Sys2Proof.Machine

/-! ## Dispatches and gang layers at their start (R141, R144, R150, R315, R316) -/

namespace Sys2Proof.Machine

set_option Elab.async false

section

variable {s u : State} {q : Nat} {v : Queue} {c c' : Cmd} {d : Disp}

/-! ### A dispatch starts, waits or fails -/

/-- The tensor granules of a dispatch can never be had (R144). -/
def GranulesNever (s : State) (e : Nat) (d : Disp) : Prop :=
  ∃ y, (s.partOf e).bind s.part? = some y ∧ 16 - y.gfxMin < d.granules

/-- The tensor granules of a dispatch can be had now (R141, R144). -/
def GranulesFit (v : Eng) (d : Disp) : Prop := d.granules = 0 ∨ (d.granules ≤ 16 - v.tb ∧ v.waitGfx = none)

theorem dispFit_size (e : Nat) (h : d.launchable = false) : s.dispFit e d = .error eWorkgroupSize := by
  unfold State.dispFit
  rw [h]
  rfl

/-- The outcome for a dispatch whose workgroups can be launched, on an engine of a partition. -/
theorem dispFit_granules {e : Nat} {y : Partition} (h : d.launchable = true) (part : (s.partOf e).bind s.part? = some y) :
    s.dispFit e d = if 16 - y.gfxMin < d.granules then .error eTileGranules
      else .ok (d.granules = 0 || (d.granules ≤ 16 - (s.eng e).tb && (s.eng e).waitGfx.isNone)) := by
  unfold State.dispFit State.tnsFit
  simp only [h, part, Bool.not_true, Bool.false_eq_true, if_false]
  by_cases never : 16 - y.gfxMin < d.granules
  · simp [never]
  · simp [never]

theorem dispFit_never {e : Nat} (h : d.launchable = true) (never : GranulesNever s e d) :
    s.dispFit e d = .error eTileGranules := by
  obtain ⟨y, part, beyond⟩ := never
  rw [dispFit_granules h part, if_pos beyond]

theorem dispFit_ok {e : Nat} (h : d.launchable = true) (can : ¬ GranulesNever s e d)
    (part : (s.partOf e).bind s.part? ≠ none) (b : Bool) (fits : b = true ↔ GranulesFit (s.eng e) d) :
    s.dispFit e d = .ok b := by
  obtain ⟨y, hy⟩ := Option.ne_none_iff_exists'.1 part
  rw [dispFit_granules h hy, if_neg fun beyond => can ⟨y, hy, beyond⟩]
  refine congrArg _ (Bool.eq_iff_iff.2 (Iff.trans ?_ fits.symm))
  simp [GranulesFit]

/-- A state in which a command of engine e is about to start: only its record, c' instead of c, and fields of the engine
that its dispatch does not look at differ. -/
structure Prepared (s u : State) (q e : Nat) (c c' : Cmd) : Prop where
  index : c'.index = c.index
  cmd : CmdIs s u q c'.index c'
  unfinished : ∀ x, c'.st ≠ .ended x
  within : Within s u
  disps : (u.eng e).disps = (s.eng e).disps
  tb : (u.eng e).tb = (s.eng e).tb
  waitGfx : (u.eng e).waitGfx = (s.eng e).waitGfx

theorem Prepared.refl (hc : s.cmd? q c.index = some c) (open' : ∀ x, c.st ≠ .ended x) (e : Nat) : Prepared s s q e c c :=
  ⟨rfl, .refl hc, open', .refl s, rfl, rfl, rfl⟩

/-- How DISPATCH and a fallback kernel end, wait or go on. -/
def StartsAs (s : State) (i : Instr) (q e : Nat) (c c' : Cmd) (d : Disp) : Prop :=
  (d.launchable = false → ∃ t, exec i s = .next t ∧ CmdEnds s t q c' 0x010A ∧ (t.eng e).disps = (s.eng e).disps)
  ∧ (d.launchable = true → GranulesNever s e d → ∃ t, exec i s = .next t ∧ CmdEnds s t q c' 0x0106
      ∧ (t.eng e).disps = (s.eng e).disps)
  ∧ (d.launchable = true → ¬ GranulesNever s e d → (s.partOf e).bind s.part? ≠ none → GranulesFit (s.eng e) d →
      ∃ t, exec i s = .next t ∧ CmdStarts s t q c'
        ∧ { t with queues := s.queues, convoys := s.convoys, engines := s.engines } = s
        ∧ (t.eng e).disps = (s.eng e).disps ++ [d] ∧ (t.eng e).waitTns = none)
  ∧ (d.launchable = true → ¬ GranulesNever s e d → (s.partOf e).bind s.part? ≠ none → ¬ GranulesFit (s.eng e) d →
      (s.eng e).waitGfx = none →
      ∃ t, exec i s = .next t ∧ (∀ k n, (k, n) ≠ (q, c.index) → t.cmd? k n = s.cmd? k n)
        ∧ { t with queues := s.queues, convoys := s.convoys, engines := s.engines } = s
        ∧ t.cmd? q c.index = some c' ∧ (t.eng e).waitTns = some d.granules ∧ (t.eng e).disps = (s.eng e).disps)

section

variable {e : Nat}

/-- The command begins on its engine. -/
theorem Prepared.begun (h : Prepared s u q e c c') (f : Eng → Eng) :
    CmdIs s ((u.modEng e f).beginCmd q v c) q c'.index c'.begin := by
  have begun := beginCmd_begun (u.modEng e f) q v c
  rw [← h.index] at begun
  exact (h.cmd.congr (u := u.modEng e f) rfl).begun begun

/-- A command that never runs ends with its error, and its engine's dispatches stay. -/
theorem Prepared.refused (h : Prepared s u q e c c') (err : Nat) :
    CmdEnds s (u.refuseCmd q v c err) q c' err ∧ ((u.refuseCmd q v c err).eng e).disps = (s.eng e).disps := by
  have begun := beginCmd_begun u q v c
  have disps : ((u.refuseCmd q v c err).eng e).disps = (u.eng e).disps := begun.field Eng.disps (fun _ => rfl) e
  rw [← h.index] at begun
  have ended := (h.cmd.begun begun).ended c'.begin_open err
  rw [State.refuseCmd, ← h.index]
  exact ⟨⟨ended.own, ended.others⟩, disps.trans h.disps⟩

theorem awaitTns_eng (s : State) (e n : Nat) (gfx : (s.eng e).waitGfx = none) (short : ¬ n ≤ 16 - (s.eng e).tb) :
    (s.awaitTns e n).eng e = { s.eng e with waitTns := some n } := by
  rw [State.awaitTns, State.eng_modEng, if_neg (by simp [gfx, short])]

theorem Prepared.starts {i : Instr} (h : Prepared s u q e c c') (unit : v.unit = e)
    (run : exec i s = .next (u.startDisp q v c d)) : StartsAs s i q e c c' d := by
  subst unit
  have fits : GranulesFit (u.eng v.unit) d ↔ GranulesFit (s.eng v.unit) d := by
    rw [GranulesFit, GranulesFit, h.tb, h.waitGfx]
  have part := h.within.partition v.unit
  have never : GranulesNever u v.unit d ↔ GranulesNever s v.unit d := by rw [GranulesNever, GranulesNever, part]
  unfold State.startDisp at run
  refine ⟨fun size => ?_, fun sized out => ?_, fun sized can place fit => ?_, fun sized can place short free => ?_⟩
  · rw [dispFit_size v.unit size] at run
    exact ⟨_, run, h.refused _⟩
  · rw [dispFit_never sized (never.2 out)] at run
    exact ⟨_, run, h.refused _⟩
  · rw [dispFit_ok sized (mt never.1 can) (part ▸ place) true (by simpa using fits.2 fit)] at run
    have begun := h.begun (v := v) (fun x => { x with disps := x.disps ++ [d], waitTns := none })
    have eng := (beginCmd_begun (u.modEng v.unit (fun x => { x with disps := x.disps ++ [d], waitTns := none })) q v c)
    refine ⟨_, run, ⟨begun.own, begun.others⟩,
      (h.within.trans ((Within.modEng u v.unit _).trans (beginCmd_within _ q v c))).kept, ?_, ?_⟩
    · rw [eng.field Eng.disps (fun _ => rfl), State.eng_modEng, h.disps]
    · rw [eng.field Eng.waitTns (fun _ => rfl), State.eng_modEng]
  · rw [dispFit_ok sized (mt never.1 can) (part ▸ place) false (by simpa using mt fits.1 short)] at run
    have waits := awaitTns_eng u v.unit d.granules (h.waitGfx.trans free) fun room =>
      short (.inr ⟨h.tb ▸ room, free⟩)
    have cmd := h.cmd.congr (u := u.awaitTns v.unit d.granules) rfl
    rw [h.index] at cmd
    exact ⟨_, run, cmd.others, (h.within.trans (.modEng u v.unit _)).kept, cmd.own, by rw [waits], by rw [waits, h.disps]⟩

end

end

theorem execDispatch_runs {queue : Half} {s : State} {v : Queue} {c : Cmd}
    (h : s.startable queue.toNat 0x01 = some (v, c)) (free : s.frozen v.unit = false) : exec (.dispatch queue) s
      = .next (s.startDisp queue.toNat v c (dispOf queue.toNat c (getLe c.payload 0 8) 0 false)) := by
  show execDispatch queue s = _
  unfold execDispatch
  simp only [h]
  exact if_neg (by simp [free])

/-! ### Gang layers -/

/-- The bits of a mask are the list that it was made of. -/
theorem bitList_maskOf_filter (n : Nat) (f : Nat → Bool) :
    bitList (maskOf ((List.range n).filter f)) n = (List.range n).filter f := by
  unfold bitList
  refine List.filter_congr fun i hi => ?_
  rw [bit_eq_testBit, maskOf_testBit, Bool.eq_iff_iff, decide_eq_true_iff, List.mem_filter]
  exact ⟨fun h => h.2, fun h => ⟨hi, h⟩⟩

/-- The member at a position of a Quad is fenced, or out for its microcode (R150, R537). -/
def State.memberOut (s : State) (quad p : Nat) : Bool := s.fenced 0 (4 * quad + p) || s.ucodeTurn = some (4 * quad + p)

theorem gangMask_eq (s : State) (quad : Nat) : s.gangMask quad = maskOf ((List.range 4).filter (s.memberOut quad)) := rfl

theorem gangMask_none {s : State} {quad : Nat} (h : ∀ p, p < 4 → s.memberOut quad p = false) : s.gangMask quad = 0 := by
  rw [gangMask_eq, List.filter_eq_nil_iff.2 fun p hp => by rw [h p (List.mem_range.1 hp)]; decide]
  rfl

/-- The first position out is the head of the mask. -/
theorem gangMask_first {s : State} {quad p : Nat} (hp : p < 4) (out : s.memberOut quad p = true)
    (first : ∀ m, m < p → s.memberOut quad m = false) :
    s.gangMask quad ≠ 0 ∧ (bitList (s.gangMask quad) 4).headD 0 = p := by
  have head : (bitList (s.gangMask quad) 4).head? = some p := by
    rw [gangMask_eq, bitList_maskOf_filter, List.head?_filter, List.find?_range_eq_some]
    exact ⟨out, List.mem_range.2 hp, fun m hm => by rw [first m hm]; rfl⟩
  refine ⟨fun zero => ?_, by rw [List.headD_eq_head?_getD, head]; rfl⟩
  rw [zero] at head
  cases head

section

variable {queue : Half} {s : State} {v : Queue} {c : Cmd}

/-- The engine stands at no rendezvous. -/
def State.withdrawn (s : State) (e : Nat) : State := s.modEng e (fun x => { x with atGang := none, arrive := none })

theorem execGangLayer_fallback (h : s.startable queue.toNat 0x02 = some (v, c)) (free : s.frozen v.unit = false)
    (out : s.gangMask (v.unit / 4) ≠ 0) : exec (.gangLayer queue) s
      = .next ((s.withdrawn v.unit).startFallback queue.toNat v c ((bitList (s.gangMask (v.unit / 4)) 4).headD 0)
          (s.gangMask (v.unit / 4))) := by
  show execGangLayer queue s = _
  unfold execGangLayer
  simp only [h]
  rw [if_neg (by simp [free])]
  exact if_pos out

theorem execGangLayer_member (h : s.startable queue.toNat 0x02 = some (v, c)) (free : s.frozen v.unit = false)
    (present : s.gangMask (v.unit / 4) = 0) :
    ((s.eng v.unit).atGang ≠ none → exec (.gangLayer queue) s = .next s)
    ∧ ((s.eng v.unit).atGang = none → (∀ m ∈ quadOf v.unit, (s.eng m).ucode = (s.eng v.unit).ucode) →
      ((s.eng v.unit).tensors ≠ [] → exec (.gangLayer queue) s = .next s)
      ∧ ((s.eng v.unit).tensors = [] →
        s.dispFit v.unit (dispOf queue.toNat c (getLe c.payload 0 8) 0 true) = .ok true →
        exec (.gangLayer queue) s
          = .next (s.modEng v.unit (fun x => { x with atGang := some (queue.toNat, c.index), waitTns := none })))) := by
  have run : exec (.gangLayer queue) s = if (s.eng v.unit).atGang.isSome then .next s
      else if (quadOf v.unit).any (fun m => (s.eng m).ucode ≠ (s.eng v.unit).ucode) then
        .next (s.draw.2.startFallback queue.toNat v c (s.draw.1 % 4) 0)
      else if !(s.eng v.unit).tensors.isEmpty then .next s
      else match s.dispFit v.unit (dispOf queue.toNat c (getLe c.payload 0 8) 0 true) with
        | .error err => .next (s.refuseCmd queue.toNat v c err)
        | .ok false => .next (s.awaitTns v.unit (dispOf queue.toNat c (getLe c.payload 0 8) 0 true).granules)
        | .ok true =>
          .next (s.modEng v.unit (fun x => { x with atGang := some (queue.toNat, c.index), waitTns := none })) := by
    show execGangLayer queue s = _
    unfold execGangLayer
    simp only [h]
    exact (if_neg (by simp [free])).trans (if_neg (by simp [present]))
  refine ⟨fun stands => ?_, fun away same => ?_⟩
  · rw [run, if_pos (Option.isSome_iff_ne_none.2 stands)]
  · rw [run, away, if_neg (by decide), if_neg (by simpa using same)]
    refine ⟨fun some' => if_pos (by simpa using some'), fun none fit => ?_⟩
    rw [none, if_neg (by decide), fit]

theorem withdrawn_prepared (hc : s.cmd? queue.toNat c.index = some c) (open' : ∀ x, c.st ≠ .ended x) (e : Nat) :
    Prepared s (s.withdrawn e) queue.toNat e c c := by
  refine ⟨rfl, (CmdIs.refl hc).congr rfl, open', .modEng s e _, ?_, ?_, ?_⟩ <;> rw [State.withdrawn, State.eng_modEng]

theorem fallback_prepared (hc : s.cmd? queue.toNat c.index = some c) (open' : ∀ x, c.st ≠ .ended x) (e : Nat) :
    Prepared s ((s.withdrawn e).modCmd queue.toNat c.index (fun c => { c with fallback := true })) queue.toNat e c
      { c with fallback := true } := by
  obtain ⟨_, cmd, _, within, disps, tb, waitGfx⟩ := withdrawn_prepared hc open' e
  exact ⟨rfl, cmd.modCmd (f := fun c => { c with fallback := true }) fun _ => rfl, open', within.trans (.modCmd _ _ _ _),
    disps, tb, waitGfx⟩

end

/-! ### The obligation -/

/-- A command that may not start leaves the state. -/
theorem queueCommand_stays {queue : Half} {s : State} {i : Instr} {op : Nat}
    (member : (i, op) ∈ [(Instr.queueNop queue, 0x00), (.dispatch queue, 0x01), (.gangLayer queue, 0x02),
      (.eventAwait queue, 0x03), (.eventRecord queue, 0x04), (.batchStart queue, 0x30), (.switchPoint queue, 0x31),
      (.tileHold queue, 0x32), (.tileFree queue, 0x33), (.batchEnd queue, 0x34)])
    (h : s.startable queue.toNat op = none) : exec i s = .next s := by
  simp only [List.mem_cons, List.not_mem_nil, or_false, Prod.mk.injEq] at member
  rcases member with ⟨rfl, rfl⟩ | ⟨rfl, rfl⟩ | ⟨rfl, rfl⟩ | ⟨rfl, rfl⟩ | ⟨rfl, rfl⟩ | ⟨rfl, rfl⟩ | ⟨rfl, rfl⟩ | ⟨rfl, rfl⟩
    | ⟨rfl, rfl⟩ | ⟨rfl, rfl⟩
  · exact instant_stays h (fun _ _ s => s)
  · show execDispatch queue s = _; unfold execDispatch; simp only [h]
  · show execGangLayer queue s = _; unfold execGangLayer; simp only [h]
  · show execEventAwait queue s = _; unfold execEventAwait; simp only [h]
  · exact instant_stays h (fun _ _ s => s)
  · show execBatchStart queue s = _; unfold execBatchStart; simp only [h]
  · show execSwitchPoint queue s = _; unfold execSwitchPoint; simp only [h]
  · exact instant_stays h (fun v _ s => s.modEng v.unit (fun x => { x with tileHold := true }))
  · exact instant_stays h (fun v _ s => s.modEng v.unit (fun x => { x with tileHold := false }))
  · exact instant_stays h (fun _ _ s => s)

/-- Settles O50, opcode by opcode: what starts and ends is `CmdIs` of its command, and what the opcode does lies between
(`tileMark_ends`, `switchPoint_ends`, `Prepared.starts`). -/
theorem commandsOfQueuesStart : Obligations.CommandsOfQueuesStart := by
  unfold Obligations.CommandsOfQueuesStart
  intro queue s q
  refine ⟨fun i op member h => queueCommand_stays member h, ?_⟩
  intro op v c h hc e kept part
  obtain ⟨hv, hop, accepted⟩ := startable_gives h
  have open' := open_of_accepted accepted
  refine ⟨fun i member => ?instant, fun i b member => ?tile, fun hop' => ?await, fun hop' => ?start, fun hop' => ?point,
    fun free => ⟨fun hop' => ?dispatch, fun hop' => ?gang⟩⟩
  case instant =>
    simp only [List.mem_cons, List.not_mem_nil, or_false, Prod.mk.injEq] at member
    rcases member with ⟨rfl, rfl⟩ | ⟨rfl, rfl⟩ | ⟨rfl, rfl⟩ <;> exact instant_ends h hc
  case tile =>
    simp only [List.mem_cons, List.not_mem_nil, or_false, Prod.mk.injEq] at member
    rcases member with ⟨rfl, rfl, rfl⟩ | ⟨rfl, rfl, rfl⟩ <;> exact tileMark_ends h hc _
  case await =>
    rw [hop'] at h
    have run := execEventAwait_runs h
    have begun := beginCmd_begun s q v c
    refine ⟨fun holds => ?_, fun waits => ?_⟩
    · rw [if_pos holds] at run
      have ended := ((CmdIs.refl hc).begun begun).ended c.begin_open 0
      have acquired := ended.congr (queueAcquire_queues _ v)
      refine ⟨_, run, ⟨acquired.own, acquired.others⟩, ?_, fun kind => queueAcquire_readOnly _ kind⟩
      exact ((beginCmd_within s q v c).trans ((Within.endCmd _ _ _ _ _).trans (queueAcquire_within _ v))).kept
    · rw [if_neg (by simp [waits])] at run
      have started := (CmdIs.refl hc).begun begun
      exact ⟨_, run, ⟨started.own, started.others⟩, (beginCmd_within s q v c).kept⟩
  case start =>
    rw [hop'] at h
    have ended := (CmdIs.refl hc).ended open' 0
    refine ⟨fun untimed => ⟨_, execBatchStart_untimed h untimed, ⟨ended.own, ended.others⟩, rfl⟩,
      fun k x tm main convoy found timed => ?_⟩
    have run := execBatchStart_timed h main convoy found timed
    refine ⟨fun passes first => ?_, fun holds => ?_⟩
    · rw [if_pos passes, passBatchStart_eq hv first] at run
      have passed := ended.modQueue q (f := fun v => { v with atBatchStart := false, inBatch := true }) fun _ => rfl
      obtain ⟨l, hw⟩ := queue?_endCmd s hv c.index 0
      refine ⟨_, { v with cmds := l, atBatchStart := false, inBatch := true }, run, ⟨passed.own, passed.others⟩, rfl, ?_,
        rfl, rfl⟩
      exact (State.queue?_modQueue _ _ _ _).trans (by rw [if_pos rfl, hw]; rfl)
    · rw [if_neg holds] at run
      exact ⟨_, run, rfl, (State.queue?_modQueue _ _ _ _).trans (by rw [if_pos rfl, hv]; rfl)⟩
  case point =>
    rw [hop'] at h
    intro p
    have ended := (CmdIs.refl hc).ended open' 0
    refine ⟨fun outside => ⟨_, execSwitchPoint_passes h outside, ⟨ended.own, ended.others⟩, rfl⟩,
      fun k x b tm pt batch main stream diverted timed point => ?_⟩
    obtain ⟨w, done⟩ := switchPoint_ends hv hc open' batch stream diverted timed point
    exact ⟨_, w, execSwitchPoint_decides h batch main stream, done⟩
  case dispatch =>
    rw [hop'] at h
    exact (Prepared.refl hc open' e).starts rfl (execDispatch_runs h free)
  case gang =>
    rw [hop'] at h
    intro i out
    have outEq : ∀ p, s.memberOut (e / 4) p = true ↔ out p := fun p => by simp [State.memberOut, out]
    have outNot : ∀ p, s.memberOut (e / 4) p = false ↔ ¬ out p := fun p => by rw [← outEq, Bool.not_eq_true]
    refine ⟨fun p hp isOut first => ?_, fun allIn => ?_⟩
    · obtain ⟨some', head⟩ := gangMask_first hp ((outEq p).2 isOut) fun m hm => (outNot m).2 (first m hm)
      have run := execGangLayer_fallback h free some'
      rw [head] at run
      unfold State.startFallback at run
      refine ⟨fun none => ?_, fun kernel => ?_⟩
      · rw [if_pos none] at run
        exact ⟨_, run, (withdrawn_prepared hc open' e).refused _⟩
      · rw [if_neg kernel] at run
        exact (fallback_prepared hc open' e).starts rfl run
    · obtain ⟨stands, reaches⟩ := execGangLayer_member h free (gangMask_none fun p hp => (outNot p).2 (allIn p hp))
      refine ⟨stands, fun away same => ?_⟩
      obtain ⟨busy, idle⟩ := reaches away same
      refine ⟨busy, fun none sized can place fits => ?_⟩
      have fit := dispFit_ok (s := s) (e := e) sized
        (fun ⟨y, hy, beyond⟩ => absurd (can y hy) (Nat.not_le.2 beyond)) place true (by simpa [GranulesFit] using fits)
      exact ⟨_, idle none fit, rfl, fun n hn => State.eng_modEng_ne s _ hn, State.eng_modEng s e _⟩

end Sys2Proof.Machine

/-! ## A PASS_BEGIN beside a command of its own index (R376, R379) -/

namespace Sys2Proof.Machine

set_option Elab.async false

open Sys2Proof.Tests

/-- A PASS_BEGIN for engine 1, and two DRAWs behind it, of which the last has the index of the PASS_BEGIN. -/
def twinBegin : Cmd := ready 0x10 (passPay 2)
def twinDraws : List Cmd :=
  [{ drawC with index := 1, st := .started }, { drawC with index := 0, st := .started }]
def twinQ : Queue := { passQ (twinBegin :: twinDraws) none with unit := 1 }
/-- An open pass of engines 0 and 1 whose first member begins at the first DRAW. -/
def twinPass : Pass := open0 3 [(0, { queue := 0, cmd := 1, granted := false, ended := none })]
def twinIndex : State := { workIn twinQ [] with passes := [(0, twinPass)], nextPass := 1 }

theorem twinIndex_starts : twinIndex.startable 0 0x10 = some (twinQ, twinBegin) := by decide +kernel
theorem twinIndex_joins : twinIndex.joinable 0 1 = some (0, twinPass) := by decide +kernel
theorem twinIndex_named : 1 ∈ passEngines twinBegin.payload ∧ (1, crc32c twinBegin.payload) ∉ conv0.absent := by
  decide +kernel
theorem twinIndex_differs : crc32c twinPass.payload ≠ crc32c twinBegin.payload := by decide +kernel
theorem twinIndex_abandons : stateAfter (exec (.passBegin 0) twinIndex)
    (fun t => (t.cmd? 0 0).map (fun c => c.st) = some (.ended 0x0602)) = true := by decide +kernel

/-- Refutes O52: an abandoned pass ends the commands of its members by their index, the first end counts, and nothing
keeps two commands of a queue from one index in the states of the statement. Here a DRAW of the first member has the
index of the joining PASS_BEGIN, which so retires with E_PASS_ABANDONED and not with E_PASS_MISMATCH. -/
theorem not_passesOpenBinRenderAndRetire : ¬ Obligations.PassesOpenBinRenderAndRetire := by
  unfold Obligations.PassesOpenBinRenderAndRetire
  intro h
  obtain ⟨commands, _⟩ := h
  obtain ⟨_, _, _, begins, _⟩ := commands 0 twinIndex
  obtain ⟨_, _, joins⟩ := begins twinQ twinBegin 0 conv0 twinIndex_starts (by decide +kernel) rfl rfl
    (by decide +kernel) rfl
  obtain ⟨mismatch, _⟩ := joins 0 twinPass twinIndex_named twinIndex_joins rfl
  obtain ⟨t, run, _, ended⟩ := mismatch twinIndex_differs
  have abandoned := stateAfter_of twinIndex_abandons run
  rw [decide_eq_true_eq, show t.cmd? 0 0 = _ from ended] at abandoned
  cases abandoned

end Sys2Proof.Machine

/-! ## The fence that follows a lost way (R163, R170, R482) -/

namespace Sys2Proof.Machine

set_option Elab.async false

open Sys2Proof.Tests

/-- The oldest record of the collector: F_L2_WAY_OFF of way 14 of slice 0, corrected. -/
def oldestRecord : FltRecord :=
  { code := 0x0204, cls := 0, flags := 0, unitKind := 2, index := 14, recoveries := 0, count := 1, addr := 0, info := 0
    waybill := 0, seq := 0, stamp := 0, detect := 0 }

/-- Slice 0 has two cache ways left, 13 and 14, and one strongroom way; way 14 is at its limit. Its record is 1,024
records old. -/
def lastWays : State :=
  { pool'' (fun m => { m with srWays := 1, slices := [(0, { Slice.reset with off := 0x1FFF, wayCe := [(14, 8)] })] }) with
    flt := { Flt.reset with records := [(0, oldestRecord)], next := 1024 } }

theorem lastWays_reached : lastWays.working = true ∧ lastWays.setting 0x41 ≠ 0
    ∧ lastWays.setting 0x41 ≤ mgetD (lastWays.mem.slice 0).wayCe 14 0 ∧ bit (lastWays.mem.slice 0).off.toNat 14 = false := by
  decide +kernel

/-- The report counts on the oldest record. The slice, with one cache way left, is fenced and loses its strongroom way:
F_STRONGROOM_LOST becomes record 1,024, and the oldest record leaves. -/
theorem lastWays_forgets : stateAfter (exec (.wayCeLimitReached 0 14) lastWays) (fun t =>
    (mget t.flt.records 0).isNone && (mget t.flt.records 1024).map (fun r => r.code) = some 0x0304) = true := by
  decide +kernel

/-- Refutes O54: a way that leaves service can leave its slice fewer than two, the slice's fence then loses its
strongroom ways, and the record of that loss pushes the oldest record out; where the way's own report was counted on that
record, no record of it is left. -/
theorem not_memorySystemKeepsItself : ¬ Obligations.MemorySystemKeepsItself := by
  unfold Obligations.MemorySystemKeepsItself
  intro h
  obtain ⟨_, _, _, limit, _⟩ := h
  obtain ⟨_, _, reached⟩ := limit 0 14 lastWays
  obtain ⟨_, cache⟩ := reached lastWays_reached (by decide)
  obtain ⟨t, run, reported, _⟩ := cache (by decide) (fun p hp => nomatch hp)
  have after := stateAfter_of lastWays_forgets run
  simp only [Bool.and_eq_true, Option.isNone_iff_eq_none, decide_eq_true_eq, Option.map_eq_some_iff] at after
  obtain ⟨gone, r, newest, lost⟩ := after
  rcases reported with ⟨n, _, q, old, kept, _⟩ | ⟨q, new, code, _⟩
  · have first : n = 0 := by
      by_contra hn
      rw [show lastWays.flt.records = [(0, oldestRecord)] from rfl, mget, if_neg (Ne.symm hn)] at old
      cases old
    rw [first, gone] at kept
    cases kept
  · rw [show lastWays.flt.next.toNat = 1024 from rfl, newest] at new
    cases new
    rw [code] at lost
    cases lost

end Sys2Proof.Machine

/-! ## FENCE (R101, R179) -/

namespace Sys2Proof.Machine

set_option Elab.async false

theorem OnlyString.host {s t : State} {w : Site} (h : OnlyString s t w) : t.host = s.host :=
  (congrArg State.host h.2.2 :)
theorem OnlyString.caravan {s t : State} {w : Site} (h : OnlyString s t w) : t.caravan = s.caravan :=
  (congrArg State.caravan h.2.2 :)
theorem OnlyString.l1 {s t : State} {w : Site} (h : OnlyString s t w) (e : Nat) : (t.eng e).l1 = (s.eng e).l1 :=
  (congrArg Eng.l1 (h.2.1 e) :)

/-- Acknowledgements are owed to the requests on the two links alone. -/
theorem State.unacked_congr {s t : State} (host : t.host = s.host) (caravan : t.caravan = s.caravan) (e p : Nat) :
    t.unacked e p = s.unacked e p := by
  unfold State.unacked
  rw [host, caravan]

/-! ### Ordering -/

/-- What a fence of a scope wider than the engine does: acquire, then release. -/
def State.ordered (s : State) (e place : Nat) (acquires releases : Bool) : State :=
  let t := if acquires then s.acquire e else s
  if releases then t.releaseWait e place else t

@[simp] theorem State.acquire_mem (s : State) (e : Nat) : (s.acquire e).mem = s.mem := rfl
@[simp] theorem State.acquire_l1 (s : State) (e : Nat) :
    ((s.acquire e).eng e).l1 = (s.eng e).l1.filter (fun x => x.2.readOnly) := by
  rw [State.acquire, State.eng_modEng]
@[simp] theorem State.acquire_str? (s : State) (e k p : Nat) : (s.acquire e).str? k p = s.str? k p :=
  State.str?_modEng (f := fun v => { v with l1 := v.l1.filter (fun p => p.2.readOnly) }) (fun _ => rfl) s e k p
@[simp] theorem State.acquire_unacked (s : State) (e k p : Nat) : (s.acquire e).unacked k p = s.unacked k p :=
  State.unacked_congr rfl rfl k p

@[simp] theorem State.releaseWait_mem (s : State) (e p : Nat) : (s.releaseWait e p).mem = s.mem := by
  unfold State.releaseWait
  split <;> rfl
@[simp] theorem State.releaseWait_l1 (s : State) (e p : Nat) : ((s.releaseWait e p).eng e).l1 = (s.eng e).l1 := by
  unfold State.releaseWait
  split
  · rw [State.modStr, State.eng_modEng]
  · rfl
theorem State.releaseWait_str? {s : State} {e p : Nat} {x : Str} (h : s.str? e p = some x) :
    (s.releaseWait e p).str? e p = some (if s.unacked e p then x.blockHead .release else x) := by
  unfold State.releaseWait
  split
  · rw [State.str?, State.modStr, State.eng_modEng, mget_mmod, if_pos rfl, show mget (s.eng e).strs p = some x from h]
    rfl
  · exact h

section

variable {s : State} {e p : Nat} {acquires releases : Bool}

theorem State.ordered_mem : (s.ordered e p acquires releases).mem = s.mem := by
  cases acquires <;> cases releases <;> simp [State.ordered]

/-- An acquire drops every line but those of read-only pages; a release drops none. -/
theorem State.ordered_l1 : ((s.ordered e p acquires releases).eng e).l1
    = if acquires then (s.eng e).l1.filter (fun x => x.2.readOnly) else (s.eng e).l1 := by
  cases acquires <;> cases releases <;> simp [State.ordered]

/-- A release blocks the group while acknowledgements are owed; an acquire blocks none. -/
theorem State.ordered_str? {x : Str} (h : s.str? e p = some x) : (s.ordered e p acquires releases).str? e p
    = some (if releases && s.unacked e p then x.blockHead .release else x) := by
  have acquired : (if acquires then s.acquire e else s).str? e p = some x := by cases acquires <;> simpa using h
  have owed : (if acquires then s.acquire e else s).unacked e p = s.unacked e p := by cases acquires <;> simp
  cases releases
  case false => exact acquired
  case true =>
    rw [Bool.true_and, ← owed]
    exact State.releaseWait_str? acquired

end

/-! ### The instruction -/

theorem bit_bits_23_22 (n k : Nat) (hk : k < 2) : bit (bits n 23 22) k = bit n (k + 22) := by
  rw [bit_eq_testBit, bits_testBit, bit_eq_testBit]
  simp [hk]

theorem execFence_runs {w : Site} {h : Hdr} {low : BitVec 26} {s : State} {st : Str} {g : Group} {rest : List Group}
    (c : CanIssue s w h use0 st g rest) (order : bits low.toNat 23 22 ≠ 0) (zero : bits low.toNat 21 0 = 0)
    (lanes : 0 < laneCount st g h) :
    exec (.fence w h low) s = .next ((barState s w st (actOf w h st g).str.step).ordered w.engine.val w.place.val
      (bits low.toNat 25 24 ≠ 0 && bit low.toNat 22) (bits low.toNat 25 24 ≠ 0 && bit low.toNat 23)) := by
  show execFence w h low s = _
  have legal : (decide (bits low.toNat 23 22 ≠ 0) && decide (bits low.toNat 21 0 = 0)) = true := by simp [order, zero]
  unfold execFence
  dsimp only
  rw [legal]
  refine (State.issue_runs c 8 _).trans (congrArg _ ?_)
  by_cases scope : bits low.toNat 25 24 = 0
  · have none : ∀ b, (decide (bits low.toNat 25 24 ≠ 0) && b) = false := fun b => by simp [scope]
    rw [if_pos (by simp [scope]), none, none]
    rfl
  · have all : ∀ b, (decide (bits low.toNat 25 24 ≠ 0) && b) = b := fun b => by simp [scope]
    have runs : ¬ ((actOf w h st g).lanes = 0 ∨ bits low.toNat 25 24 = 0) := not_or.2 ⟨lanes_ne_zero lanes, scope⟩
    rw [if_neg (by simpa using runs), bit_bits_23_22 _ 0 (by decide), bit_bits_23_22 _ 1 (by decide), all, all]
    rfl

/-- Settles O12: a fence goes on at the next word, and beyond engine scope orders (`State.ordered`): its acquire drops
the lines of the L1 that may be stale, its release blocks the group while acknowledgements are owed. -/
theorem fencesAcquireAndRelease : Obligations.FencesAcquireAndRelease := by
  unfold Obligations.FencesAcquireAndRelease
  intro w h low s st g rest e scope c order zero lanes
  let x := (actOf w h st g).str.step
  have only : OnlyString s (barState s w st x) w := (onlyString_issued s w 8 st).setStr x
  have owed := State.unacked_congr only.host only.caravan e w.place.val
  obtain ⟨blockRest, _, blocked⟩ := step_blockHead w h c.groups .release fun e => nomatch e
  have run := execFence_runs c order zero lanes
  generalize acq : (decide (scope ≠ 0) && bit low.toNat 22) = acquires at run
  generalize rel : (decide (scope ≠ 0) && bit low.toNat 23) = releases at run
  have placed : (barState s w st x).str? e w.place.val = some x := State.str?_setStr _ _ _ _
  have str := State.ordered_str? (acquires := acquires) (releases := releases) placed
  have l1 := State.ordered_l1 (s := barState s w st x) (e := e) (p := w.place.val) (acquires := acquires)
    (releases := releases)
  rw [only.l1] at l1
  rw [owed] at str
  generalize hy : (if releases && s.unacked e w.place.val then x.blockHead .release else x) = y at str
  have regs : y.butGroups = x.butGroups := by
    rw [← hy]
    split
    · exact blockRest
    · rfl
  refine ⟨_, y, run, str, fun a => by rw [State.ordered_mem, only.mem], (Str.vregs_of_butGroups regs).trans (Str.vregs_step _),
    (Str.preds_of_butGroups regs).trans (Str.preds_step _), (Str.uregs_of_butGroups regs).trans (Str.uregs_step _),
    fun wide => ?drops, fun narrow => ?keeps, fun free => ?goes, fun held => ?waits⟩
  case drops => rw [l1, ← acq, if_pos (by simpa using wide)]
  case keeps => rw [l1, ← acq, if_neg (by rcases narrow with k | k <;> simp [k])]
  case goes =>
    rw [← rel, if_neg (by rcases free with k | k | k <;> simp [k])] at hy
    exact advanced_of_bare c.groups (by rw [← hy])
  case waits =>
    obtain ⟨wide, releasing, waiting⟩ := held
    rw [← rel, if_pos (by simp [wide, releasing, waiting])] at hy
    exact hy ▸ blocked

end Sys2Proof.Machine

/-! ## What the answer to a request changes (R261, R280, R282, R291, R292, R295) -/

namespace Sys2Proof.Machine

set_option Elab.async false

/-! ### Messages toward the host -/

/-- Two states that differ at most in messages toward the host, cookie rings and mailbox pairs; no message that has left
is taken back. -/
def Sends (s t : State) : Prop := ∃ pairs rings bits out wait, (∀ m ∈ s.host.out, m ∈ out) ∧
  t = { s with host := { s.host with pairs := pairs, rings := rings, pendingBits := bits, out := out, waitOut := wait } }

theorem Sends.refl (s : State) : Sends s s := ⟨_, _, _, _, _, fun _ h => h, rfl⟩
theorem Sends.trans {s t u : State} (a : Sends s t) (b : Sends t u) : Sends s u := by
  obtain ⟨_, _, _, _, _, keep, rfl⟩ := a
  obtain ⟨_, _, _, _, _, keep', rfl⟩ := b
  exact ⟨_, _, _, _, _, fun m h => keep' m (keep m h), rfl⟩
theorem Sends.fw {s t : State} (a : Sends s t) : t.fw = s.fw := by
  obtain ⟨_, _, _, _, _, _, rfl⟩ := a
  rfl
theorem Sends.out {s t : State} (a : Sends s t) {m : OutMsg} (h : m ∈ s.host.out) : m ∈ t.host.out := by
  obtain ⟨_, _, _, _, _, keep, rfl⟩ := a
  exact keep m h

theorem State.setMbx_sends (s : State) (n : Nat) (p : MbxPair) : Sends s (s.setMbx n p) :=
  ⟨_, _, _, _, _, fun _ h => h, rfl⟩
theorem State.send_sends (s : State) (m : OutMsg) : Sends s (s.send m) := by
  unfold State.send
  split
  · exact ⟨_, _, _, _, _, fun _ h => h, rfl⟩
  · exact ⟨_, _, _, _, _, fun _ h => List.mem_cons_of_mem _ h, rfl⟩
theorem State.cookie_sends (s : State) (v kind flags source value : Nat) : Sends s (s.cookie v kind flags source value) := by
  have ring : ∀ c, Sends s (s.setRing (v / 128) c) := fun _ => ⟨_, _, _, _, _, fun _ h => h, rfl⟩
  unfold State.cookie
  dsimp only
  split
  · exact ring _
  · split
    · exact .refl s
    · exact (ring _).trans (State.send_sends _ _)
theorem State.sendMsix_sends (s : State) (v : Nat) : Sends s (s.sendMsix v) := by
  unfold State.sendMsix
  dsimp only
  split
  · exact ⟨_, _, _, _, _, fun _ h => h, rfl⟩
  · exact s.send_sends _
theorem State.interrupt_sends (s : State) (v kind flags source value : Nat) :
    Sends s (s.interrupt v kind flags source value) :=
  (s.cookie_sends v kind flags source value).trans (State.sendMsix_sends _ _)
theorem State.answer_sends (s : State) (n : Nat) (b : List Byte) : Sends s (s.answer n b) := by
  unfold State.answer
  dsimp only
  split
  · exact s.setMbx_sends _ _
  · exact (s.setMbx_sends _ _).trans (State.interrupt_sends _ _ _ _ _ _)

/-! ### Interrupts (R271, R274) -/

theorem mem_setAdd (l : List Nat) (x : Nat) : x ∈ setAdd l x := by
  induction l with
  | nil => exact List.mem_singleton.2 rfl
  | cons y l ih =>
    unfold setAdd
    split
    · simp_all
    · split
      · simp
      · exact List.mem_cons_of_mem _ ih

/-- Whether a vector's message leaves, waits or pends depends on nothing that a message changes. -/
theorem Raised.of_sends {s t u : State} (a : Sends s t) {v : Nat} (h : Raised t u v) : Raised s u v := by
  obtain ⟨_, _, _, _, _, _, rfl⟩ := a
  exact h

theorem State.sendMsix_raised (s : State) (v : Nat) : Raised s (s.sendMsix v) v := by
  unfold Raised State.sendMsix
  dsimp only
  split
  · exact mem_setAdd _ _
  · exact s.send_sent _

theorem State.interrupt_raised (s : State) (v kind flags source value : Nat) :
    Raised s (s.interrupt v kind flags source value) v :=
  .of_sends (s.cookie_sends v kind flags source value) (State.sendMsix_raised _ v)

theorem State.deliver_raised (s : State) (n : Nat) (b : List Byte) : Raised s (s.deliver n b) n :=
  .of_sends (s.setMbx_sends _ _) (State.interrupt_raised _ n _ _ _ _)

/-! ### The answer -/

/-- A submission changes the logbook alone (R497). -/
theorem State.submit_eq (s : State) (r : LogRec) (urgent : Bool) : ∃ l, s.submit r urgent = { s with logbook := l } :=
  ⟨(s.submit r urgent).logbook,
    congrArg (fun t : State => { t with logbook := (s.submit r urgent).logbook }) (s.submit_rest r urgent)⟩

/-- Logging a command changes the logbook alone (R295). -/
theorem State.logCommand_eq (s : State) (role session op tag status error : Nat) :
    ∃ l, s.logCommand role session op tag status error = { s with logbook := l } := by
  have same : ∃ l, s = { s with logbook := l } := ⟨s.logbook, rfl⟩
  unfold State.logCommand
  split
  · exact same
  · split
    · exact same
    · exact s.submit_eq _ false

/-- What a session keeps of an answer (R291, R292). -/
def Req.kept (r : Req) (status : Nat) (b : List Byte) : Kept :=
  { tag := r.tag, crc := BitVec.ofNat 32 (frameCrc r.body), rsp := b, running := status = 2, fetched := status ≠ 2 }

/-- Status, flags, error and result of the frame of an answer (R296). -/
def Ans.frame : Ans → Nat × Nat × Nat × List Byte
  | .ok res flags => (0, flags, 0, res)
  | .err code => (1, 0, code, zeros 48)
  | .progress => (2, 0, 0, zeros 48)

/-- The response frame that carries an answer to a request. -/
def Req.response (r : Req) (a : Ans) : List Byte :=
  Machine.response r.op r.tag r.session r.proto a.frame.1 a.frame.2.1 a.frame.2.2.1 a.frame.2.2.2

/-- The answer to a request of an open session: kept by the session, logged or not, and then given. -/
theorem State.finish_eq (u : State) {r : Req} (open' : r.op ≠ 0x0001) (a : Ans) : ∃ l,
    u.finish r true true a = State.answer { u.modSession r.session (fun x => x.keep (r.kept a.frame.1 (r.response a))) with
      logbook := l } r.pair (r.response a) := by
  have session : ∀ status res, (if (decide (r.op = 0x0001) && decide (status = 0)) = true then getLe res 0 4
      else r.session) = r.session := fun status res => if_neg (by simp [open'])
  have logged : ∀ (v : State) (status err : Nat) (b : List Byte), ∃ l,
      (v.logCommand r.role r.session r.op r.tag status err).answer r.pair b
        = State.answer { v with logbook := l } r.pair b := fun v status err b => by
    obtain ⟨l, e⟩ := v.logCommand_eq r.role r.session r.op r.tag status err
    exact ⟨l, congrArg (fun w : State => w.answer r.pair b) e⟩
  unfold State.finish
  cases a with
  | ok res flags =>
    dsimp only
    rw [session]
    exact logged _ _ _ _
  | err code =>
    dsimp only
    rw [session]
    exact logged _ _ _ _
  | progress =>
    dsimp only
    rw [session]
    exact ⟨u.logbook, rfl⟩

/-- What leaves before the response is given stays sent. -/
theorem State.finish_out (u : State) {r : Req} (open' : r.op ≠ 0x0001) (a : Ans) {m : OutMsg} (h : m ∈ u.host.out) :
    m ∈ (u.finish r true true a).host.out := by
  obtain ⟨l, e⟩ := u.finish_eq open' a
  rw [e]
  exact (State.answer_sends _ _ _).out h

theorem State.finish_responds (u : State) {r : Req} (open' : r.op ≠ 0x0001) (a : Ans) :
    Responds u (u.finish r true true a) r true a.frame.1 a.frame.2.1 a.frame.2.2.1 a.frame.2.2.2 := by
  obtain ⟨l, e⟩ := u.finish_eq open' a
  generalize hv : ({ u.modSession r.session (fun x => x.keep (r.kept a.frame.1 (r.response a))) with logbook := l } : State) = v
    at e
  have pair : ∀ n, v.mbx n = u.mbx n := fun n => by rw [← hv]; rfl
  have sends := v.answer_sends r.pair (r.response a)
  rw [e]
  refine ⟨fun idle => ⟨?_, ?_⟩, fun full => ?_, fun n hn => ?_, fun n => ?_, ?_, ?_, ?_⟩
  · have given : v.answer r.pair (r.response a) = v.deliver r.pair (r.response a) := by
      unfold State.answer
      dsimp only
      rw [pair, idle]
      rfl
    have raised := v.deliver_raised r.pair (r.response a)
    rw [← given] at raised
    subst hv
    exact raised
  · rw [State.answer_mbx, pair, if_neg (by simp [idle])]
    rfl
  · rw [State.answer_mbx, pair, if_pos full]
    rfl
  · rw [State.answer_mbx_ne _ _ hn, pair]
  · rw [State.session?, sends.fw, ← hv]
    show mget (mmod u.fw.sessions r.session _) n = _
    rw [mget_mmod]
    by_cases hn : n = r.session
    · subst hn
      rw [if_pos rfl, if_pos ⟨rfl, rfl⟩]
      rfl
    · rw [if_neg hn, if_neg fun h => hn h.2]
      rfl
  · obtain ⟨_, _, _, _, _, _, e⟩ := sends
    rw [e, ← hv]
    rfl
  · rw [sends.fw, ← hv]
    rfl
  · obtain ⟨_, _, _, _, _, _, e⟩ := sends
    rw [e, ← hv]
    rfl

/-! ### Commands -/

section

variable {i : Instr} {s : State} {pair : Fin 8} {op : Nat} {mine : List Byte → Bool} {r : Req} {x : Session}

/-- The row of a command tells its requests apart by more than their opcode only where two commands share it. -/
theorem State.mbxCmd_served (h : Served s ⟨pair, op, mine⟩ r x) (open' : op ≠ 0x0001) (act : Req → State → Ans × State) :
    s.mbxCmd pair op act = .next ((act r s).2.finish r true true (act r s).1) := by
  have byOp : Served s ⟨pair, op, fun b => frameOp b = op⟩ r x :=
    { h with row := decide_eq_true h.opcode.1 }
  have other : decide (r.op ≠ 0x0001) = true := decide_eq_true (h.opcode.2 ▸ open')
  have run := State.mbxServe_served byOp act
  rw [other] at run
  exact run

variable {u : State} {act : Req → State → Ans × State} {a : Ans}

theorem exec_answers (run : exec i s = s.mbxCmd pair op act) (h : Served s ⟨pair, op, mine⟩ r x) (open' : op ≠ 0x0001)
    (acts : act r s = (a, u)) : exec i s = .next (u.finish r true true a) := by
  rw [run, State.mbxCmd_served h open', acts]

/-- A command that reaches its action answers with what the action answers, in the state that it leaves. -/
theorem exec_responds (run : exec i s = s.mbxCmd pair op act) (h : Served s ⟨pair, op, mine⟩ r x) (open' : op ≠ 0x0001)
    (acts : act r s = (a, u)) : ∃ t, exec i s = .next t
      ∧ Responds u t r true a.frame.1 a.frame.2.1 a.frame.2.2.1 a.frame.2.2.2 :=
  ⟨_, exec_answers run h open' acts, u.finish_responds (h.opcode.2 ▸ open') a⟩

end

/-! ### Long operations (R292, R536) -/

theorem State.startLong_starts {s : State} {r : Req} (may : MayStartLong s r) (data : List Byte) :
    s.startLong r data = (.progress, s.withLong r data) := by
  obtain ⟨few, other⟩ := may
  have none : s.longError r = none := by
    unfold State.longError
    rw [if_neg (Nat.not_le.2 few), if_neg]
    simpa using other
  unfold State.startLong
  rw [none]
  rfl

theorem State.startLong_fails {s : State} {r : Req} (may : ¬ MayStartLong s r) (data : List Byte) :
    s.startLong r data = (.err (longErr s r), s) := by
  have some : s.longError r = some (longErr s r) := by
    unfold State.longError longErr
    by_cases few : 4 ≤ (s.fw.longOps.filter (fun l => l.session = r.session)).length
    · rw [if_pos few, if_pos few]
      rfl
    · rw [if_neg few, if_neg few, if_pos]
      · rfl
      · by_contra other
        exact may ⟨Nat.not_le.1 few, by simpa using other⟩
  unfold State.startLong
  rw [some]

end Sys2Proof.Machine

/-! ## The memory commands of the mailbox (R215, R216, R228, R232, R237) -/

namespace Sys2Proof.Machine

set_option Elab.async false

section

variable {s : State} {pair : Fin 8} {r : Req} {x : Session}

/-! ### Settings (R533) -/

theorem getLe_lt (l : List Byte) (off n : Nat) : getLe l off n < 2 ^ (8 * n) := by
  have length : (slice l off n).length = n := by simp [slice]
  have bound := leNat_lt (slice l off n)
  rwa [length] at bound

theorem State.setting_setSetting (s : State) (key v k : Nat) (fits : v < 2 ^ 64) :
    (s.setSetting key v).setting k = if k = key then v else s.setting k := by
  unfold State.setting State.setSetting
  dsimp only
  rw [mget_mset]
  by_cases h : k = key
  · rw [if_pos h, if_pos h]
    exact Nat.mod_eq_of_lt fits
  · rw [if_neg h, if_neg h]

/-! ### DRC_CONFIGURE -/

/-- The settings that DRC_CONFIGURE refuses (R215, R216, R228). -/
theorem drcRefused_iff (mode density ranks crc post pt : Nat) :
    (decide (1 < mode) || !(if mode = 0 then [2, 4, 8] else [1, 2, 4]).contains density || decide (ranks = 0)
      || decide (2 < ranks) || decide (1 < crc) || decide (2 < post) || decide (pt < 16) || decide (4096 < pt)) = true
    ↔ ¬ (mode ≤ 1 ∧ (density = 1 ∧ mode = 1 ∨ density = 2 ∨ density = 4 ∨ density = 8 ∧ mode = 0) ∧ 1 ≤ ranks ∧ ranks ≤ 2
      ∧ crc ≤ 1 ∧ post ≤ 2 ∧ 16 ≤ pt ∧ pt ≤ 4096) := by
  by_cases lpddr : mode = 0
  · simp [lpddr]
    omega
  · simp [lpddr]
    omega

theorem exec_drcConfigure (pair : Fin 8) (s : State) : exec (.drcConfigure pair) s = execDrcConfigure pair s := rfl

theorem drcConfigure_acts (served : Serves (.drcConfigure pair) s r x) :
    let i := Instr.drcConfigure pair
    let mode := r.n 0x10 1
    let good := mode ≤ 1 ∧ (r.n 0x11 1 = 1 ∧ mode = 1 ∨ r.n 0x11 1 = 2 ∨ r.n 0x11 1 = 4 ∨ r.n 0x11 1 = 8 ∧ mode = 0)
      ∧ 1 ≤ r.n 0x12 1 ∧ r.n 0x12 1 ≤ 2 ∧ r.n 0x13 1 ≤ 1 ∧ r.n 0x14 1 ≤ 2 ∧ 16 ≤ r.n 0x18 4 ∧ r.n 0x18 4 ≤ 4096
    (¬ good → FailsWith i s r 0x0003) ∧ (good → Config.mixedPopulation = true → FailsWith i s r 0x0301)
    ∧ (good → Config.mixedPopulation = false → ∃ u, Succeeds i s u r 0 (zeros 48) ∧ u.setting 0x40 = r.n 0x10 8
        ∧ u.setting 0x46 = r.n 0x18 4 ∧ (∀ k, k ≠ 0x40 → k ≠ 0x46 → u.setting k = s.setting k)
        ∧ { u with mram := { u.mram with working := s.mram.working } } = s) := by
  obtain ⟨m, row, h⟩ := served
  cases row
  intro i mode good
  have refused := drcRefused_iff mode (r.n 0x11 1) (r.n 0x12 1) (r.n 0x13 1) (r.n 0x14 1) (r.n 0x18 4)
  refine ⟨fun bad => ?_, fun fine mixed => ?_, fun fine pure => ?_⟩
  · exact exec_responds (a := .err 0x0003) (exec_drcConfigure pair s) h (by decide) (if_pos (refused.2 bad))
  · refine exec_responds (a := .err 0x0301) (exec_drcConfigure pair s) h (by decide) ?_
    exact (if_neg (fun bad => refused.1 bad fine)).trans (if_pos mixed)
  · have lo : r.n 0x10 8 < 2 ^ 64 := getLe_lt _ _ _
    have hi : r.n 0x18 4 < 2 ^ 64 := (getLe_lt _ _ _).trans (by decide)
    refine ⟨(s.setSetting 0x40 (r.n 0x10 8)).setSetting 0x46 (r.n 0x18 4), ?_, ?_, ?_, fun k h0 h6 => ?_, rfl⟩
    · refine exec_responds (a := .ok (zeros 48) 0) (exec_drcConfigure pair s) h (by decide) ?_
      exact (if_neg (fun bad => refused.1 bad fine)).trans (if_neg (by simp [pure]))
    · rw [State.setting_setSetting _ _ _ _ hi, if_neg (by decide), State.setting_setSetting _ _ _ _ lo, if_pos rfl]
    · rw [State.setting_setSetting _ _ _ _ hi, if_pos rfl]
    · rw [State.setting_setSetting _ _ _ _ hi, if_neg h6, State.setting_setSetting _ _ _ _ lo, if_neg h0]

/-! ### DRC_RETRAIN -/

theorem State.chan_modChan (s : State) (c k : Nat) (f : Channel → Channel) :
    (s.modChan c f).mem.chan k = if k = c then f (s.mem.chan c) else s.mem.chan k := by
  unfold State.modChan
  by_cases h : k = c
  · rw [if_pos h, h]
    exact mgetD_mset_self _ _ _ _
  · rw [if_neg h]
    exact mgetD_mset_ne _ _ _ h

/-- A channel can be excluded where no channel is out or on its way out (R237). -/
theorem Mem.canExclude_iff {m : Mem} {c : Nat} (hc : c < m.nch) (spill : m.spill ≠ 0) :
    m.canExclude c = true ↔ ∀ k, k < m.nch → ¬ ((m.chan k).excluded = true ∨ (m.chan k).migrating = true) := by
  unfold Mem.canExclude Mem.otherOut
  simp only [Bool.and_eq_true, decide_eq_true_eq, Bool.not_eq_true', List.any_eq_false, List.mem_range, not_or,
    Bool.not_eq_true, Bool.or_eq_true]
  constructor
  · rintro ⟨⟨⟨-, others⟩, excluded⟩, migrating⟩ k hk
    by_cases h : k = c
    · exact h ▸ ⟨excluded, migrating⟩
    · simpa [h] using others k hk
  · intro none
    exact ⟨⟨⟨spill, fun k hk => by simp [none k hk]⟩, (none c hc).1⟩, (none c hc).2⟩

theorem exec_drcRetrain (pair : Fin 8) (s : State) : exec (.drcRetrain pair) s = execDrcRetrain pair s := rfl

theorem drcRetrain_acts (served : Serves (.drcRetrain pair) s r x) :
    let i := Instr.drcRetrain pair
    let c := r.n 0x10 1
    let n := if s.mem.mode = 0 then 16 else 24
    let out := fun (k : Nat) => (s.mem.chan k).excluded = true ∨ (s.mem.chan k).migrating = true
    (n ≤ c → FailsWith i s r 0x0003) ∧ (c < n → s.mem.spill = 0 → FailsWith i s r 0x0302)
    ∧ (c < n → s.mem.spill ≠ 0 → (∃ k, k < n ∧ out k) → FailsWith i s r 0x0303)
    ∧ (c < n → s.mem.spill ≠ 0 → (∀ k, k < n → ¬ out k) →
      (¬ MayStartLong s r → FailsWith i s r (longErr s r))
      ∧ (MayStartLong s r → ∃ u, StartsLong i s u r ∧ u.fw = (s.withLong r []).fw ∧ u.mem.cells = s.mem.cells
        ∧ u.mem.chan c = { s.mem.chan c with migrating := true, back := false, pointer := 0, retrainWanted := false }
        ∧ (∀ k, k ≠ c → u.mem.chan k = s.mem.chan k)
        ∧ { u with fw := s.fw, mem := { u.mem with channels := s.mem.channels } } = s)) := by
  obtain ⟨m, row, h⟩ := served
  cases row
  intro i c n out
  refine ⟨fun far => ?_, fun near none => ?_, fun near spill busy => ?_, fun near spill free => ⟨fun may => ?_, fun may => ?_⟩⟩
  · exact exec_responds (a := .err 0x0003) (exec_drcRetrain pair s) h (by decide) (if_pos far)
  · refine exec_responds (a := .err 0x0302) (exec_drcRetrain pair s) h (by decide) ?_
    exact (if_neg (Nat.not_le.2 near)).trans (if_pos none)
  · have held : ¬ s.mem.canExclude c = true := fun can => by
      obtain ⟨k, hk, hout⟩ := busy
      exact (Mem.canExclude_iff near spill).1 can k hk hout
    refine exec_responds (a := .err 0x0303) (exec_drcRetrain pair s) h (by decide) ?_
    exact (if_neg (Nat.not_le.2 near)).trans ((if_neg spill).trans (if_pos (by simpa using held)))
  · have can := (Mem.canExclude_iff near spill).2 free
    refine exec_responds (a := .err (longErr s r)) (exec_drcRetrain pair s) h (by decide) ?_
    refine (if_neg (Nat.not_le.2 near)).trans ((if_neg spill).trans ((if_neg (by simpa using can)).trans ?_))
    rw [State.startLong_fails may]
  · have can := (Mem.canExclude_iff near spill).2 free
    refine ⟨(s.withLong r []).startMigration c, ?_, rfl, rfl, ?_, fun k hk => ?_, rfl⟩
    · refine exec_responds (a := .progress) (exec_drcRetrain pair s) h (by decide) ?_
      refine (if_neg (Nat.not_le.2 near)).trans ((if_neg spill).trans ((if_neg (by simpa using can)).trans ?_))
      rw [State.startLong_starts may]
    · exact (State.chan_modChan _ _ _ _).trans (if_pos rfl)
    · exact (State.chan_modChan _ _ _ _).trans (if_neg hk)

/-! ### The log of corrected errors -/

theorem State.output_open {s : State} (d0 : s.host.d3hot = false) (awake : s.halted = false) (a : Nat) (l : List Byte) :
    ∃ out, (l ≠ [] → OutMsg.write a l ∈ out) ∧ s.output a l = { s with host := { s.host with out := out } } := by
  unfold State.output
  cases l with
  | nil => exact ⟨s.host.out, fun h => absurd rfl h, rfl⟩
  | cons b l =>
    refine ⟨.write a (b :: l) :: s.host.out, fun _ => List.mem_cons_self, ?_⟩
    unfold State.send
    rw [if_neg (by simp), if_neg (by simp [d0, awake])]

/-- An entry of the log as ECC_LOG_READ writes it (R232). -/
def eccBytes (e : EccEnt) : List Byte :=
  leBytes 8 e.addr ++ leBytes 1 e.source ++ leBytes 1 e.unit ++ leBytes 1 e.sub ++ leBytes 1 e.position
    ++ leBytes 4 e.syndrome.toNat ++ leBytes 4 e.repeats.toNat ++ zeros 4 ++ leBytes 8 e.stamp.toNat

theorem eccBytes_flatten_ne_nil {l : List EccEnt} (h : l ≠ []) : (l.map eccBytes).flatten ≠ [] := by
  obtain ⟨e, l, rfl⟩ := List.exists_cons_of_ne_nil h
  intro none
  have none := congrArg List.length none
  simp [eccBytes] at none

theorem exec_eccLogRead (pair : Fin 8) (s : State) : exec (.eccLogRead pair) s = execEccLogRead pair s := rfl

theorem eccLogRead_acts (served : Serves (.eccLogRead pair) s r x) :
    let i := Instr.eccLogRead pair
    let a := r.n 0x10 8
    let bytes := (s.mem.eccLog.map eccBytes).flatten
    ((r.n 0x18 4 < 1024 ∨ a % 8 ≠ 0) → FailsWith i s r 0x000C)
    ∧ (1024 ≤ r.n 0x18 4 → a % 8 = 0 → s.host.d3hot = false → ∃ t u, exec i s = .next t
        ∧ Responds u t r true 0 0 0 (result [(0x10, 1, s.mem.eccLog.length), (0x14, 4, s.mem.logOverwritten.toNat)])
        ∧ { u with host := { u.host with out := s.host.out } } = s
        ∧ (s.mem.eccLog ≠ [] → OutMsg.write a bytes ∈ t.host.out)) := by
  obtain ⟨m, row, h⟩ := served
  cases row
  intro i a bytes
  refine ⟨fun bad => ?_, fun room aligned d0 => ?_⟩
  · exact exec_responds (a := .err 0x000C) (exec_eccLogRead pair s) h (by decide) (if_pos (by simpa [Req.buf] using bad))
  · obtain ⟨out, sent, e⟩ := State.output_open d0 h.listens.2.2.2 a bytes
    have op : r.op = 0x0403 := h.opcode.2
    have other : r.op ≠ 0x0001 := by rw [op]; decide
    have acts := exec_answers (u := s.output a bytes) (exec_eccLogRead pair s) h (by decide)
      (if_neg (by simpa using And.intro room aligned))
    refine ⟨_, s.output a bytes, acts, State.finish_responds _ other (.ok (result _) 0), ?_, fun some => ?_⟩
    · rw [e]
    · refine State.finish_out _ other _ ?_
      rw [e]
      exact sent (eccBytes_flatten_ne_nil some)

theorem exec_eccLogClear (pair : Fin 8) (s : State) : exec (.eccLogClear pair) s = execEccLogClear pair s := rfl

theorem eccLogClear_acts (served : Serves (.eccLogClear pair) s r x) : Succeeds (.eccLogClear pair) s
    { s with mem := { s.mem with eccLog := [], logOverwritten := 0 } } r 0 (zeros 48) := by
  obtain ⟨m, row, h⟩ := served
  cases row
  exact exec_responds (a := .ok (zeros 48) 0) (exec_eccLogClear pair s) h (by decide) rfl

end

end Sys2Proof.Machine

/-! ## The strongroom grows and shrinks (R166 to R170) -/

namespace Sys2Proof.Machine

set_option Elab.async false

/-! ### Lines that leave (R159, R163) -/

theorem mem_of_mget {α : Type} {m : Map α} {k : Nat} {v : α} (h : mget m k = some v) : (k, v) ∈ m := by
  induction m with
  | nil => cases h
  | cons p m ih =>
    obtain ⟨k', v'⟩ := p
    unfold mget at h
    split at h
    · rename_i e
      cases h
      rw [e]
      exact List.mem_cons_self
    · exact List.mem_cons_of_mem _ (ih h)

@[simp] theorem State.dramTouch_lines (s : State) (pa n : Nat) (w : Bool) : (s.dramTouch pa n w).mem.lines = s.mem.lines := by
  unfold State.dramTouch State.draw
  dsimp only
  split_ifs <;> simp

@[simp] theorem State.partialWrite_lines (s : State) (a m : Nat) : (s.partialWrite a m).mem.lines = s.mem.lines := by
  unfold State.partialWrite
  dsimp only
  split <;> simp

/-- An evicted line is gone; no other line is. -/
theorem State.evict_lines (s : State) (key k : Nat) :
    mget (s.evict key).mem.lines k = if k = key then none else mget s.mem.lines k := by
  unfold State.evict
  split
  next e =>
    split
    next h => rw [h, e]
    next => rfl
  next l e =>
    rw [← mget_merase]
    dsimp only
    split
    · rfl
    · refine congrArg (mget · k) (loop_keeps (fun t : State => t.mem.lines) (fun t j _ => ?_) _)
      split
      · split <;> simp
      · rfl

theorem State.flushWays_cacheOnly (s : State) (sl : Nat) (ways : Nat → Bool) : CacheOnly s (s.flushWays sl ways) :=
  CacheOnly.foldl (f := fun (s : State) (p : Nat × L2Line) => s.evict p.1) (fun s p => s.evict_cacheOnly p.1) _ s

/-- Flushing ways leaves them empty and the other ways as they are. -/
theorem State.flushWays_lines (s : State) (sl : Nat) (ways : Nat → Bool) (k : Nat) :
    mget (s.flushWays sl ways).mem.lines k = if k / 32768 = sl ∧ ways (k % 16) = true then none else mget s.mem.lines k := by
  have folded : ∀ (l : List (Nat × L2Line)) (t : State), mget (l.foldl (fun s p => s.evict p.1) t).mem.lines k
      = if k ∈ l.map Prod.fst then none else mget t.mem.lines k := by
    intro l
    induction l with
    | nil => intro t; rfl
    | cons p l ih =>
      intro t
      rw [List.foldl_cons, ih, State.evict_lines, List.map_cons]
      by_cases h : k ∈ l.map Prod.fst <;> simp [h]
  unfold State.flushWays
  rw [folded]
  by_cases mine : k / 32768 = sl ∧ ways (k % 16) = true
  · rw [if_pos mine]
    cases held : mget s.mem.lines k with
    | none => exact ite_self _
    | some l =>
      refine if_pos (List.mem_map.2 ⟨(k, l), List.mem_filter.2 ⟨mem_of_mget held, ?_⟩, rfl⟩)
      simpa using mine
  · rw [if_neg mine, if_neg]
    rintro h
    obtain ⟨⟨_, l⟩, hp, rfl⟩ := List.mem_map.1 h
    exact mine (by simpa using (List.mem_filter.1 hp).2)

theorem lineKey_slice {k set y : Nat} (hset : set < 2048) (hy : y < 16) : lineKey k set y / 32768 = k := by
  unfold lineKey
  omega
theorem lineKey_way {k set y : Nat} (hy : y < 16) : lineKey k set y % 16 = y := by
  unfold lineKey
  omega

/-! ### Slices -/

theorem Mem.slice_setSlice (m : Mem) (i k : Nat) (v : Slice) : (m.setSlice i v).slice k = if k = i then v else m.slice k := by
  unfold Mem.slice Mem.setSlice
  by_cases h : k = i
  · rw [if_pos h, h]
    exact mgetD_mset_self _ _ _ _
  · rw [if_neg h]
    exact mgetD_mset_ne _ _ _ h
theorem State.slice_modSlice (s : State) (i k : Nat) (f : Slice → Slice) :
    (s.modSlice i f).mem.slice k = if k = i then f (s.mem.slice i) else s.mem.slice k := Mem.slice_setSlice _ _ _ _

/-- Changing slices changes the slices alone. -/
theorem State.modSlices_eq (s : State) (n : Nat) (f : Nat → Slice → Slice) :
    ∃ l, loop n s (fun s i => s.modSlice i (f i)) = { s with mem := { s.mem with slices := l } } :=
  loop_induct (P := fun t => ∃ l, t = { s with mem := { s.mem with slices := l } })
    (fun t i _ h => by
      obtain ⟨l, rfl⟩ := h
      exact ⟨_, rfl⟩) ⟨s.mem.slices, rfl⟩

/-- What an update sets in every slice. -/
theorem State.modSlices_slice {γ : Type} {obs : Slice → γ} {y : γ} (s : State) {n k : Nat} (hk : k < n)
    {f : Nat → Slice → Slice} (sets : ∀ i v, obs (f i v) = y) :
    obs ((loop n s (fun s i => s.modSlice i (f i))).mem.slice k) = y :=
  loop_sets (fun t : State => obs (t.mem.slice k)) hk
    (fun t => by rw [State.slice_modSlice, if_pos rfl]; exact sets _ _)
    (fun t j _ hj => by rw [State.slice_modSlice, if_neg (Ne.symm hj)]) s

/-! ### An increase starts (R168) -/

/-- The slices can spare the ways of a growth to w (R168): each keeps four cache ways, and takes none that is disabled. -/
def Mem.spares (m : Mem) (w : Nat) : Prop := ∀ k, k < 16 → (m.slice k).fenced = true
  ∨ (4 ≤ ((List.range (16 - w)).filter (fun y => !bit (m.slice k).off.toNat y)).length
    ∧ ∀ y, 16 - w ≤ y → y < 16 - m.srWays → bit (m.slice k).off.toNat y = false)

theorem filter_range_below (n m : Nat) (h : m ≤ n) (p : Nat → Bool) :
    (List.range n).filter (fun x => decide (x < m) && p x) = (List.range m).filter p := by
  obtain ⟨d, rfl⟩ := Nat.exists_eq_add_of_le h
  have above : ((List.range d).map (m + ·)).filter (fun x => decide (x < m) && p x) = [] := by simp
  rw [List.range_add, List.filter_append, above, List.append_nil]
  refine List.filter_congr fun x hx => ?_
  simp [List.mem_range.1 hx]

theorem Mem.srGrow_iff (m : Mem) {w : Nat} (hw : w ≤ 8) : m.srGrow w = true ↔ m.spares w := by
  unfold Mem.srGrow Mem.spares
  simp only [filter_range_below 16 (16 - w) (by omega), hw, decide_true, Bool.true_and, List.all_eq_true, List.mem_range,
    Bool.or_eq_true, Bool.and_eq_true, decide_eq_true_eq, Bool.not_eq_true', Bool.and_eq_false_iff, decide_eq_false_iff_not]
  refine forall₂_congr fun k _ => or_congr_right (and_congr_right fun _ => ⟨fun all y lo hi => ?_, fun all y _ => ?_⟩)
  · rcases all y (by omega) with (h | h) | h
    · exact absurd lo h
    · exact absurd hi h
    · exact h
  · by_cases h : 16 - w ≤ y ∧ y < 16 - m.srWays
    · exact Or.inr (all y h.1 h.2)
    · exact Or.inl (by tauto)

/-- The ways that a growth to w takes. -/
theorem Mem.bit_srTaken (m : Mem) {w y : Nat} (hy : y < 16) :
    bit (m.srTaken w) y = true ↔ 16 - w ≤ y ∧ y < 16 - m.srWays := by
  unfold Mem.srTaken
  rw [bit_eq_testBit, maskOf_testBit]
  simp [hy]

theorem bit_ofNat16 (x : Nat) {y : Nat} (hy : y < 16) : bit (BitVec.ofNat 16 x).toNat y = bit x y := by
  rw [bit_toNat, BitVec.getLsbD_ofNat, bit_eq_testBit]
  simp [hy]

/-- The step of an increase on one slice. -/
def State.srTake (mask : Nat) (s : State) (i : Nat) : State :=
  (s.modSlice i (fun v => { v with converting := true, leaving := BitVec.ofNat 16 mask })).flushWays i (fun x => bit mask x)

theorem State.srStart_eq (s : State) (w : Nat) : s.srStart w =
    (let t := loop 16 s (State.srTake (s.mem.srTaken w)); { t with mem := { t.mem with srTarget := some w } }) := by
  unfold State.srStart
  exact congrArg (fun f : State → Nat → State =>
    let t := loop 16 s f
    ({ t with mem := { t.mem with srTarget := some w } } : State)) (rfl : _ = State.srTake (s.mem.srTaken w))

/-- Beside slices and lines an increase touches counters and what the caches do on the way. -/
theorem State.srTake_keeps (mask : Nat) (s : State) (i : Nat) :
    let obs := fun t : State => (t.host, t.fw, t.mmu, t.queues, t.mem.cells, t.mem.srWays)
    obs (s.srTake mask i) = obs s := by
  obtain ⟨_, _, _, _, e⟩ := State.flushWays_cacheOnly
    (s.modSlice i (fun v => { v with converting := true, leaving := BitVec.ofNat 16 mask })) i (fun x => bit mask x)
  rw [State.srTake, e]
  rfl

theorem State.srTake_slice (mask : Nat) (s : State) (i k : Nat) : (s.srTake mask i).mem.slice k
    = if k = i then { s.mem.slice i with converting := true, leaving := BitVec.ofNat 16 mask } else s.mem.slice k := by
  have slice := s.slice_modSlice i k (fun v => { v with converting := true, leaving := BitVec.ofNat 16 mask })
  obtain ⟨_, _, _, _, e⟩ := State.flushWays_cacheOnly
    (s.modSlice i (fun v => { v with converting := true, leaving := BitVec.ofNat 16 mask })) i (fun x => bit mask x)
  rw [State.srTake, e]
  exact slice

theorem State.srTake_lines (mask : Nat) (s : State) (i k : Nat) : mget (s.srTake mask i).mem.lines k
    = if k / 32768 = i ∧ bit mask (k % 16) = true then none else mget s.mem.lines k :=
  State.flushWays_lines _ _ _ _

section

variable (mask : Nat) (s : State) {n k : Nat} (hk : k < n)
include hk

theorem State.srTakes_converting : ((loop n s (State.srTake mask)).mem.slice k).converting = true :=
  loop_sets (fun t : State => (t.mem.slice k).converting) hk (fun t => by rw [State.srTake_slice, if_pos rfl])
    (fun t j _ hj => by rw [State.srTake_slice, if_neg (Ne.symm hj)]) s

theorem State.srTakes_leaving : ((loop n s (State.srTake mask)).mem.slice k).leaving = BitVec.ofNat 16 mask :=
  loop_sets (fun t : State => (t.mem.slice k).leaving) hk (fun t => by rw [State.srTake_slice, if_pos rfl])
    (fun t j _ hj => by rw [State.srTake_slice, if_neg (Ne.symm hj)]) s

theorem State.srTakes_lines {set y : Nat} (hset : set < 2048) (hy : y < 16) (taken : bit mask y = true) :
    mget (loop n s (State.srTake mask)).mem.lines (lineKey k set y) = none :=
  loop_sets (fun t : State => mget t.mem.lines (lineKey k set y)) hk
    (fun t => by rw [State.srTake_lines, lineKey_slice hset hy, lineKey_way hy, if_pos ⟨rfl, taken⟩])
    (fun t j _ hj => by rw [State.srTake_lines, lineKey_slice hset hy, if_neg fun h => hj h.1.symm]) s

end

/-- Where an increase has started, every slice converts, the ways it takes leave, and their lines are gone. -/
structure SrStarted (s t : State) (w : Nat) : Prop where
  target : t.mem.srTarget = some w
  beside : (t.host, t.fw, t.mmu, t.queues, t.mem.cells, t.mem.srWays) = (s.host, s.fw, s.mmu, s.queues, s.mem.cells, s.mem.srWays)
  converting : ∀ k, k < 16 → (t.mem.slice k).converting = true
  leaving : ∀ k y, k < 16 → y < 16 → (bit (t.mem.slice k).leaving.toNat y = true ↔ 16 - w ≤ y ∧ y < 16 - s.mem.srWays)
  empty : ∀ k set y, k < 16 → set < 2048 → 16 - w ≤ y → y < 16 - s.mem.srWays → mget t.mem.lines (lineKey k set y) = none

theorem State.srStart_started (s : State) (w : Nat) : SrStarted s (s.srStart w) w := by
  have beside := loop_keeps (fun t : State => (t.host, t.fw, t.mmu, t.queues, t.mem.cells, t.mem.srWays)) (n := 16)
    (fun t i _ => t.srTake_keeps (s.mem.srTaken w) i) s
  have converting := fun k => State.srTakes_converting (n := 16) (k := k) (s.mem.srTaken w) s
  have leaving := fun k => State.srTakes_leaving (n := 16) (k := k) (s.mem.srTaken w) s
  have empty := fun k set y => State.srTakes_lines (n := 16) (k := k) (set := set) (y := y) (s.mem.srTaken w) s
  rw [State.srStart_eq]
  generalize loop 16 s (State.srTake (s.mem.srTaken w)) = v at beside converting leaving empty
  refine ⟨rfl, beside, converting, fun k y hk hy => ?_, fun k set y hk hset lo hi => ?_⟩
  · show bit (v.mem.slice k).leaving.toNat y = true ↔ _
    rw [leaving k hk, bit_ofNat16 _ hy]
    exact s.mem.bit_srTaken hy
  · have hy : y < 16 := by omega
    exact empty k set y hk hset hy ((s.mem.bit_srTaken hy).2 ⟨lo, hi⟩)

/-! ### A decrease (R169) -/

theorem State.srShrink_eq (s : State) (w : Nat) : ∃ l, s.srShrink w = State.capChanged (State.setSetting { s with
    mem := { s.mem with
      slices := l, srWays := w
      cells := s.mem.cells.filter (fun c => c.1 < srBase + w * 4 * 2 ^ 20 || srBase + srSpan ≤ c.1)
      poison := s.mem.poison.filter (fun p => 32 * p < srBase + w * 4 * 2 ^ 20 || srBase + srSpan ≤ 32 * p) } } 0x45 w) := by
  obtain ⟨l, e⟩ := s.modSlices_eq 16 (fun _ v => { v with
    lost := v.lost &&& ~~~BitVec.ofNat 16 (maskOf ((List.range 16).filter
      (fun x => decide (16 - s.mem.srWays ≤ x) && decide (x < 16 - w))))
    wayCe := v.wayCe.filter (fun p => !(decide (16 - s.mem.srWays ≤ p.1) && decide (p.1 < 16 - w)))
    weak := v.weak.filter (fun x => !(decide (16 - s.mem.srWays ≤ x) && decide (x < 16 - w))) })
  unfold State.srShrink
  dsimp only
  rw [e]
  exact ⟨l, rfl⟩

theorem State.srShrink_target (s : State) (w : Nat) : (s.srShrink w).mem.srTarget = s.mem.srTarget := by
  obtain ⟨l, e⟩ := s.srShrink_eq w
  rw [e]
  rfl

/-- The window shrinks to w ways; the bytes above it are gone (R169). -/
theorem State.srShrink_cells (s : State) (w : Nat) (ok : s.memOk) (a : Nat) : memGet (s.srShrink w).mem.cells a
    = if 0xFE_0000_0000 + w * 2 ^ 22 ≤ a ∧ a < 0xFE_0200_0000 then 0 else memGet s.mem.cells a := by
  obtain ⟨l, e⟩ := s.srShrink_eq w
  rw [e]
  show memGet (s.mem.cells.filter _) a = _
  rw [memGet_filter s.mem.cells (fun k => k < srBase + w * 4 * 2 ^ 20 || srBase + srSpan ≤ k) a ok]
  have span : srBase + w * 4 * 2 ^ 20 = 0xFE_0000_0000 + w * 2 ^ 22 := by unfold srBase; omega
  have top : srBase + srSpan = 0xFE_0200_0000 := by decide
  rw [span, top]
  by_cases h : 0xFE_0000_0000 + w * 2 ^ 22 ≤ a ∧ a < 0xFE_0200_0000
  · rw [if_pos h, if_neg (by simp; omega)]
    rfl
  · rw [if_neg h, if_pos (by simp; omega)]

/-! ### L2_SET_STRONGROOM -/

/-- What L2_SET_STRONGROOM does with a request for w ways that reaches it (R168, R169). -/
def State.srSet (s : State) (w : Nat) : Ans × State :=
  if 8 < w then (.err eStrongroomWays, s)
  else if s.mem.srWays < w then
    (if s.mem.srGrow w then (.ok (zeros 48) 0, s.srStart w) else (.err eStrongroomWays, s))
  else if w < s.mem.srWays then
    (if s.mmu.backings.any (fun b => b.2.placement = 1 && srBase + w * 4 * 2 ^ 20 < b.2.base + b.2.size) then
      (.err eStrongroomInUse, s) else (.ok (result [(0x10, 1, w)]) 0, s.srShrink w))
  else (.ok (result [(0x10, 1, w)]) 0, s)

theorem State.finish_mem (s : State) (r : Req) (keep log : Bool) (a : Ans) : (s.finish r keep log a).mem = s.mem := by
  obtain ⟨_, _, _, e⟩ := s.finish_answerOnly r keep log a
  rw [e]

section

variable {s : State} {pair : Fin 8} {r : Req} {x : Session}

theorem exec_l2SetStrongroom_waits {w : Nat} (busy : s.mem.srTarget = some w) : exec (.l2SetStrongroom pair) s = .next s := by
  show execL2SetStrongroom pair s = _
  unfold execL2SetStrongroom
  rw [if_pos (by rw [busy]; rfl)]

/-- An increase that has started leaves its request waiting; every other request is answered (log entry 63). -/
theorem exec_l2SetStrongroom_runs {mine : List Byte → Bool} (h : Served s ⟨pair, 0x0330, mine⟩ r x)
    (free : s.mem.srTarget = none) {a : Ans} {u : State} (acts : s.srSet (r.n 0x10 1) = (a, u)) :
    exec (.l2SetStrongroom pair) s
      = .next (if u.mem.srTarget.isSome then s.srStart (r.n 0x10 1) else u.finish r true true a) := by
  have served := State.mbxCmd_served h (by decide) (fun _ s => s.srSet (r.n 0x10 1))
  have run : execL2SetStrongroom pair s = match s.mbxCmd pair 0x0330 (fun _ s => s.srSet (r.n 0x10 1)) with
      | .next t => if t.mem.srTarget.isSome then .next (s.srStart (r.n 0x10 1)) else .next t
      | y => y := by
    unfold execL2SetStrongroom
    rw [if_neg (by rw [free]; decide)]
    dsimp only
    rw [show (s.mbx pair.val).req = r.body from h.body.symm]
    rfl
  show execL2SetStrongroom pair s = _
  rw [run, served, acts]
  dsimp only
  rw [State.finish_mem]
  split <;> rfl

theorem l2SetStrongroom_responds {mine : List Byte → Bool} (h : Served s ⟨pair, 0x0330, mine⟩ r x)
    (free : s.mem.srTarget = none) {a : Ans} {u : State} (acts : s.srSet (r.n 0x10 1) = (a, u)) (still : u.mem.srTarget = none) :
    ∃ t, exec (.l2SetStrongroom pair) s = .next t ∧ Responds u t r true a.frame.1 a.frame.2.1 a.frame.2.2.1 a.frame.2.2.2 := by
  have op : r.op = 0x0330 := h.opcode.2
  refine ⟨_, exec_l2SetStrongroom_runs h free acts, ?_⟩
  rw [if_neg (by rw [still]; decide)]
  exact u.finish_responds (by rw [op]; decide) a

theorem l2SetStrongroom_acts (served : Serves (.l2SetStrongroom pair) s r x) :
    let i := Instr.l2SetStrongroom pair
    let w := r.n 0x10 1
    let old := s.mem.srWays
    let top := 0xFE_0000_0000 + w * 2 ^ 22
    (s.mem.srTarget ≠ none → exec i s = .next s)
    ∧ (s.mem.srTarget = none →
      (8 < w → FailsWith i s r 0x0205)
      ∧ (w ≤ 8 → old < w → ¬ s.mem.spares w → FailsWith i s r 0x0205)
      ∧ (w ≤ 8 → old < w → s.mem.spares w → exec i s = .next (s.srStart w))
      ∧ (w < old → w ≤ 8 → (∃ b ∈ s.mmu.backings, b.2.placement = 1 ∧ top < b.2.base + b.2.size) → FailsWith i s r 0x0206)
      ∧ (w < old → w ≤ 8 → (∀ b ∈ s.mmu.backings, b.2.placement = 1 → b.2.base + b.2.size ≤ top) →
          Succeeds i s (s.srShrink w) r 0 (result [(0x10, 1, w)]))
      ∧ (w = old → w ≤ 8 → Succeeds i s s r 0 (result [(0x10, 1, w)]))) := by
  obtain ⟨m, row, h⟩ := served
  cases row
  intro i w old top
  have span : srBase + w * 4 * 2 ^ 20 = top := by unfold srBase; omega
  refine ⟨fun busy => ?_, fun free => ⟨fun high => ?_, fun low more few => ?_, fun low more room => ?_, fun less low held => ?_,
    fun less low none => ?_, fun same low => ?_⟩⟩
  · obtain ⟨v, hv⟩ := Option.ne_none_iff_exists'.1 busy
    exact exec_l2SetStrongroom_waits hv
  · exact l2SetStrongroom_responds (a := .err 0x0205) h free (if_pos high) free
  · refine l2SetStrongroom_responds (a := .err 0x0205) h free ?_ free
    exact (if_neg (Nat.not_lt.2 low)).trans ((if_pos more).trans (if_neg (mt (s.mem.srGrow_iff low).1 few)))
  · have acts : s.srSet w = (.ok (zeros 48) 0, s.srStart w) :=
      (if_neg (Nat.not_lt.2 low)).trans ((if_pos more).trans (if_pos ((s.mem.srGrow_iff low).2 room)))
    rw [exec_l2SetStrongroom_runs h free acts, if_pos]
    rw [(s.srStart_started w).target]
    rfl
  · refine l2SetStrongroom_responds (a := .err 0x0206) h free ?_ free
    refine (if_neg (Nat.not_lt.2 low)).trans ((if_neg (Nat.not_lt.2 less.le)).trans ((if_pos less).trans (if_pos ?_)))
    rw [span]
    simpa [List.any_eq_true] using held
  · have target : (s.srShrink w).mem.srTarget = s.mem.srTarget := s.srShrink_target w
    refine l2SetStrongroom_responds (a := .ok (result [(0x10, 1, w)]) 0) h free ?_ (target.trans free)
    refine (if_neg (Nat.not_lt.2 low)).trans ((if_neg (Nat.not_lt.2 less.le)).trans ((if_pos less).trans (if_neg ?_)))
    rw [span]
    simpa using none
  · refine l2SetStrongroom_responds (a := .ok (result [(0x10, 1, w)]) 0) h free ?_ free
    exact (if_neg (Nat.not_lt.2 low)).trans ((if_neg (Nat.not_lt.2 same.le)).trans (if_neg (Nat.not_lt.2 same.ge)))

end

end Sys2Proof.Machine

/-! ## The conversion of the strongroom ends (R168, R170) -/

namespace Sys2Proof.Machine

set_option Elab.async false

/-- A slice at the end of an increase that takes the ways of a mask. -/
def Slice.joined (mask : Nat) (v : Slice) : Slice :=
  { v with converting := false, leaving := 0, wayCe := v.wayCe.filter (fun p => !bit mask p.1)
           weak := v.weak.filter (fun x => !bit mask x) }

/-- The state at the end of an increase to w ways, before the ways of fenced slices are lost. -/
def State.srEnd (s : State) (w : Nat) : State :=
  let t := loop 16 s (fun t i => t.modSlice i (Slice.joined (s.mem.srTaken w)))
  ({ t with mem := { t.mem with srWays := w, srTarget := none } }.setSetting 0x45 w).capChanged

/-- A fenced slice loses the ways of a mask (R170). -/
def State.srLose (mask : Nat) (t : State) (i : Nat) : State :=
  if (t.mem.slice i).fenced then t.loseSr i 3 i mask else t

theorem State.srFinish_eq (s : State) (w : Nat) :
    s.srFinish w = loop 16 (s.srEnd w) (State.srLose (s.mem.srTaken w)) := by
  unfold State.srFinish State.srEnd
  exact congrArg (fun f => loop 16 _ f) (rfl : _ = State.srLose (s.mem.srTaken w))

/-- The end of an increase changes the sizes and the slices, which convert no more. -/
theorem State.srEnd_eq (s : State) (w : Nat) : ∃ l,
    s.srEnd w = State.capChanged (State.setSetting { s with mem := { s.mem with
      slices := l, srWays := w, srTarget := none } } 0x45 w)
    ∧ ∀ k, k < 16 → ((s.srEnd w).mem.slice k).converting = false ∧ ((s.srEnd w).mem.slice k).leaving = 0
      ∧ ((s.srEnd w).mem.slice k).fenced = (s.mem.slice k).fenced := by
  have converting := fun k (hk : k < 16) =>
    State.modSlices_slice (obs := Slice.converting) s hk (f := fun _ => Slice.joined (s.mem.srTaken w)) fun _ _ => rfl
  have leaving := fun k (hk : k < 16) =>
    State.modSlices_slice (obs := Slice.leaving) s hk (f := fun _ => Slice.joined (s.mem.srTaken w)) fun _ _ => rfl
  have fenced := fun k => loop_keeps (fun t : State => (t.mem.slice k).fenced) (n := 16)
    (f := fun t i => t.modSlice i (Slice.joined (s.mem.srTaken w))) (fun t i _ => by
      rw [State.slice_modSlice]
      split
      · rename_i h
        rw [h]
        rfl
      · rfl) s
  obtain ⟨l, e⟩ := s.modSlices_eq 16 (fun _ => Slice.joined (s.mem.srTaken w))
  rw [e] at converting leaving fenced
  have shape : s.srEnd w = State.capChanged (State.setSetting { s with mem := { s.mem with
      slices := l, srWays := w, srTarget := none } } 0x45 w) := by
    unfold State.srEnd
    rw [e]
  refine ⟨l, shape, fun k hk => ?_⟩
  rw [shape]
  exact ⟨converting k hk, leaving k hk, fenced k⟩

/-! ### A fault leaves the mailbox pairs alone -/

/-- The mailbox pairs are as they were. -/
def SamePairs (s t : State) : Prop := t.host.pairs = s.host.pairs

theorem SamePairs.refl (s : State) : SamePairs s s := rfl
theorem SamePairs.mbx {s t : State} (a : SamePairs s t) (n : Nat) : t.mbx n = s.mbx n := by
  rw [State.mbx, State.mbx, a]

section

variable {s t : State} (h : SamePairs s t)
include h

theorem SamePairs.ite {u : State} {p : Prop} [Decidable p] (h' : SamePairs s u) : SamePairs s (if p then t else u) := by
  split <;> assumption
theorem SamePairs.send (m : OutMsg) : SamePairs s (t.send m) := by
  unfold State.send
  split <;> exact h
theorem SamePairs.cookie (v kind flags source value : Nat) : SamePairs s (t.cookie v kind flags source value) := by
  unfold State.cookie
  dsimp only
  split
  · exact h
  split
  · exact h
  · exact SamePairs.send (t := t.setRing _ _) h _
theorem SamePairs.sendMsix (v : Nat) : SamePairs s (t.sendMsix v) := by
  unfold State.sendMsix
  dsimp only
  split
  · exact h
  · exact h.send _
theorem SamePairs.interrupt (v kind flags source value : Nat) : SamePairs s (t.interrupt v kind flags source value) :=
  (h.cookie v kind flags source value).sendMsix v
theorem SamePairs.submit (l : LogRec) (urgent : Bool) : SamePairs s (t.submit l urgent) := by
  obtain ⟨_, e⟩ := t.submit_eq l urgent
  rw [e]
  exact h
theorem SamePairs.addRecord (r : FltRecord) (log notify urgent : Bool) :
    SamePairs s (t.addRecord r log notify urgent) := by
  have logged : ∀ f l, SamePairs s (if log = true then { t with flt := f }.submit l urgent else { t with flt := f }) :=
    fun f l => SamePairs.ite (SamePairs.submit (t := { t with flt := f }) h l urgent) h
  unfold State.addRecord
  exact SamePairs.ite ((logged _ _).interrupt _ _ _ _ _) (logged _ _)
omit h in
theorem SamePairs.noting {f : State → State} (h : SamePairs s (f t)) : SamePairs s (t.noting f) := by
  unfold State.noting
  dsimp only
  split
  · exact h
  · exact h.interrupt _ _ _ _ _
theorem SamePairs.startPulse : SamePairs s t.startPulse := h
theorem SamePairs.capChanged : SamePairs s t.capChanged := h
theorem SamePairs.goFatal : SamePairs s t.goFatal := by
  unfold State.goFatal
  exact SamePairs.noting h

end

theorem State.recordFaultBy_samePairs (s : State) (f : FaultIn) (third : Bool) : SamePairs s (s.recordFaultBy f third) := by
  have stopped : ∀ {t : State} {p : Prop} [Decidable p], SamePairs s t → SamePairs s (if p then t.goFatal else t) :=
    fun h => h.goFatal.ite h
  have pulsed : ∀ {t : State} {p : Prop} [Decidable p], SamePairs s t → SamePairs s (if p then t.startPulse else t) :=
    fun h => h.startPulse.ite h
  unfold State.recordFaultBy
  refine SamePairs.ite (.refl s) ?_
  dsimp only
  split
  · exact rfl
  · refine stopped ((pulsed (SamePairs.ite ?fenced ?old)).addRecord _ _ _ _)
    case fenced => exact (SamePairs.noting rfl).capChanged
    case old =>
      split
      · exact rfl
      · exact .refl s

/-- Losing strongroom ways touches neither sizes, bytes nor settings, and converts no slice. -/
theorem State.loseSr_keeps (s : State) (i kind index ways k : Nat) :
    let obs := fun t : State => (t.mem.srTarget, t.mem.srWays, t.mem.cells, t.mram, (t.mem.slice k).converting,
      (t.mem.slice k).leaving)
    obs (s.loseSr i kind index ways) = obs s := by
  intro obs
  unfold State.loseSr
  split
  · rfl
  · have lost : obs (s.modSlice i (fun v => { v with lost := v.lost ||| BitVec.ofNat 16 ways })) = obs s := by
      simp only [obs, State.slice_modSlice]
      split
      · rename_i h
        rw [h]
        rfl
      · rfl
    rw [← lost]
    obtain ⟨_, _, _, _, _, _, _, e⟩ := State.report_faultOnly
      (s.modSlice i (fun v => { v with lost := v.lost ||| BitVec.ofNat 16 ways })) 0x0304 kind index 0 0
    dsimp only
    rw [e]

/-- Where an increase has ended, the size is set and kept as a setting, and no slice converts. -/
structure SrEnded (s t : State) (w : Nat) : Prop where
  target : t.mem.srTarget = none
  ways : t.mem.srWays = w
  cells : t.mem.cells = s.mem.cells
  setting : t.setting 0x45 = w
  slices : ∀ k, k < 16 → (t.mem.slice k).converting = false ∧ (t.mem.slice k).leaving = 0

theorem State.srFinish_ended (s : State) {w : Nat} (hw : w ≤ 8) : SrEnded s (s.srFinish w) w := by
  obtain ⟨l, shape, slices⟩ := s.srEnd_eq w
  have kept := fun k => loop_keeps (fun t : State => (t.mem.srTarget, t.mem.srWays, t.mem.cells, t.mram,
      (t.mem.slice k).converting, (t.mem.slice k).leaving)) (n := 16) (f := State.srLose (s.mem.srTaken w))
    (fun t i _ => by
      unfold State.srLose
      split
      · exact t.loseSr_keeps i 3 i _ k
      · rfl) (s.srEnd w)
  rw [State.srFinish_eq]
  generalize loop 16 (s.srEnd w) (State.srLose (s.mem.srTaken w)) = t at kept
  simp only [Prod.mk.injEq] at kept
  obtain ⟨target, ways, cells, mram, -⟩ := kept 0
  have set : (s.srEnd w).setting 0x45 = w := by
    rw [shape]
    exact (State.setting_setSetting _ _ _ _ (by omega)).trans (if_pos rfl)
  refine ⟨?_, ?_, ?_, ?_, fun k hk => ?_⟩
  · rw [target, shape]
    rfl
  · rw [ways, shape]
    rfl
  · rw [cells, shape]
    rfl
  · unfold State.setting at set ⊢
    rw [mram]
    exact set
  · obtain ⟨-, -, -, -, converting, leaving⟩ := kept k
    exact ⟨converting.trans (slices k hk).1, leaving.trans (slices k hk).2.1⟩

theorem State.loseSr_samePairs (s : State) (i kind index ways : Nat) : SamePairs s (s.loseSr i kind index ways) := by
  unfold State.loseSr
  exact SamePairs.ite (.refl s) (State.recordFaultBy_samePairs (s.modSlice i _) _ false)

theorem State.srFinish_samePairs (s : State) (w : Nat) : SamePairs s (s.srFinish w) := by
  obtain ⟨l, shape, -⟩ := s.srEnd_eq w
  rw [State.srFinish_eq]
  refine loop_induct (P := SamePairs s) (fun t i _ h => ?_) (by rw [shape]; exact .refl s)
  exact SamePairs.ite (Eq.trans (t.loseSr_samePairs i 3 i _) h) h

/-- Where no slice is fenced, no way is lost. -/
theorem State.srFinish_unfenced (s : State) (w : Nat) (free : ∀ k, k < 16 → (s.mem.slice k).fenced = false) :
    s.srFinish w = s.srEnd w := by
  obtain ⟨_, -, slices⟩ := s.srEnd_eq w
  rw [State.srFinish_eq]
  refine loop_induct (P := fun t => t = s.srEnd w) (fun t i hi h => ?_) rfl
  rw [h, State.srLose, if_neg]
  rw [(slices i hi).2.2, free i hi]
  decide

/-! ### The waiting request -/

theorem Served.congr {s t : State} {m : MbxRow} {r : Req} {x : Session} (h : Served s m r x) (up : t.up = s.up)
    (halted : t.halted = s.halted) (fw : t.fw = s.fw) (pair : t.mbx m.pair.val = s.mbx m.pair.val)
    (fatal : t.flt.fatal = s.flt.fatal) : Served t m r x where
  listens := by rw [up, fw, halted]; exact h.listens
  posted := by rw [pair]; exact h.posted
  unheld := by rw [pair]; exact h.unheld
  body := by rw [pair]; exact h.body
  pair := h.pair
  opcode := h.opcode
  row := h.row
  tag := h.tag
  session := h.session
  proto := h.proto
  revision := h.revision
  check := h.check
  opened := by rw [State.session?, fw]; exact h.opened
  agreed := h.agreed
  role := h.role
  new := h.new
  authed := h.authed
  known := h.known
  alive := by rw [fatal]; exact h.alive

/-- Serving a request whose command acts on nothing changes nothing but what an answer changes. -/
theorem State.mbxServe_answerOnly {s t : State} {pair : Nat} {mine : List Byte → Bool} {a : Ans}
    (run : s.mbxServe pair mine (fun _ s => (a, s)) = .next t) : AnswerOnly s t := by
  have finished : ∀ {r keep log b}, AnswerOnly s (s.finish r keep log b) := s.finish_answerOnly _ _ _ _
  have executed : ∀ r x, AnswerOnly s (s.mbxExecute r x (fun _ s => (a, s))) := fun r x => by
    unfold State.mbxExecute
    refine .ite finished ?_
    split
    · exact finished
    · exact .ite finished (.ite finished (.ite finished (.ite finished finished)))
  suffices answers : ∃ v, s.mbxServe pair mine (fun _ s => (a, s)) = .next v ∧ AnswerOnly s v by
    obtain ⟨v, run', only⟩ := answers
    cases run.symm.trans run'
    exact only
  unfold State.mbxServe
  dsimp only
  split
  · exact ⟨_, rfl, .refl s⟩
  split
  · exact ⟨_, rfl, finished⟩
  split
  · exact ⟨_, rfl, finished⟩
  split
  next =>
    split
    · exact ⟨_, rfl, finished⟩
    split
    next => split <;> exact ⟨_, rfl, finished⟩
    next => exact ⟨_, rfl, finished⟩
  next x _ =>
    split
    · exact ⟨_, rfl, finished⟩
    split
    · split
      · exact ⟨_, rfl, (s.modSession_answerOnly _ _).trans (State.answer_hostOnly _ _ _).answers⟩
      · exact ⟨_, rfl, finished⟩
    · exact ⟨_, rfl, executed _ x⟩

/-- The pairs whose request waits for the end of an increase to w ways. -/
def State.awaitsSr (s : State) (w n : Nat) : Bool :=
  (s.mbx n).reqPending && frameOp (s.mbx n).req = 0x0330 && getLe (s.mbx n).req 0x10 1 = w

/-- The answer to the request that waits for the end of an increase to w ways, if one does. -/
def State.srAnswer (s : State) (w : Nat) : Out :=
  match (List.range 8).find? (s.awaitsSr w) with
  | none => .next s
  | some n => s.mbxServe n (fun b => frameOp b = 0x0330) (fun _ s => (.ok (result [(0x10, 1, w)]) 0, s))

theorem execStrongroomConversionEnd_runs {s : State} {w : Nat} (target : s.mem.srTarget = some w) (working : s.working = true) :
    exec .strongroomConversionEnd s = (s.srFinish w).srAnswer w := by
  show execStrongroomConversionEnd s = _
  unfold execStrongroomConversionEnd
  rw [target]
  dsimp only
  rw [if_neg (by rw [working]; decide)]
  generalize s.srFinish w = u
  rfl

theorem execStrongroomConversionEnd_stays {s : State} (h : s.mem.srTarget = none ∨ s.working = false) :
    exec .strongroomConversionEnd s = .next s := by
  show execStrongroomConversionEnd s = _
  unfold execStrongroomConversionEnd
  split
  · rfl
  next e =>
    rw [if_pos]
    rcases h with h | h
    · rw [h] at e
      cases e
    · simp [h]

theorem SrEnded.answers {s u t : State} {w : Nat} (h : SrEnded s u w) (a : AnswerOnly u t) : SrEnded s t w := by
  obtain ⟨_, _, _, rfl⟩ := a
  exact ⟨h.target, h.ways, h.cells, h.setting, h.slices⟩

theorem Served.awaitsSr {s : State} {pair : Fin 8} {mine : List Byte → Bool} {r : Req} {x : Session}
    (h : Served s ⟨pair, 0x0330, mine⟩ r x) : s.awaitsSr (r.n 0x10 1) pair.val = true := by
  have body : (s.mbx pair.val).req = r.body := h.body.symm
  unfold State.awaitsSr
  rw [body, Bool.and_eq_true, Bool.and_eq_true, decide_eq_true_eq, decide_eq_true_eq]
  exact ⟨⟨h.posted, h.opcode.1⟩, rfl⟩

theorem State.srAnswer_acts (u : State) (w : Nat) : ∃ t, u.srAnswer w = .next t ∧ AnswerOnly u t
    ∧ ((∀ n, n < 8 → (u.mbx n).reqPending = false) → t = u)
    ∧ ∀ pair mine r x, Served u ⟨pair, 0x0330, mine⟩ r x → r.n 0x10 1 = w →
        (∀ n, n ≠ pair.val → (u.mbx n).reqPending = false) → Responds u t r true 0 0 0 (result [(0x10, 1, w)]) := by
  unfold State.srAnswer
  split
  next none =>
    refine ⟨u, rfl, .refl u, fun _ => rfl, fun pair mine r x h size _ => ?_⟩
    exact absurd (size ▸ h.awaitsSr) (List.find?_eq_none.1 none pair.val (List.mem_range.2 pair.isLt))
  next n found =>
    have pending : (u.mbx n).reqPending = true := by
      have waits := List.find?_some found
      rw [State.awaitsSr, Bool.and_eq_true, Bool.and_eq_true] at waits
      exact waits.1.1
    obtain ⟨t, run⟩ := u.mbxServe_next n (fun b => frameOp b = 0x0330) (fun _ s => (.ok (result [(0x10, 1, w)]) 0, s))
    refine ⟨t, run, State.mbxServe_answerOnly run, fun idle => ?_, fun pair mine r x h size idle => ?_⟩
    · rw [idle n (List.mem_range.1 (List.mem_of_find?_eq_some found))] at pending
      cases pending
    · have same : n = pair.val := by
        by_contra other
        rw [idle n other] at pending
        cases pending
      subst same
      have served := State.mbxCmd_served h (by decide) (fun _ s => (.ok (result [(0x10, 1, w)]) 0, s))
      cases run.symm.trans served
      have op : r.op = 0x0330 := h.opcode.2
      exact u.finish_responds (by rw [op]; decide) (.ok (result [(0x10, 1, w)]) 0)

/-- Settles O42: a request that reaches its command is answered with what the command's action answers (`exec_responds`);
an increase empties the ways it takes (`State.srStart_started`) and leaves its request waiting, its end changes sizes and
slices (`State.srFinish_ended`) and answers that request (`State.srAnswer_acts`). -/
theorem strongroomAndMemoryCommandsAct : Obligations.StrongroomAndMemoryCommandsAct := by
  unfold Obligations.StrongroomAndMemoryCommandsAct
  refine ⟨fun pair s r x => ⟨fun served => ?set, drcConfigure_acts, drcRetrain_acts, eccLogRead_acts, eccLogClear_acts⟩,
    fun s => ⟨execStrongroomConversionEnd_stays, fun w target low working => ?ends⟩⟩
  case set =>
    obtain ⟨waits, free⟩ := l2SetStrongroom_acts served
    refine ⟨waits, fun target => ?_⟩
    obtain ⟨high, few, grows, held, shrinks, same⟩ := free target
    refine ⟨high, few, fun low more room => ?_, held, fun less low none ok => ?_, same⟩
    · obtain ⟨wanted, beside, converting, leaving, empty⟩ := s.srStart_started (r.n 0x10 1)
      simp only [Prod.mk.injEq] at beside
      obtain ⟨host, fw, mmu, queues, cells, ways⟩ := beside
      exact ⟨_, grows low more room, wanted, ways, host, fw, mmu, queues, cells, fun k hk =>
        ⟨converting k hk, fun y hy => leaving k y hk hy, fun set y => empty k set y hk⟩⟩
    · have cells := s.srShrink_cells (r.n 0x10 1) ok
      obtain ⟨l, e⟩ := s.srShrink_eq (r.n 0x10 1)
      exact ⟨_, shrinks less low none, by rw [e]; rfl, by rw [e]; rfl, by rw [e]; rfl, cells⟩
  case ends =>
    have ended := s.srFinish_ended low
    obtain ⟨t, run, only, idle, answer⟩ := (s.srFinish w).srAnswer_acts w
    obtain ⟨none, ways, cells, setting, slices⟩ := ended.answers only
    have pairs := s.srFinish_samePairs w
    refine ⟨t, s.srFinish w, (execStrongroomConversionEnd_runs target working).trans run, none, ways, cells, slices, setting,
      fun quiet => ?_, fun pair r x free served size others => ?_⟩
    · exact idle fun n hn => by rw [pairs.mbx]; exact quiet n hn
    · obtain ⟨m, row, h⟩ := served
      cases row
      obtain ⟨l, shape, -⟩ := s.srEnd_eq w
      refine answer pair _ r x (h.congr ?_ ?_ ?_ (pairs.mbx _) ?_) size fun n hn => by rw [pairs.mbx]; exact others n hn
      all_goals
        rw [s.srFinish_unfenced w free, shape]
        rfl

end Sys2Proof.Machine

/-! ## Two jobs of one copy engine, parked on one fault record (R198, R318) -/

namespace Sys2Proof.Machine

set_option Elab.async false

open Sys2Proof.Tests

/-- A COPY job of a queue's command 1, parked on fault 3. -/
def parkedJob (queue : Nat) : Job :=
  { queue := queue, cmd := 1, done := 0, fault := some (some 3), decompressing := false }

/-- A COPY that has started, and a queue of copy engine X1 that holds it. -/
def startedCopy : Cmd := { cmd0 with opcode := 0x05 }
def copyQueue : Queue := { q0 with kind := 1, unit := 1, cmds := [startedCopy] }

/-- Queues 2 and 3 are both of X1: the job that X0's place holds is of queue 2, and X1's own job is of queue 3. -/
def crossedJobs : State :=
  { pool with
    mmu := { pool.mmu with faults := [(3, frec 1)], nextFault := 3 }
    jobs := [(0, parkedJob 2), (1, parkedJob 3)]
    queues := [(2, copyQueue), (3, copyQueue)] }

noncomputable def crossedAbort : Ask := ask (.faultResolveAbort 0) well [(0x10, 4, 3), (0x14, 1, 2)] crossedJobs

theorem crossedAbort_served :
    Serves crossedAbort.i crossedAbort.state crossedAbort.req crossedAbort.x
    ∧ (crossedAbort.req.n 0x10 4 = 3 ∧ crossedAbort.state.cmd? 3 1 = some startedCopy) := by
  obtain ⟨served, _⟩ := meets_of (l := [crossedAbort]) (by decide +kernel) crossedAbort List.mem_cons_self
  exact ⟨served, by decide +kernel⟩

/-- The end of queue 2's job takes the unit of that queue, X1, from the table of jobs: queue 3's command never ends. -/
theorem crossedAbort_leaves : stateAfter (exec crossedAbort.i crossedAbort.state) (fun t =>
    (t.cmd? 3 1).map (fun c => c.st) = some startedCopy.st) = true := by
  decide +kernel

/-- What a mailbox command's answer leaves of the queues. -/
theorem Responds.cmd? {u t : State} {r : Req} {keeps : Bool} {status flags err : Nat} {res : List Byte}
    (h : Responds u t r keeps status flags err res) (q c : Nat) : u.cmd? q c = t.cmd? q c := by
  rw [← h.rest]
  rfl

/-- Refutes O41: the end of an aborted job frees the unit of its queue and not the one that held it, and nothing in the
statement keeps two jobs from being of one unit's queues. Here ABORT ends queue 2's job and so forgets queue 3's, whose
command goes on for ever. -/
theorem not_faultsReachRingsAndAreAnswered : ¬ Obligations.FaultsReachRingsAndAreAnswered := by
  unfold Obligations.FaultsReachRingsAndAreAnswered
  intro h
  obtain ⟨served, fault, command⟩ := crossedAbort_served
  obtain ⟨_, _, _, resolve⟩ := h
  obtain ⟨_, _, abort⟩ := resolve 0 crossedAbort.state crossedAbort.req crossedAbort.x
  obtain ⟨_, _, attached⟩ := abort served
  rw [fault] at attached
  obtain ⟨u, ⟨t, run, answer⟩, _, _, _, jobs, _⟩ := attached (frec 1) (by decide +kernel) (by decide +kernel)
  obtain ⟨_, ended⟩ := jobs 1 (parkedJob 3) copyQueue startedCopy (by decide +kernel) rfl (by decide +kernel)
    (by decide +kernel) command (fun _ => nofun)
  have left := stateAfter_of crossedAbort_leaves run
  rw [decide_eq_true_eq, ← answer.cmd?, show u.cmd? 3 1 = _ from ended] at left
  cases left

end Sys2Proof.Machine

/-! ## A hung engine whose pass loses more rows than the collector keeps records (R335, R379, R482) -/

namespace Sys2Proof.Machine

set_option Elab.async false

open Sys2Proof.Tests

/-! ### What a report of F_PHYS_ADDR leaves of the collector -/

/-- Every record is among the last 1,024 up to number n. -/
def KeepsLatest (l : Map FltRecord) (n : Nat) : Prop := ∀ p ∈ l, (n + 2 ^ 32 - p.1) % 2 ^ 32 < 1024

/-- A record was added: the next of its number, beside those of the 1,023 numbers below it; no fence came, and of the
board's signals only ERR_N may differ. -/
structure RecordAdded (s t : State) : Prop where
  next : t.flt.next = s.flt.next + 1
  fences : t.flt.fences = s.flt.fences
  latest : KeepsLatest t.flt.records s.flt.next.toNat
  pins : { t.pins with errN := s.pins.errN } = s.pins

theorem State.addRecord_added (s : State) (r : FltRecord) (log notify urgent : Bool) :
    RecordAdded s (s.addRecord r log notify urgent) := by
  have logged : ∀ (u : State) (x : LogRec),
      (if log then u.submit x urgent else u).flt = u.flt ∧ (if log then u.submit x urgent else u).pins = u.pins := by
    intro u x
    split
    · have rest := u.submit_rest x urgent
      exact ⟨(congrArg State.flt rest :), (congrArg State.pins rest :)⟩
    · exact ⟨rfl, rfl⟩
  have kept : (s.addRecord r log notify urgent).flt = { s.flt with
        records := (mset s.flt.records s.flt.next.toNat r).filter (fun p => (s.flt.next.toNat + 2 ^ 32 - p.1) % 2 ^ 32 < 1024)
        next := s.flt.next + 1 }
      ∧ (s.addRecord r log notify urgent).pins = s.pins := by
    have told : ∀ u : State, (if notify then u.interrupt 8 0x4 0 r.code s.flt.next.toNat else u).flt = u.flt
        ∧ (if notify then u.interrupt 8 0x4 0 r.code s.flt.next.toNat else u).pins = u.pins := by
      intro u
      split
      · have rest := (u.interrupt_hostOnly 8 0x4 0 r.code s.flt.next.toNat).rest
        exact ⟨(congrArg State.flt rest :), (congrArg State.pins rest :)⟩
      · exact ⟨rfl, rfl⟩
    exact ⟨(told _).1.trans (logged _ _).1, (told _).2.trans (logged _ _).2⟩
  obtain ⟨flt, pins⟩ := kept
  exact
    { next := by rw [flt]
      fences := by rw [flt]
      latest := fun p hp => by
        rw [flt] at hp
        exact of_decide_eq_true (List.mem_filter.1 hp).2
      pins := by rw [pins] }

/-- A report of F_PHYS_ADDR while nothing is fenced adds a record and fences nothing. -/
theorem State.report0103_added (s : State) (kind index addr info : Nat) (up : s.up = true) (unfenced : s.flt.fences = [])
    (action : bit (s.policy 0x0103).action 0 = false) : RecordAdded s (s.report 0x0103 kind index addr info) := by
  have free : s.fence? kind index = none := by rw [State.fence?, unfenced]; rfl
  have other : ((1 : Nat) = 2) = False := by decide
  have cls : (if faultClass 0x0103 = 3 && !fenceable kind then 2 else faultClass 0x0103) = 1 := rfl
  unfold State.report State.recordFault State.recordFaultBy
  simp only [up, Bool.not_true, Bool.false_eq_true, if_false, cls, other, action, free, Bool.false_or, Bool.false_and]
  split
  · obtain ⟨next, fences, latest, pins⟩ := s.startPulse.addRecord_added _ _ _ _
    exact ⟨next, fences, latest, congrArg (fun p : Pins => { p with errN := s.pins.errN }) pins⟩
  · exact s.addRecord_added _ _ _ _

/-! ### Rows of a render target that no translation reaches -/

/-- The tables of address space 1, with no translation cached. -/
def deafMmu : Mmu := { Mmu.reset with asids := [(1, { ring := 0, root := 0x2000 })] }

/-- The root table of address space 1 lies outside local memory: each translation reports it and fences nothing. -/
structure Deaf (s : State) : Prop where
  up : s.up = true
  mmu : s.mmu = deafMmu
  outside : s.mem.whereIs 0x2000 = .outside
  unfenced : s.flt.fences = []
  action : bit (s.policy 0x0103).action 0 = false

theorem Deaf.bump {s : State} (h : Deaf s) (b i e n : Nat) : Deaf (s.bump b i e n) := by
  obtain ⟨_, _, _, _, e⟩ := s.bump_cacheOnly b i e n
  rw [e]
  exact ⟨h.up, h.mmu, h.outside, h.unfenced, h.action⟩

theorem Deaf.added {s : State} (h : Deaf s) (kind index addr info : Nat) :
    RecordAdded s (s.report 0x0103 kind index addr info) :=
  s.report0103_added kind index addr info h.up h.unfenced h.action

theorem Deaf.report {s : State} (h : Deaf s) (kind index addr info : Nat) : Deaf (s.report 0x0103 kind index addr info) := by
  have added := h.added kind index addr info
  obtain ⟨_, _, _, _, _, _, _, e⟩ := s.report_faultOnly 0x0103 kind index addr info
  generalize s.report 0x0103 kind index addr info = t at added e
  have up : s.up = t.up := by
    rw [e] at added ⊢
    have pins := added.pins
    unfold State.up
    rw [← pins]
  have fences := added.fences.trans h.unfenced
  rw [e] at up fences ⊢
  exact ⟨up ▸ h.up, h.mmu, h.outside, fences, h.action⟩

/-- The state in which the root's read is reported: both misses are counted. -/
def State.missed (s : State) : State := (s.bump blkMMU 0 1 1).bump blkMMU 0 2 1

theorem Deaf.missed {s : State} (h : Deaf s) : Deaf s.missed := (h.bump _ _ _ _).bump _ _ _ _

theorem State.missed_flt (s : State) : s.missed.flt = s.flt := by
  rw [State.missed, State.bump_flt, State.bump_flt]

theorem Deaf.walkFrom_eq {s : State} (h : Deaf s) :
    s.walkFrom 1 0 0x2000 4 = (.error (0x05, 3, 0), s.report 0x0103 12 0 0x2000 0) := by
  have read : s.readPhys (0x2000 + 8 * bits 0 (20 + 9 * 3) (12 + 9 * 3)) 8 0
      = ((zeros 8, true), s.report 0x0103 12 0 0x2000 0) := by
    show s.readPhys 0x2000 8 0 = _
    rw [State.readPhys, h.outside]
  rw [State.walkFrom, read]
  rfl

theorem Deaf.walkTable_eq {s : State} (h : Deaf s) :
    s.walkTable 1 0 = (.error (0x05, 3, 0), (s.bump blkMMU 0 2 1).report 0x0103 12 0 0x2000 0) := by
  have asid : mget s.mmu.asids 1 = some { ring := 0, root := 0x2000 } := by rw [h.mmu]; rfl
  have miss : (s.bump blkMMU 0 2 1).walkHit 1 0 = none := by rw [State.walkHit, (h.bump _ _ _ _).mmu]; rfl
  rw [State.walkTable, asid]
  dsimp only
  rw [miss]
  exact (h.bump _ _ _ _).walkFrom_eq

theorem Deaf.translate_eq {s : State} (h : Deaf s) (acc : Acc) :
    s.translate 0 1 0 acc = (.fault 0x05 3 0, s.missed.report 0x0103 12 0 0x2000 0) := by
  have asid : mhas s.mmu.asids 1 = true := by rw [h.mmu]; rfl
  have missL : tlbFind (mgetD s.mmu.utlbs 0 []) 1 0 = none := by rw [h.mmu]; rfl
  have missS : tlbFind (mgetD s.mmu.stlb (stlbBank 0) []) 1 0 = none := by rw [h.mmu]; rfl
  rw [State.translate, if_neg (by decide), asid, missL, missS]
  dsimp only [Bool.not_true]
  rw [(h.bump _ _ _ _).walkTable_eq]
  rfl

/-- A row of 16 bytes: the root is reported, and no byte is reached. -/
theorem Deaf.scramble_eq {s : State} (h : Deaf s) : s.scramble 0 1 0 16 = s.missed.report 0x0103 12 0 0x2000 0 := by
  have pages : s.pieces 0 1 0 16 accWrite = (.error (0x05, 3, 0, 0), s.missed.report 0x0103 12 0 0x2000 0) := by
    rw [State.pieces, if_neg (by decide)]
    show (match s.translate 0 1 0 accWrite with | (.ok t pa pol ro die, s) => _ | (.fault k lv p, s) => _) = _
    rw [h.translate_eq]
    rfl
  rw [State.scramble, pages]

/-- A number of rows: as many records, of which the collector keeps the last 1,024. -/
theorem Deaf.rows {s : State} (h : Deaf s) (n : Nat) :
    Deaf (loop n s (fun s _ => s.scramble 0 1 0 16))
    ∧ (loop n s (fun s _ => s.scramble 0 1 0 16)).flt.next = s.flt.next + BitVec.ofNat 32 n
    ∧ (n ≠ 0 → KeepsLatest (loop n s (fun s _ => s.scramble 0 1 0 16)).flt.records
        (s.flt.next + BitVec.ofNat 32 (n - 1)).toNat) := by
  induction n with
  | zero => exact ⟨h, by simp [loop], fun h => absurd rfl h⟩
  | succ n ih =>
    obtain ⟨deaf, next, _⟩ := ih
    have step : loop (n + 1) s (fun s _ => s.scramble 0 1 0 16)
        = (loop n s (fun s _ => s.scramble 0 1 0 16)).scramble 0 1 0 16 := by
      simp [loop, List.range_succ]
    rw [step, deaf.scramble_eq]
    have added := deaf.missed.added 12 0 0x2000 0
    refine ⟨deaf.missed.report _ _ _ _, ?_, fun _ => ?_⟩
    · rw [added.next, State.missed_flt, next, BitVec.add_assoc, BitVec.ofNat_add]
      rfl
    · have latest := added.latest
      rw [State.missed_flt, next] at latest
      exact latest

/-! ### The hung engine -/

/-- An open pass of engine 0, in its geometry phase: 16 × 1,024 pixels, with one attachment of a byte per pixel. -/
def tallPass : Pass :=
  { geom0 with payload := (passPay 1).take 0x0A ++ leBytes 2 1024 ++ zeros 40 ++ leBytes 1 1 ++ zeros 139 }

theorem tallPass_shape : tallPass.agent = 0 ∧ tallPass.asid = 1 ∧ tallPass.height = 1024
    ∧ tallPass.width * 2 ^ tallPass.logS * (attOf tallPass.payload 0).mem = 16 := by decide +kernel
theorem tallPass_attachments : (attOf tallPass.payload 0).va = 0 ∧ (attOf tallPass.payload 0).pitch = 0
    ∧ (attOf tallPass.payload 0).format = 1 ∧ (attOf tallPass.payload 1).format = 0 ∧ (attOf tallPass.payload 2).format = 0
    ∧ (attOf tallPass.payload 3).format = 0 ∧ (attOf tallPass.payload 4).format = 0 := by decide +kernel

/-- A pass with one attachment, of one row at address 0 over and over, loses that row for each of its height. -/
theorem State.scrambleAtts_eq (s : State) (p : Pass) (none1 : (attOf p.payload 1).format = 0)
    (none2 : (attOf p.payload 2).format = 0) (none3 : (attOf p.payload 3).format = 0) (none4 : (attOf p.payload 4).format = 0)
    (one : (attOf p.payload 0).format ≠ 0) (va : (attOf p.payload 0).va = 0) (pitch : (attOf p.payload 0).pitch = 0) :
    s.scrambleAtts p = loop p.height s (fun s _ =>
      s.scramble p.agent p.asid 0 (p.width * 2 ^ p.logS * (attOf p.payload 0).mem)) := by
  unfold State.scrambleAtts
  simp only [show List.range 5 = [0, 1, 2, 3, 4] from rfl, List.foldl_cons, List.foldl_nil, none1, none2, none3, none4, one,
    va, pitch, if_true, Nat.mul_zero, Nat.add_zero, if_false]

/-- An abandoned pass loses each row of its attachment. -/
theorem State.scrambleAtts_tallPass (s : State) :
    s.scrambleAtts tallPass = loop 1024 s (fun s _ => s.scramble 0 1 0 16) := by
  obtain ⟨agent, asid, height, bytes⟩ := tallPass_shape
  obtain ⟨va, pitch, one, none1, none2, none3, none4⟩ := tallPass_attachments
  rw [s.scrambleAtts_eq tallPass none1 none2 none3 none4 (by rw [one]; decide) va pitch, agent, asid, height, bytes]

/-- Engine 0's watch timer is at its limit, and the page tables of its address space lie outside local memory. -/
def tallHang : State := { hung with mmu := deafMmu, passes := [(0, tallPass)] }

/-- F_HANG of an engine with a started command is recorded, and its timer restarts. -/
def State.hangReported (s : State) (u : Nat) (c : Cmd) : State :=
  let s := s.recordFault { code := 0x1003, kind := 0, index := u, addr := 0, info := BitVec.ofNat 64 (mgetD s.flt.progress u 0)
                           waybill := c.waybill, seq := c.seq }
  s.setWatch u { s.watch u with timer := 0, later := 0, since := s.aclk }

theorem State.hang_engine (s : State) {u : Nat} {d : Disp} {c : Cmd} (engine : u < 32)
    (oldest : (s.eng u).disps.head? = some d) (started : s.cmd? d.queue d.cmd = some c)
    (alone : ((s.hangReported u c).eng u).inGang = false) :
    s.hang u = ((s.hangReported u c).hangEngine (mgetD s.flt.progress u 0) u).applyFences := by
  unfold State.hang
  simp only [if_pos engine, oldest, Option.map_some, Option.orElse_some, Option.bind_some, started, Option.getD_some]
  exact congrArg State.applyFences (if_neg (fun on => Bool.false_ne_true (alone.symm.trans on)))

/-- An abandoned pass is gone, with its members' work and commands, before its attachments are lost. -/
def State.passGone (s : State) (id begin_ : Nat) (p : Pass) : State :=
  p.members.foldl (fun s m =>
    let s := s.dropPassWork m.1 id
    match s.queue? m.2.queue with
    | none => s
    | some v =>
      let s := (passCmds v m.2).foldl (fun s c =>
        s.endCmd m.2.queue c.index (if c.opcode = 0x10 then begin_ else ePassAbandoned) 0) s
      s.modQueue m.2.queue (fun v => { v with pass := none })) { s with passes := merase s.passes id }

theorem State.abandonPass_geometry (s : State) (id begin_ : Nat) {p : Pass} (running : s.pass? id = some p)
    (geometry : p.phase = .geometry) (grown : p.growth = none) :
    s.abandonPass id begin_ = (s.passGone id begin_ p).scrambleAtts p := by
  unfold State.abandonPass
  rw [running]
  simp only [geometry, grown, reduceCtorEq, if_false]
  rfl

/-- The commands of a hung engine have ended. -/
def State.hangCmds (s : State) (detail e : Nat) : State :=
  let s := s.settle e
  let v := s.eng e
  let cmds := v.disps.map (fun d => (d.queue, d.cmd)) ++ v.strs.map (fun p => (p.2.queue, p.2.cmd))
    ++ (if v.arrive.isSome then v.atGang.toList else [])
  cmds.foldl (fun s c => s.hangCmd c.1 c.2 detail) s

/-- A hung engine that is a member of one pass: the pass is abandoned, and the collector is as that leaves it. -/
theorem State.hangEngine_onePass (s : State) (detail e id : Nat) {p : Pass}
    (member : (s.hangCmds detail e).passes.filter (fun p => mhas p.2.members e) = [(id, p)]) :
    (s.hangEngine detail e).flt = ((s.hangCmds detail e).abandonPass id ePassAbandoned).flt := by
  unfold State.hangEngine
  show (State.orphan (State.forgetTile (State.modEng (((s.hangCmds detail e).passes.filter (fun p => mhas p.2.members e)).foldl
    (fun s p => s.abandonPass p.1 ePassAbandoned) (s.hangCmds detail e)) e Eng.vacant) e)).flt = _
  rw [member]
  rfl

/-- No fence waits for its effect. -/
theorem State.applyFences_unfenced (s : State) (unfenced : s.flt.fences = []) : s.applyFences = s := by
  have once : ∀ n, loop n s (fun s _ => (s.flt.fences.filter (fun f => !f.2.applied)).foldl (fun s f =>
      let s := { s with flt := { s.flt with fences := mmod s.flt.fences f.1 (fun x => { x with applied := true }) } }
      if s.flt.fatal then s else s.fenceUnit (f.1 / 256) (f.1 % 256)) s) = s := by
    intro n
    induction n with
    | zero => rfl
    | succ n ih =>
      rw [loop, List.range_succ, List.foldl_append]
      rw [loop] at ih
      rw [ih, List.foldl_cons, List.foldl_nil, unfenced]
      rfl
  exact once 2

/-- F_HANG of engine 0 is recorded; its command and its pass have ended. -/
def tallReported : State := tallHang.hangReported 0 cmd0
def tallRows : State := (tallReported.hangCmds 0 0).passGone 0 ePassAbandoned tallPass

theorem tallHang_oldest : (tallHang.eng 0).disps.head? = some disp0 ∧ tallHang.cmd? 0 1 = some cmd0
    ∧ mgetD tallHang.flt.progress 0 0 = 0 := by decide +kernel
theorem tallReported_alone : (tallReported.eng 0).inGang = false := by decide +kernel
theorem tallReported_member :
    (tallReported.hangCmds 0 0).passes.filter (fun p => mhas p.2.members 0) = [(0, tallPass)]
    ∧ (tallReported.hangCmds 0 0).pass? 0 = some tallPass := by decide +kernel
theorem tallRows_deaf : Deaf tallRows :=
  { up := by decide +kernel, mmu := rfl, outside := by decide +kernel, unfenced := by decide +kernel
    action := by decide +kernel }
theorem tallRows_next : tallRows.flt.next = 1 := by decide +kernel

/-- The hang leaves the collector as the rows of the abandoned pass do. -/
theorem tallHang_flt : (tallHang.hang 0).flt = (loop 1024 tallRows (fun s _ => s.scramble 0 1 0 16)).flt := by
  obtain ⟨oldest, started, progress⟩ := tallHang_oldest
  obtain ⟨member, running⟩ := tallReported_member
  have stopped : (tallReported.hangEngine 0 0).flt = (loop 1024 tallRows (fun s _ => s.scramble 0 1 0 16)).flt := by
    rw [tallReported.hangEngine_onePass 0 0 0 member, State.abandonPass_geometry _ 0 ePassAbandoned running rfl rfl,
      State.scrambleAtts_tallPass]
    rfl
  have hang := tallHang.hang_engine (u := 0) (by decide) oldest started tallReported_alone
  rw [progress, show tallHang.hangReported 0 cmd0 = tallReported from rfl] at hang
  rw [hang, State.applyFences_unfenced _ ((congrArg Flt.fences stopped).trans (tallRows_deaf.rows 1024).1.unfenced)]
  exact stopped

/-- F_HANG's own record, of number 0, has been pushed out by those of the rows. -/
theorem tallHang_forgets (r : FltRecord) : mget (tallHang.hang 0).flt.records 0 ≠ some r := by
  intro kept
  obtain ⟨_, _, latest⟩ := tallRows_deaf.rows 1024
  rw [tallHang_flt] at kept
  have far := latest (by decide) _ (mem_of_mget kept)
  rw [tallRows_next] at far
  exact absurd (show (1024 + 2 ^ 32 - 0) % 2 ^ 32 < 1024 from far) (by decide)

theorem tallHang_expired : tallHang.live = true ∧ 0 ∈ watchUnits ∧ (tallHang.watch 0).loaded = true
    ∧ (tallHang.watch 0).exempt = false ∧ tallHang.unitLoaded 0 = true ∧ tallHang.unitExempt 0 = false
    ∧ 2 ^ tallHang.setting 0x30 + (tallHang.watch 0).later ≤ (tallHang.watch 0).timer := by decide +kernel
theorem tallHang_path : tallHang.stalledPath 0 = (false, []) := by decide +kernel

/-- An expired timer of a unit whose stalled path uses no link is a hang. -/
theorem execWatchTimerExpiry_hangs (s : State) (u : Nat) (live : s.live = true) (unit : u ∈ watchUnits)
    (loaded : (s.watch u).loaded = true) (watched : (s.watch u).exempt = false) (loadedNow : s.unitLoaded u = true)
    (watchedNow : s.unitExempt u = false) (due : 2 ^ s.setting 0x30 + (s.watch u).later ≤ (s.watch u).timer)
    (path : s.stalledPath u = (false, [])) : exec (.watchTimerExpiry u) s = .next (s.hang u) := by
  show execWatchTimerExpiry u s = _
  unfold execWatchTimerExpiry
  simp [live, unit, loaded, watched, loadedNow, watchedNow, Nat.not_lt.2 due, path]

/-- Refutes O53: what a hung engine's stop loses can itself be reported, and the collector keeps 1,024 records. Here the
engine's pass is abandoned, the rows of its attachment have no translation because the root table of their address space
lies outside local memory, and the 1,024 reports of that push F_HANG's record out. -/
theorem not_schedulerSwitchesAndWatchdogActs : ¬ Obligations.SchedulerSwitchesAndWatchdogActs := by
  unfold Obligations.SchedulerSwitchesAndWatchdogActs
  intro h
  obtain ⟨_, _, _, expiry⟩ := h
  obtain ⟨_, _, _, hangs⟩ := expiry 0 tallHang
  obtain ⟨live, unit, loaded, watched, loadedNow, watchedNow, due⟩ := tallHang_expired
  have slow : ¬ (((tallHang.stalledPath 0).1 = true ∧ (tallHang.host.retry = true ∨ tallHang.host.recovery = true))
      ∨ ∃ k ∈ (tallHang.stalledPath 0).2, (tallHang.caravan.port k).link = 3 ∨ (tallHang.caravan.port k).link = 4) := by
    simp [tallHang_path]
  have down : ¬ ∃ k ∈ (tallHang.stalledPath 0).2, ∃ a ∈ (tallHang.caravan.port k).downs, (tallHang.watch 0).since ≤ a := by
    simp [tallHang_path]
  obtain ⟨t, run, reported, _⟩ := hangs ⟨live, unit, loaded, watched, loadedNow, watchedNow, due⟩ slow down
  rw [execWatchTimerExpiry_hangs tallHang 0 live unit loaded watched loadedNow watchedNow due tallHang_path] at run
  have after := Host.Outcome.next.inj run
  subst after
  rcases reported with ⟨_, _, _, old, _⟩ | ⟨r, new, _⟩
  · cases old
  · exact tallHang_forgets r new

end Sys2Proof.Machine

/-! ## What an access by the device's own agents can change (R158 to R193, R462, R482) -/

namespace Sys2Proof.Machine

set_option Elab.async false

/-- The parts of a state that an access to memory may change: translation caches, cache lines and bytes of local memory,
counters and free values, records of faults, messages that leave. -/
structure Traffic where
  utlbs : Map (List TlbEnt)
  stlb : Map (List TlbEnt)
  walk : List WalkEnt
  lines : Map L2Line
  partials : List Partial
  cells : List Host.Cell
  poison : List Nat
  counters : Map Nat
  fresh : Nat
  flt : Flt
  pairs : Map MbxPair
  rings : Map CookieRing
  bits : List Nat
  out : List OutMsg
  wait : List OutMsg
  generation : Word
  errN : Bool
  logbook : Logbook
  caravan : Caravan

/-- The state with that traffic. -/
def State.carry (s : State) (x : Traffic) : State :=
  { s with
    mmu := { s.mmu with utlbs := x.utlbs, stlb := x.stlb, walk := x.walk }
    mem := { s.mem with lines := x.lines, partials := x.partials, cells := x.cells, poison := x.poison }
    counters := x.counters, clk := { s.clk with fresh := x.fresh }, flt := x.flt
    host := { s.host with pairs := x.pairs, rings := x.rings, pendingBits := x.bits, out := x.out, waitOut := x.wait
                          capGeneration := x.generation }
    pins := { s.pins with errN := x.errN }, logbook := x.logbook, caravan := x.caravan }

/-- The traffic of a state. -/
def State.traffic (s : State) : Traffic :=
  ⟨s.mmu.utlbs, s.mmu.stlb, s.mmu.walk, s.mem.lines, s.mem.partials, s.mem.cells, s.mem.poison, s.counters, s.clk.fresh,
    s.flt, s.host.pairs, s.host.rings, s.host.pendingBits, s.host.out, s.host.waitOut, s.host.capGeneration, s.pins.errN,
    s.logbook, s.caravan⟩

/-- Two states that differ at most in traffic; no fault became fatal, the die keeps its number, and no message that left
is taken back. -/
def Accessed (s t : State) : Prop := ∃ x, (x.flt.fatal = s.flt.fatal ∧ x.caravan.die = s.caravan.die)
  ∧ (∀ m ∈ s.host.out, m ∈ x.out) ∧ t = s.carry x

theorem Accessed.refl (s : State) : Accessed s s := ⟨s.traffic, ⟨rfl, rfl⟩, fun _ h => h, rfl⟩
theorem Accessed.trans {s t u : State} (a : Accessed s t) (b : Accessed t u) : Accessed s u := by
  obtain ⟨x, ⟨fatal, die⟩, kept, rfl⟩ := a
  obtain ⟨y, ⟨fatal', die'⟩, kept', rfl⟩ := b
  exact ⟨y, ⟨fatal'.trans fatal, die'.trans die⟩, fun m h => kept' m (kept m h), rfl⟩
theorem Accessed.ite {s a b : State} {p : Prop} [Decidable p] (ha : Accessed s a) (hb : Accessed s b) :
    Accessed s (if p then a else b) := by
  split <;> assumption
theorem Accessed.iteNeg {s a b : State} {p : Prop} [Decidable p] (hp : ¬p) (hb : Accessed s b) :
    Accessed s (if p then a else b) := by
  rwa [if_neg hp]
theorem Accessed.foldl {α : Type} {f : State → α → State} (h : ∀ s a, Accessed s (f s a)) (l : List α) (s : State) :
    Accessed s (l.foldl f s) :=
  List.foldlRecOn (motive := Accessed s) l f (.refl s) fun t ht a _ => ht.trans (h t a)

theorem CacheOnly.accessed {s t : State} (a : CacheOnly s t) : Accessed s t := by
  obtain ⟨l, p, c, n, rfl⟩ := a
  exact ⟨{ s.traffic with lines := l, partials := p, counters := c, fresh := n }, ⟨rfl, rfl⟩, fun _ h => h, rfl⟩
theorem Sends.accessed {s t : State} (a : Sends s t) : Accessed s t := by
  obtain ⟨p, r, b, o, w, kept, rfl⟩ := a
  exact ⟨{ s.traffic with pairs := p, rings := r, bits := b, out := o, wait := w }, ⟨rfl, rfl⟩, kept, rfl⟩
theorem State.submit_accessed (s : State) (r : LogRec) (u : Bool) : Accessed s (s.submit r u) := by
  obtain ⟨l, e⟩ := s.submit_eq r u
  exact ⟨{ s.traffic with logbook := l }, ⟨rfl, rfl⟩, fun _ h => h, e⟩
theorem State.log_accessed (s : State) (type a b c : Nat) : Accessed s (s.log type a b c) := s.submit_accessed _ _
theorem State.drew_accessed (s : State) (n : Nat) : Accessed s (s.drew n) :=
  ⟨{ s.traffic with fresh := s.clk.fresh + n }, ⟨rfl, rfl⟩, fun _ h => h, rfl⟩
theorem State.bump_accessed (s : State) (b i e n : Nat) : Accessed s (s.bump b i e n) := (s.bump_cacheOnly b i e n).accessed
theorem Accessed.ofFlt (s : State) (f : Flt) (h : f.fatal = s.flt.fatal) : Accessed s { s with flt := f } :=
  ⟨{ s.traffic with flt := f }, ⟨h, rfl⟩, fun _ h => h, rfl⟩
theorem Accessed.fences (s : State) (m : Map Fence) : Accessed s { s with flt := { s.flt with fences := m } } :=
  .ofFlt s { s.flt with fences := m } rfl
theorem State.hostWrite_sends (s : State) (a : Nat) (l : List Byte) : Sends s (s.hostWrite a l) := by
  unfold State.hostWrite
  split
  · exact .refl s
  · exact s.send_sends _

/-! ### Reports of uncorrected faults -/

theorem State.noting_accessed (s : State) {f : State → State} (h : Accessed s (f s)) : Accessed s (s.noting f) := by
  unfold State.noting
  generalize f s = t at h
  dsimp only
  generalize t.hrwState = x
  generalize s.hrwState = y
  split
  · exact h
  · exact h.trans (t.interrupt_sends 9 0x6 0 x 0).accessed
theorem State.capChanged_accessed (s : State) : Accessed s s.capChanged :=
  ⟨{ s.traffic with generation := s.host.capGeneration + 2 }, ⟨rfl, rfl⟩, fun _ h => h, rfl⟩
theorem State.startPulse_accessed (s : State) : Accessed s s.startPulse :=
  ⟨{ s.traffic with flt := { s.flt with pulse := true }, errN := s.flt.held || true || s.flt.swLevel }, ⟨rfl, rfl⟩,
    fun _ h => h, rfl⟩
theorem State.addRecord_accessed (s : State) (r : FltRecord) (log notify urgent : Bool) :
    Accessed s (s.addRecord r log notify urgent) := by
  have logged : ∀ (t : State) (x : LogRec), Accessed t (if log then t.submit x urgent else t) := fun t x =>
    .ite (t.submit_accessed _ _) (.refl t)
  have told : ∀ t : State, Accessed t (if notify then t.interrupt 8 0x4 0 r.code s.flt.next.toNat else t) := fun t =>
    .ite (t.interrupt_sends _ _ _ _ _).accessed (.refl t)
  exact ((Accessed.ofFlt s { s.flt with
    records := (mset s.flt.records s.flt.next.toNat r).filter (fun p => (s.flt.next.toNat + 2 ^ 32 - p.1) % 2 ^ 32 < 1024)
    next := s.flt.next + 1 } rfl).trans (logged _ _)).trans (told _)

/-- Recording a fault that is not fatal. -/
theorem State.recordFaultBy_accessed {f : FaultIn} (class1 : faultClass f.code = 1) (s : State) (third : Bool) :
    Accessed s (s.recordFaultBy f third) := by
  have cls : (if faultClass f.code = 3 && !fenceable f.kind then 2 else faultClass f.code) = 1 := by simp [class1]
  unfold State.recordFaultBy
  refine .ite (.refl s) ?_
  simp only [cls]
  refine .iteNeg (by decide) (.trans (.trans ?_ (.ite (State.startPulse_accessed _) (.refl _))) (State.addRecord_accessed _ _ _ _ _))
  refine .ite ((s.noting_accessed (.fences s _)).trans (State.capChanged_accessed _)) ?_
  split
  · exact .fences s _
  · exact .refl s

theorem State.report_accessed {code : Nat} (class1 : faultClass code = 1) (s : State) (kind index addr info : Nat) :
    Accessed s (s.report code kind index addr info) :=
  State.recordFaultBy_accessed class1 s false

/-! ### Local memory -/

theorem State.readPhys_accessed (s : State) (pa n pol : Nat) : Accessed s (s.readPhys pa n pol).2 := by
  unfold State.readPhys
  split
  case h_1 => exact (CacheOnly.foldl (fun s p => s.lineRead_cacheOnly _ _) _ s).accessed
  case h_2 =>
    dsimp only
    split <;> exact s.bump_accessed blkL2C _ 6 1
  case h_3 => exact State.report_accessed (code := 0x0305) (by decide) s _ _ _ _
  case h_4 => exact State.report_accessed (code := 0x0103) (by decide) s _ _ _ _

/-- New bytes and poison of local memory. -/
theorem Accessed.cells (s : State) (c : List Host.Cell) (p : List Nat) :
    Accessed s { s with mem := { s.mem with cells := c, poison := p } } :=
  ⟨{ s.traffic with cells := c, poison := p }, ⟨rfl, rfl⟩, fun _ h => h, rfl⟩

theorem State.writePhys_accessed (s : State) (pa : Nat) (l : List Byte) (pol : Nat) : Accessed s (s.writePhys pa l pol) := by
  unfold State.writePhys
  split
  case h_1 => exact (CacheOnly.foldl (fun s p => s.lineWrite_cacheOnly _ _ _) _ s).accessed.trans (.cells _ _ _)
  case h_2 =>
    have counted := s.bump_accessed blkL2C
    dsimp only
    split
    · exact counted _ 6 1
    · exact (counted _ 6 1).trans (.cells _ _ _)
  case h_3 => exact State.report_accessed (code := 0x0305) (by decide) s _ _ _ _
  case h_4 => exact State.report_accessed (code := 0x0103) (by decide) s _ _ _ _

theorem State.zeroPhys_accessed (s : State) (a n : Nat) : Accessed s (s.zeroPhys a n) := .cells s _ _

/-! ### Translation -/

theorem State.tlbFill_accessed (s : State) (agent : Nat) (e : TlbEnt) : Accessed s (s.tlbFill agent e) := by
  unfold State.tlbFill
  split
  · exact .refl s
  · exact ⟨{ s.traffic with utlbs := _ }, ⟨rfl, rfl⟩, fun _ h => h, rfl⟩
theorem State.stlbFill_accessed (s : State) (va : Nat) (e : TlbEnt) : Accessed s (s.stlbFill va e) :=
  ⟨{ s.traffic with stlb := _ }, ⟨rfl, rfl⟩, fun _ h => h, rfl⟩
theorem State.walkFill_accessed (s : State) (w : WalkEnt) : Accessed s (s.walkFill w) :=
  ⟨{ s.traffic with walk := _ }, ⟨rfl, rfl⟩, fun _ h => h, rfl⟩

theorem State.walkFrom_accessed (asid va n : Nat) : ∀ (s : State) (table : Nat), Accessed s (s.walkFrom asid va table n).2 := by
  induction n with
  | zero => exact fun s _ => .refl s
  | succ n ih =>
    intro s table
    unfold State.walkFrom
    have read := s.readPhys_accessed (table + 8 * bits va (20 + 9 * n) (12 + 9 * n)) 8 0
    have walked : ∀ t w next, Accessed s t → Accessed s ((State.walkFill t w).walkFrom asid va next n).2 :=
      fun t w next h => (h.trans (t.walkFill_accessed w)).trans (ih (t.walkFill w) next)
    dsimp only
    split_ifs
    exacts [read, read, read, read, walked _ _ _ read]

theorem State.walkTable_accessed (s : State) (asid va : Nat) : Accessed s (s.walkTable asid va).2 := by
  unfold State.walkTable
  split
  · exact .refl s
  · have counted := s.bump_accessed blkMMU 0 2 1
    dsimp only
    split
    next w _ => exact (counted.trans (State.walkFill_accessed _ w)).trans (State.walkFrom_accessed _ _ _ _ _)
    · exact counted.trans (State.walkFrom_accessed _ _ _ _ _)

theorem State.translate_accessed (s : State) (agent asid va : Nat) (acc : Acc) :
    Accessed s (s.translate agent asid va acc).2 := by
  have filled : ∀ (t : State) (e : TlbEnt), Accessed s t → Accessed s ((t.stlbFill va e).tlbFill agent e) :=
    fun t e h => (h.trans (t.stlbFill_accessed va e)).trans (State.tlbFill_accessed _ _ _)
  unfold State.translate
  split_ifs
  · exact .refl s
  · exact .refl s
  · split
    · exact s.tlbFill_accessed agent _
    · split
      · exact filled _ _ (s.bump_accessed _ _ _ _)
      · have walked := (s.bump_accessed blkMMU 0 1 1).trans (State.walkTable_accessed _ asid va)
        split
        next walk =>
          rw [walk] at walked
          exact walked
        next walk =>
          rw [walk] at walked
          exact filled _ _ walked

theorem State.pieces_accessed (s : State) (agent asid va n : Nat) (acc : Acc) :
    Accessed s (s.pieces agent asid va n acc).2 := by
  unfold State.pieces
  split
  · exact .refl s
  · refine List.foldlRecOn (motive := fun r : Except _ _ × State => Accessed s r.2) _ _ (.refl s) fun r hr i _ => ?_
    split
    · exact hr
    next l t =>
      have next := hr.trans (t.translate_accessed agent asid (max va ((va / 4096 + i) * 4096)) acc)
      dsimp only
      split
      next ok =>
        rw [ok] at next
        exact next
      next fault =>
        rw [fault] at next
        exact next

/-! ### Reads by virtual address -/

/-- What a read gathers piece by piece: the bytes so far, whether any is poisoned, what is left of the host's bytes. -/
def State.gather (stream noHost : Bool) (st : (List Byte × Bool × List Byte) × State)
    (p : Nat × Nat × Nat × Nat × Nat × Bool) : (List Byte × Bool × List Byte) × State :=
  if p.1 = 0 then
    ((st.1.1 ++ (st.2.readPhys p.2.1 p.2.2.1 (if stream && p.2.2.2.1 = 0 then 1 else p.2.2.2.1)).1.1,
      st.1.2.1 || (st.2.readPhys p.2.1 p.2.2.1 (if stream && p.2.2.2.1 = 0 then 1 else p.2.2.2.1)).1.2, st.1.2.2),
      (st.2.readPhys p.2.1 p.2.2.1 (if stream && p.2.2.2.1 = 0 then 1 else p.2.2.2.1)).2)
  else ((st.1.1 ++ slice st.1.2.2 0 p.2.2.1, st.1.2.1 || noHost, st.1.2.2.drop p.2.2.1), st.2)

theorem State.readVaX_eq (s : State) (agent asid va n : Nat) (stream : Bool) (ext : Option (List Byte)) :
    s.readVaX agent asid va n stream ext = match s.pieces agent asid va n accRead with
      | (.error e, s) => (.error e, s)
      | (.ok ps, s) =>
        (.ok (((ps.foldl (State.gather stream ext.isNone) (([], false, ext.getD []), s)).1.1,
            (ps.foldl (State.gather stream ext.isNone) (([], false, ext.getD []), s)).1.2.1),
          ext.map (fun _ => (ps.foldl (State.gather stream ext.isNone) (([], false, ext.getD []), s)).1.2.2)),
          (ps.foldl (State.gather stream ext.isNone) (([], false, ext.getD []), s)).2) := by
  unfold State.readVaX
  rfl

theorem State.gather_accessed {s : State} (stream noHost : Bool) (ps : List (Nat × Nat × Nat × Nat × Nat × Bool))
    (st : (List Byte × Bool × List Byte) × State) (h : Accessed s st.2) :
    Accessed s (ps.foldl (State.gather stream noHost) st).2 := by
  refine List.foldlRecOn (motive := fun r : (List Byte × Bool × List Byte) × State => Accessed s r.2) ps _ h fun r hr p _ => ?_
  unfold State.gather
  split
  · exact hr.trans (State.readPhys_accessed _ _ _ _)
  · exact hr

theorem State.readVaX_accessed (s : State) (agent asid va n : Nat) (stream : Bool) (ext : Option (List Byte)) :
    Accessed s (s.readVaX agent asid va n stream ext).2 := by
  have pieces := s.pieces_accessed agent asid va n accRead
  rw [State.readVaX_eq]
  split
  next e => rw [e] at pieces; exact pieces
  next e =>
    rw [e] at pieces
    exact State.gather_accessed _ _ _ _ pieces

theorem State.cmpRead_accessed (s : State) (v : Queue) (va n : Nat) (ext : Option (List Byte)) :
    Accessed s (s.cmpRead v va n ext).2 := by
  have read := s.readVaX_accessed v.agent v.asid va n true ext
  unfold State.cmpRead
  split
  next e => rw [e] at read; exact read
  next e => rw [e] at read; exact read

/-! ### Writes by virtual address -/

/-- Changes of the caravan that leave the die its number. -/
theorem Accessed.caravan (s : State) (c : Caravan) (h : c.die = s.caravan.die) : Accessed s { s with caravan := c } :=
  ⟨{ s.traffic with caravan := c }, ⟨rfl, h⟩, fun _ h => h, rfl⟩
theorem Accessed.reqs (s : State) (r : Map CvlReq) (o : List Nat) :
    Accessed s { s with caravan := { s.caravan with reqs := r, onAlt := o } } := .caravan s _ rfl
theorem State.emit_accessed (s : State) (m : OutMsg) : Accessed s (s.emit m) :=
  ⟨{ s.traffic with out := m :: s.host.out }, ⟨rfl, rfl⟩, fun _ h => List.mem_cons_of_mem _ h, rfl⟩
theorem State.setPort_accessed (s : State) (k : Nat) (p : Port) : Accessed s (s.setPort k p) := .caravan s _ rfl

theorem State.cvlEmit_accessed (s : State) (port type src dst tag addr aux size hops : Nat) (data : List Byte)
    (poison : Bool) : Accessed s (s.cvlEmit port type src dst tag addr aux size hops data poison) :=
  ((s.bump_accessed blkCVL port 0 1).trans (State.setPort_accessed _ _ _)).trans (State.emit_accessed _ _)

theorem State.cvlRequestAs_accessed (s : State) (type dst addr aux : Nat) (data : List Byte) (dest : NpDest)
    (signal : Option (Nat × Nat)) (fill : Bool) (off : Nat) (poison : Bool) :
    Accessed s ((s.cvlRequestAs type dst addr aux data dest signal fill off poison).getD s) := by
  unfold State.cvlRequestAs
  split
  · exact (Accessed.reqs s _ _).trans (State.cvlEmit_accessed _ _ _ _ _ _ _ _ _ _ _ _)
  · exact .refl s

theorem State.cvlStore_accessed (s : State) (dst pa : Nat) (l : List Byte) (dest : NpDest) :
    Accessed s (s.cvlStore dst pa l dest) := by
  unfold State.cvlStore State.cvlStoreAs
  split
  · exact .refl s
  · exact .foldl (fun t i => t.cvlRequestAs_accessed _ _ _ _ _ _ _ _ _ _) _ s

theorem State.writePiece_accessed (s : State) (target pa pol die : Nat) (l : List Byte) :
    Accessed s (s.writePiece target pa pol die l) := by
  unfold State.writePiece
  exact .ite (s.writePhys_accessed _ _ _) (.ite (s.hostWrite_sends _ _).accessed (s.cvlStore_accessed _ _ _ _))

/-- Writing the pieces of a range in turn: the bytes left, and the state. -/
def State.place (stream : Bool) (st : List Byte × State) (p : Nat × Nat × Nat × Nat × Nat × Bool) : List Byte × State :=
  (st.1.drop p.2.2.1,
    st.2.writePiece p.1 p.2.1 (if stream && p.2.2.2.1 = 0 then 1 else p.2.2.2.1) p.2.2.2.2.1 (st.1.take p.2.2.1))

theorem State.writeVa_eq (s : State) (agent asid va : Nat) (l : List Byte) (stream : Bool) :
    s.writeVa agent asid va l stream = match s.pieces agent asid va l.length accWrite with
      | (.error e, s) => (.error e, s)
      | (.ok ps, s) => (.ok (), (ps.foldl (State.place stream) (l, s)).2) := by
  unfold State.writeVa
  rfl

theorem State.writeVa_accessed (s : State) (agent asid va : Nat) (l : List Byte) (stream : Bool) :
    Accessed s (s.writeVa agent asid va l stream).2 := by
  have pieces := s.pieces_accessed agent asid va l.length accWrite
  rw [State.writeVa_eq]
  split
  next e => rw [e] at pieces; exact pieces
  next ps t e =>
    rw [e] at pieces
    refine List.foldlRecOn (motive := fun r : List Byte × State => Accessed s r.2) ps (State.place stream) pieces
      fun r hr p _ => ?_
    exact hr.trans (State.writePiece_accessed _ _ _ _ _ _)

theorem State.scramble_accessed (s : State) (agent asid va n : Nat) : Accessed s (s.scramble agent asid va n) := by
  have pieces := s.pieces_accessed agent asid va n accWrite
  unfold State.scramble
  split
  next e => rw [e] at pieces; exact pieces
  next ps t e =>
    rw [e] at pieces
    refine pieces.trans (.foldl (fun u p => ?_) ps t)
    dsimp only
    split
    · exact (Accessed.cells u _ u.mem.poison).trans (State.drew_accessed _ _)
    · exact .refl u

end Sys2Proof.Machine

/-! ## Accesses inside one page (R105, R182, R318) -/

namespace Sys2Proof.Machine

set_option Elab.async false

section

variable {s t : State}

theorem Accessed.queues (h : Accessed s t) : t.queues = s.queues := by
  obtain ⟨_, _, _, rfl⟩ := h
  rfl
theorem Accessed.events (h : Accessed s t) : t.events = s.events := by
  obtain ⟨_, _, _, rfl⟩ := h
  rfl
theorem Accessed.capacity (h : Accessed s t) : t.mem.capacity = s.mem.capacity := by
  obtain ⟨_, _, _, rfl⟩ := h
  rfl
theorem Accessed.cmd? (h : Accessed s t) (q n : Nat) : t.cmd? q n = s.cmd? q n := State.cmd?_congr h.queues q n

end

theorem length_slice (l : List Byte) (off n : Nat) : (slice l off n).length = n := by
  simp only [slice, List.length_append, List.length_replicate, List.length_take, List.length_drop]
  omega

theorem length_memRead (m : List Host.Cell) (a n : Nat) : (memRead m a n).length = n := by
  rw [memRead, List.length_map, List.length_range]

theorem getD_memRead (m : List Host.Cell) (a : Nat) {n k : Nat} (h : k < n) : (memRead m a n).getD k 0 = memGet m (a + k) := by
  simp [memRead, h]

/-- A read of local memory gives as many bytes as it asks for. -/
theorem State.readPhys_length (s : State) (pa n pol : Nat) : (s.readPhys pa n pol).1.1.length = n := by
  unfold State.readPhys
  split
  · exact length_memRead _ _ _
  · dsimp only
    split
    · exact length_zeros n
    · exact length_memRead _ _ _
  · exact length_zeros n
  · exact length_zeros n

theorem Mem.whereIs_capacity {m : Mem} {pa : Nat} (h : pa < m.capacity) : m.whereIs pa = .dram := by
  rw [Mem.whereIs, if_pos h]

section

variable {va n : Nat}

/-- A range inside one page is one piece. -/
theorem State.pieces_onePage (s : State) (agent asid : Nat) (acc : Acc) (some_ : 1 ≤ n) (inside : va % 4096 + n ≤ 4096) :
    s.pieces agent asid va n acc = match s.translate agent asid va acc with
      | (.ok t pa pol ro die, s) => (.ok [(t, pa, n, pol, die, ro)], s)
      | (.fault k lv p, s) => (.error (k, lv, p, va), s) := by
  have one : (va + n - 1) / 4096 - va / 4096 + 1 = 1 := by omega
  have lo : max va ((va / 4096 + 0) * 4096) = va := by omega
  have hi : min (va + n) ((va / 4096 + 0 + 1) * 4096) - va = n := by omega
  unfold State.pieces
  rw [if_neg (by omega), one, show List.range 1 = [0] from rfl, List.foldl_cons, List.foldl_nil, lo]
  simp only [hi]
  rcases s.translate agent asid va acc with ⟨_ | _, _⟩ <;> rfl

/-- A write inside one page of local memory. -/
theorem State.writeVa_onePage {s s1 : State} {agent asid pa pol die : Nat} {ro : Bool} {l : List Byte} (stream : Bool)
    (some_ : 1 ≤ l.length) (inside : va % 4096 + l.length ≤ 4096)
    (at_ : s.translate agent asid va accWrite = (.ok 0 pa pol ro die, s1)) :
    s.writeVa agent asid va l stream = (.ok (), s1.writePhys pa l (if stream && pol = 0 then 1 else pol)) := by
  rw [State.writeVa_eq, s.pieces_onePage agent asid accWrite some_ inside, at_]
  simp only [List.foldl_cons, List.foldl_nil, State.place, List.take_length, State.writePiece, if_true]

/-- A read inside one page gives as many bytes as it asks for. -/
theorem State.readVaX_length {s s1 : State} {agent asid : Nat} {stream bad : Bool} {ext ext' : Option (List Byte)}
    {b : List Byte} (some_ : 1 ≤ n) (inside : va % 4096 + n ≤ 4096)
    (read : s.readVaX agent asid va n stream ext = (.ok ((b, bad), ext'), s1)) : b.length = n := by
  rw [State.readVaX_eq, s.pieces_onePage agent asid accRead some_ inside] at read
  split at read
  · cases read
  next ps u e =>
    split at e
    · cases e
      obtain ⟨⟨⟨rfl, _⟩, _⟩, _⟩ := read
      rw [List.foldl_cons, List.foldl_nil, State.gather]
      split
      · exact State.readPhys_length _ _ _ _
      · exact length_slice _ _ _
    · cases e

/-- A read inside one page of local memory gives its bytes. -/
theorem State.readVaX_onePage {s s1 u : State} {agent asid pa pol die : Nat} {ro stream bad : Bool}
    {ext ext' : Option (List Byte)} {b : List Byte} (some_ : 1 ≤ n) (inside : va % 4096 + n ≤ 4096)
    (at_ : s.translate agent asid va accRead = (.ok 0 pa pol ro die, u)) (fits : pa + n ≤ s.mem.capacity)
    (read : s.readVaX agent asid va n stream ext = (.ok ((b, bad), ext'), s1)) : b = memRead s.mem.cells pa n := by
  have moved := translate_beside s agent asid va accRead
  rw [at_] at moved
  rw [State.readVaX_eq, s.pieces_onePage agent asid accRead some_ inside, at_] at read
  obtain ⟨⟨⟨rfl, _⟩, _⟩, _⟩ := read
  rw [List.foldl_cons, List.foldl_nil, State.gather, if_pos rfl]
  have dram : u.mem.whereIs pa = .dram := Mem.whereIs_capacity (by rw [moved.capacity]; omega)
  dsimp only
  rw [u.readPhys_dram pa n _ dram, moved.cells]
  rfl

end

/-- A read by virtual address changes no byte of memory. -/
theorem State.readVaX_cells (s : State) (agent asid va n : Nat) (stream : Bool) (ext : Option (List Byte)) :
    (s.readVaX agent asid va n stream ext).2.mem.cells = s.mem.cells := by
  have pieces := (pieces_readsOnly s agent asid va n accRead).cells
  rw [State.readVaX_eq]
  split
  next e => rw [e] at pieces; exact pieces
  next ps t e =>
    rw [e] at pieces
    refine List.foldlRecOn (motive := fun r : (List Byte × Bool × List Byte) × State => r.2.mem.cells = s.mem.cells) ps _
      pieces fun r hr p _ => ?_
    unfold State.gather
    split
    · exact (State.readPhys_cells _ _ _ _).1.trans hr
    · exact hr

/-- A write inside one page of local memory leaves its bytes and no other. -/
theorem State.writeVa_onePage_bytes {s s1 t : State} {agent asid va pa pol die : Nat} {ro stream : Bool} {l : List Byte}
    {r : Except (Nat × Nat × Nat × Nat) Unit} (wf : Memory.wf s.mem.cells = true)
    (some_ : 1 ≤ l.length) (inside : va % 4096 + l.length ≤ 4096) (fits : pa + l.length ≤ s.mem.capacity)
    (at_ : s.translate agent asid va accWrite = (.ok 0 pa pol ro die, s1))
    (written : s.writeVa agent asid va l stream = (r, t)) (a : Nat) : memGet t.mem.cells a
      = if pa ≤ a ∧ a < pa + l.length then l.getD (a - pa) 0 else memGet s.mem.cells a := by
  have moved := translate_beside s agent asid va accWrite
  rw [at_] at moved
  rw [State.writeVa_onePage stream some_ inside at_] at written
  obtain ⟨_, rfl⟩ := Prod.mk.inj written
  have dram : s1.mem.whereIs pa = .dram := Mem.whereIs_capacity (by rw [moved.capacity]; omega)
  rw [s1.writePhys_dram pa l _ a dram (by rw [moved.cells]; exact wf), moved.cells]

end Sys2Proof.Machine

/-! ## Jobs of the copy engines (R194, R226, R318, R328) -/

namespace Sys2Proof.Machine

set_option Elab.async false

/-! ### The job that may run -/

theorem beginCmd_events (s : State) (q : Nat) (v : Queue) (c : Cmd) : (s.beginCmd q v c).events = s.events := by
  have noted : ((s.modCmd q c.index Cmd.begin).noteLayer q c false).events = s.events := by
    obtain ⟨m, e⟩ := noteLayer_convoysOnly (s.modCmd q c.index Cmd.begin) q c false
    rw [e]
    rfl
  show (if v.kind = 0 then State.refreshCharge (State.noteLayer (s.modCmd q c.index Cmd.begin) q c false) v.unit
    else _).events = _
  split
  · exact (congrArg State.events (refreshCharge_rest _ v.unit) :).trans noted
  · exact noted

/-- What it means that a job may run now, s1 being the state in which it does. -/
structure JobRuns (s s1 : State) (q : Nat) (c : Cmd) (j : Job) : Prop where
  queue : j.queue = q
  cmd : j.cmd = c.index
  mem : s1.mem = s.mem
  events : s1.events = s.events

theorem jobRun_gives {s s1 : State} {q op : Nat} {v : Queue} {c : Cmd} {j : Job} (h : s.jobRun q op = some (v, c, j, s1)) :
    JobRuns s s1 q c j := by
  unfold State.jobRun at h
  split at h
  · cases h
  next v' hv =>
    split at h
    next j' hj =>
      split at h
      next c' hc =>
        split at h
        next runs =>
          cases h
          simp only [Bool.and_eq_true, decide_eq_true_eq] at runs
          obtain ⟨⟨⟨queue, _⟩, _⟩, _⟩ := runs
          have number : c.index = j.cmd := by
            obtain ⟨w, _, found⟩ := Option.bind_eq_some_iff.1 hc
            simpa using List.find?_some found
          exact ⟨queue, number.symm, rfl, rfl⟩
        · cases h
      · cases h
    · split at h
      · cases h
      next v' c' starts =>
        split at h
        · cases h
        · cases h
          exact ⟨rfl, rfl, (beginCmd_begun s q v c).mem, beginCmd_events s q v c⟩

/-- A job ends: its command is over with the error, and its unit is free. -/
theorem jobEnd_ends {s1 t : State} {q : Nat} {v : Queue} {c : Cmd} {j : Job} (queue : j.queue = q) (cmd : j.cmd = c.index)
    (open' : s1.cmd? q c.index = some { c with st := .started }) (kept : t.queues = s1.queues) (err : Nat) :
    CmdEnds s1 (t.jobEnd v j err) q { c with st := .started } err ∧ mget (t.jobEnd v j err).jobs v.jobUnit = none := by
  subst queue
  have ended : ∀ k n, (t.jobEnd v j err).cmd? k n
      = if k = j.queue ∧ n = c.index then (s1.cmd? k n).map (Cmd.finish err 0) else s1.cmd? k n := fun k n => by
    show (State.endCmd _ j.queue j.cmd err 0).cmd? k n = _
    have same : ({ t with jobs := merase t.jobs v.jobUnit } : State).cmd? k n = s1.cmd? k n := State.cmd?_congr kept k n
    rw [cmd?_endCmd_any, same, cmd]
  refine ⟨⟨?_, fun k n other => ?_⟩, ?_⟩
  · rw [ended, if_pos ⟨rfl, rfl⟩, open']
    exact congrArg some (Cmd.finish_open (fun _ => by simp) err 0)
  · rw [ended, if_neg fun same => other (Prod.ext same.1 same.2)]
  · show mget (merase t.jobs v.jobUnit) v.jobUnit = none
    rw [mget_merase, if_pos rfl]

/-- A job that stops at a page keeps its place. -/
theorem jobFault_stops (s : State) (v : Queue) (c : Cmd) (j : Job) (acc : Acc) (f : Nat × Nat × Nat × Nat) :
    (s.jobFault v c j acc f).mem = s.mem ∧ (s.jobFault v c j acc f).queues = s.queues
    ∧ ∃ id, mget (s.jobFault v c j acc f).jobs v.jobUnit = some { j with fault := some id } := by
  have raised : ∀ g, (s.raiseFault g).2.mem = s.mem ∧ (s.raiseFault g).2.queues = s.queues := fun g => by
    unfold State.raiseFault
    dsimp only
    split
    · exact ⟨rfl, rfl⟩
    · split <;> exact ⟨rfl, rfl⟩
  exact ⟨(raised _).1, (raised _).2, _, by
    show mget (mset _ v.jobUnit _) v.jobUnit = _
    rw [mget_mset, if_pos rfl]⟩

/-! ### Moving bytes -/

theorem State.moveBytes_accessed (v : Queue) (src : Option Nat) (dst n pattern fuel : Nat) :
    ∀ (s : State) (ext : Option (List Byte)) (done : Nat),
      Accessed s (s.moveBytes v src dst n pattern ext done fuel).2 := by
  induction fuel with
  | zero => exact fun s _ _ => .refl s
  | succ fuel ih =>
    intro s ext done
    have rest : ∀ (t : State) (b : List Byte) (bad : Bool) (ext : Option (List Byte)) (len : Nat), Accessed s t →
        Accessed s (if bad then (MoveEnd.poison, t)
          else match t.writeVa v.agent v.asid (dst + done) b true with
            | (.error f, s) => (.fault accWrite f done, s)
            | (.ok _, s) => s.moveBytes v src dst n pattern ext (done + len) fuel).2 := by
      intro t b bad ext len h
      have written := h.trans (t.writeVa_accessed v.agent v.asid (dst + done) b true)
      split
      · exact h
      · split
        next e => rw [e] at written; exact written
        next e => rw [e] at written; exact written.trans (ih _ _ _)
    unfold State.moveBytes
    split
    · exact .refl s
    · cases src with
      | none => exact rest s _ false ext _ (.refl s)
      | some a =>
        have read := s.readVaX_accessed v.agent v.asid (a + done)
          (pageRest (a + done) (pageRest (dst + done) (n - done))) true ext
        dsimp only
        rcases e : s.readVaX v.agent v.asid (a + done) (pageRest (a + done) (pageRest (dst + done) (n - done))) true ext
          with ⟨_ | ⟨⟨b, bad⟩, ext'⟩, t⟩
        · rw [e] at read
          exact read
        · rw [e] at read
          dsimp only
          split
          next heq => split at heq <;> cases heq
          next heq =>
            split at heq
            · cases heq
              exact rest _ _ _ _ _ (read.trans (t.drew_accessed _))
            · cases heq
              exact rest _ _ _ _ _ read

/-- The bytes that a FILL writes from an address on. -/
def fillBytes (pattern dst n : Nat) : List Byte := (List.range n).map (fun i => BitVec.ofNat 8 (pattern / 256 ^ ((dst + i) % 8)))

section

variable {s s1 s2 : State} {v : Queue} {dst n pattern : Nat} {ext ext' : Option (List Byte)} {b : List Byte} {fuel : Nat}

theorem pageRest_all (inside : dst % 4096 + n ≤ 4096) : pageRest dst n = n := by
  unfold pageRest
  omega

/-- The last step of moving bytes. -/
theorem State.moveBytes_done (s : State) (v : Queue) (src : Option Nat) (dst n pattern : Nat) (ext : Option (List Byte))
    (fuel : Nat) : s.moveBytes v src dst n pattern ext n (fuel + 1) = (.done, s) := by
  rw [State.moveBytes, if_pos (Nat.le_refl n)]

/-- A FILL inside one page is one write. -/
theorem State.moveBytes_fill (some_ : 1 ≤ n) (inside : dst % 4096 + n ≤ 4096)
    (written : s.writeVa v.agent v.asid dst (fillBytes pattern dst n) true = (.ok (), s1)) :
    s.moveBytes v none dst n pattern ext 0 (fuel + 2) = (.done, s1) := by
  rw [State.moveBytes, if_neg (by omega)]
  simp only [Nat.add_zero, Nat.sub_zero, Nat.zero_add, pageRest_all inside]
  unfold fillBytes at written
  rw [written]
  exact s1.moveBytes_done v none dst n pattern ext fuel

/-- A COPY from one page to another is one read and one write. -/
theorem State.moveBytes_copy {src : Nat} (some_ : 1 ≤ n) (inside : dst % 4096 + n ≤ 4096) (insideSrc : src % 4096 + n ≤ 4096)
    (apart : rangesMeet src n dst n = false) (read : s.readVaX v.agent v.asid src n true ext = (.ok ((b, false), ext'), s1))
    (written : s1.writeVa v.agent v.asid dst b true = (.ok (), s2)) :
    s.moveBytes v (some src) dst n pattern ext 0 (fuel + 2) = (.done, s2) := by
  rw [State.moveBytes, if_neg (by omega)]
  simp only [Nat.add_zero, Nat.sub_zero, Nat.zero_add, pageRest_all inside, pageRest_all insideSrc]
  rw [read]
  simp only [apart, Bool.false_eq_true, if_false]
  rw [written]
  exact s2.moveBytes_done v (some src) dst n pattern ext' fuel

end

/-- The fields of a COPY or a FILL (R318). -/
def moveSrc (op : Nat) (c : Cmd) : Option Nat := if op = 0x05 then some (getLe c.payload 0 8) else none
def moveDst (op : Nat) (c : Cmd) : Nat := getLe c.payload (if op = 0x05 then 8 else 0) 8
def moveBytesOf (op : Nat) (c : Cmd) : Nat := getLe c.payload (if op = 0x05 then 0x10 else 8) 8
def movePattern (op : Nat) (c : Cmd) : Nat := if op = 0x05 then 0 else getLe c.payload 0x10 8

section

variable {i : Instr} {op : Nat} {queue : Half} {host : Option (List Byte)} {s s1 : State} {v : Queue} {c : Cmd} {j : Job}

/-- How a COPY or FILL ends. -/
def State.moved (v : Queue) (c : Cmd) (j : Job) (op : Nat) : MoveEnd × State → State
  | (.done, s) => (s.progress v.progressUnit (moveBytesOf op c / 64)).jobEnd v j 0
  | (.poison, s) => s.jobEnd v j ePoison
  | (.fault acc f at_, s) => s.jobFault v c { j with done := at_ } acc f

theorem exec_move (which : (i, op) ∈ [(Instr.copy queue host, 0x05), (.fill queue host, 0x06)])
    (runs : s.jobRun queue.toNat op = some (v, c, j, s1)) : exec i s = .next (State.moved v c j op
      (s1.moveBytes v (moveSrc op c) (moveDst op c) (moveBytesOf op c) (movePattern op c) host j.done
        (moveBytesOf op c / 1024 + 8))) := by
  have run : ∀ src dst n pattern, src c = moveSrc op c → dst c = moveDst op c → n c = moveBytesOf op c →
      pattern c = movePattern op c → s.runMove queue.toNat op src dst n pattern host = .next (State.moved v c j op
        (s1.moveBytes v (moveSrc op c) (moveDst op c) (moveBytesOf op c) (movePattern op c) host j.done
          (moveBytesOf op c / 1024 + 8))) := by
    intro src dst n pattern hs hd hn hp
    unfold State.runMove
    rw [runs]
    simp only [hs, hd, hn, hp]
    rcases s1.moveBytes v (moveSrc op c) (moveDst op c) (moveBytesOf op c) (movePattern op c) host j.done
      (moveBytesOf op c / 1024 + 8) with ⟨_ | _ | _, _⟩ <;> rfl
  simp only [List.mem_cons, Prod.mk.injEq, List.not_mem_nil, or_false] at which
  rcases which with ⟨rfl, rfl⟩ | ⟨rfl, rfl⟩
  · exact run _ _ _ _ rfl rfl rfl rfl
  · exact run _ _ _ _ rfl rfl rfl rfl

variable (which : (i, op) ∈ [(Instr.copy queue host, 0x05), (.fill queue host, 0x06)])
  (runs : s.jobRun queue.toNat op = some (v, c, j, s1))
  (open' : s1.cmd? queue.toNat c.index = some { c with st := .started })

include which runs open'

/-- A job that has moved its bytes. -/
theorem move_done {s2 : State} (ran : s1.moveBytes v (moveSrc op c) (moveDst op c) (moveBytesOf op c) (movePattern op c) host
      j.done (moveBytesOf op c / 1024 + 8) = (.done, s2)) :
    ∃ t, exec i s = .next t ∧ CmdEnds s1 t queue.toNat { c with st := .started } 0 ∧ mget t.jobs v.jobUnit = none
      ∧ t.mem = s2.mem ∧ t.events = s.events := by
  have job := jobRun_gives runs
  have kept := s1.moveBytes_accessed v (moveSrc op c) (moveDst op c) (moveBytesOf op c) (movePattern op c)
    (moveBytesOf op c / 1024 + 8) host j.done
  rw [ran] at kept
  obtain ⟨ends, free⟩ := jobEnd_ends job.queue job.cmd open' (t := s2.progress v.progressUnit (moveBytesOf op c / 64))
    (v := v) kept.queues 0
  exact ⟨_, by rw [exec_move which runs, ran]; rfl, ends, free, rfl, kept.events.trans job.events⟩

theorem move_poison {s2 : State} (ran : s1.moveBytes v (moveSrc op c) (moveDst op c) (moveBytesOf op c) (movePattern op c)
      host j.done (moveBytesOf op c / 1024 + 8) = (.poison, s2)) :
    ∃ t, exec i s = .next t ∧ CmdEnds s1 t queue.toNat { c with st := .started } 0x0108 ∧ mget t.jobs v.jobUnit = none := by
  have job := jobRun_gives runs
  have kept := s1.moveBytes_accessed v (moveSrc op c) (moveDst op c) (moveBytesOf op c) (movePattern op c)
    (moveBytesOf op c / 1024 + 8) host j.done
  rw [ran] at kept
  obtain ⟨ends, free⟩ := jobEnd_ends job.queue job.cmd open' (t := s2) (v := v) kept.queues ePoison
  exact ⟨_, by rw [exec_move which runs, ran]; rfl, ends, free⟩

omit open' in
theorem move_fault {s2 : State} {acc : Acc} {f : Nat × Nat × Nat × Nat} {m : Nat}
    (ran : s1.moveBytes v (moveSrc op c) (moveDst op c) (moveBytesOf op c) (movePattern op c) host j.done
      (moveBytesOf op c / 1024 + 8) = (.fault acc f m, s2)) :
    ∃ t id, exec i s = .next t ∧ t.mem = s2.mem ∧ mget t.jobs v.jobUnit = some { j with done := m, fault := some id }
      ∧ t.cmd? queue.toNat c.index = s1.cmd? queue.toNat c.index := by
  have kept := s1.moveBytes_accessed v (moveSrc op c) (moveDst op c) (moveBytesOf op c) (movePattern op c)
    (moveBytesOf op c / 1024 + 8) host j.done
  rw [ran] at kept
  obtain ⟨mem, queues, id, stops⟩ := jobFault_stops s2 v c { j with done := m } acc f
  exact ⟨_, id, by rw [exec_move which runs, ran]; rfl, mem, stops, (State.cmd?_congr queues _ _).trans (kept.cmd? _ _)⟩

/-- A job whose bytes lie in one page of local memory. -/
theorem move_onePage {s2 s3 : State} {pa pol die : Nat} {ro : Bool} {b : List Byte} {ext : Option (List Byte)}
    (wf : Memory.wf s.mem.cells = true) (fresh : j.done = 0) (some_ : 1 ≤ moveBytesOf op c)
    (inside : moveDst op c % 4096 + moveBytesOf op c ≤ 4096) (fill : op = 0x06 → s2 = s1)
    (copy : op = 0x05 → s1.readVaX v.agent v.asid (getLe c.payload 0 8) (moveBytesOf op c) true host = (.ok ((b, false), ext), s2)
      ∧ getLe c.payload 0 8 % 4096 + moveBytesOf op c ≤ 4096
      ∧ rangesMeet (getLe c.payload 0 8) (moveBytesOf op c) (moveDst op c) (moveBytesOf op c) = false)
    (at_ : s2.translate v.agent v.asid (moveDst op c) accWrite = (.ok 0 pa pol ro die, s3))
    (fits : pa + moveBytesOf op c ≤ s.mem.capacity) :
    ∃ t, exec i s = .next t ∧ CmdEnds s1 t queue.toNat { c with st := .started } 0
      ∧ (∀ a, ¬ (pa ≤ a ∧ a < pa + moveBytesOf op c) → memGet t.mem.cells a = memGet s.mem.cells a)
      ∧ (op = 0x06 → ∀ k, k < moveBytesOf op c →
          memGet t.mem.cells (pa + k) = BitVec.ofNat 8 (movePattern op c / 256 ^ ((moveDst op c + k) % 8)))
      ∧ (op = 0x05 → ∀ k, k < moveBytesOf op c → memGet t.mem.cells (pa + k) = b.getD k 0)
      ∧ (∀ ps pol ro die s', op = 0x05 → s1.translate v.agent v.asid (getLe c.payload 0 8) accRead = (.ok 0 ps pol ro die, s') →
          ps + moveBytesOf op c ≤ s.mem.capacity →
          ∀ k, k < moveBytesOf op c → memGet t.mem.cells (pa + k) = memGet s.mem.cells (ps + k)) := by
  have job := jobRun_gives runs
  -- the bytes written, whichever job it is
  obtain ⟨l, long, isFill, isCopy, cells, capacity, ran⟩ : ∃ l : List Byte, l.length = moveBytesOf op c
      ∧ (op = 0x06 → l = fillBytes (movePattern op c) (moveDst op c) (moveBytesOf op c)) ∧ (op = 0x05 → l = b)
      ∧ s2.mem.cells = s.mem.cells ∧ s2.mem.capacity = s.mem.capacity
      ∧ s1.moveBytes v (moveSrc op c) (moveDst op c) (moveBytesOf op c) (movePattern op c) host j.done
          (moveBytesOf op c / 1024 + 8) = (.done, (s2.writeVa v.agent v.asid (moveDst op c) l true).2) := by
    have which' := which
    simp only [List.mem_cons, Prod.mk.injEq, List.not_mem_nil, or_false] at which'
    rcases which' with ⟨_, rfl⟩ | ⟨_, rfl⟩
    · obtain ⟨read, insideSrc, apart⟩ := copy rfl
      have long := State.readVaX_length some_ insideSrc read
      have kept := s1.readVaX_accessed v.agent v.asid (getLe c.payload 0 8) (moveBytesOf 0x05 c) true host
      have cells := s1.readVaX_cells v.agent v.asid (getLe c.payload 0 8) (moveBytesOf 0x05 c) true host
      rw [read] at kept cells
      refine ⟨b, long, nofun, fun _ => rfl, cells.trans (by rw [job.mem]), kept.capacity.trans (by rw [job.mem]), ?_⟩
      rw [fresh]
      refine State.moveBytes_copy (fuel := moveBytesOf 0x05 c / 1024 + 6) some_ inside insideSrc apart read ?_
      rw [State.writeVa_onePage true (by omega) (by omega) at_]
    · have long : (fillBytes (movePattern 0x06 c) (moveDst 0x06 c) (moveBytesOf 0x06 c)).length = moveBytesOf 0x06 c := by
        simp [fillBytes]
      have same := fill rfl
      subst same
      refine ⟨_, long, fun _ => rfl, nofun, by rw [job.mem], by rw [job.mem], ?_⟩
      rw [fresh]
      refine State.moveBytes_fill (fuel := moveBytesOf 0x06 c / 1024 + 6) some_ inside ?_
      rw [State.writeVa_onePage true (by omega) (by omega) at_]
  obtain ⟨t, run, ends, _, mem, _⟩ := move_done which runs open' ran
  have bytes : ∀ a, memGet t.mem.cells a
      = if pa ≤ a ∧ a < pa + moveBytesOf op c then l.getD (a - pa) 0 else memGet s.mem.cells a := fun a => by
    have put := State.writeVa_onePage_bytes (stream := true) (by rw [cells]; exact wf) (by omega) (by omega)
      (by rw [capacity]; omega) at_ (Prod.mk.eta (p := s2.writeVa v.agent v.asid (moveDst op c) l true)).symm a
    rw [mem, put, long, cells]
  have put : ∀ k, k < moveBytesOf op c → memGet t.mem.cells (pa + k) = l.getD k 0 := fun k hk => by
    rw [bytes, if_pos (by omega), Nat.add_sub_cancel_left]
  refine ⟨t, run, ends, fun a out => by rw [bytes, if_neg out], fun isOp k hk => ?_, fun isOp k hk => ?_,
    fun ps pol' ro' die' s' isOp from_ fits' k hk => ?_⟩
  · rw [put k hk, isFill isOp]
    simp [fillBytes, hk]
  · rw [put k hk, isCopy isOp]
  · obtain ⟨read, insideSrc, _⟩ := copy isOp
    have source := State.readVaX_onePage some_ insideSrc from_ (by rw [job.mem]; exact fits') read
    rw [put k hk, isCopy isOp, source, getD_memRead _ _ hk, job.mem]

end

end Sys2Proof.Machine

/-! ## What a decoded stream gives (R451, R452) -/

namespace Sys2Proof.Machine

set_option Elab.async false

/-- The output counted is the output given, and it fits. -/
def Inf.Fits (limit : Nat) (s : Inf) : Prop := s.out.length = s.n ∧ s.n ≤ limit

/-- An error of the decoder has a code, and progress keeps within the limit. -/
structure InfR.Sound {α : Type} (limit : Nat) (r : InfR α) : Prop where
  code : ∀ e, r = .error e → e.1 ≠ 0
  fits : ∀ a s, r = .ok (a, s) → s.Fits limit

section

variable {α β : Type} {limit : Nat} {s : Inf}

theorem InfR.Sound.ok (h : s.Fits limit) (a : α) : InfR.Sound limit (.ok (a, s)) :=
  ⟨fun _ e => (nomatch e), fun _ _ e => by cases e; exact h⟩
theorem InfR.Sound.fail {e : Nat} (h : e ≠ 0) (s : Inf) : InfR.Sound limit (.error (e, s) : InfR α) :=
  ⟨fun _ e => by cases e; exact h, fun _ _ e => (nomatch e)⟩
theorem InfR.Sound.error {r : InfR α} (h : r.Sound limit) {e : Nat × Inf} (he : r = .error e) :
    InfR.Sound limit (.error e : InfR β) :=
  .fail (h.code e he) e.2

/-- Taking bits leaves the output alone. -/
theorem Inf.Fits.src (h : s.Fits limit) (l : List Bool) : ({ s with src := l } : Inf).Fits limit := h

theorem Inf.take_sound (h : s.Fits limit) (n : Nat) : (s.take n).Sound limit := by
  unfold Inf.take
  split
  · exact .fail (by decide) _
  · exact .ok (h.src _) _

theorem Inf.symbol_sound (lens : List Nat) (fuel : Nat) : ∀ (s : Inf) (len code first : Nat), s.Fits limit →
    (s.symbol lens len code first fuel).Sound limit := by
  induction fuel with
  | zero => exact fun _ _ _ _ _ => .fail (by decide) _
  | succ fuel ih =>
    intro s len code first h
    unfold Inf.symbol
    split
    · exact .fail (by decide) _
    · dsimp only
      split
      · split
        · exact .ok (h.src _) _
        · exact .fail (by decide) _
      · exact ih _ _ _ _ (h.src _)

theorem Inf.sym_sound (h : s.Fits limit) (lens : List Nat) : (s.sym lens).Sound limit := Inf.symbol_sound lens 15 s 1 0 0 h

theorem Inf.put_sound (h : s.Fits limit) (b : Byte) : (s.put limit b).Sound limit := by
  obtain ⟨length, _⟩ := h
  unfold Inf.put
  split
  · exact .fail (by decide) _
  next free => exact .ok ⟨by rw [List.length_cons, length], Nat.not_le.1 free⟩ _

theorem Inf.copy_sound (dict : List Byte) (d n : Nat) : ∀ s : Inf, s.Fits limit → (s.copy dict limit d n).Sound limit := by
  induction n with
  | zero => exact fun _ h => .ok h _
  | succ n ih =>
    intro s h
    have put := Inf.put_sound h (s.back dict d)
    unfold Inf.copy
    split
    next e => exact put.error e
    next e => exact ih _ (put.fits _ _ e)

theorem Inf.symbols_sound (lit dist : List Nat) (dict : List Byte) (fuel : Nat) : ∀ s : Inf, s.Fits limit →
    (s.symbols lit dist dict limit fuel).Sound limit := by
  induction fuel with
  | zero =>
    intro s _
    exact InfR.Sound.fail (e := eCmpTruncated) (by decide) s
  | succ fuel ih =>
    intro s h
    have symbol := Inf.sym_sound h lit
    conv => arg 2; whnf
    split
    next e => exact symbol.error e
    next x t e =>
      have ht := symbol.fits _ _ e
      split
      · have put := Inf.put_sound ht (BitVec.ofNat 8 x)
        split
        next e => exact put.error e
        next e => exact ih _ (put.fits _ _ e)
      · split
        · exact .ok ht _
        · split
          · exact .fail (by decide) _
          · have extra := Inf.take_sound ht (lenExtra.getD (x - 257) 0)
            split
            next e => exact extra.error e
            next le u e =>
              have hu := extra.fits _ _ e
              have back := Inf.sym_sound hu dist
              split
              next e => exact back.error e
              next d w e =>
                have hw := back.fits _ _ e
                split
                · exact .fail (by decide) _
                · have far := Inf.take_sound hw (distExtra d)
                  split
                  next e => exact far.error e
                  next de y e =>
                    have hy := far.fits _ _ e
                    dsimp only
                    split
                    · exact .fail (by decide) _
                    · have copied := Inf.copy_sound dict (distBase.getD d 1 + de) (lenBase.getD (x - 257) 3 + le) y hy
                      split
                      next e => exact copied.error e
                      next e => exact ih _ (copied.fits _ _ e)

theorem Inf.lengths_sound (cl : List Nat) (n fuel : Nat) : ∀ (s : Inf) (acc : List Nat), s.Fits limit →
    (s.lengths cl n acc fuel).Sound limit := by
  induction fuel with
  | zero => exact fun _ _ _ => .fail (by decide) _
  | succ fuel ih =>
    intro s acc h
    have symbol := Inf.sym_sound h cl
    unfold Inf.lengths
    split
    · split
      · exact .ok h _
      · exact .fail (by decide) _
    · split
      next e => exact symbol.error e
      next x t e =>
        have ht := symbol.fits _ _ e
        split
        · exact ih _ _ ht
        · split
          next eb base v _ =>
            have repeated := Inf.take_sound ht eb
            split
            · exact .fail (by decide) _
            next e _ => exact repeated.error e
            next e _ => exact ih _ _ (repeated.fits _ _ e)

theorem Inf.dynamic_sound (h : s.Fits limit) (dict : List Byte) : (s.dynamic dict limit).Sound limit := by
  have head := Inf.take_sound h 14
  unfold Inf.dynamic
  split
  next e => exact head.error e
  next w t e =>
    have ht := head.fits _ _ e
    have codes := Inf.take_sound ht (3 * (bits w 13 10 + 4))
    dsimp only
    split
    next e => exact codes.error e
    next c u e =>
      have hu := codes.fits _ _ e
      split
      · exact .fail (by decide) _
      · split
        next e => exact (Inf.lengths_sound _ _ _ _ _ hu).error e
        next e =>
          have hl := (Inf.lengths_sound _ _ _ _ _ hu).fits _ _ e
          split
          · exact .fail (by decide) _
          · exact Inf.symbols_sound _ _ _ _ _ hl

theorem Inf.raw_sound (n : Nat) : ∀ s : Inf, s.Fits limit → (s.raw limit n).Sound limit := by
  induction n with
  | zero => exact fun _ h => .ok h _
  | succ n ih =>
    intro s h
    have byte := Inf.take_sound h 8
    unfold Inf.raw
    split
    next e => exact byte.error e
    next b t e =>
      have put := Inf.put_sound (byte.fits _ _ e) (BitVec.ofNat 8 b)
      split
      next e => exact put.error e
      next e => exact ih _ (put.fits _ _ e)

theorem Inf.storedBlock_sound (h : s.Fits limit) : (s.storedBlock limit).Sound limit := by
  have head := Inf.take_sound (s := s.align) (h.src _) 32
  unfold Inf.storedBlock
  split
  next e => exact head.error e
  next e =>
    split
    · exact .fail (by decide) _
    · exact Inf.raw_sound _ _ (head.fits _ _ e)

theorem Inf.run_sound (dict : List Byte) (fuel : Nat) : ∀ s : Inf, s.Fits limit → (s.run dict limit fuel).Sound limit := by
  induction fuel with
  | zero => exact fun _ _ => .fail (by decide) _
  | succ fuel ih =>
    intro s h
    have head := Inf.take_sound h 3
    unfold Inf.run
    split
    next e => exact head.error e
    next w t e =>
      have taken := head.fits _ _ e
      have ht : Inf.Fits limit { t with blocks := t.blocks + 1, stored := t.stored + b2n (w / 2 = 0) } := taken
      have block : InfR.Sound limit (match w / 2 with
          | 0 => Inf.storedBlock { t with blocks := t.blocks + 1, stored := t.stored + b2n (w / 2 = 0) } limit
          | 1 => Inf.symbols { t with blocks := t.blocks + 1, stored := t.stored + b2n (w / 2 = 0) } staticLit staticDist dict
              limit (t.src.length + 1)
          | 2 => Inf.dynamic { t with blocks := t.blocks + 1, stored := t.stored + b2n (w / 2 = 0) } dict limit
          | _ => .error (eCmpFormat, { t with blocks := t.blocks + 1, stored := t.stored + b2n (w / 2 = 0) })) := by
        split
        · exact Inf.storedBlock_sound ht
        · exact Inf.symbols_sound _ _ _ _ _ ht
        · exact Inf.dynamic_sound ht dict
        · exact .fail (by decide) _
      dsimp only
      split
      next e => exact block.error e
      next e =>
        have hb := block.fits _ _ e
        split
        · exact .ok hb _
        · exact ih _ hb

theorem Inf.skipString_sound (fuel : Nat) : ∀ s : Inf, s.Fits limit → (s.skipString fuel).Sound limit := by
  induction fuel with
  | zero => exact fun _ _ => .fail (by decide) _
  | succ fuel ih =>
    intro s h
    have byte := Inf.take_sound h 8
    unfold Inf.skipString
    split
    next e => exact byte.error e
    next e =>
      have ht := byte.fits _ _ e
      split
      · exact .ok ht _
      · exact ih _ ht

/-- An optional field. -/
theorem InfR.Sound.ite {p : Prop} [Decidable p] {a b : InfR α} (ha : a.Sound limit) (hb : b.Sound limit) :
    (if p then a else b).Sound limit := by
  split <;> assumption

theorem Inf.gzipHeader_sound (h : s.Fits limit) (all : List Byte) : (s.gzipHeader all).Sound limit := by
  have head := Inf.take_sound h 80
  unfold Inf.gzipHeader
  split
  next e => exact head.error e
  next w t e =>
    have ht := head.fits _ _ e
    dsimp only
    split
    · exact .fail (by decide) _
    · have extra : InfR.Sound limit (if !bit (bits w 31 24) 2 then .ok ((), t) else match t.take 16 with
          | .error e => .error e
          | .ok (n, s) => match s.take (8 * n) with
            | .error e => .error e
            | .ok (_, s) => .ok ((), s)) := by
        refine .ite (.ok ht _) ?_
        have size := Inf.take_sound ht 16
        split
        next e => exact size.error e
        next n u e =>
          have field := Inf.take_sound (size.fits _ _ e) (8 * n)
          split
          next e => exact field.error e
          next e => exact .ok (field.fits _ _ e) _
      split
      next e => exact extra.error e
      next u e =>
        have hu := extra.fits _ _ e
        have name : InfR.Sound limit (if bit (bits w 31 24) 3 then u.skipString (u.src.length + 1) else .ok ((), u)) :=
          .ite (Inf.skipString_sound _ _ hu) (.ok hu _)
        split
        next e => exact name.error e
        next y e =>
          have hy := name.fits _ _ e
          have comment : InfR.Sound limit (if bit (bits w 31 24) 4 then y.skipString (y.src.length + 1) else .ok ((), y)) :=
            .ite (Inf.skipString_sound _ _ hy) (.ok hy _)
          split
          next e => exact comment.error e
          next z e =>
            have hz := comment.fits _ _ e
            have check := Inf.take_sound hz 16
            split
            · exact .ok hz _
            · split
              next e => exact check.error e
              next e => exact .ite (.ok (check.fits _ _ e) _) (.fail (by decide) _)

end

/-- A decoder's error has a code, and a decoded stream fits. -/
structure InflateSound (limit : Nat) (r : Except (Nat × Inf) Inflated) : Prop where
  code : ∀ e, r = .error e → e.1 ≠ 0
  fits : ∀ y, r = .ok y → y.inf.Fits limit

section

variable {limit : Nat}

theorem InflateSound.ok {y : Inflated} (h : y.inf.Fits limit) : InflateSound limit (.ok y) :=
  ⟨fun _ e => (nomatch e), fun _ e => by cases e; exact h⟩
theorem InflateSound.fail {e : Nat} (h : e ≠ 0) (s : Inf) : InflateSound limit (.error (e, s)) :=
  ⟨fun _ e => by cases e; exact h, fun _ e => (nomatch e)⟩
theorem InfR.Sound.inflate {α : Type} {r : InfR α} (h : r.Sound limit) {e : Nat × Inf} (he : r = .error e) :
    InflateSound limit (.error e) :=
  .fail (h.code e he) e.2
theorem InflateSound.ite {p : Prop} [Decidable p] {a b : Except (Nat × Inf) Inflated} (ha : InflateSound limit a)
    (hb : InflateSound limit b) : InflateSound limit (if p then a else b) := by
  split <;> assumption

theorem inflate_sound (framing : Nat) (dict input : List Byte) (limit : Nat) :
    InflateSound limit (inflate framing dict input limit) := by
  have start : Inf.Fits limit { src := bytesToBits input, out := [], n := 0, blocks := 0, stored := 0 } := ⟨rfl, Nat.zero_le _⟩
  unfold inflate
  dsimp only
  split
  · have body := Inf.run_sound dict.reverse (8 * input.length + 1) _ start
    split
    next e => exact body.inflate e
    next e => exact .ok ((body.fits _ _ e).src _)
  · have head := Inf.take_sound start 16
    split
    next e => exact head.inflate e
    next w t e =>
      have ht := head.fits _ _ e
      split
      · exact .fail (by decide) _
      · have named : InfR.Sound limit (if !bit (w / 256) 5 then .ok (false, t) else match t.take 32 with
            | .error e => .error e
            | .ok (id, s) => if dict.isEmpty || beNat 4 id ≠ adler32 dict then .error (eCmpDictionary, s) else .ok (true, s)) := by
          refine .ite (.ok ht _) ?_
          have id := Inf.take_sound ht 32
          split
          next e => exact id.error e
          next e => exact .ite (.fail (by decide) _) (.ok (id.fits _ _ e) _)
        split
        next e => exact named.inflate e
        next used u e =>
          have body := Inf.run_sound (if used then dict.reverse else []) (8 * input.length + 1) _ (named.fits _ _ e)
          split
          next e => exact body.inflate e
          next y e =>
            have hy := body.fits _ _ e
            have check := Inf.take_sound (s := y.align) (hy.src _) 32
            split
            next e => exact check.inflate e
            next e => exact .ite (.ok (check.fits _ _ e)) (.fail (by decide) _)
  · have head := Inf.gzipHeader_sound start input
    split
    next e => exact head.inflate e
    next e =>
      have body := Inf.run_sound [] (8 * input.length + 1) _ (head.fits _ _ e)
      split
      next e => exact body.inflate e
      next y e =>
        have hy := body.fits _ _ e
        have check := Inf.take_sound (s := y.align) (hy.src _) 64
        split
        next e => exact check.inflate e
        next e => exact .ite (.ok (check.fits _ _ e)) (.fail (by decide) _)

end

end Sys2Proof.Machine

/-! ## Jobs of the compression engines (R194, R226, R443, R444, R446, R448, R451, R453, R454) -/

namespace Sys2Proof.Machine

set_option Elab.async false

/-! ### The end of a job -/

/-- What a job counts when it ends, and its end. -/
def State.cmpDone (s : State) (v : Queue) (j : Job) (r : CmpResult) : State :=
  (((s.bump blkCMP v.unit 0 r.used).bump blkCMP v.unit 1 (if r.status = 0 then r.out.length else 0)).progress v.progressUnit
    (r.used / 64)).jobEnd v j r.status

section

variable {s1 : State} {q : Nat} {v : Queue} {c : Cmd} {j : Job}

/-- A compression job's command has ended with an error, 0 for none, and its unit is free. -/
def CmpEnds (s1 t : State) (q : Nat) (v : Queue) (c : Cmd) (err : Nat) : Prop :=
  CmdEnds s1 t q { c with st := .started } err ∧ mget t.jobs v.jobUnit = none

variable (queue : j.queue = q) (cmd : j.cmd = c.index) (open' : s1.cmd? q c.index = some { c with st := .started })

include queue cmd open'

theorem cmpDone_ends {s : State} (kept : Accessed s1 s) (r : CmpResult) :
    CmpEnds s1 (s.cmpDone v j r) q v c r.status ∧ (s.cmpDone v j r).mem = s.mem := by
  have counted := (s.bump_accessed blkCMP v.unit 0 r.used).trans
    (State.bump_accessed _ blkCMP v.unit 1 (if r.status = 0 then r.out.length else 0))
  refine ⟨jobEnd_ends (t := State.progress _ v.progressUnit (r.used / 64)) queue cmd open' (kept.trans counted).queues r.status,
    ?_⟩
  show (((s.bump blkCMP v.unit 0 r.used).bump blkCMP v.unit 1 _).mem) = _
  rw [State.bump_mem, State.bump_mem]

/-- A job that failed, with no record to write. -/
theorem cmpFinish_fails {s : State} (kept : Accessed s1 s) {x : CmpJob} {r : CmpResult} (failed : r.status ≠ 0)
    (silent : x.result = 0) : CmpEnds s1 (s.cmpFinish v c j x r) q v c r.status := by
  have run : s.cmpFinish v c j x r = ((s.scramble v.agent v.asid x.dst x.dstBytes).drew 32).cmpDone v j r := by
    unfold State.cmpFinish
    simp only [failed, decide_false, Bool.false_and, Bool.false_eq_true, if_false, silent, if_true]
    simp only [State.cmpDone, failed, if_false]
  rw [run]
  exact (cmpDone_ends queue cmd open' ((kept.trans (s.scramble_accessed _ _ _ _)).trans (State.drew_accessed _ _)) r).1

/-- A job whose output was written, and whose record was written where it has one. -/
theorem cmpFinish_done {s s4 : State} (kept : Accessed s1 s) {x : CmpJob} {r : CmpResult} (well : r.status = 0)
    (apart : x.overlap = false) (written : s.writeVa v.agent v.asid x.dst r.out true = (.ok (), s4)) :
    (x.result = 0 → CmpEnds s1 (s.cmpFinish v c j x r) q v c 0 ∧ (s.cmpFinish v c j x r).mem = s4.mem)
    ∧ (x.result ≠ 0 → ∀ s5, (s4.drew 32).writeVa v.agent v.asid x.result r.bytes true = (.ok (), s5) →
        CmpEnds s1 (s.cmpFinish v c j x r) q v c 0 ∧ (s.cmpFinish v c j x r).mem = s5.mem) := by
  have kept4 := kept.trans (s.writeVa_accessed v.agent v.asid x.dst r.out true)
  rw [written] at kept4
  have kept' := kept4.trans (s4.drew_accessed 32)
  refine ⟨fun silent => ?_, fun recorded s5 record => ?_⟩
  · have run : s.cmpFinish v c j x r = (s4.drew 32).cmpDone v j r := by
      unfold State.cmpFinish
      simp only [well, decide_true, apart, Bool.not_false, Bool.and_self, if_true, written, silent]
      simp only [State.cmpDone, well, if_true]
    obtain ⟨ends, mem⟩ := cmpDone_ends queue cmd open' kept' r (v := v)
    rw [run]
    exact ⟨well ▸ ends, mem⟩
  · have kept5 := kept'.trans (State.writeVa_accessed _ v.agent v.asid x.result r.bytes true)
    rw [record] at kept5
    have run : s.cmpFinish v c j x r = s5.cmpDone v j r := by
      unfold State.cmpFinish
      simp only [well, decide_true, apart, Bool.not_false, Bool.and_self, if_true, written, recorded, if_false,
        Bool.false_eq_true, record]
      simp only [State.cmpDone, well, if_true]
    obtain ⟨ends, mem⟩ := cmpDone_ends queue cmd open' kept5 r (v := v)
    rw [run]
    exact ⟨well ▸ ends, mem⟩

end

/-! ### The body of a job -/

/-- The work of COMPRESS once its dictionary is read. -/
def compressBody (s : State) (v : Queue) (x : CmpJob) (dict : List Byte) (ext : Option (List Byte)) :
    Except (Nat × Nat × Nat × Nat) CmpResult × State :=
  match s.cmpRead v x.src x.srcBytes ext with
  | (.error f, s) => (.error f, s)
  | (.ok (input, bad, _), s) =>
    if bad then (.ok (CmpResult.failed ePoison (s.peek 0 % (x.srcBytes + 1))), s.drew 1)
    else
      let (out, d) := compressAll x.framing x.level dict input
      let full := x.dstBytes < out.length
      (.ok { out := out, status := if full then eCmpFull else 0, dictUsed := !dict.isEmpty
             check := frameCheck x.framing input, used := if full then s.peek 0 % (x.srcBytes + 1) else x.srcBytes
             blocks := d.blocks, stored := d.stored }, s.drew 1)

theorem exec_compress (queue : Half) (host : Option (List Byte)) (s : State) :
    exec (.compress queue host) s = s.runCmp queue.toNat 0x20 host compressBody := rfl
theorem exec_decompress (queue : Half) (host : Option (List Byte)) (s : State) : exec (.decompress queue host) s
    = s.runCmp queue.toNat 0x21 host (fun s v x dict ext => s.inflateFrom v x dict [] ext (x.srcBytes / 64 + 3)) := rfl

theorem State.inflateFrom_accessed (v : Queue) (x : CmpJob) (dict : List Byte) (fuel : Nat) :
    ∀ (s : State) (got : List Byte) (ext : Option (List Byte)), Accessed s (s.inflateFrom v x dict got ext fuel).2 := by
  induction fuel with
  | zero => exact fun s _ _ => .refl s
  | succ fuel ih =>
    intro s got ext
    unfold State.inflateFrom
    split
    · exact .refl s
    · dsimp only
      split
      · exact .refl s
      · have read := s.cmpRead_accessed v (x.src + got.length)
          (min (64 - (x.src + got.length) % 64) (x.srcBytes - got.length)) ext
        split
        next e => rw [e] at read; exact read
        next e =>
          rw [e] at read
          split
          · exact read
          · exact read.trans (ih _ _ _)

/-- A read for a job inside one page gives as many bytes as it asks for. -/
theorem State.cmpRead_length {s t : State} {v : Queue} {va n : Nat} {ext ext' : Option (List Byte)} {b : List Byte} {bad : Bool}
    (some_ : 1 ≤ n) (inside : va % 4096 + n ≤ 4096) (read : s.cmpRead v va n ext = (.ok (b, bad, ext'), t)) : b.length = n := by
  unfold State.cmpRead at read
  split at read
  · cases read
  next e =>
    cases read
    exact State.readVaX_length some_ inside e

/-- What DECOMPRESS answers without an error is the decoded stream of some of the input, and it fits. -/
theorem State.inflateFrom_gives (v : Queue) (x : CmpJob) (dict : List Byte) (fuel : Nat) :
    ∀ {s t : State} {got : List Byte} {ext : Option (List Byte)} {r : CmpResult}, got.length ≤ x.srcBytes →
      s.inflateFrom v x dict got ext fuel = (.ok r, t) → r.status = 0 → r.out.length ≤ x.dstBytes
        ∧ ∃ b y, inflate x.framing dict b x.dstBytes = .ok y ∧ b.length ≤ x.srcBytes ∧ r.out = y.inf.out.reverse := by
  induction fuel with
  | zero =>
    intro s t got ext r _ run well
    cases run
    exact absurd (show eCmpTruncated = 0 from well) (by decide)
  | succ fuel ih =>
    intro s t got ext r short run well
    have sound := inflate_sound x.framing dict got x.dstBytes
    unfold State.inflateFrom at run
    split at run
    next y decoded =>
      cases run
      obtain ⟨length, fits⟩ := sound.fits _ decoded
      exact ⟨by rw [List.length_reverse, length]; exact fits, got, y, decoded, short, rfl⟩
    next e i failed =>
      dsimp only at run
      split at run
      · cases run
        exact absurd well (sound.code _ failed)
      next more =>
        simp only [Bool.or_eq_true, decide_eq_true_eq, not_or, Nat.not_le] at more
        obtain ⟨_, left⟩ := more
        split at run
        · cases run
        next b bad ext' u read =>
          have long := State.cmpRead_length (by omega) (by omega) read
          split at run
          · cases run
            exact absurd (show ePoison = 0 from well) (by decide)
          · refine ih ?_ run well
            rw [List.length_append, long]
            omega

/-! ### A job -/

section

variable {i : Instr} {op : Nat} {queue : Half} {host : Option (List Byte)} {s s1 : State} {v : Queue} {c : Cmd} {j : Job}

theorem runCmp_eq (body : State → Queue → CmpJob → List Byte → Option (List Byte) →
      Except (Nat × Nat × Nat × Nat) CmpResult × State) (runs : s.jobRun queue.toNat op = some (v, c, j, s1)) :
    s.runCmp queue.toNat op host body = match s1.cmpRead v (cmpJob c.payload).dict (cmpJob c.payload).dictBytes host with
      | (.error f, s) => .next (s.jobFault v c j accRead f)
      | (.ok (dict, bad, ext), s) =>
        if bad then .next (s.cmpFinish v c j (cmpJob c.payload) (CmpResult.failed ePoison 0))
        else match body s v (cmpJob c.payload) dict ext with
          | (.error f, s) => .next (s.jobFault v c j accRead f)
          | (.ok r, s) => .next (s.cmpFinish v c j (cmpJob c.payload) r) := by
  unfold State.runCmp
  rw [runs] <;> rfl

/-- The body of COMPRESS or DECOMPRESS. -/
def cmpBody (op : Nat) : State → Queue → CmpJob → List Byte → Option (List Byte) →
    Except (Nat × Nat × Nat × Nat) CmpResult × State :=
  if op = 0x20 then compressBody else fun s v x dict ext => s.inflateFrom v x dict [] ext (x.srcBytes / 64 + 3)

theorem exec_cmp (which : (i, op) ∈ [(Instr.compress queue host, 0x20), (.decompress queue host, 0x21)]) (s : State) :
    exec i s = s.runCmp queue.toNat op host (cmpBody op) := by
  simp only [List.mem_cons, Prod.mk.injEq, List.not_mem_nil, or_false] at which
  rcases which with ⟨rfl, rfl⟩ | ⟨rfl, rfl⟩
  · exact exec_compress queue host s
  · exact exec_decompress queue host s

/-- A job that stopped at a page keeps its place, and its command is as it was. -/
def CmpStops (s1 t : State) (q : Nat) (v : Queue) (c : Cmd) (j : Job) : Prop :=
  (∃ id, mget t.jobs v.jobUnit = some { j with fault := some id }) ∧ t.cmd? q c.index = s1.cmd? q c.index

theorem cmp_stops {u : State} (kept : Accessed s1 u) (q : Nat) (v : Queue) (c : Cmd) (j : Job) (f : Nat × Nat × Nat × Nat) :
    CmpStops s1 (u.jobFault v c j accRead f) q v c j ∧ (u.jobFault v c j accRead f).mem = u.mem := by
  obtain ⟨mem, queues, stops⟩ := jobFault_stops u v c j accRead f
  exact ⟨⟨stops, (State.cmd?_congr queues _ _).trans (kept.cmd? _ _)⟩, mem⟩

variable (which : (i, op) ∈ [(Instr.compress queue host, 0x20), (.decompress queue host, 0x21)])
  (runs : s.jobRun queue.toNat op = some (v, c, j, s1))
  (open' : s1.cmd? queue.toNat c.index = some { c with st := .started })

include which runs

/-- A page of the dictionary faults. -/
theorem cmp_dictFault {f : Nat × Nat × Nat × Nat} {s2 : State}
    (read : s1.cmpRead v (cmpJob c.payload).dict (cmpJob c.payload).dictBytes host = (.error f, s2)) :
    ∃ t, exec i s = .next t ∧ CmpStops s1 t queue.toNat v c j ∧ t.mem = s2.mem := by
  have kept := s1.cmpRead_accessed v (cmpJob c.payload).dict (cmpJob c.payload).dictBytes host
  rw [read] at kept
  obtain ⟨stops, mem⟩ := cmp_stops kept queue.toNat v c j f
  exact ⟨_, by rw [exec_cmp which, runCmp_eq _ runs, read], stops, mem⟩

/-- What the body does once the dictionary is read. -/
theorem cmp_body {d : List Byte} {ext : Option (List Byte)} {s2 : State}
    (read : s1.cmpRead v (cmpJob c.payload).dict (cmpJob c.payload).dictBytes host = (.ok (d, false, ext), s2)) :
    Accessed s1 s2 ∧ exec i s = match cmpBody op s2 v (cmpJob c.payload) d ext with
      | (.error f, s) => .next (s.jobFault v c j accRead f)
      | (.ok r, s) => .next (s.cmpFinish v c j (cmpJob c.payload) r) := by
  have kept := s1.cmpRead_accessed v (cmpJob c.payload).dict (cmpJob c.payload).dictBytes host
  rw [read] at kept
  refine ⟨kept, ?_⟩
  rw [exec_cmp which, runCmp_eq _ runs, read]
  rfl

include open'

theorem cmp_dictPoison {d : List Byte} {ext : Option (List Byte)} {s2 : State}
    (read : s1.cmpRead v (cmpJob c.payload).dict (cmpJob c.payload).dictBytes host = (.ok (d, true, ext), s2))
    (silent : (cmpJob c.payload).result = 0) : ∃ t, exec i s = .next t ∧ CmpEnds s1 t queue.toNat v c 0x0108 := by
  have job := jobRun_gives runs
  have kept := s1.cmpRead_accessed v (cmpJob c.payload).dict (cmpJob c.payload).dictBytes host
  rw [read] at kept
  exact ⟨_, by rw [exec_cmp which, runCmp_eq _ runs, read]; rfl,
    cmpFinish_fails job.queue job.cmd open' kept (r := CmpResult.failed ePoison 0) (by decide) silent⟩

end

section

variable {i : Instr} {op : Nat} {queue : Half} {host : Option (List Byte)} {s s1 : State} {v : Queue} {c : Cmd} {j : Job}
  {d : List Byte} {ext : Option (List Byte)} {s2 : State}

/-- A body that answers a result, which is then written. -/
theorem cmp_result (which : (i, op) ∈ [(Instr.compress queue host, 0x20), (.decompress queue host, 0x21)])
    (runs : s.jobRun queue.toNat op = some (v, c, j, s1))
    (open' : s1.cmd? queue.toNat c.index = some { c with st := .started })
    (read : s1.cmpRead v (cmpJob c.payload).dict (cmpJob c.payload).dictBytes host = (.ok (d, false, ext), s2))
    {r : CmpResult} {s3 : State} (ran : cmpBody op s2 v (cmpJob c.payload) d ext = (.ok r, s3)) (kept : Accessed s2 s3) :
    (r.status ≠ 0 → (cmpJob c.payload).result = 0 → ∃ t, exec i s = .next t ∧ CmpEnds s1 t queue.toNat v c r.status)
    ∧ (r.status = 0 → (cmpJob c.payload).overlap = false → ∀ s4,
        s3.writeVa v.agent v.asid (cmpJob c.payload).dst r.out true = (.ok (), s4) →
        ((cmpJob c.payload).result = 0 → ∃ t, exec i s = .next t ∧ CmpEnds s1 t queue.toNat v c 0 ∧ t.mem = s4.mem)
        ∧ ((cmpJob c.payload).result ≠ 0 → ∀ s5,
            (s4.drew 32).writeVa v.agent v.asid (cmpJob c.payload).result r.bytes true = (.ok (), s5) →
            ∃ t, exec i s = .next t ∧ CmpEnds s1 t queue.toNat v c 0 ∧ t.mem = s5.mem)) := by
  have job := jobRun_gives runs
  obtain ⟨begun, run⟩ := cmp_body which runs read
  rw [ran] at run
  have all := begun.trans kept
  refine ⟨fun failed silent => ⟨_, run, cmpFinish_fails job.queue job.cmd open' all failed silent⟩,
    fun well apart s4 written => ?_⟩
  obtain ⟨quiet, recorded⟩ := cmpFinish_done job.queue job.cmd open' all well apart written
  exact ⟨fun silent => ⟨_, run, quiet silent⟩, fun record s5 put => ⟨_, run, recorded record s5 put⟩⟩

theorem cmpRead_kept {t : State} {va n : Nat} {r : Except (Nat × Nat × Nat × Nat) (List Byte × Bool × Option (List Byte))}
    (read : s.cmpRead v va n ext = (r, t)) : Accessed s t := by
  have kept := s.cmpRead_accessed v va n ext
  rw [read] at kept
  exact kept

end

/-- Settles O51. A job that may run is one command: what it does on the way are accesses to memory, which leave queues
and events alone; then its command ends, or the job keeps its place with a fault record. -/
theorem jobsMoveAndCompressBytes : Obligations.JobsMoveAndCompressBytes := by
  unfold Obligations.JobsMoveAndCompressBytes
  refine ⟨fun queue host s => ?idle, fun i op queue host s s1 v c j => ?moves, fun i op queue host s s1 v c j => ?compression⟩
  case idle =>
    refine ⟨fun none => ?_, fun none => ?_, fun none => ?_, fun none => ?_⟩
    · show s.runMove _ _ _ _ _ _ _ = _
      rw [State.runMove, none]
    · show s.runMove _ _ _ _ _ _ _ = _
      rw [State.runMove, none]
    · rw [exec_compress, State.runCmp, none]
    · rw [exec_decompress, State.runCmp, none]
  case moves =>
    intro q which runs open' src dst n pattern run
    exact ⟨fun s2 ran => move_done which runs open' ran, fun s2 ran => move_poison which runs open' ran,
      fun acc f m s2 ran => move_fault which runs ran,
      fun pa pol ro die s2 s3 b ext wf fresh some_ inside fill copy at_ fits =>
        move_onePage which runs open' wf fresh some_ inside fill copy at_ fits⟩
  case compression =>
    intro q which runs open' x dict ends stops
    refine ⟨fun f s2 read => cmp_dictFault which runs read, fun d ext s2 read silent => cmp_dictPoison which runs open' read silent,
      fun d ext s2 read => ⟨?compress, ?decompress⟩⟩
    case compress =>
      rintro rfl
      refine ⟨fun f s3 input => ?_, fun b rest s3 input silent => ?_, fun b rest s3 input => ?_⟩
      · obtain ⟨begun, run⟩ := cmp_body which runs read
        have ran : cmpBody 0x20 s2 v x d ext = (.error f, s3) := by
          show compressBody s2 v x d ext = _
          rw [compressBody, input]
        obtain ⟨stopped, mem⟩ := cmp_stops (begun.trans (cmpRead_kept input)) queue.toNat v c j f
        rw [show cmpBody 0x20 s2 v (cmpJob c.payload) d ext = _ from ran] at run
        exact ⟨_, run, stopped, mem⟩
      · have ran : cmpBody 0x20 s2 v x d ext
            = (.ok (CmpResult.failed ePoison (s3.peek 0 % (x.srcBytes + 1))), s3.drew 1) := by
          show compressBody s2 v x d ext = _
          rw [compressBody, input]
          rfl
        exact (cmp_result which runs open' read ran ((cmpRead_kept input).trans (s3.drew_accessed 1))).1
          (show ePoison ≠ 0 by decide) silent
      · intro out st r
        have ran : ∀ status used, status = (if x.dstBytes < out.length then eCmpFull else 0) →
            used = (if x.dstBytes < out.length then s3.peek 0 % (x.srcBytes + 1) else x.srcBytes) →
            cmpBody 0x20 s2 v x d ext = (.ok { r with status := status, used := used }, s3.drew 1) := by
          rintro _ _ rfl rfl
          show compressBody s2 v x d ext = _
          rw [compressBody, input]
          rfl
        have kept := (cmpRead_kept input).trans (s3.drew_accessed 1)
        refine ⟨fun full silent => ?_, fun fits apart s4 written => ?_⟩
        · have ran' := ran eCmpFull _ (by rw [if_pos full]) rfl
          exact (cmp_result which runs open' read ran' kept).1 (show eCmpFull ≠ 0 by decide) silent
        · have ran' := ran 0 x.srcBytes (by rw [if_neg (Nat.not_lt.2 fits)]) (by rw [if_neg (Nat.not_lt.2 fits)])
          exact (cmp_result which runs open' read ran' kept).2 rfl apart s4 written
    case decompress =>
      rintro rfl r s3 ran
      have kept := s2.inflateFrom_accessed v x d (x.srcBytes / 64 + 3) [] ext
      rw [ran] at kept
      obtain ⟨fails, works⟩ := cmp_result which runs open' read ran kept
      refine ⟨fails, fun well apart => ?_⟩
      obtain ⟨fits, decoded⟩ := State.inflateFrom_gives v x d _ (Nat.zero_le _) ran well
      exact ⟨fits, decoded, works well apart⟩

end Sys2Proof.Machine

/-! ## Doorbells (R252, R306, R365) -/

namespace Sys2Proof.Machine

set_option Elab.async false

/-! ### What a release changes -/

/-- Two states of a queue with the same place in its ring, the same convoy and the same commands in order. -/
structure Queue.Alike (v w : Queue) : Prop where
  tail : w.tail = v.tail
  head : w.head = v.head
  last : w.last = v.last
  convoy : w.convoy = v.convoy
  cmds : w.cmds.map (fun c => c.index) = v.cmds.map (fun c => c.index)

theorem Queue.Alike.refl (v : Queue) : v.Alike v := ⟨rfl, rfl, rfl, rfl, rfl⟩
theorem Queue.Alike.trans {v w x : Queue} (a : v.Alike w) (b : w.Alike x) : v.Alike x :=
  ⟨b.tail.trans a.tail, b.head.trans a.head, b.last.trans a.last, b.convoy.trans a.convoy, b.cmds.trans a.cmds⟩

/-- Two states that differ at most in queues that are alike, convoys, engines and partitions. -/
structure Arranged (s t : State) : Prop where
  rest : ∃ q c e p, t = { s with queues := q, convoys := c, engines := e, parts := p }
  alike : ∀ k v, s.queue? k = some v → ∃ w, t.queue? k = some w ∧ v.Alike w

theorem Arranged.refl (s : State) : Arranged s s :=
  ⟨⟨s.queues, s.convoys, s.engines, s.parts, rfl⟩, fun _ v h => ⟨v, h, .refl v⟩⟩
theorem Arranged.trans {s t u : State} (a : Arranged s t) (b : Arranged t u) : Arranged s u := by
  refine ⟨?_, fun k v h => ?_⟩
  · obtain ⟨_, _, _, _, rfl⟩ := a.rest
    obtain ⟨_, _, _, _, rfl⟩ := b.rest
    exact ⟨_, _, _, _, rfl⟩
  · obtain ⟨w, hw, vw⟩ := a.alike k v h
    obtain ⟨x, hx, wx⟩ := b.alike k w hw
    exact ⟨x, hx, vw.trans wx⟩
theorem Arranged.foldl {α : Type} {f : State → α → State} (h : ∀ s a, Arranged s (f s a)) (l : List α) (s : State) :
    Arranged s (l.foldl f s) :=
  List.foldlRecOn (motive := Arranged s) l f (.refl s) fun t ht a _ => ht.trans (h t a)
/-- Nothing of a queue differs. -/
theorem Arranged.sameQueues {s t : State} (rest : ∃ c e p, t = { s with convoys := c, engines := e, parts := p }) :
    Arranged s t := by
  obtain ⟨c, e, p, rfl⟩ := rest
  exact ⟨⟨s.queues, c, e, p, rfl⟩, fun _ v h => ⟨v, h, .refl v⟩⟩

theorem Arranged.modConvoy (s : State) (k : Nat) (f : Convoy → Convoy) : Arranged s (s.modConvoy k f) :=
  .sameQueues ⟨_, s.engines, s.parts, rfl⟩
theorem Arranged.modPart (s : State) (p : Nat) (f : Partition → Partition) : Arranged s (s.modPart p f) :=
  .sameQueues ⟨s.convoys, s.engines, _, rfl⟩
theorem Arranged.modEng (s : State) (e : Nat) (f : Eng → Eng) : Arranged s (s.modEng e f) :=
  .sameQueues ⟨s.convoys, _, s.parts, rfl⟩

theorem Arranged.modQueue {f : Queue → Queue} (hf : ∀ v : Queue, v.Alike (f v)) (s : State) (q : Nat) :
    Arranged s (s.modQueue q f) := by
  refine ⟨⟨_, s.convoys, s.engines, s.parts, rfl⟩, fun k v h => ?_⟩
  rw [State.queue?_modQueue]
  split
  next same =>
    subst same
    exact ⟨f v, by rw [h]; rfl, hf v⟩
  · exact ⟨v, h, .refl v⟩

theorem Arranged.modCmd {f : Cmd → Cmd} (hf : ∀ c, (f c).index = c.index) (s : State) (q i : Nat) :
    Arranged s (s.modCmd q i f) := by
  show Arranged s (s.modQueue q _)
  refine Arranged.modQueue ?_ s q
  refine fun v => ⟨rfl, rfl, rfl, rfl, ?_⟩
  rw [List.map_map]
  refine List.map_congr_left fun c _ => ?_
  show (if c.index = i then f c else c).index = c.index
  split
  · exact hf c
  · rfl

theorem Arranged.endCmd (s : State) (q i err detail : Nat) : Arranged s (s.endCmd q i err detail) :=
  .modCmd (Cmd.finish_index err detail) s q i

theorem passBatchStart_arranged (s : State) (q : Nat) : Arranged s (s.passBatchStart q) := by
  unfold State.passBatchStart
  split
  · exact .refl s
  · split
    · exact .refl s
    · refine (Arranged.endCmd s q _ 0 0).trans (.modQueue ?_ _ q)
      exact fun _ => ⟨rfl, rfl, rfl, rfl, rfl⟩

theorem sendSwitch_arranged (s : State) (p next : Nat) : Arranged s (s.sendSwitch p next) :=
  (Arranged.foldl (fun t e => .modEng t e _) (s.enginesIn p) s).trans (.modPart _ p _)

theorem reschedule_arranged (s : State) (p : Nat) : Arranged s (s.reschedule p) := by
  unfold State.reschedule
  split
  · exact .refl s
  · split
    · exact .refl s
    · split
      · split
        · exact .refl s
        · exact .modPart s p _
      · split
        · exact .modPart s p _
        · exact sendSwitch_arranged s p _

theorem release_arranged (s : State) (c tR : Nat) : Arranged s (s.release c tR) := by
  unfold State.release
  split
  · exact .refl s
  · refine ((Arranged.modConvoy s c _).trans (.foldl (fun t p => ?_) _ _)).trans (reschedule_arranged _ _)
    split
    · exact passBatchStart_arranged t p.1
    · exact .refl t

theorem tryRelease_arranged (s : State) (c tR : Nat) : Arranged s (s.tryRelease c tR) := by
  unfold State.tryRelease
  split
  · exact .refl s
  · split
    · exact .refl s
    · split
      · exact release_arranged s c tR
      · exact .refl s

/-- A convoy that is not timed has nothing to release. -/
theorem State.tryRelease_untimed (s : State) {c tR : Nat} (h : ∀ x, s.convoy? c = some x → x.timed = none) :
    s.tryRelease c tR = s := by
  unfold State.tryRelease
  split
  · rfl
  next v hv => rw [h v hv]

/-! ### A write to a doorbell -/

theorem HostOpen.hostTouch {s : State} (h : HostOpen s) : s.hostTouch false = s := by
  have awake : s.leaveRest = s := by
    unfold State.leaveRest
    rw [if_neg (by rw [h.run]; decide)]
  show s.leaveRest.cancelHalt = s
  rw [awake]
  unfold State.cancelHalt
  rw [h.steady]
  rfl

/-- A write from the start of one doorbell's stride is for that doorbell. -/
theorem exec_doorbell {s : State} (h : HostOpen s) {q : Half} {data : List Byte} (inside : 64 * q.toNat + data.length ≤ 2 ^ 18)
    (some_ : data ≠ []) : exec (.doorbell (64 * q.toNat) data) s
      = .next (if 4 ≤ data.length then s.ringDoorbell q.toNat (BitVec.ofNat 32 (getLe data 0 4))
          else s.lostWrite true (64 * q.toNat) data) := by
  show execDoorbell _ _ _ = _
  unfold execDoorbell
  rw [h.window, h.awake, h.hostTouch]
  have stride : s.bar2Write (64 * q.toNat) data = s.strideWrite (64 * q.toNat) data q.toNat := by
    unfold State.bar2Write
    rw [if_neg (by simp [some_]; omega), if_pos (by omega), Nat.mul_div_cancel_left _ (by decide)]
  have long : (64 * q.toNat + 4 ≤ 64 * q.toNat + data.length) = (4 ≤ data.length) := by
    rw [Nat.add_le_add_iff_left]
  simp only [Bool.not_true, Bool.false_eq_true, if_false, stride]
  unfold State.strideWrite
  simp only [Nat.max_self, decide_true, Bool.true_and, decide_eq_true_eq, long, Nat.sub_self]
  rw [if_neg (by omega)]

/-- A lost write to a doorbell is counted and announced. -/
theorem lostWrite_bar2 (s : State) (off : Nat) (data : List Byte) :
    (s.lostWrite true off data).host.writeLost = satInc s.host.writeLost
    ∧ (s.lostWrite true off data).host.lastLost = s.host.lastLost ∧ { s.lostWrite true off data with host := s.host } = s := by
  have told : ∀ t : State, Sends { s with host := { s.host with writeLost := satInc s.host.writeLost } } t →
      t.host.writeLost = satInc s.host.writeLost ∧ t.host.lastLost = s.host.lastLost ∧ { t with host := s.host } = s := by
    intro t h
    obtain ⟨_, _, _, _, _, _, rfl⟩ := h
    exact ⟨rfl, rfl, rfl⟩
  unfold State.lostWrite
  dsimp only [if_true]
  split
  · exact told _ (.refl _)
  · exact told _ (State.interrupt_sends _ _ _ _ _ _)

section

variable {s : State} {q : Nat} {v : Queue} (found : s.queue? q = some v) {value : Word}

include found

theorem ringDoorbell_beyond (far : 2 ^ v.sizeLog < (value - v.head).toNat) : s.ringDoorbell q value
    = { s with host := { s.host with doorbellDrop := satInc s.host.doorbellDrop } } := by
  unfold State.ringDoorbell
  rw [found]
  exact if_pos far

theorem ringDoorbell_behind (near : (value - v.head).toNat ≤ 2 ^ v.sizeLog)
    (behind : (value - v.head).toNat < (v.tail - v.head).toNat) : s.ringDoorbell q value = s := by
  unfold State.ringDoorbell
  rw [found]
  dsimp only
  rw [if_neg (by omega), if_pos behind]

/-- The queue with its new tail. -/
theorem ringDoorbell_moves (near : (value - v.head).toNat ≤ 2 ^ v.sizeLog)
    (ahead : (v.tail - v.head).toNat ≤ (value - v.head).toNat) : s.ringDoorbell q value
      = match v.convoy with
        | some c => (s.setQueue q { v with tail := value, rung := v.rung ++ [(value, s.fclk)] }).tryRelease c s.fclk
        | none => s.setQueue q { v with tail := value, rung := v.rung ++ [(value, s.fclk)] } := by
  unfold State.ringDoorbell
  rw [found]
  dsimp only
  rw [if_neg (by omega), if_neg (by omega)]
  rfl

end

/-- A doorbell that moves a queue's tail leaves its head and last command, and local memory. -/
theorem ringDoorbell_tail {s : State} {q : Nat} {v : Queue} {value : Word} (found : s.queue? q = some v)
    (near : (value - v.head).toNat ≤ 2 ^ v.sizeLog) (ahead : (v.tail - v.head).toNat ≤ (value - v.head).toNat) :
    (∃ w, (s.ringDoorbell q value).queue? q = some w ∧ w.tail = value ∧ w.head = v.head ∧ w.last = v.last
      ∧ (s.ringDoorbell q value).mem = s.mem ∧ (s.ringDoorbell q value).host = s.host)
    ∧ ((∀ c x, v.convoy = some c → s.convoy? c = some x → x.timed = none) → s.ringDoorbell q value
      = { s with queues := mset s.queues q { v with tail := value, rung := v.rung ++ [(value, s.fclk)] } }) := by
  have moves := ringDoorbell_moves found near ahead
  split at moves
  next c member =>
    rw [moves]
    refine ⟨?_, fun untimed => ?_⟩
    · have arranged := tryRelease_arranged (s.setQueue q { v with tail := value, rung := v.rung ++ [(value, s.fclk)] }) c s.fclk
      obtain ⟨w, hw, alike⟩ := arranged.alike q _ (State.queue?_setQueue s q _)
      obtain ⟨_, _, _, _, rest⟩ := arranged.rest
      exact ⟨w, hw, alike.tail, alike.head, alike.last, (congrArg State.mem rest :), (congrArg State.host rest :)⟩
    · exact State.tryRelease_untimed _ fun x hx => untimed c x member hx
  next =>
    rw [moves]
    exact ⟨⟨_, State.queue?_setQueue s q _, rfl, rfl, rfl, rfl, rfl⟩, fun _ => rfl⟩

end Sys2Proof.Machine

/-! ## The fetcher accepts a command (R203, R306, R311, R319, R328, R329) -/

namespace Sys2Proof.Machine

set_option Elab.async false

/-! ### A fetch that ends early -/

theorem raiseFault_record (s : State) (f : FaultReq) : (s.raiseFault f).2.mem = s.mem ∧ (s.raiseFault f).2.queues = s.queues
    ∧ ∀ n, (s.raiseFault f).1 = some n → mhas (s.raiseFault f).2.mmu.faults n = true := by
  have placed : ∀ (m : Map FaultRec) k r, mhas (mset m k r) k = true := fun m k r => by
    rw [mhas, mget_mset, if_pos rfl]
    rfl
  unfold State.raiseFault
  dsimp only
  split
  · exact ⟨rfl, rfl, fun n h => by cases h; exact placed _ _ _⟩
  · split
    · exact ⟨rfl, rfl, nofun⟩
    · exact ⟨rfl, rfl, fun n h => by cases h; exact placed _ _ _⟩

/-- The fault of a fetch that has read no header. -/
def fetchFault (q : Nat) (u : Queue) (k l pte va : Nat) : FaultReq :=
  { asid := u.asid, kind := k, acc := accRead, va := va, waybill := 0, seq := u.last, agent := 2 + u.kind, unit := u.unit
    queue := q, level := l, heap := 0, detail := pte, growKey := 0, convoy := u.convoy }

theorem endFetch_eq (s : State) (q : Nat) (u : Queue) (k l pte va : Nat) : s.endFetch q u none (.fault k l pte va)
    = (s.raiseFault (fetchFault q u k l pte va)).2.modQueue q
        (fun v => { v with stalled := some (s.raiseFault (fetchFault q u k l pte va)).1, stallHdr := [] }) := rfl

section

variable {s : State} {q : Nat} {v : Queue}

/-- A fetch that faults at a page stalls the queue on a record. -/
theorem endFetch_fault (found : s.queue? q = some v) (u : Queue) (k l pte va : Nat) : ∃ id,
    (s.endFetch q u none (.fault k l pte va)).queue? q = some { v with stalled := some id, stallHdr := [] }
    ∧ (s.endFetch q u none (.fault k l pte va)).mem = s.mem
    ∧ ∀ n, id = some n → mhas (s.endFetch q u none (.fault k l pte va)).mmu.faults n = true := by
  obtain ⟨mem, queues, has⟩ := raiseFault_record s (fetchFault q u k l pte va)
  rw [endFetch_eq]
  refine ⟨_, ?_, mem, has⟩
  rw [State.queue?_modQueue, if_pos rfl, State.queue?, queues, ← State.queue?, found]
  rfl

/-- A queue that is not in a fallback stream stops with a command that ends in error. -/
theorem stopFetch_stops (found : s.queue? q = some v) (main : v.stream = none) (h : Option CmdHdr) (err : Nat) :
    (s.stopFetch q h err 0).queue? q = some { v with
      stopped := true
      cmds := v.cmds ++ [{ (match h with
        | none => Cmd.unread v
        | some h => { Cmd.of h (stopKey v.head.toNat) [] [] false with stops := true }) with st := .ended err, detail := 0 }] } := by
  unfold State.stopFetch
  rw [State.queue?_modQueue, if_pos rfl, found]
  simp only [Option.map_some, main]
  cases h <;> rfl

end

/-! ### Use counts (R203) -/

theorem useUp_rest (l : List Nat) (s : State) : ∃ m, s.useUp l = { s with mmu := { s.mmu with objs := m } } := by
  unfold State.useUp
  refine List.foldlRecOn (motive := fun t : State => ∃ m, t = { s with mmu := { s.mmu with objs := m } }) l _
    ⟨s.mmu.objs, rfl⟩ fun t ht h _ => ?_
  obtain ⟨m, rfl⟩ := ht
  exact ⟨_, rfl⟩

theorem obj?_modObj (s : State) (h k : Nat) (f : Obj → Obj) :
    (s.modObj h f).obj? k = if k = h then (s.obj? h).map f else s.obj? k := mget_mmod _ _ _ _

theorem obj?_useUp (l : List Nat) : ∀ s : State, ∀ n, (s.useUp l).obj? n
    = (s.obj? n).map (fun o => { o with uses := o.uses + l.count n }) := by
  induction l with
  | nil => exact fun s n => by simp [State.useUp]
  | cons h l ih =>
    intro s n
    show ((s.modObj h fun o => { o with uses := o.uses + 1 }).useUp l).obj? n = _
    rw [ih, obj?_modObj, List.count_cons]
    by_cases same : n = h
    · subst same
      simp only [if_true, Option.map_map, beq_self_eq_true]
      congr 1
      funext o
      simp only [Function.comp]
      congr 1
      omega
    · rw [if_neg same, if_neg (by simpa using Ne.symm same)]
      rfl

/-- An object whose every horizon has been reached (R206). -/
def Obj.reached (s : State) (o : Obj) : Obj :=
  if o.st = .dooming then { o with
    horizons := o.horizons.filter (fun z => !s.pastHorizon z)
    st := if (o.horizons.filter (fun z => !s.pastHorizon z)).isEmpty then .doomed else .dooming }
  else o

theorem Obj.reached_uses (s : State) (o : Obj) : (o.reached s).uses = o.uses := by
  unfold Obj.reached
  split <;> rfl

theorem checkDoom_eq (s : State) :
    s.checkDoom = { s with mmu := { s.mmu with objs := mmap s.mmu.objs (fun _ o => o.reached s) } } := rfl

theorem obj?_checkDoom (s : State) (n : Nat) : s.checkDoom.obj? n = (s.obj? n).map (Obj.reached s) := by
  rw [checkDoom_eq]
  exact mget_mmap s.mmu.objs (fun _ o => o.reached s) n

/-! ### Acceptance -/

/-- An acceptance's charge concerns accounts and the key of its convoy. -/
theorem chargeAccept_rest (s : State) (v : Queue) (w : Dword) :
    ∃ a c, s.chargeAccept v w = { s with accounts := a, convoys := c } := by
  have same : ∃ a c, s = { s with accounts := a, convoys := c } := ⟨s.accounts, s.convoys, rfl⟩
  unfold State.chargeAccept
  split
  · exact same
  · split
    · exact same
    · unfold State.levelContext
      split
      · exact ⟨s.accounts, _, rfl⟩
      · dsimp only
        split
        · exact ⟨s.accounts, _, rfl⟩
        · exact ⟨_, _, rfl⟩

/-- The command that a queue takes from its ring: it waits for its start, or is over with its residency error. -/
def State.acceptedCmd (s : State) (q : Nat) (v : Queue) (h : CmdHdr) (payload : List Byte) (l : List Nat) : Cmd :=
  if s.residency q v l = 0 then Cmd.of h v.head.toNat l payload false
  else { Cmd.of h v.head.toNat [] payload false with st := .ended (s.residency q v l) }

/-- A queue that takes a command from its ring. -/
def Queue.takes (h : CmdHdr) (payload : List Byte) (c : Cmd) (v : Queue) : Queue :=
  let v := { v.advance (1 + h.length) with cmds := v.cmds ++ [c], last := c.seq }
  match h.opcode with
  | 0x10 => { v with passOpen := true, lastOrder := none }
  | 0x11 => { v with lastOrder := some (getLe payload 0 4) }
  | 0x12 => { v with passOpen := false, lastOrder := none }
  | _ => v

theorem Queue.takes_place (h : CmdHdr) (payload : List Byte) (c : Cmd) {v : Queue} (main : v.stream = none) :
    (v.takes h payload c).head = v.head + BitVec.ofNat 32 (1 + h.length) ∧ (v.takes h payload c).tail = v.tail
    ∧ (v.takes h payload c).last = c.seq ∧ (v.takes h payload c).cmds = v.cmds ++ [c] := by
  have moved : (v.advance (1 + h.length)).head = v.head + BitVec.ofNat 32 (1 + h.length)
      ∧ (v.advance (1 + h.length)).tail = v.tail := by
    unfold Queue.advance Queue.streaming
    rw [main]
    exact ⟨rfl, rfl⟩
  unfold Queue.takes
  dsimp only
  split <;> exact ⟨moved.1, moved.2, rfl, rfl⟩

/-- The handles of an accepted command. -/
def State.taken (s : State) (q : Nat) (v : Queue) (l : List Nat) : List Nat := if s.residency q v l = 0 then l else []

/-- The steps of an acceptance from the ring, of no BATCH_START. -/
theorem accept_eq (s : State) (q : Nat) {v : Queue} (main : v.stream = none) {h : CmdHdr} (payload : List Byte) (l : List Nat)
    (plain : h.opcode ≠ 0x30) : s.accept q v h payload l
      = ((((s.modQueue q (Queue.takes h payload (s.acceptedCmd q v h payload l))).useUp (s.taken q v l)).checkDoom).chargeAccept v
          (s.acceptedCmd q v h payload l).waybill).bump blkQF v.qfInstance 0 1 := by
  have ring : v.streaming = none := by rw [Queue.streaming, main]; rfl
  unfold State.accept State.acceptedCmd State.taken
  by_cases fits : s.residency q v l = 0 <;> cases v.convoy <;>
    simp only [ring, main, fits, plain, Option.isSome_none, Bool.false_and, decide_false, Bool.false_eq_true, if_true,
      if_false] <;> rfl

theorem State.bump_counters (s : State) (b i e n : Nat) : ∃ c, s.bump b i e n = { s with counters := c } := by
  unfold State.bump
  split
  · exact ⟨s.counters, rfl⟩
  · exact ⟨_, rfl⟩

/-- A command accepted from the ring, and not a BATCH_START. -/
theorem accept_main {s : State} {q : Nat} {v : Queue} (found : s.queue? q = some v) (main : v.stream = none) (h : CmdHdr)
    (payload : List Byte) (l : List Nat) (plain : h.opcode ≠ 0x30) : ∃ w, (s.accept q v h payload l).queue? q = some w
      ∧ w.head = v.head + BitVec.ofNat 32 (1 + h.length) ∧ w.tail = v.tail ∧ w.last = BitVec.ofNat 32 h.seq
      ∧ (s.accept q v h payload l).mem = s.mem ∧ (s.accept q v h payload l).events = s.events
      ∧ (s.accept q v h payload l).host = s.host
      ∧ (s.residency q v l = 0 → w.cmds = v.cmds ++ [Cmd.of h v.head.toNat l payload false])
      ∧ (s.residency q v l ≠ 0 →
          w.cmds = v.cmds ++ [{ Cmd.of h v.head.toNat [] payload false with st := .ended (s.residency q v l) }])
      ∧ ∀ n o, s.obj? n = some o → ∃ o', (s.accept q v h payload l).obj? n = some o'
          ∧ o'.uses = o.uses + if s.residency q v l = 0 then l.count n else 0 := by
  have eq := accept_eq s q main payload l plain
  generalize hc : s.acceptedCmd q v h payload l = c at eq
  generalize hs : (s.modQueue q (Queue.takes h payload c)).useUp (s.taken q v l) = s1 at eq
  obtain ⟨head, tail, last, cmds⟩ := Queue.takes_place h payload c main
  obtain ⟨m, used⟩ := useUp_rest (s.taken q v l) (s.modQueue q (Queue.takes h payload c))
  rw [hs] at used
  obtain ⟨a, k, charged⟩ := chargeAccept_rest s1.checkDoom v c.waybill
  obtain ⟨r, counted⟩ := State.bump_counters (s1.checkDoom.chargeAccept v c.waybill) blkQF v.qfInstance 0 1
  have final : s.accept q v h payload l = { s1.checkDoom with accounts := a, convoys := k, counters := r } := by
    rw [eq, counted, charged]
  have fields : ∃ o, s.accept q v h payload l = { s with
      queues := mmod s.queues q (Queue.takes h payload c)
      mmu := { s.mmu with objs := o }
      accounts := a, convoys := k, counters := r } := by
    rw [final, checkDoom_eq, used]
    exact ⟨_, rfl⟩
  have objs : ∀ n, (s.accept q v h payload l).obj? n
      = ((s.obj? n).map fun o => { o with uses := o.uses + (s.taken q v l).count n }).map (Obj.reached s1) := by
    intro n
    rw [final]
    show s1.checkDoom.obj? n = _
    rw [obj?_checkDoom, ← hs, obj?_useUp]
    rfl
  obtain ⟨o, fields⟩ := fields
  have mine : (s.accept q v h payload l).queue? q = some (v.takes h payload c) := by
    rw [fields]
    show (s.modQueue q _).queue? q = _
    rw [State.queue?_modQueue, if_pos rfl, found]
    rfl
  refine ⟨_, mine, head, tail, last.trans ?_, by rw [fields], by rw [fields], by rw [fields], fun fits => ?_, fun bad => ?_,
    fun n o live => ?_⟩
  · rw [← hc]
    unfold State.acceptedCmd
    split <;> rfl
  · rw [cmds, ← hc, State.acceptedCmd, if_pos fits]
  · rw [cmds, ← hc, State.acceptedCmd, if_neg bad]
  · refine ⟨_, by rw [objs, live]; rfl, ?_⟩
    rw [Obj.reached_uses, State.taken]
    split <;> rfl

/-- A duplicate moves head alone past its entries, as far as a host sees it. -/
theorem duplicate_moves {s : State} {q : Nat} {v : Queue} (found : s.queue? q = some v) (n : Nat) :
    (s.duplicate q v n).queue? q = some (v.advance n) ∧ (s.duplicate q v n).mem = s.mem
    ∧ (s.duplicate q v n).events = s.events ∧ (s.duplicate q v n).host = s.host := by
  have at_ : ∀ d, ({ s with dups := d }.modQueue q (fun v => v.advance n)).queue? q = some (v.advance n) := fun d => by
    rw [State.queue?_modQueue, if_pos rfl]
    show (s.queue? q).map _ = _
    rw [found]
    rfl
  unfold State.duplicate
  dsimp only
  rw [checkDoom_eq]
  exact ⟨(congrArg (fun m => mget m q) (State.bump_queues _ _ _ _ _)).trans (at_ _), State.bump_mem _ _ _ _ _,
    (State.bump_counters _ _ _ _ _).elim fun c e => by rw [e]; rfl, State.bump_host _ _ _ _ _⟩

/-- A command of a queue that is not a duplicate, with the residency list that its header gives or points to. -/
def State.acceptListed (s : State) (q : Nat) (v : Queue) (b payload : List Byte) (ext : Option (List Byte)) : Out :=
  match (headerOf b).extList with
  | none => .next (s.accept q v (headerOf b) payload (headerOf b).handles)
  | some (a, n) => match s.fetchBytes v a (4 * n) ext with
    | (.error e, s) => .next (s.endFetch q v (some b) e)
    | (.ok (l, _), s) =>
      .next (s.accept q v (headerOf b) payload ((headerOf b).handles ++ (List.range n).map (fun i => getLe l (4 * i) 4)))

theorem State.acceptListed_bare (s : State) (q : Nat) (v : Queue) {b : List Byte} (payload : List Byte)
    (ext : Option (List Byte)) (bare : (headerOf b).ext = 0) : s.acceptListed q v b payload ext
      = .next (s.accept q v (headerOf b) payload (headerOf b).handles) := by
  rw [acceptListed, CmdHdr.extList, if_pos bare]

section

variable {queue : Half} {entries : Option (List Byte)} {s : State} {v : Queue} (found : s.queue? queue.toNat = some v)
  (ext : Option (List Byte))

include found

/-- A queue that cannot fetch, or whose ring holds nothing, is left as it is. -/
theorem commandAccept_waits (idle : s.mayFetch v = false ∨ v.covered = 0) : exec (.commandAccept queue entries ext) s = .next s := by
  show execCommandAccept _ _ _ _ = _
  unfold execCommandAccept
  dsimp only
  rw [found]
  dsimp only
  rw [if_pos (by rcases idle with h | h <;> simp [h])]

variable (may : s.mayFetch v = true) (some_ : v.covered ≠ 0)

include may some_

/-- A header that cannot be read ends the fetch. -/
theorem commandAccept_unread {e : FetchEnd} {s1 : State}
    (read : s.fetchBytes v (v.entryAt 0) 64 entries = (.error e, s1)) :
    exec (.commandAccept queue entries ext) s = .next (s1.endFetch queue.toNat v none e) := by
  show execCommandAccept _ _ _ _ = _
  unfold execCommandAccept
  dsimp only
  rw [found]
  dsimp only
  rw [if_neg (by simp [may, some_]), read]

variable {b : List Byte} {rest : Option (List Byte)} {s1 : State}
  (read : s.fetchBytes v (v.entryAt 0) 64 entries = (.ok (b, rest), s1))

include read

/-- A command whose entries are not all before tail waits. -/
theorem commandAccept_partial (short : v.covered < 1 + (headerOf b).length) :
    exec (.commandAccept queue entries ext) s = .next s1 := by
  show execCommandAccept _ _ _ _ = _
  unfold execCommandAccept
  dsimp only
  rw [found]
  dsimp only
  rw [if_neg (by simp [may, some_]), read]
  dsimp only
  rw [if_pos short]

variable {p : List Byte} {s2 : State} (long : 1 + (headerOf b).length ≤ v.covered)
  (payload : s1.fetchEntries v rest 1 (headerOf b).length = (.ok p, s2)) (main : v.stream = none)

include long payload main

/-- A command that has been read from the ring: malformed, a duplicate, or accepted. -/
theorem commandAccept_read : exec (.commandAccept queue entries ext) s =
    if s2.formError (headerOf b) p v ≠ 0 then
      .next (s2.stopFetch queue.toNat (some (headerOf b)) (s2.formError (headerOf b) p v) 0)
    else if 1 ≤ (BitVec.ofNat 32 (headerOf b).seq - v.last).toNat
        ∧ (BitVec.ofNat 32 (headerOf b).seq - v.last).toNat < 2 ^ 31 then
      s2.acceptListed queue.toNat v b p ext
    else .next (s2.duplicate queue.toNat v (1 + (headerOf b).length)) := by
  have ring : v.streaming = none := by rw [Queue.streaming, main]; rfl
  show execCommandAccept _ _ _ _ = _
  unfold execCommandAccept
  dsimp only
  rw [found]
  dsimp only
  rw [if_neg (by simp [may, some_]), read]
  dsimp only
  rw [if_neg (by omega), payload]
  simp only [ring, main, Option.isSome_none, Bool.false_and, Bool.false_eq_true, if_false, Bool.not_false, Bool.true_and]
  split
  · rfl
  · generalize (BitVec.ofNat 32 (headerOf b).seq - v.last).toNat = d
    by_cases new : 1 ≤ d ∧ d < 2 ^ 31
    · rw [if_pos new, if_neg (by simp only [new, decide_true, Bool.and_self, Bool.not_true, Bool.false_eq_true,
        not_false_eq_true])]
      rfl
    · rw [if_neg new, if_pos (by simpa only [Bool.not_eq_true', ← Bool.decide_and, decide_eq_false_iff_not] using new)]

end

/-- R203, R306, R311, R319, R328, R329: what a fetcher does with the next command of its queue. -/
theorem commandAccept_takes (queue : Half) (entries ext : Option (List Byte)) (s : State) (v : Queue)
    (found : s.queue? queue.toNat = some v) (may : s.mayFetch v = true) (some_ : v.covered ≠ 0) (main : v.stream = none)
    (b : List Byte) (rest : Option (List Byte)) (s1 : State)
    (read : s.fetchBytes v (v.entryAt 0) 64 entries = (.ok (b, rest), s1)) :
    let q := queue.toNat
    let h := headerOf b
    1 + h.length ≤ v.covered → ∀ p s2, s1.fetchEntries v rest 1 h.length = (.ok p, s2) → s2.queue? q = some v →
    let d := (BitVec.ofNat 32 h.seq - v.last).toNat
    let err := s2.formError h p v
    (err ≠ 0 → ∃ t, exec (.commandAccept queue entries ext) s = .next t ∧ { t with queues := s2.queues } = s2
        ∧ t.queue? q = some { v with
          stopped := true, cmds := v.cmds ++ [{ Cmd.of h (stopKey v.head.toNat) [] [] false with
            stops := true, st := .ended err }] })
    ∧ (err = 0 → (d = 0 ∨ 2 ^ 31 ≤ d) → ∃ t, exec (.commandAccept queue entries ext) s = .next t
        ∧ t.queue? q = some (v.advance (1 + h.length)) ∧ t.mem = s2.mem ∧ t.events = s2.events ∧ t.host = s2.host)
    ∧ (err = 0 → 1 ≤ d → d < 2 ^ 31 → h.ext = 0 →
        exec (.commandAccept queue entries ext) s = .next (s2.accept q v h p h.handles)) := by
  intro q h long p s2 payload kept d err
  have run := commandAccept_read found ext may some_ read long payload main
  refine ⟨fun bad => ?_, fun formed old => ?_, fun formed new near bare => ?_⟩
  · rw [if_pos bad] at run
    exact ⟨_, run, rfl, stopFetch_stops kept main (some h) err⟩
  · rw [if_neg (not_not.2 formed), if_neg (show ¬(1 ≤ d ∧ d < 2 ^ 31) by omega)] at run
    exact ⟨_, run, duplicate_moves kept _⟩
  · rw [if_neg (not_not.2 formed), if_pos ⟨new, near⟩, State.acceptListed_bare _ _ _ _ _ bare] at run
    exact run

end Sys2Proof.Machine

/-! ## Retirement (R203, R321 to R329, R345 to R348, R360, R366, R367) -/

namespace Sys2Proof.Machine

set_option Elab.async false

/-! ### Signals and records -/

/-- A queue with some of its commands over: the same queue, with the same commands in order. -/
def Queue.Ended (v w : Queue) : Prop := ∃ l, w = { v with cmds := l } ∧ l.map (fun c => c.index) = v.cmds.map (fun c => c.index)

theorem Queue.Ended.refl (v : Queue) : v.Ended v := ⟨v.cmds, rfl, rfl⟩
theorem Queue.Ended.trans {v w x : Queue} (a : v.Ended w) (b : w.Ended x) : v.Ended x := by
  obtain ⟨_, rfl, same⟩ := a
  obtain ⟨l, rfl, same'⟩ := b
  exact ⟨l, rfl, same'.trans same⟩

/-- Two states that differ at most in commands that are over, and in engines. -/
structure Released (s t : State) : Prop where
  rest : ∃ q e, t = { s with queues := q, engines := e }
  queue : ∀ k v, s.queue? k = some v → ∃ w, t.queue? k = some w ∧ v.Ended w

theorem Released.refl (s : State) : Released s s := ⟨⟨s.queues, s.engines, rfl⟩, fun _ v h => ⟨v, h, .refl v⟩⟩
theorem Released.trans {s t u : State} (a : Released s t) (b : Released t u) : Released s u := by
  refine ⟨?_, fun k v h => ?_⟩
  · obtain ⟨_, _, rfl⟩ := a.rest
    obtain ⟨_, _, rfl⟩ := b.rest
    exact ⟨_, _, rfl⟩
  · obtain ⟨w, hw, vw⟩ := a.queue k v h
    obtain ⟨x, hx, wx⟩ := b.queue k w hw
    exact ⟨x, hx, vw.trans wx⟩
theorem Released.foldl {α : Type} {f : State → α → State} (h : ∀ s a, Released s (f s a)) (l : List α) (s : State) :
    Released s (l.foldl f s) :=
  List.foldlRecOn (motive := Released s) l f (.refl s) fun t ht a _ => ht.trans (h t a)
theorem Released.modEng (s : State) (e : Nat) (f : Eng → Eng) : Released s (s.modEng e f) :=
  ⟨⟨s.queues, _, rfl⟩, fun _ v h => ⟨v, h, .refl v⟩⟩

theorem Released.modCmd {f : Cmd → Cmd} (hf : ∀ c, (f c).index = c.index) (s : State) (q i : Nat) :
    Released s (s.modCmd q i f) := by
  refine ⟨⟨_, s.engines, rfl⟩, fun k v h => ?_⟩
  show ∃ w, (s.modQueue q _).queue? k = some w ∧ _
  rw [State.queue?_modQueue]
  split
  next same =>
    subst same
    refine ⟨_, by rw [h]; rfl, _, rfl, ?_⟩
    rw [List.map_map]
    refine List.map_congr_left fun c _ => ?_
    show (if c.index = i then f c else c).index = c.index
    split
    · exact hf c
    · rfl
  · exact ⟨v, h, .refl v⟩

theorem releaseAwaits_released (s : State) : Released s s.releaseAwaits := by
  refine .foldl (fun t p => .foldl (fun t c => ?_) _ t) _ s
  split
  · refine (Released.modCmd (Cmd.finish_index 0 0) t p.1 c.index).trans ?_
    unfold State.queueAcquire
    split
    · exact .modEng _ _ _
    · exact .refl _
  · exact .refl t

/-- What a SIGNAL changes: an event, messages toward the host, and the commands that it releases. -/
structure Signalled (s t : State) : Prop where
  steps : ∃ m u, Sends { s with events := m } u ∧ Released u t

theorem Signalled.refl (s : State) : Signalled s s := ⟨s.events, s, .refl s, .refl s⟩

section

variable {s t : State} (h : Signalled s t)

include h

theorem Signalled.rest : t.mem = s.mem ∧ t.logbook = s.logbook ∧ t.accounts = s.accounts ∧ t.mmu = s.mmu := by
  obtain ⟨_, u, sent, released⟩ := h.steps
  obtain ⟨_, _, _, _, _, _, rfl⟩ := sent
  obtain ⟨_, _, rfl⟩ := released.rest
  exact ⟨rfl, rfl, rfl, rfl⟩

theorem Signalled.queue? {q : Nat} {v : Queue} (found : s.queue? q = some v) : ∃ w, t.queue? q = some w ∧ v.Ended w := by
  obtain ⟨_, u, sent, released⟩ := h.steps
  refine released.queue q v ?_
  obtain ⟨_, _, _, _, _, _, rfl⟩ := sent
  exact found

end

/-- A signal on a local event raises its count and never lowers it (R322). -/
theorem recordEvent_raises {s : State} {k : Nat} {e : Event} (found : mget s.events k = some e) (value : Nat) (lost : Bool) :
    Signalled s (s.recordEvent k value lost) ∧ mget (s.recordEvent k value lost).events k
      = some { e with count := if e.count.toNat < value then BitVec.ofNat 64 value else e.count } := by
  unfold State.recordEvent
  rw [found]
  dsimp only
  split
  next old =>
    rw [if_neg (by omega)]
    exact ⟨.refl s, found⟩
  next new =>
    rw [if_pos (by omega)]
    have sent : Sends { s with events := mset s.events k { e with count := BitVec.ofNat 64 value } }
        (State.interruptOpt { s with events := mset s.events k { e with count := BitVec.ofNat 64 value } } e.vector 0x0
          (b2n lost) k value) := by
      unfold State.interruptOpt
      split
      · exact .refl _
      · exact State.interrupt_sends _ _ _ _ _ _
    have released := releaseAwaits_released (State.interruptOpt
      { s with events := mset s.events k { e with count := BitVec.ofNat 64 value } } e.vector 0x0 (b2n lost) k value)
    refine ⟨⟨_, _, sent, released⟩, ?_⟩
    obtain ⟨_, _, _, _, _, _, told⟩ := sent
    obtain ⟨_, _, done⟩ := released.rest
    rw [done, told]
    exact mget_mset_self _ _ _

theorem recordEvent_signalled (s : State) (k value : Nat) (lost : Bool) : Signalled s (s.recordEvent k value lost) := by
  cases found : mget s.events k with
  | none =>
    unfold State.recordEvent
    rw [found]
    exact .refl s
  | some e => exact (recordEvent_raises found value lost).1

/-- A record submitted to a logbook that has room stands in its queue. -/
theorem State.log_recorded (s : State) (type a b c : Nat) : Recorded s (s.log type a b c) type a b c := by
  intro room
  unfold State.log State.submit
  dsimp only
  rw [if_neg (by decide), if_pos (by omega)]
  exact ⟨_, List.mem_append_right _ (List.mem_singleton.2 rfl), rfl, rfl, rfl, rfl, rfl⟩

theorem Recorded.of_logbook {s t u : State} {type a b c : Nat} (h : Recorded s t type a b c) (same : u.logbook = t.logbook) :
    Recorded s u type a b c := by
  intro room
  rw [same]
  exact h room

/-- The completion record of a command: written, or its loss logged. -/
theorem writeRecord_writes (s : State) (q : Nat) (v : Queue) (c : Cmd) (err : Nat) (late : Bool) :
    Accessed s (s.writeRecord q v c err late).2
    ∧ (∀ s1, s.writeVa v.agent v.asid (v.ringVa.toNat + 64 * 2 ^ v.sizeLog + 32 * (c.index % 2 ^ v.sizeLog))
          (recordBytes v c err late s.fclk) false = (.ok (), s1) → (s.writeRecord q v c err late).2 = s1)
    ∧ (∀ f s1, s.writeVa v.agent v.asid (v.ringVa.toNat + 64 * 2 ^ v.sizeLog + 32 * (c.index % 2 ^ v.sizeLog))
          (recordBytes v c err late s.fclk) false = (.error f, s1) → (s.writeRecord q v c err late).2
            = s1.log 0x05 (v.ringVa.toNat + 64 * 2 ^ v.sizeLog + 32 * (c.index % 2 ^ v.sizeLog)) c.waybill.toNat
                (err + q * 2 ^ 16)) := by
  have wrote := s.writeVa_accessed v.agent v.asid (v.ringVa.toNat + 64 * 2 ^ v.sizeLog + 32 * (c.index % 2 ^ v.sizeLog))
    (recordBytes v c err late s.fclk) false
  unfold State.writeRecord
  dsimp only
  generalize v.ringVa.toNat + 64 * 2 ^ v.sizeLog + 32 * (c.index % 2 ^ v.sizeLog) = a at *
  generalize recordBytes v c err late s.fclk = l at *
  generalize s.writeVa v.agent v.asid a l false = r at *
  obtain ⟨done | done, s1⟩ := r
  · exact ⟨wrote.trans (s1.log_accessed _ _ _ _), fun _ e => (by simp at e), fun f s' e => (by cases e; rfl)⟩
  · exact ⟨wrote, fun s' e => (by cases e; rfl), fun _ _ e => (by simp at e)⟩

/-! ### Charge points -/

/-- Two states that differ in engines, partitions, and the times of accounts. -/
structure Charged (s t : State) : Prop where
  rest : ∃ e a p, t = { s with engines := e, accounts := a, parts := p }
  commands : ∀ ctx, (t.account ctx).commands = (s.account ctx).commands
  misses : ∀ ctx, (t.account ctx).misses = (s.account ctx).misses

theorem Charged.refl (s : State) : Charged s s := ⟨⟨s.engines, s.accounts, s.parts, rfl⟩, fun _ => rfl, fun _ => rfl⟩
theorem Charged.trans {s t u : State} (a : Charged s t) (b : Charged t u) : Charged s u := by
  refine ⟨?_, fun ctx => (b.commands ctx).trans (a.commands ctx), fun ctx => (b.misses ctx).trans (a.misses ctx)⟩
  obtain ⟨_, _, _, rfl⟩ := a.rest
  obtain ⟨_, _, _, rfl⟩ := b.rest
  exact ⟨_, _, _, rfl⟩

theorem State.account_modAccount (s : State) (ctx k : Nat) (f : Account → Account) :
    (s.modAccount ctx f).account k = if k = ctx then f (s.account ctx) else s.account k := by
  unfold State.modAccount State.account mgetD
  dsimp only
  rw [mget_mset]
  split
  · rfl
  · rfl

theorem modAccount_charged (s : State) (ctx : Nat) {f : Account → Account}
    (h : ∀ a, (f a).commands = a.commands ∧ (f a).misses = a.misses) : Charged s (s.modAccount ctx f) := by
  refine ⟨⟨s.engines, _, s.parts, rfl⟩, fun k => ?_, fun k => ?_⟩ <;> rw [State.account_modAccount]
  · split
    next same => rw [same]; exact (h _).1
    · rfl
  · split
    next same => rw [same]; exact (h _).2
    · rfl

theorem settle_charged (s : State) (e : Nat) : Charged s (s.settle e) := by
  unfold State.settle
  dsimp only
  split
  · exact .refl s
  · have settled : ∀ v, Charged s (s.setEng e v) := fun _ => ⟨⟨_, s.accounts, s.parts, rfl⟩, fun _ => rfl, fun _ => rfl⟩
    split
    · exact (settled _).trans (modAccount_charged _ _ fun _ => ⟨rfl, rfl⟩)
    · exact settled _

theorem chargePoint_charged (s : State) (p : Nat) : Charged s (s.chargePoint p) := by
  unfold State.chargePoint
  split
  · exact .refl s
  next x _ =>
    have settled : Charged s (x.engines.foldl (fun s e => s.settle e) s) :=
      List.foldlRecOn (motive := Charged s) x.engines _ (.refl s) fun t ht e _ => ht.trans (settle_charged t e)
    dsimp only
    split
    · exact settled
    · split
      · exact settled.trans ⟨⟨_, _, _, rfl⟩, fun _ => rfl, fun _ => rfl⟩
      · exact settled

theorem refreshCharge_charged (s : State) (e : Nat) : Charged s (s.refreshCharge e) := by
  have rest := refreshCharge_rest s e
  have same : s.refreshCharge e = { s with engines := (s.refreshCharge e).engines } :=
    congrArg (fun t : State => { t with engines := (s.refreshCharge e).engines }) rest
  rw [same]
  exact ⟨⟨_, s.accounts, s.parts, rfl⟩, fun _ => rfl, fun _ => rfl⟩

theorem useDown_rest (l : List Nat) (s : State) : ∃ m, s.useDown l = { s with mmu := { s.mmu with objs := m } } := by
  unfold State.useDown
  refine List.foldlRecOn (motive := fun t : State => ∃ m, t = { s with mmu := { s.mmu with objs := m } }) l _
    ⟨s.mmu.objs, rfl⟩ fun t ht h _ => ?_
  obtain ⟨m, rfl⟩ := ht
  exact ⟨_, rfl⟩

theorem obj?_useDown (l : List Nat) : ∀ s : State, ∀ n, (s.useDown l).obj? n
    = (s.obj? n).map (fun o => { o with uses := o.uses - l.count n }) := by
  induction l with
  | nil => exact fun s n => by simp [State.useDown]
  | cons h l ih =>
    intro s n
    show ((s.modObj h fun o => { o with uses := o.uses - 1 }).useDown l).obj? n = _
    rw [ih, obj?_modObj, List.count_cons]
    by_cases same : n = h
    · subst same
      simp only [if_true, Option.map_map, beq_self_eq_true]
      congr 1
      funext o
      simp only [Function.comp]
      congr 1
      omega
    · rw [if_neg same, if_neg (by simpa using Ne.symm same)]
      rfl

/-! ### The actions of a retirement -/

/-- A command that stops its queue interrupts the queue's vector (R328). -/
def State.stopTold (s : State) (q : Nat) (v : Queue) (c : Cmd) (err : Nat) (lost : Bool) : State :=
  if c.stops then s.interruptOpt v.vector 0x1 (b2n lost) q (err * 2 ^ 32 + c.seq.toNat) else s

/-- A queue without a command that retired. -/
def Queue.drops (c : Cmd) (err : Nat) (v : Queue) : Queue :=
  { v with
    cmds := v.cmds.filter (fun d => d.index ≠ c.index)
    stream := if c.inStream then v.stream.map (fun x =>
        let x := if err ≠ 0 && x.err = 0 then { x with err := err, detail := c.detail } else x
        if c.opcode = 0x34 then { x with ended := true } else x) else v.stream }

/-- The counts that a retirement raises: its unit's progress and its performance counters. -/
def State.tallied (s : State) (v : Queue) (c : Cmd) : State :=
  let s := (if countsProgress v c.opcode then s.progress v.progressUnit 1 else s).bump blkQF v.qfInstance 2 1
  if v.kind = 2 && countsProgress v c.opcode then
    { s with cmpJobs := mset s.cmpJobs v.unit (mgetD s.cmpJobs v.unit 0 + 1) } else s

/-- A context's command is counted, and its charge settled. -/
def State.charged (s : State) (v : Queue) (c : Cmd) : State :=
  let s := s.modAccount (ctxOfWaybill c.waybill) (fun a => { a with commands := a.commands + 1 })
  let s := match (v.convoy.bind s.convoy?) with
    | some x => s.chargePoint x.partition
    | none => s
  if v.kind = 0 then s.refreshCharge v.unit else s

/-- The actions of a retirement but for the end of a batch. -/
def State.concluded (s : State) (q : Nat) (v : Queue) (c : Cmd) (err : Nat) (lost : Bool) : State :=
  ((((((s.stopTold q v c err lost).noteLayer q c true).useDown c.handles).modQueue q (Queue.drops c err)).tallied v c).charged
    v c)

theorem finishRetire_eq (s : State) (q : Nat) (v : Queue) (c : Cmd) (err : Nat) (lost : Bool) :
    s.finishRetire q v c err lost = if c.opcode = 0x34 && !c.inStream && !c.stops then
      (s.concluded q v c err lost).retireBatchEnd q (ctxOfWaybill c.waybill) else s.concluded q v c err lost := rfl

theorem tallied_rest (s : State) (v : Queue) (c : Cmd) : ∃ f k j, s.tallied v c
    = { s with flt := { s.flt with progress := f }, counters := k, cmpJobs := j } := by
  have counted : ∃ f k, (if countsProgress v c.opcode then s.progress v.progressUnit 1 else s).bump blkQF v.qfInstance 2 1
      = { s with flt := { s.flt with progress := f }, counters := k } := by
    obtain ⟨k, e⟩ := State.bump_counters (if countsProgress v c.opcode then s.progress v.progressUnit 1 else s) blkQF
      v.qfInstance 2 1
    rw [e]
    split
    · exact ⟨_, _, rfl⟩
    · exact ⟨s.flt.progress, _, rfl⟩
  unfold State.tallied
  obtain ⟨f, k, e⟩ := counted
  rw [e]
  dsimp only
  split
  · exact ⟨_, _, _, rfl⟩
  · exact ⟨_, _, s.cmpJobs, rfl⟩

theorem Charged.ite {s a b : State} {p : Prop} [Decidable p] (ha : Charged s a) (hb : Charged s b) :
    Charged s (if p then a else b) := by
  split <;> assumption

/-- A counted command: one more of its context, with the times of any settled. -/
theorem charged_counts (s : State) (v : Queue) (c : Cmd) : (∃ e a p, s.charged v c = { s with engines := e, accounts := a, parts := p })
    ∧ ((s.charged v c).account (ctxOfWaybill c.waybill)).commands = (s.account (ctxOfWaybill c.waybill)).commands + 1
    ∧ ((s.charged v c).account (ctxOfWaybill c.waybill)).misses = (s.account (ctxOfWaybill c.waybill)).misses := by
  generalize hs : s.modAccount (ctxOfWaybill c.waybill) (fun a => { a with commands := a.commands + 1 }) = t
  have more : t.account (ctxOfWaybill c.waybill) = { s.account (ctxOfWaybill c.waybill) with
      commands := (s.account (ctxOfWaybill c.waybill)).commands + 1 } := by
    rw [← hs, State.account_modAccount, if_pos rfl]
  have settled : Charged t (s.charged v c) := by
    unfold State.charged
    rw [hs]
    refine Charged.trans (t := match v.convoy.bind t.convoy? with | some x => t.chargePoint x.partition | none => t) ?_ ?_
    · split
      · exact chargePoint_charged _ _
      · exact .refl t
    · exact .ite (refreshCharge_charged _ _) (.refl _)
  refine ⟨?_, by rw [settled.commands, more], by rw [settled.misses, more]⟩
  obtain ⟨_, _, _, e⟩ := settled.rest
  rw [e, ← hs]
  exact ⟨_, _, _, rfl⟩

/-- What a retirement leaves of the state, but for the end of a batch: a layer's sample, the uses of handles, the
command's place, counts and charges. -/
theorem concluded_rest (s : State) (q : Nat) (v : Queue) (c : Cmd) (err : Nat) (lost : Bool) :
    ∃ o f k j e a p, s.concluded q v c err lost = { s.stopTold q v c err lost with
      convoys := ((s.stopTold q v c err lost).noteLayer q c true).convoys
      mmu := { (s.stopTold q v c err lost).mmu with objs := o }
      queues := mmod (s.stopTold q v c err lost).queues q (Queue.drops c err)
      flt := { (s.stopTold q v c err lost).flt with progress := f }, counters := k, cmpJobs := j
      engines := e, accounts := a, parts := p } := by
  unfold State.concluded
  generalize s.stopTold q v c err lost = s1
  obtain ⟨m, noted⟩ := noteLayer_convoysOnly s1 q c true
  obtain ⟨o, freed⟩ := useDown_rest c.handles (s1.noteLayer q c true)
  obtain ⟨f, k, j, counted⟩ := tallied_rest (((s1.noteLayer q c true).useDown c.handles).modQueue q (Queue.drops c err)) v c
  obtain ⟨e, a, p, paid⟩ := (charged_counts
    ((((s1.noteLayer q c true).useDown c.handles).modQueue q (Queue.drops c err)).tallied v c) v c).1
  refine ⟨o, f, k, j, e, a, p, ?_⟩
  rw [paid, counted, freed, noted]
  rfl

section

variable (s : State) (q : Nat) (v : Queue) (c : Cmd) (err : Nat) (lost : Bool)

theorem obj?_concluded (n : Nat) : (s.concluded q v c err lost).obj? n
    = ((s.stopTold q v c err lost).obj? n).map (fun o => { o with uses := o.uses - c.handles.count n }) := by
  unfold State.concluded
  generalize s.stopTold q v c err lost = s1
  obtain ⟨f, k, j, counted⟩ := tallied_rest (((s1.noteLayer q c true).useDown c.handles).modQueue q (Queue.drops c err)) v c
  obtain ⟨e, a, p, paid⟩ := (charged_counts
    ((((s1.noteLayer q c true).useDown c.handles).modQueue q (Queue.drops c err)).tallied v c) v c).1
  obtain ⟨m, noted⟩ := noteLayer_convoysOnly s1 q c true
  calc State.obj? _ n = ((s1.noteLayer q c true).useDown c.handles).obj? n := by rw [paid, counted]; rfl
    _ = ((s1.noteLayer q c true).obj? n).map (fun o => { o with uses := o.uses - c.handles.count n }) := obj?_useDown _ _ n
    _ = _ := by rw [noted]; rfl

theorem concluded_counts : ((s.concluded q v c err lost).account (ctxOfWaybill c.waybill)).commands
      = ((s.stopTold q v c err lost).account (ctxOfWaybill c.waybill)).commands + 1
    ∧ ((s.concluded q v c err lost).account (ctxOfWaybill c.waybill)).misses
      = ((s.stopTold q v c err lost).account (ctxOfWaybill c.waybill)).misses := by
  unfold State.concluded
  generalize s.stopTold q v c err lost = s1
  have before : ((((s1.noteLayer q c true).useDown c.handles).modQueue q (Queue.drops c err)).tallied v c).account
      (ctxOfWaybill c.waybill) = s1.account (ctxOfWaybill c.waybill) := by
    obtain ⟨f, k, j, counted⟩ := tallied_rest (((s1.noteLayer q c true).useDown c.handles).modQueue q (Queue.drops c err)) v c
    obtain ⟨o, freed⟩ := useDown_rest c.handles (s1.noteLayer q c true)
    obtain ⟨m, noted⟩ := noteLayer_convoysOnly s1 q c true
    rw [counted, freed, noted]
    rfl
  rw [← before]
  exact (charged_counts _ v c).2

end

theorem stopTold_sends (s : State) (q : Nat) (v : Queue) (c : Cmd) (err : Nat) (lost : Bool) :
    Sends s (s.stopTold q v c err lost) := by
  unfold State.stopTold State.interruptOpt
  split
  · split
    · exact .refl s
    · exact State.interrupt_sends _ _ _ _ _ _
  · exact .refl s

theorem stopTold_raised {s : State} (alive : s.flt.fatal = false) {c : Cmd} (stops : c.stops = true) {v : Queue}
    (bound : v.vector ≠ 0) (q err : Nat) (lost : Bool) : Raised s (s.stopTold q v c err lost) v.vector := by
  unfold State.stopTold State.interruptOpt
  rw [if_pos stops, if_neg (by simp [bound, alive])]
  exact State.interrupt_raised _ _ _ _ _ _

/-- A SIGNAL on this die's own events, or none (R322). -/
theorem performSignal_local (s : State) (q : Nat) (c : Cmd) (lost : Bool)
    (here : ∀ x, signalOf c.opcode c.payload = some x → x.enable = true → x.remote = false ∨ x.die = s.caravan.die) :
    ∃ u, s.performSignal q c lost = (true, u) ∧ Signalled s u
      ∧ ((∀ x, signalOf c.opcode c.payload = some x → x.enable = false ∨ c.stops = true) → u = s)
      ∧ (∀ x e, signalOf c.opcode c.payload = some x → mget s.events x.event = some e → x.enable = true → c.stops = false →
          mget u.events x.event = some { e with count := if e.count.toNat < x.value then BitVec.ofNat 64 x.value else e.count }) := by
  unfold State.performSignal
  cases signal : signalOf c.opcode c.payload with
  | none => exact ⟨s, rfl, .refl s, fun _ => rfl, nofun⟩
  | some g =>
    dsimp only
    by_cases quiet : (!g.enable || c.stops) = true
    · rw [if_pos quiet]
      refine ⟨s, rfl, .refl s, fun _ => rfl, fun x e same _ on going => ?_⟩
      cases same
      simp [on, going] at quiet
    · rw [if_neg quiet]
      simp only [Bool.or_eq_true, Bool.not_eq_true', not_or, Bool.not_eq_false, Bool.not_eq_true] at quiet
      obtain ⟨on, going⟩ := quiet
      rw [if_pos (by simpa using here g signal on)]
      refine ⟨_, rfl, recordEvent_signalled _ _ _ _, fun none => ?_, fun x e same there _ _ => ?_⟩
      · have := none g rfl
        simp [on, going] at this
      · cases same
        exact (recordEvent_raises there _ _).2

/-- Would a retirement be late for its batch's deadline? -/
def State.retireLate (s : State) (q : Nat) (c : Cmd) : Bool :=
  c.opcode = 0x34 && !c.inStream && !c.stops && s.endsBatch q && s.batchLate q

/-- Does a command that retires have a completion record? -/
def Cmd.recorded (c : Cmd) (err : Nat) (late : Bool) : Bool := !c.inStream && (c.crec || (err ≠ 0 && err ≠ eDiverted) || late)

/-- The completion record of a command that has one, and whether it is lost. -/
def State.recordOf (s : State) (q : Nat) (v : Queue) (c : Cmd) (err : Nat) (late : Bool) : Bool × State :=
  if c.recorded err late then s.writeRecord q v c err late else (false, s)

theorem sweepPasses_sound {s : State} (sound : ∀ p ∈ s.passes, s.passFailed p.2 = false) : s.sweepPasses = s := by
  unfold State.sweepPasses
  refine List.foldlRecOn (motive := fun t => t = s) s.passes _ rfl fun t same p member => ?_
  rw [same, sound p member]
  rfl

section

variable {queue : Half} {s : State} {v : Queue} {c : Cmd} {cs : List Cmd} (found : s.queue? queue.toNat = some v)
  (front : v.cmds = c :: cs) (sound : ∀ p ∈ s.passes, s.passFailed p.2 = false)

include found front sound

/-- A command that is not over, whose signal has left, or that still owes writes is left. -/
theorem commandRetire_waits
    (early : s.working = false ∨ (∀ e, c.st ≠ .ended e) ∨ c.signalled = true ∨ s.writesOwed v = true) :
    exec (.commandRetire queue) s = .next s := by
  show s.sweepPasses.retireFront queue.toNat = _
  rw [sweepPasses_sound sound, State.retireFront, found]
  dsimp only
  rw [front]
  refine if_pos ?_
  rcases early with h | h | h | h
  · simp [h]
  · have : c.over = false := by
      unfold Cmd.over
      split
      next e same => exact absurd same (h e)
      · rfl
    simp [this]
  · simp [h]
  · simp [h]

/-- The course of a retirement: the record, the state of the command, its signal, the actions after it. -/
theorem commandRetire_course {e : Nat} (works : s.working = true) (over_ : c.st = .ended e) (unsent : c.signalled = false)
    (settled : s.writesOwed v = false) {late : Bool} (late_ : s.retireLate queue.toNat c = late) {err : Nat}
    (err_ : s.finalError c late = err) {u : State}
    (signal : ((s.recordOf queue.toNat v c err late).2.modCmd queue.toNat c.index
        (fun c => { c with st := .ended err })).performSignal queue.toNat c (s.recordOf queue.toNat v c err late).1 = (true, u)) :
    exec (.commandRetire queue) s
      = .next (u.finishRetire queue.toNat v c err (s.recordOf queue.toNat v c err late).1) := by
  have over_ : c.over = true := by
    unfold Cmd.over
    rw [over_]
  show s.sweepPasses.retireFront queue.toNat = _
  rw [sweepPasses_sound sound, State.retireFront, found]
  dsimp only
  rw [front]
  dsimp only
  rw [if_neg (by simp [works, over_, unsent, settled])]
  subst late_ err_
  unfold State.recordOf Cmd.recorded State.retireLate at signal ⊢
  rw [signal]

end

/-! ### The command that retires -/

theorem Accessed.die {s t : State} (h : Accessed s t) : t.caravan.die = s.caravan.die := by
  obtain ⟨_, ⟨_, die⟩, _, rfl⟩ := h
  exact die
theorem Accessed.fatal {s t : State} (h : Accessed s t) : t.flt.fatal = s.flt.fatal := by
  obtain ⟨_, ⟨fatal, _⟩, _, rfl⟩ := h
  exact fatal
theorem Accessed.account {s t : State} (h : Accessed s t) (ctx : Nat) : t.account ctx = s.account ctx := by
  obtain ⟨_, _, _, rfl⟩ := h
  rfl
theorem Accessed.obj? {s t : State} (h : Accessed s t) (n : Nat) : t.obj? n = s.obj? n := by
  obtain ⟨_, _, _, rfl⟩ := h
  rfl
theorem Raised.of_accessed {s t u : State} (a : Accessed s t) {v : Nat} (h : Raised t u v) : Raised s u v := by
  obtain ⟨_, _, _, rfl⟩ := a
  exact h

theorem State.working_alive {s : State} (works : s.working = true) : s.flt.fatal = false := by
  unfold State.working State.live at works
  simp only [Bool.and_eq_true, Bool.not_eq_true'] at works
  exact works.1.2

theorem recordOf_accessed (s : State) (q : Nat) (v : Queue) (c : Cmd) (err : Nat) (late : Bool) :
    Accessed s (s.recordOf q v c err late).2 := by
  unfold State.recordOf
  split
  · exact (writeRecord_writes s q v c err late).1
  · exact .refl s

/-- A command with no SIGNAL for another die retires with the error that it ended with, where it is not late (R321). -/
theorem finalError_own {s : State} {c : Cmd} {e : Nat} (over_ : c.st = .ended e)
    (here : ∀ x, signalOf c.opcode c.payload = some x → x.enable = true → x.remote = false ∨ x.die = s.caravan.die) :
    s.finalError c false = e := by
  unfold State.finalError
  rw [over_]
  cases signal : signalOf c.opcode c.payload with
  | none => simp
  | some g =>
    have near := here g signal
    dsimp only
    split
    · rfl
    · rw [if_neg, if_neg (by decide)]
      simp only [Bool.and_eq_true, decide_eq_true_eq, Bool.not_eq_true']
      rintro ⟨⟨⟨⟨on, remote⟩, other⟩, _⟩, _⟩
      rcases near on with here | here
      · rw [here] at remote
        cases remote
      · exact other here

/-- Only the end of a batch in progress is late. -/
theorem retireLate_plain {s : State} {q : Nat} {v : Queue} (found : s.queue? q = some v) {c : Cmd}
    (plain : c.opcode ≠ 0x34 ∨ v.inBatch = false) : s.retireLate q c = false := by
  unfold State.retireLate
  rcases plain with other | out
  · simp [other]
  · have none : s.batchOf q = none := by
      unfold State.batchOf
      rw [found]
      simp [out]
    simp [State.endsBatch, none]

/-- The indexes of a queue's commands when its oldest has left. -/
theorem Queue.drops_indexes {v w : Queue} (h : v.Ended w) {c : Cmd} {cs : List Cmd} (front : v.cmds = c :: cs) (err : Nat) :
    (w.drops c err).cmds.map (fun d => d.index) = (cs.map (fun d => d.index)).filter (fun n => n ≠ c.index) := by
  obtain ⟨l, rfl, same⟩ := h
  show (l.filter ((fun n => decide (n ≠ c.index)) ∘ fun d => d.index)).map (fun d => d.index) = _
  rw [← List.filter_map, same, front]
  simp

theorem Sends.parts {s t : State} (h : Sends s t) : t.mem = s.mem ∧ t.logbook = s.logbook ∧ t.events = s.events
    ∧ t.queues = s.queues ∧ t.convoys = s.convoys ∧ t.accounts = s.accounts ∧ t.mmu = s.mmu ∧ t.clk = s.clk := by
  obtain ⟨_, _, _, _, _, _, rfl⟩ := h
  exact ⟨rfl, rfl, rfl, rfl, rfl, rfl, rfl, rfl⟩

theorem Raised.of_released {s t u : State} (a : Released s t) {v : Nat} (h : Raised t u v) : Raised s u v := by
  obtain ⟨_, _, rfl⟩ := a.rest
  exact h

section

variable (s : State) (q : Nat) (v : Queue) (c : Cmd) (err : Nat) (lost : Bool)

theorem queue?_concluded : (s.concluded q v c err lost).queue? q = (s.queue? q).map (Queue.drops c err) := by
  obtain ⟨o, f, k, j, e, a, p, eq⟩ := concluded_rest s q v c err lost
  obtain ⟨_, _, _, queues, _⟩ := (stopTold_sends s q v c err lost).parts
  rw [eq]
  show mget (mmod _ q _) q = _
  rw [queues, mget_mmod, if_pos rfl]
  rfl

theorem concluded_kept : (s.concluded q v c err lost).mem = s.mem ∧ (s.concluded q v c err lost).logbook = s.logbook
    ∧ (s.concluded q v c err lost).events = s.events ∧ (s.concluded q v c err lost).clk = s.clk := by
  obtain ⟨o, f, k, j, e, a, p, eq⟩ := concluded_rest s q v c err lost
  obtain ⟨mem, logbook, events, _, _, _, _, clk⟩ := (stopTold_sends s q v c err lost).parts
  rw [eq]
  exact ⟨mem, logbook, events, clk⟩

theorem concluded_uses {n : Nat} {o : Obj} (live : s.obj? n = some o) :
    ∃ o', (s.concluded q v c err lost).obj? n = some o' ∧ o'.uses = o.uses - c.handles.count n := by
  obtain ⟨_, _, _, _, _, _, mmu, _⟩ := (stopTold_sends s q v c err lost).parts
  rw [obj?_concluded, State.obj?, mmu, ← State.obj?, live]
  exact ⟨_, rfl, rfl⟩

theorem concluded_accounts :
    ((s.concluded q v c err lost).account (ctxOfWaybill c.waybill)).commands
      = (s.account (ctxOfWaybill c.waybill)).commands + 1
    ∧ ((s.concluded q v c err lost).account (ctxOfWaybill c.waybill)).misses = (s.account (ctxOfWaybill c.waybill)).misses := by
  obtain ⟨_, _, _, _, _, accounts, _⟩ := (stopTold_sends s q v c err lost).parts
  have counts := concluded_counts s q v c err lost
  rwa [State.account, State.account, accounts] at counts

/-- The interrupt of a queue that stops stands through the retirement. -/
theorem concluded_raised (alive : s.flt.fatal = false) (stops : c.stops = true) (bound : v.vector ≠ 0) :
    Raised s (s.concluded q v c err lost) v.vector := by
  obtain ⟨o, f, k, j, e, a, p, eq⟩ := concluded_rest s q v c err lost
  rw [eq]
  exact stopTold_raised alive stops bound q err lost

/-- A retirement that ends no batch. -/
theorem finishRetire_plain {w : Queue} (found : s.queue? q = some w) (plain : c.opcode ≠ 0x34 ∨ w.inBatch = false) :
    s.finishRetire q v c err lost = s.concluded q v c err lost := by
  rw [finishRetire_eq]
  split
  next end_ =>
    have out : w.inBatch = false := plain.resolve_left (by simp at end_; simp [end_])
    have none : (s.concluded q v c err lost).batchOf q = none := by
      unfold State.batchOf
      rw [queue?_concluded, found]
      show (if !w.inBatch then none else _) = none
      rw [out]
      rfl
    unfold State.retireBatchEnd
    rw [none]
  · rfl

end

/-- R203, R321, R322, R326 to R329, R360: the retirement of a command with a SIGNAL for this die, or none. -/
theorem commandRetire_retires (queue : Half) (s : State) (v : Queue) (c : Cmd) (cs : List Cmd)
    (found : s.queue? queue.toNat = some v) (front : v.cmds = c :: cs) (sound : ∀ p ∈ s.passes, s.passFailed p.2 = false)
    (e : Nat) (works : s.working = true) (over_ : c.st = .ended e) (unsent : c.signalled = false)
    (settled : s.writesOwed v = false)
    (here : ∀ x, signalOf c.opcode c.payload = some x → x.enable = true → x.remote = false ∨ x.die = s.caravan.die)
    (plain : c.opcode ≠ 0x34 ∨ v.inBatch = false) :
    ∃ t w, exec (.commandRetire queue) s = .next t ∧ t.queue? queue.toNat = some w
      ∧ w.cmds.map (fun d => d.index) = (cs.map (fun d => d.index)).filter (fun n => n ≠ c.index)
      ∧ (∀ x ev, signalOf c.opcode c.payload = some x → mget s.events x.event = some ev → x.enable = true → c.stops = false →
          mget t.events x.event = some { ev with
            count := if ev.count.toNat < x.value then BitVec.ofNat 64 x.value else ev.count })
      ∧ ((∀ x, signalOf c.opcode c.payload = some x → x.enable = false ∨ c.stops = true) → t.events = s.events)
      ∧ t.mem = (s.recordOf queue.toNat v c e false).2.mem
      ∧ t.logbook = (s.recordOf queue.toNat v c e false).2.logbook
      ∧ (c.stops = true → v.vector ≠ 0 → Raised s t v.vector)
      ∧ (∀ n o, s.obj? n = some o → ∃ o', t.obj? n = some o' ∧ o'.uses = o.uses - c.handles.count n)
      ∧ (t.account (ctxOfWaybill c.waybill)).commands = (s.account (ctxOfWaybill c.waybill)).commands + 1 := by
  have wrote := recordOf_accessed s queue.toNat v c e false
  generalize hr : s.recordOf queue.toNat v c e false = r at wrote ⊢
  obtain ⟨lost, s1⟩ := r
  generalize hm : s1.modCmd queue.toNat c.index (fun c => { c with st := .ended e }) = s2
  have marked : Released s1 s2 := by
    rw [← hm]
    refine .modCmd ?_ s1 _ _
    exact fun _ => rfl
  obtain ⟨_, _, rest⟩ := marked.rest
  -- the signal
  have here2 : ∀ x, signalOf c.opcode c.payload = some x → x.enable = true → x.remote = false ∨ x.die = s2.caravan.die := by
    have die : s2.caravan.die = s.caravan.die := by rw [rest]; exact wrote.die
    rwa [die]
  obtain ⟨u, signal, signalled, quiet, raises⟩ := performSignal_local s2 queue.toNat c lost here2
  have run := commandRetire_course found front sound works over_ unsent settled (retireLate_plain found plain)
    (finalError_own over_ here) (u := u) (by rw [hr, hm]; exact signal)
  rw [hr] at run
  -- the queue
  obtain ⟨w2, hw2, vw2⟩ := marked.queue queue.toNat v (by rw [State.queue?, wrote.queues]; exact found)
  obtain ⟨w, hw, w2w⟩ := signalled.queue? hw2
  have vw := vw2.trans w2w
  have out : c.opcode ≠ 0x34 ∨ w.inBatch = false := by
    obtain ⟨_, rfl, _⟩ := vw
    exact plain
  rw [finishRetire_plain u queue.toNat v c e lost hw out] at run
  -- what the signal and the retirement keep
  obtain ⟨mem, logbook, accounts, mmu⟩ := signalled.rest
  obtain ⟨mem', logbook', events', _⟩ := concluded_kept u queue.toNat v c e lost
  have events2 : s2.events = s.events := by rw [rest]; exact wrote.events
  refine ⟨_, _, run, by rw [queue?_concluded, hw]; rfl, Queue.drops_indexes vw front e, fun x ev sig there on going => ?_,
    fun none => ?_, ?_, ?_, fun stops bound => ?_, fun n o live => ?_, ?_⟩
  · rw [events']
    exact raises x ev sig (by rw [events2]; exact there) on going
  · rw [events', quiet none, events2]
  · rw [mem', mem, rest]
  · rw [logbook', logbook, rest]
  · have silent := quiet fun _ _ => .inr stops
    subst silent
    have raised := concluded_raised u queue.toNat v c e lost (by rw [rest]; exact wrote.fatal.trans (State.working_alive works))
      stops bound
    exact .of_accessed wrote (.of_released marked raised)
  · refine concluded_uses u queue.toNat v c e lost ?_
    rw [State.obj?, mmu, rest]
    exact (wrote.obj? n).trans live
  · rw [(concluded_accounts u queue.toNat v c e lost).1, State.account, accounts, rest]
    exact congrArg (fun a : Account => a.commands + 1) (wrote.account _)

theorem recorded_iff {c : Cmd} {e : Nat} :
    c.recorded e false = true ↔ c.inStream = false ∧ (c.crec = true ∨ (e ≠ 0 ∧ e ≠ 0x0509)) := by
  unfold Cmd.recorded
  simp [show eDiverted = 0x0509 from rfl]

/-- A command without a completion record leaves memory; a record's bytes, or its loss, are those of its write (R327). -/
theorem recordOf_memory (s : State) (q : Nat) (v : Queue) (c : Cmd) (e : Nat) :
    let record := c.inStream = false ∧ (c.crec = true ∨ (e ≠ 0 ∧ e ≠ 0x0509))
    let at_ := v.ringVa.toNat + 64 * 2 ^ v.sizeLog + 32 * (c.index % 2 ^ v.sizeLog)
    (¬record → (s.recordOf q v c e false).2.mem = s.mem)
    ∧ (record →
      (∀ s1, s.writeVa v.agent v.asid at_ (recordBytes v c e false s.fclk) false = (.ok (), s1) →
        (s.recordOf q v c e false).2.mem = s1.mem)
      ∧ (∀ f s1, s.writeVa v.agent v.asid at_ (recordBytes v c e false s.fclk) false = (.error f, s1) →
        (s.recordOf q v c e false).2.mem = s1.mem
          ∧ Recorded s1 (s.recordOf q v c e false).2 0x05 at_ c.waybill.toNat (e + q * 2 ^ 16))) := by
  intro record at_
  obtain ⟨_, done, lost⟩ := writeRecord_writes s q v c e false
  refine ⟨fun none => ?_, fun has => ?_⟩
  · rw [State.recordOf, if_neg (mt recorded_iff.1 none)]
  · rw [State.recordOf, if_pos (recorded_iff.2 has)]
    refine ⟨fun s1 wrote => by rw [done s1 wrote], fun f s1 wrote => ?_⟩
    rw [lost f s1 wrote]
    refine ⟨?_, State.log_recorded _ _ _ _ _⟩
    obtain ⟨l, logged⟩ := State.submit_eq s1 { LogRec.blank 0x05 (if s1.fw.masterAlive then 0 else 1) with
      arg0 := BitVec.ofNat 64 at_, arg1 := BitVec.ofNat 64 c.waybill.toNat, arg2 := BitVec.ofNat 64 (e + q * 2 ^ 16) } false
    rw [State.log, logged]

/-! ### The end of a batch (R348, R364 to R367) -/

theorem State.batchOf_eq_some {s : State} {q k : Nat} {x : Convoy} {b : Batch} : s.batchOf q = some (k, x, b)
    ↔ ∃ v, s.queue? q = some v ∧ v.inBatch = true ∧ v.convoy = some k ∧ s.convoy? k = some x ∧ x.batch = some b := by
  unfold State.batchOf
  cases s.queue? q with
  | none => simp
  | some v =>
    cases hb : v.inBatch with
    | false => simp [hb]
    | true =>
      simp only [hb, Bool.not_true, Bool.false_eq_true, if_false, Option.bind_eq_some_iff, Option.map_eq_some_iff, Prod.mk.injEq,
        Option.some.injEq, true_and, exists_eq_left']
      constructor
      · rintro ⟨c, joined, y, at_, a, batch, rfl, rfl, rfl⟩
        exact ⟨joined, at_, batch⟩
      · rintro ⟨joined, at_, batch⟩
        exact ⟨k, joined, x, at_, b, batch, rfl, rfl, rfl⟩

/-- A layer's sample is the only thing that it changes of a batch. -/
theorem noteLayer_batch {s : State} {q k : Nat} {x : Convoy} {b : Batch} (batch : s.batchOf q = some (k, x, b)) (c : Cmd)
    (retired : Bool) : ∃ b', (s.noteLayer q c retired).convoy? k = some { x with batch := some b' } ∧ b'.tR = b.tR := by
  obtain ⟨_, _, _, _, at_, has⟩ := State.batchOf_eq_some.1 batch
  have same : ∃ b', s.convoy? k = some { x with batch := some b' } ∧ b'.tR = b.tR := ⟨b, by rw [at_, ← has], rfl⟩
  unfold State.noteLayer
  rw [batch]
  dsimp only
  split_ifs
  · exact same
  · split
    · exact same
    next e _ =>
      refine ⟨{ b with samples := mset b.samples (layerOf c.waybill) e }, ?_, rfl⟩
      show mget (mmod s.convoys k _) k = _
      rw [mget_mmod, if_pos rfl]
      show (s.convoy? k).map _ = _
      rw [at_]
      rfl

theorem mem_mmod {α : Type} {m : Map α} {k : Nat} {f : α → α} {p : Nat × α} (h : p ∈ mmod m k f) : p.1 = k ∨ p ∈ m := by
  have set : ∀ (m : Map α) v, p ∈ mset m k v → p.1 = k ∨ p ∈ m := by
    intro m v
    induction m with
    | nil =>
      intro h
      exact .inl (congrArg Prod.fst (List.mem_singleton.1 h))
    | cons a m ih =>
      unfold mset
      split
      · intro h
        rcases List.mem_cons.1 h with rfl | h
        · exact .inl rfl
        · exact .inr (List.mem_cons_of_mem _ h)
      · split
        · intro h
          rcases List.mem_cons.1 h with rfl | h
          · exact .inl rfl
          · exact .inr h
        · intro h
          rcases List.mem_cons.1 h with rfl | h
          · exact .inr List.mem_cons_self
          · exact (ih h).imp_right (List.mem_cons_of_mem _)
  unfold mmod at h
  split at h
  · exact .inr h
  · exact set _ _ h

/-- A batch that a queue ends still ends with it when that queue alone has changed. -/
theorem endsBatch_kept {s t : State} {q k : Nat} {x y : Convoy} {b b' : Batch} (before : s.batchOf q = some (k, x, b))
    (after : t.batchOf q = some (k, y, b')) (queues : ∀ p ∈ t.queues, p.1 = q ∨ p ∈ s.queues) (ends : s.endsBatch q = true) :
    t.endsBatch q = true := by
  unfold State.endsBatch at ends ⊢
  rw [before] at ends
  rw [after]
  dsimp only at ends ⊢
  unfold State.queuesOf at ends ⊢
  rw [List.all_eq_true] at ends ⊢
  intro p member
  obtain ⟨member, own⟩ := List.mem_filter.1 member
  rcases queues p member with same | old
  · simp [same]
  · exact ends p (List.mem_filter.2 ⟨old, own⟩)

/-! What the end of a batch does to queues -/

theorem passBatchStart_queues (s : State) (q : Nat) : ∃ m, s.passBatchStart q = { s with queues := m } := by
  unfold State.passBatchStart
  split
  · exact ⟨s.queues, rfl⟩
  · split
    · exact ⟨s.queues, rfl⟩
    · exact ⟨_, rfl⟩

theorem foldl_queues {α : Type} {f : State → α → State} (h : ∀ s a, ∃ m, f s a = { s with queues := m }) (l : List α)
    (s : State) : ∃ m, l.foldl f s = { s with queues := m } := by
  refine List.foldlRecOn (motive := fun t : State => ∃ m, t = { s with queues := m }) l f ⟨s.queues, rfl⟩ fun t ht a _ => ?_
  obtain ⟨m, rfl⟩ := ht
  obtain ⟨m', e⟩ := h { s with queues := m } a
  exact ⟨m', by rw [e]⟩

theorem dropStarts_queues (s : State) (k : Nat) : ∃ m, s.dropStarts k = { s with queues := m } := by
  unfold State.dropStarts
  split
  · exact ⟨s.queues, rfl⟩
  · refine foldl_queues (fun t p => ?_) _ s
    split
    · obtain ⟨m, e⟩ := passBatchStart_queues t p.1
      rw [e]
      exact ⟨_, rfl⟩
    · exact ⟨t.queues, rfl⟩

theorem reschedule_convoys (s : State) (p : Nat) : (s.reschedule p).convoys = s.convoys := by
  have sent : ∀ p c, (s.sendSwitch p c).convoys = s.convoys := fun p c => by
    unfold State.sendSwitch
    refine (List.foldlRecOn (motive := fun t : State => t.convoys = s.convoys) (s.enginesIn p) _ rfl fun t ht e _ => ?_ :)
    exact ht
  unfold State.reschedule
  split
  · rfl
  · split
    · rfl
    · split
      · split <;> rfl
      · split
        · rfl
        · exact sent _ _

/-- A convoy between batches: a release starts its next one, and changes nothing else that its last end left. -/
theorem tryRelease_next {s : State} {k now : Nat} {y : Convoy} (at_ : s.convoy? k = some y) (idle : y.batch = none) :
    ∃ z, (s.tryRelease k now).convoy? k = some z ∧ z.lastEnd = y.lastEnd ∧ ∀ b, z.batch = some b → b.tR = now := by
  have same : ∃ z, s.convoy? k = some z ∧ z.lastEnd = y.lastEnd ∧ ∀ b, z.batch = some b → b.tR = now :=
    ⟨y, at_, rfl, by rw [idle]; exact nofun⟩
  unfold State.tryRelease
  rw [at_]
  dsimp only
  split
  · exact same
  · split
    · unfold State.release
      rw [at_]
      dsimp only
      refine ⟨{ y.applyNext with batch := some { tR := now, diverted := none, decided := [], samples := [] }, pendingEdge := none },
        ?_, ?_, fun b h => by cases h; rfl⟩
      · rw [State.convoy?, reschedule_convoys]
        obtain ⟨m, passed⟩ := foldl_queues (f := fun (s : State) (p : Nat × Queue) => if p.2.atBatchStart then
          s.passBatchStart p.1 else s) (fun t p => by
            split
            · exact passBatchStart_queues t p.1
            · exact ⟨t.queues, rfl⟩) ((s.modConvoy k fun v => { v.applyNext with
              batch := some { tR := now, diverted := none, decided := [], samples := [] }, pendingEdge := none }).queuesOf k)
          (s.modConvoy k fun v => { v.applyNext with
              batch := some { tR := now, diverted := none, decided := [], samples := [] }, pendingEdge := none })
        rw [passed]
        show mget (mmod s.convoys k _) k = _
        rw [mget_mmod, if_pos rfl]
        show (s.convoy? k).map _ = _
        rw [at_]
        rfl
      · show y.applyNext.lastEnd = y.lastEnd
        unfold Convoy.applyNext
        split <;> rfl
    · exact same

/-- A convoy whose batch has ended at some time: its predictor has learned, its next settings may apply (R363, R364). -/
def Convoy.closes (learn : Timed → Timed) (now : Nat) (v : Convoy) : Convoy :=
  let v := { v with batch := none, lastEnd := now, timed := v.timed.map learn }
  match v.timedNext with
  | some none => v.applyNext
  | _ => v

theorem Convoy.closes_idle (learn : Timed → Timed) (now : Nat) (v : Convoy) : (v.closes learn now).batch = none
    ∧ (v.closes learn now).lastEnd = now ∧ (v.closes learn now).pendingEdge = v.pendingEdge := by
  unfold Convoy.closes
  dsimp only
  split
  next settings =>
    unfold Convoy.applyNext
    rw [settings]
    exact ⟨rfl, rfl, rfl⟩
  · exact ⟨rfl, rfl, rfl⟩

/-- What the predictor learns from the samples of a batch (R369). -/
def Batch.teaches (b : Batch) (t : Timed) : Timed :=
  { t with layers := t.layers.map (fun (l : LayerEnt) => match mget b.samples l.layer with
    | some (a, some z) => l.sample (z - a)
    | _ => l) }

/-- The counts of a context whose batch has ended. -/
def State.countBatch (s : State) (ctx : Nat) (late diverted : Bool) : State :=
  let s := if late then s.modAccount ctx (fun a => { a with misses := min (a.misses + 1) 255 }) else s
  if diverted then s.modAccount ctx (fun a => { a with fallbacks := min (a.fallbacks + 1) 255 }) else s

/-- The last BATCH_END of a batch has retired on a queue, and its context's counts have risen. -/
def State.batchCounted (s : State) (q ctx : Nat) (b : Batch) : State :=
  (s.modQueue q (fun v => { v with inBatch := false, batchDone := true })).countBatch ctx (s.batchLate q) b.diverted.isSome

/-- A batch that has ended, before its convoy's next release. -/
def State.batchClosed (s : State) (q ctx k : Nat) (b : Batch) : State :=
  let t := (s.batchCounted q ctx b).modConvoy k (Convoy.closes b.teaches (s.batchCounted q ctx b).fclk)
  ((t.queuesOf k).foldl (fun s p => s.modQueue p.1 (fun v => { v with batchDone := false })) t).dropStarts k

theorem countBatch_rest (s : State) (ctx : Nat) (late diverted : Bool) :
    (∃ a, s.countBatch ctx late diverted = { s with accounts := a })
    ∧ ((s.countBatch ctx late diverted).account ctx).misses
        = if late then min ((s.account ctx).misses + 1) 255 else (s.account ctx).misses := by
  refine ⟨?_, ?_⟩
  · cases late <;> cases diverted
    exacts [⟨s.accounts, rfl⟩, ⟨_, rfl⟩, ⟨_, rfl⟩, ⟨_, rfl⟩]
  · cases late <;> cases diverted <;> simp [State.countBatch, State.account_modAccount]

/-- The last BATCH_END of a batch ends it: a missed deadline counts, and the next batch may be released at once. -/
theorem retireBatchEnd_ends {s : State} {q k : Nat} {x : Convoy} {b : Batch} (batch : s.batchOf q = some (k, x, b)) {tm : Timed}
    (timed : x.timed = some tm) (edge : x.pendingEdge = none) (ends : s.endsBatch q = true) (ctx : Nat) :
    ∃ y, (s.retireBatchEnd q ctx).convoy? k = some y ∧ y.lastEnd = s.fclk ∧ (∀ b', y.batch = some b' → b'.tR = s.fclk)
      ∧ ((s.retireBatchEnd q ctx).account ctx).misses =
          if b.tR + tm.deadline < s.fclk then min ((s.account ctx).misses + 1) 255 else (s.account ctx).misses := by
  obtain ⟨_, _, _, _, at_, _⟩ := State.batchOf_eq_some.1 batch
  have late : s.batchLate q = decide (b.tR + tm.deadline < s.fclk) := by
    unfold State.batchLate
    rw [batch]
    dsimp only
    rw [timed]
  obtain ⟨idle, ended, next⟩ := Convoy.closes_idle b.teaches s.fclk x
  -- the state between the two batches
  obtain ⟨⟨a, counted⟩, misses⟩ := countBatch_rest (s.modQueue q (fun v => { v with inBatch := false, batchDone := true })) ctx
    (s.batchLate q) b.diverted.isSome
  have closed : ∃ m, s.batchClosed q ctx k b = { (s.modQueue q (fun v => { v with inBatch := false, batchDone := true })) with
      accounts := a, convoys := mmod s.convoys k (Convoy.closes b.teaches s.fclk), queues := m } := by
    unfold State.batchClosed State.batchCounted
    rw [counted]
    dsimp only
    obtain ⟨m, reset⟩ := foldl_queues (f := fun (s : State) (p : Nat × Queue) => s.modQueue p.1 fun v => { v with
      batchDone := false }) (fun t p => ⟨_, rfl⟩) _ _
    rw [reset]
    obtain ⟨m', dropped⟩ := dropStarts_queues _ _
    rw [dropped]
    exact ⟨_, rfl⟩
  obtain ⟨m, closed⟩ := closed
  have between : (s.batchClosed q ctx k b).convoy? k = some (x.closes b.teaches s.fclk) := by
    rw [closed]
    show mget (mmod s.convoys k _) k = _
    rw [mget_mmod, if_pos rfl]
    show (s.convoy? k).map _ = _
    rw [at_]
    rfl
  have done : s.retireBatchEnd q ctx = (s.batchClosed q ctx k b).tryRelease k s.fclk := by
    unfold State.retireBatchEnd
    rw [batch, ends]
    dsimp only
    rw [if_neg (by decide)]
    change (match ((s.batchClosed q ctx k b).convoy? k).bind (fun v => v.pendingEdge) with
      | some t => (s.batchClosed q ctx k b).release k t
      | none => (s.batchClosed q ctx k b).tryRelease k (s.batchCounted q ctx b).fclk) = _
    rw [between]
    dsimp only [Option.bind_some]
    rw [next, edge, State.batchCounted, counted] <;> rfl
  rw [done]
  obtain ⟨z, hz, last, began⟩ := tryRelease_next (now := s.fclk) between idle
  refine ⟨z, hz, last.trans ended, began, ?_⟩
  obtain ⟨_, _, _, _, kept⟩ := (tryRelease_arranged (s.batchClosed q ctx k b) k s.fclk).rest
  rw [kept, closed]
  rw [counted, late] at misses
  simp only [decide_eq_true_eq] at misses
  exact misses

theorem Accessed.fclk {s t : State} (h : Accessed s t) : t.fclk = s.fclk := by
  obtain ⟨_, _, _, rfl⟩ := h
  rfl
theorem Accessed.convoy? {s t : State} (h : Accessed s t) (k : Nat) : t.convoy? k = s.convoy? k := by
  obtain ⟨_, _, _, rfl⟩ := h
  rfl

/-- R364 to R367: the retirement of the BATCH_END that is a batch's last. -/
theorem commandRetire_endsBatch (queue : Half) (s : State) (v : Queue) (c : Cmd) (cs : List Cmd)
    (found : s.queue? queue.toNat = some v) (front : v.cmds = c :: cs) (sound : ∀ p ∈ s.passes, s.passFailed p.2 = false)
    (e k : Nat) (x : Convoy) (b : Batch) (tm : Timed) (works : s.working = true) (over_ : c.st = .ended e)
    (unsent : c.signalled = false) (settled : s.writesOwed v = false) (end_ : c.opcode = 0x34) (ring : c.inStream = false)
    (going : c.stops = false) (silent : ∀ g, signalOf c.opcode c.payload = some g → g.enable = false)
    (batch : s.batchOf queue.toNat = some (k, x, b)) (timed : x.timed = some tm) (edge : x.pendingEdge = none)
    (ends : s.endsBatch queue.toNat = true) :
    ∃ t y, exec (.commandRetire queue) s = .next t ∧ t.convoy? k = some y ∧ y.lastEnd = s.fclk
      ∧ (∀ b', y.batch = some b' → b'.tR = s.fclk)
      ∧ (t.account (ctxOfWaybill c.waybill)).misses =
          if b.tR + tm.deadline < s.fclk then min ((s.account (ctxOfWaybill c.waybill)).misses + 1) 255
          else (s.account (ctxOfWaybill c.waybill)).misses := by
  generalize hl : s.retireLate queue.toNat c = late
  generalize hf : s.finalError c late = err
  have wrote := recordOf_accessed s queue.toNat v c err late
  generalize hr : s.recordOf queue.toNat v c err late = r at wrote
  obtain ⟨lost, s1⟩ := r
  generalize hm : s1.modCmd queue.toNat c.index (fun c => { c with st := .ended err }) = u
  have marked : Released s1 u := by
    rw [← hm]
    refine .modCmd ?_ s1 _ _
    exact fun _ => rfl
  -- no signal is sent
  obtain ⟨_, signal, _, quiet, _⟩ := performSignal_local u queue.toNat c lost
    (fun g has on => absurd (silent g has) (by rw [on]; decide))
  rw [quiet fun g has => .inl (silent g has)] at signal
  have run := commandRetire_course found front sound works over_ unsent settled hl hf (by rw [hr, hm]; exact signal)
  rw [hr] at run
  rw [finishRetire_eq, if_pos (by simp [end_, ring, going])] at run
  -- the batch, before and after the other actions
  obtain ⟨_, _, rest⟩ := marked.rest
  obtain ⟨v', found', inBatch, joined, convoy, has⟩ := State.batchOf_eq_some.1 batch
  cases found.symm.trans found'
  obtain ⟨w, hw, vw⟩ := marked.queue queue.toNat v (by rw [State.queue?, wrote.queues]; exact found)
  obtain ⟨l, rfl, _⟩ := vw
  have batch_u : u.batchOf queue.toNat = some (k, x, b) := State.batchOf_eq_some.2
    ⟨_, hw, inBatch, joined, by rw [rest]; exact (wrote.convoy? k).trans convoy, has⟩
  obtain ⟨b', noted, start⟩ := noteLayer_batch batch_u c true
  have told : u.stopTold queue.toNat v c err lost = u := by
    rw [State.stopTold, going]
    rfl
  obtain ⟨_, _, _, _, _, _, _, shape⟩ := concluded_rest u queue.toNat v c err lost
  rw [told] at shape
  have batch_t : (u.concluded queue.toNat v c err lost).batchOf queue.toNat = some (k, { x with batch := some b' }, b') :=
    State.batchOf_eq_some.2 ⟨Queue.drops c err { v with cmds := l },
      by rw [queue?_concluded, hw]; rfl, inBatch, joined, by rw [shape]; exact noted, rfl⟩
  have ends_t : (u.concluded queue.toNat v c err lost).endsBatch queue.toNat = true := by
    refine endsBatch_kept batch batch_t (fun p member => ?_) ends
    rw [shape] at member
    refine (mem_mmod member).elim .inl fun member => ?_
    rw [← hm] at member
    refine (mem_mmod member).imp_right fun member => ?_
    rwa [wrote.queues] at member
  obtain ⟨y, hy, last, began, misses⟩ := retireBatchEnd_ends batch_t timed edge ends_t (ctxOfWaybill c.waybill)
  have now : (u.concluded queue.toNat v c err lost).fclk = s.fclk := by
    rw [State.fclk, State.count, (concluded_kept u queue.toNat v c err lost).2.2.2, rest]
    exact wrote.fclk
  have before : ((u.concluded queue.toNat v c err lost).account (ctxOfWaybill c.waybill)).misses
      = (s.account (ctxOfWaybill c.waybill)).misses := by
    rw [(concluded_accounts u queue.toNat v c err lost).2, rest]
    exact congrArg Account.misses (wrote.account _)
  rw [now] at last began misses
  rw [before, start] at misses
  exact ⟨_, y, run, hy, last, began, misses⟩

/-- R306, R252: a write to one queue's doorbell. -/
theorem doorbell_takes (q : Half) (data : List Byte) (s : State) (opened : HostOpen s)
    (inside : 64 * q.toNat + data.length ≤ 2 ^ 18) (some_ : data ≠ []) :
    let i := Instr.doorbell (64 * q.toNat) data
    let value := BitVec.ofNat 32 (getLe data 0 4)
    let dropped := { s with host := { s.host with doorbellDrop := satInc s.host.doorbellDrop } }
    (data.length < 4 → ∃ t, exec i s = .next t ∧ t.host.writeLost = satInc s.host.writeLost
      ∧ t.host.lastLost = s.host.lastLost ∧ { t with host := s.host } = s)
    ∧ (4 ≤ data.length → s.queue? q.toNat = none → exec i s = .next dropped)
    ∧ (4 ≤ data.length → ∀ v, s.queue? q.toNat = some v →
      (2 ^ v.sizeLog < (value - v.head).toNat → exec i s = .next dropped)
      ∧ ((value - v.head).toNat ≤ 2 ^ v.sizeLog → (value - v.head).toNat < (v.tail - v.head).toNat → exec i s = .next s)
      ∧ ((value - v.head).toNat ≤ 2 ^ v.sizeLog → (v.tail - v.head).toNat ≤ (value - v.head).toNat →
        (∃ t w, exec i s = .next t ∧ t.queue? q.toNat = some w ∧ w.tail = value ∧ w.head = v.head ∧ w.last = v.last
          ∧ t.mem = s.mem ∧ t.host = s.host)
        ∧ ((∀ c x, v.convoy = some c → s.convoy? c = some x → x.timed = none) →
          exec i s = .next { s with queues := mset s.queues q.toNat { v with
            tail := value, rung := v.rung ++ [(value, s.fclk)] } }))) := by
  intro i value dropped
  have run := exec_doorbell opened inside some_
  refine ⟨fun short => ?_, fun long absent => ?_, fun long v found => ?_⟩
  · rw [if_neg (by omega)] at run
    exact ⟨_, run, lostWrite_bar2 _ _ _⟩
  · rw [if_pos long, State.ringDoorbell, absent] at run
    exact run
  · rw [if_pos long] at run
    refine ⟨fun far => ?_, fun near behind => ?_, fun near ahead => ?_⟩
    · rw [ringDoorbell_beyond found far] at run
      exact run
    · rw [ringDoorbell_behind found near behind] at run
      exact run
    · obtain ⟨⟨w, moved⟩, plain⟩ := ringDoorbell_tail found near ahead
      exact ⟨⟨_, w, run, moved⟩, fun untimed => by rw [run, plain untimed]⟩

/-- Settles O49: a doorbell moves the tail alone, whatever release it brings; the fetcher's branches are those of the
statement, each a lemma of its own; and a retirement's record, signal, interrupt, use counts and accounts concern parts of
the state that its later actions leave alone. -/
theorem queuesTakeFetchAndRetireInOrder : Obligations.QueuesTakeFetchAndRetireInOrder := by
  unfold Obligations.QueuesTakeFetchAndRetireInOrder
  refine ⟨doorbell_takes, ?accept, ?retire⟩
  case accept =>
    intro queue entries ext s v q i found
    refine ⟨fun idle => commandAccept_waits found ext idle, fun may some_ main =>
      ⟨fun k l pte va s1 read kept => ?_, fun s1 read kept => ?_, fun b rest s1 read kept => ?_⟩⟩
    · obtain ⟨id, stalls⟩ := endFetch_fault kept v k l pte va
      exact ⟨_, id, commandAccept_unread found ext may some_ read, stalls⟩
    · exact ⟨_, commandAccept_unread found ext may some_ read, stopFetch_stops kept main none 0x0108⟩
    · intro h
      refine ⟨fun short => commandAccept_partial found ext may some_ read short, fun long p s2 payload kept2 => ?_⟩
      obtain ⟨malformed, duplicate, new⟩ := commandAccept_takes queue entries ext s v found may some_ main b rest s1 read long p
        s2 payload kept2
      refine ⟨malformed, duplicate, fun formed after before bare plain => ?_⟩
      obtain ⟨w, accepted⟩ := accept_main kept2 main h p h.handles plain
      exact ⟨_, w, new formed after before bare, accepted⟩
  case retire =>
    intro queue s v c cs q i at_ found front sound
    refine ⟨fun early => commandRetire_waits found front sound early,
      fun e g works over_ unsent settled sig here plain => ?_, commandRetire_endsBatch queue s v c cs found front sound⟩
    subst sig
    obtain ⟨t, w, run, mine, left, raises, quiet, mem, logbook, told, uses, counted⟩ :=
      commandRetire_retires queue s v c cs found front sound e works over_ unsent settled here plain
    obtain ⟨unrecorded, recorded⟩ := recordOf_memory s q v c e
    refine ⟨t, w, run, mine, left, raises, quiet, fun none => mem.trans (unrecorded none), fun has => ?_, told, uses, counted⟩
    obtain ⟨written, lost⟩ := recorded has
    refine ⟨fun s1 wrote => mem.trans (written s1 wrote), fun f s1 wrote => ?_⟩
    obtain ⟨bytes, logged⟩ := lost f s1 wrote
    exact ⟨mem.trans bytes, logged.of_logbook logbook⟩

end Sys2Proof.Machine

/-! ## Address spaces, memory objects and heaps (R183, R191, R201 to R212, R571) -/

namespace Sys2Proof.Machine

set_option Elab.async false

/-! ### Tables and local memory -/

/-- Two states that differ at most in traffic and in the pages that hold translation tables. -/
def Tabled (s t : State) : Prop := ∃ x l, t = { s.carry x with mmu := { (s.carry x).mmu with tables := l } }

theorem Accessed.tabled {s t : State} (h : Accessed s t) : Tabled s t := by
  obtain ⟨x, _, _, rfl⟩ := h
  exact ⟨x, s.mmu.tables, rfl⟩
theorem Tabled.refl (s : State) : Tabled s s := (Accessed.refl s).tabled
theorem Tabled.trans {s t u : State} (a : Tabled s t) (b : Tabled t u) : Tabled s u := by
  obtain ⟨_, _, rfl⟩ := a
  obtain ⟨y, l, rfl⟩ := b
  exact ⟨y, l, rfl⟩
theorem Tabled.tables (s : State) (l : List Nat) : Tabled s { s with mmu := { s.mmu with tables := l } } :=
  ⟨s.traffic, l, rfl⟩
theorem Tabled.loop {f : State → Nat → State} (h : ∀ s i, Tabled s (f s i)) (n : Nat) (s : State) : Tabled s (loop n s f) :=
  List.foldlRecOn (motive := Tabled s) (List.range n) f (.refl s) fun t ht i _ => ht.trans (h t i)

theorem newTable_tabled {s t : State} {a : Nat} (h : s.newTable = some (a, t)) : Tabled s t := by
  unfold State.newTable at h
  obtain ⟨b, _, e⟩ := Option.map_eq_some_iff.1 h
  cases e
  exact ((s.zeroPhys_accessed a 4096).trans (State.writePhys_accessed _ _ _ _)).tabled.trans (.tables _ _)

theorem tableAt_tabled {va level : Nat} (n : Nat) : ∀ {s t : State} {table a : Nat},
    s.tableAt va level n table = some (a, t) → Tabled s t := by
  induction n with
  | zero =>
    intro s t table a h
    cases h
    exact .refl s
  | succ n ih =>
    intro s t table a h
    unfold State.tableAt at h
    dsimp only at h
    split at h
    · exact ih h
    · split at h
      · cases h
      next new => exact ((newTable_tabled new).trans (State.writePhys_accessed _ _ _ _).tabled).trans (ih h)

theorem mapPage_tabled {s t : State} {root va page addr flags : Nat} (h : s.mapPage root va page addr flags = some t) :
    Tabled s t := by
  unfold State.mapPage at h
  dsimp only at h
  split at h
  · cases h
  next table =>
    have found := tableAt_tabled _ table
    split at h
    · rw [← Option.some.inj h]
      exact found.trans (.loop (fun _ _ => (State.writePhys_accessed _ _ _ _).tabled) 16 _)
    · rw [← Option.some.inj h]
      exact found.trans (State.writePhys_accessed _ _ _ _).tabled

theorem mapPages_tabled {root page flags : Nat} (l : List Nat) : ∀ {s t : State} {va : Nat},
    s.mapPages root va page flags l = some t → Tabled s t := by
  induction l with
  | nil =>
    intro s t va h
    cases h
    exact .refl s
  | cons a l ih =>
    intro s t va h
    unfold State.mapPages at h
    split at h
    · cases h
    next one => exact (mapPage_tabled one).trans (ih h)

theorem unmapPage_tabled (s : State) (root va page : Nat) : Tabled s (s.unmapPage root va page) := by
  unfold State.unmapPage
  dsimp only
  split
  · exact .refl s
  next table =>
    have found := tableAt_tabled _ table
    split
    · exact found.trans (.loop (fun _ _ => (State.writePhys_accessed _ _ _ _).tabled) 16 _)
    · exact found.trans (State.writePhys_accessed _ _ _ _).tabled

theorem invalidate_accessed (s : State) (asid va n : Nat) : Accessed s (s.invalidate asid va n) :=
  ⟨{ s.traffic with utlbs := _, stlb := _, walk := _ }, ⟨rfl, rfl⟩, fun _ h => h, rfl⟩

theorem unmapPages_tabled (s : State) (asid root va page n : Nat) : Tabled s (s.unmapPages asid root va page n) :=
  (Tabled.loop (fun t i => unmapPage_tabled t root (va + i * pageCode page) page) n s).trans
    (invalidate_accessed _ asid va (n * pageCode page)).tabled

theorem askDie_accessed (s : State) (die : Nat) (data : List Byte) : Accessed s (s.askDie die data) := by
  unfold State.askDie
  split
  · exact State.cvlEmit_accessed _ _ _ _ _ _ _ _ _ _ _ _
  · exact .refl s

/-- A write of no bytes leaves local memory's. -/
theorem writePhys_nil_cells (s : State) (a pol : Nat) : (s.writePhys a [] pol).mem.cells = s.mem.cells := by
  unfold State.writePhys
  split
  · exact (CacheOnly.foldl (fun s p => s.lineWrite_cacheOnly _ _ _) _ s).cells
  · dsimp only
    split
    · exact congrArg Mem.cells (s.bump_mem _ _ _ _)
    · show (s.bump blkL2C _ 6 1).mem.cells = _
      rw [s.bump_mem]
  · exact congrArg Mem.cells (s.report_mem _ _ _ _ _)
  · exact congrArg Mem.cells (s.report_mem _ _ _ _ _)

/-- A byte that no cell lists reads as zero. -/
theorem memGet_unlisted {m : List Host.Cell} {a : Nat} (h : ∀ c ∈ m, c.1 ≠ a) : memGet m a = 0 := by
  induction m with
  | nil => rfl
  | cons c m ih =>
    unfold memGet
    rw [if_neg (h c List.mem_cons_self)]
    split
    · rfl
    · exact ih fun d hd => h d (List.mem_cons_of_mem _ hd)

/-- Zeroed memory reads as zero, whatever its cells were. -/
theorem memGet_zeroed {m : List Host.Cell} {a n x : Nat} (low : a ≤ x) (high : x < a + n) : memGet (memZero m a n) x = 0 := by
  refine memGet_unlisted fun c hc e => ?_
  have out := (List.mem_filter.1 hc).2
  rw [e] at out
  simp at out
  omega

/-! ### Free numbers -/

theorem mhas_eq_false {α : Type} {m : Map α} {k : Nat} : mhas m k = false ↔ mget m k = none := by
  simp [mhas]

theorem firstFree_none {α : Type} {m : Map α} (n : Nat) : ∀ {lo : Nat}, firstFree m lo n = none →
    ∀ k, lo ≤ k → k < lo + n → mhas m k = true := by
  induction n with
  | zero => exact fun _ k low high => absurd high (by omega)
  | succ n ih =>
    intro lo h k low high
    unfold firstFree at h
    split at h
    next taken =>
      by_cases first : k = lo
      · exact first ▸ taken
      · exact ih h k (by omega) (by omega)
    · cases h

/-- The device picks a free number where there is one. -/
theorem State.pick_free {α : Type} {s : State} {m : Map α} {n k : Nat} (positive : 0 < n) {t : State}
    (h : s.pick m 0 n = some (k, t)) : k < n ∧ mget m k = none ∧ t = s.drew 1 := by
  unfold State.pick at h
  dsimp only at h
  split at h
  next free =>
    cases h
    exact ⟨by simpa using Nat.mod_lt (s.peek 0) positive, mhas_eq_false.1 (by simpa using free), rfl⟩
  · obtain ⟨j, first, e⟩ := Option.map_eq_some_iff.1 h
    cases e
    obtain ⟨below, free⟩ := firstFree_free n first
    exact ⟨by omega, free, rfl⟩

theorem State.pick_none {α : Type} {s : State} {m : Map α} {n : Nat} :
    s.pick m 0 n = none → ∀ k, k < n → mhas m k = true := by
  intro h k below
  unfold State.pick at h
  dsimp only at h
  split at h
  · cases h
  · exact firstFree_none n (Option.map_eq_none_iff.1 h) k (by omega) (by omega)

theorem State.pick_taken {α : Type} {s : State} {m : Map α} {n : Nat} (positive : 0 < n)
    (all : ∀ k, k < n → mhas m k = true) : s.pick m 0 n = none := by
  cases h : s.pick m 0 n with
  | none => rfl
  | some p =>
    obtain ⟨below, free, _⟩ := State.pick_free positive h
    have taken := all p.1 below
    rw [mhas_eq_false.2 free] at taken
    cases taken

theorem State.freeHandle_free {s : State} {h : Nat} (found : s.freeHandle = some h) : mget s.mmu.objs h = none := by
  unfold State.freeHandle at found
  split at found
  next first =>
    cases found
    exact (firstFree_free _ first).2
  · exact (firstFree_free _ found).2

/-! ### Reservations of local memory (R571) -/

theorem findRange_fits {s : State} {lo hi n align a : Nat} (h : s.findRange lo hi n align = some a) :
    a + n ≤ hi ∧ ∀ z ∈ s.mmu.reserved, a + n ≤ z.1 ∨ z.1 + z.2 ≤ a := by
  have fits : (decide (lo ≤ a) && decide (a + n ≤ hi) && s.rangeFree a n) = true := by
    unfold State.findRange at h
    dsimp only at h
    split at h
    next ok =>
      cases h
      exact ok
    · have least : ∀ (l : List Nat) (b : Option Nat), l.foldl (fun b a => match b with | none => some a | some x => some (min x a)) b
          = some a → b = some a ∨ a ∈ l := by
        intro l
        induction l with
        | nil => exact fun b h => .inl h
        | cons c l ih =>
          intro b h
          rcases ih _ h with found | found
          · cases b with
            | none =>
              cases found
              exact .inr List.mem_cons_self
            | some x =>
              have least : min x c = a := Option.some.inj found
              rcases min_choice x c with e | e
              · exact .inl (congrArg some (e.symm.trans least))
              · exact .inr (e.symm.trans least ▸ List.mem_cons_self)
          · exact .inr (List.mem_cons_of_mem _ found)
      rcases least _ _ h with none | member
      · cases none
      · exact (List.mem_filter.1 member).2
  simp only [Bool.and_eq_true, decide_eq_true_eq, State.rangeFree, List.all_eq_true, Bool.or_eq_true] at fits
  exact ⟨fits.1.2, fits.2⟩

theorem reserve_range {s t : State} {n align a : Nat} (h : s.reserve n align = some (a, t)) :
    a + n ≤ min s.mmu.ptBase s.mem.capacity ∧ (∀ z ∈ s.mmu.reserved, a + n ≤ z.1 ∨ z.1 + z.2 ≤ a)
    ∧ t = { s with mmu := { s.mmu with reserved := (a, n) :: s.mmu.reserved } }.drew 1 := by
  unfold State.reserve at h
  obtain ⟨b, found, e⟩ := Option.map_eq_some_iff.1 h
  cases e
  obtain ⟨below, apart⟩ := findRange_fits found
  exact ⟨below, apart, rfl⟩

theorem reserveSr_state {s t : State} {n align a : Nat} (h : s.reserveSr n align = some (a, t)) :
    t = { s with mmu := { s.mmu with reserved := (a, n) :: s.mmu.reserved } }.drew 1 := by
  unfold State.reserveSr at h
  obtain ⟨b, found, e⟩ := Option.map_eq_some_iff.1 h
  cases e
  rfl

section

variable {s : State} {pair : Fin 8} {r : Req} {x : Session}

/-! ### Address spaces (R183, R191) -/

theorem exec_asidCreate (pair : Fin 8) (s : State) : exec (.asidCreate pair) s = execAsidCreate pair s := rfl

/-- A page of the region for a table: zeroed, and no other. -/
theorem newTable_zeroed {s : State} {a : Nat} (free : s.freeTable = some a) : ∃ t, s.newTable = some (a, t) ∧ Tabled s t
    ∧ a ∈ t.mmu.tables ∧ ∀ k, a ≤ k → k < a + 4096 → memGet t.mem.cells k = 0 := by
  have new : s.newTable = some (a, (fun s : State => { s with mmu := { s.mmu with tables := a :: s.mmu.tables } })
      ((s.zeroPhys a 4096).writePhys a [] 0)) := by
    unfold State.newTable
    rw [free]
    rfl
  refine ⟨_, new, newTable_tabled new, List.mem_cons_self, fun k low high => ?_⟩
  show memGet ((s.zeroPhys a 4096).writePhys a [] 0).mem.cells k = 0
  rw [writePhys_nil_cells]
  exact memGet_zeroed low high

theorem asidCreate_acts (served : Serves (.asidCreate pair) s r x) :
    let i := Instr.asidCreate pair
    (15 < r.n 0x10 1 → FailsWith i s r 0x0003)
    ∧ (r.n 0x10 1 ≤ 15 → (∀ k, k < 65535 → mhas s.mmu.asids k = true) → FailsWith i s r 0x000F)
    ∧ (r.n 0x10 1 ≤ 15 → (∃ k, k < 65535 ∧ mhas s.mmu.asids k = false) →
      (s.freeTable = none → FailsWith i s r 0x0204)
      ∧ (∀ root, s.freeTable = some root → ∃ k u, k < 65535 ∧ mget s.mmu.asids k = none
        ∧ Succeeds i s u r 0 (result [(0x10, 2, k)]) ∧ mget u.mmu.asids k = some { ring := r.n 0x10 1, root := root }
        ∧ (∀ j, j ≠ k → mget u.mmu.asids j = mget s.mmu.asids j) ∧ root ∈ u.mmu.tables
        ∧ (∀ a, root ≤ a → a < root + 4096 → memGet u.mem.cells a = 0) ∧ u.mmu.objs = s.mmu.objs ∧ u.queues = s.queues)) := by
  obtain ⟨m, row, h⟩ := served
  cases row
  intro i
  refine ⟨fun high => ?_, fun ok full => ?_, fun ok room => ?_⟩
  · exact exec_responds (a := .err 0x0003) (exec_asidCreate pair s) h (by decide) (if_pos high)
  · refine exec_responds (a := .err 0x000F) (exec_asidCreate pair s) h (by decide) ((if_neg (Nat.not_lt.2 ok)).trans ?_)
    rw [State.pick_taken (by decide) full]
    rfl
  · obtain ⟨k, below, free⟩ := room
    cases picked : s.pick s.mmu.asids 0 65535 with
    | none =>
      have taken := State.pick_none picked k below
      rw [free] at taken
      cases taken
    | some p =>
      obtain ⟨k, t⟩ := p
      obtain ⟨below, free, rfl⟩ := State.pick_free (by decide) picked
      refine ⟨fun out => ?_, fun root found => ?_⟩
      · refine exec_responds (a := .err 0x0204) (exec_asidCreate pair s) h (by decide) ((if_neg (Nat.not_lt.2 ok)).trans ?_)
        rw [picked]
        have full : (s.drew 1).newTable = none := by
          unfold State.newTable
          rw [show (s.drew 1).freeTable = s.freeTable from rfl, out]
          rfl
        dsimp only
        rw [full]
        rfl
      · obtain ⟨t, new, tabled, member, zeroed⟩ := newTable_zeroed (s := s.drew 1) (a := root) found
        refine ⟨k, { t with mmu := { t.mmu with asids := mset t.mmu.asids k { ring := r.n 0x10 1, root := root } } }, below, free,
          exec_responds (a := .ok (result [(0x10, 2, k)]) 0) (exec_asidCreate pair s) h (by decide)
            ((if_neg (Nat.not_lt.2 ok)).trans ?_), mget_mset_self _ _ _, fun j other => ?_, member, zeroed, ?_, ?_⟩
        · rw [picked]
          dsimp only
          rw [new]
        · obtain ⟨_, _, rfl⟩ := tabled
          exact mget_mset_ne _ _ other
        · obtain ⟨_, _, rfl⟩ := tabled
          rfl
        · obtain ⟨_, _, rfl⟩ := tabled
          rfl

theorem exec_asidDestroy (pair : Fin 8) (s : State) : exec (.asidDestroy pair) s = execAsidDestroy pair s := rfl

/-- A cached translation of an address space does not outlive the invalidation of all its addresses. -/
theorem invalidate_forgets {l : Map (List TlbEnt)} {k agent : Nat} {e : TlbEnt}
    (h : e ∈ mgetD (mmap l (fun _ l => l.filter (fun (e : TlbEnt) => !(e.asid = k && e.va < 0 + 2 ^ 48 && 0 < e.va + e.bytes))))
      agent []) (low : e.va < 2 ^ 48) (some_ : 0 < e.bytes) : e.asid ≠ k := by
  intro same
  rw [mgetD, mget_mmap] at h
  cases found : mget l agent with
  | none =>
    rw [found] at h
    cases h
  | some es =>
    rw [found] at h
    have kept := (List.mem_filter.1 h).2
    simp [same] at kept
    omega

theorem asidDestroy_acts (served : Serves (.asidDestroy pair) s r x) :
    let i := Instr.asidDestroy pair
    let k := r.n 0x10 2
    let busy := (∃ q ∈ s.queues, q.2.asid = k) ∨ ∃ o ∈ s.mmu.objs, o.2.asid = k
    (k = 0xFFFF → FailsWith i s r 0x0003) ∧ (k ≠ 0xFFFF → mget s.mmu.asids k = none → FailsWith i s r 0x000E)
    ∧ (k ≠ 0xFFFF → mhas s.mmu.asids k = true →
      (busy → FailsWith i s r 0x0207)
      ∧ (¬ busy → ∃ u, Succeeds i s u r 0 (zeros 48) ∧ mget u.mmu.asids k = none
        ∧ (∀ j, j ≠ k → mget u.mmu.asids j = mget s.mmu.asids j) ∧ (∀ t ∈ u.mmu.tables, t ∈ s.mmu.tables)
        ∧ (∀ agent, ∀ e ∈ mgetD u.mmu.utlbs agent [], e.va < 2 ^ 48 → 0 < e.bytes → e.asid ≠ k)
        ∧ (∀ bank, ∀ e ∈ mgetD u.mmu.stlb bank [], e.va < 2 ^ 48 → 0 < e.bytes → e.asid ≠ k)
        ∧ { u with mmu := s.mmu } = s)) := by
  obtain ⟨m, row, h⟩ := served
  cases row
  intro i k busy
  have names : (s.queues.any (fun p => p.2.asid = k) || s.mmu.objs.any (fun p => p.2.asid = k)) = true ↔ busy := by
    simp [busy]
  refine ⟨fun all => ?_, fun one absent => ?_, fun one there => ⟨fun used => ?_, fun unused => ?_⟩⟩
  · exact exec_responds (a := .err 0x0003) (exec_asidDestroy pair s) h (by decide) (if_pos all)
  · refine exec_responds (a := .err 0x000E) (exec_asidDestroy pair s) h (by decide) ((if_neg one).trans (if_pos ?_))
    rw [mhas_eq_false.2 absent]
    rfl
  · exact exec_responds (a := .err 0x0207) (exec_asidDestroy pair s) h (by decide)
      ((if_neg one).trans ((if_neg (by rw [there]; decide)).trans (if_pos (names.2 used))))
  · obtain ⟨a, found⟩ := Option.isSome_iff_exists.1 there
    have dropped : s.dropAsid k = { s.invalidate k 0 (2 ^ 48) with mmu := { (s.invalidate k 0 (2 ^ 48)).mmu with
        asids := merase s.mmu.asids k
        tables := s.mmu.tables.filter (fun t => !(s.tablesUnder 3 a.root).contains t)
        heaps := s.mmu.heaps.filter (fun p => p.1 / 256 ≠ k) } } := by
      unfold State.dropAsid
      rw [found]
      rfl
    refine ⟨s.dropAsid k, exec_responds (a := .ok (zeros 48) 0) (exec_asidDestroy pair s) h (by decide)
      ((if_neg one).trans ((if_neg (by rw [there]; decide)).trans (if_neg (mt names.1 unused)))), ?_, fun j other => ?_,
      fun t member => ?_, fun agent e member => ?_, fun bank e member => ?_, ?_⟩
    · rw [dropped]
      exact (mget_merase _ _ _).trans (if_pos rfl)
    · rw [dropped]
      exact (mget_merase _ _ _).trans (if_neg other)
    · rw [dropped] at member
      exact (List.mem_filter.1 member).1
    · rw [dropped] at member
      exact invalidate_forgets member
    · rw [dropped] at member
      exact invalidate_forgets member
    · rw [dropped]
      rfl

end

section

variable {s : State} {pair : Fin 8} {r : Req} {x : Session}

/-! ### Memory objects (R201, R202, R206) -/

theorem exec_objCreate (pair : Fin 8) (buf : Option (List Byte)) (s : State) :
    exec (.objCreate pair buf) s = execObjCreate pair buf s := rfl

/-- Two states that differ at most in traffic and in what is reserved. -/
def Backed (s t : State) : Prop := ∃ x l, t = { s.carry x with mmu := { (s.carry x).mmu with reserved := l } }

theorem Backed.ofAccessed {s t : State} (h : Accessed s t) : Backed s t := by
  obtain ⟨x, _, _, rfl⟩ := h
  exact ⟨x, s.mmu.reserved, rfl⟩

theorem Backed.reserved (s : State) (l : List (Nat × Nat)) : Backed s ({ s with mmu := { s.mmu with reserved := l } }.drew 1) :=
  ⟨{ s.traffic with fresh := s.clk.fresh + 1 }, l, rfl⟩

/-- A new backing: of the placement asked for, in local memory that nothing else holds (R201, R571). -/
theorem newBacking_backs {placement die size page : Nat} {ext : Option (List Byte)} {b : Backing} {t : State}
    (h : s.newBacking placement die size page ext = .ok (b, t)) : Backed s t ∧ b.placement = placement
      ∧ (placement = 0 → b.size = size ∧ b.base + size ≤ min s.mmu.ptBase s.mem.capacity
          ∧ ∀ z ∈ s.mmu.reserved, b.base + size ≤ z.1 ∨ z.1 + z.2 ≤ b.base) := by
  unfold State.newBacking at h
  dsimp only at h
  split at h
  · split at h
    next a u found =>
      cases h
      obtain ⟨below, apart, rfl⟩ := reserve_range found
      exact ⟨.reserved s _, rfl, fun _ => ⟨rfl, below, apart⟩⟩
    · cases h
  · split at h
    next a u found =>
      cases h
      obtain rfl := reserveSr_state found
      exact ⟨.reserved s _, rfl, fun e => absurd e one_ne_zero⟩
    · cases h
  · split at h
    · cases h
    · split_ifs at h
      cases h
      exact ⟨.ofAccessed (.refl s), rfl, fun e => absurd e two_ne_zero⟩
  next local_ _ _ =>
    split at h
    · cases h
    · split_ifs at h
      cases h
      exact ⟨.ofAccessed (askDie_accessed s _ _), rfl, fun e => absurd e local_⟩

/-- Mapping an object adds it, and changes tables and traffic alone otherwise. -/
theorem mapObj_maps {o : Obj} {h : Nat} {b : Backing} {t : State} (mapped : s.mapObj o h b = some t) :
    ∃ u, Tabled s u ∧ t = { u with mmu := { u.mmu with objs := mset u.mmu.objs h o, nextHandle := (h + 1) % 2 ^ 20 } } := by
  unfold State.mapObj at mapped
  split at mapped
  · cases mapped
  · obtain ⟨u, pages, e⟩ := Option.map_eq_some_iff.1 mapped
    exact ⟨u, mapPages_tabled _ pages, e.symm⟩

/-- The parameters of an OBJ_CREATE, checked (R201). -/
def State.objFormed (s : State) (r : Req) : Prop :=
  r.n 0x12 1 ≤ 3 ∧ r.n 0x14 1 ≤ 3 ∧ r.n 0x15 1 ≤ 3 ∧ r.n 0x16 1 ≤ 2
    ∧ s.rangeOk (r.n 0x10 2) (r.n 0x18 8) (r.n 0x20 8) (r.n 0x14 1) = true
    ∧ (r.n 0x12 1 = 3 → r.n 0x13 1 ≠ s.caravan.die ∧ ∃ d, mget s.caravan.topo (r.n 0x13 1) = some d ∧ d.st = 1)

/-- Is a die an alive member of the caravan? -/
def State.memberDie (s : State) (die : Nat) : Bool := match mget s.caravan.topo die with
  | some t => t.st = 1
  | none => false

theorem memberDie_iff (s : State) (die : Nat) : s.memberDie die = true ↔ ∃ d, mget s.caravan.topo die = some d ∧ d.st = 1 := by
  unfold State.memberDie
  cases mget s.caravan.topo die <;> simp

theorem objFormed_iff (s : State) (r : Req) : (decide (3 < r.n 0x12 1) || decide (3 < r.n 0x14 1) || decide (3 < r.n 0x15 1)
      || decide (3 ≤ r.n 0x16 1) || !s.rangeOk (r.n 0x10 2) (r.n 0x18 8) (r.n 0x20 8) (r.n 0x14 1)
      || (decide (r.n 0x12 1 = 3) && (decide (r.n 0x13 1 = s.caravan.die) || !s.memberDie (r.n 0x13 1)))) = false
      ↔ s.objFormed r := by
  unfold State.objFormed
  rw [← memberDie_iff, ← Nat.lt_succ_iff (n := 2)]
  simp [and_assoc]

/-- The state with a backing under its next number. -/
def State.withBacking (s : State) (b : Backing) : State :=
  { s with mmu := { s.mmu with backings := mset s.mmu.backings s.mmu.nextBacking b, nextBacking := s.mmu.nextBacking + 1 } }

/-- The answer of a command that maps a new object in a state t, and fails in s when the page-table region is full. -/
def State.mapAnswer (s t : State) (o : Obj) (h : Nat) (b : Backing) : Ans × State :=
  match t.mapObj o h b with
  | none => (.err eNoTableSpace, s)
  | some u => (.ok (result [(0x10, 4, h)]) 0, u)

theorem State.mapAnswer_none {s t : State} {o : Obj} {h : Nat} {b : Backing} (full : t.mapObj o h b = none) :
    s.mapAnswer t o h b = (.err eNoTableSpace, s) := by
  rw [mapAnswer, full]

theorem State.mapAnswer_some {s t u : State} {o : Obj} {h : Nat} {b : Backing} (mapped : t.mapObj o h b = some u) :
    s.mapAnswer t o h b = (.ok (result [(0x10, 4, h)]) 0, u) := by
  rw [mapAnswer, mapped]

/-- The object that an OBJ_CREATE makes of a backing. -/
def Req.newObj (r : Req) (key : Nat) : Obj :=
  ⟨r.n 0x10 2, r.n 0x18 8, r.n 0x20 8, r.n 0x14 1, r.n 0x15 1, r.n 0x16 1, key, .live, 0, [], none⟩

section

variable {buf : Option (List Byte)} (served : Served s ⟨pair, 0x0310, fun _ => true⟩ r x)

include served

theorem objCreate_noSpace (absent : mget s.mmu.asids (r.n 0x10 2) = none) : FailsWith (.objCreate pair buf) s r 0x000E := by
  refine exec_responds (a := .err 0x000E) (exec_objCreate pair buf s) served (by decide) (if_pos ?_)
  rw [mhas_eq_false.2 absent]
  rfl

variable (there : mhas s.mmu.asids (r.n 0x10 2) = true)

include there

theorem objCreate_malformed (bad : ¬ s.objFormed r) : FailsWith (.objCreate pair buf) s r 0x0003 :=
  exec_responds (a := .err 0x0003) (exec_objCreate pair buf s) served (by decide)
    ((if_neg (by rw [there]; decide)).trans (if_pos (Bool.not_eq_false _ ▸ mt (objFormed_iff s r).1 bad)))

variable (formed : s.objFormed r)

include formed

theorem objCreate_full (full : s.freeHandle = none) : FailsWith (.objCreate pair buf) s r 0x000F := by
  refine exec_responds (a := .err 0x000F) (exec_objCreate pair buf s) served (by decide)
    ((if_neg (by rw [there]; decide)).trans ((if_neg (Bool.not_eq_true _ ▸ (objFormed_iff s r).2 formed)).trans ?_))
  rw [full] <;> rfl

variable {h : Nat} (free : s.freeHandle = some h)

include free

theorem objCreate_unbacked {e : Nat}
    (none_ : s.newBacking (r.n 0x12 1) (r.n 0x13 1) (r.n 0x20 8) (r.n 0x14 1) buf = .error e) :
    FailsWith (.objCreate pair buf) s r e := by
  refine exec_responds (a := .err e) (exec_objCreate pair buf s) served (by decide)
    ((if_neg (by rw [there]; decide)).trans ((if_neg (Bool.not_eq_true _ ▸ (objFormed_iff s r).2 formed)).trans ?_))
  rw [free]
  dsimp only
  rw [none_]

variable {b : Backing} {s1 : State}
  (backed : s.newBacking (r.n 0x12 1) (r.n 0x13 1) (r.n 0x20 8) (r.n 0x14 1) buf = .ok (b, s1))

include backed

theorem objCreate_unmapped (full : (s1.withBacking b).mapObj (r.newObj s1.mmu.nextBacking) h b = none) :
    FailsWith (.objCreate pair buf) s r 0x0204 := by
  refine exec_responds (a := .err 0x0204) (exec_objCreate pair buf s) served (by decide)
    ((if_neg (by rw [there]; decide)).trans ((if_neg (Bool.not_eq_true _ ▸ (objFormed_iff s r).2 formed)).trans ?_))
  rw [free]
  dsimp only
  rw [backed]
  dsimp only
  exact State.mapAnswer_none full

theorem objCreate_succeeds {u : State} (mapped : (s1.withBacking b).mapObj (r.newObj s1.mmu.nextBacking) h b = some u) :
    Succeeds (.objCreate pair buf) s u r 0 (result [(0x10, 4, h)]) := by
  refine exec_responds (a := .ok (result [(0x10, 4, h)]) 0) (exec_objCreate pair buf s) served (by decide)
    ((if_neg (by rw [there]; decide)).trans ((if_neg (Bool.not_eq_true _ ▸ (objFormed_iff s r).2 formed)).trans ?_))
  rw [free]
  dsimp only
  rw [backed]
  dsimp only
  exact State.mapAnswer_some mapped

end

theorem objCreate_acts {buf : Option (List Byte)} (served : Serves (.objCreate pair buf) s r x) :
    let i := Instr.objCreate pair buf
    let asid := r.n 0x10 2
    let placement := r.n 0x12 1
    let die := r.n 0x13 1
    let page := r.n 0x14 1
    let access := r.n 0x15 1
    let cpol := r.n 0x16 1
    let va := r.n 0x18 8
    let size := r.n 0x20 8
    let formed := placement ≤ 3 ∧ page ≤ 3 ∧ access ≤ 3 ∧ cpol ≤ 2 ∧ s.rangeOk asid va size page = true
      ∧ (placement = 3 → die ≠ s.caravan.die ∧ ∃ d, mget s.caravan.topo die = some d ∧ d.st = 1)
    (mget s.mmu.asids asid = none → FailsWith i s r 0x000E)
    ∧ (mhas s.mmu.asids asid = true → ¬ formed → FailsWith i s r 0x0003)
    ∧ (mhas s.mmu.asids asid = true → formed →
      (s.freeHandle = none → FailsWith i s r 0x000F)
      ∧ ∀ h, s.freeHandle = some h → mget s.mmu.objs h = none
        ∧ (∀ e, s.newBacking placement die size page buf = .error e → FailsWith i s r e)
        ∧ ∀ b s1, s.newBacking placement die size page buf = .ok (b, s1) →
          let key := s1.mmu.nextBacking
          let s2 := { s1 with mmu := { s1.mmu with backings := mset s1.mmu.backings key b, nextBacking := key + 1 } }
          let o : Obj := ⟨asid, va, size, page, access, cpol, key, .live, 0, [], none⟩
          (s2.mapObj o h b = none → FailsWith i s r 0x0204)
          ∧ ∀ u, s2.mapObj o h b = some u → Succeeds i s u r 0 (result [(0x10, 4, h)]) ∧ u.obj? h = some o
            ∧ (∀ k, k ≠ h → u.obj? k = s.obj? k) ∧ mget u.mmu.backings key = some b ∧ b.placement = placement
            ∧ u.mmu.nextHandle = (h + 1) % 2 ^ 20 ∧ u.queues = s.queues ∧ u.engines = s.engines ∧ u.events = s.events
            ∧ (placement = 0 → b.size = size ∧ b.base + size ≤ min s.mmu.ptBase s.mem.capacity
              ∧ ∀ z ∈ s.mmu.reserved, b.base + size ≤ z.1 ∨ z.1 + z.2 ≤ b.base)) := by
  obtain ⟨m, row, hs⟩ := served
  cases row
  intro i asid placement die page access cpol va size formed
  refine ⟨fun absent => objCreate_noSpace hs absent, fun there bad => objCreate_malformed hs there bad, fun there ok =>
    ⟨fun full => objCreate_full hs there ok full, fun h free => ⟨State.freeHandle_free free,
      fun e none_ => objCreate_unbacked hs there ok free none_, fun b s1 backed => ?_⟩⟩⟩
  intro key s2 o
  refine ⟨fun full => objCreate_unmapped hs there ok free backed full, fun u mapped => ⟨objCreate_succeeds hs there ok free backed
    mapped, ?_⟩⟩
  obtain ⟨⟨_, _, rfl⟩, place, own⟩ := newBacking_backs backed
  obtain ⟨_, ⟨_, _, rfl⟩, rfl⟩ := mapObj_maps mapped
  exact ⟨mget_mset_self _ _ _, fun k other => mget_mset_ne _ _ other, mget_mset_self _ _ _, place, rfl, rfl, rfl, rfl, own⟩

end

section

variable {s : State} {pair : Fin 8} {r : Req} {x : Session}

theorem exec_objAlias (pair : Fin 8) (s : State) : exec (.objAlias pair) s = execObjAlias pair s := rfl

/-- Another handle's object over the backing of an object (R201). -/
def Obj.aliasAs (o : Obj) (asid va access : Nat) : Obj :=
  { o with asid := asid, va := va, access := access, uses := 0, horizons := [], event := none }

theorem objAlias_acts (served : Serves (.objAlias pair) s r x) :
    let i := Instr.objAlias pair
    let asid := r.n 0x14 2
    let access := r.n 0x16 1
    let va := r.n 0x18 8
    (mget s.mmu.asids asid = none → FailsWith i s r 0x000E)
    ∧ (mhas s.mmu.asids asid = true → s.obj? (r.n 0x10 4) = none → FailsWith i s r 0x000E)
    ∧ ∀ o, mhas s.mmu.asids asid = true → s.obj? (r.n 0x10 4) = some o →
      (o.st ≠ .live → FailsWith i s r 0x0201)
      ∧ (o.st = .live → (3 < access ∨ s.rangeOk asid va o.size o.page = false) → FailsWith i s r 0x0003)
      ∧ (∀ h b, o.st = .live → access ≤ 3 → s.rangeOk asid va o.size o.page = true → s.freeHandle = some h →
        mget s.mmu.backings o.backing = some b →
        let o' := { o with asid := asid, va := va, access := access, uses := 0, horizons := [], event := none }
        (s.mapObj o' h b = none → FailsWith i s r 0x0204)
        ∧ ∀ u, s.mapObj o' h b = some u → Succeeds i s u r 0 (result [(0x10, 4, h)]) ∧ u.obj? h = some o'
          ∧ o'.backing = o.backing ∧ ∀ k, k ≠ h → u.obj? k = s.obj? k) := by
  obtain ⟨m, row, hs⟩ := served
  cases row
  intro i asid access va
  have answers : ∀ {a : Ans} {u : State}, _ → ∃ t, exec i s = .next t
      ∧ Responds u t r true a.frame.1 a.frame.2.1 a.frame.2.2.1 a.frame.2.2.2 :=
    fun {a u} acts => exec_responds (a := a) (u := u) (exec_objAlias pair s) hs (by decide) acts
  refine ⟨fun absent => ?_, fun there gone => ?_, fun o there found => ⟨fun dead => ?_, fun live bad => ?_,
    fun h b live low range free backed => ?_⟩⟩
  · refine answers (a := .err 0x000E) (if_pos ?_)
    rw [mhas_eq_false.2 absent]
    rfl
  · refine answers (a := .err 0x000E) ((if_neg (by rw [there]; decide)).trans ?_)
    rw [gone] <;> rfl
  · refine answers (a := .err 0x0201) ((if_neg (by rw [there]; decide)).trans ?_)
    rw [found]
    exact if_pos dead
  · refine answers (a := .err 0x0003) ((if_neg (by rw [there]; decide)).trans ?_)
    rw [found]
    exact (if_neg (not_not.2 live)).trans (if_pos (by simpa using bad))
  · have mapped : ∀ {a : Ans} {u : State}, s.mapAnswer s (o.aliasAs asid va access) h b = (a, u) → ∃ t, exec i s = .next t
          ∧ Responds u t r true a.frame.1 a.frame.2.1 a.frame.2.2.1 a.frame.2.2.2 := by
      intro a u maps
      refine answers ((if_neg (by rw [there]; decide)).trans ?_)
      rw [found]
      refine (if_neg (not_not.2 live)).trans ((if_neg (by simpa using And.intro low range)).trans ?_)
      rw [free, backed]
      exact maps
    intro o'
    refine ⟨fun full => mapped (a := .err 0x0204) (State.mapAnswer_none full), fun u maps =>
      ⟨mapped (a := .ok (result [(0x10, 4, h)]) 0) (State.mapAnswer_some maps), ?_⟩⟩
    obtain ⟨_, ⟨_, _, rfl⟩, rfl⟩ := mapObj_maps maps
    exact ⟨mget_mset_self _ _ _, rfl, fun k other => mget_mset_ne _ _ other⟩

/-! ### Doom (R206) -/

/-- A live object that is doomed waits for the horizons of the queues of its address space (R206). -/
def Obj.doomed_ (s : State) (event : Option (Nat × Dword)) (o : Obj) : Obj :=
  { o with st := .dooming, horizons := (s.queues.filter (fun p => p.2.asid = o.asid)).map (fun p => (p.1, p.2.tail)), event := event }

theorem obj?_doom {s : State} {h : Nat} {o : Obj} (found : s.obj? h = some o) (live : o.st = .live)
    (event : Option (Nat × Dword)) (k : Nat) : (s.doom h event).obj? k
      = if k = h then some ((o.doomed_ s event).reached s) else (s.obj? k).map (Obj.reached s) := by
  have dooms : s.doom h event = (s.modObj h fun o' => { o' with
      st := .dooming, horizons := (s.queues.filter (fun p => p.2.asid = o.asid)).map (fun p => (p.1, p.2.tail))
      event := event }).checkDoom := by
    unfold State.doom
    rw [found]
    exact if_neg (not_not.2 live)
  rw [dooms, obj?_checkDoom, obj?_modObj, found]
  split <;> rfl

theorem doom_dead {s : State} {h : Nat} (dead : ∀ o, s.obj? h = some o → o.st ≠ .live) (event : Option (Nat × Dword)) :
    s.doom h event = s := by
  unfold State.doom
  split
  · rfl
  next o found => rw [if_pos (dead o found)]

theorem doom_rest (s : State) (h : Nat) (event : Option (Nat × Dword)) :
    ∃ m, s.doom h event = { s with mmu := { s.mmu with objs := m } } := by
  unfold State.doom
  split
  · exact ⟨s.mmu.objs, rfl⟩
  · split
    · exact ⟨s.mmu.objs, rfl⟩
    · exact ⟨_, rfl⟩

theorem doomed_reached (s : State) (event : Option (Nat × Dword)) (o : Obj) : ((o.doomed_ s event).reached s).st =
    if ∀ q ∈ s.queues, q.2.asid = o.asid → s.pastHorizon (q.1, q.2.tail) = true then .doomed else .dooming := by
  have all : (((s.queues.filter (fun p => p.2.asid = o.asid)).map (fun p => (p.1, p.2.tail))).filter
      (fun z => !s.pastHorizon z)).isEmpty = true
        ↔ ∀ q ∈ s.queues, q.2.asid = o.asid → s.pastHorizon (q.1, q.2.tail) = true := by
    simp only [List.isEmpty_iff, List.filter_eq_nil_iff, List.forall_mem_map, List.mem_filter, decide_eq_true_eq, and_imp,
      Bool.not_eq_true', Bool.not_eq_false]
  unfold Obj.reached Obj.doomed_
  rw [if_pos rfl]
  by_cases past : ∀ q ∈ s.queues, q.2.asid = o.asid → s.pastHorizon (q.1, q.2.tail) = true
  · rw [if_pos past]
    exact if_pos (all.2 past)
  · rw [if_neg past]
    exact if_neg (mt all.1 past)

theorem Obj.reached_rest (s : State) (o : Obj) : { o.reached s with st := o.st, horizons := o.horizons } = o := by
  unfold Obj.reached
  split <;> rfl

theorem Obj.reached_dead {s : State} {o : Obj} (dead : o.st ≠ .live) : (o.reached s).st ≠ .live := by
  unfold Obj.reached
  split
  · dsimp only
    split <;> decide
  · exact dead

theorem exec_objFree (pair : Fin 8) (s : State) : exec (.objFree pair) s = execObjFree pair s := rfl

theorem objFree_acts (served : Serves (.objFree pair) s r x) :
    let i := Instr.objFree pair
    let h := r.n 0x10 4
    let ev := r.n 0x14 4
    ((2 ^ 20 ≤ h ∨ (ev ≠ 0xFFFFFFFF ∧ 131071 < ev)) → FailsWith i s r 0x0003)
    ∧ (h < 2 ^ 20 → (ev = 0xFFFFFFFF ∨ ev ≤ 131071) →
      (s.obj? h = none → FailsWith i s r 0x0201)
      ∧ ∀ o, s.obj? h = some o →
        (o.st ≠ .live → FailsWith i s r 0x0201)
        ∧ (o.st = .live → ev ≠ 0xFFFFFFFF → mget s.events ev = none → FailsWith i s r 0x000E)
        ∧ (o.st = .live → (ev = 0xFFFFFFFF ∨ mhas s.events ev = true) → ∃ u o', Succeeds i s u r 0 (zeros 48)
          ∧ u.obj? h = some o' ∧ { o' with st := o.st, horizons := o.horizons, event := o.event } = o
          ∧ o'.st = (if ∀ q ∈ s.queues, q.2.asid = o.asid → s.pastHorizon (q.1, q.2.tail) = true then .doomed else .dooming)
          ∧ o'.event = (if ev = 0xFFFFFFFF then none else some (ev, BitVec.ofNat 64 (r.n 0x18 8)))
          ∧ { u with mmu := { u.mmu with objs := s.mmu.objs } } = s)) := by
  obtain ⟨m, row, hs⟩ := served
  cases row
  intro i h ev
  have answers : ∀ {a : Ans} {u : State}, _ → ∃ t, exec i s = .next t
      ∧ Responds u t r true a.frame.1 a.frame.2.1 a.frame.2.2.1 a.frame.2.2.2 :=
    fun {a u} acts => exec_responds (a := a) (u := u) (exec_objFree pair s) hs (by decide) acts
  refine ⟨fun bad => ?_, fun low event => ?_⟩
  · exact answers (a := .err 0x0003) (if_pos (by simpa using bad))
  · have ok : ¬(decide (2 ^ 20 ≤ h) || (decide (ev ≠ 0xFFFFFFFF) && decide (131071 < ev))) = true := by
      simp only [Bool.or_eq_true, Bool.and_eq_true, decide_eq_true_eq]
      omega
    refine ⟨fun gone => ?_, fun o found => ⟨fun dead => ?_, fun live bound lost => ?_, fun live bound => ?_⟩⟩
    · refine answers (a := .err 0x0201) ((if_neg ok).trans ?_)
      rw [gone] <;> rfl
    · refine answers (a := .err 0x0201) ((if_neg ok).trans ?_)
      rw [found]
      exact if_pos dead
    · refine answers (a := .err 0x000E) ((if_neg ok).trans ?_)
      rw [found]
      refine (if_neg (not_not.2 live)).trans (if_pos ?_)
      rw [mhas_eq_false.2 lost]
      simpa using bound
    · generalize he : (if ev = 0xFFFFFFFF then none else some (ev, BitVec.ofNat 64 (r.n 0x18 8)) : Option (Nat × Dword)) = event
      refine ⟨s.doom h event, (o.doomed_ s event).reached s, answers (a := .ok (zeros 48) 0) ((if_neg ok).trans ?_),
        by rw [obj?_doom found live, if_pos rfl], ?_, doomed_reached s event o, ?_, ?_⟩
      · rw [found, ← he]
        refine (if_neg (not_not.2 live)).trans (if_neg ?_)
        rcases bound with unbound | bound
        · rw [show r.n 0x14 4 = 0xFFFFFFFF from unbound]
          simp
        · rw [show mhas s.events (r.n 0x14 4) = true from bound]
          simp
      · exact congrArg (fun a : Obj => { a with st := o.st, horizons := o.horizons, event := o.event })
          (Obj.reached_rest s (o.doomed_ s event))
      · exact congrArg Obj.event (Obj.reached_rest s (o.doomed_ s event))
      · obtain ⟨m, e⟩ := doom_rest s h event
        rw [e]

theorem exec_objQuery (pair : Fin 8) (s : State) : exec (.objQuery pair) s = execObjQuery pair s := rfl

theorem objQuery_acts (served : Serves (.objQuery pair) s r x) :
    let i := Instr.objQuery pair
    let h := r.n 0x10 4
    (2 ^ 20 ≤ h → FailsWith i s r 0x0003)
    ∧ (h < 2 ^ 20 → s.obj? h = none → Succeeds i s s r 0 (zeros 48))
    ∧ (∀ o, h < 2 ^ 20 → s.obj? h = some o → Succeeds i s s r 0 (result
        [(0x10, 1, o.st.code), (0x14, 4, o.uses), (0x18, 8, o.va), (0x20, 8, o.size), (0x28, 2, o.asid)])) := by
  obtain ⟨m, row, hs⟩ := served
  cases row
  intro i h
  refine ⟨fun high => exec_responds (a := .err 0x0003) (exec_objQuery pair s) hs (by decide) (if_pos high),
    fun low gone => ?_, fun o low found => ?_⟩
  · refine exec_responds (a := .ok (zeros 48) 0) (exec_objQuery pair s) hs (by decide) ((if_neg (Nat.not_le.2 low)).trans ?_)
    rw [gone] <;> rfl
  · refine exec_responds (a := .ok (result [(0x10, 1, o.st.code), (0x14, 4, o.uses), (0x18, 8, o.va), (0x20, 8, o.size),
      (0x28, 2, o.asid)]) 0) (exec_objQuery pair s) hs (by decide) ((if_neg (Nat.not_le.2 low)).trans ?_)
    rw [found]

end

section

variable {s : State} {pair : Fin 8} {r : Req} {x : Session}

/-! ### Heaps (R208, R212) -/

theorem exec_heapCreate (pair : Fin 8) (s : State) : exec (.heapCreate pair) s = execHeapCreate pair s := rfl

theorem heapCreate_acts (served : Serves (.heapCreate pair) s r x) :
    let i := Instr.heapCreate pair
    let k := heapKey (r.n 0x10 2) (r.n 0x12 1)
    (mget s.mmu.asids (r.n 0x10 2) = none → FailsWith i s r 0x000E)
    ∧ (mhas s.mmu.asids (r.n 0x10 2) = true → mget s.mmu.heaps k = none →
      Succeeds i s { s with mmu := { s.mmu with heaps := mset s.mmu.heaps k ⟨[], [], [], 0⟩ } } r 0 (zeros 48)) := by
  obtain ⟨m, row, hs⟩ := served
  cases row
  intro i k
  refine ⟨fun absent => ?_, fun there empty => ?_⟩
  · refine exec_responds (a := .err 0x000E) (exec_heapCreate pair s) hs (by decide) (if_pos ?_)
    rw [mhas_eq_false.2 absent]
    rfl
  · refine exec_responds (a := .ok (zeros 48) 0) (exec_heapCreate pair s) hs (by decide)
      ((if_neg (by rw [there]; decide)).trans (if_neg ?_))
    rw [mhas_eq_false.2 empty]
    decide

theorem exec_heapAdd (pair : Fin 8) (s : State) : exec (.heapAdd pair) s = execHeapAdd pair s := rfl

/-- May an object become a heap object of an address space (R208)? -/
def State.heapFit (s : State) (asid h : Nat) (o : Obj) : Prop :=
  o.st = .live ∧ o.asid = asid ∧ o.va % 2 ^ 21 = 0 ∧ o.size % 2 ^ 21 = 0 ∧ ∀ p ∈ s.mmu.heaps, ∀ y ∈ p.2.objs, y.1 ≠ h

theorem heapFit_iff (s : State) (asid h : Nat) (o : Obj) : (decide (o.st ≠ .live) || decide (o.asid ≠ asid)
    || decide (o.va % 2 ^ 21 ≠ 0) || decide (o.size % 2 ^ 21 ≠ 0)
    || s.mmu.heaps.any (fun p => p.2.objs.any (fun x => x.1 = h))) = false ↔ s.heapFit asid h o := by
  unfold State.heapFit
  simp only [Bool.or_eq_false_iff, decide_eq_false_iff_not, not_not, List.any_eq_false, decide_eq_true_eq, Bool.not_eq_true,
    and_assoc, ne_eq]

theorem heapAdd_acts (served : Serves (.heapAdd pair) s r x) :
    let i := Instr.heapAdd pair
    let asid := r.n 0x10 2
    let k := heapKey asid (r.n 0x12 1)
    let h := r.n 0x14 4
    (mget s.mmu.heaps k = none → FailsWith i s r 0x000E)
    ∧ ∀ hp, mget s.mmu.heaps k = some hp →
      (s.obj? h = none → FailsWith i s r 0x0203)
      ∧ ∀ o, s.obj? h = some o →
        (¬ s.heapFit asid h o → FailsWith i s r 0x0203)
        ∧ (s.heapFit asid h o → s.reserve (o.size / 2 ^ 21 * 4096) 4096 = none → FailsWith i s r 0x000F)
        ∧ (∀ a s1, s.heapFit asid h o → s.reserve (o.size / 2 ^ 21 * 4096) 4096 = some (a, s1) →
          Succeeds i s { s1 with mmu := { s1.mmu with
            heaps := mset s.mmu.heaps k { hp with objs := hp.objs ++ [(h, a)] } } } r 0 (zeros 48)) := by
  obtain ⟨m, row, hs⟩ := served
  cases row
  dsimp only
  have answers : ∀ {a : Ans} {u : State}, _ → ∃ t, exec (.heapAdd pair) s = .next t
      ∧ Responds u t r true a.frame.1 a.frame.2.1 a.frame.2.2.1 a.frame.2.2.2 :=
    fun {a u} acts => exec_responds (a := a) (u := u) (exec_heapAdd pair s) hs (by decide) acts
  refine ⟨fun empty => ?_, fun hp slot => ⟨fun gone => ?_, fun o found => ⟨fun bad => ?_, fun fit full => ?_,
    fun a s1 fit reserved => ?_⟩⟩⟩
  · refine answers (a := .err 0x000E) ?_
    dsimp only
    rw [empty] <;> rfl
  · refine answers (a := .err 0x0203) ?_
    dsimp only
    rw [slot]
    dsimp only
    rw [gone] <;> rfl
  · refine answers (a := .err 0x0203) ?_
    dsimp only
    rw [slot]
    dsimp only
    rw [found]
    exact if_pos (Bool.not_eq_false _ ▸ mt (heapFit_iff s _ _ o).1 bad)
  · refine answers (a := .err 0x000F) ?_
    dsimp only
    rw [slot]
    dsimp only
    rw [found]
    refine (if_neg (Bool.not_eq_true _ ▸ (heapFit_iff s _ _ o).2 fit)).trans ?_
    rw [full] <;> rfl
  · refine answers (a := .ok (zeros 48) 0) ?_
    dsimp only
    rw [slot]
    dsimp only
    rw [found]
    refine (if_neg (Bool.not_eq_true _ ▸ (heapFit_iff s _ _ o).2 fit)).trans ?_
    rw [reserved]
    obtain ⟨_, _, rfl⟩ := reserve_range reserved
    rfl

theorem exec_heapDestroy (pair : Fin 8) (s : State) : exec (.heapDestroy pair) s = execHeapDestroy pair s := rfl

/-- Two states that differ at most in reservations and in objects that have been doomed. -/
structure Dooms (s t : State) : Prop where
  rest : ∃ m l, t = { s with mmu := { s.mmu with objs := m, reserved := l } }
  has : ∀ h, (t.obj? h).isSome = (s.obj? h).isSome
  dead : ∀ h, (∀ o, s.obj? h = some o → o.st ≠ .live) → ∀ o, t.obj? h = some o → o.st ≠ .live

theorem Dooms.refl (s : State) : Dooms s s := ⟨⟨_, _, rfl⟩, fun _ => rfl, fun _ h => h⟩
theorem Dooms.trans {s t u : State} (a : Dooms s t) (b : Dooms t u) : Dooms s u := by
  refine ⟨?_, fun h => (b.has h).trans (a.has h), fun h dead => b.dead h (a.dead h dead)⟩
  obtain ⟨_, _, rfl⟩ := a.rest
  obtain ⟨_, _, rfl⟩ := b.rest
  exact ⟨_, _, rfl⟩
theorem Dooms.unreserve (s : State) (a : Nat) : Dooms s (s.unreserve a) := ⟨⟨_, _, rfl⟩, fun _ => rfl, fun _ h => h⟩

/-- Dooming leaves an object that is not live. -/
theorem doom_dooms (s : State) (h : Nat) (event : Option (Nat × Dword)) :
    Dooms s (s.doom h event) ∧ ∀ o, (s.doom h event).obj? h = some o → o.st ≠ .live := by
  by_cases dead : ∀ o, s.obj? h = some o → o.st ≠ .live
  · rw [doom_dead dead]
    exact ⟨.refl s, dead⟩
  · push Not at dead
    obtain ⟨o, found, live⟩ := dead
    have objs := obj?_doom found live event
    obtain ⟨m, e⟩ := doom_rest s h event
    refine ⟨⟨⟨m, s.mmu.reserved, e⟩, fun k => ?_, fun k dead o' there => ?_⟩, fun o' there => ?_⟩
    · rw [objs]
      split
      next same => rw [same, found]; rfl
      · cases s.obj? k <;> rfl
    · rw [objs] at there
      split at there
      next same => exact absurd live (dead o (same ▸ found))
      · obtain ⟨p, hp, rfl⟩ := Option.map_eq_some_iff.1 there
        exact Obj.reached_dead (dead p hp)
    · rw [objs, if_pos rfl] at there
      rw [← Option.some.inj there]
      exact Obj.reached_dead (show ObjState.dooming ≠ .live by decide)

/-- Heap objects leave a heap that is destroyed: their bookkeeping is free, and they are doomed. -/
theorem foldl_dooms (l : List (Nat × Nat)) : ∀ s : State,
    Dooms s (l.foldl (fun s x => (s.unreserve x.2).doom x.1 none) s)
    ∧ ∀ y ∈ l, ∀ o, (l.foldl (fun s x => (s.unreserve x.2).doom x.1 none) s).obj? y.1 = some o → o.st ≠ .live := by
  induction l with
  | nil => exact fun s => ⟨.refl s, nofun⟩
  | cons y l ih =>
    intro s
    obtain ⟨first, dead⟩ := doom_dooms (s.unreserve y.2) y.1 none
    obtain ⟨rest, others⟩ := ih ((s.unreserve y.2).doom y.1 none)
    refine ⟨((Dooms.unreserve s y.2).trans first).trans rest, fun z member => ?_⟩
    rcases List.mem_cons.1 member with rfl | later
    · exact rest.dead z.1 dead
    · exact others z later

theorem heapDestroy_acts (served : Serves (.heapDestroy pair) s r x) :
    let i := Instr.heapDestroy pair
    let k := heapKey (r.n 0x10 2) (r.n 0x12 1)
    (mget s.mmu.heaps k = none → FailsWith i s r 0x000E)
    ∧ ∀ hp, mget s.mmu.heaps k = some hp → ∃ u, Succeeds i s u r 0 (zeros 48) ∧ u.mmu.heaps = merase s.mmu.heaps k
      ∧ (∀ y ∈ hp.objs, ∀ o, u.obj? y.1 = some o → o.st ≠ .live) ∧ (∀ h, (u.obj? h).isSome = (s.obj? h).isSome)
      ∧ { u with mmu := s.mmu } = s := by
  obtain ⟨m, row, hs⟩ := served
  cases row
  dsimp only
  refine ⟨fun empty => ?_, fun hp slot => ?_⟩
  · refine exec_responds (a := .err 0x000E) (exec_heapDestroy pair s) hs (by decide) ?_
    dsimp only
    rw [empty] <;> rfl
  · obtain ⟨dooms, dead⟩ := foldl_dooms hp.objs
      { s with mmu := { s.mmu with heaps := merase s.mmu.heaps (heapKey (r.n 0x10 2) (r.n 0x12 1)) } }
    refine ⟨_, exec_responds (a := .ok (zeros 48) 0) (exec_heapDestroy pair s) hs (by decide) (by dsimp only; rw [slot] <;> rfl), ?_,
      dead, dooms.has, ?_⟩
    · obtain ⟨_, _, e⟩ := dooms.rest
      rw [e]
    · obtain ⟨_, _, e⟩ := dooms.rest
      rw [e]

theorem exec_heapQuery (pair : Fin 8) (s : State) : exec (.heapQuery pair) s = execHeapQuery pair s := rfl

theorem heapResult_bytes (sizes free used bad count : Nat) :
    result [(0x10, 4, sizes), (0x14, 4, free), (0x18, 8, used), (0x20, 4, bad), (0x24, 1, count)]
      = leBytes 4 sizes ++ leBytes 4 free ++ leBytes 8 used ++ leBytes 4 bad ++ leBytes 1 count ++ zeros 27 := by
  simp [result, putLe, putBytes, zeros, leBytes, List.replicate]

/-- Bytes between others, as a number. -/
theorem getLe_middle (before after : List Byte) (n v : Nat) :
    getLe (before ++ (leBytes n v ++ after)) before.length n = v % 2 ^ (8 * n) := by
  rw [getLe, ← leNat_leBytes n v]
  congr 1
  simp [slice]

/-- The fields of the result of a HEAP_QUERY. -/
theorem heapResult_fields (sizes free used bad count : Nat) :
    let res := result [(0x10, 4, sizes), (0x14, 4, free), (0x18, 8, used), (0x20, 4, bad), (0x24, 1, count)]
    getLe res 0 4 = sizes % 2 ^ 32 ∧ getLe res 8 8 = used % 2 ^ 64 ∧ getLe res 0x10 4 = bad % 2 ^ 32
      ∧ getLe res 0x14 1 = count % 256 := by
  intro res
  rw [show res = _ from heapResult_bytes sizes free used bad count]
  simp only [List.append_assoc]
  refine ⟨getLe_middle [] _ 4 sizes, ?_, ?_, ?_⟩
  · rw [← List.append_assoc]
    exact getLe_middle (leBytes 4 sizes ++ leBytes 4 free) _ 8 used
  · rw [← List.append_assoc, ← List.append_assoc]
    exact getLe_middle (leBytes 4 sizes ++ leBytes 4 free ++ leBytes 8 used) _ 4 bad
  · rw [← List.append_assoc, ← List.append_assoc, ← List.append_assoc]
    exact getLe_middle (leBytes 4 sizes ++ leBytes 4 free ++ leBytes 8 used ++ leBytes 4 bad) _ 1 count

/-- The result of a HEAP_QUERY (R212). -/
def State.heapAnswer (s : State) (hp : Heap) : List Byte :=
  let sizes := hp.objs.map (fun x => match s.obj? x.1 with | some o => o.size / 2 ^ 21 | none => 0)
  let free := ((s.heapChunks hp).filter hp.chunkFree).length
  let used := hp.blocks.foldl (fun a b => a + 64 * 2 ^ b.2) 0
  result [(0x10, 4, sizes.foldl (· + ·) 0), (0x14, 4, free), (0x18, 8, used), (0x20, 4, hp.badFrees.toNat),
    (0x24, 1, hp.objs.length)]

theorem heapAnswer_fields (s : State) (hp : Heap) :
    getLe (s.heapAnswer hp) 0 4
      = (hp.objs.map (fun y => match s.obj? y.1 with | some o => o.size / 2 ^ 21 | none => 0)).sum % 2 ^ 32
    ∧ getLe (s.heapAnswer hp) 8 8 = (hp.blocks.map (fun b => 64 * 2 ^ b.2)).sum % 2 ^ 64
    ∧ getLe (s.heapAnswer hp) 0x10 4 = hp.badFrees.toNat ∧ getLe (s.heapAnswer hp) 0x14 1 = hp.objs.length % 256 := by
  unfold State.heapAnswer
  obtain ⟨sizes, used, bad, count⟩ := heapResult_fields
    ((hp.objs.map (fun x => match s.obj? x.1 with | some o => o.size / 2 ^ 21 | none => 0)).foldl (· + ·) 0)
    ((s.heapChunks hp).filter hp.chunkFree).length (hp.blocks.foldl (fun a b => a + 64 * 2 ^ b.2) 0) hp.badFrees.toNat
    hp.objs.length
  refine ⟨sizes.trans ?_, used.trans ?_, bad.trans (Nat.mod_eq_of_lt hp.badFrees.isLt), count⟩
  · rw [← List.sum_eq_foldl]
  · rw [List.sum_eq_foldl, List.foldl_map]

theorem heapQuery_acts (served : Serves (.heapQuery pair) s r x) :
    let i := Instr.heapQuery pair
    let k := heapKey (r.n 0x10 2) (r.n 0x12 1)
    (mget s.mmu.heaps k = none → FailsWith i s r 0x000E)
    ∧ ∀ hp, mget s.mmu.heaps k = some hp → ∃ res, Succeeds i s s r 0 res
      ∧ getLe res 0 4 = (hp.objs.map (fun y => match s.obj? y.1 with | some o => o.size / 2 ^ 21 | none => 0)).sum % 2 ^ 32
      ∧ getLe res 8 8 = (hp.blocks.map (fun b => 64 * 2 ^ b.2)).sum % 2 ^ 64
      ∧ getLe res 0x10 4 = hp.badFrees.toNat ∧ getLe res 0x14 1 = hp.objs.length % 256 := by
  obtain ⟨m, row, hs⟩ := served
  cases row
  dsimp only
  refine ⟨fun empty => ?_, fun hp slot => ?_⟩
  · refine exec_responds (a := .err 0x000E) (exec_heapQuery pair s) hs (by decide) ?_
    dsimp only
    rw [empty] <;> rfl
  · refine ⟨s.heapAnswer hp, exec_responds (a := .ok (s.heapAnswer hp) 0) (exec_heapQuery pair s) hs (by decide) ?_,
      heapAnswer_fields s hp⟩
    dsimp only
    rw [slot] <;> rfl

end

/-! ### Reclaim (R207) -/

theorem heapForget_rest (s : State) (h : Nat) (o : Obj) :
    ∃ m l, s.heapForget h o = { s with mmu := { s.mmu with heaps := m, reserved := l } } := by
  have freed : ∀ l : List (Nat × Nat), ∃ m, l.foldl (fun s x => s.unreserve x.2) s
      = { s with mmu := { s.mmu with reserved := m } } := fun l => by
    refine List.foldlRecOn (motive := fun t : State => ∃ m, t = { s with mmu := { s.mmu with reserved := m } }) l _
      ⟨s.mmu.reserved, rfl⟩ fun t ht a _ => ?_
    obtain ⟨m, rfl⟩ := ht
    exact ⟨_, rfl⟩
  unfold State.heapForget
  dsimp only
  obtain ⟨l, e⟩ := freed (s.mmu.heaps.map (fun p => p.2.objs.filter (fun x => x.1 = h && p.1 / 256 = o.asid))).flatten
  rw [e]
  exact ⟨_, _, rfl⟩

theorem releaseBacking_kept (s : State) (key : Nat) :
    (s.releaseBacking key).mmu.objs = s.mmu.objs ∧ (s.releaseBacking key).events = s.events := by
  unfold State.releaseBacking
  split
  · exact ⟨rfl, rfl⟩
  · split
    · exact ⟨rfl, rfl⟩
    next b _ =>
      dsimp only
      split
      · exact ⟨rfl, rfl⟩
      · split
        · obtain ⟨_, _, _, e⟩ := askDie_accessed { s with mmu := { s.mmu with backings := merase s.mmu.backings key } } b.die
            (mgmtBytes mgmtRelease 0 (leBytes 8 b.base))
          rw [e]
          exact ⟨rfl, rfl⟩
        · exact ⟨rfl, rfl⟩

/-- A local backing that no handle maps is zeroed. -/
theorem releaseBacking_zeroes {s : State} {key : Nat} (unmapped : ∀ p ∈ s.mmu.objs, p.2.backing ≠ key) {b : Backing}
    (found : mget s.mmu.backings key = some b) (here : b.placement ≤ 1) {a : Nat} (low : b.base ≤ a)
    (high : a < b.base + b.size) : memGet (s.releaseBacking key).mem.cells a = 0 := by
  have placed : (decide (b.placement = 0) || decide (b.placement = 1)) = true := by
    rw [Bool.or_eq_true, decide_eq_true_eq, decide_eq_true_eq]
    omega
  unfold State.releaseBacking
  rw [if_neg (by simpa using fun k o member => unmapped (k, o) member), found]
  dsimp only
  rw [if_pos placed]
  exact memGet_zeroed low high

/-- An object that has lost its pages, its place in heaps, its handle and its backing. -/
def State.removed (s : State) (h : Nat) (o : Obj) : State :=
  let root := match mget s.mmu.asids o.asid with | some a => a.root | none => 0
  let s := (s.unmapPages o.asid root o.va o.page (o.size / pageCode o.page)).heapForget h o
  { s with mmu := { s.mmu with objs := merase s.mmu.objs h } }.releaseBacking o.backing

theorem reclaim_eq {s : State} {h : Nat} {o : Obj} (found : s.obj? h = some o) : s.reclaim h = match o.event with
    | some (ev, v) => (s.removed h o).recordEvent ev v.toNat false
    | none => s.removed h o := by
  unfold State.reclaim
  rw [found] <;> rfl

/-- Before its backing is given back, an object that goes has changed tables, heaps and handles. -/
theorem unmapped_kept (s : State) (h : Nat) (o : Obj) (asid root va page n : Nat) :
    ((s.unmapPages asid root va page n).heapForget h o).mmu.objs = s.mmu.objs
    ∧ ((s.unmapPages asid root va page n).heapForget h o).mmu.backings = s.mmu.backings
    ∧ ((s.unmapPages asid root va page n).heapForget h o).events = s.events := by
  obtain ⟨_, _, forgot⟩ := heapForget_rest (s.unmapPages asid root va page n) h o
  obtain ⟨_, _, unmapped⟩ := unmapPages_tabled s asid root va page n
  rw [forgot, unmapped]
  exact ⟨rfl, rfl, rfl⟩

theorem removed_kept (s : State) (h : Nat) (o : Obj) :
    (s.removed h o).mmu.objs = merase s.mmu.objs h ∧ (s.removed h o).events = s.events := by
  unfold State.removed
  dsimp only
  generalize (match mget s.mmu.asids o.asid with | some a => a.root | none => 0) = root
  obtain ⟨objs, _, events⟩ := unmapped_kept s h o o.asid root o.va o.page (o.size / pageCode o.page)
  generalize (s.unmapPages o.asid root o.va o.page (o.size / pageCode o.page)).heapForget h o = u at objs events ⊢
  obtain ⟨objs', events'⟩ := releaseBacking_kept { u with mmu := { u.mmu with objs := merase u.mmu.objs h } } o.backing
  exact ⟨objs'.trans (congrArg (merase · h) objs), events'.trans events⟩

theorem removed_zeroes {s : State} {h : Nat} {o : Obj} (alone : ∀ p ∈ s.mmu.objs, p.1 ≠ h → p.2.backing ≠ o.backing)
    {b : Backing} (found : mget s.mmu.backings o.backing = some b) (here : b.placement ≤ 1) {a : Nat} (low : b.base ≤ a)
    (high : a < b.base + b.size) : memGet (s.removed h o).mem.cells a = 0 := by
  unfold State.removed
  dsimp only
  generalize (match mget s.mmu.asids o.asid with | some a => a.root | none => 0) = root
  obtain ⟨objs, backings, _⟩ := unmapped_kept s h o o.asid root o.va o.page (o.size / pageCode o.page)
  refine releaseBacking_zeroes (fun p member => ?_) (backings ▸ found) here low high
  dsimp only at member
  rw [objs] at member
  obtain ⟨member, other⟩ := List.mem_filter.1 member
  exact alone p member (of_decide_eq_true other)

theorem exec_objectReclaim {s : State} {h : Nat} {o : Obj} (found : s.obj? h = some o) : exec (.objectReclaim h) s
    = .next (if s.live && o.st = .doomed && o.uses = 0 then s.reclaim h else s) := by
  show execObjectReclaim h s = _
  unfold execObjectReclaim
  rw [found]

theorem objectReclaim_acts {s : State} (h : Nat) (o : Obj) (found : s.obj? h = some o) :
    ((s.live = false ∨ o.st ≠ .doomed ∨ o.uses ≠ 0) → exec (.objectReclaim h) s = .next s)
    ∧ (s.live = true → o.st = .doomed → o.uses = 0 → ∃ t, exec (.objectReclaim h) s = .next t ∧ t.obj? h = none
      ∧ (∀ k, k ≠ h → t.obj? k = s.obj? k)
      ∧ (∀ b, (∀ p ∈ s.mmu.objs, p.1 ≠ h → p.2.backing ≠ o.backing) → mget s.mmu.backings o.backing = some b → b.placement ≤ 1 →
          ∀ a, b.base ≤ a → a < b.base + b.size → memGet t.mem.cells a = 0)
      ∧ (∀ ev v e, o.event = some (ev, v) → mget s.events ev = some e → e.count.toNat < v.toNat →
          ∃ f, mget t.events ev = some f ∧ f.count = v)) := by
  have run := exec_objectReclaim found
  refine ⟨fun stays => ?_, fun live doomed unused => ?_⟩
  · rw [run, if_neg]
    simp only [Bool.and_eq_true, decide_eq_true_eq]
    rintro ⟨⟨live, doomed⟩, unused⟩
    rcases stays with h | h | h
    · rw [live] at h
      cases h
    · exact h doomed
    · exact h unused
  · rw [if_pos (by simp [live, doomed, unused])] at run
    obtain ⟨objs, events⟩ := removed_kept s h o
    -- the event comes last, and leaves objects and memory
    have last : (s.reclaim h).mmu = (s.removed h o).mmu ∧ (s.reclaim h).mem = (s.removed h o).mem := by
      rw [reclaim_eq found]
      split
      next ev v _ =>
        obtain ⟨mem, _, _, mmu⟩ := (recordEvent_signalled (s.removed h o) ev v.toNat false).rest
        exact ⟨mmu, mem⟩
      · exact ⟨rfl, rfl⟩
    obtain ⟨mmu, mem⟩ := last
    have left : ∀ k, (s.reclaim h).obj? k = if k = h then none else s.obj? k := fun k => by
      rw [State.obj?, mmu, objs, mget_merase]
      rfl
    refine ⟨_, run, by rw [left, if_pos rfl], fun k other => by rw [left, if_neg other], fun b alone backed here a low high => ?_,
      fun ev v e bound there fewer => ?_⟩
    · rw [mem]
      exact removed_zeroes alone backed here low high
    · rw [← events] at there
      have raised := (recordEvent_raises there v.toNat false).2
      rw [if_pos fewer] at raised
      rw [reclaim_eq found, bound]
      exact ⟨_, raised, by simp⟩

theorem objectReclaim_absent {s : State} (h : Nat) (gone : s.obj? h = none) : exec (.objectReclaim h) s = .next s := by
  show execObjectReclaim h s = _
  unfold execObjectReclaim
  rw [gone]

/-- Settles O40: each command answers as its branch of the model says; mapping, unmapping and giving a backing back concern
tables, traffic and reservations, so that every other object, queue and event stays. -/
theorem objectsAndHeapsAreManaged : Obligations.ObjectsAndHeapsAreManaged := by
  unfold Obligations.ObjectsAndHeapsAreManaged
  intro pair buf s r x
  refine ⟨asidCreate_acts, asidDestroy_acts, objCreate_acts, objAlias_acts, objFree_acts, fun served => ?_, heapCreate_acts,
    heapAdd_acts, heapDestroy_acts, heapQuery_acts, objectReclaim_acts, objectReclaim_absent⟩
  obtain ⟨high, gone, found⟩ := objQuery_acts served
  exact ⟨high, gone, found⟩

end Sys2Proof.Machine
